-- ==== Sys2Proof/Word.lean ====
section
/-! DEFINITION. Sys2Proof/Word.lean: the word and identifier types of R7 and R8. -/

namespace Sys2Proof

/-- A register: every register is 64 bits wide (R8). -/
abbrev Word := BitVec 64
/-- A byte of a memory the part reads or writes. -/
abbrev Byte := BitVec 8
/-- A wingbeat number: a 48-bit count whose comparisons are modulo 2^48 (R27). -/
abbrev Wb := BitVec 48
/-- A fabric time: the 64-bit counter of R36, in units of 625 ps. -/
abbrev Ftu := BitVec 64
/-- A chip number (R7): 0xFFFF broadcast, 0xFFFE the manager alias. -/
abbrev Chip := Fin 65536
/-- A fabric port, 0 to 127 (R7). -/
abbrev Port := Fin 128
/-- A wing, 0 to 3 (R7). -/
abbrev Wing := Fin 4
/-- A context number, 12 bits (R7). -/
abbrev Ctx := Fin 4096
/-- A slice number, 10 bits (R7). -/
abbrev Slice := Fin 1024
/-- A rank, 16 bits (R7). -/
abbrev Rank := Fin 65536
/-- A queue number: 4,096 queues on each of 4 wings. -/
abbrev Queue := Fin 16384
/-- An owner number of Table 15.6: 0 free (or a wing steward on its mailbox), 1 Antenna A, 2 Antenna B, 3 firmware, 4 debug
port. -/
abbrev Owner := Fin 5
/-- A mailbox number, 0 to 63. -/
abbrev Mailbox := Fin 64
/-- An Antenna port: 0 A, 1 B. -/
abbrev Antenna := Fin 2

end Sys2Proof
end

