-- ==== Sys2Proof/Messages.lean ====
section
/-! DEFINITION. Sys2Proof/Messages.lean: what arrives at the part and what leaves it: ordered sets, identity messages,
management messages, packets and frames, as the chapters lay them out. The commands of Syntax.lean carry these; the
outbox of the state lists them in the order sent. -/

namespace Sys2Proof

/-- A link of the part: ports 0 to 127, and 128 for the Twin port (R66). -/
abbrev Link := Fin 129

/-- The TIME ordered set of Table 2.4. `checkOk` says that CHECK is right for the other bytes (R38). -/
structure TimeSet where
  seq : Fin 256
  echoSeq : Fin 256
  locked : Bool
  root : Bool
  coasting : Bool
  depth : Fin 256
  checkOk : Bool
  tSend : Ftu
  echoRx : Ftu
deriving DecidableEq, Repr

/-- The IDENT message of Table 3.4. `checkOk` says that CHECK is right for bytes 0 to 29 (R53). -/
structure Ident where
  ack : Bool
  endpoint : Bool
  chip : Chip
  port : Fin 256
  mode : Fin 4
  efpMajor : Fin 256
  efpMinor : Fin 256
  fwBuild : BitVec 32
  serial : BitVec 32
  deviceId : Word
  features : BitVec 32
  checkOk : Bool
deriving DecidableEq, Repr

/-- What a management message says about who sent it and where it goes (Table 5.1, R100). -/
structure MsgHdr where
  src : Chip
  epoch : Nat
  seq : Nat
  bcast : Bool
deriving DecidableEq, Repr

/-- The five forms of WB_CHANGE (R28, Table 5.2). -/
inductive WbChange where
  | change (m : Wb) (len : Fin 4)
  | ack (m : Wb)
  | commit (m : Wb)
  | cancel (m : Wb)
  | query (m : Wb)
deriving DecidableEq, Repr

/-- The body of WB_BASE (Table 5.2, R27, R37). Upstream and alternate use the encoding of FT_STATUS. -/
structure WbBase where
  baseFtu : Ftu
  baseNum : Wb
  len : Fin 4
  depth : Fin 256
  upstream : Fin 256
  alternate : Fin 256
deriving DecidableEq, Repr

/-- A packet: the header fields of Table 4.2, the payload, and the trailer of Table 4.4. `resvZero` says that every
reserved field of header and trailer is zero. -/
structure Packet where
  tc : Fin 8
  vc : Fin 8
  kind : Fin 256
  hopPtr : Fin 16
  hopCount : Fin 16
  addrMode : Fin 2
  payFlits : Fin 128
  epoch : Fin 256
  ctx : Ctx
  slice : Slice
  srcChip : Chip
  dstChip : Chip
  srcUnit : Fin 256
  dstUnit : Fin 256
  dstRank : Rank
  srcRank : Rank
  chunk : BitVec 32
  seq : BitVec 32
  sendTime : BitVec 40
  path : List (Fin 256)
  arg : Word
  hdrCrc : BitVec 32
  payload : List Byte
  e2eCrc : Word
  residue : Word
  truncated : Bool
  ackSoon : Bool
  refused : Bool
  resvZero : Bool
deriving DecidableEq, Repr

/-- A packet with every field zero: the start of the packets the part makes. -/
def Packet.blank : Packet :=
  ⟨0, 0, 0, 0, 0, 0, 0, 0, 0, 0, 0, 0, 0, 0, 0, 0, 0, 0, 0, [], 0, 0, [], 0, 0, false, false, false, true⟩

/-- Where a path ends on this chip (R75): an internal unit by its code 0x80 to 0x8C, or an edge port. -/
inductive Delivery where
  | unit (code : Fin 256)
  | edge (port : Port)
deriving DecidableEq, Repr

/-- One switch-to-switch hop of a route (R90): the output port used and the chip it reaches. -/
structure Hop where
  port : Port
  chip : Chip
deriving DecidableEq, Repr

/-- An entry of the switch path table (R90). `alt` is empty where the entry has no alternate. -/
structure RouteEntry where
  dst : Chip
  prim : List Hop
  alt : Option (List Hop)
  useAlt : Bool
  noPath : Bool
deriving DecidableEq, Repr

/-- A bank: the switch path table, the LEVEL table, the broadcast children (R91, R107). -/
structure Bank where
  entries : List RouteEntry
  levels : List (Chip × Fin 256)
  children : List Port
deriving DecidableEq, Repr

/-- A sequence space of firmware commands (R331): owners 1 and 2 share one, owner 4 has its own, and each management
session of a service port has its own. -/
inductive FwSpace where
  | owners
  | debug
  | session (port : Port) (session : Nat)
deriving DecidableEq, Repr

/-- The accepted firmware command that a command of the table runs: its sequence space and SEQ (R331). -/
structure FwRef where
  space : FwSpace
  seq : Fin 65536
deriving DecidableEq, Repr

/-- What a FAULT message names (Table 5.2): a failed unit, port or endpoint. -/
inductive Failed where
  | unit (kind wing index : Nat)
  | port (p : Nat)
  | endpoint (p : Nat)
  /-- The chip that reports: it goes into forward-only operation (R370). -/
  | chip
deriving DecidableEq, Repr

/-- A port entry of the installation map (Table 5.4). -/
structure MapPort where
  mode : Fin 4
  peerKind : Fin 256
  peerChip : Fin 65536
  peerPort : Fin 65536
  peerDevice : Word
deriving DecidableEq, Repr

/-- A chip entry of the installation map (Table 5.4) with its 128 port entries. -/
structure MapChip where
  device : Word
  chip : Chip
  role : Fin 256
  cell : Fin 256
  model : Fin 256
  initial : Fin 256
  ports : List MapPort
deriving DecidableEq, Repr

/-- The installation map (R101, Tables 5.3 and 5.4). `resvZero` says that every reserved field is zero. -/
structure InstMap where
  magic : BitVec 32
  format : Fin 256
  compat : Bool
  serial : BitVec 32
  mapSeq : BitVec 32
  ocsCount : Fin 65536
  authDigest : BitVec 256
  chips : List MapChip
  authKey : List Byte
  sig : List Byte
  resvZero : Bool
deriving DecidableEq, Repr

/-- A cross-connect of a reshape plan (R119). -/
structure Cross where
  ocs : Fin 65536
  portA : Fin 65536
  portB : Fin 65536
deriving DecidableEq, Repr

/-- A reshape plan (R119). -/
structure Plan where
  id : BitVec 32
  shape : Fin 256
  x : Fin 256
  y : Fin 256
  z : Fin 256
  mapSeq : BitVec 32
  cross : List Cross
deriving DecidableEq, Repr

/-- A member of a slice: a chip and an edge port (R109). -/
structure Member where
  chip : Chip
  port : Fin 256
deriving DecidableEq, Repr

/-- A slice entry of SLICE_TABLE (Table 5.2, R110): the rank map, and the boundaries of a quiesce, a resume and a seal (R111,
R297). -/
structure SliceEntry where
  slice : Slice
  rows : List (BitVec 32)
  quiesceAt : Option Wb
  resumeAt : Option Wb
  /-- Boundary of the seal (R297). -/
  sealAt : Option Wb
  /-- The slice has been destroyed: the entry goes, and its keys are erased (R297). -/
  gone : Bool
deriving DecidableEq, Repr

/-- What starts the manager's failure reaction (R115): a LINK_LOSS announcement or a FAULT message. -/
inductive FaultMsg where
  | loss (chip : Chip) (port : Port) (cause : Fin 2)
  | fault (what : Failed) (cause : Nat)
  | alive (port : Nat)
deriving DecidableEq, Repr

/-- A chip's place in the time tree (R37): depth, primary and alternate upstream in the encoding of FT_STATUS. -/
structure TreeEntry where
  depth : Fin 256
  upstream : Fin 256
  alternate : Fin 256
deriving DecidableEq, Repr

/-- Who rings a doorbell (R145): an endpoint by a DOORBELL packet, or the control node by a register write. -/
inductive DbSource where
  | endpoint (chip : Chip) (port : Port) (ctx : Ctx) (epoch : Fin 256)
  | controlNode
deriving DecidableEq, Repr

/-- An answer to a read that a step of the part makes of memory outside its own pool pages: the global address, the status,
and the bytes read. -/
structure RemoteRead where
  addr : Nat
  status : Nat
  bytes : List Byte
deriving DecidableEq, Repr

/-- A node of a collective (slice, COLL_NUM[31:0], height) or of a Skipper group (group, height) on this chip. -/
inductive NodeId where
  | coll (slice : Slice) (num : BitVec 32) (height : Fin 3)
  | skip (group : Fin 4096) (height : Fin 3)
deriving DecidableEq, Repr

/-- How the check of a chunk's reduction ended (R183): passed at once, on the recomputation, on a spare lane, or not at
all. -/
inductive ReduceCheck where
  | passed
  | recomputed
  | spare
  | undelivered
deriving DecidableEq, Repr

/-- The SEAL ordered set of Table 14.6. `checkOk` says that CHECK is right for the other bytes (R301). -/
structure SealSet where
  fail : Bool
  empty : Bool
  checkOk : Bool
  interval : BitVec 32
  tag : BitVec 128
deriving DecidableEq, Repr

/-- A node of a bouquet (Table 11.6): FIRST_CORE, SIGNAL_CTR and REPORT_QUEUE as `first`, `sigCtr` and `queue`. -/
structure BqNode where
  typ : Nat
  flags : Nat
  wing : Nat
  threads : Nat
  chip : Nat
  first : Nat
  cores : Nat
  slots : Nat
  localBytes : Nat
  ctx : Nat
  sigCtr : Nat
  queue : Nat
  param : List Byte
deriving DecidableEq, Repr

/-- A step of a bouquet (Table 11.7). -/
structure BqStep where
  node : Nat
  offset : Nat
  cycles : Nat
  auto : Bool
  opAllowed : Bool
  accBytes : Nat
deriving DecidableEq, Repr

/-- A port claim of a bouquet (Table 11.7). -/
structure BqClaim where
  chip : Nat
  port : Nat
  dir : Nat
  offset : Nat
  units : Nat
deriving DecidableEq, Repr

/-- A member entry of a bouquet (Table 11.7). -/
structure BqMember where
  chip : Nat
  port : Nat
  queue : Nat
deriving DecidableEq, Repr

/-- A bouquet as its image gives it (Tables 11.5 to 11.7). -/
structure Bq where
  variant : Nat
  length : Nat
  period : Nat
  kernelMin : Nat
  seed : Nat
  nodes : List BqNode
  steps : List BqStep
  claims : List BqClaim
  members : List BqMember
deriving DecidableEq, Repr

/-- The seven values of a refused load (R241). -/
structure BqRefusal where
  status : Nat
  resource : Nat
  chip : Nat
  index : Nat
  offset : Nat
  need : Nat
  limit : Nat
deriving DecidableEq, Repr

/-- What passes between the Monarch and the chips of a load (R239): the image, and a chip's answer. -/
inductive BqMsg where
  | image (load : Nat) (slice : Slice) (bytes : List Byte)
  | answer (load : Nat) (refusal : Option BqRefusal)
deriving DecidableEq, Repr

/-- A chip's report at a seal (R297 step 3): KEYED with a POLICY_DIGEST, and whether every endpoint bound there for the slice
sets SEALED_LINKS. -/
structure SealReport where
  chip : Chip
  policy : Option (BitVec 256)
  linksOk : Bool
deriving DecidableEq, Repr

/-- A firmware image as it comes to the checks of R290 (R336). -/
structure FwImage where
  cls : Fin 4
  build : BitVec 32
  bytes : List Byte
  /-- The outcome of the checks of R290 on the certificate chain and signature: 0 good, otherwise RESULT of Table 16.13. -/
  verdict : Fin 5
deriving DecidableEq, Repr

/-- What the start test of stage 4 finds (R344): units tested on each wing and in the Thorax; the units that fail, as kind, place
and physical index; logical slots of Accord SRAM left ABSENT, as wing and slot; and the fewest spare rows left in the local
store of any core, by wing. -/
structure StartTest where
  units : List Nat
  thorax : Nat
  fails : List (Nat × Nat × Nat)
  slots : List (Nat × Nat)
  lsMin : List Nat
deriving DecidableEq, Repr

/-- An Antenna frame (Tables 15.2 and 15.3). `resvZero` says that every reserved field is zero. -/
structure AntFrame where
  typ : Fin 256
  flags : Fin 256
  status : Fin 256
  seq : Fin 65536
  ack : Fin 65536
  tag : BitVec 32
  len : Nat
  addr : Word
  data : List Byte
  resvZero : Bool
deriving DecidableEq, Repr

/-- A section of the dump, after the header section and before the trailer (R390): what the read-out engine has read. -/
structure DumpSec where
  kind : Nat
  die : Nat
  unit : Nat
  index : Nat
  slice : Nat
  offset : Nat
  data : List Byte
deriving DecidableEq, Repr

/-- The straps as they stand when the part samples them (Table 21.4). -/
structure Straps where
  role : Fin 4
  serialSel : Fin 4
  debugEn : Bool
deriving DecidableEq, Repr

/-- A bulk-move datagram (Table 3.8): header fields and the decrypted payload. -/
structure BulkDgram where
  version : Fin 256
  opcode : Fin 256
  flags : Fin 256
  status : Fin 256
  session : BitVec 32
  seq : BitVec 32
  len : Nat
  addr : Word
  data : List Byte
deriving DecidableEq, Repr

/-- What an Ethernet frame of a service port carries (Table 3.7). -/
inductive EthKind where
  /-- A priority flow control frame: priorities paused. -/
  | pfc (prios : List (Fin 8))
  | lldp
  /-- Neighbor Solicitation and Advertisement for an address. -/
  | neighbour (target : BitVec 128)
  | advert (target : BitVec 128)
  | echo
  | echoReply
  | udp (port : Fin 65536)
  | ipv6
  | ipv4
  | arp
  | other
deriving DecidableEq, Repr

/-- An Ethernet frame on a service port (R62): length with FCS, VLAN ID of its tag, and the IPv6 destination. -/
structure EthFrame where
  kind : EthKind
  len : Nat
  fcsOk : Bool
  vlan : Option (Fin 4096)
  dst : BitVec 128
deriving DecidableEq, Repr

/-- The manager's own record of a wingbeat length change it broadcast (R28). -/
structure MonChange where
  m : Wb
  len : Fin 4
  acks : List Chip
  decision : Option Bool
  ref : FwRef
deriving DecidableEq, Repr

/-- A neighbour report the manager holds (R103), with the verdict it gave. -/
structure Report where
  chip : Nat
  port : Nat
  state : Nat
  id : Ident
  verdict : Option Bool
deriving DecidableEq, Repr

/-- The last AGENT_STATUS of a chip (R99, R114): when it came and what it said. -/
structure StatusRec where
  chip : Nat
  heard : Wb
  version : Nat
  mapSeq : Nat
  ports : List (Nat × Nat)
deriving DecidableEq, Repr

/-- Where a slice stands with the manager (R109, R111). -/
inductive SlicePhase where
  /-- OPEN, and never quiesced. -/
  | fresh
  | running
  /-- A quiesce waits, from its boundary. -/
  | quiescing
  /-- Stopped: the quiesce timed out, and no quiesce waits. -/
  | stopped
  | quiesced
deriving DecidableEq, Repr

/-- A slice as the manager holds it (R109 to R112). -/
structure SliceRec where
  num : Nat
  compat : Bool
  members : List Member
  phase : SlicePhase
  /-- Boundary of the quiesce, of the resume, and of the seal. -/
  quiesceAt : Wb
  resumeAt : Option Wb
  sealAt : Option Wb
  isSealed : Bool
  /-- The command that waits for the slice to become QUIESCED. -/
  ref : Option FwRef
deriving DecidableEq, Repr

/-- A drain and swap as the manager runs it (Table 4.9): the banks sent, who accepted, who has drained. -/
structure MgrDrain where
  banks : List (Nat × Bank)
  slices : List Nat
  acks : List Nat
  zeros : List Nat
  /-- 0 banks being written, 1 STOP sent, 2 SWAP sent. -/
  phase : Nat
  stopAt : Wb
  swapAt : Wb
  /-- Commands answered with ROUTE_VERSION once the swap is done. -/
  refs : List FwRef
  /-- The plan this change prepares, announced by EVT_PLAN_READY (R119). -/
  prepares : Bool
deriving DecidableEq, Repr

/-- A failure whose reaction is in progress (Table 5.8): its event and parameters, raised at step 6. -/
structure Failure where
  evt : Nat
  args : List (Nat × Nat)
deriving DecidableEq, Repr

/-- A bouquet load as the manager holds it (R239, R245): the chips it names, their answers, when the image was sent, and once
committed its handle and START. -/
structure MgrLoad where
  id : Nat
  slice : Nat
  image : List Byte
  bq : Option Bq
  chips : List Nat
  sentAt : Option Ftu
  answers : List (Nat × Option BqRefusal)
  ref : FwRef
  handle : Nat
  start : Wb
  /-- An unload asked for that waits its turn (R239). -/
  want : Option FwRef
  unloadAt : Option Wb
  degraded : Bool
deriving DecidableEq, Repr

/-- The manager's records of the pod (R96 to R119). -/
structure MgrSt where
  /-- Chips in service (R107, R117). -/
  service : List Nat
  reports : List Report
  statuses : List StatusRec
  slices : List SliceRec
  drain : Option MgrDrain
  /-- Inputs have changed and a recompute is due (R108); the commands that wait for its install. -/
  recompute : Option (List FwRef)
  failures : List Failure
  plans : List Plan
  applied : Option Plan
  prepared : Option Plan
  /-- PLAN_PREPARE commands that wait for the prepared plan to be applied or cancelled (R119). -/
  prepWait : List (FwRef × BitVec 32)
  /-- Switches declared failed (R114). -/
  failed : List Nat
  /-- The bank last computed for each chip (R107). -/
  banks : List (Nat × Bank)
  drains : Nat
  /-- Ports announced narrowed and not seen wide since (R114). -/
  narrowed : List (Nat × Nat)
  loads : List MgrLoad
  /-- The last refused load (BQ_STATUS with handle 0), and loads begun. -/
  refusal : Option BqRefusal
  loadSeq : Nat
deriving DecidableEq, Repr

/-- A journal entry (R331). -/
structure JournalEntry where
  ref : FwRef
  digest : Nat
  opcode : Nat
  done : Bool
  code : Nat
  value : Nat
  block : List Byte
  /-- The most recent delivery: command mailbox, sender, FORM, RESULT and RESULT_LEN. -/
  mbx : Nat
  owner : Nat
  form : Nat
  area : Nat
  room : Nat
  /-- The slice and TENANT_SEQ of a tenant command whose result has not been posted yet (R296, R334). -/
  tenant : Option (Nat × Nat)
deriving DecidableEq, Repr

/-- The manager state that a delta or a snapshot carries (Table 6.3): the records of the manager firmware, whose contents
the spec leaves to it (R126; log entry 11). -/
structure MgrRecords where
  mgr : MgrSt
  change : Option MonChange
  journal : List JournalEntry
  revertHold : Bool
deriving DecidableEq, Repr

/-- The body of HEARTBEAT (Table 6.2). -/
structure Beat where
  state : Fin 8
  synced : Bool
  revertHold : Bool
  viaTwin : Bool
  wb : Wb
  sentFtu : Ftu
  deltaWb : BitVec 32
  holdLeft : BitVec 32
deriving DecidableEq, Repr

/-- The bodies of the management messages the part sends and receives (Tables 5.2, 5.10, 6.2 and 16.13). -/
inductive Mgmt where
  | nbrReport (port state : Nat) (id : Ident)
  | nbrVerdict (port : Nat) (isMatch : Bool) (chip : Chip) (peerPort : Fin 256) (device : Word)
  | linkLoss (chip : Chip) (port : Nat) (cause : Nat)
  | creditAudit (free : List Nat)
  | agentStatus (routeVersion mapSeq : Nat) (ports : List (Nat × Nat))
  | tableWrite (bank : Bank)
  | tableAck (refused : Option Nat)
  | stop (slices : List Nat) (s : Wb)
  | drainZero
  | swap (k : Wb)
  | wbBase (b : WbBase)
  | wbChange (c : WbChange)
  | fault (what : Failed) (cause : Nat)
  /-- The endpoint on an edge port is ALIVE again (R121). -/
  | endpointAlive (port : Nat)
  | sliceTable (e : SliceEntry)
  | mapUpdate (m : InstMap)
  | epDiscover (chip port len depth : Nat) (baseFtu : Ftu) (baseNum : Wb)
  | epochNotice (ctx epoch : Nat) (fromWb : Wb)
  | heartbeat (b : Beat)
  | stateDelta (forWb : Wb) (recs : MgrRecords)
  | snapshot (forWb : Wb) (piece pieces : Nat) (recs : MgrRecords)
  | deltaAck (forWb : Wb)
  | takeover (epoch : Nat) (chip : Nat) (fromWb : Wb)
  | snapReq
  | takeback (t : Wb) (ack : Bool)
  | epochProbe
  | epochReply (highest : Nat) (manager : Nat) (routeVersion mapSeq : Nat) (ports : List (Nat × Nat))
  /-- A bouquet image, a chip's answer, commit with handle and START or abort, and an unload (R239, R245). -/
  | bqImage (load slice : Nat) (image : List Byte)
  | bqAnswer (load : Nat) (refusal : Option BqRefusal)
  | bqCommit (load : Nat) (go : Option (Nat × Wb))
  | bqUnload (handle : Nat) (u : Wb)
  /-- Firmware distribution (Table 16.13). -/
  | fwOffer (cls build bytes pieces : Nat) (digest : BitVec 256)
  | fwPiece (piece build : Nat) (data : List Byte)
  | fwResult (build result : Nat)
  | fwNeed (build first count : Nat)
deriving DecidableEq, Repr

/-- What leaves the part, or passes between its units, as one thing: an ordered set, a message, a packet. -/
inductive OutMsg where
  /-- A TIME ordered set sent on a link (R38). -/
  | timeSet (l : Link) (t : TimeSet)
  /-- An IDENT message on every lane of a link (R53). -/
  | ident (l : Link) (id : Ident)
  /-- A LANE_MAP ordered set naming the lane pairs kept (R51). -/
  | laneMap (l : Link) (pairs : List Nat)
  /-- Qualification phase 1 or 2 starts on a link (R58). -/
  | qualPhase (l : Link) (phase : Nat)
  /-- QUAL_REPORT: the receive verdict and worst-lane BER (R58). -/
  | qualReport (l : Link) (pass : Bool) (berErrs berBits : Nat)
  /-- The transmitters of a link are turned off, or on to train. -/
  | transmit (l : Link) (on : Bool)
  /-- Credits returned to the peer in CREDITS fields (R79). -/
  | credits (l : Link) (vc n : Nat)
  /-- A packet's header flit advances to an output port (R78). -/
  | packet (l : Link) (p : Packet)
  /-- Further flits of a packet whose header went before (R78). -/
  | flits (l : Link) (vc n : Nat)
  /-- A trailer with TRUNCATED set ends the packet in progress (R68). -/
  | truncated (l : Link) (vc : Nat)
  /-- A packet reaches a delivery code of this chip (R76). -/
  | arrived (d : Delivery) (p : Packet)
  /-- A packet that passed the checks of R77 is handed to its consumer. -/
  | handed (d : Delivery) (p : Packet)
  /-- A management message to one chip, or to every chip for 0xFFFF (R100). -/
  | mgmt (dst : Nat) (epoch seq : Nat) (m : Mgmt)
  /-- A broadcast received is sent on to the broadcast children (R100). -/
  | relay (children : List Port) (src seq : Nat)
  /-- A link-local management message (R100). -/
  | linkMgmt (l : Link) (m : Mgmt)
  /-- Bytes written to control-node memory through an Antenna port (R315), by Atomizer-S. -/
  | hostWrite (owner : Nat) (addr : Nat) (bytes : List Byte)
  /-- A frame on an Antenna port (R310). -/
  | antFrame (ant : Nat) (f : AntFrame)
  /-- The answer to a register access of the debug port or the firmware: status and value. -/
  | access (owner status : Nat) (value : Word)
  /-- A service-port frame passed to the Thorax on VC6 (R62), and a frame that a service port sends. -/
  | service (port : Nat) (f : EthFrame)
  | ethernet (port : Nat) (f : EthFrame)
  /-- A bulk-move datagram that a service port sends (R63). -/
  | bulk (port : Nat) (d : BulkDgram)
  /-- FROZEN ordered sets start on a link (R388). -/
  | frozen (l : Link)
  /-- A SEAL ordered set (R301). -/
  | sealSet (l : Link) (t : SealSet)
deriving DecidableEq, Repr

end Sys2Proof
end

