-- ==== Sys2Proof/Syntax.lean ====
section
/-! DEFINITION. Sys2Proof/Syntax.lean: the commands of the part, one constructor per row of the table of operations and
events, with the operands that the row's rule gives it. -/

namespace Sys2Proof

/-- The commands: each row of the opcode table, whole and indivisible. -/
inductive Instr where
  /-- R27: The fabric time counter reaches BASE_FTU + (n − BASE_NUM) × L and wingbeat n begins. -/
  | wingbeatTick
  /-- R34: At a tick the wing's budget monitor ends a scheduled Hawk or Accord step still running, completing its commands with ST_OVERRUN and stopping the bouquet in that context. -/
  | budgetOverrun (wing : Wing)
  /-- R28: Firmware command that starts a pod-wide wingbeat length change with boundary m, refused while any bouquet is loaded. -/
  | wbLength (r : FwRef) (len : Fin 4)
  /-- R28: An agent or the Monarch receives a WB_CHANGE message (change, acknowledge, commit, cancel or query) and acts on it. -/
  | wbChangeReceive (h : MsgHdr) (c : WbChange)
  /-- R28: At m − 128 the Monarch records and broadcasts commit if every agent acknowledged, otherwise cancel. -/
  | wbChangeDecide
  /-- R28: At m − 16 an agent holding a change without a decision asks the Monarch for it. -/
  | wbChangeQuery
  /-- R28: At boundary m a committed agent sets the new base pair and length, or an undecided agent keeps the old length and refuses bouquet loads. -/
  | wbChangeApply
  /-- R27: An agent receives WB_BASE and installs the base pair, length, time-tree depth, upstream and alternate. -/
  | wbBaseReceive (h : MsgHdr) (b : WbBase)
  /-- R38: Every 2,048 FTU each link end sends a TIME ordered set stamped with its counter. -/
  | timeSetSend (l : Link)
  /-- R39: A TIME ordered set arrives; if valid and from the current upstream the chip computes offset and delay and corrects its rate. -/
  | timeSetReceive (l : Link) (t : TimeSet)
  /-- R40: No valid TIME set arrives for 4 intervals, or the upstream link is lost, and the chip moves to its alternate upstream or coasts. -/
  | lossOfUpstream
  /-- R43: A PPS_IN rising edge is stamped into FT_PPS_CAPTURE and, on the grandmaster with IN_EN, steers its rate. -/
  | ppsInEdge
  /-- R43: The counter reaches PHASE modulo 1,600,000,000 with OUT_EN set and PPS_OUT goes high. -/
  | ppsOutStart
  /-- R43: 160,000,000 FTU after its rise PPS_OUT returns low. -/
  | ppsOutEnd
  /-- R47: Firmware command that sets a port's mode and acts as a PORT reset of that port. -/
  | portMode (r : FwRef) (port : Port) (mode : Fin 4)
  /-- R49: A port detects loss of signal, FEC alignment or excess uncorrectable codewords, enters DOWN and announces LINK_LOSS. -/
  | lossOfLink (l : Link)
  /-- R50: A lane loses signal or exceeds the BER limit and the port narrows to six lanes or is lost. -/
  | laneFail (l : Link) (lane : Fin 8)
  /-- R51: The peer's LANE_MAP set or echo arrives and both ends resume striping over six lanes. -/
  | laneMapReceive (port : Port) (pairs : List (Fin 4)) (echo : Bool)
  /-- R60: A 1 s window ends on an UP port and each lane's pre-FEC BER is judged. -/
  | berWindowEnd (port : Port) (errs : List Nat) (bits corrected uncorrectable : Nat)
  /-- R53: Every 10 µs during training each end sends IDENT on every lane. -/
  | identSend (l : Link)
  /-- R54: A valid IDENT arrives and the port state is set by Table 3.5 and reported to the Monarch. -/
  | identReceive (l : Link) (id : Ident)
  /-- R53: No valid IDENT 100 ms after lane lock; the port reports DOWN and restarts training. -/
  | identTimeout (l : Link)
  /-- R58: After QUAL_TIME ÷ 2 of PRBS31 the port computes lane BER and starts FEC-encoded phase 2. -/
  | qualPhase1End (l : Link) (errs : List Nat) (bits : Nat)
  /-- R59: Phase 2 ends; the receive verdict is computed and QUAL_REPORT is sent. -/
  | qualPhase2End (l : Link) (counts : List Nat) (unc total : Nat)
  /-- R58: The peer's QUAL_REPORT arrives and the port enters UP or QUAL_FAIL. -/
  | qualReportReceive (l : Link) (pass : Bool)
  /-- R58: No QUAL_REPORT QUAL_TIME + 100 ms after phase 1 began; the port fails qualification. -/
  | peerSilent (l : Link)
  /-- R61: A port receives the FROZEN ordered set and enters FROZEN_PEER. -/
  | frozenSetReceive (port : Port)
  /-- R61: FROZEN sets stop arriving and the port retrains and requalifies. -/
  | frozenSetStop (port : Port)
  /-- R62: An Ethernet frame arrives on a service port and is filtered and passed to the Thorax on VC6. -/
  | serviceFrameReceive (port : Port) (f : EthFrame)
  /-- R64: A bulk-move datagram arrives and is authenticated, checked against grants and applied, acknowledged or NAKed. -/
  | bulkDatagramReceive (port : Port) (d : BulkDgram) (tagOk : Bool)
  /-- R65: A MGMT datagram on a management session carries a firmware command to the Thorax. -/
  | bulkMgmtDatagram (port : Port) (d : BulkDgram) (tagOk : Bool)
  /-- R64: 10 µs after a datagram with ACK_REQ, or at 64 datagrams, the receiver sends a cumulative ACK. -/
  | bulkAckTimer (port : Port) (session : BitVec 32)
  /-- R64: 100 µs without an ACK the sender resends from its oldest unacknowledged datagram. -/
  | bulkResendTimeout (port : Port) (session : BitVec 32)
  /-- R68: A flit slot arrives; its link check, credit return and packet framing are applied. -/
  | flitReceive (l : Link) (word : BitVec 32) (flit : List Byte)
  /-- R76: A header flit arrives, HDR_CRC is checked and the hop byte at HOP_PTR selects an output or delivery. -/
  | packetForward (l : Link) (p : Packet)
  /-- R77: A packet reaches its delivery code and is checked for chip, binding and epoch and handed to its consumer. -/
  | packetDeliver (src : Fin 256) (d : Delivery) (p : Packet)
  /-- R82: A VC1 to VC6 header waits over 2 wingbeats for a credit and moves to VC7. -/
  | creditWaitEscape (out : Link) (vc : Fin 8)
  /-- R82: A VC0 or VC7 header, or any payload or trailer flit, waits over 2 wingbeats and its packet is dropped. -/
  | creditWaitDrop (out : Link) (vc : Fin 8)
  /-- R79: Once per wingbeat each end sends its free-buffer counts in a CREDIT_AUDIT. -/
  | creditAuditSend (l : Link)
  /-- R79: A CREDIT_AUDIT arrives and the receiver raises its credit counters by any shortfall. -/
  | creditAuditReceive (l : Link) (free : List Nat)
  /-- R89: A packet from an endpoint is checked, bound, rank-translated and given a path at the edge port. -/
  | edgeIngress (port : Port) (p : Packet)
  /-- R87: Within the wingbeat after arrivals the destination sends one ACK per stream with base and map. -/
  | ackSend (unit : Fin 256) (chip : Chip) (peer : Fin 256) (ctx : Ctx) (epoch : Fin 256)
  /-- R88: An ACK arrives at a source and frees the copies it covers. -/
  | ackReceive (unit : Fin 256) (p : Packet)
  /-- R88: 2 wingbeats after its last transmission an unacknowledged tracked packet is resent on the current path. -/
  | resendTimeout (unit : Fin 256) (chip : Chip) (peer : Fin 256) (ctx : Ctx) (seq : BitVec 32)
  /-- R88: 2 wingbeats after the fourth resend the packet is given up and its command completes with ST_CHECK_FAIL. -/
  | resendLimit (unit : Fin 256) (chip : Chip) (peer : Fin 256) (ctx : Ctx) (seq : BitVec 32)
  /-- R93: A LINK_LOSS announcement arrives and the chip sets USE_ALT or NO_PATH on affected entries. -/
  | linkLossReceive (h : MsgHdr) (chip : Chip) (port : Fin 256) (cause : Fin 2)
  /-- R91: An agent receives TABLE_WRITE, checks the inactive bank against the up/down order and answers TABLE_ACK. -/
  | tableWriteReceive (h : MsgHdr) (bank : Bank)
  /-- R94: The Monarch receives an agent's acceptance or refusal of the inactive bank. -/
  | tableAckReceive (h : MsgHdr) (refused : Option Nat)
  /-- R94: An agent receives STOP naming the affected slices and boundary s. -/
  | stopReceive (h : MsgHdr) (slices : List Slice) (wb : Wb)
  /-- R94: At boundary s edge ports and internal sources stop the affected slices and counting of in-flight packets begins. -/
  | drainStopBoundary
  /-- R94: An agent's in-flight count reaches zero and it reports DRAIN_ZERO. -/
  | drainCountZero
  /-- R94: At s+64 an agent still counting drops the affected packets it holds and reports zero. -/
  | drainTimeout
  /-- R94: The Monarch receives a DRAIN_ZERO report. -/
  | drainZeroReceive (h : MsgHdr)
  /-- R94: At the first boundary after the last zero report the Monarch broadcasts SWAP naming k = d+2. -/
  | swapBroadcast
  /-- R94: An agent receives SWAP and arms the swap at wingbeat k. -/
  | swapReceive (h : MsgHdr) (wb : Wb)
  /-- R94: At boundary k every chip activates the new bank, releases held packets and increments ROUTE_VERSION. -/
  | swapApply
  /-- R95: A chip without SWAP by s+256 releases its slices on the old bank and writes a Sillage record. -/
  | swapMissed
  /-- R96: Firmware command that confirms the chip's role at Instar stage 7 if strap, command and map agree. -/
  | setRole (r : FwRef) (role : Fin 4)
  /-- R100: An unanswered MGMT message is repeated with the same MSG_SEQ after its interval. -/
  | mgmtRepeat (seq : Nat)
  /-- R103: Every 1,024 wingbeats an unanswered NBR_REPORT is repeated. -/
  | nbrReportRepeat (port : Port)
  /-- R103: The Monarch checks a neighbour report against the map and answers NBR_VERDICT. -/
  | nbrReportReceive (h : MsgHdr) (port : Port) (state : Fin 16) (id : Ident)
  /-- R104: An agent receives MATCH or MISMATCH and moves the port by Table 5.5. -/
  | nbrVerdictReceive (h : MsgHdr) (port : Port) (isMatch : Bool)
  /-- R102: Firmware command that checks and stores a signed installation map. -/
  | mapLoad (r : FwRef) (m : InstMap)
  /-- R105: Firmware command that adopts a new map to release quarantined ports. -/
  | adoptNeighbour (r : FwRef) (m : InstMap)
  /-- R105: An agent receives a MAP_UPDATE piece, checks the map and stores its digest. -/
  | mapUpdateReceive (h : MsgHdr) (piece pieces : Nat) (m : InstMap)
  /-- R99: Every 128 wingbeats the agent sends AGENT_STATUS to the Monarch. -/
  | agentStatusSend
  /-- R114: The Monarch receives AGENT_STATUS and updates its view of ports and versions. -/
  | agentStatusReceive (h : MsgHdr) (version mapSeq : Nat) (ports : List (Nat × Nat))
  /-- R114: The Monarch receives no AGENT_STATUS from a switch for 384 wingbeats and declares it failed. -/
  | switchSilent (chip : Chip)
  /-- R115: The Monarch receives LINK_LOSS or FAULT and starts the failure reaction. -/
  | faultReceive (h : MsgHdr) (m : FaultMsg)
  /-- R108: A route recompute completes and the new banks are written for drain and swap. -/
  | routeRecomputeDone (banks : List (Chip × Bank)) (tree : List (Chip × TreeEntry)) (time : Nat)
  /-- R110: An agent receives SLICE_TABLE and writes rank maps into pool memory. -/
  | sliceTableReceive (h : MsgHdr) (e : SliceEntry)
  /-- R109: Firmware command that creates a slice with its member list. -/
  | sliceCreate (r : FwRef) (slice flags : Fin 65536) (members : List Member)
  /-- R111: Firmware command that replaces a slice's member list. -/
  | sliceMembers (r : FwRef) (slice flags : Fin 65536) (members : List Member) (ran : Bool)
  /-- R111: Firmware command that quiesces a slice at boundary q. -/
  | sliceQuiesce (r : FwRef) (slice ahead : Fin 1024)
  /-- R111: At q the slice's queues start no new command and running commands stop at their next chunk boundary. -/
  | quiesceBoundary (slice : Slice)
  /-- R111: Every context of the slice has no running command and no unacknowledged packet; the slice is QUIESCED. -/
  | sliceQuiesced (slice : Slice)
  /-- R111: At q+64 the slice is not QUIESCED and the command returns ACK_TIMEOUT. -/
  | quiesceTimeout (slice : Slice)
  /-- R111: Firmware command that restarts a quiesced slice's queues at a named boundary. -/
  | sliceResume (r : FwRef) (slice ahead : Fin 1024)
  /-- R297: Tenant command to the Monarch that checks every chip is KEYED and broadcasts seal boundary z. -/
  | sliceSeal (r : FwRef) (slice : Slice) (tenant : Bool) (reports : List SealReport)
  /-- R297: At z each KEYED chip enters SEALED for the slice. -/
  | sealBoundary (slice : Slice)
  /-- R109: Firmware command that destroys a slice and erases its keys. -/
  | sliceDestroy (r : FwRef) (slice : Slice)
  /-- R117: Firmware command that brings an installed idle switch into service. -/
  | switchIn (r : FwRef) (chip : Chip)
  /-- R118: Firmware command that withdraws a switch from service. -/
  | switchOut (r : FwRef) (chip : Chip) (bound : Bool)
  /-- R119: Firmware command that exports a reshape plan for a shape to control-node memory. -/
  | planExport (r : FwRef) (owner : Fin 4) (shape x y z : Fin 256) (dest : Word) (destLen : Nat) (plan : Option Plan)
  /-- R119: Firmware command that installs a bank avoiding changing ports and raises EVT_PLAN_READY. -/
  | planPrepare (r : FwRef) (id : BitVec 32)
  /-- R119: Firmware command reporting the plan applied; the Monarch recomputes for the new shape. -/
  | planApplied (r : FwRef) (id : BitVec 32)
  /-- R119: Firmware command that cancels a prepared plan and returns routes to the applied plan. -/
  | planCancel (r : FwRef) (id : BitVec 32)
  /-- R108: Firmware command that returns route version and recompute statistics. -/
  | routeStatus (r : FwRef)
  /-- R120: The agent sends EP_DISCOVER when an edge port enters UP or the base pair changes, repeating every 4 wingbeats. -/
  | epDiscoverSend (port : Port)
  /-- R120: The agent receives EP_IDENTITY and records the endpoint as identified. -/
  | epIdentityReceive (port : Port) (device : Word) (window : Nat) (features : BitVec 32)
  /-- R121: The agent receives EP_HEARTBEAT and tracks the endpoint's liveness and wingbeat. -/
  | epHeartbeatReceive (port : Port) (wb : Wb)
  /-- R121: No heartbeat for 4 wingbeats makes the endpoint SILENT and the agent sends FAULT. -/
  | endpointSilent (port : Port)
  /-- R120: The agent receives EPOCH_ACK from an endpoint. -/
  | epochAckReceive (port : Port) (ctx : Ctx) (epoch : Fin 256)
  /-- R125: A manager chip receives the peer's HEARTBEAT on one path. -/
  | heartbeatReceive (h : MsgHdr) (twin : Bool) (b : Beat)
  /-- R131: At a tick after two silent wingbeats from a synced shadow, the ACTIVE chip fences. -/
  | fenceOnSilence
  /-- R124: 1 ms of listening at STARTING ends; the chip enters SHADOW or sends EPOCH_PROBE. -/
  | managerListenEnd
  /-- R124: 1 ms after EPOCH_PROBE the starting Monarch enters ACTIVE with epoch one above the highest seen. -/
  | startProbeEnd
  /-- R124: An agent receives EPOCH_PROBE and answers EPOCH_REPLY. -/
  | epochProbeReceive (h : MsgHdr)
  /-- R135: A prober receives EPOCH_REPLY and reconciles its records with the agent's state. -/
  | epochReplyReceive (h : MsgHdr) (highest mgrChip version mapSeq : Nat) (ports : List (Nat × Nat))
  /-- R128: The shadow receives a delta piece, applies complete deltas in order and sends DELTA_ACK. -/
  | stateDeltaReceive (h : MsgHdr) (forWb : Wb) (piece pieces : Nat) (fmtOk : Bool) (recs : MgrRecords)
  /-- R128: The shadow receives a snapshot piece and applies it. -/
  | snapshotReceive (h : MsgHdr) (forWb : Wb) (piece pieces : Nat) (fmtOk : Bool) (recs : MgrRecords)
  /-- R127: Every 4,096 wingbeats the active chip starts a snapshot. -/
  | snapshotStart
  /-- R127: The active chip receives SNAP_REQ and starts a snapshot at once. -/
  | snapReqReceive (h : MsgHdr)
  /-- R128: A delta or snapshot piece is missing at the next tick or a FOR_WB is skipped; the shadow stops being SYNCED and sends SNAP_REQ. -/
  | shadowUnsync
  /-- R128: The active chip receives DELTA_ACK and answers commands the delta recorded. -/
  | deltaAckReceive (h : MsgHdr) (forWb : Wb)
  /-- R128: No DELTA_ACK within 2 wingbeats; the active chip treats the peer as unsynced and raises EVT_TWIN_UNSYNC. -/
  | deltaAckTimeout
  /-- R134: A synced shadow after two ACTIVE-silent wingbeats or a FENCED heartbeat increments the epoch, enters ACTIVE and broadcasts TAKEOVER. -/
  | takeover
  /-- R130: An agent receives TAKEOVER and raises HIGHEST_EPOCH and MANAGER_CHIP. -/
  | takeoverReceive (h : MsgHdr) (epoch : Nat) (chip : Chip) (fromWb : Wb)
  /-- R133: At f+2, and every 128 wingbeats after, a fenced chip sends EPOCH_PROBE. -/
  | fencedProbe
  /-- R133: At f+4 a fenced chip enters SHADOW, reclaims with epoch + 2, or stays FENCED. -/
  | reclaimDecide
  /-- R137: HOLD_LEFT reaches 0 and the Monarch-role shadow sends TAKEBACK naming t = h+2. -/
  | holdLeftZero
  /-- R137: A manager chip receives TAKEBACK or its ACK. -/
  | takebackReceive (h : MsgHdr) (t : Wb) (ack : Bool)
  /-- R137: No ACK by t; the Monarch sets HOLD_LEFT back to 125,000. -/
  | takebackTimeout
  /-- R137: At tick t the active chip enters SHADOW, stops issuing and sends the delta for t−1. -/
  | takebackHandover
  /-- R137: At tick t+1 the Monarch takes epoch + 1, enters ACTIVE and broadcasts TAKEOVER. -/
  | takebackComplete
  /-- R138: Firmware command that sets or clears REVERT_HOLD. -/
  | revertCtl (r : FwRef) (hold : Bool)
  /-- R140: Firmware command that creates a context in a slice. -/
  | ctxCreate (r : FwRef) (slice ctx : Fin 65536) (events : Nat) (flags : Fin 256) (tenant : Bool)
  /-- R140: Firmware command that binds a context to an edge port at a rank with window permissions. -/
  | ctxBind (r : FwRef) (ctx : Ctx) (port : Port) (rank : Rank) (winRead winWrite : Bool)
  /-- R140: Firmware command that removes a context's binding on an edge port. -/
  | ctxUnbind (r : FwRef) (ctx : Ctx) (port : Port)
  /-- R160: Firmware command that requests a CONTEXT reset; the context enters RESETTING. -/
  | ctxReset (r : FwRef) (ctx : Ctx)
  /-- R162: Firmware command that destroys a context at the next reset boundary. -/
  | ctxDestroy (r : FwRef) (ctx : Ctx)
  /-- R160: At b engines drop the context's work, running commands abort, the epoch increments and queues stop. -/
  | contextResetBoundary (ctx : Ctx)
  /-- R160: At b+2 the context's slots are released and it enters ACTIVE, BARRED or FREE. -/
  | contextResetRelease (ctx : Ctx)
  /-- R143: Firmware command that creates or destroys a queue with its ring, ledger and completion queue. -/
  | queue (r : FwRef) (queue ctx : Fin 65536) (op ringLog cqLog : Fin 256) (ringBase cqBase : Word)
  /-- R271: Firmware command that gives or releases an Atomizer-L channel to a context. -/
  | channel (r : FwRef) (wing : Wing) (chan : Fin 256) (ctx : Ctx) (release : Bool)
  /-- R253: Firmware command that maps pages to a context and zero-fills their frames. -/
  | pageGrant (r : FwRef) (ctx : Fin 65536) (perm : Fin 256) (count : BitVec 32) (first : Word) (tenant : Bool)
  /-- R253: The zero-fill of the grant's last page completes and all its mappings take effect. -/
  | grantZerofillDone (ctx : Ctx)
  /-- R254: Firmware command that unmaps pages and queues their frames for scrubbing. -/
  | pageUngrant (r : FwRef) (ctx : Fin 65536) (count : BitVec 32) (first : Word)
  /-- R254: Scrubbing of a released frame completes and it becomes free for grants. -/
  | frameScrubDone (wing : Wing)
  /-- R207: Firmware command that creates or releases a Skipper group. -/
  | skipGroup (r : FwRef) (group slice : Fin 65536) (slip flags : Fin 256) (ranks : List Rank)
  /-- R146: A doorbell with OP SUBMIT, by packet or QUE_DOORBELL write, is checked and sets TAIL. -/
  | dbSubmit (src : DbSource) (queue : Queue) (index : BitVec 32)
  /-- R146: A doorbell with OP CQ_HEAD is checked and sets CQ_HEAD. -/
  | dbCqHead (src : DbSource) (queue : Queue) (index : BitVec 32)
  /-- R146: A doorbell with OP RESUME restarts a STOPPED queue at INDEX. -/
  | dbResume (src : DbSource) (queue : Queue) (index : BitVec 32)
  /-- R147: The command at HEAD meets every start condition, its ledger entry is rewritten and HEAD increments. -/
  | commandStart (queue : Queue)
  /-- R147: Every 1 µs the part rereads a slot whose LAP does not match. -/
  | lapReread (queue : Queue)
  /-- R147: 64 counted wingbeats after its doorbell a slot still mismatches and completes with ST_REFUSED_FORMAT. -/
  | lapTimeout (queue : Queue)
  /-- R149: Command that completes with EXTENT 1. -/
  | nop (queue : Queue) (index : BitVec 32)
  /-- R185: Command that reads its collective descriptor and joins or starts a collective. -/
  | coll (queue : Queue) (index : BitVec 32) (remote : List RemoteRead)
  /-- R208: Command that takes the member's next Skipper generation and contributes its values. -/
  | skip (queue : Queue) (index : BitVec 32) (remote : List RemoteRead)
  /-- R256: Command that reads pool data and writes it to a pool address or endpoint window. -/
  | poolRead (queue : Queue) (index : BitVec 32)
  /-- R256: Command that moves data to a pool address. -/
  | poolWrite (queue : Queue) (index : BitVec 32)
  /-- R277: Command that runs an Atomizer-L descriptor chain on a channel. -/
  | dma (queue : Queue) (index : BitVec 32) (remote : List RemoteRead)
  /-- R244: Command that runs one bouquet step once outside the schedule. -/
  | op (queue : Queue) (index : BitVec 32) (remote : List RemoteRead)
  /-- R149: Command that completes as it starts, after its waits are met. -/
  | wait (queue : Queue) (index : BitVec 32)
  /-- R149: Command that adds ADD to an event counter. -/
  | signal (queue : Queue) (index : BitVec 32)
  /-- R150: Command that completes once earlier commands or a channel's writes have landed. -/
  | fence (queue : Queue) (index : BitVec 32)
  /-- R279: The writes a FENCE covers have landed and it completes with ST_OK or the earliest failure. -/
  | fenceComplete (queue : Queue) (index : BitVec 32)
  /-- R157: A command ends; its final ledger write, completion record and SIGNAL_CTR increment follow. -/
  | commandComplete (queue : Queue) (index : BitVec 32)
  /-- R195: A GRANT reaches an input, which sends the chunk's stream as COLL_UP under the slot handle. -/
  | grantReceive (unit : Fin 256) (p : Packet) (addr len : Nat) (fmt : Fin 256)
  /-- R194: A parent or peer leaf receives a REQUEST and creates or finds its node instance. -/
  | grantRequestReceive (unit : Fin 256) (p : Packet) (desc : List Byte) (count : Nat)
  /-- R198: A child receives REFUSE and completes its members with ST_SPILL_FULL. -/
  | grantRefuseReceive (unit : Fin 256) (p : Packet)
  /-- R194: Once per wingbeat a node repeats an unanswered GRANT and a child repeats an ungranted REQUEST. -/
  | grantRepeat (node : NodeId)
  /-- R193: A slot frees and the node assigns it to the next item in sequence, granting its input. -/
  | slotAssign (node : NodeId)
  /-- R193: A contribution, partial sum, code or count packet enters its granted slot and is marked in the contribution bitmap. -/
  | collUpReceive (unit : Fin 256) (p : Packet) (tags : List (Nat × Nat))
  /-- R171: A node holds every input of a chunk, checks the reduction and sends the partial up or the result down. -/
  | chunkReduceComplete (node : NodeId) (chunk : BitVec 32) (check : ReduceCheck)
  /-- R196: A result packet arrives at a child node or member DST and is sent on or written. -/
  | collDownReceive (unit : Fin 256) (p : Packet)
  /-- R198: A waiting unscheduled node obtains SLOTS dynamic slots. -/
  | nodeSlotsObtained (node : NodeId)
  /-- R198: At the fourth tick of waiting a node still lacking slots spills to its wing's spill area. -/
  | spill (node : NodeId)
  /-- R198: The spill area lacks room for SLIP_LIMIT wingbeats and the node completes members with ST_SPILL_FULL. -/
  | spillGiveUp (node : NodeId)
  /-- R200: At the end of its due wingbeat a node lacking an input of a chunk slips. -/
  | chunkSlip (node : NodeId) (dst : Rank) (chunk : BitVec 32)
  /-- R201: At due + SLIP_LIMIT + h a node still lacking input aborts the chunk and sends the missing-rank bitmap. -/
  | chunkAbort (node : NodeId) (dst : Rank) (chunk : BitVec 32)
  /-- R202: A node without the result of a sent partial by its limit aborts the chunk downward. -/
  | resultTimeout (node : NodeId) (chunk : BitVec 32)
  /-- R208: A Skipper node receives a SKIPPER message and combines, forwards or delivers the generation. -/
  | skipperReceive (unit : Fin 256) (p : Packet)
  /-- R208: Once per wingbeat a node repeats its upward message until the generation's result arrives. -/
  | skipperRepeat (group : Fin 4096) (height : Fin 3) (gen : BitVec 32)
  /-- R239: Firmware command that fetches, checks and commits a bouquet on every named chip. -/
  | bqLoad (r : FwRef) (slice : Fin 65536) (image : List Byte)
  /-- R239: A chip's loader receives the image, runs Table 11.8 checks and answers. -/
  | bqLoadCheck (h : MsgHdr) (m : BqMsg)
  /-- R239: A chip gives no load answer within 1 s and counts as refusing. -/
  | bqLoadTimeout (load : Nat)
  /-- R239: A chip receives commit or abort and keeps or releases its held claims. -/
  | bqCommitReceive (h : MsgHdr) (load : Nat) (go : Option (BitVec 32 × Wb)) (remote : List RemoteRead)
  /-- R239: At START every chip begins the bouquet's first period. -/
  | bqStart (handle : BitVec 32) (remote : List RemoteRead)
  /-- R242: A scheduled step starts in its wingbeat on its cores or Accord unit. -/
  | stepRun (handle : BitVec 32) (step : Nat) (remote : List RemoteRead)
  /-- R242: An AUTO step ends and signals its counter or reports to REPORT_QUEUE. -/
  | stepComplete (handle : BitVec 32) (step : Nat)
  /-- R244: An OP command's step starts at the first boundary where its cores are free. -/
  | opStepStart (queue : Queue) (index : BitVec 32) (remote : List RemoteRead)
  /-- R244: No fitting wingbeat within 64 wingbeats and the OP command completes with ST_REFUSED_FIT. -/
  | opNoFit (queue : Queue) (index : BitVec 32)
  /-- R245: Firmware command that unloads a bouquet at boundary u. -/
  | bqUnload (r : FwRef) (handle : BitVec 32)
  /-- R245: At u no step starts and attached commands stop at their next chunk boundary. -/
  | bqUnloadBoundary (handle : BitVec 32) (u : Wb)
  /-- R245: At u+2 the bouquet's claims and handle are released. -/
  | bqUnloadRelease (handle : BitVec 32)
  /-- R241: Firmware command that returns a bouquet's state or the last refusal. -/
  | bqStatus (r : FwRef) (handle : BitVec 32)
  /-- R247: A PERSIST node reloads its local store from the pool when the new core is free. -/
  | tileReload (handle : BitVec 32) (node core : Nat) (remote : List RemoteRead)
  /-- R258: A Nectar controller receives a WRITE, resolves the page and applies it or sends a refusal reply. -/
  | poolWriteRequest (wing : Wing) (p : Packet)
  /-- R257: A Nectar controller receives a READ_REQ, reads, decrypts and checks sectors and sends READ_RESP. -/
  | poolReadRequest (wing : Wing) (p : Packet)
  /-- R257: A requester receives a READ_RESP carrying data or a refusal status. -/
  | readRespReceive (unit : Fin 256) (p : Packet)
  /-- R255: An edge port admits a window request to its endpoint or refuses it on the endpoint's behalf. -/
  | windowRequest (port : Port) (p : Packet)
  /-- R258: Once a refusal reply is acknowledged the edge port delivers a refusal marker to the endpoint. -/
  | refusalMarkerSend (port : Port)
  /-- R416: A READ_REQ entry or window-stream entry frees and a waiting window request proceeds. -/
  | windowEntryFree (port : Port)
  /-- R265: A corrected error is counted for its frame and may queue the frame for retirement. -/
  | eccCorrected (frame : Nat)
  /-- R265: An uncorrectable error marks the sector POISON and queues the frame for retirement. -/
  | eccUncorrectable (frame : Nat) (sector : Fin 4096) (data : List Byte)
  /-- R266: A frame's copy to a reserve frame completes, the page table switches and the defect list is appended. -/
  | retireCopyDone (wing : Wing)
  /-- R265: Firmware command that sets RETIRE_THRESHOLD. -/
  | retireThreshold (r : FwRef) (n : Fin 2048)
  /-- R271: A ready channel waiting for buffer room becomes one of the 64 active channels. -/
  | atlBufferGrant (wing : Wing) (chan : Fin 256) (remote : List RemoteRead)
  /-- R277: A descriptor's last write leaves the engine; EVENT is signalled and the next descriptor or chain end follows. -/
  | descriptorFinish (wing : Wing) (chan : Fin 256) (remote : List RemoteRead)
  /-- R274: The write engine reaches a refused descriptor and the chain ends with the refusal. -/
  | descriptorRefused (wing : Wing) (chan : Fin 256) (remote : List RemoteRead)
  /-- R280: ATL_CH_SEL STOP write stops the selected channel at the next descriptor boundary. -/
  | atlStop (owner : Owner) (wing : Wing) (chan : Fin 256)
  /-- R272: ATS_CH_CTL GO starts an Atomizer-S chain at ATS_CH_DESC. -/
  | atsGo (owner : Owner) (chan : Fin 16)
  /-- R280: ATS_CH_CTL STOP stops an Atomizer-S chain at a descriptor boundary. -/
  | atsStop (owner : Owner) (chan : Fin 16)
  /-- R279: ATS_CH_CTL FENCE appends a FENCE record once earlier writes have landed. -/
  | atsFence (owner : Owner) (chan : Fin 16)
  /-- R272: The Atomizer-S engine serves the next ready channel in ascending order. -/
  | atsChannelServe
  /-- R279: Record room appears and a descriptor with RECORD waiting in WAIT_RING starts. -/
  | atsRingRoom (chan : Fin 16)
  /-- R9: Read of ATS_CH_LOCK claims the channel lock if free or returns the holder. -/
  | atsChLockRead (owner : Owner) (chan : Fin 16)
  /-- R9: Write of the holder's number to ATS_CH_LOCK releases it. -/
  | atsChLockRelease (owner : Owner) (chan : Fin 16) (value : Word)
  /-- R315: A HOST_RESPONSE arrives and completes a HOST_READ or HOST_WRITE. -/
  | hostResponseReceive (port : Antenna) (good : Bool) (f : AntFrame)
  /-- R315: A host request has no answer after 1 ms; the port goes DOWN and chains end with ST_DMA_HOST_LOST. -/
  | hostTimeout (port : Antenna)
  /-- R292: Firmware command that returns a signed attestation report with a fresh ML-KEM key. -/
  | attest (r : FwRef) (slice : Slice) (nonce : List Byte)
  /-- R292: Firmware command that returns the device's certificates. -/
  | certChain (r : FwRef)
  /-- R291: Firmware command that returns the measurement log. -/
  | measureRead (r : FwRef) (first : Fin 65536)
  /-- R297: Firmware command that decapsulates, unwraps the slice root key, stores the policy and enters KEYED. -/
  | keyDeliver (r : FwRef) (slice : Slice) (ct iv wrapped policy : List Byte)
  /-- R292: 60 s after a report its decapsulation key is destroyed. -/
  | kemKeyExpire (slice : Slice)
  /-- R301: A 1,024 FTU link interval ends and its GCM tags are combined for the SEAL set. -/
  | sealIntervalEnd (l : Link)
  /-- R302: Once every feeding input interval is verified the chip sends the SEAL set for an output interval. -/
  | sealSetSend (l : Link)
  /-- R301: A SEAL set arrives, is verified and releases held sealed packets for consumption. -/
  | sealSetReceive (l : Link) (t : SealSet)
  /-- R301: No valid SEAL set 2,048 FTU after its interval ends and the interval fails. -/
  | sealSetTimeout (l : Link)
  /-- R309: Signal appears on all four wavelengths and the Antenna port enters TRAINING. -/
  | antSignalDetect (port : Antenna)
  /-- R309: FEC aligns on every lane and the port enters INIT. -/
  | antFecAlign (port : Antenna)
  /-- R309: Training or INIT exceeds 100 ms and the port returns DOWN. -/
  | antTrainTimeout (port : Antenna)
  /-- R308: A wavelength loses signal or FEC alignment is lost and the port goes DOWN. -/
  | antLoss (port : Antenna) (lanes : Fin 16)
  /-- R311: Every 10 µs in INIT each end sends INIT. -/
  | antInitSend (port : Antenna)
  /-- R311: An INIT frame arrives, completing INIT or returning an UP port to INIT. -/
  | antInitReceive (port : Antenna) (good ack : Bool) (role version maxOut : Fin 256)
  /-- R313: A READ frame is checked and answered with a RESPONSE. -/
  | antRead (port : Antenna) (good silent : Bool) (bad : Fin 65) (f : AntFrame)
  /-- R313: A WRITE frame is checked, applied and answered. -/
  | antWrite (port : Antenna) (good silent took : Bool) (f : AntFrame)
  /-- R320: An MBX_SEND frame posts a message word atomically. -/
  | antMbxSend (port : Antenna) (good : Bool) (f : AntFrame)
  /-- R312: A LINK_ACK or ACK_SEQ advances and frees acknowledged tracked frames. -/
  | antLinkAck (port : Antenna) (good : Bool) (ack : Fin 65536)
  /-- R312: A LINK_NAK arrives and the sender replays unacknowledged frames. -/
  | antLinkNak (port : Antenna) (good : Bool) (ack : Fin 65536)
  /-- R312: 20 µs without acknowledgement progress the sender replays; the eighth replay takes the port DOWN. -/
  | antReplayTimeout (port : Antenna)
  /-- R312: Within 2 µs of a tracked frame a side with nothing else to send sends LINK_ACK. -/
  | antLinkAckSend (port : Antenna)
  /-- R309: ANT_CTL RETRAIN write takes the port DOWN and retrains it. -/
  | antRetrain (owner : Owner) (port : Antenna)
  /-- R316: Queued event records are sent in an EVENT frame within 1 µs while the port is UP and EVT_EN is set. -/
  | eventFrameSend (port : Antenna)
  /-- R318: An owner restarts; its epoch increments, its RC registers return to 0 and mailbox rules apply. -/
  | ownerRestart (owner : Owner)
  /-- R9: Read of CTL_SEM claims it if free or returns the holder. -/
  | ctlSemRead (owner : Owner)
  /-- R9: Write of the holder's number to CTL_SEM releases it. -/
  | ctlSemRelease (owner : Owner) (value : Word)
  /-- R320: Read of MBX_LOCK claims the mailbox lock if free or returns the holder. -/
  | mbxLockRead (owner : Owner) (n : Mailbox)
  /-- R320: Write of the holder's number to MBX_LOCK releases it. -/
  | mbxLockRelease (owner : Owner) (n : Mailbox) (value : Word)
  /-- R320: Write of MBX_DATA by the lock holder posts the message, sets FULL and raises the receiver's doorbell. -/
  | mbxPost (owner : Owner) (n : Mailbox) (word : Word) (dest : Owner)
  /-- R321: Write of MBX_ACK clears FULL, sets VALID and CODE and raises the sender's doorbell. -/
  | mbxAcknowledge (owner : Owner) (n : Mailbox) (code : Fin 256)
  /-- R325: A DB_OUT bit rises unmasked or a mask clears on a set bit and a DOORBELL frame is sent. -/
  | doorbellFrameSend (port : Antenna)
  /-- R331: The firmware takes a posted command word, checks sequence and journal and acknowledges it. -/
  | fwCommandAccept (mbx : Fin 32) (fetched : List Byte)
  /-- R329: A ready result word is posted once its result mailbox is free. -/
  | resultPost (r : FwRef)
  /-- R336: Firmware command that verifies and stages a firmware image. -/
  | fwStage (r : FwRef) (cls : Fin 256) (image : FwImage)
  /-- R337: Firmware command that distributes the staged image pod-wide. -/
  | fwBroadcast (r : FwRef) (cls : Fin 4)
  /-- R337: A chip stays unverified 1 s without progress and FW_BROADCAST ends with ACK_TIMEOUT. -/
  | fwBroadcastTimeout
  /-- R337: An agent receives FW_OFFER for an image. -/
  | fwOfferReceive (h : MsgHdr) (cls : Fin 256) (build : BitVec 32) (bytes pieces : Nat) (digest : BitVec 256)
  /-- R337: An agent receives an image piece, forwards it and stages the image when complete. -/
  | fwPieceReceive (h : MsgHdr) (piece : Nat) (build : BitVec 32) (data : List Byte) (verdict : Fin 5)
  /-- R337: The Monarch receives FW_NEED and resends the pieces to that chip. -/
  | fwNeedReceive (h : MsgHdr) (build : BitVec 32) (first count : Nat)
  /-- R337: The Monarch receives an agent's FW_RESULT. -/
  | fwResultReceive (h : MsgHdr) (build : BitVec 32) (result : Fin 256)
  /-- R336: Firmware command that returns active and staged builds. -/
  | fwStatus (r : FwRef)
  /-- R318: Firmware command that restarts the management firmware. -/
  | fwRestart (r : FwRef)
  /-- R58: Firmware command that resets and requalifies a port. -/
  | portQualify (r : FwRef) (port : Port) (time : Fin 1024)
  /-- R52: Firmware command that resets a port or the Twin port. -/
  | portReset (r : FwRef) (port : Port) (twin : Bool)
  /-- R54: Firmware command that puts a port in QUARANTINE with REASON 0x05. -/
  | portQuarantine (r : FwRef) (port : Port)
  /-- R62: Firmware command that configures a service port's VLAN, PFC and address. -/
  | serviceCfg (r : FwRef) (port prio : Fin 256) (vlan : Fin 65536) (ipv6 : BitVec 128)
  /-- R64: Firmware command that opens a bulk-move session. -/
  | sessionOpen (r : FwRef) (port flags : Fin 256) (ctx : Fin 65536) (session : BitVec 32) (peer : BitVec 128) (key : List Byte) (tenant : Bool)
  /-- R64: Firmware command that closes a bulk-move session. -/
  | sessionClose (r : FwRef) (port : Fin 256) (session : BitVec 32)
  /-- R353: RESET command KIND 1 starts a WARM reset. -/
  | resetWarm (r : FwRef)
  /-- R354: RESET command KIND 2 requests a COMPUTE reset. -/
  | resetCompute (r : FwRef)
  /-- R355: RESET command KIND 3 restarts the manager firmware. -/
  | resetRole (r : FwRef)
  /-- R354: At the boundary after the request the COMPUTE scope stops and every context is reset without final records. -/
  | computeResetBoundary
  /-- R354: At b+2 the COMPUTE units are ready again. -/
  | computeResetReady
  /-- R355: The manager firmware's watchdog starts a ROLE reset. -/
  | managerWatchdog
  /-- R361: POWER_STATE command selecting ACTIVE. -/
  | powerActive (r : FwRef) (mask : Fin 256)
  /-- R362: POWER_STATE command selecting DOZE. -/
  | powerDoze (r : FwRef) (mask : Fin 256)
  /-- R363: POWER_STATE command that saves images and Sillage to the pool and enters SLEEP. -/
  | powerSleep (r : FwRef) (mask : Fin 256)
  /-- R363: POWER_STATE command that enters DEEP. -/
  | powerDeep (r : FwRef) (mask : Fin 256)
  /-- R368: FORWARD_ONLY command with ARG 1 sets cause COMMAND and enters forward-only. -/
  | forwardOnlyEnter (r : FwRef)
  /-- R371: FORWARD_ONLY command with ARG 0 leaves forward-only once no cause remains. -/
  | forwardOnlyLeave (r : FwRef)
  /-- R370: At the boundary after entry every context is reset and bouquet parts are removed. -/
  | fwdOnlyContextReset
  /-- R370: At n+3 the pool enters self-refresh, compute clocks stop and the monitor runs. -/
  | fwdOnlyHalt
  /-- R360: Firmware command that sets the escalation limits. -/
  | escalation (r : FwRef) (ctxResets ctxWindow chipResets chipWindow computeResets computeWindow : Fin 65536)
  /-- R335: Firmware command that returns lifetime, escalation or journal counters. -/
  | counters (r : FwRef) (group : Fin 256)
  /-- R365: An always-on comparator's condition becomes true and its WAKE, ALERT or FWD_ONLY actions follow. -/
  | comparatorFire (n : Fin 8)
  /-- R365: A comparator's condition passes its hysteresis in the other direction and clears. -/
  | comparatorClear (n : Fin 8)
  /-- R366: Junction at 105 °C or bus below 36 V for 10 µs enters DEEP and drives ALERT_N. -/
  | hardwareTrip
  /-- R369: Every 10 µs the power controller measures input power and adjusts pacing. -/
  | powerMeasure (watts vin temp : Fin 65536)
  /-- R369: Power stays over the limit for 10 ms with pacing at its floor and forward-only cause POWER is entered. -/
  | powerLimit
  /-- R368: The management firmware restarts three times within 60 s or fails to restart; cause FIRMWARE is set. -/
  | firmwareWatchdogLimit (stuck : Bool)
  /-- R375: A core, Accord lane, SRAM row, Skipper lane or AES engine fails; its work ends with ST_FAULT_UNIT. -/
  | unitFailed (kind : Fin 16) (wing : Wing) (logical : Fin 2048) (cause : Fin 256) (row : BitVec 32)
  /-- R375: The defect entry and new map are committed to Cocoon within 500 µs. -/
  | defectCommit
  /-- R375: At the next boundary a spare takes the logical number or the unit becomes ABSENT. -/
  | spareTakeover
  /-- R368: After Imago a crossbar quarter, bridge or HBM stack fails and forward-only cause SPARES is entered. -/
  | essentialUnitFail (kind : Fin 16) (wing : Wing)
  /-- R378: Firmware command that returns defect-list entries. -/
  | defectRead (r : FwRef) (first : BitVec 32)
  /-- R379: Firmware command that returns free spares per kind. -/
  | spareStatus (r : FwRef)
  /-- R414: Wing steward command returning the wing's power state, cores and start-test result. -/
  | wingStatus (r : FwRef)
  /-- R383: A HIGH record is appended to the persistent segment within 10 ms. -/
  | persistWrite
  /-- R384: Write of SIL_CURSOR latches the selected record into the owner's bank. -/
  | silCursorWrite (owner : Owner) (value : Word)
  /-- R384: A read of SIL_WINDOW7 with AUTO set advances the cursor and latches the next record. -/
  | silWindow7AutoRead (owner : Owner)
  /-- R385: Firmware command that discards the live log and writes a CLEARED record. -/
  | silClear (r : FwRef)
  /-- R386: Firmware command that sets overflow frames and minimum severity. -/
  | silConfig (r : FwRef) (frames : Fin 65536) (minSeverity : Fin 256)
  /-- R387: FREEZE_N held low at least 100 ns triggers a Chrysalis freeze. -/
  | freezePin
  /-- R387: Firmware command that triggers a Chrysalis freeze. -/
  | chrFreeze (r : FwRef)
  /-- R387: Firmware command that arms freeze triggers on comparators and Sillage records. -/
  | chrArm (r : FwRef) (flags cmpMask source code severity : Fin 256) (delay : BitVec 32)
  /-- R388: DELAY after a trigger the part latches FREEZE_FTU, stops clocks and sends FROZEN sets. -/
  | freezeDelayEnd
  /-- R393: CHR_CTL START write begins the dump read-out. -/
  | chrStart (owner : Owner)
  /-- R393: CHR_CTL NEXT write releases a staging half for refill. -/
  | chrNext (owner : Owner) (half : Fin 2)
  /-- R389: CHR_CTL RELEASE write ends the freeze by WARM reset. -/
  | chrRelease (owner : Owner)
  /-- R390: The read-out engine fills a staging half and publishes its length. -/
  | readoutHalfReady (half : Fin 2) (secs : List DumpSec) (last : Bool)
  /-- R391: A memory interface gives no answer within 2 µs; the section ends HUNG and the engine continues. -/
  | readoutHang (sec : DumpSec)
  /-- R203: ACD_SLICE_SEL CLEAR write clears ACD_SLOWEST and ACD_LATE_HIST for the selected slice. -/
  | acdSliceClear (owner : Owner) (slice : Slice)
  /-- R9: A write to a register without a row of its own applies its access type. -/
  | registerWrite (owner : Owner) (addr value : Word)
  /-- R351: RESET_N goes low or power comes up and the whole module is reset. -/
  | porAssert (powerUp : Bool)
  /-- R342: RESET_N rises after its conditions; straps are sampled and Instar stage 1 starts. -/
  | resetRelease (ok : Bool) (x : Straps)
  /-- R353: WARM_N goes low; transmitters stop, queued writes land and stacks enter self-refresh. -/
  | warmAssert
  /-- R349: WARM_N rises or a wake occurs; straps are sampled, the fast path is judged and stage 1 starts. -/
  | warmRelease (busOk : Bool) (x : Straps)
  /-- R397: VIN falls below 30 V; the always-on domain loses power and the marker clears. -/
  | vinLoss
  /-- R399: SYSCLK absent or beyond ±1,000 ppm for 1 µs acts as RESET_N low. -/
  | sysclkLoss
  /-- R396: A SerDes reference fails and every port it serves loses link. -/
  | srefclkLoss (k : Fin 8)
  /-- R403: The TAP's EXTEST instruction holds the part as if RESET_N were low. -/
  | debugExtest (hold : Bool) (x : Straps)
  /-- R342: Stage 1 reconstructs the seed, checks Cocoon and loads records, then stage 2 begins. -/
  | stage1Done (pufOk certOk : Bool) (deviceId : Word) (bad : List (Fin 6))
  /-- R343: The boot ROM self-check ends and the load range opens. -/
  | stage2Done (romOk : Bool) (rows : Nat)
  /-- R340: INS_CTL GO with STAGE 3 closes the load range and verifies and starts the firmware. -/
  | insGoFirmware (owner : Owner) (value : Word)
  /-- R340: The management firmware accepts mailbox commands and stage 3 is DONE. -/
  | stage3Done (verdict : Fin 3) (build : BitVec 32)
  /-- R344: INS_CTL GO with STAGE 4 starts the start test. -/
  | insGoStartTest (owner : Owner) (value : Word)
  /-- R344: The start test ends, defects are appended and spares brought in. -/
  | stage4Done (t : StartTest)
  /-- R345: INS_CTL GO with STAGE 5 trains the stacks and tests frames. -/
  | insGoHbm (owner : Owner) (value : Word)
  /-- R345: HBM training and testing end and the pool is initialised. -/
  | stage5Done (busOk : Bool) (stack : Option (Fin 24)) (frames : List (Fin 884736))
  /-- R346: INS_CTL GO with STAGE 6 sets port modes and starts training and qualification. -/
  | insGoPorts (owner : Owner) (value : Word)
  /-- R346: Every expected port has an outcome, or the stage limit is reached, and stage 6 is DONE. -/
  | stage6End
  /-- R347: INS_CTL GO with STAGE 7 opens the role step for SET_ROLE. -/
  | insGoRole (owner : Owner) (value : Word)
  /-- R347: INS_CTL GO with STAGE 7 and TIME begins time and base-pair acquisition. -/
  | insGoTime (owner : Owner) (value : Word)
  /-- R347: The chip is LOCKED or ROOT with a base pair and stage 8 begins. -/
  | stage7Done
  /-- R348: Stage 8 checks security, map, role, time and wingbeat and sets IMAGO. -/
  | imagoCheck (advancing : Bool)
  /-- R340: A stage exceeds its limit and fails with TIMEOUT. -/
  | instarStageTimeout
  /-- R53: The lanes of a DOWN fabric, edge or Twin port regain signal and lock, the port enters TRAINING and the 100 ms IDENT limit starts. -/
  | laneLock (l : Link) (bad : List (Fin 8))
  /-- R399: SYSCLK returns within tolerance after an absence and the part comes up by POR. -/
  | sysclkReturn (x : Straps)
  /-- R396: A missing or out-of-tolerance SerDes reference returns and every port it serves retrains. -/
  | srefclkReturn (k : Fin 8)
deriving DecidableEq, Repr

end Sys2Proof
end

