-- ==== Sys2Proof/Decode.lean ====
section
/-! DEFINITION. Sys2Proof/Decode.lean: commands from words. The table of operations and events gives no row a bit pattern: its rows
are accesses, packets, frames, firmware commands and events, so no word spells a command.
(log entries of this file: DESIGN CHOICE 126) -/

namespace Sys2Proof

/-- The command that a word of `nbits` bits spells by the table's bits: the table gives no row any, so there is none. -/
def decodeTableWord (_nbits _w : Nat) : Option Instr := none

end Sys2Proof
end

