-- ==== Sys2Proof/Machine/Flags.lean ====
section
/-! DEFINITION. Sys2Proof/Machine/Flags.lean: the codes the part answers with: completion status codes, acknowledge
codes, port states, event codes. -/

namespace Sys2Proof.Machine

/-! ### Status codes (Tables 0.4, 9.8, 11.9, 12.2 and 13.2 hold their ranges) -/
def ST_OK : Nat := 0x00
def ST_PARTIAL : Nat := 0x01
def ST_DROPPED_CAPACITY : Nat := 0x02
def ST_ABORT_MEMBER : Nat := 0x10
def ST_ABORT_CONTEXT : Nat := 0x11
def ST_ABORT_STOP : Nat := 0x12
def ST_CHECK_FAIL : Nat := 0x20
def ST_INTEGRITY : Nat := 0x21
def ST_REFUSED_FIT : Nat := 0x30
def ST_REFUSED_AUTH : Nat := 0x31
def ST_REFUSED_FORMAT : Nat := 0x32
def ST_REFUSED_STATE : Nat := 0x33
def ST_FAULT_UNIT : Nat := 0x40
def ST_OVERRUN : Nat := 0x41
def ST_DOMAIN_OFF : Nat := 0x50

def ST_SPILL_FULL : Nat := 0x60
def ST_DESC_MISMATCH : Nat := 0x61
def ST_PARENT_LOST : Nat := 0x62
def ST_BQ_VARIANT : Nat := 0x70
def ST_BQ_LENGTH : Nat := 0x71
def ST_BQ_KERNEL : Nat := 0x72
def ST_BQ_SHAPE : Nat := 0x73
def ST_BQ_ABSENT : Nat := 0x74
def ST_INDEX_RANGE : Nat := 0x75
def ST_POOL_UNCORRECTABLE : Nat := 0x80
def ST_WINDOW_ABSENT : Nat := 0x81
def ST_DMA_CHAIN_LONG : Nat := 0x90
def ST_DMA_OVERLAP : Nat := 0x91
def ST_DMA_HOST_LOST : Nat := 0x92

/-! ### Acknowledge codes (Tables 0.6 and 16.4) -/
def ACK_OK : Nat := 0x00
def ACK_BUSY : Nat := 0x01
def ACK_BAD_COMMAND : Nat := 0x02
def ACK_BAD_ARGUMENT : Nat := 0x03
def ACK_DENIED : Nat := 0x04
def ACK_STATE : Nat := 0x05
def ACK_PENDING : Nat := 0x10
def ACK_NOT_MANAGER : Nat := 0x11
def ACK_SEQ_REUSED : Nat := 0x12
def ACK_SEQ_STALE : Nat := 0x13
def ACK_REFUSED_LOAD : Nat := 0x14
def ACK_NO_RESOURCE : Nat := 0x15
def ACK_BAD_IMAGE : Nat := 0x16
def ACK_INTERRUPTED : Nat := 0x17
def ACK_RESULT_SHORT : Nat := 0x18
def ACK_RECEIVER_RESET : Nat := 0xE1
def ACK_TIMEOUT : Nat := 0xE2

/-! ### Port states (PRT_STATUS STATE) -/
def PS_DISABLED : Nat := 0
def PS_DOWN : Nat := 1
def PS_TRAINING : Nat := 2
def PS_QUALIFYING : Nat := 3
def PS_QUAL_FAIL : Nat := 4
def PS_QUARANTINE : Nat := 5
def PS_STRANGER : Nat := 6
def PS_UP : Nat := 7
def PS_FROZEN_PEER : Nat := 8

/-! ### Port modes (Table 3.1) -/
def PM_DISABLED : Nat := 0
def PM_EDGE : Nat := 1
def PM_FABRIC : Nat := 2
def PM_SERVICE : Nat := 3

/-! ### Time states (FT_STATUS STATE) -/
def TS_FREE : Nat := 0
def TS_ACQUIRE : Nat := 1
def TS_LOCKED : Nat := 2
def TS_COASTING : Nat := 3
def TS_ROOT : Nat := 4

/-! ### Manager states (Table 6.1) -/
def MS_STARTING : Nat := 1
def MS_SHADOW : Nat := 2
def MS_ACTIVE : Nat := 3
def MS_FENCED : Nat := 4

/-! ### Qualification causes (PRT_STATUS QUAL_CAUSE) -/
def QC_PRE_FEC_BER : Nat := 1
def QC_UNCORRECTABLE : Nat := 2
def QC_EXTRAPOLATED_LOSS : Nat := 3
def QC_PEER_SILENT : Nat := 4
def QC_PEER_FAIL : Nat := 5
def QC_LANE_LOST : Nat := 6

/-! ### Events (Tables 5.7 and 6.7) -/
def EVT_LINK : Nat := 0x01
def EVT_NARROW : Nat := 0x02
def EVT_SWITCH : Nat := 0x03
def EVT_ENDPOINT : Nat := 0x04
def EVT_NEIGHBOUR : Nat := 0x05
def EVT_STRANGER : Nat := 0x06
def EVT_DEGRADED : Nat := 0x07
def EVT_ROUTE : Nat := 0x08
def EVT_PLAN_READY : Nat := 0x09
def EVT_TWIN_UNSYNC : Nat := 0x0A
def EVT_TAKEOVER : Nat := 0x0B
def EVT_FENCED : Nat := 0x0C
def EVT_REVERTED : Nat := 0x0D

end Sys2Proof.Machine
end

