-- ==== Sys2Proof/Machine/Arith.lean ====
section
/-! DEFINITION. Sys2Proof/Machine/Arith.lean: the computations on plain data the meanings use: checks, the qualification
verdict, byte order, residues, number formats.
(log entries of this file: DEDUCED 20) -/

namespace Sys2Proof.Machine

/-! ### The qualification verdict (R59) -/

/-- The points of the fit: (k, n[k]) for 2 ≤ k ≤ 15 with n[k] ≥ 10. -/
def qualPoints (counts : List Nat) : List (Nat × Nat) :=
  ((List.range 16).map fun k => (k, counts.getD k 0)).filter fun q => decide (2 ≤ q.1) && decide (10 ≤ q.2)

/-- The fitted line at k = 16 lies above −15. With N points, sums Sk and Skk and y = log10(n/total), the line at 16 is
Σ W·y ÷ D with W = Skk − Sk·k + 16·(N·k − Sk) and D = N·Skk − Sk²; the comparison is made exactly, as a product of powers
against 10^(−15·D). -/
def fitExceeds (pts : List (Nat × Nat)) (total : Nat) : Bool :=
  let n : Int := pts.length
  let sk : Int := (pts.map fun q => (q.1 : Int)).sum
  let skk : Int := (pts.map fun q => (q.1 * q.1 : Int)).sum
  let d : Int := n * skk - sk * sk
  let w := fun (k : Nat) => skk - sk * k + 16 * (n * k - sk)
  let up := pts.foldl (fun a q => a * (if 0 ≤ w q.1 then q.2 else total) ^ (w q.1).natAbs) (10 ^ (15 * d.toNat))
  let down := pts.foldl (fun a q => a * (if 0 ≤ w q.1 then total else q.2) ^ (w q.1).natAbs) 1
  decide (down < up)

/-- n choose k, built up the row. -/
def choose (n k : Nat) : Nat := (List.range k).foldl (fun a i => a * (n - i) / (i + 1)) 1

/-- The probability of at least 16 of 544 symbols in error at ratio p/q exceeds 10^(−15). -/
def tailExceeds (p q : Nat) : Bool :=
  let terms := (List.range 529).map fun i => choose 544 (i + 16) * p ^ (i + 16) * (q - p) ^ (528 - i)
  decide (q ^ 544 < 10 ^ 15 * terms.sum)

/-- The receive verdict of R59: 0 passes, otherwise the QUAL_CAUSE. `errs` of `bits` is the worst lane of phase 1. -/
def qualVerdict (errs bits : Nat) (counts : List Nat) (unc total : Nat) : Nat :=
  if bits < errs * 100000 then 1
  else if 0 < unc then 2
  else
    let pts := qualPoints counts
    let bad := if 2 ≤ pts.length then fitExceeds pts total
      else tailExceeds (min bits (10 * errs)) bits
    if bad then 3 else 0

/-! ### Byte order and checks (R6, R68, R71, R73) -/

/-- The low `n` bytes of a number, least significant first (R6). -/
def leBytes (n v : Nat) : List Byte :=
  match n with
  | 0 => []
  | n + 1 => BitVec.ofNat 8 v :: leBytes n (v / 256)

/-- The number that bytes hold, least significant first (R6). -/
def ofLe (bs : List Byte) : Nat :=
  match bs with
  | [] => 0
  | b :: t => b.toNat + 256 * ofLe t

/-- One byte into a CRC taken most significant bit first. -/
def crcMsbByte {w : Nat} (poly crc : BitVec w) (b : Byte) : BitVec w :=
  (List.range 8).foldl (fun c i =>
    let top := c.msb != b.getLsbD (7 - i)
    (c <<< 1) ^^^ (if top then poly else 0)) crc

/-- CRC-16: polynomial 0x1021, initial value 0xFFFF, no reflection, no inversion (R68). -/
def crc16 (bs : List Byte) : BitVec 16 := bs.foldl (crcMsbByte 0x1021#16) 0xFFFF#16

/-- CRC-64: the ECMA-182 polynomial, initial value 0, no reflection, no inversion (R73). -/
def crc64 (bs : List Byte) : BitVec 64 := bs.foldl (crcMsbByte 0x42F0E1EBA9EA3693#64) 0#64

/-- One byte into a reflected CRC-32C; 0x82F63B78 is 0x1EDC6F41 with its bits reversed. -/
def crc32cByte (crc : BitVec 32) (b : Byte) : BitVec 32 :=
  (List.range 8).foldl (fun c i =>
    let low := c.getLsbD 0 != b.getLsbD i
    (c >>> 1) ^^^ (if low then 0x82F63B78#32 else 0)) crc

/-- CRC-32C: reflected, initial value and final inversion all ones (R71). -/
def crc32c (bs : List Byte) : BitVec 32 := ~~~(bs.foldl crc32cByte 0xFFFFFFFF#32)

end Sys2Proof.Machine
end

