-- ==== Sys2Proof/Machine/Operands.lean ====
section
/-! DEFINITION. Sys2Proof/Machine/Operands.lean: the operand forms of the chapters as functions of the bits: packet
headers, hop bytes, global addresses. -/

namespace Sys2Proof.Machine

/-! ### Packets (Tables 4.2 to 4.5) -/

/-- The header bytes 0 to 59 of Table 4.2. `flight` keeps VC and HOP_PTR, `edge` keeps the fields the edge port fills;
R71 takes the first as zero, R73 both. -/
def hdrBytes (p : Packet) (flight edge : Bool) : List Byte :=
  let e := fun (v : Nat) => if edge then v else 0
  let f := fun (v : Nat) => if flight then v else 0
  leBytes 1 (p.tc.val * 8 + f p.vc.val) ++
  leBytes 1 p.kind.val ++
  leBytes 1 (f (e p.hopPtr.val) * 16 + e p.hopCount.val) ++
  leBytes 1 (p.addrMode.val * 128 + p.payFlits.val) ++
  leBytes 4 (p.epoch.val * 2 ^ 22 + p.ctx.val * 2 ^ 10 + e p.slice.val) ++
  leBytes 2 (e p.srcChip.val) ++
  leBytes 2 (e p.dstChip.val) ++
  leBytes 1 (e p.srcUnit.val) ++
  leBytes 1 (e p.dstUnit.val) ++
  leBytes 2 p.dstRank.val ++
  leBytes 2 (e p.srcRank.val) ++
  leBytes 4 p.chunk.toNat ++
  leBytes 4 p.seq.toNat ++
  leBytes 5 (e p.sendTime.toNat) ++
  leBytes 1 0 ++
  (List.range 12).map (fun i => BitVec.ofNat 8 (e ((p.path.map (·.val)).getD i 0))) ++
  leBytes 8 p.arg.toNat ++
  leBytes 8 0

/-- HDR_CRC of a packet (R71). -/
def hdrCrcOf (p : Packet) : BitVec 32 := crc32c (hdrBytes p false true)

/-- E2E_CRC of a packet (R73). -/
def e2eCrcOf (p : Packet) : Word := crc64 (hdrBytes p false false ++ p.payload)

/-- The kinds tracked end to end (Table 4.3). -/
def tracked (kind : Nat) : Bool := [0x01, 0x02, 0x03, 0x04, 0x06, 0x10, 0x11, 0x31].contains kind

/-- The wing of an internal unit code 0x81 to 0x8C (Table 4.5); the Thorax has none. -/
def unitWing (code : Nat) : Nat := (code - 0x81) % 4

/-! ### Global addresses (Table 12.1, R249, R250) -/

def addrChip (a : Nat) : Nat := a / 2 ^ 48 % 65536
def addrOffset (a : Nat) : Nat := a % 2 ^ 48
/-- Bit 47 is set: a window offset. -/
def isWindow (a : Nat) : Bool := a.testBit 47
def windowPort (a : Nat) : Nat := a / 2 ^ 40 % 128
def windowByte (a : Nat) : Nat := a % 2 ^ 40
/-- Bytes per page and frame (R251). -/
def pageBytes : Nat := 2097152
def pageOf (offset : Nat) : Nat := offset / pageBytes % 2 ^ 26
def pageByte (offset : Nat) : Nat := offset % pageBytes

/-- DST_UNIT of a global address (R250): the Nectar controller of the page's wing, or the edge port named. -/
def addrUnit (a : Nat) : Nat := if isWindow a then windowPort a else 0x89 + pageOf (addrOffset a) % 4

/-- A rank-map entry (Table 5.6): chip and edge port of a valid rank. -/
def rankEntry (w : BitVec 32) : Option (Nat × Nat) :=
  if w.getLsbD 31 then some ((w.toNat) % 65536, w.toNat / 65536 % 128) else none

end Sys2Proof.Machine
end

