-- ==== Sys2Proof/Config.lean ====
section
/-! DEFINITION. Sys2Proof/Config.lean: what the spec leaves open. Each constant has no body: nothing can evaluate it, and
a statement that mentions one holds whatever it is. Each has a row of the assumption log.
(log entries of this file: DESIGN CHOICE 1, 4, 8, 9, 14, 15, 16, 17) -/

namespace Sys2Proof

/-- A fresh free value: the state's counter `free` numbers the uses (log entry 1). -/
opaque Config.freeValue : Nat → Nat
/-- The steering gain of R39, applied to an offset in FTU, before the clamp; the answer in parts per billion
(log entry 8). -/
opaque Config.rateGain : Int → Int

/-- The EFP minor version of this part: the spec gives the major version 3 and no minor (R53; log entry 9). -/
opaque Config.efpMinor : Fin 256

/-- The scale byte of an MX result block whose scale exponent lies above 127: R174 states none (log entry 14). -/
opaque Config.mxScaleAbove : Nat → Fin 256

/-- SHAKE256 with 256 bits of output (log entry 4). -/
opaque Config.shake256 : List Byte → BitVec 256
/-- The map digest of R101: SHAKE256 over the signed bytes of the map (log entry 4). -/
opaque Config.mapDigest : InstMap → BitVec 256
/-- Verification of an XMSS^MT signature block over a digest, under a public key and a domain (R287, log entry 4). -/
opaque Config.xmssVerify : (domain : String) → (key sig : List Byte) → (digest : BitVec 256) → Bool

/-- The hardware variant of this part, by VARIANT code (Tables 11.5 and 14.2; log entry 15). -/
opaque Config.variant : Fin 3
/-- The attestation public key of R287, 68 bytes (log entry 4). -/
opaque Config.attestKey : List Byte
/-- The certificates that Cocoon and the firmware images hold, each with its signature block (R289, log entry 15). -/
opaque Config.identityCert : List Byte
opaque Config.variantCert : List Byte
opaque Config.signingCert : List Byte
/-- The boot ROM's identity (R291, log entry 15). -/
opaque Config.romDigest : BitVec 256
/-- KMAC256 (R284): key, input, output bits, customisation (log entry 4). -/
opaque Config.kmac256 : (key x : List Byte) → (bits : Nat) → (label : String) → List Byte
/-- XMSS^MT signature of this part's key over a digest in a domain, at an index (R287, log entry 4). -/
opaque Config.xmssSign : (index : Nat) → (domain : String) → (digest : BitVec 256) → List Byte
/-- ML-KEM-1024 (R292, R293): the encapsulation key of a key pair, and decapsulation (log entry 4). -/
opaque Config.kemPublic : Nat → List Byte
opaque Config.kemOpen : Nat → List Byte → List Byte
/-- AES-256-GCM decryption: none where the tag does not verify (R294, log entry 4). -/
opaque Config.gcmOpen : (key iv aad data : List Byte) → Option (List Byte)
/-- AES-256-GCM encryption: ciphertext and tag (R392, log entry 4). -/
opaque Config.gcmSeal : (key iv aad data : List Byte) → List Byte
/-- The stored ciphertext of a 512-byte sector of a context's page, by pool key and sector (R261, R413, log entry 4). -/
opaque Config.poolCipher : (key sector : Nat) → List Byte → List Byte
/-- The 32-byte tag of a record in Cocoon, by the place of the record (R286, R412, log entry 4). -/
opaque Config.cocoonTag : (offset : Nat) → List Byte → List Byte
/-- The spare maps as the Cocoon read window lays them out, 64 KiB (R412 gives no layout, log entry 17). -/
opaque Config.spareMapBytes : List (Nat × Word) → List Byte
/-- The GCM tag of a slice's packets in one interval of a link (R300, log entry 4). -/
opaque Config.gcmTag : (key : List Byte) → (interval : Nat) → List Packet → BitVec 128
/-- exp, tanh, the normal distribution function in erf form, and reciprocal square root of FP32, by the fixed algorithms of R231
(log entry 16). -/
opaque Config.hawkExp : BitVec 32 → BitVec 32
opaque Config.hawkTanh : BitVec 32 → BitVec 32
opaque Config.hawkPhi : BitVec 32 → BitVec 32
opaque Config.hawkRsqrt : BitVec 32 → BitVec 32

end Sys2Proof
end

