-- ==== Sys2Proof/Machine/Fields.lean ====
section
/-! DEFINITION. Sys2Proof/Machine/Fields.lean: the registers of Tables 22.6 and 22.7 (R408), by name; the value each
takes at POR; the resets each is kept across (Table 22.2); and every field of every register as the field tables of the
owning chapters give it (bits, access type of R9).
(log entries of this file: DESIGN CHOICE 3) -/

namespace Sys2Proof.Machine

/-- The access types of Table 0.3 (R9). A W1C field that counts is cleared whole by a 1 written to any of its bits, as
the field tables say (`w1cField`); `w1cBit` is the W1C of single bits. -/
inductive Access where
  | rw | ro | wo | w1cBit | w1cField | w1s | rc
deriving DecidableEq, Repr

/-- The register names of Tables 22.6 and 22.7 (R408). The eight banked SIL_WINDOW registers share one name, told apart
by their index. -/
inductive RegName where
  | FT_COUNT | FT_STATUS | FT_WB_CTL | FT_WB_BASE_FTU | FT_WB_BASE_NUM | FT_WB_NUM
  | FT_PPS_CTL | FT_PPS_CAPTURE | FT_OVERRUN | FT_COAST | PRT_CTL | PRT_STATUS
  | PRT_PEER_ID | PRT_PEER_SERIAL | PRT_PEER_DEVICE | PRT_QUAL_RESULT | PRT_FEC_COUNT | PRT_EVENTS
  | XBR_WAITS | XBR_HDR_ERR | XBR_INFLIGHT | EDG_CTL | EDG_SWAP_AT | EDG_DROPS
  | EDG_E2E | MGR_ROLE | MGR_MAP | MGR_ROUTE | MGR_PLAN | MGR_NBR
  | MGR_FAILURES | TWN_STATUS | TWN_HEARTBEAT | TWN_SYNC | TWN_REVERT | TWN_AGENT
  | TWN_EVENTS | TWN_PORT_STATUS | QUE_CFG | QUE_RING_BASE | QUE_CQ_BASE | QUE_INDEX
  | QUE_CQ_INDEX | QUE_DOORBELL | QUE_CTX_SEL | QUE_CTX_STATUS | QUE_DROPS | ACD_SLOTS
  | ACD_EVENTS | ACD_CHECK | ACD_SLICE_SEL | ACD_SLOWEST | ACD_LATE_HIST | SKP_GROUP_SEL
  | SKP_GROUP_STATUS | SKP_EVENTS | HWK_CORE_STATUS | HWK_CORE_COUNTS | HWK_WING_STATUS | HWK_REPORTS
  | HWK_BQ_SEL | HWK_BQ_STATUS | HWK_BQ_START | HWK_LOAD_RESULT | HWK_LOAD_AMOUNT | HBM_STACK_SEL
  | HBM_STACK_STATUS | HBM_ECC | HBM_RETIRE | HBM_POOL | HBM_ACCESS_ERR | ATL_CH_SEL
  | ATL_CH_STATUS | ATL_EVENTS | ATS_CH_LOCK | ATS_CH_DESC | ATS_CH_CTL | ATS_CH_STATUS
  | ATS_CQ_BASE | ATS_CQ_INDEX | SEC_STATUS | SEC_DEVICE_ID | SEC_XMSS_INDEX | SEC_XMSS_RESERVED
  | SEC_SEL | SEC_MEASURE | SEC_SLICE_STATUS | SEC_SEAL_EVENTS | CTL_SEM | CTL_EPOCHS
  | MBX_DATA | MBX_STATUS | MBX_ACK | MBX_LOCK | DB_IN | DB_IN_MASK
  | DB_OUT | DB_OUT_MASK | ANT_CTL | ANT_STATUS | ANT_COUNTS | INS_CTL
  | INS_STATUS | INS_IMAGE | INS_FT_SEED | INS_TEST | INS_PORTS | INS_LIFE
  | INS_FAST | RST_CAUSE | RST_COUNTS | RST_ESC_LIMITS | RST_ESC_COUNT | PWR_STATUS
  | PWR_MEASURE | AON_CMP_CTL | AON_CMP_VALUE | AON_CMP_EVENTS | SPR_STATUS | SPR_MAP_SEL
  | SPR_MAP | SPR_FREE | SPR_EVENTS | SIL_STATUS | SIL_CFG | SIL_COUNTS
  | SIL_CURSOR | SIL_WINDOW | CHR_CTL | CHR_STATUS | CHR_FREEZE_FTU | CHR_ARM
  | CHR_HALF | WST_STATUS | WST_TEST
deriving DecidableEq, Repr

/-- The resets and power states of Table 22.2. -/
inductive Survives where
  | warm | compute | context | port | role | doze | sleep | deep
deriving DecidableEq, Repr

/-- The place of a register in the list of Tables 22.6 and 22.7: the low eight bits of its key in the register file. -/
def RegName.code (r : RegName) : Nat := r.ctorIdx

/-- The value of a register after POR, by register and index (Tables 22.6 and 22.7). A register whose POR value the
spec takes from Cocoon, from a strap or from a measurement reads 0 until the stage or event that writes it
(log entry 3). -/
def RegName.por (r : RegName) (i : Nat) : Word :=
  match r with
  | .AON_CMP_CTL => if i = 4 then 0x31 else if i = 5 then 0x33 else 0
  | .AON_CMP_VALUE => if i = 4 then 1600 else if i = 5 then 40000 else 0
  | .ATS_CH_LOCK => if 12 ≤ i then 3 else 0
  | .FT_STATUS => 0xFFFFFF00
  | .FT_WB_CTL => 0x2
  | .PRT_CTL => 0x640000
  | .TWN_REVERT => 0x1E848
  | .ACD_SLOTS => 0x1000000
  | .HWK_CORE_STATUS => 0xFF800
  | .HWK_WING_STATUS => 0x600000
  | .HBM_RETIRE => 0x400000
  | .ANT_CTL => 0x1
  | .INS_STATUS => 0x11
  | .RST_ESC_LIMITS => 0x12c0c0f02005040
  | .SIL_CFG => 0x8000000000000
  | _ => 0

/-- The survival set of a register: the column "Kept across" (R408). Parts of a register that survive more are handled
by the reset that spares them. -/
def RegName.kept (r : RegName) : List Survives :=
  match r with
  | .FT_COUNT | .RST_COUNTS | .AON_CMP_CTL | .AON_CMP_VALUE | .AON_CMP_EVENTS => [.warm, .compute, .context, .port, .role, .doze, .sleep, .deep]
  | .FT_STATUS | .FT_WB_CTL | .FT_WB_BASE_FTU | .FT_WB_BASE_NUM | .FT_WB_NUM
  | .FT_PPS_CTL | .FT_PPS_CAPTURE | .FT_OVERRUN | .FT_COAST => [.compute, .context, .port, .role]
  | .PRT_STATUS | .PRT_PEER_ID | .PRT_PEER_SERIAL | .PRT_PEER_DEVICE | .PRT_QUAL_RESULT
  | .PRT_FEC_COUNT | .TWN_PORT_STATUS => [.compute, .context, .role, .doze]
  | .XBR_INFLIGHT | .ACD_SLOTS | .ACD_SLOWEST | .ACD_LATE_HIST | .HWK_CORE_STATUS
  | .HWK_WING_STATUS | .HWK_BQ_STATUS | .HWK_BQ_START | .ATL_CH_STATUS => [.context, .port, .role, .doze]
  | .MGR_ROLE | .MGR_ROUTE | .MGR_PLAN | .MGR_NBR | .MGR_FAILURES
  | .TWN_STATUS | .TWN_HEARTBEAT | .TWN_SYNC | .TWN_REVERT => [.compute, .context, .port, .doze]
  | .QUE_DOORBELL | .ATS_CH_CTL | .PWR_MEASURE | .CHR_CTL => []
  | .HBM_RETIRE | .INS_FAST => [.warm, .compute, .context, .port, .role, .doze]
  | .RST_CAUSE => [.context, .port, .doze]
  | .SIL_STATUS => [.warm, .compute, .context, .port, .role, .doze, .sleep]
  | _ => [.compute, .context, .port, .role, .doze]

/-- A field of a register: bits hi down to lo, with its access type. -/
structure Fld where
  reg : RegName
  hi : Nat
  lo : Nat
  acc : Access
deriving DecidableEq, Repr

/-- The width of a field in bits. -/
def Fld.width (f : Fld) : Nat := f.hi - f.lo + 1

def F.FT_COUNT_FTU : Fld := ⟨.FT_COUNT, 63, 0, .ro⟩
def F.FT_STATUS_OFFSET : Fld := ⟨.FT_STATUS, 47, 32, .ro⟩
def F.FT_STATUS_DEPTH : Fld := ⟨.FT_STATUS, 31, 24, .ro⟩
def F.FT_STATUS_UPSTREAM : Fld := ⟨.FT_STATUS, 23, 16, .ro⟩
def F.FT_STATUS_ALTERNATE : Fld := ⟨.FT_STATUS, 15, 8, .ro⟩
def F.FT_STATUS_STATE : Fld := ⟨.FT_STATUS, 2, 0, .ro⟩
def F.FT_WB_CTL_PENDING_AT : Fld := ⟨.FT_WB_CTL, 63, 16, .ro⟩
def F.FT_WB_CTL_PENDING_LENGTH : Fld := ⟨.FT_WB_CTL, 10, 9, .ro⟩
def F.FT_WB_CTL_PENDING : Fld := ⟨.FT_WB_CTL, 8, 8, .ro⟩
def F.FT_WB_CTL_LENGTH : Fld := ⟨.FT_WB_CTL, 1, 0, .ro⟩
def F.FT_WB_BASE_FTU_BASE_FTU : Fld := ⟨.FT_WB_BASE_FTU, 63, 0, .ro⟩
def F.FT_WB_BASE_NUM_BASE_NUM : Fld := ⟨.FT_WB_BASE_NUM, 47, 0, .ro⟩
def F.FT_WB_NUM_NUM : Fld := ⟨.FT_WB_NUM, 47, 0, .ro⟩
def F.FT_PPS_CTL_PHASE : Fld := ⟨.FT_PPS_CTL, 62, 32, .rw⟩
def F.FT_PPS_CTL_IN_LOCKED : Fld := ⟨.FT_PPS_CTL, 2, 2, .ro⟩
def F.FT_PPS_CTL_OUT_EN : Fld := ⟨.FT_PPS_CTL, 1, 1, .rw⟩
def F.FT_PPS_CTL_IN_EN : Fld := ⟨.FT_PPS_CTL, 0, 0, .rw⟩
def F.FT_PPS_CAPTURE_EDGE_FTU : Fld := ⟨.FT_PPS_CAPTURE, 63, 0, .ro⟩
def F.FT_OVERRUN_WING3 : Fld := ⟨.FT_OVERRUN, 63, 48, .w1cField⟩
def F.FT_OVERRUN_WING2 : Fld := ⟨.FT_OVERRUN, 47, 32, .w1cField⟩
def F.FT_OVERRUN_WING1 : Fld := ⟨.FT_OVERRUN, 31, 16, .w1cField⟩
def F.FT_OVERRUN_WING0 : Fld := ⟨.FT_OVERRUN, 15, 0, .w1cField⟩
def F.FT_COAST_UPSTREAM_CHANGES : Fld := ⟨.FT_COAST, 63, 32, .w1cField⟩
def F.FT_COAST_LONGEST_COAST : Fld := ⟨.FT_COAST, 31, 0, .w1cField⟩
def F.PRT_CTL_QUAL_TIME : Fld := ⟨.PRT_CTL, 25, 16, .ro⟩
def F.PRT_CTL_MODE : Fld := ⟨.PRT_CTL, 1, 0, .ro⟩
def F.PRT_STATUS_QUAL_CAUSE : Fld := ⟨.PRT_STATUS, 39, 32, .ro⟩
def F.PRT_STATUS_REASON : Fld := ⟨.PRT_STATUS, 31, 24, .ro⟩
def F.PRT_STATUS_MINOR : Fld := ⟨.PRT_STATUS, 23, 16, .ro⟩
def F.PRT_STATUS_PAIRS_OK : Fld := ⟨.PRT_STATUS, 15, 12, .ro⟩
def F.PRT_STATUS_WIDTH : Fld := ⟨.PRT_STATUS, 11, 8, .ro⟩
def F.PRT_STATUS_STATE : Fld := ⟨.PRT_STATUS, 3, 0, .ro⟩
def F.PRT_PEER_ID_EFP_MINOR : Fld := ⟨.PRT_PEER_ID, 47, 40, .ro⟩
def F.PRT_PEER_ID_EFP_MAJOR : Fld := ⟨.PRT_PEER_ID, 39, 32, .ro⟩
def F.PRT_PEER_ID_ENDPOINT : Fld := ⟨.PRT_PEER_ID, 25, 25, .ro⟩
def F.PRT_PEER_ID_VALID : Fld := ⟨.PRT_PEER_ID, 24, 24, .ro⟩
def F.PRT_PEER_ID_PORT : Fld := ⟨.PRT_PEER_ID, 23, 16, .ro⟩
def F.PRT_PEER_ID_CHIP : Fld := ⟨.PRT_PEER_ID, 15, 0, .ro⟩
def F.PRT_PEER_SERIAL_FW_BUILD : Fld := ⟨.PRT_PEER_SERIAL, 63, 32, .ro⟩
def F.PRT_PEER_SERIAL_INSTALL_SERIAL : Fld := ⟨.PRT_PEER_SERIAL, 31, 0, .ro⟩
def F.PRT_PEER_DEVICE_DEVICE_ID : Fld := ⟨.PRT_PEER_DEVICE, 63, 0, .ro⟩
def F.PRT_QUAL_RESULT_LOSS_EXP : Fld := ⟨.PRT_QUAL_RESULT, 55, 48, .ro⟩
def F.PRT_QUAL_RESULT_LOSS_MANT : Fld := ⟨.PRT_QUAL_RESULT, 47, 40, .ro⟩
def F.PRT_QUAL_RESULT_BER_EXP : Fld := ⟨.PRT_QUAL_RESULT, 31, 24, .ro⟩
def F.PRT_QUAL_RESULT_BER_MANT : Fld := ⟨.PRT_QUAL_RESULT, 23, 16, .ro⟩
def F.PRT_QUAL_RESULT_WORST_LANE : Fld := ⟨.PRT_QUAL_RESULT, 10, 8, .ro⟩
def F.PRT_QUAL_RESULT_PASS : Fld := ⟨.PRT_QUAL_RESULT, 1, 1, .ro⟩
def F.PRT_QUAL_RESULT_DONE : Fld := ⟨.PRT_QUAL_RESULT, 0, 0, .ro⟩
def F.PRT_FEC_COUNT_UNCORRECTABLE : Fld := ⟨.PRT_FEC_COUNT, 63, 32, .w1cField⟩
def F.PRT_FEC_COUNT_CORRECTED : Fld := ⟨.PRT_FEC_COUNT, 31, 0, .w1cField⟩
def F.PRT_EVENTS_LOSSES : Fld := ⟨.PRT_EVENTS, 63, 48, .w1cField⟩
def F.PRT_EVENTS_NARROWINGS : Fld := ⟨.PRT_EVENTS, 47, 32, .w1cField⟩
def F.PRT_EVENTS_DROPS : Fld := ⟨.PRT_EVENTS, 31, 0, .w1cField⟩
def F.XBR_WAITS_ESCAPES : Fld := ⟨.XBR_WAITS, 63, 32, .w1cField⟩
def F.XBR_WAITS_WAIT_DROPS : Fld := ⟨.XBR_WAITS, 31, 16, .w1cField⟩
def F.XBR_WAITS_TRUNCATIONS : Fld := ⟨.XBR_WAITS, 15, 0, .w1cField⟩
def F.XBR_HDR_ERR_BAD_HOP : Fld := ⟨.XBR_HDR_ERR, 63, 48, .w1cField⟩
def F.XBR_HDR_ERR_MISDELIVERED : Fld := ⟨.XBR_HDR_ERR, 47, 32, .w1cField⟩
def F.XBR_HDR_ERR_HDR_CRC : Fld := ⟨.XBR_HDR_ERR, 31, 0, .w1cField⟩
def F.XBR_INFLIGHT_COUNT : Fld := ⟨.XBR_INFLIGHT, 31, 0, .ro⟩
def F.EDG_CTL_ROUTE_VERSION : Fld := ⟨.EDG_CTL, 63, 32, .ro⟩
def F.EDG_CTL_LEVEL : Fld := ⟨.EDG_CTL, 31, 24, .ro⟩
def F.EDG_CTL_DRAIN : Fld := ⟨.EDG_CTL, 3, 2, .ro⟩
def F.EDG_CTL_VALID : Fld := ⟨.EDG_CTL, 1, 1, .ro⟩
def F.EDG_CTL_ACTIVE_BANK : Fld := ⟨.EDG_CTL, 0, 0, .ro⟩
def F.EDG_SWAP_AT_WINGBEAT : Fld := ⟨.EDG_SWAP_AT, 47, 0, .ro⟩
def F.EDG_DROPS_NOT_BOUND : Fld := ⟨.EDG_DROPS, 63, 48, .w1cField⟩
def F.EDG_DROPS_STALE_EPOCH : Fld := ⟨.EDG_DROPS, 47, 32, .w1cField⟩
def F.EDG_DROPS_NO_ROUTE : Fld := ⟨.EDG_DROPS, 31, 16, .w1cField⟩
def F.EDG_DROPS_BAD_HEADER : Fld := ⟨.EDG_DROPS, 15, 0, .w1cField⟩
def F.EDG_E2E_RESENDS : Fld := ⟨.EDG_E2E, 63, 32, .w1cField⟩
def F.EDG_E2E_DUPLICATES : Fld := ⟨.EDG_E2E, 31, 16, .w1cField⟩
def F.EDG_E2E_CHECK_FAILS : Fld := ⟨.EDG_E2E, 15, 0, .w1cField⟩
def F.MGR_ROLE_ROLE : Fld := ⟨.MGR_ROLE, 5, 4, .ro⟩
def F.MGR_ROLE_ACTIVE : Fld := ⟨.MGR_ROLE, 3, 3, .ro⟩
def F.MGR_ROLE_CONFIRMED : Fld := ⟨.MGR_ROLE, 2, 2, .ro⟩
def F.MGR_ROLE_STRAP : Fld := ⟨.MGR_ROLE, 1, 0, .ro⟩
def F.MGR_MAP_MAP_SEQ : Fld := ⟨.MGR_MAP, 63, 32, .ro⟩
def F.MGR_MAP_CHIP : Fld := ⟨.MGR_MAP, 31, 16, .ro⟩
def F.MGR_MAP_CELL : Fld := ⟨.MGR_MAP, 15, 8, .ro⟩
def F.MGR_MAP_COMPAT : Fld := ⟨.MGR_MAP, 1, 1, .ro⟩
def F.MGR_MAP_VALID : Fld := ⟨.MGR_MAP, 0, 0, .ro⟩
def F.MGR_ROUTE_ROUTE_VERSION : Fld := ⟨.MGR_ROUTE, 63, 32, .ro⟩
def F.MGR_ROUTE_SHARED : Fld := ⟨.MGR_ROUTE, 31, 16, .ro⟩
def F.MGR_ROUTE_COMPUTE_TIME : Fld := ⟨.MGR_ROUTE, 15, 0, .ro⟩
def F.MGR_PLAN_APPLIED : Fld := ⟨.MGR_PLAN, 63, 32, .ro⟩
def F.MGR_PLAN_PREPARED : Fld := ⟨.MGR_PLAN, 31, 0, .ro⟩
def F.MGR_NBR_MISMATCH : Fld := ⟨.MGR_NBR, 63, 52, .ro⟩
def F.MGR_NBR_STRANGER : Fld := ⟨.MGR_NBR, 51, 40, .ro⟩
def F.MGR_NBR_UNREPORTED : Fld := ⟨.MGR_NBR, 39, 20, .ro⟩
def F.MGR_NBR_MATCH : Fld := ⟨.MGR_NBR, 19, 0, .ro⟩
def F.MGR_FAILURES_LINKS : Fld := ⟨.MGR_FAILURES, 63, 48, .w1cField⟩
def F.MGR_FAILURES_SWITCHES : Fld := ⟨.MGR_FAILURES, 47, 32, .w1cField⟩
def F.MGR_FAILURES_ENDPOINTS : Fld := ⟨.MGR_FAILURES, 31, 16, .w1cField⟩
def F.MGR_FAILURES_DEGRADED : Fld := ⟨.MGR_FAILURES, 15, 0, .w1cField⟩
def F.TWN_STATUS_EPOCH : Fld := ⟨.TWN_STATUS, 63, 32, .ro⟩
def F.TWN_STATUS_REVERT_HOLD : Fld := ⟨.TWN_STATUS, 12, 12, .ro⟩
def F.TWN_STATUS_PEER_SYNCED : Fld := ⟨.TWN_STATUS, 11, 11, .ro⟩
def F.TWN_STATUS_PEER_STATE : Fld := ⟨.TWN_STATUS, 10, 8, .ro⟩
def F.TWN_STATUS_SYNCED : Fld := ⟨.TWN_STATUS, 3, 3, .ro⟩
def F.TWN_STATUS_STATE : Fld := ⟨.TWN_STATUS, 2, 0, .ro⟩
def F.TWN_HEARTBEAT_SILENT_TWIN : Fld := ⟨.TWN_HEARTBEAT, 63, 56, .ro⟩
def F.TWN_HEARTBEAT_SILENT_FABRIC : Fld := ⟨.TWN_HEARTBEAT, 55, 48, .ro⟩
def F.TWN_HEARTBEAT_LAST_HEARD : Fld := ⟨.TWN_HEARTBEAT, 47, 0, .ro⟩
def F.TWN_SYNC_SNAP_PROGRESS : Fld := ⟨.TWN_SYNC, 63, 52, .ro⟩
def F.TWN_SYNC_DELTA_WB : Fld := ⟨.TWN_SYNC, 47, 0, .ro⟩
def F.TWN_REVERT_TAKEBACK_PENDING : Fld := ⟨.TWN_REVERT, 17, 17, .ro⟩
def F.TWN_REVERT_HOLD_LEFT : Fld := ⟨.TWN_REVERT, 16, 0, .ro⟩
def F.TWN_AGENT_HIGHEST_EPOCH : Fld := ⟨.TWN_AGENT, 63, 32, .ro⟩
def F.TWN_AGENT_MANAGER_CHIP : Fld := ⟨.TWN_AGENT, 15, 0, .ro⟩
def F.TWN_EVENTS_TAKEOVERS : Fld := ⟨.TWN_EVENTS, 63, 52, .w1cField⟩
def F.TWN_EVENTS_FENCES : Fld := ⟨.TWN_EVENTS, 51, 40, .w1cField⟩
def F.TWN_EVENTS_REVERSIONS : Fld := ⟨.TWN_EVENTS, 39, 28, .w1cField⟩
def F.TWN_EVENTS_UNSYNCS : Fld := ⟨.TWN_EVENTS, 27, 16, .w1cField⟩
def F.TWN_EVENTS_STALE_DROPS : Fld := ⟨.TWN_EVENTS, 15, 0, .w1cField⟩
def F.TWN_PORT_STATUS_QUAL_CAUSE : Fld := ⟨.TWN_PORT_STATUS, 39, 32, .ro⟩
def F.TWN_PORT_STATUS_WIDTH : Fld := ⟨.TWN_PORT_STATUS, 11, 8, .ro⟩
def F.TWN_PORT_STATUS_STATE : Fld := ⟨.TWN_PORT_STATUS, 3, 0, .ro⟩
def F.QUE_CFG_CONTEXT : Fld := ⟨.QUE_CFG, 47, 36, .ro⟩
def F.QUE_CFG_CQ_LOG : Fld := ⟨.QUE_CFG, 20, 16, .ro⟩
def F.QUE_CFG_RING_LOG : Fld := ⟨.QUE_CFG, 12, 8, .ro⟩
def F.QUE_CFG_STATE : Fld := ⟨.QUE_CFG, 3, 2, .ro⟩
def F.QUE_CFG_CQ_FULL : Fld := ⟨.QUE_CFG, 1, 1, .ro⟩
def F.QUE_CFG_WAITING : Fld := ⟨.QUE_CFG, 0, 0, .ro⟩
def F.QUE_RING_BASE_BASE : Fld := ⟨.QUE_RING_BASE, 47, 0, .ro⟩
def F.QUE_CQ_BASE_BASE : Fld := ⟨.QUE_CQ_BASE, 47, 0, .ro⟩
def F.QUE_INDEX_TAIL : Fld := ⟨.QUE_INDEX, 63, 32, .ro⟩
def F.QUE_INDEX_HEAD : Fld := ⟨.QUE_INDEX, 31, 0, .ro⟩
def F.QUE_CQ_INDEX_CQ_HEAD : Fld := ⟨.QUE_CQ_INDEX, 63, 32, .ro⟩
def F.QUE_CQ_INDEX_CQ_TAIL : Fld := ⟨.QUE_CQ_INDEX, 31, 0, .ro⟩
def F.QUE_DOORBELL_OP : Fld := ⟨.QUE_DOORBELL, 47, 46, .wo⟩
def F.QUE_DOORBELL_INDEX : Fld := ⟨.QUE_DOORBELL, 31, 0, .wo⟩
def F.QUE_CTX_SEL_CONTEXT : Fld := ⟨.QUE_CTX_SEL, 11, 0, .rw⟩
def F.QUE_CTX_STATUS_RESETS : Fld := ⟨.QUE_CTX_STATUS, 63, 56, .ro⟩
def F.QUE_CTX_STATUS_EVT_COUNT : Fld := ⟨.QUE_CTX_STATUS, 48, 32, .ro⟩
def F.QUE_CTX_STATUS_SEALED : Fld := ⟨.QUE_CTX_STATUS, 27, 27, .ro⟩
def F.QUE_CTX_STATUS_SLICE : Fld := ⟨.QUE_CTX_STATUS, 25, 16, .ro⟩
def F.QUE_CTX_STATUS_EPOCH : Fld := ⟨.QUE_CTX_STATUS, 15, 8, .ro⟩
def F.QUE_CTX_STATUS_STATE : Fld := ⟨.QUE_CTX_STATUS, 2, 0, .ro⟩
def F.QUE_DROPS_DB_NOT_BOUND : Fld := ⟨.QUE_DROPS, 63, 48, .w1cField⟩
def F.QUE_DROPS_DB_BAD_INDEX : Fld := ⟨.QUE_DROPS, 47, 32, .w1cField⟩
def F.QUE_DROPS_REFUSED : Fld := ⟨.QUE_DROPS, 31, 16, .w1cField⟩
def F.QUE_DROPS_STALE_SLOT : Fld := ⟨.QUE_DROPS, 15, 0, .w1cField⟩
def F.ACD_SLOTS_SPILL_USED : Fld := ⟨.ACD_SLOTS, 63, 48, .ro⟩
def F.ACD_SLOTS_DYN_WAITING : Fld := ⟨.ACD_SLOTS, 47, 32, .ro⟩
def F.ACD_SLOTS_DYN_FREE : Fld := ⟨.ACD_SLOTS, 31, 16, .ro⟩
def F.ACD_SLOTS_SCHED_CLAIMED : Fld := ⟨.ACD_SLOTS, 15, 0, .ro⟩
def F.ACD_EVENTS_SPILLS : Fld := ⟨.ACD_EVENTS, 63, 48, .w1cField⟩
def F.ACD_EVENTS_SLIPS : Fld := ⟨.ACD_EVENTS, 47, 32, .w1cField⟩
def F.ACD_EVENTS_ABORTS : Fld := ⟨.ACD_EVENTS, 31, 16, .w1cField⟩
def F.ACD_EVENTS_BAD_GRANT : Fld := ⟨.ACD_EVENTS, 15, 0, .w1cField⟩
def F.ACD_CHECK_RESIDUE_FAILS : Fld := ⟨.ACD_CHECK, 63, 48, .w1cField⟩
def F.ACD_CHECK_LANE_MISMATCHES : Fld := ⟨.ACD_CHECK, 47, 32, .w1cField⟩
def F.ACD_CHECK_LANES_RETIRED : Fld := ⟨.ACD_CHECK, 31, 24, .w1cField⟩
def F.ACD_CHECK_UNDELIVERED : Fld := ⟨.ACD_CHECK, 23, 16, .w1cField⟩
def F.ACD_CHECK_CODE_VIOLATIONS : Fld := ⟨.ACD_CHECK, 15, 0, .w1cField⟩
def F.ACD_SLICE_SEL_CLEAR : Fld := ⟨.ACD_SLICE_SEL, 63, 63, .wo⟩
def F.ACD_SLICE_SEL_SLICE : Fld := ⟨.ACD_SLICE_SEL, 9, 0, .rw⟩
def F.ACD_SLOWEST_RANK : Fld := ⟨.ACD_SLOWEST, 63, 48, .ro⟩
def F.ACD_SLOWEST_LATENESS : Fld := ⟨.ACD_SLOWEST, 47, 16, .ro⟩
def F.ACD_SLOWEST_VALID : Fld := ⟨.ACD_SLOWEST, 0, 0, .ro⟩
def F.ACD_LATE_HIST_BIN3 : Fld := ⟨.ACD_LATE_HIST, 63, 48, .ro⟩
def F.ACD_LATE_HIST_BIN2 : Fld := ⟨.ACD_LATE_HIST, 47, 32, .ro⟩
def F.ACD_LATE_HIST_BIN1 : Fld := ⟨.ACD_LATE_HIST, 31, 16, .ro⟩
def F.ACD_LATE_HIST_BIN0 : Fld := ⟨.ACD_LATE_HIST, 15, 0, .ro⟩
def F.SKP_GROUP_SEL_GROUP : Fld := ⟨.SKP_GROUP_SEL, 11, 0, .rw⟩
def F.SKP_GROUP_STATUS_GEN : Fld := ⟨.SKP_GROUP_STATUS, 63, 32, .ro⟩
def F.SKP_GROUP_STATUS_MEMBERS : Fld := ⟨.SKP_GROUP_STATUS, 31, 16, .ro⟩
def F.SKP_GROUP_STATUS_SLIP_LIMIT : Fld := ⟨.SKP_GROUP_STATUS, 15, 8, .ro⟩
def F.SKP_GROUP_STATUS_STATE : Fld := ⟨.SKP_GROUP_STATUS, 2, 0, .ro⟩
def F.SKP_EVENTS_OPS : Fld := ⟨.SKP_EVENTS, 63, 32, .w1cField⟩
def F.SKP_EVENTS_ABORTS : Fld := ⟨.SKP_EVENTS, 31, 16, .w1cField⟩
def F.SKP_EVENTS_MISMATCHES : Fld := ⟨.SKP_EVENTS, 15, 0, .w1cField⟩
def F.HWK_CORE_STATUS_BOUQUET : Fld := ⟨.HWK_CORE_STATUS, 63, 32, .ro⟩
def F.HWK_CORE_STATUS_CONTEXT : Fld := ⟨.HWK_CORE_STATUS, 31, 20, .ro⟩
def F.HWK_CORE_STATUS_LOGICAL : Fld := ⟨.HWK_CORE_STATUS, 19, 11, .ro⟩
def F.HWK_CORE_STATUS_STATE : Fld := ⟨.HWK_CORE_STATUS, 2, 0, .ro⟩
def F.HWK_CORE_COUNTS_STEPS : Fld := ⟨.HWK_CORE_COUNTS, 63, 32, .w1cField⟩
def F.HWK_CORE_COUNTS_OVERRUNS : Fld := ⟨.HWK_CORE_COUNTS, 31, 16, .w1cField⟩
def F.HWK_CORE_COUNTS_FAULTS : Fld := ⟨.HWK_CORE_COUNTS, 15, 0, .w1cField⟩
def F.HWK_WING_STATUS_BOUQUETS : Fld := ⟨.HWK_WING_STATUS, 39, 32, .ro⟩
def F.HWK_WING_STATUS_ABSENT : Fld := ⟨.HWK_WING_STATUS, 31, 24, .ro⟩
def F.HWK_WING_STATUS_RESERVE_MIN : Fld := ⟨.HWK_WING_STATUS, 23, 16, .ro⟩
def F.HWK_REPORTS_WRITTEN : Fld := ⟨.HWK_REPORTS, 63, 32, .w1cField⟩
def F.HWK_REPORTS_LOST : Fld := ⟨.HWK_REPORTS, 31, 16, .w1cField⟩
def F.HWK_REPORTS_OP_OVERRUNS : Fld := ⟨.HWK_REPORTS, 15, 0, .w1cField⟩
def F.HWK_BQ_SEL_INDEX : Fld := ⟨.HWK_BQ_SEL, 5, 0, .rw⟩
def F.HWK_BQ_STATUS_HANDLE : Fld := ⟨.HWK_BQ_STATUS, 63, 32, .ro⟩
def F.HWK_BQ_STATUS_SLICE : Fld := ⟨.HWK_BQ_STATUS, 21, 12, .ro⟩
def F.HWK_BQ_STATUS_DEGRADED : Fld := ⟨.HWK_BQ_STATUS, 3, 3, .ro⟩
def F.HWK_BQ_STATUS_STATE : Fld := ⟨.HWK_BQ_STATUS, 2, 0, .ro⟩
def F.HWK_BQ_START_PERIOD : Fld := ⟨.HWK_BQ_START, 60, 48, .ro⟩
def F.HWK_BQ_START_START : Fld := ⟨.HWK_BQ_START, 47, 0, .ro⟩
def F.HWK_LOAD_RESULT_CHIP : Fld := ⟨.HWK_LOAD_RESULT, 63, 48, .ro⟩
def F.HWK_LOAD_RESULT_STATUS : Fld := ⟨.HWK_LOAD_RESULT, 47, 40, .ro⟩
def F.HWK_LOAD_RESULT_RESOURCE : Fld := ⟨.HWK_LOAD_RESULT, 39, 32, .ro⟩
def F.HWK_LOAD_RESULT_INDEX : Fld := ⟨.HWK_LOAD_RESULT, 31, 16, .ro⟩
def F.HWK_LOAD_RESULT_OFFSET : Fld := ⟨.HWK_LOAD_RESULT, 15, 0, .ro⟩
def F.HWK_LOAD_AMOUNT_NEED : Fld := ⟨.HWK_LOAD_AMOUNT, 63, 32, .ro⟩
def F.HWK_LOAD_AMOUNT_HAVE : Fld := ⟨.HWK_LOAD_AMOUNT, 31, 0, .ro⟩
def F.HBM_STACK_SEL_STACK : Fld := ⟨.HBM_STACK_SEL, 2, 0, .rw⟩
def F.HBM_STACK_STATUS_RESERVE_LEFT : Fld := ⟨.HBM_STACK_STATUS, 63, 48, .ro⟩
def F.HBM_STACK_STATUS_PIN_RATE : Fld := ⟨.HBM_STACK_STATUS, 47, 40, .ro⟩
def F.HBM_STACK_STATUS_RESERVE_EMPTY : Fld := ⟨.HBM_STACK_STATUS, 3, 3, .ro⟩
def F.HBM_STACK_STATUS_STATE : Fld := ⟨.HBM_STACK_STATUS, 2, 0, .ro⟩
def F.HBM_ECC_CORRECTED : Fld := ⟨.HBM_ECC, 63, 32, .w1cField⟩
def F.HBM_ECC_UNCORRECTABLE : Fld := ⟨.HBM_ECC, 31, 16, .w1cField⟩
def F.HBM_ECC_POISON_READS : Fld := ⟨.HBM_ECC, 15, 0, .w1cField⟩
def F.HBM_RETIRE_RETIRED : Fld := ⟨.HBM_RETIRE, 63, 32, .ro⟩
def F.HBM_RETIRE_THRESHOLD : Fld := ⟨.HBM_RETIRE, 26, 16, .ro⟩
def F.HBM_RETIRE_QUEUED : Fld := ⟨.HBM_RETIRE, 15, 8, .ro⟩
def F.HBM_POOL_SCRUB_QUEUED : Fld := ⟨.HBM_POOL, 39, 20, .ro⟩
def F.HBM_POOL_FREE : Fld := ⟨.HBM_POOL, 19, 0, .ro⟩
def F.HBM_ACCESS_ERR_REFUSED : Fld := ⟨.HBM_ACCESS_ERR, 63, 32, .w1cField⟩
def F.HBM_ACCESS_ERR_INTEGRITY : Fld := ⟨.HBM_ACCESS_ERR, 31, 16, .w1cField⟩
def F.HBM_ACCESS_ERR_REFUSAL_REPLIES : Fld := ⟨.HBM_ACCESS_ERR, 15, 0, .w1cField⟩
def F.ATL_CH_SEL_STOP : Fld := ⟨.ATL_CH_SEL, 63, 63, .wo⟩
def F.ATL_CH_SEL_CHANNEL : Fld := ⟨.ATL_CH_SEL, 7, 0, .rw⟩
def F.ATL_CH_STATUS_DESC_DONE : Fld := ⟨.ATL_CH_STATUS, 63, 40, .ro⟩
def F.ATL_CH_STATUS_LATE_STATUS : Fld := ⟨.ATL_CH_STATUS, 39, 32, .ro⟩
def F.ATL_CH_STATUS_CONTEXT : Fld := ⟨.ATL_CH_STATUS, 31, 20, .ro⟩
def F.ATL_CH_STATUS_OUTSTANDING : Fld := ⟨.ATL_CH_STATUS, 19, 4, .ro⟩
def F.ATL_CH_STATUS_STATE : Fld := ⟨.ATL_CH_STATUS, 2, 0, .ro⟩
def F.ATL_EVENTS_DESCRIPTORS : Fld := ⟨.ATL_EVENTS, 63, 32, .w1cField⟩
def F.ATL_EVENTS_STOPS : Fld := ⟨.ATL_EVENTS, 31, 16, .w1cField⟩
def F.ATL_EVENTS_REFUSED : Fld := ⟨.ATL_EVENTS, 15, 0, .w1cField⟩
def F.ATS_CH_LOCK_OWNER : Fld := ⟨.ATS_CH_LOCK, 2, 0, .rc⟩
def F.ATS_CH_DESC_SPACE : Fld := ⟨.ATS_CH_DESC, 63, 60, .rw⟩
def F.ATS_CH_DESC_ADDRESS : Fld := ⟨.ATS_CH_DESC, 47, 0, .rw⟩
def F.ATS_CH_CTL_FENCE : Fld := ⟨.ATS_CH_CTL, 2, 2, .wo⟩
def F.ATS_CH_CTL_STOP : Fld := ⟨.ATS_CH_CTL, 1, 1, .wo⟩
def F.ATS_CH_CTL_GO : Fld := ⟨.ATS_CH_CTL, 0, 0, .wo⟩
def F.ATS_CH_STATUS_DESC_DONE : Fld := ⟨.ATS_CH_STATUS, 63, 32, .ro⟩
def F.ATS_CH_STATUS_LAST_STATUS : Fld := ⟨.ATS_CH_STATUS, 31, 24, .ro⟩
def F.ATS_CH_STATUS_OUTSTANDING : Fld := ⟨.ATS_CH_STATUS, 23, 8, .ro⟩
def F.ATS_CH_STATUS_STATE : Fld := ⟨.ATS_CH_STATUS, 2, 0, .ro⟩
def F.ATS_CQ_BASE_SPACE : Fld := ⟨.ATS_CQ_BASE, 63, 60, .rw⟩
def F.ATS_CQ_BASE_LOG : Fld := ⟨.ATS_CQ_BASE, 59, 56, .rw⟩
def F.ATS_CQ_BASE_BASE : Fld := ⟨.ATS_CQ_BASE, 47, 0, .rw⟩
def F.ATS_CQ_INDEX_CQ_HEAD : Fld := ⟨.ATS_CQ_INDEX, 63, 32, .rw⟩
def F.ATS_CQ_INDEX_CQ_TAIL : Fld := ⟨.ATS_CQ_INDEX, 31, 0, .ro⟩
def F.SEC_STATUS_SEALED_SLICES : Fld := ⟨.SEC_STATUS, 63, 48, .ro⟩
def F.SEC_STATUS_TEST_WINDOW_CLOSED : Fld := ⟨.SEC_STATUS, 7, 7, .ro⟩
def F.SEC_STATUS_DEBUG_EN : Fld := ⟨.SEC_STATUS, 6, 6, .ro⟩
def F.SEC_STATUS_XMSS_EXHAUSTED : Fld := ⟨.SEC_STATUS, 5, 5, .ro⟩
def F.SEC_STATUS_XMSS_READY : Fld := ⟨.SEC_STATUS, 4, 4, .ro⟩
def F.SEC_STATUS_FW_VERIFIED : Fld := ⟨.SEC_STATUS, 3, 3, .ro⟩
def F.SEC_STATUS_COCOON_OK : Fld := ⟨.SEC_STATUS, 2, 2, .ro⟩
def F.SEC_STATUS_PUF_OK : Fld := ⟨.SEC_STATUS, 1, 1, .ro⟩
def F.SEC_DEVICE_ID_DEVICE_ID : Fld := ⟨.SEC_DEVICE_ID, 63, 0, .ro⟩
def F.SEC_XMSS_INDEX_NEXT_INDEX : Fld := ⟨.SEC_XMSS_INDEX, 40, 0, .ro⟩
def F.SEC_XMSS_RESERVED_RESERVED_TO : Fld := ⟨.SEC_XMSS_RESERVED, 40, 0, .ro⟩
def F.SEC_SEL_WORD : Fld := ⟨.SEC_SEL, 15, 14, .rw⟩
def F.SEC_SEL_CHAIN : Fld := ⟨.SEC_SEL, 13, 12, .rw⟩
def F.SEC_SEL_SLICE : Fld := ⟨.SEC_SEL, 9, 0, .rw⟩
def F.SEC_MEASURE_VALUE : Fld := ⟨.SEC_MEASURE, 63, 0, .ro⟩
def F.SEC_SLICE_STATUS_POLICY_LOW : Fld := ⟨.SEC_SLICE_STATUS, 63, 32, .ro⟩
def F.SEC_SLICE_STATUS_STRICT : Fld := ⟨.SEC_SLICE_STATUS, 2, 2, .ro⟩
def F.SEC_SLICE_STATUS_STATE : Fld := ⟨.SEC_SLICE_STATUS, 1, 0, .ro⟩
def F.SEC_SEAL_EVENTS_SEAL_FAILS : Fld := ⟨.SEC_SEAL_EVENTS, 63, 48, .w1cField⟩
def F.SEC_SEAL_EVENTS_FAIL_PASSED : Fld := ⟨.SEC_SEAL_EVENTS, 47, 32, .w1cField⟩
def F.SEC_SEAL_EVENTS_TAG_FAILS : Fld := ⟨.SEC_SEAL_EVENTS, 31, 16, .w1cField⟩
def F.SEC_SEAL_EVENTS_NO_KEY_DROPS : Fld := ⟨.SEC_SEAL_EVENTS, 15, 0, .w1cField⟩
def F.CTL_SEM_OWNER : Fld := ⟨.CTL_SEM, 2, 0, .rc⟩
def F.CTL_EPOCHS_DEBUG : Fld := ⟨.CTL_EPOCHS, 39, 32, .ro⟩
def F.CTL_EPOCHS_FIRMWARE : Fld := ⟨.CTL_EPOCHS, 31, 24, .ro⟩
def F.CTL_EPOCHS_ANT_B : Fld := ⟨.CTL_EPOCHS, 23, 16, .ro⟩
def F.CTL_EPOCHS_ANT_A : Fld := ⟨.CTL_EPOCHS, 15, 8, .ro⟩
def F.MBX_DATA_WORD : Fld := ⟨.MBX_DATA, 63, 0, .rw⟩
def F.MBX_STATUS_POST_EPOCH : Fld := ⟨.MBX_STATUS, 63, 56, .ro⟩
def F.MBX_STATUS_SENDER_RESTARTED : Fld := ⟨.MBX_STATUS, 47, 47, .ro⟩
def F.MBX_STATUS_SENDER : Fld := ⟨.MBX_STATUS, 46, 44, .ro⟩
def F.MBX_STATUS_DEST : Fld := ⟨.MBX_STATUS, 43, 41, .ro⟩
def F.MBX_STATUS_DOMAIN : Fld := ⟨.MBX_STATUS, 40, 38, .ro⟩
def F.MBX_STATUS_FULL : Fld := ⟨.MBX_STATUS, 0, 0, .ro⟩
def F.MBX_ACK_VALID : Fld := ⟨.MBX_ACK, 8, 8, .ro⟩
def F.MBX_ACK_CODE : Fld := ⟨.MBX_ACK, 7, 0, .rw⟩
def F.MBX_LOCK_OWNER : Fld := ⟨.MBX_LOCK, 2, 0, .rc⟩
def F.DB_IN_BITS : Fld := ⟨.DB_IN, 31, 0, .w1s⟩
def F.DB_IN_MASK_MASK : Fld := ⟨.DB_IN_MASK, 31, 0, .ro⟩
def F.DB_OUT_BITS : Fld := ⟨.DB_OUT, 31, 0, .w1cBit⟩
def F.DB_OUT_MASK_MASK : Fld := ⟨.DB_OUT_MASK, 31, 0, .rw⟩
def F.ANT_CTL_RETRAIN : Fld := ⟨.ANT_CTL, 1, 1, .wo⟩
def F.ANT_CTL_EVT_EN : Fld := ⟨.ANT_CTL, 0, 0, .rw⟩
def F.ANT_STATUS_EVT_QUEUED : Fld := ⟨.ANT_STATUS, 40, 32, .ro⟩
def F.ANT_STATUS_HOST_OUT : Fld := ⟨.ANT_STATUS, 31, 24, .ro⟩
def F.ANT_STATUS_OUTSTANDING : Fld := ⟨.ANT_STATUS, 23, 16, .ro⟩
def F.ANT_STATUS_LANES : Fld := ⟨.ANT_STATUS, 11, 8, .ro⟩
def F.ANT_STATUS_STATE : Fld := ⟨.ANT_STATUS, 1, 0, .ro⟩
def F.ANT_COUNTS_CRC_ERRORS : Fld := ⟨.ANT_COUNTS, 63, 48, .w1cField⟩
def F.ANT_COUNTS_REPLAYS : Fld := ⟨.ANT_COUNTS, 47, 32, .w1cField⟩
def F.ANT_COUNTS_DOWNS : Fld := ⟨.ANT_COUNTS, 31, 16, .w1cField⟩
def F.ANT_COUNTS_EVT_LOST : Fld := ⟨.ANT_COUNTS, 15, 0, .w1cField⟩
def F.INS_CTL_FAST_PATH : Fld := ⟨.INS_CTL, 8, 8, .rw⟩
def F.INS_CTL_TIME : Fld := ⟨.INS_CTL, 7, 7, .wo⟩
def F.INS_CTL_SOURCE : Fld := ⟨.INS_CTL, 6, 6, .rw⟩
def F.INS_CTL_STAGE : Fld := ⟨.INS_CTL, 3, 1, .rw⟩
def F.INS_CTL_GO : Fld := ⟨.INS_CTL, 0, 0, .wo⟩
def F.INS_STATUS_ELAPSED_MS : Fld := ⟨.INS_STATUS, 63, 32, .ro⟩
def F.INS_STATUS_FAIL_UNIT : Fld := ⟨.INS_STATUS, 31, 24, .ro⟩
def F.INS_STATUS_FAIL_CODE : Fld := ⟨.INS_STATUS, 23, 16, .ro⟩
def F.INS_STATUS_FAST_TAKEN : Fld := ⟨.INS_STATUS, 9, 9, .ro⟩
def F.INS_STATUS_IMAGO : Fld := ⟨.INS_STATUS, 8, 8, .ro⟩
def F.INS_STATUS_STATE : Fld := ⟨.INS_STATUS, 5, 4, .ro⟩
def F.INS_STATUS_STAGE : Fld := ⟨.INS_STATUS, 3, 0, .ro⟩
def F.INS_IMAGE_ACTIVE_BUILD : Fld := ⟨.INS_IMAGE, 63, 32, .ro⟩
def F.INS_IMAGE_BYTES : Fld := ⟨.INS_IMAGE, 25, 0, .rw⟩
def F.INS_FT_SEED_FTU : Fld := ⟨.INS_FT_SEED, 63, 0, .rw⟩
def F.INS_TEST_UNITS_TESTED : Fld := ⟨.INS_TEST, 63, 48, .ro⟩
def F.INS_TEST_NEW_DEFECTS : Fld := ⟨.INS_TEST, 47, 32, .ro⟩
def F.INS_TEST_SPARES_USED : Fld := ⟨.INS_TEST, 31, 16, .ro⟩
def F.INS_TEST_ABSENT : Fld := ⟨.INS_TEST, 15, 0, .ro⟩
def F.INS_PORTS_NARROW : Fld := ⟨.INS_PORTS, 47, 40, .ro⟩
def F.INS_PORTS_DOWN : Fld := ⟨.INS_PORTS, 39, 32, .ro⟩
def F.INS_PORTS_HELD : Fld := ⟨.INS_PORTS, 31, 24, .ro⟩
def F.INS_PORTS_QUAL_FAIL : Fld := ⟨.INS_PORTS, 23, 16, .ro⟩
def F.INS_PORTS_UP : Fld := ⟨.INS_PORTS, 15, 8, .ro⟩
def F.INS_PORTS_EXPECTED : Fld := ⟨.INS_PORTS, 7, 0, .ro⟩
def F.INS_LIFE_POWER_CYCLES : Fld := ⟨.INS_LIFE, 63, 32, .ro⟩
def F.INS_LIFE_HOURS : Fld := ⟨.INS_LIFE, 31, 0, .ro⟩
def F.INS_FAST_LAST_FULL : Fld := ⟨.INS_FAST, 63, 32, .ro⟩
def F.INS_FAST_ELIGIBLE : Fld := ⟨.INS_FAST, 2, 2, .ro⟩
def F.INS_FAST_CLEAN : Fld := ⟨.INS_FAST, 1, 1, .ro⟩
def F.INS_FAST_MARKER : Fld := ⟨.INS_FAST, 0, 0, .ro⟩
def F.RST_CAUSE_KIND : Fld := ⟨.RST_CAUSE, 39, 32, .ro⟩
def F.RST_CAUSE_SOURCE : Fld := ⟨.RST_CAUSE, 31, 24, .ro⟩
def F.RST_CAUSE_WAKE_CMP : Fld := ⟨.RST_CAUSE, 23, 16, .ro⟩
def F.RST_CAUSE_POOL_HELD : Fld := ⟨.RST_CAUSE, 0, 0, .ro⟩
def F.RST_COUNTS_WARM : Fld := ⟨.RST_COUNTS, 63, 48, .w1cField⟩
def F.RST_COUNTS_COMPUTE : Fld := ⟨.RST_COUNTS, 47, 32, .w1cField⟩
def F.RST_COUNTS_ROLE : Fld := ⟨.RST_COUNTS, 31, 16, .w1cField⟩
def F.RST_COUNTS_PORT : Fld := ⟨.RST_COUNTS, 15, 0, .w1cField⟩
def F.RST_ESC_LIMITS_COMPUTE_WINDOW : Fld := ⟨.RST_ESC_LIMITS, 63, 47, .ro⟩
def F.RST_ESC_LIMITS_COMPUTE_RESETS : Fld := ⟨.RST_ESC_LIMITS, 46, 42, .ro⟩
def F.RST_ESC_LIMITS_CHIP_WINDOW : Fld := ⟨.RST_ESC_LIMITS, 41, 30, .ro⟩
def F.RST_ESC_LIMITS_CHIP_RESETS : Fld := ⟨.RST_ESC_LIMITS, 29, 21, .ro⟩
def F.RST_ESC_LIMITS_CTX_WINDOW : Fld := ⟨.RST_ESC_LIMITS, 20, 11, .ro⟩
def F.RST_ESC_LIMITS_CTX_RESETS : Fld := ⟨.RST_ESC_LIMITS, 10, 3, .ro⟩
def F.RST_ESC_COUNT_COMPUTE : Fld := ⟨.RST_ESC_COUNT, 23, 16, .ro⟩
def F.RST_ESC_COUNT_CONTEXT : Fld := ⟨.RST_ESC_COUNT, 15, 0, .ro⟩
def F.PWR_STATUS_FO_CAUSES : Fld := ⟨.PWR_STATUS, 14, 8, .ro⟩
def F.PWR_STATUS_FWD_ONLY : Fld := ⟨.PWR_STATUS, 2, 2, .ro⟩
def F.PWR_STATUS_STATE : Fld := ⟨.PWR_STATUS, 1, 0, .ro⟩
def F.PWR_MEASURE_TEMP : Fld := ⟨.PWR_MEASURE, 63, 48, .ro⟩
def F.PWR_MEASURE_VIN : Fld := ⟨.PWR_MEASURE, 47, 32, .ro⟩
def F.PWR_MEASURE_POWER : Fld := ⟨.PWR_MEASURE, 31, 16, .ro⟩
def F.AON_CMP_CTL_FWD_ONLY : Fld := ⟨.AON_CMP_CTL, 5, 5, .rw⟩
def F.AON_CMP_CTL_ALERT : Fld := ⟨.AON_CMP_CTL, 4, 4, .rw⟩
def F.AON_CMP_CTL_WAKE : Fld := ⟨.AON_CMP_CTL, 3, 3, .rw⟩
def F.AON_CMP_CTL_DIR : Fld := ⟨.AON_CMP_CTL, 1, 1, .rw⟩
def F.AON_CMP_CTL_ENABLE : Fld := ⟨.AON_CMP_CTL, 0, 0, .rw⟩
def F.AON_CMP_VALUE_VALUE : Fld := ⟨.AON_CMP_VALUE, 63, 0, .rw⟩
def F.AON_CMP_EVENTS_ACTIVE : Fld := ⟨.AON_CMP_EVENTS, 15, 8, .ro⟩
def F.AON_CMP_EVENTS_FIRED : Fld := ⟨.AON_CMP_EVENTS, 7, 0, .w1cBit⟩
def F.SPR_STATUS_ENTRIES : Fld := ⟨.SPR_STATUS, 63, 32, .ro⟩
def F.SPR_STATUS_LIST_FULL : Fld := ⟨.SPR_STATUS, 0, 0, .ro⟩
def F.SPR_MAP_SEL_KIND : Fld := ⟨.SPR_MAP_SEL, 15, 12, .rw⟩
def F.SPR_MAP_SEL_WING : Fld := ⟨.SPR_MAP_SEL, 11, 10, .rw⟩
def F.SPR_MAP_SEL_LOGICAL : Fld := ⟨.SPR_MAP_SEL, 6, 0, .rw⟩
def F.SPR_MAP_PHYSICAL : Fld := ⟨.SPR_MAP, 15, 8, .ro⟩
def F.SPR_MAP_STATE : Fld := ⟨.SPR_MAP, 1, 0, .ro⟩
def F.SPR_FREE_ACCORD_ROWS : Fld := ⟨.SPR_FREE, 63, 48, .ro⟩
def F.SPR_FREE_LS_ROWS_MIN : Fld := ⟨.SPR_FREE, 47, 32, .ro⟩
def F.SPR_FREE_AES : Fld := ⟨.SPR_FREE, 31, 24, .ro⟩
def F.SPR_FREE_SKIPPER : Fld := ⟨.SPR_FREE, 23, 16, .ro⟩
def F.SPR_FREE_LANES : Fld := ⟨.SPR_FREE, 15, 8, .ro⟩
def F.SPR_FREE_CORES : Fld := ⟨.SPR_FREE, 7, 0, .ro⟩
def F.SPR_EVENTS_TAKEOVERS : Fld := ⟨.SPR_EVENTS, 63, 48, .w1cField⟩
def F.SPR_EVENTS_ABSENTS : Fld := ⟨.SPR_EVENTS, 47, 32, .w1cField⟩
def F.SPR_EVENTS_APPENDS : Fld := ⟨.SPR_EVENTS, 31, 16, .w1cField⟩
def F.SPR_EVENTS_LOST : Fld := ⟨.SPR_EVENTS, 15, 0, .w1cField⟩
def F.SIL_STATUS_NEXT_SEQ : Fld := ⟨.SIL_STATUS, 63, 32, .ro⟩
def F.SIL_STATUS_OLDEST_SEQ : Fld := ⟨.SIL_STATUS, 31, 0, .ro⟩
def F.SIL_CFG_FRAMES : Fld := ⟨.SIL_CFG, 63, 48, .ro⟩
def F.SIL_CFG_MIN_SEVERITY : Fld := ⟨.SIL_CFG, 41, 40, .ro⟩
def F.SIL_CFG_WING : Fld := ⟨.SIL_CFG, 12, 11, .ro⟩
def F.SIL_CFG_PERSIST_HELD : Fld := ⟨.SIL_CFG, 10, 0, .ro⟩
def F.SIL_COUNTS_LOST : Fld := ⟨.SIL_COUNTS, 63, 32, .w1cField⟩
def F.SIL_COUNTS_DROPPED : Fld := ⟨.SIL_COUNTS, 31, 16, .w1cField⟩
def F.SIL_COUNTS_PERSIST_SKIPPED : Fld := ⟨.SIL_COUNTS, 15, 0, .w1cField⟩
def F.SIL_CURSOR_EMPTY : Fld := ⟨.SIL_CURSOR, 35, 35, .ro⟩
def F.SIL_CURSOR_GONE : Fld := ⟨.SIL_CURSOR, 34, 34, .ro⟩
def F.SIL_CURSOR_AUTO : Fld := ⟨.SIL_CURSOR, 33, 33, .rw⟩
def F.SIL_CURSOR_SEGMENT : Fld := ⟨.SIL_CURSOR, 32, 32, .rw⟩
def F.SIL_CURSOR_POSITION : Fld := ⟨.SIL_CURSOR, 31, 0, .rw⟩
def F.SIL_WINDOW_BYTES : Fld := ⟨.SIL_WINDOW, 63, 0, .ro⟩
def F.CHR_CTL_HALF : Fld := ⟨.CHR_CTL, 3, 3, .wo⟩
def F.CHR_CTL_RELEASE : Fld := ⟨.CHR_CTL, 2, 2, .wo⟩
def F.CHR_CTL_NEXT : Fld := ⟨.CHR_CTL, 1, 1, .wo⟩
def F.CHR_CTL_START : Fld := ⟨.CHR_CTL, 0, 0, .wo⟩
def F.CHR_STATUS_SECTION : Fld := ⟨.CHR_STATUS, 63, 48, .ro⟩
def F.CHR_STATUS_HUNG_COUNT : Fld := ⟨.CHR_STATUS, 47, 40, .ro⟩
def F.CHR_STATUS_CAUSE : Fld := ⟨.CHR_STATUS, 35, 32, .ro⟩
def F.CHR_STATUS_STATE : Fld := ⟨.CHR_STATUS, 1, 0, .ro⟩
def F.CHR_FREEZE_FTU_FTU : Fld := ⟨.CHR_FREEZE_FTU, 63, 0, .ro⟩
def F.CHR_ARM_DELAY : Fld := ⟨.CHR_ARM, 63, 40, .ro⟩
def F.CHR_ARM_CMP_MASK : Fld := ⟨.CHR_ARM, 39, 32, .ro⟩
def F.CHR_ARM_SIL_SOURCE : Fld := ⟨.CHR_ARM, 31, 24, .ro⟩
def F.CHR_ARM_SIL_CODE : Fld := ⟨.CHR_ARM, 23, 16, .ro⟩
def F.CHR_ARM_SIL_SEVERITY : Fld := ⟨.CHR_ARM, 15, 8, .ro⟩
def F.CHR_ARM_ONCE : Fld := ⟨.CHR_ARM, 1, 1, .ro⟩
def F.CHR_ARM_ARMED : Fld := ⟨.CHR_ARM, 0, 0, .ro⟩
def F.CHR_HALF_LEN1 : Fld := ⟨.CHR_HALF, 63, 32, .ro⟩
def F.CHR_HALF_LEN0 : Fld := ⟨.CHR_HALF, 31, 0, .ro⟩
def F.WST_STATUS_BUILD : Fld := ⟨.WST_STATUS, 63, 32, .ro⟩
def F.WST_STATUS_PRESENT : Fld := ⟨.WST_STATUS, 31, 24, .ro⟩
def F.WST_STATUS_FREE_CORES : Fld := ⟨.WST_STATUS, 23, 16, .ro⟩
def F.WST_STATUS_STATE : Fld := ⟨.WST_STATUS, 2, 0, .ro⟩
def F.WST_TEST_HOURS : Fld := ⟨.WST_TEST, 63, 32, .ro⟩
def F.WST_TEST_UNITS : Fld := ⟨.WST_TEST, 31, 16, .ro⟩
def F.WST_TEST_NEW_DEFECTS : Fld := ⟨.WST_TEST, 15, 8, .ro⟩
def F.WST_TEST_RESULT : Fld := ⟨.WST_TEST, 1, 0, .ro⟩

/-- The fields of a register, in the order of its field table. Bits outside them are reserved (R10). -/
def RegName.fields (r : RegName) : List Fld :=
  match r with
  | .FT_COUNT => [F.FT_COUNT_FTU]
  | .FT_STATUS => [F.FT_STATUS_OFFSET, F.FT_STATUS_DEPTH, F.FT_STATUS_UPSTREAM, F.FT_STATUS_ALTERNATE, F.FT_STATUS_STATE]
  | .FT_WB_CTL => [F.FT_WB_CTL_PENDING_AT, F.FT_WB_CTL_PENDING_LENGTH, F.FT_WB_CTL_PENDING, F.FT_WB_CTL_LENGTH]
  | .FT_WB_BASE_FTU => [F.FT_WB_BASE_FTU_BASE_FTU]
  | .FT_WB_BASE_NUM => [F.FT_WB_BASE_NUM_BASE_NUM]
  | .FT_WB_NUM => [F.FT_WB_NUM_NUM]
  | .FT_PPS_CTL => [F.FT_PPS_CTL_PHASE, F.FT_PPS_CTL_IN_LOCKED, F.FT_PPS_CTL_OUT_EN, F.FT_PPS_CTL_IN_EN]
  | .FT_PPS_CAPTURE => [F.FT_PPS_CAPTURE_EDGE_FTU]
  | .FT_OVERRUN => [F.FT_OVERRUN_WING3, F.FT_OVERRUN_WING2, F.FT_OVERRUN_WING1, F.FT_OVERRUN_WING0]
  | .FT_COAST => [F.FT_COAST_UPSTREAM_CHANGES, F.FT_COAST_LONGEST_COAST]
  | .PRT_CTL => [F.PRT_CTL_QUAL_TIME, F.PRT_CTL_MODE]
  | .PRT_STATUS => [F.PRT_STATUS_QUAL_CAUSE, F.PRT_STATUS_REASON, F.PRT_STATUS_MINOR, F.PRT_STATUS_PAIRS_OK, F.PRT_STATUS_WIDTH, F.PRT_STATUS_STATE]
  | .PRT_PEER_ID => [F.PRT_PEER_ID_EFP_MINOR, F.PRT_PEER_ID_EFP_MAJOR, F.PRT_PEER_ID_ENDPOINT, F.PRT_PEER_ID_VALID, F.PRT_PEER_ID_PORT, F.PRT_PEER_ID_CHIP]
  | .PRT_PEER_SERIAL => [F.PRT_PEER_SERIAL_FW_BUILD, F.PRT_PEER_SERIAL_INSTALL_SERIAL]
  | .PRT_PEER_DEVICE => [F.PRT_PEER_DEVICE_DEVICE_ID]
  | .PRT_QUAL_RESULT => [F.PRT_QUAL_RESULT_LOSS_EXP, F.PRT_QUAL_RESULT_LOSS_MANT, F.PRT_QUAL_RESULT_BER_EXP, F.PRT_QUAL_RESULT_BER_MANT, F.PRT_QUAL_RESULT_WORST_LANE, F.PRT_QUAL_RESULT_PASS, F.PRT_QUAL_RESULT_DONE]
  | .PRT_FEC_COUNT => [F.PRT_FEC_COUNT_UNCORRECTABLE, F.PRT_FEC_COUNT_CORRECTED]
  | .PRT_EVENTS => [F.PRT_EVENTS_LOSSES, F.PRT_EVENTS_NARROWINGS, F.PRT_EVENTS_DROPS]
  | .XBR_WAITS => [F.XBR_WAITS_ESCAPES, F.XBR_WAITS_WAIT_DROPS, F.XBR_WAITS_TRUNCATIONS]
  | .XBR_HDR_ERR => [F.XBR_HDR_ERR_BAD_HOP, F.XBR_HDR_ERR_MISDELIVERED, F.XBR_HDR_ERR_HDR_CRC]
  | .XBR_INFLIGHT => [F.XBR_INFLIGHT_COUNT]
  | .EDG_CTL => [F.EDG_CTL_ROUTE_VERSION, F.EDG_CTL_LEVEL, F.EDG_CTL_DRAIN, F.EDG_CTL_VALID, F.EDG_CTL_ACTIVE_BANK]
  | .EDG_SWAP_AT => [F.EDG_SWAP_AT_WINGBEAT]
  | .EDG_DROPS => [F.EDG_DROPS_NOT_BOUND, F.EDG_DROPS_STALE_EPOCH, F.EDG_DROPS_NO_ROUTE, F.EDG_DROPS_BAD_HEADER]
  | .EDG_E2E => [F.EDG_E2E_RESENDS, F.EDG_E2E_DUPLICATES, F.EDG_E2E_CHECK_FAILS]
  | .MGR_ROLE => [F.MGR_ROLE_ROLE, F.MGR_ROLE_ACTIVE, F.MGR_ROLE_CONFIRMED, F.MGR_ROLE_STRAP]
  | .MGR_MAP => [F.MGR_MAP_MAP_SEQ, F.MGR_MAP_CHIP, F.MGR_MAP_CELL, F.MGR_MAP_COMPAT, F.MGR_MAP_VALID]
  | .MGR_ROUTE => [F.MGR_ROUTE_ROUTE_VERSION, F.MGR_ROUTE_SHARED, F.MGR_ROUTE_COMPUTE_TIME]
  | .MGR_PLAN => [F.MGR_PLAN_APPLIED, F.MGR_PLAN_PREPARED]
  | .MGR_NBR => [F.MGR_NBR_MISMATCH, F.MGR_NBR_STRANGER, F.MGR_NBR_UNREPORTED, F.MGR_NBR_MATCH]
  | .MGR_FAILURES => [F.MGR_FAILURES_LINKS, F.MGR_FAILURES_SWITCHES, F.MGR_FAILURES_ENDPOINTS, F.MGR_FAILURES_DEGRADED]
  | .TWN_STATUS => [F.TWN_STATUS_EPOCH, F.TWN_STATUS_REVERT_HOLD, F.TWN_STATUS_PEER_SYNCED, F.TWN_STATUS_PEER_STATE, F.TWN_STATUS_SYNCED, F.TWN_STATUS_STATE]
  | .TWN_HEARTBEAT => [F.TWN_HEARTBEAT_SILENT_TWIN, F.TWN_HEARTBEAT_SILENT_FABRIC, F.TWN_HEARTBEAT_LAST_HEARD]
  | .TWN_SYNC => [F.TWN_SYNC_SNAP_PROGRESS, F.TWN_SYNC_DELTA_WB]
  | .TWN_REVERT => [F.TWN_REVERT_TAKEBACK_PENDING, F.TWN_REVERT_HOLD_LEFT]
  | .TWN_AGENT => [F.TWN_AGENT_HIGHEST_EPOCH, F.TWN_AGENT_MANAGER_CHIP]
  | .TWN_EVENTS => [F.TWN_EVENTS_TAKEOVERS, F.TWN_EVENTS_FENCES, F.TWN_EVENTS_REVERSIONS, F.TWN_EVENTS_UNSYNCS, F.TWN_EVENTS_STALE_DROPS]
  | .TWN_PORT_STATUS => [F.TWN_PORT_STATUS_QUAL_CAUSE, F.TWN_PORT_STATUS_WIDTH, F.TWN_PORT_STATUS_STATE]
  | .QUE_CFG => [F.QUE_CFG_CONTEXT, F.QUE_CFG_CQ_LOG, F.QUE_CFG_RING_LOG, F.QUE_CFG_STATE, F.QUE_CFG_CQ_FULL, F.QUE_CFG_WAITING]
  | .QUE_RING_BASE => [F.QUE_RING_BASE_BASE]
  | .QUE_CQ_BASE => [F.QUE_CQ_BASE_BASE]
  | .QUE_INDEX => [F.QUE_INDEX_TAIL, F.QUE_INDEX_HEAD]
  | .QUE_CQ_INDEX => [F.QUE_CQ_INDEX_CQ_HEAD, F.QUE_CQ_INDEX_CQ_TAIL]
  | .QUE_DOORBELL => [F.QUE_DOORBELL_OP, F.QUE_DOORBELL_INDEX]
  | .QUE_CTX_SEL => [F.QUE_CTX_SEL_CONTEXT]
  | .QUE_CTX_STATUS => [F.QUE_CTX_STATUS_RESETS, F.QUE_CTX_STATUS_EVT_COUNT, F.QUE_CTX_STATUS_SEALED, F.QUE_CTX_STATUS_SLICE, F.QUE_CTX_STATUS_EPOCH, F.QUE_CTX_STATUS_STATE]
  | .QUE_DROPS => [F.QUE_DROPS_DB_NOT_BOUND, F.QUE_DROPS_DB_BAD_INDEX, F.QUE_DROPS_REFUSED, F.QUE_DROPS_STALE_SLOT]
  | .ACD_SLOTS => [F.ACD_SLOTS_SPILL_USED, F.ACD_SLOTS_DYN_WAITING, F.ACD_SLOTS_DYN_FREE, F.ACD_SLOTS_SCHED_CLAIMED]
  | .ACD_EVENTS => [F.ACD_EVENTS_SPILLS, F.ACD_EVENTS_SLIPS, F.ACD_EVENTS_ABORTS, F.ACD_EVENTS_BAD_GRANT]
  | .ACD_CHECK => [F.ACD_CHECK_RESIDUE_FAILS, F.ACD_CHECK_LANE_MISMATCHES, F.ACD_CHECK_LANES_RETIRED, F.ACD_CHECK_UNDELIVERED, F.ACD_CHECK_CODE_VIOLATIONS]
  | .ACD_SLICE_SEL => [F.ACD_SLICE_SEL_CLEAR, F.ACD_SLICE_SEL_SLICE]
  | .ACD_SLOWEST => [F.ACD_SLOWEST_RANK, F.ACD_SLOWEST_LATENESS, F.ACD_SLOWEST_VALID]
  | .ACD_LATE_HIST => [F.ACD_LATE_HIST_BIN3, F.ACD_LATE_HIST_BIN2, F.ACD_LATE_HIST_BIN1, F.ACD_LATE_HIST_BIN0]
  | .SKP_GROUP_SEL => [F.SKP_GROUP_SEL_GROUP]
  | .SKP_GROUP_STATUS => [F.SKP_GROUP_STATUS_GEN, F.SKP_GROUP_STATUS_MEMBERS, F.SKP_GROUP_STATUS_SLIP_LIMIT, F.SKP_GROUP_STATUS_STATE]
  | .SKP_EVENTS => [F.SKP_EVENTS_OPS, F.SKP_EVENTS_ABORTS, F.SKP_EVENTS_MISMATCHES]
  | .HWK_CORE_STATUS => [F.HWK_CORE_STATUS_BOUQUET, F.HWK_CORE_STATUS_CONTEXT, F.HWK_CORE_STATUS_LOGICAL, F.HWK_CORE_STATUS_STATE]
  | .HWK_CORE_COUNTS => [F.HWK_CORE_COUNTS_STEPS, F.HWK_CORE_COUNTS_OVERRUNS, F.HWK_CORE_COUNTS_FAULTS]
  | .HWK_WING_STATUS => [F.HWK_WING_STATUS_BOUQUETS, F.HWK_WING_STATUS_ABSENT, F.HWK_WING_STATUS_RESERVE_MIN]
  | .HWK_REPORTS => [F.HWK_REPORTS_WRITTEN, F.HWK_REPORTS_LOST, F.HWK_REPORTS_OP_OVERRUNS]
  | .HWK_BQ_SEL => [F.HWK_BQ_SEL_INDEX]
  | .HWK_BQ_STATUS => [F.HWK_BQ_STATUS_HANDLE, F.HWK_BQ_STATUS_SLICE, F.HWK_BQ_STATUS_DEGRADED, F.HWK_BQ_STATUS_STATE]
  | .HWK_BQ_START => [F.HWK_BQ_START_PERIOD, F.HWK_BQ_START_START]
  | .HWK_LOAD_RESULT => [F.HWK_LOAD_RESULT_CHIP, F.HWK_LOAD_RESULT_STATUS, F.HWK_LOAD_RESULT_RESOURCE, F.HWK_LOAD_RESULT_INDEX, F.HWK_LOAD_RESULT_OFFSET]
  | .HWK_LOAD_AMOUNT => [F.HWK_LOAD_AMOUNT_NEED, F.HWK_LOAD_AMOUNT_HAVE]
  | .HBM_STACK_SEL => [F.HBM_STACK_SEL_STACK]
  | .HBM_STACK_STATUS => [F.HBM_STACK_STATUS_RESERVE_LEFT, F.HBM_STACK_STATUS_PIN_RATE, F.HBM_STACK_STATUS_RESERVE_EMPTY, F.HBM_STACK_STATUS_STATE]
  | .HBM_ECC => [F.HBM_ECC_CORRECTED, F.HBM_ECC_UNCORRECTABLE, F.HBM_ECC_POISON_READS]
  | .HBM_RETIRE => [F.HBM_RETIRE_RETIRED, F.HBM_RETIRE_THRESHOLD, F.HBM_RETIRE_QUEUED]
  | .HBM_POOL => [F.HBM_POOL_SCRUB_QUEUED, F.HBM_POOL_FREE]
  | .HBM_ACCESS_ERR => [F.HBM_ACCESS_ERR_REFUSED, F.HBM_ACCESS_ERR_INTEGRITY, F.HBM_ACCESS_ERR_REFUSAL_REPLIES]
  | .ATL_CH_SEL => [F.ATL_CH_SEL_STOP, F.ATL_CH_SEL_CHANNEL]
  | .ATL_CH_STATUS => [F.ATL_CH_STATUS_DESC_DONE, F.ATL_CH_STATUS_LATE_STATUS, F.ATL_CH_STATUS_CONTEXT, F.ATL_CH_STATUS_OUTSTANDING, F.ATL_CH_STATUS_STATE]
  | .ATL_EVENTS => [F.ATL_EVENTS_DESCRIPTORS, F.ATL_EVENTS_STOPS, F.ATL_EVENTS_REFUSED]
  | .ATS_CH_LOCK => [F.ATS_CH_LOCK_OWNER]
  | .ATS_CH_DESC => [F.ATS_CH_DESC_SPACE, F.ATS_CH_DESC_ADDRESS]
  | .ATS_CH_CTL => [F.ATS_CH_CTL_FENCE, F.ATS_CH_CTL_STOP, F.ATS_CH_CTL_GO]
  | .ATS_CH_STATUS => [F.ATS_CH_STATUS_DESC_DONE, F.ATS_CH_STATUS_LAST_STATUS, F.ATS_CH_STATUS_OUTSTANDING, F.ATS_CH_STATUS_STATE]
  | .ATS_CQ_BASE => [F.ATS_CQ_BASE_SPACE, F.ATS_CQ_BASE_LOG, F.ATS_CQ_BASE_BASE]
  | .ATS_CQ_INDEX => [F.ATS_CQ_INDEX_CQ_HEAD, F.ATS_CQ_INDEX_CQ_TAIL]
  | .SEC_STATUS => [F.SEC_STATUS_SEALED_SLICES, F.SEC_STATUS_TEST_WINDOW_CLOSED, F.SEC_STATUS_DEBUG_EN, F.SEC_STATUS_XMSS_EXHAUSTED, F.SEC_STATUS_XMSS_READY, F.SEC_STATUS_FW_VERIFIED, F.SEC_STATUS_COCOON_OK, F.SEC_STATUS_PUF_OK]
  | .SEC_DEVICE_ID => [F.SEC_DEVICE_ID_DEVICE_ID]
  | .SEC_XMSS_INDEX => [F.SEC_XMSS_INDEX_NEXT_INDEX]
  | .SEC_XMSS_RESERVED => [F.SEC_XMSS_RESERVED_RESERVED_TO]
  | .SEC_SEL => [F.SEC_SEL_WORD, F.SEC_SEL_CHAIN, F.SEC_SEL_SLICE]
  | .SEC_MEASURE => [F.SEC_MEASURE_VALUE]
  | .SEC_SLICE_STATUS => [F.SEC_SLICE_STATUS_POLICY_LOW, F.SEC_SLICE_STATUS_STRICT, F.SEC_SLICE_STATUS_STATE]
  | .SEC_SEAL_EVENTS => [F.SEC_SEAL_EVENTS_SEAL_FAILS, F.SEC_SEAL_EVENTS_FAIL_PASSED, F.SEC_SEAL_EVENTS_TAG_FAILS, F.SEC_SEAL_EVENTS_NO_KEY_DROPS]
  | .CTL_SEM => [F.CTL_SEM_OWNER]
  | .CTL_EPOCHS => [F.CTL_EPOCHS_DEBUG, F.CTL_EPOCHS_FIRMWARE, F.CTL_EPOCHS_ANT_B, F.CTL_EPOCHS_ANT_A]
  | .MBX_DATA => [F.MBX_DATA_WORD]
  | .MBX_STATUS => [F.MBX_STATUS_POST_EPOCH, F.MBX_STATUS_SENDER_RESTARTED, F.MBX_STATUS_SENDER, F.MBX_STATUS_DEST, F.MBX_STATUS_DOMAIN, F.MBX_STATUS_FULL]
  | .MBX_ACK => [F.MBX_ACK_VALID, F.MBX_ACK_CODE]
  | .MBX_LOCK => [F.MBX_LOCK_OWNER]
  | .DB_IN => [F.DB_IN_BITS]
  | .DB_IN_MASK => [F.DB_IN_MASK_MASK]
  | .DB_OUT => [F.DB_OUT_BITS]
  | .DB_OUT_MASK => [F.DB_OUT_MASK_MASK]
  | .ANT_CTL => [F.ANT_CTL_RETRAIN, F.ANT_CTL_EVT_EN]
  | .ANT_STATUS => [F.ANT_STATUS_EVT_QUEUED, F.ANT_STATUS_HOST_OUT, F.ANT_STATUS_OUTSTANDING, F.ANT_STATUS_LANES, F.ANT_STATUS_STATE]
  | .ANT_COUNTS => [F.ANT_COUNTS_CRC_ERRORS, F.ANT_COUNTS_REPLAYS, F.ANT_COUNTS_DOWNS, F.ANT_COUNTS_EVT_LOST]
  | .INS_CTL => [F.INS_CTL_FAST_PATH, F.INS_CTL_TIME, F.INS_CTL_SOURCE, F.INS_CTL_STAGE, F.INS_CTL_GO]
  | .INS_STATUS => [F.INS_STATUS_ELAPSED_MS, F.INS_STATUS_FAIL_UNIT, F.INS_STATUS_FAIL_CODE, F.INS_STATUS_FAST_TAKEN, F.INS_STATUS_IMAGO, F.INS_STATUS_STATE, F.INS_STATUS_STAGE]
  | .INS_IMAGE => [F.INS_IMAGE_ACTIVE_BUILD, F.INS_IMAGE_BYTES]
  | .INS_FT_SEED => [F.INS_FT_SEED_FTU]
  | .INS_TEST => [F.INS_TEST_UNITS_TESTED, F.INS_TEST_NEW_DEFECTS, F.INS_TEST_SPARES_USED, F.INS_TEST_ABSENT]
  | .INS_PORTS => [F.INS_PORTS_NARROW, F.INS_PORTS_DOWN, F.INS_PORTS_HELD, F.INS_PORTS_QUAL_FAIL, F.INS_PORTS_UP, F.INS_PORTS_EXPECTED]
  | .INS_LIFE => [F.INS_LIFE_POWER_CYCLES, F.INS_LIFE_HOURS]
  | .INS_FAST => [F.INS_FAST_LAST_FULL, F.INS_FAST_ELIGIBLE, F.INS_FAST_CLEAN, F.INS_FAST_MARKER]
  | .RST_CAUSE => [F.RST_CAUSE_KIND, F.RST_CAUSE_SOURCE, F.RST_CAUSE_WAKE_CMP, F.RST_CAUSE_POOL_HELD]
  | .RST_COUNTS => [F.RST_COUNTS_WARM, F.RST_COUNTS_COMPUTE, F.RST_COUNTS_ROLE, F.RST_COUNTS_PORT]
  | .RST_ESC_LIMITS => [F.RST_ESC_LIMITS_COMPUTE_WINDOW, F.RST_ESC_LIMITS_COMPUTE_RESETS, F.RST_ESC_LIMITS_CHIP_WINDOW, F.RST_ESC_LIMITS_CHIP_RESETS, F.RST_ESC_LIMITS_CTX_WINDOW, F.RST_ESC_LIMITS_CTX_RESETS]
  | .RST_ESC_COUNT => [F.RST_ESC_COUNT_COMPUTE, F.RST_ESC_COUNT_CONTEXT]
  | .PWR_STATUS => [F.PWR_STATUS_FO_CAUSES, F.PWR_STATUS_FWD_ONLY, F.PWR_STATUS_STATE]
  | .PWR_MEASURE => [F.PWR_MEASURE_TEMP, F.PWR_MEASURE_VIN, F.PWR_MEASURE_POWER]
  | .AON_CMP_CTL => [F.AON_CMP_CTL_FWD_ONLY, F.AON_CMP_CTL_ALERT, F.AON_CMP_CTL_WAKE, F.AON_CMP_CTL_DIR, F.AON_CMP_CTL_ENABLE]
  | .AON_CMP_VALUE => [F.AON_CMP_VALUE_VALUE]
  | .AON_CMP_EVENTS => [F.AON_CMP_EVENTS_ACTIVE, F.AON_CMP_EVENTS_FIRED]
  | .SPR_STATUS => [F.SPR_STATUS_ENTRIES, F.SPR_STATUS_LIST_FULL]
  | .SPR_MAP_SEL => [F.SPR_MAP_SEL_KIND, F.SPR_MAP_SEL_WING, F.SPR_MAP_SEL_LOGICAL]
  | .SPR_MAP => [F.SPR_MAP_PHYSICAL, F.SPR_MAP_STATE]
  | .SPR_FREE => [F.SPR_FREE_ACCORD_ROWS, F.SPR_FREE_LS_ROWS_MIN, F.SPR_FREE_AES, F.SPR_FREE_SKIPPER, F.SPR_FREE_LANES, F.SPR_FREE_CORES]
  | .SPR_EVENTS => [F.SPR_EVENTS_TAKEOVERS, F.SPR_EVENTS_ABSENTS, F.SPR_EVENTS_APPENDS, F.SPR_EVENTS_LOST]
  | .SIL_STATUS => [F.SIL_STATUS_NEXT_SEQ, F.SIL_STATUS_OLDEST_SEQ]
  | .SIL_CFG => [F.SIL_CFG_FRAMES, F.SIL_CFG_MIN_SEVERITY, F.SIL_CFG_WING, F.SIL_CFG_PERSIST_HELD]
  | .SIL_COUNTS => [F.SIL_COUNTS_LOST, F.SIL_COUNTS_DROPPED, F.SIL_COUNTS_PERSIST_SKIPPED]
  | .SIL_CURSOR => [F.SIL_CURSOR_EMPTY, F.SIL_CURSOR_GONE, F.SIL_CURSOR_AUTO, F.SIL_CURSOR_SEGMENT, F.SIL_CURSOR_POSITION]
  | .SIL_WINDOW => [F.SIL_WINDOW_BYTES]
  | .CHR_CTL => [F.CHR_CTL_HALF, F.CHR_CTL_RELEASE, F.CHR_CTL_NEXT, F.CHR_CTL_START]
  | .CHR_STATUS => [F.CHR_STATUS_SECTION, F.CHR_STATUS_HUNG_COUNT, F.CHR_STATUS_CAUSE, F.CHR_STATUS_STATE]
  | .CHR_FREEZE_FTU => [F.CHR_FREEZE_FTU_FTU]
  | .CHR_ARM => [F.CHR_ARM_DELAY, F.CHR_ARM_CMP_MASK, F.CHR_ARM_SIL_SOURCE, F.CHR_ARM_SIL_CODE, F.CHR_ARM_SIL_SEVERITY, F.CHR_ARM_ONCE, F.CHR_ARM_ARMED]
  | .CHR_HALF => [F.CHR_HALF_LEN1, F.CHR_HALF_LEN0]
  | .WST_STATUS => [F.WST_STATUS_BUILD, F.WST_STATUS_PRESENT, F.WST_STATUS_FREE_CORES, F.WST_STATUS_STATE]
  | .WST_TEST => [F.WST_TEST_HOURS, F.WST_TEST_UNITS, F.WST_TEST_NEW_DEFECTS, F.WST_TEST_RESULT]

end Sys2Proof.Machine
end

