-- ==== Sys2Proof/Machine/Store.lean ====
section
/-! DEFINITION. Sys2Proof/Machine/Store.lean: the one sparse store the model keeps its numbered state in: registers by
key, ports, contexts, queues, pages and bytes by number. A store is a list of pairs with strictly rising keys, and no
pair holds what an unlisted key reads as, so equal contents are equal lists. -/

namespace Sys2Proof.Machine

/-- Numbered state: pairs of a key and a value, keys strictly rising. -/
abbrev Store (α : Type) := List (Nat × α)

/-- The value at key `k`; `d` gives what an unlisted key reads as. -/
def Store.get {α : Type} (d : Nat → α) : Store α → Nat → α
  | [], k => d k
  | (j, v) :: t, k => if j = k then v else Store.get d t k

/-- Store `v` at key `k`, keeping the canonical form: writing what the unlisted key reads as removes the pair. -/
def Store.set {α : Type} [DecidableEq α] (d : Nat → α) (st : Store α) (k : Nat) (v : α) : Store α :=
  match st with
  | [] => if v = d k then [] else [(k, v)]
  | (j, w) :: t =>
    if k < j then (if v = d k then (j, w) :: t else (k, v) :: (j, w) :: t)
    else if k = j then (if v = d k then t else (k, v) :: t)
    else (j, w) :: Store.set d t k v

/-- Every key of the store is above `k`. -/
def Store.above {α : Type} (k : Nat) (st : Store α) : Bool := st.all fun p => decide (k < p.1)

/-- The canonical form: keys strictly rising, and no pair equal to what its key reads as when unlisted. -/
def Store.wf {α : Type} [DecidableEq α] (d : Nat → α) : Store α → Bool
  | [] => true
  | (k, v) :: t => Store.above k t && decide (v ≠ d k) && Store.wf d t

/-- Rewrite the value at one key. -/
def Store.modify {α : Type} [DecidableEq α] (d : Nat → α) (st : Store α) (k : Nat) (f : α → α) : Store α :=
  Store.set d st k (f (Store.get d st k))

/-- Set a value at every key of a list. -/
def Store.setAll {α : Type} [DecidableEq α] (d : Nat → α) (st : Store α) (ks : List Nat) (v : Nat → α) : Store α :=
  ks.foldl (fun t k => Store.set d t k (v k)) st

/-- Drop every pair whose key satisfies `p`: those keys read as unlisted again. -/
def Store.dropIf {α : Type} (p : Nat → Bool) (st : Store α) : Store α := st.filter fun q => !p q.1

end Sys2Proof.Machine
end

