-- ==== Sys2Proof/Machine/State.lean ====
section
/-! DEFINITION. Sys2Proof/Machine/State.lean: the state of the part as plain data, the reasons a step can stop, and the
state at POR. Every register of Tables 22.6 and 22.7 lives in `regs`, keyed by name and index; the other fields hold what
the chapters give the part beside its registers.
(log entries of this file: DEDUCED 36, 58, 71, 123; DESIGN CHOICE 1, 3, 120) -/

namespace Sys2Proof.Machine

/-- Fabric time and the wingbeat, beside the FT_ registers (R26 to R46). -/
structure TimeSt where
  /-- A base pair has been set (R27). -/
  based : Bool
  /-- The agent keeps the old length and refuses bouquet loads until a fresh base pair (R28). -/
  stale : Bool
  /-- The decision held for the pending change: commit or cancel (R28). -/
  decision : Option Bool
  /-- The Monarch's record of a change (R28). -/
  change : Option MonChange
  /-- Rate correction in parts per billion (R39). -/
  rate : Int
  /-- Arrival of the last valid set from the upstream (R40). -/
  lastSet : Ftu
  /-- Start of the coasting episode in progress (R41). -/
  coastFrom : Option Ftu
  /-- PPS_OUT is high, since this counter value (R43). -/
  ppsOut : Option Ftu
  /-- Consecutive PPS_IN edges within 16 FTU (R43). -/
  ppsGood : Nat
deriving DecidableEq, Repr

/-- The TIME exchange of one link (R38, R39): next SEQ to send, T_SEND of the sets sent, and the last set received with
its arrival. -/
structure LinkTime where
  nextSeq : Fin 256
  sent : List (Fin 256 × Ftu)
  last : Option (Fin 256 × Ftu)
  delay : Int
deriving DecidableEq, Repr

/-- The receive framing of one virtual channel (R68): a packet in progress, or dropping to the next trailer. -/
inductive VcIn where
  | idle
  | inPacket
  | dropping
deriving DecidableEq, Repr

/-- What a link remembers of its last qualification (R49): the peer's CHIP, PORT, DEVICE_ID and INSTALL_SERIAL, and the
width. -/
structure LastQual where
  chip : Chip
  port : Fin 256
  device : Word
  serial : BitVec 32
  width : Nat
deriving DecidableEq, Repr

/-- One fabric port, or the Twin port, beside its registers. -/
structure PortSt where
  /-- Lanes that failed since the last PORT reset (R50, R52). -/
  failed : List Nat
  /-- Narrowing in progress: no flits until the peer answers (R51). -/
  narrowing : Bool
  /-- The last valid IDENT of the peer (R53). -/
  peer : Option Ident
  lastQual : Option LastQual
  /-- The link is retraining after a loss of link (R49). -/
  retrain : Bool
  /-- Qualification phase in progress, 0 when none (R58). -/
  phase : Nat
  /-- The cause this direction failed with, once judged; 0 passed (R59). -/
  verdict : Option Nat
  /-- The peer's QUAL_REPORT (R58). -/
  peerPass : Option Bool
  /-- Errors, bits and lane of the worst lane of phase 1 (R58). -/
  worst : Nat × Nat × Nat
  /-- The Monarch's verdict: MATCH or MISMATCH (R103). -/
  nbr : Option Bool
  /-- The last NBR_REPORT sent has no verdict yet: the wingbeat it was sent, its MSG_SEQ and the STATE it gave (R100, R103). -/
  report : Option (Wb × Nat × Nat)
  /-- A new map adopted this port (R105): REASON 0x03 no longer holds it. -/
  adopted : Bool
  /-- The PORT_QUALIFY command that waits for this port's outcome (Table 16.9). -/
  qualRef : Option FwRef
  /-- Credits held for sending, per VC (R78). -/
  txCredits : List Nat
  /-- Receive buffers free, per VC (R79). -/
  rxFree : List Nat
  /-- Receive framing, per VC (R68). -/
  vcIn : List VcIn
  time : LinkTime
deriving DecidableEq, Repr

/-- A port out of reset: no lane known bad, no peer, no credit (R79). -/
def PortSt.init : PortSt :=
  ⟨[], false, none, none, false, 0, none, none, (0, 0, 0), none, none, false, none, [0, 0, 0, 0, 0, 0, 0, 0],
   [0, 0, 0, 0, 0, 0, 0, 0], [.idle, .idle, .idle, .idle, .idle, .idle, .idle, .idle], ⟨0, [], none, 0⟩⟩

/-- A packet that waits at an output for credits: flits still to send, and since when (R82). `headed` says that its header
flit has gone. -/
structure Waiting where
  out : Link
  pkt : Packet
  left : Nat
  headed : Bool
  since : Ftu
deriving DecidableEq, Repr

/-- A stream (R86): source unit here, or destination unit here, with the other end, the context and its epoch. -/
structure StreamKey where
  unit : Nat
  chip : Nat
  peer : Nat
  ctx : Nat
  epoch : Nat
deriving DecidableEq, Repr

/-- What an access belongs to: the command by queue and index, the bytes of its range the access covers, and for a DMA
write its channel and serial number. Queues from 16,384 up stand for the part's own steps. -/
structure Tag where
  queue : Nat
  index : Nat
  off : Nat
  len : Nat
  chan : Option (Nat × Nat)
deriving DecidableEq, Repr

/-- The copy a source keeps of a tracked packet (R88), and the command it belongs to. -/
structure Copy where
  key : StreamKey
  pkt : Packet
  sentAt : Wb
  resends : Nat
  cmd : Option Tag
deriving DecidableEq, Repr

/-- What a destination holds of a stream (R87): base B, the map of packets received from B on, and whether it owes an
ACK. -/
structure Received where
  key : StreamKey
  base : BitVec 32
  map : Nat
  owed : Bool
deriving DecidableEq, Repr

/-- A read a unit of the chip has sent and that is not yet answered (R257): the command or work it serves is named by
queue and index. -/
structure PendingRead where
  unit : Nat
  ctx : Nat
  epoch : Nat
  seq : Nat
  chip : Nat
  addr : Nat
  granules : Nat
  cmd : Option Tag
  /-- Byte of the range where the first failing sector begins, when the controller is on this chip (R264). -/
  bad : Option Nat
deriving DecidableEq, Repr

/-- A packet that waits to be started: its stream is full (R86) or its slice is stopped (R94). -/
structure Backlog where
  unit : Nat
  pkt : Packet
  cmd : Option Tag
deriving DecidableEq, Repr

/-- Packets in the crossbar and the streams of the chip's own units (R78 to R88). -/
structure NetSt where
  waiting : List Waiting
  nextSeq : List (StreamKey × BitVec 32)
  copies : List Copy
  received : List Received
  /-- Packets of stopped slices held at the edge ports (R94). -/
  held : List (Port × Packet)
  /-- Packets of STRICT slices that wait at the edge ports for a claimed offset, and the flit slots of their claims that have been used
  in this wingbeat: edge port, slice, slots (R304). -/
  claimHeld : List (Port × Packet)
  claimUsed : List (Nat × Nat × Nat)
  reads : List PendingRead
  backlog : List Backlog
deriving DecidableEq, Repr

/-- A binding of a context to an edge port (R140): its rank there, and whether other requesters of the slice may read and
write the endpoint's window (R255). -/
structure Binding where
  port : Nat
  rank : Nat
  winRead : Bool
  winWrite : Bool
deriving DecidableEq, Repr

/-- A page-table entry (R251): page, frame, and the permissions R, W, RR and RW in bits 0 to 3. -/
structure Page where
  page : Nat
  frame : Nat
  perm : Nat
deriving DecidableEq, Repr

/-- A grant whose zero-fill runs: its mappings take effect together (R253). -/
structure Grant where
  pages : List Page
  ref : FwRef
deriving DecidableEq, Repr

/-- A context beside QUE_CTX_STATUS (R140). -/
structure CtxSt where
  bindings : List Binding
  /-- The home context of its slice on this chip (R252). -/
  home : Bool
  /-- The rank map: one 32-bit entry of Table 5.6 per rank (R110). -/
  ranks : List (BitVec 32)
  /-- The page table (R251), and the grants not yet in effect. -/
  pages : List Page
  grants : List Grant
  /-- Event counters; those unlisted hold 0 (R152). -/
  counters : Store (BitVec 32)
  /-- Boundary of the reset requested, and of the release after it (R160). -/
  resetAt : Option Wb
  releaseAt : Option Wb
  /-- The reset is a destroy (R162). -/
  destroys : Bool
  /-- The reset reached the limit: BARRED follows (R358). -/
  bars : Bool
  /-- Fabric times of the resets counted (R358). -/
  resets : List Nat
  /-- The pool key, by number: a new one at each create (R295). -/
  key : Nat
deriving DecidableEq, Repr

def CtxSt.init : CtxSt := ⟨[], false, [], [], [], [], none, none, false, false, [], 0⟩

/-- A running command (R147, R157), as its ledger entry and record will show it. -/
structure RunCmd where
  queue : Nat
  index : Nat
  ctx : Nat
  epoch : Nat
  opcode : Nat
  slot : List Byte
  startFtu : Nat
  /-- The operation has begun its work. -/
  begun : Bool
  /-- How far its work has been issued. -/
  issued : Nat
  /-- Ranges landed above EXTENT, and failures by offset. -/
  landed : List (Nat × Nat)
  fails : List (Nat × Nat)
  extent : Nat
  full : Nat
  lastChunk : Option Nat
  missing : Nat
  drops : Nat
  aux : Nat
  detail : Nat
  slipped : Bool
  spilled : Bool
  progFtu : Nat
  progWb : Nat
  /-- A quiesce or an unload stops it (R111, R245). -/
  stop : Bool
  /-- The final status, once it has one. -/
  ended : Option Nat
  /-- A collective: elements of each block and of a chunk (R188), the stretch of them that is this member's at DST, how far
  whole chunks have come, and the chunk at which it ends early with its status. -/
  blocks : List Nat
  chunkLen : Nat
  own : Nat × Nat
  pos : Nat
  endAt : Option (Nat × Nat)
  /-- The ranges it reads and writes (R259), for a collective. -/
  ranges : List (Nat × Nat)
deriving DecidableEq, Repr

/-- A SUBMIT doorbell that moved TAIL (R147): the queue, the TAIL it set, and the counted wingbeats left for a slot that has
not landed. -/
structure Cover where
  queue : Nat
  tail : Nat
  left : Nat
deriving DecidableEq, Repr

/-- Queues beside the QUE_ registers (R143 to R147). -/
structure QueSt where
  runs : List RunCmd
  laps : List Cover
deriving DecidableEq, Repr

/-- A descriptor of an Atomizer chain (Table 13.1) as its channel holds it. -/
structure Desc where
  addr : Nat
  src : Nat
  dst : Nat
  next : Nat
  rowBytes : Nat
  rows : Nat
  srcStride : Nat
  dstStride : Nat
  xform : Nat
  xsize : Nat
  xchan : Nat
  eventEn : Bool
  record : Bool
  srcSpace : Nat
  dstSpace : Nat
  event : Nat
  tag : Nat
  ctx : Nat
deriving DecidableEq, Repr

/-- A chain on an Atomizer-L channel (R277): its command, the descriptor at the write engine, and how far it has come. Chains of
one channel stand in the order in which their commands started; the first is the one that runs. -/
structure ChainL where
  chan : Nat
  queue : Nat
  index : Nat
  /-- The chain has begun on its channel. -/
  live : Bool
  /-- Address of the descriptor not yet started. -/
  at' : Option Nat
  desc : Option Desc
  /-- The descriptor has issued its first write (R277). -/
  started : Bool
  /-- Rows written; the row whose source is being gathered has been asked for, and its pieces by offset. -/
  row : Nat
  asked : Bool
  got : List (Nat × List Byte)
  finished : Nat
  /-- Descriptors met in the chain. -/
  count : Nat
  stopping : Bool
  /-- The write engine has met a descriptor that is refused, with this status. -/
  refused : Option Nat
deriving DecidableEq, Repr

/-- An Atomizer-S channel (R272 to R282) beside the ATS_ registers. -/
structure ChainS where
  /-- Address of the next descriptor, and the space of the chain. -/
  at' : Option Nat
  space : Nat
  finished : Nat
  count : Nat
  lastTag : Nat
  stopping : Bool
  /-- The descriptor in hand; it was asked for; it has started. -/
  desc : Option Desc
  asked : Bool
  started : Bool
  /-- Bytes of it asked for, bytes written, and data read and not yet written. -/
  issued : Nat
  moved : Nat
  buf : List (Nat × List Byte)
  /-- Its first failure (R278). -/
  failed : Option Nat
  /-- Writes of the channel so far, and failed writes not yet reported: serial and status. -/
  serial : Nat
  fails : List (Nat × Nat)
  /-- FENCEs that wait, each for the writes numbered below it (R279). -/
  fences : List Nat
  /-- The lock's holder has restarted: the lock goes when the chain ends (R318). -/
  orphan : Bool
deriving DecidableEq, Repr

def ChainS.init : ChainS := ⟨none, 0, 0, 0, 0, false, none, false, false, 0, 0, [], none, 0, [], [], false⟩

/-- The DMA engines beside their registers. -/
structure DmaSt where
  chains : List ChainL
  /-- Serial number of the next write of each Atomizer-L channel. -/
  serial : Store Nat
  /-- Failed writes not yet reported: channel, serial number, status (R279). -/
  fails : List (Nat × Nat × Nat)
  /-- Channels that wait for buffer room, by wing × 256 + channel, in the order they became ready, and those that hold data in
  a buffer (R271). -/
  ready : List Nat
  buffered : List Nat
  chanS : Store ChainS
  /-- The Atomizer-S channel served last, and the one being served (R272). -/
  lastS : Nat
  serving : Option Nat
deriving DecidableEq, Repr

def DmaSt.init : DmaSt := ⟨[], [], [], [], [], [], 15, none⟩

/-- A refused WRITE whose refusal reply is not yet acknowledged (R258): where it came from, its stream and SEQ, the unit here,
and the SEQ of the reply. -/
structure RefusedWrite where
  chip : Nat
  unit : Nat
  ctx : Nat
  epoch : Nat
  seq : Nat
  home : Nat
  reply : Nat
deriving DecidableEq, Repr

/-- Pool memory beside the HBM_ registers (R251 to R266). Frames are numbered as R413 gives, reserve frames from 884,736. -/
structure PoolSt where
  /-- Frames of the 884,736 not free. -/
  used : List Nat
  /-- Frames queued for scrubbing, and for retirement. -/
  scrub : List Nat
  retire : List Nat
  /-- Retirement copies in progress: old and reserve frame. -/
  copies : List (Nat × Nat)
  /-- Corrected events by frame since POR. -/
  corrected : Store Nat
  /-- Sectors marked POISON, and sectors whose tag does not match (frame × 4,096 + sector). -/
  poison : List Nat
  badTag : List Nat
  /-- Frames of the Sillage overflow region (R382). -/
  overflow : List Nat
  /-- Reserve frames used on each stack, by wing × 6 + stack. -/
  reserve : Store Nat
  /-- Reserve frames that took a retired frame's place and are free for grants (R266). -/
  spare : List Nat
  /-- Pool keys drawn so far. -/
  keys : Nat
  refusals : List RefusedWrite
deriving DecidableEq, Repr

def PoolSt.init : PoolSt := ⟨[], [], [], [], [], [], [], [], [], [], 0, []⟩

/-- A window request refused on the endpoint's behalf (R255, R258): the request, the SEQ of the refusal reply, whether that
reply is acknowledged, and whether the marker has been delivered. -/
structure WinRefused where
  pkt : Packet
  reply : Nat
  acked : Bool
  sent : Bool
deriving DecidableEq, Repr

/-- A window read request delivered to an endpoint and not yet answered (R255). -/
structure WinRead where
  chip : Nat
  unit : Nat
  seq : Nat
  slice : Nat
  ctx : Nat
  epoch : Nat
deriving DecidableEq, Repr

/-- An entry of an edge port's table of window streams (R416), with the requests the endpoint has not acknowledged and
the replies the requester has not acknowledged. -/
structure WinStream where
  chip : Nat
  unit : Nat
  ctx : Nat
  epoch : Nat
  slice : Nat
  toEp : List Nat
  toReq : List Nat
deriving DecidableEq, Repr

/-- A grant delivered to an endpoint (R83, R89 step 4): the context, the slot handle and the unit it leads to. -/
structure EpGrant where
  ctx : Nat
  handle : Word
  chip : Nat
  unit : Nat
deriving DecidableEq, Repr

/-- What the agent holds of the endpoint on an edge port (R120, R121), and the port's window tables (R255, R416). -/
structure EpSt where
  /-- EP_IDENTITY has been received: DEVICE_ID, WINDOW_BYTES and FEATURES. -/
  ident : Option (Word × Nat × BitVec 32)
  silent : Bool
  lastBeat : Option Wb
  /-- Heartbeats accepted in the wingbeat of `lastBeat`. -/
  beats : Nat
  /-- Consecutive wingbeats with a valid heartbeat. -/
  run : Nat
  /-- Wingbeat of the last EP_DISCOVER not yet answered. -/
  discover : Option Wb
  /-- EPOCH_NOTICE messages not yet acknowledged: context and epoch (R160). -/
  notices : List (Nat × Nat)
  reads : List WinRead
  streams : List WinStream
  /-- Window requests that wait for an entry (R255, R416). -/
  waiting : List Packet
  refused : List WinRefused
  grants : List EpGrant
deriving DecidableEq, Repr

def EpSt.init : EpSt := ⟨none, false, none, 0, 0, none, [], [], [], [], [], []⟩

/-- An input of a node (R190, R191): a member of this chip, or a node elsewhere (chip and wing), with the ranks its bitmap
marks when it is missing. -/
structure CollIn where
  rank : Nat
  node : Option (Nat × Nat)
  ranks : List Nat
deriving DecidableEq, Repr

/-- A slot that holds an input item IN(c, j) (R193): the input, the chunk as the input numbers it, the destination rank of an
exchange (0xFFFF otherwise), and the packets that have entered it (R204). -/
structure CollFeed where
  slot : Nat
  input : Nat
  dst : Nat
  chunk : Nat
  codes : Bool
  pkts : List (Nat × List Byte)
deriving DecidableEq, Repr

/-- A whole contribution to a chunk: the input, its values in a reduction or its bytes in an exchange, and the sum of the
RESIDUE fields it brought or the residue computed from it (R181). -/
structure CollPart where
  input : Nat
  vals : List Nat
  bytes : List Byte
  residue : Nat
deriving DecidableEq, Repr

/-- A chunk at a node (R193, R196, R200 to R202). -/
structure CollChunk where
  dst : Nat
  num : Nat
  /-- The slot of its accumulator. -/
  acc : Option Nat
  /-- Fabric time of its first arrival, and the inputs whose first packet has come (R203). -/
  first : Option Nat
  seen : List Nat
  /-- Counted ticks since that arrival (R200). -/
  late : Nat
  /-- Block codes by input, those sent up, and the final ones (R196). -/
  codesIn : List (Nat × List Nat)
  codesUp : Bool
  codes : Option (List Nat)
  parts : List CollPart
  slipped : Bool
  spilled : Bool
  /-- The checked output, and its residue. -/
  out : Option (List Byte × Nat)
  /-- The parent's grants for data and for codes. -/
  grant : Option Nat
  codeGrant : Option Nat
  /-- The partial has been sent, and counted ticks since (R202). -/
  sent : Bool
  since : Nat
  /-- Packets of the result that have come down, and the whole result. -/
  down : List (Nat × List Byte)
  result : Option (List Byte)
  /-- The slots of the children that take the result: input, index and SPILLED (Table 9.4). -/
  rets : List (Nat × Nat × Bool)
  /-- Bitmaps of inputs that aborted. -/
  aborts : List (Nat × Nat)
  /-- Inputs, or in an exchange input × 65,536 + rank, that the result was sent to. -/
  served : List Nat
  /-- The bitmap with which the chunk aborted here (R201). -/
  abort : Option Nat
  /-- A check failed for good: the chunk is not delivered (R183). -/
  undelivered : Bool
deriving DecidableEq, Repr

/-- A chunk of an exchange that waits for a peer leaf's grant, or has been sent (R191): source and destination rank, number,
peer, and whether it is count data (R213). `data` is empty until the chunk is ready. -/
structure CollOut where
  src : Nat
  dst : Nat
  chunk : Nat
  chip : Nat
  wing : Nat
  codes : Bool
  data : List Byte
  grant : Option Nat
  sent : Bool
  /-- The chunk slipped at this leaf (R200). -/
  slipped : Bool
deriving DecidableEq, Repr

/-- Room a peer leaf asked for and not yet given (R191, R194): source and destination rank, number, and its node. -/
structure CollAsk where
  src : Nat
  dst : Nat
  chunk : Nat
  codes : Bool
  chip : Nat
  wing : Nat
deriving DecidableEq, Repr

/-- What a variable exchange keeps for a member (R211 to R223): the exchange block's address and bytes, the counts it sends and receives, rows kept
and their offsets by destination, its route, return, weight and origin arrays, the rows that have come back, and the phase:
0 counts, 1 generation, 2 data. -/
structure XInfo where
  addr : Nat
  block : List Byte
  tokens : Nat
  sends : List Nat
  recvs : List Nat
  keeps : List (Nat × Nat)
  route : List Nat
  ret : List Nat
  weights : List Nat
  origin : List Nat
  rows : List (Nat × List Byte)
  phase : Nat
deriving DecidableEq, Repr

/-- A member whose command takes part at a leaf (R185 to R187). -/
structure CollMember where
  rank : Nat
  queue : Nat
  index : Nat
  ctx : Nat
  epoch : Nat
  src : Nat
  dst : Nat
  detail : Nat
  /-- The unit that contributes: an edge port or a Nectar controller, with its chip. -/
  unit : Option (Nat × Nat)
  /-- It counts as missing from here on (R186, R187). -/
  lost : Bool
  /-- Whole chunks of its input held at an exchange leaf, by number. -/
  buf : List (Nat × List Byte)
  x : Option XInfo
deriving DecidableEq, Repr

/-- Where a node stands with its slots (R198). -/
inductive SlotPhase where
  | waiting (ticks : Nat)
  | spillWaiting (ticks : Nat)
  | dynamic
  | spilled
  | scheduled
  | gaveUp
deriving DecidableEq, Repr

/-- A node of a collective on this chip (R171, R190 to R202), keyed by slice, COLL_NUM[31:0] and height. -/
structure CollNode where
  slice : Nat
  num : Nat
  height : Nat
  wing : Nat
  isRoot : Bool
  /-- Height of the root (R202), and the parent: chip and wing. -/
  top : Nat
  parent : Option (Nat × Nat)
  /-- The context it acts for (R192). -/
  owner : Nat
  epoch : Nat
  /-- The bouquet node it is: handle and node number (R243). -/
  sched : Option (Nat × Nat)
  desc : List Byte
  count : Nat
  digest : Nat
  size : Nat
  ins : List CollIn
  members : List CollMember
  /-- Ranks of this leaf that count as missing whatever comes (R186, R187). -/
  bad : List Nat
  phase : SlotPhase
  slots : List Nat
  /-- The next item of R193: chunk, and 0 for ACC or input + 1. -/
  next : Nat × Nat
  feeds : List CollFeed
  chunks : List CollChunk
  outs : List CollOut
  asked : List CollAsk
  /-- First aborted chunk and its bitmap (R201). -/
  cut : Option (Nat × Nat)
  /-- No chunk from this number on is begun: a quiesce or an unload (R111, R245). -/
  stopAt : Option Nat
deriving DecidableEq, Repr

/-- A generation of a Skipper group at a node (R208). -/
structure SkpGen where
  gen : Nat
  op : Nat
  nvals : Nat
  typ : Nat
  got : List (Nat × List Nat)
  started : Bool
  late : Nat
  slipped : Bool
  /-- The upward message was sent and awaits the result. -/
  up : Bool
  /-- Inputs that aborted. -/
  gone : List Nat
  /-- Missing count and bitmap of ranks 0 to 63 of the inputs that aborted, joined. -/
  aborted : Nat × Nat
  /-- The result: values, or the missing count and bitmap of an abort. -/
  result : Option (List Nat × Option (Nat × Nat))
deriving DecidableEq, Repr

/-- A Skipper node of a group on this chip. -/
structure SkpNode where
  height : Nat
  wing : Nat
  isRoot : Bool
  parent : Option (Nat × Nat)
  ins : List CollIn
  gens : List SkpGen
deriving DecidableEq, Repr

/-- A member command that waits for a generation: a SKIP, or a COLL in its count phase (R208, R214). -/
structure SkpWait where
  rank : Nat
  gen : Nat
  queue : Nat
  index : Nat
  ctx : Nat
  dst : Nat
  coll : Option (Nat × Nat)
deriving DecidableEq, Repr

/-- A Skipper group (R207). -/
structure SkpGroup where
  num : Nat
  slice : Nat
  ranks : List Nat
  limit : Nat
  /-- The next generation of each member of this chip, by rank. -/
  next : List (Nat × Nat)
  nodes : List SkpNode
  waits : List SkpWait
deriving DecidableEq, Repr

/-- Slots of dropped nodes, quarantined to a boundary: wing, SPILLED, indexes (R160). -/
structure SlotHold where
  wing : Nat
  spilled : Bool
  slots : List Nat
  till : Wb
deriving DecidableEq, Repr

/-- The Accord and Skipper units beside their registers. -/
structure CollSt where
  nodes : List CollNode
  groups : List SkpGroup
  hold : List SlotHold
deriving DecidableEq, Repr

/-- What a core's local store holds of a GATHER_MATMUL node's W (R236): node, core of the node, the status of the read and
the bytes it was cut from. -/
structure Tile where
  node : Nat
  core : Nat
  status : Nat
  bytes : List Byte
deriving DecidableEq, Repr

/-- A bouquet's part on this chip (R239, R242 to R247). -/
structure BqPart where
  /-- The load it came with, and its handle once committed. -/
  load : Nat
  handle : Nat
  /-- Entry of the chip's bouquet table. -/
  entry : Nat
  slice : Nat
  bq : Bq
  start : Wb
  /-- Table 11.10; 0 while its claims are only held. -/
  state : Nat
  degraded : Bool
  /-- Contexts stopped by an overrun (R34). -/
  stopped : List Nat
  /-- Contexts reset, and when their steps resume (R246). -/
  skips : List (Nat × Wb)
  /-- Nodes and logical cores whose local store waits for a reload (R247). -/
  stale : List (Nat × Nat)
  /-- Results that drive a COLL node (R243): node, rank, values in bytes. -/
  feeds : List (Nat × Nat × List Byte)
  /-- Steps already run in the wingbeat named: step and wingbeat. -/
  ran : List (Nat × Wb)
  /-- Hawk kernel build in force when it was loaded (R248). -/
  kernel : Nat
  tiles : List Tile
  /-- The boundary of its unload (R245). -/
  unloadAt : Option Wb
deriving DecidableEq, Repr

/-- A step that runs (R242, R244): bouquet, step, the access tag of its writes, its outcome by its own work, and for an OP
command that command. -/
structure StepRun where
  handle : Nat
  step : Nat
  op : Option (Nat × Nat)
  tag : Nat × Nat
  status : Nat
  extent : Nat
  aux : Nat
  wb : Wb
deriving DecidableEq, Repr

/-- The Hawk side of the chip beside the HWK_ registers. -/
structure HawkSt where
  parts : List BqPart
  runs : List StepRun
  serial : Nat
deriving DecidableEq, Repr

/-- A link interval with sealed flits received and not yet verified (R301). -/
structure SealIn where
  link : Nat
  num : Nat
  pkts : List Packet
deriving DecidableEq, Repr

/-- A link interval whose SEAL set has not been sent: its sealed packets, the input intervals it waits for, and whether it
fails (R301 to R303). -/
structure SealOut where
  link : Nat
  num : Nat
  pkts : List Packet
  deps : List (Nat × Nat)
  ended : Bool
  fail : Bool
deriving DecidableEq, Repr

/-- What the security block's key store holds for a slice (R293 to R297). -/
structure SecSlice where
  num : Nat
  srk : List Byte
  tk : List Byte
  policy : BitVec 256
  strict : Bool
  /-- The last TENANT_SEQ accepted (R296). -/
  tenantSeq : Nat
  spillNonce : Nat
deriving DecidableEq, Repr

/-- A decapsulation key of a report (R292): slice, key, when it was issued, digest of the report. -/
structure KemKey where
  slice : Nat
  key : Nat
  at' : Ftu
  digest : BitVec 256
deriving DecidableEq, Repr

/-- The security block beside the SEC_ registers (R283 to R303). -/
structure SecSt where
  boot : BitVec 256
  kernel : BitVec 256
  steward : BitVec 256
  chains : Store (BitVec 256)
  /-- The measurement log: KIND, D, fabric time. -/
  log : List (Nat × BitVec 256 × Nat)
  kems : List KemKey
  slices : List SecSlice
  ins : List SealIn
  outs : List SealOut
  /-- Sealed packets that wait at a unit for their interval (R302). -/
  held : List (Nat × Packet)
deriving DecidableEq, Repr

def SecSt.init : SecSt := ⟨0, 0, 0, [], [], [], [], [], [], []⟩

/-- The two banks and the drain and swap (R90 to R95). -/
structure RouteSt where
  bank0 : Bank
  bank1 : Bank
  /-- The affected slices and stop wingbeat of the STOP received (R94). -/
  stop : Option (List Nat × Wb)
  /-- The inactive bank was written for the change in progress (R94). -/
  written : Bool
  /-- This chip has reported DRAIN_ZERO for the drain in progress (R94). -/
  zeroed : Bool
  /-- Links announced lost: (chip, port), oldest first; the first `mark` were known when the inactive bank was written
  (R93). -/
  lost : List (Nat × Nat)
  mark : Nat
deriving DecidableEq, Repr

/-- Agent messaging (R98, R100, R130). -/
structure AgentSt where
  nextSeq : Nat
  /-- (source, MSG_SEQ, wingbeat) of messages already acted on (R100). -/
  seen : List (Nat × Nat × Wb)
  /-- Messages that await a reply: MSG_SEQ, target, body, wingbeat last sent (R100). -/
  awaiting : List (Nat × Nat × Mgmt × Wb)
  /-- The slice entries received (R110). -/
  slices : List SliceEntry
  /-- Pieces received of a MAP_UPDATE: MAP_SEQ and piece numbers (R105). -/
  pieces : Nat × List Nat
deriving DecidableEq, Repr

/-- The Twin managers beside the TWN_ registers (R123 to R139). -/
structure TwinSt where
  /-- Latest WB_NUM of a valid heartbeat of the peer over the Twin port, and over VC0. -/
  twinBeat : Option Wb
  fabBeat : Option Wb
  /-- The same of heartbeats with STATE ACTIVE. -/
  twinActive : Option Wb
  fabActive : Option Wb
  /-- Consecutive ACTIVE-silent wingbeats (R125). -/
  activeSilent : Nat
  /-- The peer's last HOLD_LEFT. -/
  peerHold : Nat
  /-- Highest epoch heard since the start, the probe or the fence (R124, R133). -/
  heardEpoch : Nat
  /-- An ACTIVE heartbeat has been heard since the start or the fence. -/
  heardActive : Bool
  /-- When STARTING began, and when its EPOCH_PROBE was sent (R124). -/
  startAt : Option Ftu
  probeFtu : Option Ftu
  /-- The tick of the fence, and the last probe after it (R133). -/
  fencedAt : Option Wb
  probeAt : Option Wb
  /-- EPOCH_REPLY received to the probe in progress: chip and epoch. -/
  replies : List (Nat × Nat)
  /-- ACTIVE: the peer is taken as SYNCED (R128). -/
  peerOk : Bool
  /-- ACTIVE: when DELTA_ACK last came, or the peer became SYNCED. -/
  ackAt : Wb
  /-- ACTIVE: results that wait for a DELTA_ACK, with the wingbeat that recorded them (R128, R330). -/
  waits : List (FwRef × Wb)
  /-- ACTIVE: the snapshot being sent: FOR_WB, bytes in all, bytes sent, records as of FOR_WB (R127). -/
  sending : Option (Wb × Nat × Nat × MgrRecords)
  /-- Shadow: a complete snapshot has been applied (R128). -/
  based : Bool
  /-- Shadow: the unbroken run of complete deltas: first and last FOR_WB, with the records of the last. -/
  chain : Option (Wb × Wb × MgrRecords)
  /-- Shadow: the delta coming in: FOR_WB, its pieces and those received, and the wingbeat of the first. -/
  delta : Option (Wb × Nat × List Nat × Wb)
  /-- Shadow: the snapshot coming in: FOR_WB, its pieces and those received, and the wingbeat of the last. -/
  snap : Option (Wb × Nat × List Nat × Wb)
  /-- Shadow: a FOR_WB was skipped (R128). -/
  gap : Bool
  /-- Shadow: the peer's DELTA_FORMAT differs (R126). -/
  fmtBad : Bool
  /-- Shadow: it was SYNCED at its last applied delta (R134). -/
  syncedAt : Bool
  /-- A takeback in progress: its wingbeat t, and whether it was acknowledged (R137). -/
  takeback : Option (Wb × Bool)
deriving DecidableEq, Repr

def TwinSt.init : TwinSt :=
  ⟨none, none, none, none, 0, 0, 0, false, none, none, none, none, [], false, 0, [], none, false, none, none, none, false,
   false, false, none⟩

/-- The result of a firmware command as its command left it (R329). -/
structure FwResult where
  ref : FwRef
  code : Nat
  value : Nat
  block : List Byte
deriving DecidableEq, Repr

/-- A broadcast of a firmware image that this chip runs as manager (R337): results by chip with their build, and when the last
progress was. -/
structure Bcast where
  ref : FwRef
  cls : Nat
  build : Nat
  results : List (Nat × Nat × Nat)
  progress : Ftu
  /-- Pieces sent so far. -/
  next : Nat
deriving DecidableEq, Repr

/-- An image that this chip's agent receives (R337). -/
structure Incoming where
  cls : Nat
  build : Nat
  bytes : Nat
  pieces : Nat
  digest : BitVec 256
  got : List (Nat × List Byte)
deriving DecidableEq, Repr

/-- A service port's configuration (Table 16.9). -/
structure SvcCfg where
  port : Nat
  prio : Nat
  vlan : Nat
  ipv6 : BitVec 128
  /-- Priorities that the link partner has paused (R62). -/
  paused : List (Fin 8)
deriving DecidableEq, Repr

/-- A bulk-move session (R64). -/
structure BulkSession where
  port : Nat
  num : Nat
  mgmt : Bool
  ctx : Nat
  peer : BitVec 128
  key : List Byte
  /-- The next SEQ to receive; datagrams received since the last ACK; when an ACK fell due; a gap has been answered. -/
  rxNext : BitVec 32
  since : Nat
  ackAt : Option Ftu
  nakked : Bool
  /-- The next SEQ to send, datagrams sent and not acknowledged, those that wait for the window, and when an ACK last came. -/
  txNext : BitVec 32
  unacked : List BulkDgram
  waiting : List BulkDgram
  lastAck : Ftu
deriving DecidableEq, Repr

/-- The management firmware (R326 to R339). -/
structure FwSt where
  journal : List JournalEntry
  highest : List (FwSpace × Fin 65536)
  /-- Result words ready, in the order in which they became ready (R329). -/
  ready : List FwRef
  /-- The result of the last command that ended: the model's own window on the journal. -/
  last : Option FwResult
  /-- Active and staged image of each class: class, build and digest (R336). -/
  active : List (Nat × Nat × BitVec 256)
  staged : List (Nat × Nat × BitVec 256)
  /-- The bytes of the staged images, by class. -/
  bytes : List (Nat × List Byte)
  bcast : Option Bcast
  incoming : List Incoming
  services : List SvcCfg
  sessions : List BulkSession
  /-- Bulk-move datagrams discarded, by port (R64). -/
  discards : Store Nat
  /-- Fabric times of the firmware's restarts (R368). -/
  restarts : List Nat
deriving DecidableEq, Repr

/-- A Sillage record (Table 20.1). -/
structure SilRec where
  ftu : Nat
  wb : Nat
  chip : Nat
  seq : Nat
  hours : Nat
  cycles : Nat
  source : Nat
  code : Nat
  ctxValid : Bool
  isSealed : Bool
  persisted : Bool
  severity : Nat
  slice : Nat
  ctx : Nat
  params : List Nat
deriving DecidableEq, Repr

/-- The Sillage recorder beside its registers (R380 to R386). -/
structure SilSt where
  ring : List SilRec
  overflow : List SilRec
  /-- An OVERFLOW_BEGIN record has been written since POR or the last clear (R382). -/
  begun : Bool
  /-- Records taken in the microsecond named (R382). -/
  rate : Nat × Nat
  /-- HIGH records still to be appended to the persistent segment, and fabric times of the last second's appends (R383). -/
  toPersist : List SilRec
  appends : List Nat
deriving DecidableEq, Repr

/-- An event record of an Antenna port's queue (Table 15.5). -/
structure EvtRec where
  code : Nat
  chip : Nat
  seq : Nat
  ftu : Nat
  args : List (Nat × Nat)
deriving DecidableEq, Repr

/-- A tracked frame that an Antenna port has sent and that is not acknowledged, or that waits to be sent (R312): how often it was
replayed, and the SEQ of the event records it carries. -/
structure AntSent where
  frame : AntFrame
  replays : Nat
  events : List Nat
deriving DecidableEq, Repr

/-- A HOST_READ or HOST_WRITE outstanding (R315): its TAG, the Atomizer-S channel, what it is for (0 a descriptor, 1 data read,
2 data written, 3 a record), the place in the transfer or the serial number of the write, the descriptor's number, and when it
was sent. -/
structure HostReq where
  tag : Nat
  chan : Nat
  kind : Nat
  pos : Nat
  num : Nat
  sentAt : Ftu
deriving DecidableEq, Repr

/-- One Antenna port beside its registers (R308 to R316). -/
structure AntSt where
  events : List EvtRec
  evtSeq : Nat
  /-- When it entered its state. -/
  since : Ftu
  /-- INIT exchange (R311): a valid INIT of the peer has come, one with ACK has come, one with ACK was sent; the peer's
  MAX_OUT. -/
  gotInit : Bool
  gotAck : Bool
  sentAck : Bool
  maxOut : Nat
  /-- The next SEQ to send and to receive (R312). -/
  txSeq : Fin 65536
  rxSeq : Fin 65536
  unacked : List AntSent
  waiting : List AntSent
  /-- A tracked frame has come whose ACK_SEQ no frame has carried yet. -/
  owed : Bool
  /-- Last progress in acknowledgement, and the last LINK_NAK sent. -/
  progress : Ftu
  nakAt : Option Ftu
  /-- A DOORBELL frame is due (R325). -/
  bell : Bool
  hosts : List HostReq
  hostTag : Nat
deriving DecidableEq, Repr

/-- Instar beside its registers (R340 to R350). -/
structure InsSt where
  /-- Stage 7 is in its role step, and in its time step (R347). -/
  roleOpen : Bool
  timeOpen : Bool
  /-- Fabric time at which the limit of the stage began, and the stage itself (R340). -/
  stageAt : Ftu
  beganAt : Ftu
  /-- The last reset was a WARM reset or a wake, and the pool was held through it (R345, R353). -/
  warm : Bool
  /-- The load range of Thorax SRAM is open (R343). -/
  loadOpen : Bool
  /-- The verified image that stage 3 starts: class, build, digest; and the kept image it came from was the staged one. -/
  image : Option (Nat × BitVec 256)
  fromStaged : Bool
deriving DecidableEq, Repr

/-- Reset and power of the module (R351 to R372). -/
structure PowerSt where
  /-- The always-on domain has power. -/
  aonOn : Bool
  /-- The part is held in POR or WARM reset. -/
  inReset : Bool
  /-- Chrysalis has stopped the clocks (R388). -/
  frozen : Bool
  /-- The reset held is a POR; RESET_N has been low since the always-on domain started, and stands low now (R398); what started the
  reset held (SOURCE of RST_CAUSE). -/
  porHeld : Bool
  lowSeen : Bool
  rstLow : Bool
  source : Nat
  /-- The TAP's EXTEST holds the part (R403); SYSCLK is lost (R399); lost SerDes references (R396). -/
  extest : Bool
  sysLost : Bool
  refsLost : List (Fin 8)
  /-- The stacks are in self-refresh (R353). -/
  refresh : Bool
  /-- A trip has put the part into DEEP (R366). -/
  tripped : Bool
  /-- The comparators that wake the part. -/
  wakeCmps : Nat
  /-- SLEEP or DEEP asked for and waiting for contexts that reset (R363). -/
  sleepWant : Option (Nat × FwRef)
  /-- No Antenna port came up in stage 2: ALERT_N (R343). -/
  alertAnt : Bool
  /-- When PWR_MEASURE was last written; pacing, in steps of 1/16; since when the power is over the limit with pacing at its floor, and since when it has stayed
  below 90 % of the limit (R369). -/
  shownAt : Option Ftu
  pace : Nat
  overSince : Option Ftu
  underSince : Option Ftu
  /-- A COMPUTE reset requested: its boundary, and the commands that asked; the wingbeat at which its units are ready again
  (R354). -/
  computeAt : Option Wb
  computeRefs : List FwRef
  computeReady : Option Wb
  /-- Fabric times of COMPUTE resets, and of CONTEXT resets on the chip (R359). -/
  computeTimes : List Nat
  chipResets : List Nat
  /-- The wingbeat in which forward-only entry began, and the monitor runs (R370). -/
  foAt : Option Wb
  halted : Bool
  /-- The contexts have been reset at its next boundary (Table 18.8). -/
  foReset : Bool
deriving DecidableEq, Repr

/-- Chrysalis beside its registers (R387 to R393). -/
structure ChrSt where
  /-- DELAY of CHR_ARM in FTU. -/
  delay : Nat
  /-- Fabric time of the first trigger of the freeze to come. -/
  trigAt : Option Ftu
  /-- Slices sealed at the freeze. -/
  isSealed : List Nat
  /-- Stream bytes written into halves, those still to be written, and whether the trailer is among them. -/
  sent : List Byte
  todo : List Byte
  whole : Bool
deriving DecidableEq, Repr

/-- The straps and signal pins the part samples and drives (R395 to R400). -/
structure PinsSt where
  /-- ROLE strap as it stands on the pins. -/
  role : Fin 4
  /-- The installation serial strap: the Cocoon slot in use (R401). -/
  serialSel : Fin 4
  /-- DEBUG_EN strap. -/
  debugEn : Bool
deriving DecidableEq, Repr

/-- An entry of the defect list (Table 19.3). -/
structure Defect where
  seq : Nat
  hours : Nat
  kind : Nat
  place : Nat
  cause : Nat
  stage : Nat
  unit : Nat
deriving DecidableEq, Repr

/-- What is left of the spares beside SPR_MAP (R373 to R377): physical units that failed, as kind, wing and index; free Accord SRAM
rows and the fewest spare local-store rows of a core, by wing; slots that are ABSENT, as wing and slot; Thorax SRAM rows. -/
structure SpareUse where
  failed : List (Nat × Nat × Nat)
  rowsFree : Store Nat
  rowsAbsent : List (Nat × Nat)
  lsMin : Store Nat
  sramRows : Nat
deriving DecidableEq, Repr

/-- A part with every spare of Table 19.1. -/
def SpareUse.init : SpareUse := ⟨[], [], [], [], 256⟩

/-- A unit that failed and whose logical number waits for the next boundary (R375). -/
structure UnitFail where
  kind : Nat
  wing : Nat
  logical : Nat
  detected : Wb
deriving DecidableEq, Repr

/-- Failures in hand (R375): those that wait for their boundary, and defect entries not yet in Cocoon: kind, place, cause,
unit. -/
structure SpareSt where
  waiting : List UnitFail
  uncommitted : List (Nat × Nat × Nat × Nat)
  use' : SpareUse
deriving DecidableEq, Repr

/-- What Cocoon holds, which survives every reset (R286, R412). -/
structure CocoonSt where
  hours : Nat
  cycles : Nat
  lastFull : Nat
  persistent : List SilRec
  /-- Installation serial slots 0 to 3; `none` where SLOT_VALID is clear (R401, R412). -/
  serials : List (Option (BitVec 32))
  /-- Digest and MAP_SEQ of the map in force, and AUTH_KEY_DIGEST once the first map set it (R102). -/
  mapDigest : BitVec 256
  mapSeq : BitVec 32
  authDigest : Option (BitVec 256)
  /-- The defect list (R378). -/
  defects : List Defect
  /-- RESERVED_TO of the attestation key (R287). -/
  reservedTo : Nat
  /-- The spare maps: SPR_MAP by index, and what is left (R375, R377). -/
  spareMap : Store Word
  spareUse : SpareUse
deriving DecidableEq, Repr

/-- The state of the part. -/
structure State where
  regs : Store Word
  time : TimeSt
  ports : Store PortSt
  eps : Store EpSt
  ctxs : Store CtxSt
  net : NetSt
  que : QueSt
  pool : PoolSt
  dma : DmaSt
  coll : CollSt
  hawk : HawkSt
  sec : SecSt
  /-- Pool frames (plaintext under the key of the context that holds the frame) and Thorax SRAM, by address. -/
  mem : List Host.Cell
  route : RouteSt
  agent : AgentSt
  /-- The installation map accepted (R102). -/
  map : Option InstMap
  mgr : MgrSt
  twin : TwinSt
  fw : FwSt
  sil : SilSt
  ants : Store AntSt
  ins : InsSt
  power : PowerSt
  spares : SpareSt
  cocoon : CocoonSt
  pins : PinsSt
  chr : ChrSt
  /-- What the part has sent, oldest first: the model's own record; no rule reads it. -/
  out : List OutMsg
  /-- How many free values have been used (log entry 1). -/
  free : Nat
  /-- The commands that wait, first in, first out. -/
  pending : List Instr
deriving DecidableEq, Repr

/-- The reasons a command can stop the part with a fault. -/
inductive Fault where
  /-- VIN above 60 V: the spec gives the part no behaviour there (R397). Safe. -/
  | vinAboveRange
deriving DecidableEq, Repr

/-- The reasons the model can refuse a command. -/
inductive Refusal where
  /-- No meaning has been written for the command. -/
  | notModelled (mnemonic : String)
deriving DecidableEq, Repr

/-- The answer of a command. -/
abbrev Out := Host.Outcome State Fault Refusal

def TimeSt.init : TimeSt := ⟨false, false, none, none, 0, 0, none, none, 0⟩
def NetSt.init : NetSt := ⟨[], [], [], [], [], [], [], [], []⟩
def Bank.empty : Bank := ⟨[], [], []⟩
def RouteSt.init : RouteSt := ⟨Bank.empty, Bank.empty, none, false, false, [], 0⟩
def AgentSt.init : AgentSt := ⟨0, [], [], [], (0, [])⟩
def MgrSt.init : MgrSt := ⟨[], [], [], [], none, none, [], [], none, none, [], [], [], 0, [], [], none, 0⟩
def FwSt.init : FwSt := ⟨[], [], [], none, [], [], [], none, [], [], [], [], []⟩
def SilSt.init : SilSt := ⟨[], [], false, (0, 0), [], []⟩
def ChrSt.init : ChrSt := ⟨0, none, [], [], [], false⟩
def InsSt.init : InsSt := ⟨false, false, 0, 0, false, false, none, false⟩

/-- At POR with RESET_N low: no reference is lost, nothing is pending. -/
def PowerSt.init : PowerSt where
  aonOn := true
  inReset := true
  frozen := false
  porHeld := true
  lowSeen := true
  rstLow := true
  source := 0
  extest := false
  sysLost := false
  refsLost := []
  refresh := false
  tripped := false
  wakeCmps := 0
  sleepWant := none
  alertAnt := false
  shownAt := none
  pace := 0
  overSince := none
  underSince := none
  computeAt := none
  computeRefs := []
  computeReady := none
  computeTimes := []
  chipResets := []
  foAt := none
  halted := false
  foReset := false

def AntSt.init : AntSt :=
  ⟨[], 0, 0, false, false, false, 0, 0, 0, [], [], false, 0, none, false, [], 0⟩
def CocoonSt.init : CocoonSt := ⟨0, 0, 0, [], [none, none, none, none], 0, 0, none, [], 0, [], SpareUse.init⟩
def PinsSt.init : PinsSt := ⟨0, 0, false⟩

/-- The part at POR with RESET_N low (R351): every register at its POR value. -/
def State.reset : State where
  regs := []
  time := TimeSt.init
  ports := []
  eps := []
  ctxs := []
  net := NetSt.init
  que := ⟨[], []⟩
  pool := PoolSt.init
  dma := DmaSt.init
  coll := ⟨[], [], []⟩
  hawk := ⟨[], [], 0⟩
  sec := SecSt.init
  mem := []
  route := RouteSt.init
  agent := AgentSt.init
  map := none
  mgr := MgrSt.init
  twin := TwinSt.init
  fw := FwSt.init
  sil := SilSt.init
  ants := []
  ins := InsSt.init
  power := PowerSt.init
  spares := ⟨[], [], SpareUse.init⟩
  cocoon := CocoonSt.init
  pins := PinsSt.init
  chr := ChrSt.init
  out := []
  free := 0
  pending := []

end Sys2Proof.Machine
end

