-- ==== Sys2Proof/Machine/Ops.lean ====
section
/-! DEFINITION. Sys2Proof/Machine/Ops.lean: the named operations every meaning is built from: the register file and its
fields, ports, time, the outbox, Sillage records, events, management messages and firmware results.
(log entries of this file: DEDUCED 6, 23, 40, 78, 103, 124; DESIGN CHOICE 18, 119) -/

namespace Sys2Proof.Machine

/-! ### The register file (R8 to R10) -/

/-- The key of a register in the register file: its index above its name. -/
def regKey (r : RegName) (i : Nat) : Nat := i * 256 + r.code

/-- The register a key names. -/
def regNameOf (c : Nat) : RegName := RegName.ofNat c

/-- What an unlisted key of the register file reads as: the register's POR value. -/
def regDefault (k : Nat) : Word := (RegName.ofNat (k % 256)).por (k / 256)

/-- A register's value. -/
def State.reg (s : State) (r : RegName) (i : Nat := 0) : Word := Store.get regDefault s.regs (regKey r i)

/-- Set a register. -/
def State.setReg (s : State) (r : RegName) (i : Nat) (v : Word) : State :=
  { s with regs := Store.set regDefault s.regs (regKey r i) v }

/-- The mask of bits `lo` up to `lo + len - 1`. -/
def fieldMask (lo len : Nat) : Word := (BitVec.ofNat 64 (2 ^ len - 1)) <<< lo

/-- Bits of a word as a number. -/
def getBits (w : Word) (lo len : Nat) : Nat := (w >>> lo).toNat % 2 ^ len

/-- A word with bits `lo` up replaced by the low `len` bits of `v`. -/
def putBits (w : Word) (lo len v : Nat) : Word :=
  (w &&& ~~~(fieldMask lo len)) ||| ((BitVec.ofNat 64 (v % 2 ^ len)) <<< lo)

/-- A field's value. -/
def State.fld (s : State) (f : Fld) (i : Nat := 0) : Nat := getBits (s.reg f.reg i) f.lo f.width

/-- Set a field; the other bits of its register keep their values. -/
def State.setFld (s : State) (f : Fld) (i : Nat) (v : Nat) : State :=
  s.setReg f.reg i (putBits (s.reg f.reg i) f.lo f.width v)

/-- A flag field is 1. -/
def State.flag (s : State) (f : Fld) (i : Nat := 0) : Bool := s.fld f i == 1

/-- Raise a counter field, saturating. -/
def State.bump (s : State) (f : Fld) (i : Nat := 0) (n : Nat := 1) : State :=
  s.setFld f i (min (s.fld f i + n) (2 ^ f.width - 1))

/-- Every register the set `p` names, at every index, back to its POR value. -/
def State.resetRegs (s : State) (p : RegName → Nat → Bool) : State :=
  { s with regs := Store.dropIf (fun k => p (RegName.ofNat (k % 256)) (k / 256)) s.regs }

/-- A number with `b` as its truth. -/
def bit (b : Bool) : Nat := if b then 1 else 0

/-! ### Outcomes and gating -/

/-- The compute and fabric clocks run: not held in reset, not in SLEEP or DEEP, not frozen (R351, R363, R388). -/
def State.running (s : State) : Bool :=
  s.power.aonOn && !s.power.inReset && !s.power.frozen && decide (s.fld F.PWR_STATUS_STATE < 2)

/-- An event of the running part: it has its effect while the part runs, and finds nothing to act on otherwise
(log entry 6). -/
def act (s : State) (f : State → State) : Out := .next (if s.running then f s else s)

/-- Apply `f` where `c` holds. -/
def State.when (s : State) (c : Bool) (f : State → State) : State := if c then f s else s

/-! ### Free values (log entry 1) -/

/-- A fresh free value and the state that has used it. -/
def State.fresh (s : State) : Nat × State := (Config.freeValue s.free, { s with free := s.free + 1 })

/-! ### Time -/

/-- The fabric time counter (R36). -/
def State.ftu (s : State) : Ftu := s.reg .FT_COUNT 0

/-- The current wingbeat number; 0 until the first base pair is set. -/
def State.wb (s : State) : Wb := BitVec.ofNat 48 (s.fld F.FT_WB_NUM_NUM 0)

/-- FTU per wingbeat for a LENGTH code (Table 2.1). -/
def lenFtu (code : Nat) : Nat := 3200 * 2 ^ code

/-- The length L in force. -/
def State.lenFtu (s : State) : Nat := Sys2Proof.Machine.lenFtu (s.fld F.FT_WB_CTL_LENGTH 0)

/-- Wingbeat `a` is at or past `b`: comparisons are modulo 2^48 (R27). -/
def wbGe (a b : Wb) : Bool := decide ((a - b).toNat < 2 ^ 47)

/-- The wingbeat boundary `b` has been reached. -/
def State.reached (s : State) (b : Wb) : Bool := wbGe s.wb b

/-! ### Ports -/

def State.port (s : State) (l : Nat) : PortSt := Store.get (fun _ => PortSt.init) s.ports l

def State.setPort (s : State) (l : Nat) (p : PortSt) : State :=
  { s with ports := Store.set (fun _ => PortSt.init) s.ports l p }

def State.modPort (s : State) (l : Nat) (f : PortSt → PortSt) : State := s.setPort l (f (s.port l))

/-- The number of the Twin port among the links. -/
def twinLink : Nat := 128

/-- The wing of a port (R47). -/
def wingOf (port : Nat) : Nat := port / 32

/-- The state code of a link (PRT_STATUS or TWN_PORT_STATUS STATE). -/
def State.linkState (s : State) (l : Nat) : Nat :=
  if l = twinLink then s.fld F.TWN_PORT_STATUS_STATE 0 else s.fld F.PRT_STATUS_STATE l

def State.setLinkState (s : State) (l : Nat) (v : Nat) : State :=
  if l = twinLink then s.setFld F.TWN_PORT_STATUS_STATE 0 v else s.setFld F.PRT_STATUS_STATE l v

/-- Lanes in use on a link. -/
def State.linkWidth (s : State) (l : Nat) : Nat :=
  if l = twinLink then s.fld F.TWN_PORT_STATUS_WIDTH 0 else s.fld F.PRT_STATUS_WIDTH l

def State.setLinkWidth (s : State) (l : Nat) (v : Nat) : State :=
  if l = twinLink then s.setFld F.TWN_PORT_STATUS_WIDTH 0 v else s.setFld F.PRT_STATUS_WIDTH l v

/-- The chip's manager role is confirmed: Monarch or standby (R96). -/
def State.isManagerChip (s : State) : Bool :=
  s.flag F.MGR_ROLE_CONFIRMED && (s.fld F.MGR_ROLE_ROLE == 1 || s.fld F.MGR_ROLE_ROLE == 2)

/-- The MODE code a link has; the Twin port works as a fabric link, on a chip confirmed in a manager role (R66). -/
def State.linkMode (s : State) (l : Nat) : Nat :=
  if l = twinLink then (if s.isManagerChip then 2 else 0) else s.fld F.PRT_CTL_MODE l

/-! ### The outbox -/

def State.emit (s : State) (m : OutMsg) : State := { s with out := s.out ++ [m] }

/-- Emit each message of a list. -/
def State.emits (s : State) (ms : List OutMsg) : State := { s with out := s.out ++ ms }

/-! ### The chip's own number -/

/-- The chip number from the map; 0xFFFF before a map is accepted. -/
def State.chip (s : State) : Nat := if s.flag F.MGR_MAP_VALID then s.fld F.MGR_MAP_CHIP else 0xFFFF

/-! ### Sillage (R380 to R383) -/

/-- Records the overflow region holds room for. -/
def State.overflowRoom (s : State) : Nat :=
  if s.flag F.INS_STATUS_IMAGO then s.fld F.SIL_CFG_FRAMES * 32768 else 0

/-- The SEQ of the oldest record of the live log, shown in SIL_STATUS (R384). -/
def State.silOldest (s : State) : State :=
  let live := s.sil.overflow ++ s.sil.ring
  s.setFld F.SIL_STATUS_OLDEST_SEQ 0 (match live with | [] => s.fld F.SIL_STATUS_NEXT_SEQ | r :: _ => r.seq)

/-- Put a record into the ring; a full ring moves its oldest record to the overflow region or discards it (R382). -/
def State.silPush (s : State) (r : SilRec) : State :=
  if s.sil.ring.length < 65536 then { s with sil := { s.sil with ring := s.sil.ring ++ [r] } }
  else if s.overflowRoom = 0 then
    ({ s with sil := { s.sil with ring := s.sil.ring.drop 1 ++ [r] } }).bump F.SIL_COUNTS_LOST
  else if s.sil.overflow.length < s.overflowRoom then
    { s with sil := { s.sil with ring := s.sil.ring.drop 1 ++ [r], overflow := s.sil.overflow ++ s.sil.ring.take 1 } }
  else
    ({ s with sil := { s.sil with
        ring := s.sil.ring.drop 1 ++ [r], overflow := s.sil.overflow.drop 1 ++ s.sil.ring.take 1 } }).bump F.SIL_COUNTS_LOST

/-- A trigger of a Chrysalis freeze (R387): its CAUSE bit is set, and the first one starts the delay. -/
def State.chrTrigger (s : State) (cause : Nat) : State :=
  if s.power.frozen then s
  else
    let s1 := s.setFld F.CHR_STATUS_CAUSE 0 (s.fld F.CHR_STATUS_CAUSE ||| 2 ^ cause)
    let s2 := { s1 with chr := { s1.chr with trigAt := some (s1.chr.trigAt.getD s.ftu) } }
    if s2.flag F.CHR_ARM_ONCE then s2.setFld F.CHR_ARM_ARMED 0 0 else s2

/-- A record that matches CHR_ARM triggers a freeze while the part is armed. -/
def State.chrMatch (s : State) (source code severity : Nat) : State :=
  let any := fun (f : Fld) (v : Nat) => s.fld f == 0xFF || s.fld f == v
  if s.flag F.CHR_ARM_ARMED ∧ any F.CHR_ARM_SIL_SOURCE source ∧ any F.CHR_ARM_SIL_CODE code
      ∧ s.fld F.CHR_ARM_SIL_SEVERITY ≤ severity then s.chrTrigger 3
  else s

/-- CLEAN of the fast path is lost: a defect was appended, or a port lost link, narrowed, failed qualification or received a
MISMATCH verdict (R349). -/
def State.unclean (s : State) : State := s.setFld F.INS_FAST_CLEAN 0 0

/-- Number a record and store it where its severity and the accept rate allow (R380, R382). -/
def State.silStore (s : State) (source code severity : Nat) (slice : Nat) (ctx : Option Nat) (isSealed : Bool)
    (params : List Nat) : State :=
  let seq := s.fld F.SIL_STATUS_NEXT_SEQ
  let s1 := s.setFld F.SIL_STATUS_NEXT_SEQ 0 (seq + 1)
  let us := s.ftu.toNat / 1600
  let n := if s.sil.rate.1 = us then s.sil.rate.2 else 0
  if severity < 2 ∧ 16 ≤ n then s1.bump F.SIL_COUNTS_DROPPED
  else if severity < s.fld F.SIL_CFG_MIN_SEVERITY then s1
  else
    let r : SilRec := ⟨s.ftu.toNat, (if s.time.based then s.wb.toNat else 0), s.chip, seq, s.cocoon.hours % 2 ^ 24,
      s.cocoon.cycles % 2 ^ 24, source, code, ctx.isSome, isSealed, decide (severity = 2), severity, slice,
      ctx.getD 0, params⟩
    let s2 := { s1 with sil := { s1.sil with rate := (us, n + 1) } }
    let s3 := if severity = 2 then { s2 with sil := { s2.sil with toPersist := s2.sil.toPersist ++ [r] } } else s2
    (s3.silPush r).silOldest

/-- Write a Sillage record (R380); the first move to the overflow region also writes OVERFLOW_BEGIN (R382). -/
def State.silRec (s : State) (source code severity slice : Nat) (ctx : Option Nat) (isSealed : Bool)
    (params : List Nat) : State :=
  let begins := !s.sil.begun && decide (65536 ≤ s.sil.ring.length) && decide (0 < s.overflowRoom)
  let s1 := (s.silStore source code severity slice ctx isSealed params).chrMatch source code severity
  if begins then ({ s1 with sil := { s1.sil with begun := true } }).silStore 0x10 0x01 0 0 none false [] else s1

/-- A record of the fabric's own events: slice 0, no context. -/
def State.sillage (s : State) (source code severity : Nat) (params : List Nat) : State :=
  s.silRec source code severity 0 none false params

/-! ### Mailbox events (R316) -/

def State.ant (s : State) (a : Nat) : AntSt := Store.get (fun _ => AntSt.init) s.ants a

def State.setAnt (s : State) (a : Nat) (v : AntSt) : State :=
  { s with ants := Store.set (fun _ => AntSt.init) s.ants a v }

/-- Append an event record to one Antenna port's queue of 256; a full queue discards its oldest (R316). -/
def State.queueEvent (s : State) (a : Nat) (code : Nat) (args : List (Nat × Nat)) : State :=
  let q := s.ant a
  let r : EvtRec := ⟨code, s.chip, q.evtSeq, s.ftu.toNat, args⟩
  if q.events.length < 256 then s.setAnt a { q with events := q.events ++ [r], evtSeq := (q.evtSeq + 1) % 2 ^ 32 }
  else (s.setAnt a { q with events := q.events.drop 1 ++ [r], evtSeq := (q.evtSeq + 1) % 2 ^ 32 }).bump F.ANT_COUNTS_EVT_LOST a

/-- Raise an event in both queues, with its parameters as (value, bytes) (R316). -/
def State.event (s : State) (code : Nat) (args : List (Nat × Nat)) : State :=
  (s.queueEvent 0 code args).queueEvent 1 code args

/-! ### Management messages (R98, R100) -/

/-- The manager epoch a message of this chip carries (Table 5.1). -/
def State.mgrEpoch (s : State) : Nat :=
  if s.flag F.MGR_ROLE_ACTIVE then s.fld F.TWN_STATUS_EPOCH else s.fld F.TWN_AGENT_HIGHEST_EPOCH

/-- Send a new management message to a chip number (0xFFFF every chip, 0xFFFE the manager). -/
def State.sendMgmt (s : State) (dst : Nat) (m : Mgmt) : State :=
  { s with
    agent := { s.agent with nextSeq := (s.agent.nextSeq + 1) % 2 ^ 32 }
    out := s.out ++ [.mgmt dst s.mgrEpoch s.agent.nextSeq m] }

/-- Send a message that awaits a reply, to be repeated until it comes (R100). -/
def State.askMgmt (s : State) (dst : Nat) (m : Mgmt) : State :=
  let s1 := s.sendMgmt dst m
  { s1 with agent := { s1.agent with awaiting := s1.agent.awaiting ++ [(s.agent.nextSeq, dst, m, s.wb)] } }

/-- A reply has come: drop the messages awaiting it. -/
def State.answered (s : State) (p : Nat → Mgmt → Bool) : State :=
  { s with agent := { s.agent with awaiting := s.agent.awaiting.filter fun a => !p a.2.1 a.2.2.1 } }

/-- The message is a repeat of one acted on in the last 4,096 wingbeats (R100). -/
def State.isRepeat (s : State) (h : MsgHdr) : Bool :=
  s.agent.seen.any fun q => decide (q.1 = h.src.val ∧ q.2.1 = h.seq ∧ (s.wb - q.2.2).toNat < 4096)

/-- Note a message as acted on (R100). -/
def State.noteSeen (s : State) (h : MsgHdr) : State :=
  { s with agent := { s.agent with
      seen := (s.agent.seen.filter fun q => decide ((s.wb - q.2.2).toNat < 4096)) ++ [(h.src.val, h.seq, s.wb)] } }

/-- Every link whose NBR_REPORT still has no verdict, in ascending order. -/
def State.openReports (s : State) : List Nat :=
  (s.ports.filter fun q => q.2.report.isSome).map (·.1)

/-- Send NBR_REPORT for a port's last IDENT (R103). -/
def State.sendReport (s : State) (l : Nat) : State :=
  match (s.port l).peer with
  | none => s
  | some id =>
    (s.modPort l fun p => { p with report := some (s.wb, s.agent.nextSeq, s.linkState l) }).sendMgmt 0xFFFE
      (.nbrReport l (s.linkState l) id)

/-- Send an open NBR_REPORT again, with its MSG_SEQ (R100, R103). -/
def State.repeatReport (s : State) (l : Nat) : State :=
  match (s.port l).peer, (s.port l).report with
  | some id, some (_, q, st) =>
    (s.modPort l fun p => { p with report := some (s.wb, q, st) }).emit (.mgmt 0xFFFE s.mgrEpoch q (.nbrReport l st id))
  | _, _ => s

/-- The epoch rule of R130: is a manager message accepted? -/
def State.mgrAccepts (s : State) (h : MsgHdr) : Bool :=
  decide (s.fld F.TWN_AGENT_HIGHEST_EPOCH < h.epoch) ||
  (decide (h.epoch = s.fld F.TWN_AGENT_HIGHEST_EPOCH) && decide (h.src.val = s.fld F.TWN_AGENT_MANAGER_CHIP))

/-- Raise HIGHEST_EPOCH and MANAGER_CHIP to those of an accepted message; a raise sends the open reports again
(R103, R130). -/
def State.raiseEpoch (s : State) (h : MsgHdr) : State :=
  if s.fld F.TWN_AGENT_HIGHEST_EPOCH < h.epoch then
    let s1 := (s.setFld F.TWN_AGENT_HIGHEST_EPOCH 0 h.epoch).setFld F.TWN_AGENT_MANAGER_CHIP 0 h.src.val
    s1.openReports.foldl State.repeatReport s1
  else s

/-- The active bank (R90, R94). -/
def State.activeBank (s : State) : Bank :=
  if s.fld F.EDG_CTL_ACTIVE_BANK 0 = 0 then s.route.bank0 else s.route.bank1

/-- A broadcast not seen before goes on to the broadcast children (R100). -/
def State.relay (s : State) (h : MsgHdr) : State :=
  if h.bcast then s.emit (.relay s.activeBank.children h.src.val h.seq) else s

/-- The chip fences itself (R131): it stops issuing, is FENCED and not ACTIVE, and clears ROOT and LOCKED in its sets. -/
def State.fence (s : State) : State :=
  let s1 := (s.setFld F.TWN_STATUS_STATE 0 MS_FENCED).setFld F.MGR_ROLE_ACTIVE 0 0
  let s2 := (s1.setFld F.FT_STATUS_STATE 0 TS_ACQUIRE).bump F.TWN_EVENTS_FENCES
  let s3 := { s2 with twin := { s2.twin with
    fencedAt := some s.wb, probeAt := none, replies := [], heardEpoch := 0, heardActive := false } }
  (s3.sillage 0x05 0x01 2 []).event EVT_FENCED []

/-- An ACTIVE chip that receives any message of a higher epoch fences (R131). -/
def State.fenceOn (s : State) (epoch : Nat) : State :=
  if s.flag F.MGR_ROLE_ACTIVE ∧ s.fld F.TWN_STATUS_EPOCH < epoch then s.fence else s

/-- A manager message reaches the agent: dropped and counted by R130, or its epoch noted; a repeated MSG_SEQ is answered
again and not acted on twice, and a repeated broadcast is dropped (R100). -/
def State.fromManager (s : State) (h : MsgHdr) (f : State → State) (answer : State → State := id) : State :=
  let s0 := s.fenceOn h.epoch
  if s0.mgrAccepts h then
    let s1 := s0.raiseEpoch h
    if s1.isRepeat h then (if h.bcast then s1 else answer s1)
    else answer (f ((s1.noteSeen h).relay h))
  else s0.bump F.TWN_EVENTS_STALE_DROPS

/-- A message from an agent: a repeat is answered again and not acted on twice, a repeated broadcast is dropped (R100). -/
def State.fromAgent (s : State) (h : MsgHdr) (f : State → State) (answer : State → State := id) : State :=
  let s0 := s.fenceOn h.epoch
  if s0.isRepeat h then (if h.bcast then s0 else answer s0) else answer (f ((s0.noteSeen h).relay h))

/-- A message from an agent to the manager: only the ACTIVE chip acts on it. -/
def State.atManager (s : State) (h : MsgHdr) (f : State → State) (answer : State → State := id) : State :=
  if (s.fenceOn h.epoch).flag F.MGR_ROLE_ACTIVE then s.fromAgent h f answer else s.fenceOn h.epoch

/-! ### The state copy of the two managers (R123, R128) -/

def State.mgrState (s : State) : Nat := s.fld F.TWN_STATUS_STATE

def State.modTwin (s : State) (f : TwinSt → TwinSt) : State := { s with twin := f s.twin }

/-- The other manager chip of the map. -/
def State.peerChip (s : State) : Option Nat :=
  s.map.bind fun m => (m.chips.find? fun c => (c.role.val == 1 || c.role.val == 2) && c.chip.val != s.chip).map fun c => c.chip.val

/-- Ask the active chip for a snapshot (R124, R128). -/
def State.askSnapshot (s : State) : State :=
  match s.peerChip with
  | some c => s.askMgmt c .snapReq
  | none => s

/-- The shadow stops being SYNCED (R128): counted and announced. `clean` says that its last applied delta still stands as
the base of a takeover (R134). -/
def State.unsync (s : State) (clean : Bool) : State :=
  let was := s.flag F.TWN_STATUS_SYNCED
  let s1 := (s.setFld F.TWN_STATUS_SYNCED 0 0).setFld F.TWN_SYNC_SNAP_PROGRESS 0 0
  let s2 := s1.modTwin fun t => { t with
    based := false, gap := false, delta := none, snap := none, syncedAt := t.syncedAt && clean }
  if was then (s2.bump F.TWN_EVENTS_UNSYNCS).event EVT_TWIN_UNSYNC [] else s2

/-! ### Firmware results (R329 to R334) -/

/-- The commands of scope MGR (Tables 16.6 to 16.10). -/
def mgrOpcode (op : Nat) : Bool :=
  (decide (0x12 ≤ op) && decide (op ≤ 0x1B)) || (decide (0x20 ≤ op) && decide (op ≤ 0x25)) || op == 0x2F
  || (decide (0x30 ≤ op) && decide (op ≤ 0x32)) || op == 0x51

/-- The map names a Monarch standby (R97, R128). -/
def State.hasStandby (s : State) : Bool :=
  match s.map with
  | some m => m.chips.any fun c => c.role.val == 2
  | none => false

/-- The result of an MGR command waits for a DELTA_ACK (R128, R330). -/
def State.resultWaits (s : State) (op : Nat) : Bool :=
  mgrOpcode op && s.flag F.MGR_ROLE_ACTIVE && s.hasStandby && s.twin.peerOk

/-- The firmware's command ends: its result is journalled and becomes ready to post (R329, R331). -/
def State.finishFw (s : State) (r : FwRef) (code value : Nat) (block : List Byte := []) : State :=
  let hit := s.fw.journal.any fun e => decide (e.ref = r) && !e.done
  let wait := s.fw.journal.any fun e => decide (e.ref = r) && !e.done && s.resultWaits e.opcode
  { s with twin := { s.twin with waits := if wait then s.twin.waits ++ [(r, s.wb)] else s.twin.waits }, fw := { s.fw with
      journal := s.fw.journal.map fun e =>
        if e.ref = r ∧ e.done = false then { e with done := true, code := code, value := value, block := block } else e
      ready := if hit && !wait then s.fw.ready ++ [r] else s.fw.ready
      last := some ⟨r, code, value, block⟩ } }

/-- The chip acts as the manager. -/
def State.isActive (s : State) : Bool := s.flag F.MGR_ROLE_ACTIVE

/-- The chips in service, whose agents a pod-wide change waits for (R28, R107). -/
def State.agents (s : State) : List Nat := s.mgr.service

/-- A bouquet is loaded somewhere in the pod, by the manager's records. -/
def State.anyBouquet (s : State) : Bool := !s.mgr.loads.isEmpty

/-- A bouquet of the slice is loaded. -/
def State.sliceBouquet (s : State) (slice : Nat) : Bool := s.mgr.loads.any fun l => l.slice == slice

/-- The nodes of a load. -/
def loadNodes (l : MgrLoad) : List BqNode := (l.bq.map (·.nodes)).getD []
def loadClaims (l : MgrLoad) : List BqClaim := (l.bq.map (·.claims)).getD []

/-- A loaded bouquet has a placement on the chip (R118). -/
def State.chipBouquet (s : State) (chip : Nat) : Bool := s.mgr.loads.any fun l => (loadNodes l).any fun n => n.chip == chip

/-- A loaded bouquet's node names the context (R246). -/
def State.ctxBouquet (s : State) (c : Nat) : Bool :=
  s.hawk.parts.any fun b => b.state != 0 && b.bq.nodes.any fun n => n.chip == s.chip && n.ctx == c

/-- The context may name the Skipper group: a group of its slice (R151, R207). -/
def State.ownsGroup (s : State) (c g : Nat) : Bool :=
  s.coll.groups.any fun x => x.num == g && x.slice == s.fld F.QUE_CTX_STATUS_SLICE c

/-- The Skipper group that a COLL node's descriptor names: the variable exchanges other than COMBINE (R211). -/
def bqGroup (n : BqNode) : Option Nat :=
  let k := (n.param.getD 0 0).toNat
  if n.typ = 0x01 ∧ (k = 7 ∨ k = 8) then some ((n.param.getD 56 0).toNat + 256 * ((n.param.getD 57 0).toNat % 16)) else none

/-- A loaded bouquet names the Skipper group (Table 16.7). -/
def State.groupNamed (s : State) (g : Nat) : Bool := s.mgr.loads.any fun l => (loadNodes l).any fun n => bqGroup n == some g

/-- The context may name the bouquet: it is one of the context's slice (R151). -/
def State.ownsBouquet (s : State) (c b : Nat) : Bool :=
  s.hawk.parts.any fun x => x.handle == b && x.handle != 0 && x.slice == s.fld F.QUE_CTX_STATUS_SLICE c

/-- A loaded bouquet holds scheduled claims on a port of the pod (R119). -/
def State.podPortClaimed (s : State) (chip port : Nat) : Bool :=
  s.mgr.loads.any fun l => (loadClaims l).any fun c => c.chip == chip && c.port == port

/-- Schedulable transfer units per wingbeat for a length code and a width (Table 2.2). -/
def portUnits (len width : Nat) : Nat :=
  match width, len with
  | 8, 0 => 83 | 8, 1 => 172 | 8, 2 => 350 | 8, _ => 707
  | 6, 0 => 60 | 6, 1 => 127 | 6, 2 => 261 | 6, _ => 528
  | _, _ => 0

/-- Units that claims ask of a port and direction at an offset, the claims of each bouquet repeating with its period. -/
def unitsAt (bs : List Bq) (chip port dir offset : Nat) : Nat :=
  (bs.map fun b => ((b.claims.filter fun c =>
    c.chip == chip && c.port == port && c.dir == dir && c.offset == offset % max 1 b.period).map (·.units)).sum).sum

/-- Offsets after which every pattern of the bouquets repeats: periods are powers of two. -/
def bqOffsets (bs : List Bq) : List Nat := List.range (max 1 ((bs.map (·.period)).foldl max 1))

/-- A resource of a loaded bouquet is lost by the manager's records (R116): a placement on a failed switch, a member endpoint
or a claimed port that is down, or a narrowed port that no longer carries its claims. -/
def State.loadLost (s : State) (l : MgrLoad) : Bool :=
  let down := fun (c p : Nat) => s.mgr.failed.contains c
    || s.mgr.reports.any (fun q => q.chip == c && q.port == p && q.state != 7)
    || s.mgr.failures.any fun f => f.args == [(c, 2), (p, 1)] && f.evt != EVT_NARROW
  let bs := s.mgr.loads.filterMap (·.bq)
  let thin := fun (c : BqClaim) => s.mgr.narrowed.contains (c.chip, c.port) &&
    decide (portUnits (s.fld F.FT_WB_CTL_LENGTH) 6 < unitsAt bs c.chip c.port c.dir c.offset)
  ((loadNodes l).any fun n => s.mgr.failed.contains n.chip) || ((loadClaims l).any fun c => down c.chip c.port || thin c)
  || ((l.bq.map (·.members)).getD []).any fun m => down m.chip m.port

/-- DEGRADED of a bouquet's part on this chip. -/
def State.degradePart (s : State) (handle : Nat) : State :=
  let s1 := { s with hawk := { s.hawk with parts := s.hawk.parts.map fun (b : BqPart) =>
    if b.handle = handle ∧ handle ≠ 0 then { b with degraded := true } else b } }
  s1.hawk.parts.foldl (fun (t : State) (b : BqPart) => if b.degraded then t.setFld F.HWK_BQ_STATUS_DEGRADED b.entry 1 else t) s1

/-- Mark the loaded bouquets named DEGRADED, raise EVT_DEGRADED for each and count it in MGR_FAILURES (R116, Table 5.8). -/
def State.degradeIf (s : State) (p : MgrLoad → Bool) : State :=
  let hit := s.mgr.loads.filter fun l => l.handle != 0 && !l.degraded && p l
  let s1 := { s with mgr := { s.mgr with loads := s.mgr.loads.map fun l => if hit.contains l then { l with degraded := true } else l } }
  hit.foldl (fun t l => ((t.degradePart l.handle).bump F.MGR_FAILURES_DEGRADED 0).event EVT_DEGRADED [(l.handle, 4)]) s1

/-- Mark the bouquets that lost a scheduled resource (R116). -/
def State.degrade (s : State) : State := s.degradeIf s.loadLost

/-- A context of the slice has a running command or an unacknowledged packet on this chip (R111). -/
def State.sliceBusy (s : State) (slice : Nat) : Bool :=
  let mine := fun (c : Nat) => s.fld F.QUE_CTX_STATUS_STATE c != 0 && s.fld F.QUE_CTX_STATUS_SLICE c == slice
  s.que.runs.any (fun r => mine r.ctx && decide (r.queue < 16384)) || s.net.copies.any fun c => mine c.key.ctx && c.pkt.slice.val == slice

/-- A loaded bouquet claims the port, or a context is bound on it (Table 16.9). -/
def State.portBusy (s : State) (port : Nat) : Bool :=
  s.hawk.parts.any (fun b => b.bq.claims.any fun c => c.chip == s.chip && c.port == port)
  || s.ctxs.any fun q => s.fld F.QUE_CTX_STATUS_STATE q.1 != 0 && q.2.bindings.any fun b => b.port == port

/-! ### Running commands (R147, R157) -/

def State.run (s : State) (q i : Nat) : Option RunCmd := s.que.runs.find? fun r => r.queue == q && r.index == i

def State.modRun (s : State) (q i : Nat) (f : RunCmd → RunCmd) : State :=
  { s with que := { s.que with runs := s.que.runs.map fun r => if r.queue = q ∧ r.index = i then f r else r } }

/-- A failure met by a running command at an offset of its range; the final status is that of the lowest offset, the
first met where offsets are equal (R264). -/
def State.cmdFail (s : State) (q i off status : Nat) : State :=
  s.modRun q i fun r => if r.fails.any (fun f => f.1 == off) then r else { r with fails := r.fails ++ [(off, status)] }

/-- The status of the lowest-addressed failure. -/
def firstFail (l : List (Nat × Nat)) : Option (Nat × Nat) :=
  l.foldl (fun (a : Option (Nat × Nat)) x => match a with | some b => if x.1 < b.1 then some x else a | none => some x) none

/-- The end of the landed bytes from `cur` on without a gap. -/
def landedTo (landed : List (Nat × Nat)) (cur : Nat) : Nat → Nat
  | 0 => cur
  | n + 1 => match landed.find? fun x => x.1 == cur with
    | some x => landedTo landed (cur + x.2) n
    | none => cur

/-- An MGR command (R330): refused on a chip without a confirmed manager role, and on one that is not ACTIVE. -/
def State.mgrCommand (s : State) (r : FwRef) (f : State → State) : State :=
  if !s.isManagerChip then s.finishFw r 0x11 0
  else if !s.isActive then s.finishFw r 0x05 0
  else f s

/-! ### Lost links and the path banks (R93) -/

/-- A route of hops, started at chip `c`, uses port `p` at chip `x`. -/
def routeUses (c : Nat) (route : List Hop) (x p : Nat) : Bool :=
  match route with
  | [] => false
  | h :: t => (c == x && h.port.val == p) || routeUses h.chip.val t x p

/-- A route uses some lost link. -/
def routeLost (c : Nat) (lost : List (Nat × Nat)) (route : List Hop) : Bool :=
  lost.any fun q => routeUses c route q.1 q.2

/-- USE_ALT and NO_PATH of an entry under a set of lost links (R93). -/
def markEntry (e : RouteEntry) (c : Nat) (lost : List (Nat × Nat)) : RouteEntry :=
  let ua := e.useAlt || routeLost c lost e.prim
  let altBad := match e.alt with
    | none => true
    | some a => routeLost c lost a
  { e with useAlt := ua, noPath := e.noPath || (ua && altBad) }

def markBank (b : Bank) (c : Nat) (lost : List (Nat × Nat)) : Bank :=
  { b with entries := b.entries.map fun e => markEntry e c lost }

/-- A link is announced lost: both banks mark their entries (R93); a change of an entry writes ALTERNATE. -/
def State.linkLost (s : State) (chip port : Nat) : State :=
  let lost := s.route.lost ++ [(chip, port)]
  let b0 := markBank s.route.bank0 s.chip lost
  let b1 := markBank s.route.bank1 s.chip lost
  let s1 := { s with route := { s.route with lost := lost, bank0 := b0, bank1 := b1 } }
  if b0 = s.route.bank0 ∧ b1 = s.route.bank1 then s1 else s1.sillage 0x03 0x01 0 []

/-! ### The defect list (R378) -/

/-- Append an entry to the defect list; a full list loses it and counts it. -/
def State.appendDefect (s : State) (kind place cause unit : Nat) : State :=
  let s := s.unclean
  let n := s.cocoon.defects.length
  if 65536 ≤ n then (s.setFld F.SPR_STATUS_LIST_FULL 0 1).bump F.SPR_EVENTS_LOST
  else
    let stage := if s.flag F.INS_STATUS_IMAGO then 0 else s.fld F.INS_STATUS_STAGE
    let d : Defect := ⟨n, s.cocoon.hours, kind, place, cause, stage, unit⟩
    let s1 := { s with cocoon := { s.cocoon with defects := s.cocoon.defects ++ [d] } }
    ((s1.setFld F.SPR_STATUS_ENTRIES 0 (n + 1)).setFld F.SPR_STATUS_LIST_FULL 0 (bit (n + 1 == 65536))).bump
      F.SPR_EVENTS_APPENDS

/-- The installation serial in force: the Cocoon slot the strap selects (R401). -/
def State.ownSerial (s : State) : Option (BitVec 32) := (s.cocoon.serials[s.pins.serialSel.val]?).getD none

end Sys2Proof.Machine
end

