-- ==== Sys2Proof/Machine/Net.lean ====
section
/-! DEFINITION. Sys2Proof/Machine/Net.lean: the shared operations of the crossbar and of the chip's own sources: credits
and waiting packets, hop bytes, path composition, streams (R74 to R95).
(log entries of this file: DEDUCED 59) -/

namespace Sys2Proof.Machine

def State.ctx (s : State) (c : Nat) : CtxSt := Store.get (fun _ => CtxSt.init) s.ctxs c

def State.setCtx (s : State) (c : Nat) (v : CtxSt) : State :=
  { s with ctxs := Store.set (fun _ => CtxSt.init) s.ctxs c v }

def State.modCtx (s : State) (c : Nat) (f : CtxSt → CtxSt) : State := s.setCtx c (f (s.ctx c))

def State.ep (s : State) (p : Nat) : EpSt := Store.get (fun _ => EpSt.init) s.eps p

def State.setEp (s : State) (p : Nat) (v : EpSt) : State :=
  { s with eps := Store.set (fun _ => EpSt.init) s.eps p v }

def State.modEp (s : State) (p : Nat) (f : EpSt → EpSt) : State := s.setEp p (f (s.ep p))

def State.ctxState (s : State) (c : Nat) : Nat := s.fld F.QUE_CTX_STATUS_STATE c
def State.ctxEpoch (s : State) (c : Nat) : Nat := s.fld F.QUE_CTX_STATUS_EPOCH c
def State.ctxSlice (s : State) (c : Nat) : Nat := s.fld F.QUE_CTX_STATUS_SLICE c

/-- The binding of a context on an edge port (R140). -/
def State.binding (s : State) (c port : Nat) : Option Binding :=
  if s.ctxState c = 0 then none else (s.ctx c).bindings.find? fun b => b.port == port

/-! ### Credits and waiting packets (R78, R82) -/

/-- Serve the waiting packets of one output and VC in order with the credits at hand: what is left waiting, the credits
left, and what goes out. -/
def serveWaiting (now : Ftu) (out : Link) (vc : Nat) : List Waiting → Nat → List Waiting × Nat × List OutMsg
  | [], c => ([], c, [])
  | w :: t, c =>
    if w.out = out ∧ w.pkt.vc.val = vc then
      if c = 0 then (w :: t, 0, [])
      else
        let n := min c w.left
        let msgs := (if w.headed then [] else [OutMsg.packet out w.pkt]) ++
          (if w.headed then [OutMsg.flits out vc n] else if n = 1 then [] else [OutMsg.flits out vc (n - 1)])
        if n = w.left then
          let (t', c', m') := serveWaiting now out vc t (c - n)
          (t', c', msgs ++ m')
        else ({ w with left := w.left - n, headed := true, since := now } :: t, 0, msgs)
    else
      let (t', c', m') := serveWaiting now out vc t c
      (w :: t', c', m')

/-- Replace one VC's entry of an eight-entry list. -/
def setVc {α : Type} (l : List α) (vc : Nat) (v : α) : List α := l.set vc v

/-! ### Sealed slices on links (R298 to R303) -/

/-- The slice is sealed on this chip (R298). -/
def State.isSealed (s : State) (slice : Nat) : Bool := s.fld F.SEC_SLICE_STATUS_STATE slice == 2

/-- The slice is sealed and this chip holds no key for it (R299). -/
def State.noKey (s : State) (slice : Nat) : Bool :=
  (match (s.agent.slices.find? fun e => e.slice.val == slice).bind (·.sealAt) with
    | some z => s.reached z
    | none => false) && !s.isSealed slice

/-- The number of the link interval in progress (R300). -/
def State.interval (s : State) : Nat := s.ftu.toNat / 1024

/-- Two sightings of one packet: what no chip on the way changes. -/
def samePacket (a b : Packet) : Bool :=
  a.kind == b.kind && a.ctx == b.ctx && a.epoch == b.epoch && a.seq == b.seq && a.arg == b.arg && a.e2eCrc == b.e2eCrc
  && a.payload == b.payload

/-- Input intervals, not yet verified, that brought a packet. -/
def State.sealDeps (s : State) (p : Packet) : List (Nat × Nat) :=
  (s.sec.ins.filter fun r => r.pkts.any (samePacket p)).map fun r => (r.link, r.num)

/-- A packet of a sealed slice arrives on a link: it belongs to the interval in progress. -/
def State.sealArrive (s : State) (l : Nat) (p : Packet) : State :=
  if s.isSealed p.slice.val then
    let n := s.interval
    let ins := if s.sec.ins.any fun r => r.link == l && r.num == n then
        s.sec.ins.map fun r => if r.link = l ∧ r.num = n then { r with pkts := r.pkts ++ [p] } else r
      else s.sec.ins ++ [⟨l, n, [p]⟩]
    { s with sec := { s.sec with ins := ins } }
  else s

/-- A packet of a sealed slice leaves on a link, in the interval in which its header flit goes. -/
def State.sealLeave (s : State) (l : Nat) (p : Packet) : State :=
  if s.isSealed p.slice.val then
    let n := s.interval
    let deps := s.sealDeps p
    let outs := if s.sec.outs.any fun r => r.link == l && r.num == n then
        s.sec.outs.map fun r => if r.link = l ∧ r.num = n then { r with pkts := r.pkts ++ [p], deps := r.deps ++ deps } else r
      else s.sec.outs ++ [⟨l, n, [p], deps, false, false⟩]
    { s with sec := { s.sec with outs := outs } }
  else s

/-- An input interval is given up: its uncommitted packets are discarded, and FAIL goes on in every output interval that
carried its flits (R303). -/
def State.sealDrop (s : State) (r : SealIn) : State :=
  { s with sec := { s.sec with
      ins := s.sec.ins.filter fun x => x != r
      held := s.sec.held.filter fun h => !(r.pkts.any (samePacket h.2))
      outs := s.sec.outs.map fun o => if o.deps.contains (r.link, r.num) then { o with fail := true } else o } }

/-- A link leaves service: the intervals it owed an answer for fail, and those it would send are gone. -/
def State.sealClear (s : State) (l : Nat) : State :=
  let s1 := (s.sec.ins.filter fun r => r.link == l).foldl State.sealDrop s
  { s1 with sec := { s1.sec with outs := s1.sec.outs.filter fun o => o.link != l } }

/-- Send what the credits of one output and VC allow. A narrowing port sends no flits (R51). -/
def State.serve (s : State) (out : Link) (vc : Nat) : State :=
  if (s.port out.val).narrowing then s
  else
    let (ws, c, ms) := serveWaiting s.ftu out vc s.net.waiting ((s.port out.val).txCredits.getD vc 0)
    let s1 := { s with net := { s.net with waiting := ws } }
    let s2 := (s1.modPort out.val fun p => { p with txCredits := setVc p.txCredits vc c }).emits ms
    ms.foldl (fun t m => match m with | .packet l p => t.sealLeave l.val p | _ => t) s2

/-- A packet is switched to an output: it waits for credits there (R78). -/
def State.output (s : State) (out : Link) (p : Packet) : State :=
  let w : Waiting := ⟨out, p, p.payFlits.val + 2, false, s.ftu⟩
  ({ s with net := { s.net with waiting := s.net.waiting ++ [w] } }).serve out p.vc.val

/-- The chip is in forward-only operation (R367). -/
def State.forwardOnly (s : State) : Bool := s.flag F.PWR_STATUS_FWD_ONLY

/-- Switch a packet by the hop byte at HOP_PTR (R75, R76): forward, deliver, or drop as BAD_HOP of the wing that carries
it. A delivery code must be the last used byte of the path. -/
def State.switchPacket (s : State) (wing : Nat) (p : Packet) : State :=
  let bad := s.bump F.XBR_HDR_ERR_BAD_HOP wing
  if p.hopCount.val ≤ p.hopPtr.val then bad
  else
    let b := (p.path.getD p.hopPtr.val 0).val
    if h : b < 128 then
      if s.fld F.PRT_CTL_MODE b = PM_FABRIC ∧ s.linkState b = PS_UP then
        s.output ⟨b, Nat.lt_trans h (by decide)⟩ { p with hopPtr := p.hopPtr + 1 }
      else bad
    else if b ≤ 0x8C then
      if p.hopPtr.val + 1 ≠ p.hopCount.val then bad
      else if 0x81 ≤ b ∧ s.forwardOnly then bad
      else s.emit (.arrived (.unit (Fin.ofNat 256 b)) { p with hopPtr := p.hopPtr + 1 })
    else if b = 0xFF then
      let q := (p.path.getD (p.hopPtr.val + 1) 0).val
      if p.hopPtr.val + 2 ≠ p.hopCount.val then bad
      else if h : q < 128 then
        if s.fld F.PRT_CTL_MODE q = PM_EDGE then
          s.emit (.arrived (.edge ⟨q, h⟩) { p with hopPtr := p.hopPtr + 2 })
        else bad
      else bad
    else bad

/-! ### Paths (R90 to R93) -/

def State.inactiveBank (s : State) : Bank :=
  if s.fld F.EDG_CTL_ACTIVE_BANK 0 = 0 then s.route.bank1 else s.route.bank0

/-- The route to a chip in the active bank: empty to itself, none without an entry or with NO_PATH. -/
def State.routeTo (s : State) (chip : Nat) : Option (List Hop) :=
  if chip = s.chip then some []
  else
    match s.activeBank.entries.find? fun e => e.dst.val == chip with
    | none => none
    | some e => if e.noPath then none else if e.useAlt then e.alt else some e.prim

/-- PATH of a route and a delivery (R92). -/
def composePath (route : List Hop) (unit : Nat) : List (Fin 256) :=
  route.map (fun h => Fin.ofNat 256 h.port.val) ++
  (if unit < 0x80 then [0xFF, Fin.ofNat 256 unit] else [Fin.ofNat 256 unit])

/-- The wing that carries a packet of the chip's own (R415): of its first output port, or of the unit or edge port it is
delivered to on this chip. -/
def firstWing (path : List (Fin 256)) : Nat :=
  match path with
  | [] => 0
  | b :: t =>
    if b.val < 128 then wingOf b.val
    else if b.val = 0xFF then wingOf ((t.head?.map (·.val)).getD 0)
    else unitWing b.val

/-- The wing on which a unit's transmissions and copies are counted: its own, or for the Thorax by R415. -/
def sourceWing (unit : Nat) (path : List (Fin 256)) : Nat := if unit = 0x80 then firstWing path else unitWing unit

/-! ### Sources (R86, R88, R90) -/

/-- The slice is stopped by the drain in progress (R94). -/
def State.sliceStopped (s : State) (slice : Nat) : Bool :=
  match s.route.stop with
  | some (sl, b) => s.reached b && sl.contains slice
  | none => false

/-- Put a packet of an internal unit on the current path, with SEND_TIME and HDR_CRC (R71, R90); without a path the
transmission is counted as made and lost. -/
def State.transmit (s : State) (unit : Nat) (p : Packet) : State :=
  match s.routeTo p.dstChip.val with
  | none => s.bump F.EDG_DROPS_NO_ROUTE (if unit = 0x80 then 0 else unitWing unit)
  | some r =>
    let path := composePath r p.dstUnit.val
    let p1 := { p with
      path := path, hopCount := Fin.ofNat 16 path.length, hopPtr := 0, sendTime := BitVec.ofNat 40 s.ftu.toNat }
    s.switchPacket (sourceWing unit path) { p1 with hdrCrc := hdrCrcOf p1 }

/-- The stream of a packet an internal unit sources (R86). -/
def streamOf (unit : Nat) (p : Packet) : StreamKey := ⟨unit, p.dstChip.val, p.dstUnit.val, p.ctx.val, p.epoch.val⟩

def State.streamSeq (s : State) (k : StreamKey) : BitVec 32 :=
  ((s.net.nextSeq.find? fun q => q.1 == k).map (·.2)).getD 0

/-- Start a packet of a stream: number it, keep its copy where it is tracked, and transmit it. -/
def State.startPacket (s : State) (unit : Nat) (p : Packet) (cmd : Option Tag) : State :=
  if tracked p.kind.val then
    let k := streamOf unit p
    let n := s.streamSeq k
    let p1 := { p with seq := n }
    let p2 := { p1 with e2eCrc := e2eCrcOf p1 }
    let s1 := { s with net := { s.net with
      nextSeq := s.net.nextSeq.filter (fun (q : StreamKey × BitVec 32) => q.1 != k) ++ [(k, n + 1)]
      copies := s.net.copies ++ [Copy.mk k p2 s.wb 0 cmd] } }
    s1.transmit unit p2
  else s.transmit unit { p with e2eCrc := e2eCrcOf p }

/-- Unacknowledged packets of a stream. -/
def State.inStream (s : State) (k : StreamKey) : Nat := (s.net.copies.filter fun c => c.key == k).length

/-- A unit sources a packet: at once, or when its stream has room and its slice runs (R86, R94). -/
def State.source (s : State) (unit : Nat) (p : Packet) (cmd : Option Tag := none) : State :=
  let k := streamOf unit p
  if s.sliceStopped p.slice.val ∨ (tracked p.kind.val ∧
      (512 ≤ s.inStream k ∨ s.net.backlog.any fun b => b.unit == unit && streamOf b.unit b.pkt == k)) then
    { s with net := { s.net with backlog := s.net.backlog ++ [⟨unit, p, cmd⟩] } }
  else s.startPacket unit p cmd

/-- Start every backlog packet that may start now, in order. -/
def State.pump (s : State) : State :=
  s.net.backlog.foldl (fun t b => t.source b.unit b.pkt b.cmd) { s with net := { s.net with backlog := [] } }

/-- The packet an internal unit makes: its own chip and unit, ADDR_MODE 1, no ranks. -/
def State.unitPacket (s : State) (unit kind vc chip dstUnit ctx epoch slice : Nat) (arg : Nat) (payload : List Byte) :
    Packet :=
  { Packet.blank with
    kind := Fin.ofNat 256 kind, vc := Fin.ofNat 8 vc, addrMode := 1
    payFlits := Fin.ofNat 128 ((payload.length + 63) / 64)
    epoch := Fin.ofNat 256 epoch, ctx := Fin.ofNat 4096 ctx, slice := Fin.ofNat 1024 slice
    srcChip := Fin.ofNat 65536 s.chip, dstChip := Fin.ofNat 65536 chip
    srcUnit := Fin.ofNat 256 unit, dstUnit := Fin.ofNat 256 dstUnit
    dstRank := 0xFFFF, srcRank := 0xFFFF, arg := BitVec.ofNat 64 arg
    payload := payload ++ List.replicate ((64 - payload.length % 64) % 64) 0 }

/-! ### Destinations (R87) -/

/-- Slide the base over the packets received: `fuel` bounds the slide by the map's width. -/
def slideBase (fuel : Nat) (base : BitVec 32) (map : Nat) : BitVec 32 × Nat :=
  match fuel with
  | 0 => (base, map)
  | n + 1 => if map.testBit 0 then slideBase n (base + 1) (map / 2) else (base, map)

/-- What a destination finds when a tracked packet arrives (R87). -/
inductive Arrival where
  | fresh
  | duplicate
  | beyond
deriving DecidableEq, Repr

def arrivalOf (r : Received) (seq : BitVec 32) : Arrival :=
  let d := (seq - r.base).toInt
  if d < 0 then .duplicate
  else if 512 ≤ d then .beyond
  else if r.map.testBit d.toNat then .duplicate else .fresh

/-- The destination stream of a packet at a unit of this chip. -/
def receivedKey (unit : Nat) (p : Packet) : StreamKey := ⟨unit, p.srcChip.val, p.srcUnit.val, p.ctx.val, p.epoch.val⟩

def State.receivedOf (s : State) (k : StreamKey) : Received :=
  (s.net.received.find? fun r => r.key == k).getD ⟨k, 0, 0, false⟩

def State.setReceived (s : State) (r : Received) : State :=
  { s with net := { s.net with received := (s.net.received.filter fun q => q.key != r.key) ++ [r] } }

/-- Mark a packet received and owe an ACK (R87). -/
def noteReceived (r : Received) (seq : BitVec 32) : Received :=
  let m := r.map ||| 2 ^ (seq - r.base).toNat
  let (b, m') := slideBase 512 r.base m
  { r with base := b, map := m', owed := true }

/-- Send the ACK of a stream from a unit of this chip (R87): base in ARG, map in the payload. -/
def State.ackStream (s : State) (k : StreamKey) (slice : Nat) : State :=
  let r := s.receivedOf k
  let arg := k.chip * 2 ^ 48 + k.peer * 2 ^ 40 + r.base.toNat
  let p := s.unitPacket k.unit 0x05 2 k.chip k.peer k.ctx k.epoch slice arg (leBytes 64 r.map)
  (s.setReceived { r with owed := false }).transmit k.unit { p with e2eCrc := e2eCrcOf p }

end Sys2Proof.Machine
end

