-- ==== Sys2Proof/Machine/Memory.lean ====
section
/-! DEFINITION. Sys2Proof/Machine/Memory.lean: pool frames and Thorax SRAM by byte, page tables, and what running commands
write there: ledger entries and progress (R143, R156, R157, R251).
(log entries of this file: DESIGN CHOICE 2, 13) -/

namespace Sys2Proof.Machine

/-! ### Bytes -/

/-- What a byte that nothing has written reads as: zero (log entry 2). -/
def memDefault (_a : Nat) : Byte := 0

/-- The canonical form of the memory: addresses strictly rising, and no byte listed that equals what its address reads as when
unlisted. -/
def Memory.wf (m : List Host.Cell) : Bool := Store.wf memDefault m

/-- The byte at an address. -/
def State.byteAt (s : State) (a : Nat) : Byte := Store.get memDefault s.mem a

/-- Write bytes from address `a` up. -/
def writeBytes (m : List Host.Cell) (a : Nat) : List Byte → List Host.Cell
  | [] => m
  | b :: t => writeBytes (Store.set memDefault m a b) (a + 1) t

def State.readMem (s : State) (a n : Nat) : List Byte := (List.range n).map fun i => s.byteAt (a + i)

def State.writeMem (s : State) (a : Nat) (bs : List Byte) : State := { s with mem := writeBytes s.mem a bs }

/-- Set a whole range back to zero. -/
def State.clearMem (s : State) (a n : Nat) : State :=
  { s with mem := Store.dropIf (fun k => decide (a ≤ k) && decide (k < a + n)) s.mem }

/-- The address of Thorax SRAM offset 0 among the model's byte addresses; pool frames lie below it. -/
def sramBase : Nat := 2 ^ 48

/-- Bytes of Thorax SRAM (Table 13.2: a 26-bit offset). -/
def sramBytes : Nat := 2 ^ 26

/-! ### Page tables (R251) -/

/-- The entry of a page in a context's table. -/
def State.page (s : State) (c v : Nat) : Option Page := (s.ctx c).pages.find? fun p => p.page == v

/-- The byte address behind a pool offset of a context. -/
def State.phys (s : State) (c off : Nat) : Option Nat :=
  (s.page c (pageOf off)).map fun p => p.frame * pageBytes + pageByte off

def State.ctxByte (s : State) (c off : Nat) : Byte :=
  match s.phys c off with
  | some a => s.byteAt a
  | none => 0

/-- Bytes at a pool offset of a context; an unmapped byte reads as zero. -/
def State.ctxRead (s : State) (c off n : Nat) : List Byte := (List.range n).map fun i => s.ctxByte c (off + i)

/-- Write bytes at a pool offset of a context; bytes of unmapped pages are dropped. -/
def State.ctxWrite (s : State) (c off : Nat) : List Byte → State
  | [] => s
  | b :: t =>
    State.ctxWrite (match s.phys c off with | some a => s.writeMem a [b] | none => s) c (off + 1) t

/-- Every page of a range is mapped in the context. -/
def State.mapped (s : State) (c off n : Nat) : Bool :=
  (List.range ((pageByte off + n + pageBytes - 1) / pageBytes)).all fun k => (s.page c (pageOf off + k)).isSome

/-- Sector of a byte address. -/
def sectorOf (a : Nat) : Nat := a / 512

/-- The first fault of a sector in the order of R263. -/
def State.sectorFault (s : State) (sec : Nat) : Option Nat :=
  if s.pool.poison.contains sec then some ST_POOL_UNCORRECTABLE
  else if s.pool.badTag.contains sec then some ST_INTEGRITY
  else none

/-! ### What exists -/

/-- The contexts of the chip that are not FREE. -/
def State.contexts (s : State) : List Nat :=
  (s.regs.filter fun q => q.1 % 256 == RegName.QUE_CTX_STATUS.code && getBits q.2 0 3 != 0).map fun q => q.1 / 256

/-- The queues that exist. -/
def State.queues (s : State) : List Nat :=
  (s.regs.filter fun q => q.1 % 256 == RegName.QUE_CFG.code && getBits q.2 2 2 != 0).map fun q => q.1 / 256

/-- The queues of a context. -/
def State.queuesOf (s : State) (c : Nat) : List Nat := s.queues.filter fun q => s.fld F.QUE_CFG_CONTEXT q == c

/-! ### Frames (R251, R253, R254) -/

/-- Frames of a wing. -/
def framesPerWing : Nat := 221184

/-- The wing of a frame. -/
def wingOfFrame (f : Nat) : Nat := if f < 884736 then f / framesPerWing else (f - 884736) / 3072

/-- Frames of a wing free for grants. -/
def State.freeFrames (s : State) (w : Nat) : Nat :=
  if s.flag F.INS_STATUS_IMAGO then
    framesPerWing - (s.pool.used.filter fun f => wingOfFrame f == w).length
      + (s.pool.spare.filter fun f => wingOfFrame f == w).length
  else 0

/-- Bring HBM_POOL of each wing up to date. -/
def State.showPool (s : State) : State :=
  (List.range 4).foldl (fun t w =>
    (t.setFld F.HBM_POOL_FREE w (t.freeFrames w)).setFld F.HBM_POOL_SCRUB_QUEUED w
      (t.pool.scrub.filter fun f => wingOfFrame f == w).length) s

/-- The first number from `k` up, in a ring of `n`, that is not in the list; `fuel` bounds the search. -/
def firstNotIn (l : List Nat) (base n : Nat) : Nat → Nat → Nat
  | _, 0 => base
  | k, fuel + 1 => if l.contains (base + k % n) then firstNotIn l base n (k + 1) fuel else base + k % n

/-- Take a free frame of a wing: which one is a free value (R253 names none; log entry 13). -/
def State.takeFrame (s : State) (w : Nat) : Nat × State :=
  let full : Bool := framesPerWing ≤ (s.pool.used.filter fun f => wingOfFrame f == w).length
  match s.pool.spare.find? fun f => full && wingOfFrame f == w with
  | some f => (f, { s with pool := { s.pool with spare := s.pool.spare.erase f } })
  | none =>
  let (v, s1) := s.fresh
  let f := firstNotIn s1.pool.used (w * framesPerWing) framesPerWing v (s1.pool.used.length + 1)
  (f, { s1 with pool := { s1.pool with used := s1.pool.used ++ [f] } })

/-- Release a frame to scrubbing (R254); a frame due for retirement is not granted again before it. -/
def State.releaseFrame (s : State) (f : Nat) : State :=
  { s with pool := { s.pool with scrub := s.pool.scrub ++ [f] } }

/-- Every sector of a frame becomes plaintext zero with a valid tag and no mark (R253), or raw zero (R254). -/
def State.zeroFrame (s : State) (f : Nat) : State :=
  let s1 := s.clearMem (f * pageBytes) pageBytes
  { s1 with pool := { s1.pool with
      poison := s1.pool.poison.filter fun x => x / 4096 != f, badTag := s1.pool.badTag.filter fun x => x / 4096 != f } }

/-! ### Queues in memory (R143, R144) -/

def State.ringLog (s : State) (q : Nat) : Nat := s.fld F.QUE_CFG_RING_LOG q
def State.cqLog (s : State) (q : Nat) : Nat := s.fld F.QUE_CFG_CQ_LOG q
def State.queueCtx (s : State) (q : Nat) : Nat := s.fld F.QUE_CFG_CONTEXT q
def State.slotOf (s : State) (q i : Nat) : Nat := i % 2 ^ s.ringLog q
def State.slotAddr (s : State) (q i : Nat) : Nat := s.fld F.QUE_RING_BASE_BASE q + s.slotOf q i * 64
def State.ledgerAddr (s : State) (q i : Nat) : Nat :=
  s.fld F.QUE_RING_BASE_BASE q + 2 ^ s.ringLog q * 64 + s.slotOf q i * 64

/-- FLAGS bits 3:0 of a record and of a ledger entry (Tables 7.5 and 7.6). -/
def runFlags (r : RunCmd) : Nat :=
  8 * bit (decide (r.extent < r.full)) + 4 * bit (decide (0 < r.drops)) + 2 * bit r.slipped + bit r.spilled

/-- A ledger entry (Table 7.6). -/
def ledgerBytes (r : RunCmd) (state status flags : Nat) : List Byte :=
  leBytes 1 state ++ leBytes 1 status ++ leBytes 1 flags ++ leBytes 1 r.opcode ++ leBytes 4 r.index ++ leBytes 1 r.epoch ++ [0]
  ++ leBytes 2 r.missing ++ leBytes 4 r.extent ++ leBytes 4 (r.lastChunk.getD 0xFFFFFFFF) ++ leBytes 4 r.drops
  ++ leBytes 8 r.startFtu ++ leBytes 8 r.progFtu ++ leBytes 6 r.progWb ++ [0, 0] ++ leBytes 8 r.detail ++ leBytes 8 0

/-- Ledger states (Table 7.6). -/
def LS_RUNNING : Nat := 1
def ledgerState (status : Nat) : Nat :=
  if status = ST_OK ∨ status = ST_DROPPED_CAPACITY then 2 else if status = ST_PARTIAL then 3 else 4

def State.writeLedger (s : State) (r : RunCmd) (state status flags : Nat) : State :=
  s.ctxWrite r.ctx (s.ledgerAddr r.queue r.index) (ledgerBytes r state status flags)

/-- A running command advances: its progress fields are stamped and its entry rewritten (R157). Steps of the part's own have
no entry. -/
def State.progress (s : State) (q i : Nat) (f : RunCmd → RunCmd) : State :=
  let s1 := s.modRun q i fun r => { f r with progFtu := s.ftu.toNat, progWb := s.wb.toNat }
  match s1.run q i with
  | some r => if r.queue < 16384 then s1.writeLedger r LS_RUNNING 0 0 else s1
  | none => s1

/-- The chunk that coordinate `x` of a collective lies in, and where that chunk begins: blocks are cut one after another
(R188). -/
def chunkAt (n : Nat) : List Nat → Nat → Nat × Nat
  | [], _ => (0, 0)
  | b :: t, x =>
    if x < b then (x / n, x / n * n)
    else
      let (c, p) := chunkAt n t (x - b)
      (c + (b + n - 1) / n, p + b)

/-- Chunks of the blocks of a collective. -/
def chunkCount (n : Nat) (blocks : List Nat) : Nat := (blocks.map fun b => (b + n - 1) / n).sum

/-- Whole chunks before coordinate `x`, and where they end. -/
def wholeChunks (n : Nat) (blocks : List Nat) (x : Nat) : Nat × Nat :=
  if blocks.sum ≤ x then (chunkCount n blocks, blocks.sum) else chunkAt n blocks x

/-- The elements at DST of a member whose collective has come to coordinate `x`. -/
def ownExtent (r : RunCmd) (x : Nat) : Nat := min x r.own.2 - r.own.1

/-- A stretch of a collective is final for its member: whole chunks count (R157, R197). -/
def State.collLanded (s : State) (q i off len : Nat) : State :=
  match s.run q i with
  | none => s
  | some r =>
    let landed := r.landed ++ [(off, len)]
    let tgt := landedTo landed r.pos landed.length
    let cap := match firstFail r.fails with | some x => min x.1 tgt | none => tgt
    let (n, e) := wholeChunks r.chunkLen r.blocks cap
    let keep := landed.filter fun x => decide (e ≤ x.1)
    if e ≤ r.pos then s.modRun q i fun r => { r with landed := landed }
    else
      s.progress q i fun r => { r with
        landed := keep ++ (landed.filter fun x => decide (x.1 < e ∧ e < x.1 + x.2)).map fun x => (e, x.1 + x.2 - e)
        pos := e
        extent := max r.extent (ownExtent r e)
        lastChunk := if n = 0 then none else some (n - 1) }

/-- An access of a command has landed (R157). For a move EXTENT is the landed prefix, below any failing byte (R264). -/
def State.tagLanded (s : State) (t : Tag) : State :=
  match t.chan, s.run t.queue t.index with
  | none, some r =>
    if r.opcode = 0x20 then s
    else if r.opcode = 0x01 then s.collLanded t.queue t.index t.off t.len
    else
    let landed := r.landed ++ [(t.off, t.len)]
    let tgt := landedTo landed r.extent landed.length
    let cap := match firstFail r.fails with | some x => x.1 | none => tgt
    let e := max r.extent (min tgt cap)
    let keep := landed.filter fun x => decide (e ≤ x.1)
    if e = r.extent then s.modRun t.queue t.index fun r => { r with landed := keep }
    else s.progress t.queue t.index fun r => { r with landed := keep, extent := e }
  | _, _ => s

/-- A serial number that marks a read of a DMA descriptor's source; writes count from 0. -/
def readSerial : Nat := 2 ^ 64

/-- An access of a command has failed for good. For a DMA descriptor: a read gives zeros in its place; a write that fails before
its descriptor has finished ends the chain, a later one shows in LATE_STATUS; FENCEs report every failed write (R278, R279). -/
def State.tagFail (s : State) (t : Tag) (status : Nat) : State :=
  match t.chan with
  | none => s.cmdFail t.queue t.index t.off status
  | some (c, n) =>
    match s.dma.chains.find? fun (x : ChainL) => x.queue == t.queue && x.index == t.index && x.live with
    | some x =>
      if n = readSerial then
        let s1 := s.cmdFail t.queue t.index x.finished status
        { s1 with dma := { s1.dma with chains := s1.dma.chains.map fun (y : ChainL) =>
            if y.queue = t.queue ∧ y.index = t.index then { y with got := y.got ++ [(t.off, List.replicate t.len 0)] } else y } }
      else
        let s1 := { s with dma := { s.dma with fails := s.dma.fails ++ [(c, n, status)] } }
        if x.finished ≤ t.off then s1.cmdFail t.queue t.index t.off status
        else if s1.fld F.ATL_CH_STATUS_LATE_STATUS c = 0 then s1.setFld F.ATL_CH_STATUS_LATE_STATUS c status
        else s1
    | none =>
      if n = readSerial then s
      else
        let s1 := { s with dma := { s.dma with fails := s.dma.fails ++ [(c, n, status)] } }
        if s1.fld F.ATL_CH_STATUS_LATE_STATUS c = 0 then s1.setFld F.ATL_CH_STATUS_LATE_STATUS c status else s1

/-- The SEQ that the next tracked packet of a stream will carry, after those that wait. -/
def State.comingSeq (s : State) (unit : Nat) (p : Packet) : Nat :=
  ((s.streamSeq (streamOf unit p)).toNat
    + (s.net.backlog.filter fun b => b.unit == unit && tracked b.pkt.kind.val && streamOf unit b.pkt == streamOf unit p).length)
    % 2 ^ 32

/-- A unit sends a READ_REQ on VC1 for `n` bytes at a global address and remembers it (R256, R257, R271). -/
def State.readReq (s : State) (unit c epoch addr n : Nat) (cmd : Option Tag) : State :=
  let dst := addrUnit addr
  let p := s.unitPacket unit 0x02 1 (addrChip addr) dst c epoch (s.ctxSlice c) addr []
  let p1 := { p with chunk := BitVec.ofNat 32 (n / 64) }
  let r : PendingRead := ⟨unit, c, epoch, s.comingSeq unit p1, addrChip addr, addr, n / 64, cmd, none⟩
  ({ s with net := { s.net with reads := s.net.reads ++ [r] } }).source unit p1 cmd

/-- A unit sends a WRITE on VC5 (R256, R271). -/
def State.writeReq (s : State) (unit c epoch addr : Nat) (bytes : List Byte) (cmd : Option Tag) : State :=
  s.source unit (s.unitPacket unit 0x01 5 (addrChip addr) (addrUnit addr) c epoch (s.ctxSlice c) addr bytes) cmd

/-- No packet and no read of a command is outstanding. -/
def State.quiet (s : State) (q i : Nat) : Bool :=
  let hit := fun (t : Option Tag) => match t with | some t => t.queue == q && t.index == i | none => false
  !(s.net.copies.any fun c => hit c.cmd) && !(s.net.backlog.any fun b => hit b.cmd) && !(s.net.reads.any fun r => hit r.cmd)

end Sys2Proof.Machine
end

