-- ==== Sys2Proof/Machine/Packets.lean ====
section
/-! DEFINITION. Sys2Proof/Machine/Packets.lean: flit slots, forwarding, delivery, credits and waits, acknowledgement and
resend (R67 to R88).
(log entries of this file: DEDUCED 25; DESIGN CHOICE 18) -/

namespace Sys2Proof.Machine

/-! ### Flit slots (R67, R68, R78) -/

/-- Count a packet ended or dropped by R68 or R82 in its wing; the Twin port has no wing register. -/
def State.truncation (s : State) (l : Nat) : State :=
  if l = twinLink then s else s.bump F.XBR_WAITS_TRUNCATIONS (wingOf l)

def State.portDrop (s : State) (l : Nat) : State :=
  if l = twinLink then s else s.bump F.PRT_EVENTS_DROPS l

def State.vcIn (s : State) (l vc : Nat) : VcIn := (s.port l).vcIn.getD vc .idle

def State.setVcIn (s : State) (l vc : Nat) (v : VcIn) : State :=
  s.modPort l fun p => { p with vcIn := setVc p.vcIn vc v }

/-- End the packet in progress on a VC with a TRUNCATED trailer (R68). -/
def State.truncate (s : State) (l : Link) (vc : Nat) (v : VcIn) : State :=
  ((s.setVcIn l.val vc v).truncation l.val).emit (.truncated l vc)

/-- A slot whose CHECK fails: dropped whole and counted; every packet in progress is ended (R68). -/
def State.badSlot (s : State) (l : Link) : State :=
  (List.range 8).foldl (fun t vc => if t.vcIn l.val vc = .inPacket then t.truncate l vc .dropping else t)
    (s.portDrop l.val)

/-- Return a buffer to the peer at once. -/
def State.freeBuffers (s : State) (l : Link) (vc n : Nat) : State :=
  let cap := (rxCap (s.linkMode l.val)).getD vc 0
  (s.modPort l.val fun p => { p with rxFree := setVc p.rxFree vc (min cap (p.rxFree.getD vc 0 + n)) }).emit (.credits l vc n)
where
  /-- The receive buffers of Table 4.6. -/
  rxCap (mode : Nat) : List Nat :=
    if mode = PM_EDGE then [32, 132, 132, 132, 132, 264, 0, 66] else [32, 132, 132, 132, 132, 264, 66, 66]

/-- The framing of one flit that arrived whole with a credit (R68): header 1, payload 2, trailer 3. -/
def State.frameFlit (s : State) (l : Link) (vc kind : Nat) : State :=
  match kind, s.vcIn l.val vc with
  | 1, .inPacket => s.truncate l vc .inPacket
  | 1, _ => s.setVcIn l.val vc .inPacket
  | 2, .inPacket => s
  | 2, .idle => ((s.setVcIn l.val vc .dropping).truncation l.val).freeBuffers l vc 1
  | 2, .dropping => s.freeBuffers l vc 1
  | _, .inPacket => s.setVcIn l.val vc .idle
  | _, .idle => (s.truncation l.val).freeBuffers l vc 1
  | _, .dropping => (s.setVcIn l.val vc .idle).freeBuffers l vc 1

/-- A flit with or without a receive buffer (R78). -/
def State.takeFlit (s : State) (l : Link) (vc kind : Nat) : State :=
  if (s.port l.val).rxFree.getD vc 0 = 0 then
    let s1 := s.portDrop l.val
    if s1.vcIn l.val vc = .inPacket then s1.truncate l vc .dropping else s1
  else
    (s.modPort l.val fun p => { p with rxFree := setVc p.rxFree vc (p.rxFree.getD vc 0 - 1) }).frameFlit l vc kind

/-- The CHECK of a slot (Table 4.1, R68): CRC-16 over the flit and bits 15:0 of the link word. -/
def slotCheck (word : BitVec 32) (flit : List Byte) : Bool :=
  crc16 (flit ++ leBytes 2 (word.toNat % 65536)) == word.extractLsb' 16 16

/-- Credits returned on a link are added to the sender's counters, and waiting packets move (R78, R79). -/
def State.addCredits (s : State) (l : Link) (vc n : Nat) : State :=
  if n = 0 then s
  else (s.modPort l.val fun p => { p with txCredits := setVc p.txCredits vc (p.txCredits.getD vc 0 + n) }).serve l vc

/-- FLIT_RECEIVE (R67, R68, R78, R79). -/
def execFlitReceive (l : Link) (word : BitVec 32) (flit : List Byte) (s : State) : Out :=
  act s fun s =>
    if s.linkState l.val < PS_QUARANTINE ∨ PS_UP < s.linkState l.val ∨ (s.port l.val).narrowing then s
    else if slotCheck word flit = false then s.badSlot l
    else
      let w := word.toNat
      let s1 := s.addCredits l (w / 2 ^ 9 % 8) (w / 2 ^ 12 % 16)
      let kind := w / 8 % 4
      if kind = 0 then s1 else s1.takeFlit l (w % 8) kind

/-! ### Forwarding (R57, R74, R76) -/

/-- MGMT messages that pass a QUARANTINE or STRANGER port (R57). -/
def discoveryMsg (m : Nat) : Bool := [0x01, 0x02, 0x04, 0x10, 0x11].contains m

/-- What a port state passes (Table 3.6). -/
def statePasses (state : Nat) (p : Packet) : Bool :=
  let m := (p.payload.head?.map (·.toNat)).getD 0
  if state = PS_UP then true
  else if state = PS_QUARANTINE then p.kind.val == 0x30 && discoveryMsg m
  else if state = PS_STRANGER then p.kind.val == 0x30 && (discoveryMsg m || (decide (0x30 ≤ m) && decide (m ≤ 0x3F)))
  else false

/-- PACKET_FORWARD (R57, R74, R76): a packet whose header flit arrives on a fabric link or the Twin port. -/
def execPacketForward (l : Link) (p : Packet) (s : State) : Out :=
  act s fun s =>
    if s.linkMode l.val ≠ PM_FABRIC then s
    else
      let s1 := s.freeBuffers l p.vc.val (p.payFlits.val + 2)
      if statePasses (s1.linkState l.val) p = false then s1.portDrop l.val
      else
        let wing := if l.val = twinLink then 0 else wingOf l.val
        if hdrCrcOf p ≠ p.hdrCrc then s1.bump F.XBR_HDR_ERR_HDR_CRC wing
        else if s1.noKey p.slice.val then s1.bump F.SEC_SEAL_EVENTS_NO_KEY_DROPS
        else (s1.sealArrive l.val p).switchPacket wing p

/-! ### Delivery (R74, R77, R87) -/

/-- The wing a delivery is counted on (R415): the edge port's, the unit's, or for the Thorax that of the port or unit the
packet comes from. -/
def deliveryWing (src : Nat) (d : Delivery) : Nat :=
  match d with
  | .edge p => wingOf p.val
  | .unit u => if u.val = 0x80 then (if src < 128 then wingOf src else unitWing src) else unitWing u.val

/-- Kinds that are bound to a context by the packet itself: all but management, service, grants and Skipper messages. -/
def ctxKind (kind : Nat) : Bool := [0x01, 0x02, 0x03, 0x04, 0x05, 0x06, 0x10, 0x11].contains kind

/-- The three answers of the binding check. -/
inductive Bound where
  /-- No context is checked, or a record took the check's place. -/
  | passed
  /-- The context is checked: its current epoch must match. -/
  | checkEpoch
  | notBound
  | noRecord
deriving DecidableEq, Repr

/-- An ACK covers copies of a unit (R77): a stream of the same ends, context and epoch. -/
def State.ackMatches (s : State) (unit : Nat) (p : Packet) : Bool :=
  s.net.copies.any fun c => c.key == receivedKey unit p

/-- Where the reply comes from fits the target of a request: the unit itself, or the Thorax agent on an endpoint's behalf
(R255). -/
def replyFrom (p : Packet) (chip unit : Nat) : Bool :=
  p.srcChip.val == chip && (p.srcUnit.val == unit || p.srcUnit.val == 0x80)

/-- The READ_REQ of a unit that a READ_RESP answers (R77): REQ_SEQ, CONTEXT and EPOCH. -/
def State.readFor (s : State) (unit : Nat) (p : Packet) : Option PendingRead :=
  s.net.reads.find? fun r => r.unit == unit && r.seq == p.arg.toNat % 2 ^ 32 && r.ctx == p.ctx.val
    && r.epoch == p.epoch.val && replyFrom p r.chip (addrUnit r.addr)

/-- The WRITE of a unit that a refusal reply answers (R77, R258). -/
def State.writeFor (s : State) (unit : Nat) (p : Packet) : Option Copy :=
  s.net.copies.find? fun c => c.key.unit == unit && (c.pkt.kind.val == 0x01 || c.pkt.kind.val == 0x11)
    && c.pkt.seq.toNat == p.arg.toNat % 2 ^ 32 && c.key.ctx == p.ctx.val && c.key.epoch == p.epoch.val
    && replyFrom p c.key.chip c.key.peer

/-- A READ_RESP answers a request that the unit sent (R77). -/
def State.readMatches (s : State) (unit : Nat) (p : Packet) : Bool :=
  (s.readFor unit p).isSome || (s.writeFor unit p).isSome

/-- An ACK to an endpoint names one of its window streams (R416). -/
def State.winStreamOf (s : State) (port chip unit ctx epoch : Nat) : Option WinStream :=
  (s.ep port).streams.find? fun w => w.chip == chip && w.unit == unit && w.ctx == ctx && w.epoch == epoch

/-- Step 2 of R77. -/
def State.bindCheck (s : State) (d : Delivery) (p : Packet) : Bound :=
  match d with
  | .edge port =>
    if p.kind.val = 0x30 then .passed
    else if (p.kind.val = 0x01 ∨ p.kind.val = 0x02) ∧ isWindow p.arg.toNat then .passed
    else if (s.binding p.ctx.val port.val).isSome then .checkEpoch
    else if p.kind.val = 0x05 then
      if (s.winStreamOf port.val p.srcChip.val p.srcUnit.val p.ctx.val p.epoch.val).isSome then .passed else .notBound
    else .notBound
  | .unit u =>
    if !ctxKind p.kind.val then .passed
    else if p.kind.val = 0x05 then (if s.ackMatches u.val p then .passed else .noRecord)
    else if p.kind.val = 0x03 then (if s.readMatches u.val p then .passed else .noRecord)
    else if u.val < 0x85 then .passed
    else if p.srcChip.val = s.chip then
      if p.srcUnit.val < 128 then
        (if (s.binding p.ctx.val p.srcUnit.val).isSome then .checkEpoch else .notBound)
      else if s.ctxState p.ctx.val = 0 then .notBound else .checkEpoch
    else .passed

/-! ### Doorbells: the checks (R146) -/

/-- Check 1 of R146. -/
def State.dbBound (s : State) (src : DbSource) (q : Nat) : Bool :=
  s.fld F.QUE_CFG_STATE q != 0 &&
  match src with
  | .endpoint chip port ctx epoch =>
    chip.val == s.chip && ctx.val == s.queueCtx q && (s.binding ctx.val port.val).isSome
    && epoch.val == s.ctxEpoch ctx.val
  | .controlNode => !s.isSealed (s.ctxSlice (s.queueCtx q))

/-- The two checks of R146, each with its counter, and the effect. -/
def State.doorbell (s : State) (src : DbSource) (q : Nat) (ok : Bool) (f : State → State) : State :=
  let w := q / 4096
  if s.dbBound src q = false then s.bump F.QUE_DROPS_DB_NOT_BOUND w
  else if ok = false then s.bump F.QUE_DROPS_DB_BAD_INDEX w
  else f s

/-- A DOORBELL packet whose OP is reserved fails check 2 of R146. -/
def State.reservedDoorbell (s : State) (p : Packet) : State :=
  s.doorbell (.endpoint p.srcChip (Fin.ofNat 128 p.srcUnit.val) p.ctx p.epoch) (getBits p.arg 32 14) false id

/-- Hand a packet to its consumer at a unit: end-to-end check, duplicates, acknowledgement (R74, R87). A Nectar controller
marks a write received only once it has applied it (R258). -/
def State.consume (s : State) (wing : Nat) (u : Nat) (p : Packet) : State :=
  if p.truncated ∨ e2eCrcOf p ≠ p.e2eCrc then s.bump F.EDG_E2E_CHECK_FAILS wing
  else if tracked p.kind.val then
    let r := s.receivedOf (receivedKey u p)
    match arrivalOf r p.seq with
    | .fresh =>
      if 0x89 ≤ u ∧ (p.kind.val = 0x01 ∨ p.kind.val = 0x11) then s.emit (.handed (.unit (Fin.ofNat 256 u)) p)
      else
        let s1 := s.setReceived (noteReceived r p.seq)
        let s2 := if p.kind.val = 0x04 ∧ getBits p.arg 46 2 = 3 then s1.reservedDoorbell p
          else s1.emit (.handed (.unit (Fin.ofNat 256 u)) p)
        if p.ackSoon then s2.ackStream (receivedKey u p) p.slice.val else s2
    | .duplicate => (s.setReceived { r with owed := true }).bump F.EDG_E2E_DUPLICATES wing
    | .beyond => s.bump F.EDG_E2E_DUPLICATES wing
  else s.emit (.handed (.unit (Fin.ofNat 256 u)) p)

/-- A packet of a sealed slice waits at its unit until the SEAL set of its interval has verified (R302). -/
def State.holdSealed (s : State) (u : Nat) (p : Packet) : State :=
  { s with sec := { s.sec with held := s.sec.held ++ [(u, p)] } }

/-- A packet number is covered by an ACK of base `b` and map `m` (R87, R88). -/
def ackCovers (b : BitVec 32) (m : Nat) (seq : BitVec 32) : Bool :=
  let d := (seq - b).toInt
  decide (d < 0) || (decide (d < 512) && m.testBit d.toNat)

/-- Remove numbers that an ACK of base and map covers. -/
def uncovered (b : BitVec 32) (m : Nat) (l : List Nat) : List Nat :=
  l.filter fun n => !ackCovers b m (BitVec.ofNat 32 n)

/-- Free the window streams with nothing outstanding either way (R416). -/
def settleStreams (ws : List WinStream) : List WinStream := ws.filter fun w => !(w.toEp.isEmpty && w.toReq.isEmpty)

/-- A packet goes out to the endpoint of an edge port: HDR_CRC is recomputed (R77); a GRANT to the endpoint is kept for
its COLL_UP (R83), an ACK of its replies settles its window stream (R416). -/
def State.toEndpoint (s : State) (port : Port) (p : Packet) : State :=
  let s1 := if p.kind.val = 0x12 then s.modEp port.val fun e => { e with
      grants := (e.grants.filter fun g => !(g.ctx == p.ctx.val && g.handle == p.arg)) ++
        [⟨p.ctx.val, p.arg, p.srcChip.val, p.srcUnit.val⟩] }
    else s
  let s2 := if p.kind.val = 0x05 then s1.modEp port.val fun e => { e with
      streams := settleStreams (e.streams.map fun w =>
        if w.chip = p.srcChip.val ∧ w.unit = p.srcUnit.val ∧ w.ctx = p.ctx.val ∧ w.epoch = p.epoch.val
        then { w with toReq := uncovered (BitVec.ofNat 32 p.arg.toNat) (ofLe (p.payload.take 64)) w.toReq } else w) }
    else s1
  s2.output ⟨port.val, Nat.lt_trans port.isLt (by decide)⟩ { p with hdrCrc := hdrCrcOf p }

/-- PACKET_DELIVER (R77): DST_CHIP, binding and epoch in this order, then the hand-over. A window request goes to the
checks of R255. -/
def execPacketDeliver (src : Fin 256) (d : Delivery) (p : Packet) (s : State) : Out :=
  act s fun s =>
    let wing := deliveryWing src.val d
    if ¬(p.dstChip.val = s.chip ∨ (p.dstChip.val = 0xFFFF ∧ p.vc.val = 0)) then s.bump F.XBR_HDR_ERR_MISDELIVERED wing
    else
      match s.bindCheck d p with
      | .notBound => s.bump F.EDG_DROPS_NOT_BOUND wing
      | .noRecord => s.bump F.EDG_DROPS_STALE_EPOCH wing
      | b =>
        if b = .checkEpoch ∧ p.epoch.val ≠ s.ctxEpoch p.ctx.val then s.bump F.EDG_DROPS_STALE_EPOCH wing
        else
          match d with
          | .unit u => if s.sealDeps p = [] then s.consume wing u.val p else s.holdSealed u.val p
          | .edge port =>
            if (p.kind.val = 0x01 ∨ p.kind.val = 0x02) ∧ isWindow p.arg.toNat then s.emit (.handed d p)
            else s.toEndpoint port p

/-! ### Waits and audits (R79, R82) -/

/-- The wing of an output for the counters of R82. -/
def outWing (l : Link) : Nat := if l.val = twinLink then 0 else wingOf l.val

/-- The first waiting packet of an output and VC has waited more than two wingbeats (R82). -/
def State.waitedOver (s : State) (out : Link) (vc : Nat) : Option Waiting :=
  match s.net.waiting.find? fun w => w.out == out && w.pkt.vc.val == vc with
  | some w => if 2 * s.lenFtu < (s.ftu - w.since).toNat then some w else none
  | none => none

/-- Take the first waiting packet of an output and VC away. -/
def dropFirst (ws : List Waiting) (w : Waiting) : List Waiting := ws.erase w

/-- CREDIT_WAIT_ESCAPE (R82): a header on VC1 to VC6 moves to VC7 on the same path. -/
def execCreditWaitEscape (out : Link) (vc : Fin 8) (s : State) : Out :=
  act s fun s =>
    match s.waitedOver out vc.val with
    | some w =>
      if w.headed = false ∧ 1 ≤ vc.val ∧ vc.val ≤ 6 then
        let s1 := { s with net := { s.net with
          waiting := dropFirst s.net.waiting w ++ [{ w with pkt := { w.pkt with vc := 7 }, since := s.ftu }] } }
        (s1.bump F.XBR_WAITS_ESCAPES (outWing out)).serve out 7
      else s
    | none => s

/-- CREDIT_WAIT_DROP (R82): a header on VC0 or VC7, or a payload or trailer flit, is dropped; the latter ends its packet
with TRUNCATED. -/
def execCreditWaitDrop (out : Link) (vc : Fin 8) (s : State) : Out :=
  act s fun s =>
    match s.waitedOver out vc.val with
    | some w =>
      let s1 := { s with net := { s.net with waiting := dropFirst s.net.waiting w } }
      if w.headed then
        ((s1.bump F.XBR_WAITS_WAIT_DROPS (outWing out)).truncation out.val).emit (.truncated out vc.val)
      else if vc.val = 0 ∨ vc.val = 7 then s1.bump F.XBR_WAITS_WAIT_DROPS (outWing out)
      else s
    | none => s

/-- CREDIT_AUDIT_SEND (R79): the free-buffer counts of a link. -/
def execCreditAuditSend (l : Link) (s : State) : Out :=
  act s fun s =>
    if s.linkState l.val = PS_UP then s.emit (.linkMgmt l (.creditAudit (s.port l.val).rxFree)) else s

/-- CREDIT_AUDIT_RECEIVE (R79): raise the counters by any shortfall. -/
def execCreditAuditReceive (l : Link) (free : List Nat) (s : State) : Out :=
  act s fun s =>
    if s.linkState l.val = PS_UP then
      (List.range 8).foldl (fun t vc =>
        t.addCredits l vc (free.getD vc 0 - (t.port l.val).txCredits.getD vc 0)) s
    else s

/-! ### Acknowledgement and resend (R87, R88) -/

/-- The slice a stream's ACK carries: that of a context of this chip. -/
def State.streamSlice (s : State) (ctx : Nat) : Nat := s.ctxSlice ctx

/-- ACK_SEND (R87): one ACK for a stream with arrivals. -/
def execAckSend (unit : Fin 256) (chip : Chip) (peer : Fin 256) (ctx : Ctx) (epoch : Fin 256) (s : State) : Out :=
  act s fun s =>
    let k : StreamKey := ⟨unit.val, chip.val, peer.val, ctx.val, epoch.val⟩
    if (s.receivedOf k).owed then s.ackStream k (s.streamSlice ctx.val) else s

/-- A refusal reply of this unit is acknowledged (R258): the refused WRITE now counts as received, or the marker of a window
request may be delivered. The reply is known by its SEQ and destination. -/
def State.replyAcked (s : State) (unit : Nat) (p : Packet) : State :=
  if unit = 0x80 then
    (s.eps.map (·.1)).foldl (fun t port => t.modEp port fun e => { e with
      refused := e.refused.map fun x =>
        if x.reply = p.seq.toNat ∧ x.pkt.srcChip = p.dstChip ∧ x.pkt.srcUnit = p.dstUnit ∧ x.pkt.ctx = p.ctx
            ∧ x.pkt.epoch = p.epoch then { x with acked := true } else x }) s
  else
    match s.pool.refusals.find? fun r => r.home == unit && r.chip == p.dstChip.val && r.unit == p.dstUnit.val
        && r.ctx == p.ctx.val && r.reply == p.seq.toNat with
    | some r =>
      let k : StreamKey := ⟨unit, r.chip, r.unit, r.ctx, r.epoch⟩
      let s1 := { s with pool := { s.pool with refusals := s.pool.refusals.erase r } }
      s1.setReceived (noteReceived (s1.receivedOf k) (BitVec.ofNat 32 r.seq))
    | none => s

/-- ACK_RECEIVE (R88): the copies covered are freed, and packets that waited for room start. -/
def execAckReceive (unit : Fin 256) (p : Packet) (s : State) : Out :=
  act s fun s =>
    let b := BitVec.ofNat 32 p.arg.toNat
    let m := ofLe (p.payload.take 64)
    let k := receivedKey unit.val p
    let freed := s.net.copies.filter fun c => c.key == k && ackCovers b m c.pkt.seq
    let s1 := { s with net := { s.net with
      copies := s.net.copies.filter fun c => !(c.key == k && ackCovers b m c.pkt.seq) } }
    let s2 := freed.foldl (fun t c => match c.cmd with | some g => t.tagLanded g | none => t) s1
    (freed.foldl (fun (t : State) c => if c.pkt.kind.val = 0x03 then t.replyAcked k.unit c.pkt else t) s2).pump

/-- The copy a source unit keeps under a stream's ends, context and SEQ. -/
def State.copyOf (s : State) (unit chip peer ctx : Nat) (seq : BitVec 32) : Option Copy :=
  s.net.copies.find? fun c =>
    c.key.unit == unit && c.key.chip == chip && c.key.peer == peer && c.key.ctx == ctx && c.pkt.seq == seq

/-- Two wingbeats have passed since the copy's last transmission, and its slice runs (R88, R94). -/
def State.copyDue (s : State) (c : Copy) : Bool :=
  s.reached (c.sentAt + 2#48) && !s.sliceStopped c.pkt.slice.val

/-- RESEND_TIMEOUT (R88): resend on the current path; SEQ and E2E_CRC are kept. -/
def execResendTimeout (unit : Fin 256) (chip : Chip) (peer : Fin 256) (ctx : Ctx) (seq : BitVec 32) (s : State) : Out :=
  act s fun s =>
    match s.copyOf unit.val chip.val peer.val ctx.val seq with
    | some c =>
      if s.copyDue c ∧ c.resends < 4 then
        let s1 := { s with net := { s.net with
          copies := s.net.copies.map fun q => if q = c then { c with sentAt := s.wb, resends := c.resends + 1 } else q } }
        (s1.bump F.EDG_E2E_RESENDS (sourceWing unit.val c.pkt.path)).transmit unit.val c.pkt
      else s
    | none => s

end Sys2Proof.Machine
end

