-- ==== Sys2Proof/Machine/Edge.lean ====
section
/-! DEFINITION. Sys2Proof/Machine/Edge.lean: rank translation at the edge port (R70 to R72, R89, R304, R416).
(log entries of this file: DEDUCED 28) -/

namespace Sys2Proof.Machine

/-- The VC and payload range of a kind an endpoint may send (Table 4.3). -/
def endpointKindOk (p : Packet) : Bool :=
  let vc := p.vc.val
  let n := p.payFlits.val
  match p.kind.val with
  | 0x01 => (vc == 1 || vc == 5) && decide (1 ≤ n) && decide (n ≤ 64)
  | 0x02 => vc == 1 && n == 0
  | 0x03 => vc == 2 && decide (1 ≤ n) && decide (n ≤ 64)
  | 0x04 => vc == 1 && n == 0
  | 0x05 => vc == 2 && n == 1
  | 0x06 => (if p.tc.val = 1 then vc == 1 else vc == 5) && decide (n ≤ 64)
  | 0x10 => vc == 3 && decide (1 ≤ n) && decide (n ≤ 64)
  | 0x30 => vc == 0 && decide (n ≤ 64)
  | _ => false

/-- The fields the edge port fills are zero in an endpoint's packet (Tables 4.2 and 5.9). -/
def edgeFieldsZero (p : Packet) : Bool :=
  p.hopPtr.val == 0 && p.hopCount.val == 0 && p.slice.val == 0 && p.srcChip.val == 0 && p.dstChip.val == 0
  && p.srcUnit.val == 0 && p.dstUnit.val == 0 && p.srcRank.val == 0 && p.sendTime == 0 && p.path.all fun b => b.val == 0

/-- Step 1 of R89. -/
def edgeStep1 (p : Packet) : Bool :=
  hdrCrcOf p == p.hdrCrc && endpointKindOk p && decide (p.tc.val ≤ 1) && p.resvZero && edgeFieldsZero p

/-- The EDG_DROPS fields of R89. -/
inductive EdgeDrop where
  | badHeader
  | notBound
  | staleEpoch
  | noRoute
deriving DecidableEq, Repr

def edgeDropField (d : EdgeDrop) : Fld :=
  match d with
  | .badHeader => F.EDG_DROPS_BAD_HEADER
  | .notBound => F.EDG_DROPS_NOT_BOUND
  | .staleEpoch => F.EDG_DROPS_STALE_EPOCH
  | .noRoute => F.EDG_DROPS_NO_ROUTE

/-- What step 2 finds: the slice and rank the packet takes, and whether a window stream stood in for the binding. -/
structure EdgeSource where
  slice : Nat
  rank : Nat
deriving DecidableEq, Repr

/-- A window read request delivered to this endpoint and not yet answered (R255), by requester and SEQ. -/
def State.winReadOf (s : State) (port : Nat) (arg : Nat) : Option WinRead :=
  (s.ep port).reads.find? fun r => r.chip == arg / 2 ^ 48 % 65536 && r.unit == arg / 2 ^ 40 % 256 && r.seq == arg % 2 ^ 32

/-- Steps 2 and 3 of R89. -/
def State.edgeStep2 (s : State) (port : Nat) (p : Packet) : Except EdgeDrop EdgeSource :=
  if p.kind.val = 0x03 then
    match s.winReadOf port p.arg.toNat with
    | none => .error .badHeader
    | some r => if r.ctx = p.ctx.val ∧ r.epoch = p.epoch.val then .ok ⟨r.slice, 0xFFFF⟩ else .error .badHeader
  else
    match s.binding p.ctx.val port with
    | some b => if p.epoch.val = s.ctxEpoch p.ctx.val then .ok ⟨s.ctxSlice p.ctx.val, b.rank⟩ else .error .staleEpoch
    | none =>
      if p.kind.val = 0x05 then
        match s.winStreamOf port (p.arg.toNat / 2 ^ 48 % 65536) (p.arg.toNat / 2 ^ 40 % 256) p.ctx.val p.epoch.val with
        | some w => .ok ⟨w.slice, 0xFFFF⟩
        | none => .error .badHeader
      else .error .notBound

/-- The unit that a DOORBELL word leads to: the Nectar controller of the queue's wing (R145). -/
def doorbellUnit (arg : Nat) : Nat := 0x89 + arg / 2 ^ 32 % 16384 / 4096

/-- Step 4 of R89: the destination chip and unit. -/
def State.edgeStep4 (s : State) (port : Nat) (p : Packet) : Except EdgeDrop (Nat × Nat) :=
  let a := p.arg.toNat
  if p.kind.val = 0x10 then
    match (s.ep port).grants.find? fun g => g.ctx == p.ctx.val && g.handle == p.arg with
    | some g => .ok (g.chip, g.unit)
    | none => .error .badHeader
  else if p.addrMode.val = 0 then
    match (((s.ctx p.ctx.val).ranks[p.dstRank.val]?).bind rankEntry) with
    | some (c, u) => .ok (c, u)
    | none => .error .noRoute
  else if 0xFFFE ≤ addrChip a then .error .badHeader
  else
    let unit := match p.kind.val with
      | 0x03 => a / 2 ^ 40 % 256
      | 0x05 => a / 2 ^ 40 % 256
      | 0x04 => doorbellUnit a
      | _ => addrUnit a
    .ok (addrChip a, unit)

/-- The window tables follow a packet that passed step 2: a READ_RESP ends its entry and is owed an ACK by the requester,
an ACK settles what the endpoint has acknowledged (R255, R416). -/
def State.edgeWindows (s : State) (port : Nat) (p : Packet) : State :=
  let a := p.arg.toNat
  let chip := a / 2 ^ 48 % 65536
  let unit := a / 2 ^ 40 % 256
  if p.kind.val = 0x03 then
    s.modEp port fun e => { e with
      reads := e.reads.filter fun r => !(r.chip == chip && r.unit == unit && r.seq == a % 2 ^ 32)
      streams := e.streams.map fun w =>
        if w.chip = chip ∧ w.unit = unit ∧ w.ctx = p.ctx.val ∧ w.epoch = p.epoch.val
        then { w with toReq := w.toReq ++ [p.seq.toNat] } else w }
  else if p.kind.val = 0x05 then
    let b := BitVec.ofNat 32 a
    let m := ofLe (p.payload.take 64)
    s.modEp port fun e => { e with
      refused := e.refused.filter fun x => !(x.sent && x.pkt.srcChip.val == chip && x.pkt.srcUnit.val == unit
        && x.pkt.ctx == p.ctx && x.pkt.epoch == p.epoch && ackCovers b m x.pkt.seq)
      streams := settleStreams (e.streams.map fun w =>
        if w.chip = chip ∧ w.unit = unit ∧ w.ctx = p.ctx.val ∧ w.epoch = p.epoch.val
        then { w with toEp := uncovered b m w.toEp } else w) }
  else s

/-- Steps 5 and 6 of R89: the path, SEND_TIME less the link delay, HDR_CRC, and the switch. ACK_SOON and REFUSED of an
endpoint's trailer are cleared (R87). -/
def State.edgeSend (s : State) (port : Nat) (p : Packet) (src : EdgeSource) (dst : Nat × Nat) : State :=
  match s.routeTo dst.1 with
  | none => s.bump F.EDG_DROPS_NO_ROUTE (wingOf port)
  | some r =>
    let path := composePath r dst.2
    let start := BitVec.ofInt 64 ((s.ftu.toNat : Int) - (s.port port).time.delay)
    let p1 := { p with
      slice := Fin.ofNat 1024 src.slice, srcRank := Fin.ofNat 65536 src.rank
      srcChip := Fin.ofNat 65536 s.chip, srcUnit := Fin.ofNat 256 port
      dstChip := Fin.ofNat 65536 dst.1, dstUnit := Fin.ofNat 256 dst.2
      path := path, hopCount := Fin.ofNat 16 path.length, hopPtr := 0
      sendTime := start.truncate 40, ackSoon := false, refused := false }
    (s.sealArrive port p1).switchPacket (wingOf port) { p1 with hdrCrc := hdrCrcOf p1 }

/-- The management messages an endpoint may send (R122). -/
def endpointMsg (p : Packet) : Bool := [0x04, 0x11, 0x12, 0x14].contains ((p.payload.head?.map (·.toNat)).getD 0)

/-! ### STRICT slices (R304) -/

/-- Flit slots of an edge port that the running bouquets of a slice claim for its endpoint in this wingbeat: 66 a unit (R29). -/
def State.claimSlots (s : State) (port slice : Nat) : Nat :=
  66 * ((s.hawk.parts.filter fun b => b.slice == slice && b.state == 2 && s.reached b.start).map fun b =>
    unitsAt [b.bq] s.chip port 1 (s.wb - b.start).toNat).sum

def State.claimUse (s : State) (port slice : Nat) : Nat :=
  ((s.net.claimUsed.filter fun x => x.1 == port && x.2.1 == slice).map (·.2.2)).sum

/-- The kinds that carry a slice's data (Table 4.3). -/
def dataKind (k : Nat) : Bool := k == 0x01 || k == 0x03 || k == 0x06 || k == 0x10

/-- The slice is sealed STRICT on this chip. -/
def State.isStrict (s : State) (slice : Nat) : Bool := s.isSealed slice && s.flag F.SEC_SLICE_STATUS_STRICT slice

/-- A data packet of a STRICT slice waits at its edge port: it is not of TC 1, its wingbeat's claim has no room left for it, or one
before it waits. -/
def State.claimWaits (s : State) (port slice : Nat) (p : Packet) : Bool :=
  s.isStrict slice && dataKind p.kind.val
  && (p.tc.val != 1 || decide (s.claimSlots port slice < s.claimUse port slice + p.payFlits.val + 2)
    || s.net.claimHeld.any fun h => h.1.val == port && h.2.tc.val == 1 && h.2.ctx == p.ctx)

/-- The packet uses its slots of the claim. -/
def State.useClaim (s : State) (port slice : Nat) (p : Packet) : State :=
  s.when (s.isStrict slice && dataKind p.kind.val) fun s =>
    { s with net := { s.net with claimUsed := s.net.claimUsed ++ [(port, slice, p.payFlits.val + 2)] } }

/-- The six steps of R89 on a packet of an endpoint; a packet of a stopped slice is held (R94), and so is one of a STRICT slice beyond
its claim (R304). -/
def State.ingress (s : State) (port : Port) (p : Packet) : State :=
  let drop := fun (d : EdgeDrop) => s.bump (edgeDropField d) (wingOf port.val)
  if (s.forwardOnly ∧ p.kind.val ≠ 0x30) ∨ edgeStep1 p = false then drop .badHeader
  else if p.kind.val = 0x30 ∧ endpointMsg p = false then drop .badHeader
  else if p.kind.val = 0x30 then s.emit (.arrived (.unit 0x80) { p with srcUnit := Fin.ofNat 256 port.val })
  else
    match s.edgeStep2 port.val p with
    | .error d => drop d
    | .ok src =>
      if s.noKey src.slice then s.bump F.SEC_SEAL_EVENTS_NO_KEY_DROPS
      else if s.sliceStopped src.slice then { s with net := { s.net with held := s.net.held ++ [(port, p)] } }
      else if s.claimWaits port.val src.slice p then
        { s with net := { s.net with claimHeld := s.net.claimHeld ++ [(port, p)] } }
      else
        match s.edgeStep4 port.val p with
        | .error d => drop d
        | .ok dst => ((s.useClaim port.val src.slice p).edgeWindows port.val p).edgeSend port.val p src dst

/-- A wingbeat begins: its claims are unused, and the packets that wait for one come again in order (R304). -/
def State.freshClaims (s : State) : State :=
  s.net.claimHeld.foldl (fun t q => t.ingress q.1 q.2) { s with net := { s.net with claimHeld := [], claimUsed := [] } }

/-- EDGE_INGRESS (R89). -/
def execEdgeIngress (port : Port) (p : Packet) (s : State) : Out :=
  act s fun s =>
    if s.fld F.PRT_CTL_MODE port.val ≠ PM_EDGE then s
    else if statePasses (s.linkState port.val) p then
      (s.freeBuffers ⟨port.val, Nat.lt_trans port.isLt (by decide)⟩ p.vc.val (p.payFlits.val + 2)).ingress port p
    else s.portDrop port.val

end Sys2Proof.Machine
end

