-- ==== Sys2Proof/Machine/Ports.lean ====
section
/-! DEFINITION. Sys2Proof/Machine/Ports.lean: port modes, loss of link, lane narrowing, the identity exchange,
qualification and the FROZEN set (R47 to R61).
(log entries of this file: DEDUCED 24; DESIGN CHOICE 10, 127) -/

namespace Sys2Proof.Machine

/-! ### Port states and losses -/

def State.setCause (s : State) (l : Nat) (c : Nat) : State :=
  if l = twinLink then s.setFld F.TWN_PORT_STATUS_QUAL_CAUSE 0 c else s.setFld F.PRT_STATUS_QUAL_CAUSE l c

def State.cause (s : State) (l : Nat) : Nat :=
  if l = twinLink then s.fld F.TWN_PORT_STATUS_QUAL_CAUSE else s.fld F.PRT_STATUS_QUAL_CAUSE l

def State.setReason (s : State) (l : Nat) (c : Nat) : State :=
  if l = twinLink then s else s.setFld F.PRT_STATUS_REASON l c

/-- The result of PORT_QUALIFY (Table 16.9): QUAL_CAUSE, PASS and the port STATE. -/
def State.qualValue (s : State) (l : Nat) : Nat :=
  s.cause l + 256 * s.fld F.PRT_QUAL_RESULT_PASS l + 65536 * s.linkState l

/-- A port reaches an outcome: a PORT_QUALIFY that waits on it posts its result (Table 16.9). -/
def State.outcome (s : State) (l : Nat) : State :=
  match (s.port l).qualRef with
  | some r => (s.modPort l fun p => { p with qualRef := none }).finishFw r ACK_OK (s.qualValue l)
  | none => s

/-- The receive buffers of Table 4.6 by VC, for a fabric or an edge port. -/
def rxBuffers (mode : Nat) : List Nat :=
  if mode = PM_EDGE then [32, 132, 132, 132, 132, 264, 0, 66] else [32, 132, 132, 132, 132, 264, 66, 66]

/-- A port enters UP: every receive buffer is returned as credit (R79). A shadow asks for a snapshot when the Twin port is UP
again (R128). -/
def State.enterUp (s : State) (l : Link) : State :=
  let rx := rxBuffers (s.linkMode l.val)
  let s1 := s.setLinkState l.val PS_UP
  let s2 := s1.modPort l.val fun p => { p with
    rxFree := rx, txCredits := List.replicate 8 0, vcIn := List.replicate 8 .idle, retrain := false, phase := 0 }
  let s3 := if s2.linkMode l.val = PM_SERVICE then s2
    else s2.emits ((List.range 8).map fun v => .credits l v (rx.getD v 0))
  let s4 := if l.val = twinLink ∧ s3.mgrState = MS_SHADOW then s3.askSnapshot else s3
  s4.outcome l.val

/-- The announcement that both ends of a lost link make (R93), and the chip's own entries at once. The Twin port is in no
route. -/
def State.announceLoss (s : State) (l : Nat) : State :=
  if l = twinLink then s
  else (s.linkLost s.chip l).sendMgmt 0xFFFF (.linkLoss (Fin.ofNat 65536 s.chip) l 0)

/-- A link goes out of service: lanes, credits and framing are gone, waiting packets on it are lost, the verdict is
discarded (R49, R79, Table 5.5). A shadow whose Twin port is lost stops being SYNCED (R128). -/
def State.dropLink (s : State) (l : Nat) (tgt : Nat) : State :=
  let s1 := (s.sealClear l).setLinkState l tgt
  let s2 := s1.setLinkWidth l 0
  let s3 := if l = twinLink then s2 else s2.setFld F.PRT_STATUS_PAIRS_OK l 0
  let s4 := s3.modPort l fun p => { p with
    failed := [], narrowing := false, phase := 0, verdict := none, peerPass := none, nbr := none, report := none,
    txCredits := List.replicate 8 0, rxFree := List.replicate 8 0, vcIn := List.replicate 8 .idle }
  let s5 := { s4 with net := { s4.net with waiting := s4.net.waiting.filter fun w => w.out.val != l } }
  if l = twinLink ∧ s5.mgrState = MS_SHADOW then s5.unsync false else s5

/-- Loss of link (R49): the port enters DOWN and retrains; a port that carried a trained state announces it, counts it and
writes LINK_LOSS. A port whose peer was frozen requalifies after it (R61). -/
def State.lossOfLink (s : State) (l : Nat) : State :=
  if s.linkState l < PS_TRAINING then s
  else if s.linkState l = PS_TRAINING then s.dropLink l PS_DOWN
  else
    let frozen := s.linkState l == PS_FROZEN_PEER
    let s1 := (s.dropLink l PS_DOWN).modPort l fun p => { p with
      retrain := true, lastQual := if frozen then none else p.lastQual }
    let s2 := if l = twinLink then s1 else s1.bump F.PRT_EVENTS_LOSSES l
    ((s2.announceLoss l).sillage 0x02 0x01 1 []).unclean

/-- LOSS_OF_LINK (R49). -/
def execLossOfLink (l : Link) (s : State) : Out := act s fun s => s.lossOfLink l.val

/-- The registers of a port that a PORT reset clears: those whose survival set leaves PORT out (Table 22.2). -/
def portRegs : List RegName :=
  [.PRT_STATUS, .PRT_PEER_ID, .PRT_PEER_SERIAL, .PRT_PEER_DEVICE, .PRT_QUAL_RESULT, .PRT_FEC_COUNT]

/-- A PORT reset (Table 18.1, R52): the link drops, earlier lane failures and the last qualification are forgotten, and
the port retrains. A port that carried a trained state announces the loss. -/
def State.portReset (s : State) (l : Nat) : State :=
  let wasUp := decide (PS_QUALIFYING ≤ s.linkState l)
  let keep := (s.port l).qualRef
  let s1 := s.dropLink l PS_DOWN
  let s2 := if l = twinLink then s1.setReg .TWN_PORT_STATUS 0 0
    else portRegs.foldl (fun t r => t.setReg r l (r.por l)) s1
  let s3 := s2.setPort l { PortSt.init with qualRef := keep }
  let s4 := s3.setLinkState l (if s3.linkMode l = PM_DISABLED then PS_DISABLED else PS_DOWN)
  let s5 := s4.bump F.RST_COUNTS_PORT
  if wasUp then s5.announceLoss l else s5

/-! ### Port commands (Tables 3.1 and 16.9) -/

/-- Ports that may be service ports (R47). -/
def servicePort (p : Nat) : Bool := p % 32 == 30 || p % 32 == 31

/-- PORT_MODE (R47): a mode change acts as a PORT reset of the port. -/
def execPortMode (r : FwRef) (port : Port) (mode : Fin 4) (s : State) : Out :=
  act s fun s =>
    if mode.val = PM_SERVICE ∧ servicePort port.val = false then s.finishFw r ACK_BAD_ARGUMENT 0
    else if s.portBusy port.val then s.finishFw r ACK_STATE 0
    else ((s.setFld F.PRT_CTL_MODE port.val mode.val).portReset port.val).finishFw r ACK_OK 0

/-- PORT_QUALIFY (R58, Table 16.9): a PORT reset and qualification in QUAL_TIME; the result follows the outcome. -/
def execPortQualify (r : FwRef) (port : Port) (time : Fin 1024) (s : State) : Out :=
  act s fun s =>
    if time.val < 1 ∨ 600 < time.val then s.finishFw r ACK_BAD_ARGUMENT 0
    else if s.portBusy port.val then s.finishFw r ACK_STATE 0
    else
      let s1 := (s.setFld F.PRT_CTL_QUAL_TIME port.val time.val).portReset port.val
      s1.modPort port.val fun p => { p with qualRef := some r }

/-- PORT_RESET (R52, Table 16.9): VALUE is the port STATE afterwards. -/
def execPortReset (r : FwRef) (port : Port) (twin : Bool) (s : State) : Out :=
  act s fun s =>
    let l := if twin then twinLink else port.val
    let s1 := s.portReset l
    s1.finishFw r ACK_OK (s1.linkState l)

/-- A port enters QUARANTINE; from UP its loss is announced (R57, Table 5.5). -/
def State.quarantine (s : State) (l : Nat) (reason : Nat) : State :=
  let wasUp := s.linkState l == PS_UP
  let s1 := (s.setLinkState l PS_QUARANTINE).setReason l reason
  let s2 := s1.modPort l fun p => { p with phase := 0 }
  (if wasUp then s2.announceLoss l else s2).outcome l

/-- PORT_QUARANTINE (Table 16.9): QUARANTINE with REASON 0x05. -/
def execPortQuarantine (r : FwRef) (port : Port) (s : State) : Out :=
  act s fun s => (s.quarantine port.val 0x05).finishFw r ACK_OK 0

/-! ### Lanes (R50 to R52, R60) -/

/-- The lane pairs that hold a failed lane. -/
def failedPairs (failed : List Nat) : List Nat := (List.range 4).filter fun q => failed.any fun x => x / 2 == q

/-- The PAIRS_OK field for the pairs kept. -/
def pairMask (kept : List Nat) : Nat := ((List.range 4).map fun q => if kept.contains q then 2 ^ q else 0).sum

/-- The pairs in use by PAIRS_OK. -/
def State.pairsOk (s : State) (l : Nat) : List Nat :=
  (List.range 4).filter fun q => (s.fld F.PRT_STATUS_PAIRS_OK l).testBit q

/-- A port cannot lock: its SerDes reference is lost (R396), or its AES engine is ABSENT (R376). -/
def State.dead (s : State) (l : Nat) : Bool :=
  s.power.refsLost.any (fun k => k.val == (if l = twinLink then 0 else l / 16))
  || l != twinLink && s.fld F.SPR_MAP_STATE (6 * 512 + wingOf l * 128 + l % 32) == 2

/-- LANE_LOCK (R50, R52, R53): lanes of a DOWN port lock; every lane is judged afresh, and the port trains at eight lanes,
at six, or not at all. The Twin port does not narrow (R66); a service port runs eight lanes and no IDENT (R48). -/
def execLaneLock (l : Link) (bad : List (Fin 8)) (s : State) : Out :=
  act s fun s =>
    let pairs := failedPairs (bad.map (·.val))
    if s.linkState l.val ≠ PS_DOWN ∨ s.linkMode l.val = PM_DISABLED ∨ s.dead l.val then s
    else if l.val = twinLink then
      if bad.isEmpty then (s.setLinkState l.val PS_TRAINING).setLinkWidth l.val 2 else s
    else if 2 ≤ pairs.length ∨ (s.linkMode l.val = PM_SERVICE ∧ pairs ≠ []) then s
    else
      let kept := (List.range 4).filter fun q => !pairs.contains q
      let s1 := (s.setFld F.PRT_STATUS_PAIRS_OK l.val (pairMask kept)).setLinkWidth l.val (2 * kept.length)
      let s2 := s1.modPort l.val fun p => { p with failed := bad.map (·.val) }
      if s2.linkMode l.val = PM_SERVICE then s2.enterUp l else s2.setLinkState l.val PS_TRAINING

/-- A port fails qualification: QUAL_FAIL with the cause, and its Sillage record (R59). No earlier qualification spares the
next one (R49). -/
def State.qualFail (s : State) (l : Nat) (c : Nat) : State :=
  let s1 := (s.setCause l c).setLinkState l PS_QUAL_FAIL
  let s2 := s1.modPort l fun p => { p with phase := 0, lastQual := none }
  let s3 := if l = twinLink then s2 else (s2.setFld F.PRT_QUAL_RESULT_DONE l 1).setFld F.PRT_QUAL_RESULT_PASS l 0
  (s3.sillage 0x02 0x03 1 [c]).unclean.outcome l

/-- The port narrows to the pairs kept (R51): flits stop and LANE_MAP names them. -/
def State.narrow (s : State) (l : Link) (kept : List Nat) : State :=
  let s1 := (s.setFld F.PRT_STATUS_PAIRS_OK l.val (pairMask kept)).setLinkWidth l.val 6
  let s2 := s1.modPort l.val fun p => { p with narrowing := true }
  (s2.bump F.PRT_EVENTS_NARROWINGS l.val).emit (.laneMap l kept)

/-- A lane fails (R50, R51, R59, R378): in a pair no longer in use it does not count; in qualification it fails the port; a
second pair, a service port or the Twin port loses the link; otherwise the port narrows. -/
def State.laneFail (s : State) (l : Link) (lane : Nat) : State :=
  if s.linkState l.val < PS_TRAINING then s
  else if l.val = twinLink then s.lossOfLink l.val
  else if !(s.pairsOk l.val).contains (lane / 2) then s
  else
    let s := s.appendDefect 0x08 l.val 6 lane
    if s.linkMode l.val = PM_SERVICE then s.lossOfLink l.val
    else if s.linkState l.val = PS_QUALIFYING then s.qualFail l.val QC_LANE_LOST
    else
    let s1 := s.modPort l.val fun p => { p with failed := p.failed ++ [lane] }
    if s.linkWidth l.val = 8 then s1.narrow l ((s.pairsOk l.val).filter (· != lane / 2))
    else s1.lossOfLink l.val

/-- LANE_FAIL (R50). -/
def execLaneFail (l : Link) (lane : Fin 8) (s : State) : Out := act s fun s => s.laneFail l lane.val

/-- Both ends stripe over six lanes: the new width goes to the Monarch and to Sillage (R51). -/
def State.narrowed (s : State) (l : Nat) : State :=
  let s1 := s.modPort l fun p => { p with narrowing := false }
  let s2 := (s1.sendMgmt 0xFFFF (.linkLoss (Fin.ofNat 65536 s.chip) l 1)).unclean.sillage 0x02 0x02 1 []
  (List.range 8).foldl (fun t vc => t.serve (Fin.ofNat 129 l) vc) s2

/-- LANE_MAP_RECEIVE (R51): an echo of the pairs kept ends the narrowing; a set from the peer narrows this end too and is
echoed; a set that leaves out a second pair loses the port. -/
def execLaneMapReceive (port : Port) (pairs : List (Fin 4)) (echo : Bool) (s : State) : Out :=
  act s fun s =>
    let l : Link := ⟨port.val, Nat.lt_of_lt_of_le port.isLt (by decide)⟩
    let kept := (List.range 4).filter fun q => pairs.any fun x => x.val == q
    if s.linkState l.val < PS_TRAINING ∨ kept.length ≠ 3 then s
    else if s.linkWidth l.val = 8 then
      if echo then s else ((s.narrow l kept).narrowed l.val)
    else if s.pairsOk l.val = kept then
      let s1 := if (s.port l.val).narrowing then s.narrowed l.val else s
      if echo then s1 else s1.emit (.laneMap l kept)
    else s.lossOfLink l.val

/-- BER_WINDOW_END (R60): corrected symbols and uncorrectable codewords are counted while UP, and R50 applies to each lane
above 1 × 10⁻⁴. -/
def execBerWindowEnd (port : Port) (errs : List Nat) (bits corrected uncorrectable : Nat) (s : State) : Out :=
  act s fun s =>
    let l : Link := ⟨port.val, Nat.lt_of_lt_of_le port.isLt (by decide)⟩
    if s.linkState l.val = PS_UP then
      let s1 := (s.bump F.PRT_FEC_COUNT_CORRECTED l.val corrected).bump F.PRT_FEC_COUNT_UNCORRECTABLE l.val uncorrectable
      (List.range 8).foldl (fun t lane => if bits < errs.getD lane 0 * 10000 then t.laneFail l lane else t) s1
    else s

/-! ### The identity exchange (R53 to R56) -/

/-- IDENT_SEND (R53): while training, the chip's identity, with ACK once the peer's IDENT is valid. -/
def execIdentSend (l : Link) (s : State) : Out :=
  act s fun s =>
    if s.linkState l.val = PS_TRAINING ∧ s.linkMode l.val ≠ PM_SERVICE then
      s.emit (.ident l {
        ack := (s.port l.val).peer.isSome
        endpoint := false
        chip := Fin.ofNat 65536 s.chip
        port := Fin.ofNat 256 l.val
        mode := Fin.ofNat 4 (s.linkMode l.val)
        efpMajor := 3
        efpMinor := Config.efpMinor
        fwBuild := BitVec.ofNat 32 (s.fld F.INS_IMAGE_ACTIVE_BUILD)
        serial := s.ownSerial.getD 0
        deviceId := s.reg .SEC_DEVICE_ID 0
        features := 3
        checkOk := true })
    else s

/-- The peer fits the port's mode (Table 3.5, order 1; R56): an edge port faces an endpoint in mode 0b01, a fabric port
another switch in mode 0b10 that forwards by hop bytes, or any under a map with COMPAT set. -/
def State.identFits (s : State) (l : Nat) (id : Ident) : Bool :=
  if s.linkMode l = PM_EDGE then id.endpoint && id.mode.val == PM_EDGE
  else !id.endpoint && id.mode.val == PM_FABRIC && (id.features.getLsbD 1 || s.flag F.MGR_MAP_COMPAT)

/-- The peer and width are those of the last qualification (R49). -/
def State.samePeer (s : State) (l : Nat) (id : Ident) : Bool :=
  match (s.port l).lastQual with
  | some q => q.chip == id.chip && q.port == id.port && q.device == id.deviceId && q.serial == id.serial
      && q.width == s.linkWidth l
  | none => false

/-- Start qualification (R58): phase 1, PRBS31 on every lane. -/
def State.startQual (s : State) (l : Link) : State :=
  let s1 := (s.setLinkState l.val PS_QUALIFYING).setReason l.val 0
  let s2 := s1.modPort l.val fun p => { p with phase := 1, verdict := none, peerPass := none }
  (if l.val = twinLink then s2 else s2.setFld F.PRT_QUAL_RESULT_DONE l.val 0).emit (.qualPhase l 1)

/-- Table 3.5 from order 4 on. -/
def State.identFrom4 (s : State) (l : Link) (id : Ident) : State :=
  if id.efpMajor ≠ 3 then
    ((s.setLinkState l.val PS_STRANGER).setReason l.val 0x04).outcome l.val
  else if (s.port l.val).retrain ∧ s.samePeer l.val id then (s.setReason l.val 0).enterUp l
  else s.startQual l

/-- Table 3.5: the first rule that applies. -/
def State.identState (s : State) (l : Link) (id : Ident) : State :=
  if !s.identFits l.val id then s.quarantine l.val 0x02
  else if s.linkMode l.val = PM_FABRIC ∧ some id.serial ≠ s.ownSerial then s.quarantine l.val 0x01
  else if (s.port l.val).nbr = some false ∧ (s.port l.val).adopted = false then s.quarantine l.val 0x03
  else s.identFrom4 l id

/-- The peer's identity in the PRT_ registers. -/
def State.notePeer (s : State) (l : Nat) (id : Ident) : State :=
  let s0 := s.modPort l fun p => { p with peer := some id }
  if l = twinLink then s0
  else
    let w := putBits (putBits (putBits (putBits (putBits (putBits 0 0 16 id.chip.val) 16 8 id.port.val) 24 1 1) 25 1
      (bit id.endpoint)) 32 8 id.efpMajor.val) 40 8 id.efpMinor.val
    let s1 := s0.setReg .PRT_PEER_ID l w
    let s2 := s1.setReg .PRT_PEER_SERIAL l (putBits (putBits 0 0 32 id.serial.toNat) 32 32 id.fwBuild.toNat)
    let s3 := s2.setReg .PRT_PEER_DEVICE l id.deviceId
    s3.setFld F.PRT_STATUS_MINOR l (min Config.efpMinor.val id.efpMinor.val)

/-- IDENT_RECEIVE (R53, R54): a message whose CHECK fails is ignored; a valid one in training sets the port state by Table
3.5, and the agent reports it to the Monarch (R103). -/
def execIdentReceive (l : Link) (id : Ident) (s : State) : Out :=
  act s fun s =>
    if id.checkOk ∧ s.linkState l.val = PS_TRAINING ∧ s.linkMode l.val ≠ PM_SERVICE then
      let s1 := (s.notePeer l.val id).identState l id
      if l.val = twinLink then s1 else s1.sendReport l.val
    else s

/-- IDENT_TIMEOUT (R53): no valid IDENT 100 ms after lane lock: DOWN, and training starts again. -/
def execIdentTimeout (l : Link) (s : State) : Out :=
  act s fun s => if s.linkState l.val = PS_TRAINING then s.dropLink l.val PS_DOWN else s

/-! ### Qualification (R58, R59) -/

/-- The lane with the most errors, the lower lane on a tie. -/
def worstLane (errs : List Nat) : Nat × Nat :=
  ((List.range errs.length).foldl (fun w k => if w.2 < errs.getD k 0 then (k, errs.getD k 0) else w) (0, errs.getD 0 0))

/-- QUAL_PHASE1_END (R58): lane BERs are computed and phase 2 starts. -/
def execQualPhase1End (l : Link) (errs : List Nat) (bits : Nat) (s : State) : Out :=
  act s fun s =>
    if s.linkState l.val = PS_QUALIFYING ∧ (s.port l.val).phase = 1 then
      let w := worstLane errs
      (s.modPort l.val fun p => { p with phase := 2, worst := (w.2, bits, w.1) }).emit (.qualPhase l 2)
    else s

/-- Both verdicts are in: UP when both directions passed, QUAL_FAIL otherwise (R58). -/
def State.qualJudge (s : State) (l : Link) : State :=
  match (s.port l.val).verdict, (s.port l.val).peerPass with
  | some 0, some true =>
    let s1 := if l.val = twinLink then s
      else (s.setFld F.PRT_QUAL_RESULT_DONE l.val 1).setFld F.PRT_QUAL_RESULT_PASS l.val 1
    let s2 := (s1.setCause l.val 0).modPort l.val fun p => { p with
      lastQual := p.peer.map fun id => ⟨id.chip, id.port, id.deviceId, id.serial, s1.linkWidth l.val⟩ }
    s2.enterUp l
  | some 0, some false => s.qualFail l.val QC_PEER_FAIL
  | some c, _ => if c = 0 then s else s.qualFail l.val c
  | none, _ => s

/-- The result fields of a qualification: the digits of the estimate and of the BER are not fixed by R59 (log entry 10),
and a worst lane without errors shows 0 and 0. -/
def State.qualDigits (s : State) (l : Nat) : State :=
  if l = twinLink then s
  else
    let (m, s1) := s.fresh
    let (e, s2) := s1.fresh
    let (bm, s3) := s2.fresh
    let (be, s4) := s3.fresh
    let w := (s.port l).worst
    let s5 := (s4.setFld F.PRT_QUAL_RESULT_LOSS_MANT l m).setFld F.PRT_QUAL_RESULT_LOSS_EXP l e
    let s6 := (s5.setFld F.PRT_QUAL_RESULT_BER_MANT l (if w.1 = 0 then 0 else bm)).setFld F.PRT_QUAL_RESULT_BER_EXP l
      (if w.1 = 0 then 0 else be)
    s6.setFld F.PRT_QUAL_RESULT_WORST_LANE l w.2.2

/-- QUAL_PHASE2_END (R59): the receive verdict, and QUAL_REPORT to the peer. -/
def execQualPhase2End (l : Link) (counts : List Nat) (unc total : Nat) (s : State) : Out :=
  act s fun s =>
    if s.linkState l.val = PS_QUALIFYING ∧ (s.port l.val).phase = 2 then
      let w := (s.port l.val).worst
      let c := qualVerdict w.1 w.2.1 counts unc total
      let s1 := s.modPort l.val fun p => { p with phase := 3, verdict := some c }
      let s2 := (s1.qualDigits l.val).emit (.qualReport l (c == 0) w.1 w.2.1)
      s2.qualJudge l
    else s

/-- QUAL_REPORT_RECEIVE (R58). -/
def execQualReportReceive (l : Link) (pass : Bool) (s : State) : Out :=
  act s fun s =>
    if s.linkState l.val = PS_QUALIFYING then
      (s.modPort l.val fun p => { p with peerPass := some pass }).qualJudge l
    else s

/-- PEER_SILENT (R58): no QUAL_REPORT QUAL_TIME + 100 ms after phase 1 began. -/
def execPeerSilent (l : Link) (s : State) : Out :=
  act s fun s =>
    if s.linkState l.val = PS_QUALIFYING ∧ (s.port l.val).peerPass = none then s.qualFail l.val QC_PEER_SILENT else s

/-! ### The FROZEN set (R61) -/

/-- FROZEN_SET_RECEIVE (R61): for forwarding the port is lost; the neighbour identity is kept. -/
def execFrozenSetReceive (port : Port) (s : State) : Out :=
  act s fun s =>
    if s.linkState port.val = PS_UP then
      let s1 := s.setFld F.PRT_STATUS_STATE port.val PS_FROZEN_PEER
      let s2 := s1.modPort port.val fun p => { p with
        txCredits := List.replicate 8 0, rxFree := List.replicate 8 0, vcIn := List.replicate 8 .idle }
      let s3 := { s2 with net := { s2.net with waiting := s2.net.waiting.filter fun w => w.out.val != port.val } }
      (s3.sealClear port.val).announceLoss port.val
    else s

/-- FROZEN_SET_STOP (R61): the port retrains and requalifies. -/
def execFrozenSetStop (port : Port) (s : State) : Out :=
  act s fun s =>
    if s.linkState port.val = PS_FROZEN_PEER then
      (s.dropLink port.val PS_DOWN).modPort port.val fun p => { p with lastQual := none, retrain := false }
    else s

end Sys2Proof.Machine
end

