-- ==== Sys2Proof/Machine/Route.lean ====
section
/-! DEFINITION. Sys2Proof/Machine/Route.lean: lost links, bank writes and the drain and swap, at the agent and at the
manager (R84, R91, R93 to R95).
(log entries of this file: DEDUCED 26, 27, 29; DESIGN CHOICE 7) -/

namespace Sys2Proof.Machine

/-- A field of the four wings' EDG_CTL, which show the same (R94). -/
def State.setEdg (s : State) (f : Fld) (v : Nat) : State := (List.range 4).foldl (fun t w => t.setFld f w v) s

/-! ### The up/down order (R84, R91) -/

def levelOf (b : Bank) (c : Nat) : Option Nat := (b.levels.find? fun q => q.1.val == c).map (·.2.val)

/-- The hop from `a` to `b` is up: key(b) < key(a), keys compared by LEVEL and then by chip number. -/
def isUp (bank : Bank) (a b : Nat) : Option Bool :=
  match levelOf bank a, levelOf bank b with
  | some la, some lb => some (decide (lb < la) || (lb == la && decide (b < a)))
  | _, _ => none

/-- No up hop follows a down hop; a switch without a LEVEL has no key, and a route through it is not valid. -/
def validFrom (bank : Bank) (a : Nat) (down : Bool) : List Hop → Bool
  | [] => true
  | h :: t =>
    match isUp bank a h.chip.val with
    | none => false
    | some true => !down && validFrom bank h.chip.val false t
    | some false => validFrom bank h.chip.val true t

/-- A route the agent accepts (R91): valid, of at most 10 hops. -/
def routeOk (bank : Bank) (own : Nat) (r : List Hop) : Bool := decide (r.length ≤ 10) && validFrom bank own false r

def entryOk (bank : Bank) (own : Nat) (e : RouteEntry) : Bool :=
  routeOk bank own e.prim && (match e.alt with | some a => routeOk bank own a | none => true)

/-- The first entry of a bank that the agent refuses (R91); none where it accepts the bank. A bank holds at most 512
entries (R90). -/
def firstRefused (bank : Bank) (own : Nat) : Option Nat :=
  if 512 < bank.entries.length then some 512 else bank.entries.findIdx? fun e => !entryOk bank own e

/-! ### At the agent -/

/-- LINK_LOSS_RECEIVE (R93): an announcement of a lost link marks the entries that use it; a narrowed port changes no
entry. -/
def execLinkLossReceive (h : MsgHdr) (chip : Chip) (port : Fin 256) (cause : Fin 2) (s : State) : Out :=
  act s fun s => s.fromAgent h fun s => if cause.val = 0 then s.linkLost chip.val port.val else s

/-- Write the inactive bank (R91, R94). -/
def State.writeInactive (s : State) (b : Bank) : State :=
  let s1 := if s.fld F.EDG_CTL_ACTIVE_BANK 0 = 0 then { s with route := { s.route with bank1 := b } }
    else { s with route := { s.route with bank0 := b } }
  let s2 := { s1 with route := { s1.route with written := true, mark := s1.route.lost.length } }
  if s2.fld F.EDG_CTL_DRAIN 0 = 0 then s2.setEdg F.EDG_CTL_DRAIN 1 else s2

/-- TABLE_WRITE_RECEIVE (R91, R94): the inactive bank is written only where every route keeps the order; the answer names
the first refused entry. -/
def execTableWriteReceive (h : MsgHdr) (bank : Bank) (s : State) : Out :=
  act s fun s => s.fromManager h
    (fun s => match firstRefused bank s.chip with
      | none => s.writeInactive bank
      | some _ => { s with route := { s.route with written := false } })
    (fun s => s.sendMgmt 0xFFFE (.tableAck (firstRefused bank s.chip)))

/-- STOP_RECEIVE (R94): the affected slices and wingbeat s. -/
def execStopReceive (h : MsgHdr) (slices : List Slice) (wb : Wb) (s : State) : Out :=
  act s fun s => s.fromManager h fun s =>
    let s1 := { s with route := { s.route with stop := some (slices.map fun (x : Slice) => x.val, wb), zeroed := false } }
    (s1.setEdg F.EDG_CTL_DRAIN 2).setEdg F.EDG_SWAP_AT_WINGBEAT wb.toNat

/-- Packets of the stopped slices inside a wing's crossbar: those that wait at its outputs (XBR_INFLIGHT, R94). -/
def State.inflight (s : State) (w : Nat) : Nat :=
  match s.route.stop with
  | some (sl, b) =>
    if s.reached b then
      (s.net.waiting.filter fun x => sl.contains x.pkt.slice.val && (if x.out.val = twinLink then 0 else wingOf x.out.val) == w).length
    else 0
  | none => 0

def State.inflightAll (s : State) : Nat := ((List.range 4).map s.inflight).sum

/-- Show the in-flight counts. -/
def State.showInflight (s : State) : State :=
  (List.range 4).foldl (fun t w => t.setFld F.XBR_INFLIGHT_COUNT w (s.inflight w)) s

/-- The stop boundary of the drain in progress has been reached. -/
def State.draining (s : State) : Bool :=
  match s.route.stop with
  | some (_, b) => s.reached b
  | none => false

/-- DRAIN_STOP_BOUNDARY (R94): from s on, edge ports hold and internal sources wait; counting begins. -/
def execDrainStopBoundary (s : State) : Out :=
  act s fun s => if s.draining ∧ s.fld F.EDG_CTL_DRAIN = 2 then s.showInflight else s

/-- Report DRAIN_ZERO once (R94). -/
def State.reportZero (s : State) : State :=
  if s.route.zeroed then s
  else ({ s with route := { s.route with zeroed := true } }).sendMgmt 0xFFFE .drainZero

/-- DRAIN_COUNT_ZERO (R94). -/
def execDrainCountZero (s : State) : Out :=
  act s fun s =>
    if s.draining ∧ s.fld F.EDG_CTL_DRAIN = 2 ∧ s.inflightAll = 0 then s.showInflight.reportZero else s

/-- DRAIN_TIMEOUT (R94): at s + 64 the affected packets still held are dropped and counted, and zero is reported. -/
def execDrainTimeout (s : State) : Out :=
  act s fun s =>
    match s.route.stop with
    | some (sl, b) =>
      if s.reached (b + 64#48) ∧ s.fld F.EDG_CTL_DRAIN = 2 ∧ s.route.zeroed = false then
        let s1 := (List.range 4).foldl (fun t w => t.bump F.XBR_WAITS_WAIT_DROPS w (s.inflight w)) s
        let s2 := { s1 with net := { s1.net with
          waiting := s1.net.waiting.filter fun x => !sl.contains x.pkt.slice.val } }
        s2.showInflight.reportZero
      else s
    | none => s

/-- SWAP_RECEIVE (R94): arm the swap at k. -/
def execSwapReceive (h : MsgHdr) (wb : Wb) (s : State) : Out :=
  act s fun s => s.fromManager h fun s => (s.setEdg F.EDG_CTL_DRAIN 3).setEdg F.EDG_SWAP_AT_WINGBEAT wb.toNat

/-- The drain is over: resend timers of the stopped slices resume where they paused, and packets that waited start. The
held packets of the edge ports are handed back by the caller. -/
def State.endDrain (s : State) : State :=
  let s1 := match s.route.stop with
    | some (sl, b) =>
      let shift := fun (c : Copy) => if sl.contains c.pkt.slice.val then { c with sentAt := c.sentAt + (s.wb - b) } else c
      { s with net := { s.net with copies := s.net.copies.map shift } }
    | none => s
  let s2 := { s1 with route := { s1.route with stop := none, zeroed := false, written := false } }
  let s3 := ((s2.setEdg F.EDG_CTL_DRAIN 0).setEdg F.EDG_SWAP_AT_WINGBEAT 0).showInflight
  s3.pump

/-- Make the written bank active (R94): a chip whose table did not change keeps its bank; links lost since the bank was
written stay marked in it. ROUTE_VERSION increments, LEVEL is the chip's own, and VALID says that a bank has been installed. -/
def State.activate (s : State) : State :=
  let s1 := if s.route.written then
      (s.setEdg F.EDG_CTL_ACTIVE_BANK (1 - s.fld F.EDG_CTL_ACTIVE_BANK 0)) else s
  let s2 := if s.route.written then { s1 with route := { s1.route with lost := s1.route.lost.drop s1.route.mark } } else s1
  let s3 := s2.setEdg F.EDG_CTL_ROUTE_VERSION (s2.fld F.EDG_CTL_ROUTE_VERSION 0 + 1)
  let s4 := s3.setEdg F.EDG_CTL_LEVEL ((levelOf s3.activeBank s3.chip).getD 0)
  if s.route.written then s4.setEdg F.EDG_CTL_VALID 1 else s4

/-! ### At the manager -/

/-- TABLE_ACK_RECEIVE (R94): a refusal cancels the change, which is computed again; once every changed chip has accepted,
STOP is broadcast at least 2 wingbeats ahead, how far beyond being open (log entry 7). -/
def execTableAckReceive (h : MsgHdr) (refused : Option Nat) (s : State) : Out :=
  act s fun s =>
    s.atManager h fun s =>
      match s.mgr.drain with
      | some d =>
        if d.phase ≠ 0 then s
        else
          match refused with
          | some _ => { s with mgr := { s.mgr with drain := none, recompute := some d.refs } }
          | none =>
            let acks := d.acks ++ [h.src.val]
            let d1 := { d with acks := acks }
            if d.banks.all fun q => acks.contains q.1 then
              let (v, s1) := s.fresh
              let b : Wb := s1.wb + 2#48 + BitVec.ofNat 48 (v % 2 ^ 32)
              ({ s1 with mgr := { s1.mgr with drain := some { d1 with phase := 1, stopAt := b } } }).sendMgmt 0xFFFF
                (.stop d1.slices b)
            else { s with mgr := { s.mgr with drain := some d1 } }
      | none => s

/-- DRAIN_ZERO_RECEIVE (R94). -/
def execDrainZeroReceive (h : MsgHdr) (s : State) : Out :=
  act s fun s =>
    s.atManager h fun s =>
      match s.mgr.drain with
      | some d => { s with mgr := { s.mgr with drain := some { d with zeros := d.zeros ++ [h.src.val] } } }
      | none => s

/-- SWAP_BROADCAST (R94): at the first boundary d after the last zero report, SWAP names k = d + 2. -/
def execSwapBroadcast (s : State) : Out :=
  act s fun s =>
    match s.mgr.drain with
    | some d =>
      if s.isActive ∧ d.phase = 1 ∧ s.agents.all (fun a => d.zeros.contains a) then
        let k := s.wb + 2#48
        ({ s with mgr := { s.mgr with drain := some { d with phase := 2, swapAt := k } } }).sendMgmt 0xFFFF (.swap k)
      else s
    | none => s

end Sys2Proof.Machine
end

