-- ==== Sys2Proof/Machine/Time.lean ====
section
/-! DEFINITION. Sys2Proof/Machine/Time.lean: wingbeat lengths and base pairs, the TIME exchange and the PPS signals
(R26 to R46). The tick itself and the budget monitor act on later chapters' state and stand in Tick.lean and Hawk.lean.
(log entries of this file: DEDUCED 21, 22; DESIGN CHOICE 7, 8) -/

namespace Sys2Proof.Machine

/-- The fabric time at which wingbeat `n` begins (R27): BASE_FTU + (n − BASE_NUM) × L, with n − BASE_NUM taken as a signed
48-bit difference. -/
def State.tickFtu (s : State) (n : Wb) : Ftu :=
  let base := s.reg .FT_WB_BASE_FTU 0
  let d := (n - BitVec.ofNat 48 (s.fld F.FT_WB_BASE_NUM_BASE_NUM)).toInt
  base + BitVec.ofInt 64 (d * (s.lenFtu : Int))

/-- The wingbeat number that a base pair gives the present counter value (R27): the last wingbeat begun. -/
def State.wbOfFtu (s : State) : Wb :=
  let d := (s.ftu - s.reg .FT_WB_BASE_FTU 0).toInt
  BitVec.ofNat 48 (s.fld F.FT_WB_BASE_NUM_BASE_NUM) + BitVec.ofInt 48 (d.fdiv (s.lenFtu : Int))

/-- Install a base pair and a length (R27); the wingbeat number follows from the counter. -/
def State.setBase (s : State) (ftu : Ftu) (num : Wb) (len : Nat) : State :=
  let s1 := s.setReg .FT_WB_BASE_FTU 0 ftu
  let s2 := s1.setFld F.FT_WB_BASE_NUM_BASE_NUM 0 num.toNat
  let s3 := s2.setFld F.FT_WB_CTL_LENGTH 0 len
  let s4 := s3.setFld F.FT_WB_NUM_NUM 0 s3.wbOfFtu.toNat
  { s4 with time := { s4.time with based := true } }

/-- A change is no longer held (R28). -/
def State.clearChange (s : State) : State :=
  let s1 := s.setFld F.FT_WB_CTL_PENDING 0 0
  let s2 := s1.setFld F.FT_WB_CTL_PENDING_LENGTH 0 0
  let s3 := s2.setFld F.FT_WB_CTL_PENDING_AT 0 0
  { s3 with time := { s3.time with decision := none } }

/-- The boundary of the change the agent holds. -/
def State.changeAt (s : State) : Wb := BitVec.ofNat 48 (s.fld F.FT_WB_CTL_PENDING_AT)

/-- The agent holds a change with boundary `m` (R28). -/
def State.holdsChange (s : State) (m : Wb) : Bool := s.flag F.FT_WB_CTL_PENDING && s.changeAt == m

/-- The agent's part of WB_CHANGE (R28): hold a change and acknowledge it, or note its decision. -/
def State.agentChange (s : State) (c : WbChange) : State :=
  match c with
  | .change m len =>
    let s1 := s.setFld F.FT_WB_CTL_PENDING 0 1
    let s2 := s1.setFld F.FT_WB_CTL_PENDING_LENGTH 0 len.val
    let s3 := s2.setFld F.FT_WB_CTL_PENDING_AT 0 m.toNat
    { s3 with time := { s3.time with decision := none } }
  | .commit m =>
    if s.holdsChange m then
      ({ s with time := { s.time with decision := some true } }).answered fun _ b => b == Mgmt.wbChange (.query m)
    else s
  | .cancel m => if s.holdsChange m then s.clearChange.answered fun _ b => b == Mgmt.wbChange (.query m) else s
  | .ack _ => s
  | .query _ => s

/-- The agent's answer to WB_CHANGE: a change is acknowledged (R28). -/
def State.agentChangeAnswer (s : State) (c : WbChange) : State :=
  match c with
  | .change m _ => s.sendMgmt 0xFFFE (.wbChange (.ack m))
  | _ => s

/-- The Monarch notes an agent's acknowledgement of its change (R28). -/
def State.noteChangeAck (s : State) (src : Chip) (m : Wb) : State :=
  match s.time.change with
  | some c =>
    if c.m = m ∧ src ∉ c.acks then { s with time := { s.time with change := some { c with acks := c.acks ++ [src] } } }
    else s
  | none => s

/-- The Monarch answers a query from its recorded decision (R28). -/
def State.answerChangeQuery (s : State) (src : Chip) (m : Wb) : State :=
  match s.time.change with
  | some c =>
    if c.m = m then
      match c.decision with
      | some true => s.sendMgmt src.val (.wbChange (.commit m))
      | some false => s.sendMgmt src.val (.wbChange (.cancel m))
      | none => s
    else s
  | none => s

/-- WB_CHANGE_RECEIVE (R28). -/
def execWbChangeReceive (h : MsgHdr) (c : WbChange) (s : State) : Out :=
  act s fun s =>
    match c with
    | .ack m => s.atManager h fun s => s.noteChangeAck h.src m
    | .query m => s.atManager h id fun s => s.answerChangeQuery h.src m
    | c => s.fromManager h (fun s => s.agentChange c) (fun s => s.agentChangeAnswer c)

/-- WB_CHANGE_DECIDE (R28): at m − 128 commit if every agent acknowledged, otherwise cancel; a cancelled command ends with
ACK_TIMEOUT, a committed one with the boundary as VALUE (Table 16.6). -/
def execWbChangeDecide (s : State) : Out :=
  act s fun s =>
    match s.time.change with
    | some c =>
      if s.isActive ∧ c.decision = none ∧ s.reached (c.m - 128#48) then
        let ok := s.agents.all fun a => c.acks.any fun b => b.val == a
        let s1 := { s with time := { s.time with change := some { c with decision := some ok } } }
        let s2 := s1.sendMgmt 0xFFFF (.wbChange (if ok then .commit c.m else .cancel c.m))
        s2.finishFw c.ref (if ok then ACK_OK else ACK_TIMEOUT) (if ok then c.m.toNat % 2 ^ 32 else 0)
      else s
    | none => s

/-- WB_CHANGE_QUERY (R28): at m − 16 an agent without a decision asks the Monarch. -/
def execWbChangeQuery (s : State) : Out :=
  act s fun s =>
    if s.flag F.FT_WB_CTL_PENDING ∧ s.time.decision = none ∧ s.reached (s.changeAt - 16#48) then
      s.askMgmt 0xFFFE (.wbChange (.query s.changeAt))
    else s

/-- WB_CHANGE_APPLY (R28): at m a committed agent takes the new length with BASE_FTU at the start of m; an undecided one
keeps the old, writes WB_NO_DECISION and refuses bouquet loads. -/
def execWbChangeApply (s : State) : Out :=
  act s fun s =>
    if s.flag F.FT_WB_CTL_PENDING ∧ s.reached s.changeAt then
      let m := s.changeAt
      let len := s.fld F.FT_WB_CTL_PENDING_LENGTH
      match s.time.decision with
      | some true => s.clearChange.setBase (s.tickFtu m) m len
      | _ =>
        let s1 := s.clearChange
        ({ s1 with time := { s1.time with stale := true } }).sillage 0x01 0x01 2 []
    else s

/-- WB_LENGTH (R28, Table 16.6): refused while any bouquet is loaded; otherwise the change is broadcast with a boundary at
least 256 wingbeats ahead, how far beyond being open (log entry 7). -/
def execWbLength (r : FwRef) (len : Fin 4) (s : State) : Out :=
  act s fun s => s.mgrCommand r fun s =>
    if s.anyBouquet then s.finishFw r ACK_STATE 0
    else
      let (v, s1) := s.fresh
      let m : Wb := s1.wb + 256#48 + BitVec.ofNat 48 (v % 2 ^ 32)
      ({ s1 with time := { s1.time with change := some ⟨m, len, [], none, r⟩ } }).sendMgmt 0xFFFF (.wbChange (.change m len))

/-- End a coasting episode: LONGEST_COAST keeps the longest (FT_COAST). -/
def State.endCoast (s : State) : State :=
  match s.time.coastFrom with
  | some t =>
    let d := min (s.ftu - t).toNat (2 ^ 32 - 1)
    let s1 := s.setFld F.FT_COAST_LONGEST_COAST 0 (max d (s.fld F.FT_COAST_LONGEST_COAST))
    { s1 with time := { s1.time with coastFrom := none } }
  | none => s

/-- Start coasting at the last disciplined rate (R41). -/
def State.startCoast (s : State) : State :=
  let s1 := s.setFld F.FT_STATUS_STATE 0 TS_COASTING
  { s1 with time := { s1.time with coastFrom := some (s1.time.coastFrom.getD s1.ftu) } }

/-- The link number of an upstream code of FT_STATUS; none for 0xFF. -/
def upstreamLink (code : Nat) : Option Nat := if code ≤ 0x80 then some code else none

/-- WB_BASE_RECEIVE (R27, R37, R41): install base pair, length, depth, upstream and alternate. A chip that is left without
an upstream coasts. -/
def execWbBaseReceive (h : MsgHdr) (b : WbBase) (s : State) : Out :=
  act s fun s => s.fromManager h fun s =>
    let s1 := s.setBase b.baseFtu b.baseNum b.len.val
    let s2 := { s1 with time := { s1.time with stale := false, lastSet := s1.ftu } }
    let s3 := s2.setFld F.FT_STATUS_DEPTH 0 b.depth.val
    let s4 := s3.setFld F.FT_STATUS_UPSTREAM 0 b.upstream.val
    let s5 := s4.setFld F.FT_STATUS_ALTERNATE 0 b.alternate.val
    if s5.fld F.FT_STATUS_STATE = TS_LOCKED ∧ upstreamLink b.upstream.val = none ∧ upstreamLink b.alternate.val = none then
      s5.startCoast.sillage 0x01 0x02 1 []
    else s5

/-- A trained state of a link (R57): past the identity exchange and not lost. -/
def State.trained (s : State) (l : Nat) : Bool :=
  decide (PS_QUALIFYING ≤ s.linkState l) && decide (s.linkState l ≤ PS_UP)

/-- The set of R38 that a link sends: stamped with the counter, echoing the last set received. -/
def State.timeSet (s : State) (l : Link) : State :=
  let t := (s.port l.val).time
  let st := s.fld F.FT_STATUS_STATE
  let set : TimeSet := {
    seq := t.nextSeq
    echoSeq := (t.last.map (·.1)).getD 0
    locked := st == TS_LOCKED || st == TS_ROOT
    root := st == TS_ROOT
    coasting := st == TS_COASTING
    depth := Fin.ofNat 256 (s.fld F.FT_STATUS_DEPTH)
    checkOk := true
    tSend := s.ftu
    echoRx := (t.last.map (·.2)).getD 0 }
  (s.modPort l.val fun p => { p with time := { p.time with
    nextSeq := p.time.nextSeq + 1
    sent := (p.time.sent.filter fun q => q.1 != p.time.nextSeq) ++ [(p.time.nextSeq, s.ftu)] } }).emit (.timeSet l set)

/-- TIME_SET_SEND (R38); while the part is frozen the FROZEN set takes its place (R388). -/
def execTimeSetSend (l : Link) (s : State) : Out :=
  .next (
    if s.trained l.val = false then s
    else if s.running then s.timeSet l
    else if s.power.frozen then s.emit (.frozen l)
    else s)

/-- The clamp of R39. -/
def clampInt (v lo hi : Int) : Int := max lo (min hi v)

/-- The offset and delay of R39 from the four stamps: 64-bit differences, then the division by 2 of C. -/
def timeOffset (t1 t2 t3 t4 : Ftu) : Int := (((t2 - t1) + (t3 - t4)).toInt).tdiv 2
def timeDelay (t1 t2 t3 t4 : Ftu) : Int := (((t4 - t1) - (t3 - t2)).toInt).tdiv 2

/-- A chip steers only to its current upstream, over an UP port or the Twin port (R39, R57). -/
def State.steersTo (s : State) (l : Nat) : Bool :=
  upstreamLink (s.fld F.FT_STATUS_UPSTREAM) == some l && s.linkState l == PS_UP

/-- A chip that acquires locks; at stage 7 of Instar it takes its upstream's value by one step, with TIME_STEP (R36, R347).
After that stage it re-locks by rate alone. -/
def State.acquired (s : State) (offset : Option Int) : State :=
  if s.fld F.INS_STATUS_STAGE = 7 then
    match offset with
    | some o =>
      let t : Ftu := s.ftu + BitVec.ofInt 64 o
      ((s.setReg .FT_COUNT 0 t).setFld F.FT_STATUS_STATE 0 TS_LOCKED).sillage 0x01 0x03 0 [s.ftu.toNat, t.toNat]
    | none => s
  else s.setFld F.FT_STATUS_STATE 0 TS_LOCKED

/-- Follow a valid set of the current upstream (R39, R40): OFFSET, the clamped rate, and an end of coasting by rate
alone. -/
def State.followUpstream (s : State) (offset : Option Int) : State :=
  let s1 := { s with time := { s.time with lastSet := s.ftu } }
  let s2 := match offset with
    | some o =>
      let s' := s1.setFld F.FT_STATUS_OFFSET 0 (BitVec.ofInt 16 o).toNat
      { s' with time := { s'.time with rate := clampInt (Config.rateGain o) (-100000) 100000 } }
    | none => s1
  if s2.fld F.FT_STATUS_STATE = TS_COASTING then s2.endCoast.setFld F.FT_STATUS_STATE 0 TS_LOCKED
  else if s2.fld F.FT_STATUS_STATE = TS_ACQUIRE then s2.acquired offset
  else s2

/-- TIME_SET_RECEIVE (R38 to R40): a set whose CHECK fails is ignored; the last set is kept for the echo; a set of the
current upstream that carries LOCKED, ROOT or COASTING is followed. -/
def execTimeSetReceive (l : Link) (t : TimeSet) (s : State) : Out :=
  act s fun s =>
    if t.checkOk ∧ s.trained l.val then
      let own := ((s.port l.val).time.sent.find? fun q => q.1 == t.echoSeq).map (·.2)
      let s1 := s.modPort l.val fun p => { p with time := { p.time with
        last := some (t.seq, s.ftu)
        delay := match own with
          | some t1 => timeDelay t1 t.echoRx t.tSend s.ftu
          | none => p.time.delay } }
      if s1.steersTo l.val ∧ (t.locked || t.root || t.coasting) then
        s1.followUpstream (own.map fun t1 => timeOffset t1 t.echoRx t.tSend s1.ftu)
      else s1
    else s

/-- The upstream is lost: its link is not UP, or no valid set for 8,192 FTU (R40). -/
def State.upstreamLost (s : State) : Bool :=
  match upstreamLink (s.fld F.FT_STATUS_UPSTREAM) with
  | some l => s.linkState l != PS_UP || decide (8192 ≤ (s.ftu - s.time.lastSet).toNat)
  | none => false

/-- LOSS_OF_UPSTREAM (R40, R41): coast, and move to the alternate where there is one; without one, write COASTING. -/
def execLossOfUpstream (s : State) : Out :=
  act s fun s =>
    if s.upstreamLost ∧ s.fld F.FT_STATUS_STATE ≠ TS_FREE ∧ s.fld F.FT_STATUS_STATE ≠ TS_ROOT then
      let alt := s.fld F.FT_STATUS_ALTERNATE
      let s1 := if s.fld F.FT_STATUS_STATE = TS_ACQUIRE then s else s.startCoast
      let s2 := (s1.setFld F.FT_STATUS_UPSTREAM 0 alt).setFld F.FT_STATUS_ALTERNATE 0 0xFF
      let s3 := { s2 with time := { s2.time with lastSet := s2.ftu } }
      if upstreamLink alt = none then s3.sillage 0x01 0x02 1 [] else s3.bump F.FT_COAST_UPSTREAM_CHANGES
    else s

/-- FTU in one second: the PPS period (R43). -/
def ppsPeriod : Nat := 1600000000

/-- The signed distance of a counter value from PHASE modulo the PPS period (R43). -/
def ppsError (ftu phase : Nat) : Int :=
  let d := (ftu % ppsPeriod + ppsPeriod - phase % ppsPeriod) % ppsPeriod
  if d ≤ ppsPeriod / 2 then (d : Int) else (d : Int) - ppsPeriod

/-- PPS_IN_EDGE (R43): stamp the edge; the grandmaster with IN_EN steers its rate by at most 10 ppb and judges
IN_LOCKED. -/
def execPpsInEdge (s : State) : Out :=
  act s fun s =>
    let s1 := s.setReg .FT_PPS_CAPTURE 0 s.ftu
    if s1.fld F.FT_STATUS_STATE = TS_ROOT ∧ s1.flag F.FT_PPS_CTL_IN_EN then
      let e := ppsError s1.ftu.toNat (s1.fld F.FT_PPS_CTL_PHASE)
      let good := if e.natAbs ≤ 16 then s1.time.ppsGood + 1 else 0
      let s2 := { s1 with time := { s1.time with
        ppsGood := good, rate := clampInt (Config.rateGain (-e)) (-10) 10 } }
      s2.setFld F.FT_PPS_CTL_IN_LOCKED 0 (bit (decide (4 ≤ good)))
    else s1

/-- PPS_OUT_START (R43): the counter equals PHASE modulo 1,600,000,000 with OUT_EN set. -/
def execPpsOutStart (s : State) : Out :=
  act s fun s =>
    if s.flag F.FT_PPS_CTL_OUT_EN ∧ s.ftu.toNat % ppsPeriod = s.fld F.FT_PPS_CTL_PHASE then
      { s with time := { s.time with ppsOut := some s.ftu } }
    else s

/-- PPS_OUT_END (R43): 160,000,000 FTU after its rise PPS_OUT returns low. -/
def execPpsOutEnd (s : State) : Out :=
  act s fun s =>
    match s.time.ppsOut with
    | some t => if 160000000 ≤ (s.ftu - t).toNat then { s with time := { s.time with ppsOut := none } } else s
    | none => s

end Sys2Proof.Machine
end

