-- ==== Sys2Proof/Machine/Manager.lean ====
section
/-! DEFINITION. Sys2Proof/Machine/Manager.lean: roles, the installation map, discovery, routes, slices, failures, capacity
and plans, and the endpoint agent contract (R96 to R122).
(log entries of this file: DEDUCED 27, 30, 31, 32, 33, 86; DESIGN CHOICE 19) -/

namespace Sys2Proof.Machine

/-! ### The installation map (R97, R101, R102) -/

def mapChip (m : InstMap) (chip : Nat) : Option MapChip := m.chips.find? fun c => c.chip.val == chip

def mapPort (m : InstMap) (chip port : Nat) : Option MapPort := (mapChip m chip).bind fun c => c.ports[port]?

/-- A switch-to-switch entry is matched by the reverse entry of its peer (R101). -/
def reverseOk (m : InstMap) (c : MapChip) (port : Nat) (p : MapPort) : Bool :=
  if p.peerKind.val ≠ 1 then true
  else match mapPort m p.peerChip.val p.peerPort.val with
    | some q => q.peerKind.val == 1 && q.peerChip.val == c.chip.val && q.peerPort.val == port
    | none => false

/-- The kinds a port entry of each mode may name (R101). -/
def peerKindOk (p : MapPort) : Bool :=
  match p.mode.val with
  | 1 => p.peerKind.val == 0 || p.peerKind.val == 2
  | 2 => p.peerKind.val == 1 || p.peerKind.val == 3
  | _ => p.peerKind.val == 0

def chipEntryOk (m : InstMap) (c : MapChip) : Bool :=
  decide (c.chip.val ≤ 0xFFFD) && decide (c.role.val ≤ 2) && decide (c.cell.val ≤ 15) && decide (c.model.val ≤ 1)
  && decide (c.initial.val ≤ 1) && c.ports.length == 128
  && (List.range 128).all fun i => match c.ports[i]? with
    | some p => peerKindOk p && reverseOk m c i p
    | none => false

/-- Exactly one Monarch and at most one standby, both of the ZL-9640 family, in one cell, joined by a direct fabric link
(R97). -/
def rolesOk (m : InstMap) : Bool :=
  match m.chips.filter (fun c => c.role.val == 1), m.chips.filter (fun c => c.role.val == 2) with
  | [a], [] => a.model.val == 0
  | [a], [b] => a.model.val == 0 && b.model.val == 0 && a.cell == b.cell
      && a.ports.any fun p => p.mode.val == 2 && p.peerKind.val == 1 && p.peerChip.val == b.chip.val
  | _, _ => false

/-- The map's form (R97, R101); a map that breaks it gets ACK_BAD_ARGUMENT. -/
def mapFormOk (m : InstMap) : Bool :=
  m.magic == 0x5A4D4150 && m.format.val == 1 && m.resvZero && decide (1 ≤ m.chips.length) && decide (m.chips.length ≤ 512)
  && decide (m.ocsCount.val ≤ 256) && decide ((m.chips.map fun c => c.chip).Nodup) && m.chips.all (chipEntryOk m) && rolesOk m

/-- The acceptance checks of R102; a map that fails one gets ACK_DENIED. -/
def State.mapAccepted (s : State) (m : InstMap) : Bool :=
  Config.shake256 m.authKey == m.authDigest
  && (match s.cocoon.authDigest with | some d => d == m.authDigest | none => true)
  && Config.xmssVerify "EVZ-MAP" m.authKey m.sig (Config.mapDigest m)
  && some m.serial == s.ownSerial
  && m.chips.any (fun c => c.device == s.reg .SEC_DEVICE_ID 0)
  && (decide (s.cocoon.mapSeq < m.mapSeq) || (m.mapSeq == s.cocoon.mapSeq && Config.mapDigest m == s.cocoon.mapDigest))

/-- Accept a map (R102): Cocoon and MGR_MAP take its values. -/
def State.takeMap (s : State) (m : InstMap) : State :=
  let s1 := { s with
    map := some m
    cocoon := { s.cocoon with
      mapSeq := m.mapSeq, mapDigest := Config.mapDigest m, authDigest := some m.authDigest } }
  match m.chips.find? fun c => c.device == s.reg .SEC_DEVICE_ID 0 with
  | some c =>
    let s2 := (s1.setFld F.MGR_MAP_MAP_SEQ 0 m.mapSeq.toNat).setFld F.MGR_MAP_CHIP 0 c.chip.val
    let s3 := (s2.setFld F.MGR_MAP_CELL 0 c.cell.val).setFld F.MGR_MAP_COMPAT 0 (bit m.compat)
    s3.setFld F.MGR_MAP_VALID 0 1
  | none => s1

/-- MAP_LOAD (R101, R102). -/
def execMapLoad (r : FwRef) (m : InstMap) (s : State) : Out :=
  act s fun s =>
    if mapFormOk m = false then s.finishFw r ACK_BAD_ARGUMENT 0
    else if s.mapAccepted m = false then s.finishFw r ACK_DENIED 0
    else (s.takeMap m).finishFw r ACK_OK m.mapSeq.toNat

/-- The role of the strap: 0b11 is an agent (R96). -/
def strapRole (v : Nat) : Nat := if v = 3 then 0 else v

/-- SET_ROLE (R96): accepted in the role step of stage 7 where strap, command and map agree; a confirmed manager role enables the
Twin port (R66). -/
def execSetRole (r : FwRef) (role : Fin 4) (s : State) : Out :=
  act s fun s =>
    if s.ins.roleOpen = false then s.finishFw r ACK_STATE 0
    else
      let want := strapRole role.val
      let mapRole := (s.map.bind fun m => mapChip m s.chip).map fun c => c.role.val
      if strapRole (s.fld F.MGR_ROLE_STRAP) = want ∧ mapRole = some want then
        let s1 := (s.setFld F.MGR_ROLE_ROLE 0 want).setFld F.MGR_ROLE_CONFIRMED 0 1
        let s2 := if want ≠ 0 ∧ s1.linkState twinLink = PS_DISABLED then s1.setLinkState twinLink PS_DOWN else s1
        s2.finishFw r ACK_OK 0
      else ((s.setFld F.MGR_ROLE_ROLE 0 0).setFld F.MGR_ROLE_CONFIRMED 0 0).finishFw r ACK_DENIED 0

/-! ### Messages in general (R100, R103) -/

/-- MGMT_REPEAT (R100): an unanswered message goes out again with the same MSG_SEQ after 4 wingbeats. -/
def execMgmtRepeat (seq : Nat) (s : State) : Out :=
  act s fun s =>
    match s.agent.awaiting.find? fun a => a.1 == seq with
    | some (q, dst, m, sent) =>
      if s.reached (sent + 4#48) then
        let again := s.agent.awaiting.map fun a => if a.1 = seq then (q, dst, m, s.wb) else a
        ({ s with agent := { s.agent with awaiting := again } }).emit (.mgmt dst s.mgrEpoch seq m)
      else s
    | none => s

/-- NBR_REPORT_REPEAT (R103): every 1,024 wingbeats until a verdict arrives. -/
def execNbrReportRepeat (port : Port) (s : State) : Out :=
  act s fun s =>
    match (s.port port.val).report with
    | some (b, _, _) => if s.reached (b + 1024#48) then s.repeatReport port.val else s
    | none => s

/-! ### Verdicts (R103, R104) -/

/-- The plan in force (R103): the prepared one while one is pending, otherwise the applied one. -/
def State.planInForce (s : State) : Option Plan := match s.mgr.prepared with | some p => some p | none => s.mgr.applied

/-- The far end of a cross-connect that a plan gives an optical circuit switch port (R103, R119). -/
def crossFar (p : Plan) (ocs port : Nat) : Option Nat :=
  match p.cross.find? fun c => c.ocs.val == ocs && (c.portA.val == port || c.portB.val == port) with
  | some c => some (if c.portA.val = port then c.portB.val else c.portA.val)
  | none => none

/-- The chip and port whose map entry names an optical circuit switch port. -/
def ocsEnd (m : InstMap) (ocs port : Nat) : Option (Nat × Nat) :=
  m.chips.findSome? fun c => ((List.range 128).find? fun i =>
    match c.ports[i]? with
    | some p => p.peerKind.val == 3 && p.peerChip.val == ocs && p.peerPort.val == port
    | none => false).map fun i => (c.chip.val, i)

/-- The neighbour that the map expects behind a port: chip and port of a switch (kinds 1 and 3), none otherwise. -/
def State.expectedSwitch (s : State) (m : InstMap) (p : MapPort) : Option (Nat × Nat) :=
  if p.peerKind.val = 1 then some (p.peerChip.val, p.peerPort.val)
  else if p.peerKind.val = 3 then
    (s.planInForce.bind fun pl => crossFar pl p.peerChip.val p.peerPort.val).bind fun far => ocsEnd m p.peerChip.val far
  else none

/-- The verdict of R103 on a report: MATCH only if it fits the port entry. -/
def State.judge (s : State) (m : InstMap) (chip port : Nat) (id : Ident) : Bool :=
  match mapPort m chip port with
  | none => false
  | some p =>
    if p.peerKind.val = 2 then
      id.endpoint && id.port.val == p.peerPort.val && (p.peerDevice == 0 || id.deviceId == p.peerDevice)
    else match s.expectedSwitch m p with
      | some (c, q) => !id.endpoint && id.chip.val == c && id.port.val == q
          && (match mapChip m c with | some e => id.deviceId == e.device | none => false)
      | none => false

/-- The expected chip, port and DEVICE_ID that NBR_VERDICT carries. -/
def State.expectation (s : State) (chip port : Nat) : Nat × Nat × Word :=
  match s.map with
  | none => (0, 0, 0)
  | some m =>
    match mapPort m chip port with
    | none => (0, 0, 0)
    | some p =>
      match s.expectedSwitch m p with
      | some (c, q) => (c, q, ((mapChip m c).map (·.device)).getD 0)
      | none => (0, p.peerPort.val, p.peerDevice)

/-- Ports of the map that expect a neighbour and have no report. -/
def State.unreported (s : State) : Nat :=
  match s.map with
  | none => 0
  | some m => (m.chips.map fun c => ((List.range 128).filter fun i =>
      (match c.ports[i]? with | some p => p.peerKind.val != 0 | none => false)
      && !s.mgr.reports.any fun q => q.chip == c.chip.val && q.port == i).length).sum

/-- MGR_NBR shows the reports held, saturating. -/
def State.showNbr (s : State) : State :=
  let n := fun (p : Report → Bool) => (s.mgr.reports.filter p).length
  let s1 := s.setFld F.MGR_NBR_MISMATCH 0 (min 4095 (n fun q => q.verdict == some false))
  let s2 := s1.setFld F.MGR_NBR_STRANGER 0 (min 4095 (n fun q => q.state == PS_STRANGER))
  let s3 := s2.setFld F.MGR_NBR_MATCH 0 (n fun q => q.verdict == some true)
  s3.setFld F.MGR_NBR_UNREPORTED 0 s.unreported

/-- Keep a report of a port in place of an older one. -/
def State.putReport (s : State) (q : Report) : State :=
  { s with mgr := { s.mgr with reports := (s.mgr.reports.filter fun x => !(x.chip == q.chip && x.port == q.port)) ++ [q] } }

/-- The inputs of the routes changed: a recompute is due (R107, R108). -/
def State.needRecompute (s : State) (refs : List FwRef) : State :=
  { s with mgr := { s.mgr with recompute := some (s.mgr.recompute.getD [] ++ refs) } }

/-- The verdict on a report (R103): MISMATCH writes NEIGHBOUR_MISMATCH and raises EVT_NEIGHBOUR. -/
def State.judgeReport (s : State) (chip port : Nat) (state : Nat) (id : Ident) : State :=
  match s.map with
  | none => s
  | some m =>
    let ok := s.judge m chip port id
    let e := s.expectation chip port
    let s1 := (s.putReport ⟨chip, port, state, id, some ok⟩).showNbr
    if ok then s1.needRecompute []
    else
      (s1.sillage 0x04 0x01 1 [e.1 * 256 + e.2.1, id.chip.val * 256 + id.port.val, e.2.2.toNat, id.deviceId.toNat]).event
        EVT_NEIGHBOUR [(chip, 2), (port, 1)]

/-- Send the verdict on the report held of a port (R103). -/
def State.sendVerdict (s : State) (chip port : Nat) : State :=
  match s.mgr.reports.find? fun q => q.chip == chip && q.port == port with
  | some q =>
    let e := s.expectation chip port
    s.sendMgmt chip (.nbrVerdict port (q.verdict == some true) (Fin.ofNat 65536 e.1) (Fin.ofNat 256 e.2.1) e.2.2)
  | none => s

/-- Judge a report and send its verdict. -/
def State.giveVerdict (s : State) (chip port : Nat) (state : Nat) (id : Ident) : State :=
  (s.judgeReport chip port state id).sendVerdict chip port

/-- The Monarch's records hold the port as one already in STRANGER. -/
def State.knownStranger (s : State) (chip port : Nat) : Bool :=
  s.mgr.reports.any fun q => q.chip == chip && q.port == port && q.state == PS_STRANGER

/-- NBR_REPORT_RECEIVE (R103, R106): the Monarch checks the report and answers; a fabric port that enters STRANGER raises
EVT_STRANGER. -/
def execNbrReportReceive (h : MsgHdr) (port : Port) (state : Fin 16) (id : Ident) (s : State) : Out :=
  act s fun s =>
    s.atManager h (fun s =>
      let s1 := s.judgeReport h.src.val port.val state.val id
      if state.val = PS_STRANGER ∧ id.endpoint = false ∧ s.knownStranger h.src.val port.val = false then s1.event EVT_STRANGER [(h.src.val, 2), (port.val, 1)] else s1)
      fun s => s.sendVerdict h.src.val port.val

/-- NBR_VERDICT_RECEIVE (R104, Table 5.5). -/
def execNbrVerdictReceive (h : MsgHdr) (port : Port) (isMatch : Bool) (s : State) : Out :=
  act s fun s => s.fromManager h fun s =>
    let l : Link := ⟨port.val, Nat.lt_trans port.isLt (by decide)⟩
    let s1 := s.modPort port.val fun p => { p with nbr := some isMatch, report := none }
    let st := s1.linkState port.val
    if isMatch then
      if st = PS_QUARANTINE ∧ s1.fld F.PRT_STATUS_REASON port.val = 0x03 then
        match (s1.port port.val).peer with
        | some id => (s1.modPort port.val fun p => { p with adopted := true }).identFrom4 l id
        | none => s1
      else s1
    else if st = PS_QUALIFYING ∨ st = PS_UP ∨ st = PS_STRANGER then s1.unclean.quarantine port.val 0x03
    else s1.unclean

/-! ### Adoption (R105) -/

/-- Two maps differ only in MAP_SEQ and port entries (and in the signature over them). -/
def sameButPorts (a b : InstMap) : Bool :=
  let bareChip := fun (c : MapChip) => { c with ports := [] }
  let bare := fun (m : InstMap) => { m with mapSeq := 0, sig := [], chips := m.chips.map bareChip }
  bare a == bare b

/-- Fresh verdicts for every port reported (R105). -/
def State.judgeAll (s : State) : State :=
  s.mgr.reports.foldl (fun t q => t.giveVerdict q.chip q.port q.state q.id) s

/-- ADOPT_NEIGHBOUR (R105). -/
def execAdoptNeighbour (r : FwRef) (m : InstMap) (s : State) : Out :=
  act s fun s => s.mgrCommand r fun s =>
    let same := match s.map with | some o => sameButPorts o m | none => false
    if mapFormOk m = false then s.finishFw r ACK_BAD_ARGUMENT 0
    else if s.mapAccepted m = false ∨ same = false then s.finishFw r ACK_DENIED 0
    else
      let s1 := (s.takeMap m).sendMgmt 0xFFFF (.mapUpdate m)
      s1.judgeAll.finishFw r ACK_OK m.mapSeq.toNat

/-- Set the port modes of the chip's own entry where they differ; each change acts as R47 states. -/
def State.applyModes (s : State) (m : InstMap) : State :=
  match mapChip m s.chip with
  | none => s
  | some c => (List.range 128).foldl (fun t i => match c.ports[i]? with
      | some p => if t.fld F.PRT_CTL_MODE i = p.mode.val then t
        else (t.setFld F.PRT_CTL_MODE i p.mode.val).portReset i
      | none => t) s

/-- MAP_UPDATE_RECEIVE (R105): once every piece has come, the map is checked by R102 and taken, and changed modes are
applied. -/
def execMapUpdateReceive (h : MsgHdr) (piece pieces : Nat) (m : InstMap) (s : State) : Out :=
  act s fun s => s.fromManager h fun s =>
    let have' := if s.agent.pieces.1 = m.mapSeq.toNat then s.agent.pieces.2 else []
    let got := if have'.contains piece then have' else have' ++ [piece]
    let s1 := { s with agent := { s.agent with pieces := (m.mapSeq.toNat, got) } }
    if (List.range pieces).all (fun i => got.contains i) ∧ mapFormOk m ∧ s1.mapAccepted m then (s1.takeMap m).applyModes m
    else s1

/-! ### Agent status (R99, R114) -/

/-- Send AGENT_STATUS (Table 5.2): ROUTE_VERSION, MAP_SEQ, and STATE and WIDTH of every port. -/
def State.sendStatus (s : State) : State :=
  s.sendMgmt 0xFFFE (.agentStatus (s.fld F.EDG_CTL_ROUTE_VERSION) (s.fld F.MGR_MAP_MAP_SEQ)
    ((List.range 128).map fun i => (s.linkState i, s.linkWidth i)))

/-- AGENT_STATUS_SEND (Table 5.2): every 128 wingbeats. -/
def execAgentStatusSend (s : State) : Out :=
  act s fun s => if s.time.based ∧ s.wb.toNat % 128 = 0 then s.sendStatus else s

/-! ### Failures (R114 to R116) -/

/-- The manager handles a failure: its FAILURE record, its counter, and its event held until step 6 (Table 5.8). -/
def State.failure (s : State) (counter : Fld) (evt : Nat) (args : List (Nat × Nat)) : State :=
  let s1 := (s.bump counter).sillage 0x04 0x02 1 []
  { s1 with mgr := { s1.mgr with failures := s1.mgr.failures ++ [⟨evt, args⟩] } }

/-- Steps 5 and 6 (Table 5.8): bouquets are marked, then the failure events and EVT_DEGRADED are raised. -/
def State.raiseFailures (s : State) : State :=
  let hit := s.loadLost
  let s1 := s.mgr.failures.foldl (fun t f => t.event f.evt f.args) s
  ({ s1 with mgr := { s1.mgr with failures := [] } }).degradeIf hit

/-- Every fabric link of a chip that was reported is out of UP. -/
def State.allLinksLost (s : State) (m : InstMap) (chip : Nat) : Bool :=
  let fab := s.mgr.reports.filter fun q => q.chip == chip && (match mapPort m chip q.port with
    | some p => p.mode.val == 2 | none => false)
  !fab.isEmpty && fab.all fun q => q.state != PS_UP

/-- A switch has failed (Table 5.7). -/
def State.switchFailed (s : State) (chip : Nat) : State :=
  if s.mgr.failed.contains chip ∨ ¬ s.mgr.service.contains chip then s
  else
    let s1 := { s with mgr := { s.mgr with failed := s.mgr.failed ++ [chip] } }
    (s1.failure F.MGR_FAILURES_SWITCHES EVT_SWITCH [(chip, 2)]).needRecompute []

/-- The other end of a reported link has been handled already: its port is no longer held UP. -/
def State.farEndDown (s : State) (chip port : Nat) : Bool :=
  match s.mgr.reports.find? fun q => q.chip == chip && q.port == port with
  | some q => match s.mgr.reports.find? fun x => x.chip == q.id.chip.val && x.port == q.id.port.val with
    | some x => x.state != PS_UP
    | none => false
  | none => false

/-- A LINK_LOSS announcement at the manager (R115): an edge port's loss is an endpoint failure; a fabric link is handled
once for its two ends; a chip with no fabric link left is a failed switch. -/
def State.linkFailed (s : State) (m : InstMap) (chip port cause : Nat) : State :=
  match mapPort m chip port with
  | none => s
  | some p =>
    let args := [(chip, 2), (port, 1)]
    if p.mode.val = PM_EDGE ∧ cause = 0 then
      let s1 := { s with mgr := { s.mgr with reports := s.mgr.reports.filter fun q => !(q.chip == chip && q.port == port) } }
      (s1.showNbr.failure F.MGR_FAILURES_ENDPOINTS EVT_ENDPOINT args).raiseFailures
    else if cause = 1 then
      let far := s.mgr.reports.find? fun q => q.chip == chip && q.port == port
      let seen := match far with
        | some q => s.mgr.failures.any fun f => f.evt == EVT_NARROW && f.args == [(q.id.chip.val, 2), (q.id.port.val, 1)]
        | none => false
      let s1 := { s with mgr := { s.mgr with narrowed := if s.mgr.narrowed.contains (chip, port) then s.mgr.narrowed
                                              else s.mgr.narrowed ++ [(chip, port)] } }
      if seen then s1 else (s1.failure F.MGR_FAILURES_LINKS EVT_NARROW args).needRecompute []
    else
      let again := s.farEndDown chip port
      let down := s.mgr.reports.map fun q => if q.chip = chip ∧ q.port = port then
        { q with state := PS_DOWN, verdict := none } else q
      let s1 := ({ s with mgr := { s.mgr with reports := down } }).showNbr
      let s2 := if again then s1 else (s1.failure F.MGR_FAILURES_LINKS EVT_LINK args).needRecompute []
      if s2.allLinksLost m chip then s2.switchFailed chip else s2

/-- FAULT_RECEIVE (R115, R121): the failure reaction starts. A failed unit raises no event of Table 5.7; bouquets that lost
it are marked. -/
def execFaultReceive (h : MsgHdr) (f : FaultMsg) (s : State) : Out :=
  act s fun s =>
    s.atManager h fun s =>
      match f with
      | .loss chip port cause =>
        (match s.map with | some m => s.linkFailed m chip.val port.val cause.val | none => s)
      | .fault (.endpoint p) _ => (s.failure F.MGR_FAILURES_ENDPOINTS EVT_ENDPOINT [(h.src.val, 2), (p, 1)]).raiseFailures
      | .fault (.port p) _ =>
        (match s.map with | some m => s.linkFailed m h.src.val p 0 | none => s)
      | .fault .chip _ => (s.sillage 0x04 0x02 1 []).degradeIf fun l => (loadNodes l).any fun n => n.chip == h.src.val
      | .fault (.unit kind wing index) _ =>
        if index = 0xFFFF then s else (s.sillage 0x04 0x02 1 []).degradeIf fun l => (loadNodes l).any fun n => n.chip == h.src.val && n.wing == wing
          && (if kind = 0x01 then decide (n.first % 96 ≤ index % 96) && decide (index % 96 < n.first % 96 + n.cores) && n.typ != 0x01
              else kind == 0x03 && n.slots != 0)
      | .alive _ => s

/-- SWITCH_SILENT (R114): no AGENT_STATUS for 384 wingbeats. -/
def execSwitchSilent (chip : Chip) (s : State) : Out :=
  act s fun s =>
    match s.mgr.statuses.find? fun q => q.chip == chip.val with
    | some q => if s.isActive ∧ s.reached (q.heard + 384#48) then s.switchFailed chip.val else s
    | none => s

/-! ### Status reports at the manager (R105, R114) -/

/-- What an agent's port list says of a chip that the manager's records do not hold (R114): a port it held UP is not, or one
has narrowed. -/
def State.reconcilePorts (s : State) (c : Nat) (ports : List (Nat × Nat)) : State :=
  match s.map with
  | none => s
  | some m => (List.range 128).foldl (fun (t : State) i =>
      match ports[i]? with
      | none => t
      | some (st, w) =>
        let heldUp := t.mgr.reports.any fun q => q.chip == c && q.port == i && q.state == PS_UP
        let wide := { t with mgr := { t.mgr with narrowed := t.mgr.narrowed.filter (· != (c, i)) } }
        if heldUp ∧ st ≠ PS_UP then t.linkFailed m c i 0
        else if heldUp ∧ st = PS_UP ∧ w = 6 ∧ (c, i) ∉ t.mgr.narrowed then t.linkFailed m c i 1
        else if st = PS_UP ∧ w = 8 then wide else t) s

/-- Fabric ports that a chip's AGENT_STATUS shows newly in STRANGER raise EVT_STRANGER (R106). -/
def State.newStrangers (s : State) (c : Nat) (ports : List (Nat × Nat)) : State :=
  let new := s.mgr.reports.filter fun q => q.chip == c && !q.id.endpoint && q.state != PS_STRANGER
    && (ports[q.port]?).map (·.1) == some PS_STRANGER
  new.foldl (fun t q => t.event EVT_STRANGER [(c, 2), (q.port, 1)]) s

/-- AGENT_STATUS_RECEIVE (R105, R106, R114): the Monarch's view of the chip; an older MAP_SEQ gets MAP_UPDATE again; a switch
declared failed that reports again is no longer failed, and its links carry paths after the next install. -/
def execAgentStatusReceive (h : MsgHdr) (version mapSeq : Nat) (ports : List (Nat × Nat)) (s : State) : Out :=
  act s fun s =>
    s.atManager h fun s =>
      let c := h.src.val
      let shown := fun (q : Report) =>
        if q.chip = c then { q with state := ((ports[q.port]?).map (·.1)).getD q.state } else q
      let s := (s.newStrangers c ports).reconcilePorts c ports
      let reports := s.mgr.reports.map shown
      let s1 := { s with mgr := { s.mgr with
        statuses := (s.mgr.statuses.filter fun (q : StatusRec) => q.chip != c) ++ [StatusRec.mk c s.wb version mapSeq ports]
        reports := reports } }
      let s2 := if s1.mgr.failed.contains c then
          ({ s1 with mgr := { s1.mgr with failed := s1.mgr.failed.filter (· != c) } }).needRecompute [] else s1
      let s3 := s2.showNbr
      match s3.map with
      | some m => if mapSeq < m.mapSeq.toNat then s3.sendMgmt c (.mapUpdate m) else s3
      | none => s3

/-! ### Routes (R107, R108) -/

/-- A hop from chip `a` runs over a usable link (R108 promise 3): both ends UP with MATCH, between switches in
service. -/
def State.usableHop (s : State) (a : Nat) (h : Hop) : Bool :=
  let inService := fun (c : Nat) => s.mgr.service.contains c && !s.mgr.failed.contains c
  inService a && inService h.chip.val &&
  (match s.mgr.reports.find? fun q => q.chip == a && q.port == h.port.val with
    | some q => q.state == PS_UP && q.verdict == some true && q.id.chip == h.chip
        && (match s.mgr.reports.find? fun x => x.chip == h.chip.val && x.port == q.id.port.val with
          | some x => x.state == PS_UP && x.verdict == some true
          | none => false)
    | none => false)

def State.usableRoute (s : State) (a : Nat) : List Hop → Bool
  | [] => true
  | h :: t => s.usableHop a h && s.usableRoute h.chip.val t

/-- Two chips are joined by a usable direct link. -/
def State.direct (s : State) (a b : Nat) : Bool :=
  s.mgr.reports.any fun q => q.chip == a && q.id.chip.val == b && s.usableHop a ⟨Fin.ofNat 128 q.port, q.id.chip⟩

/-- The promises of R108 that a bank of chip `c` can be held to entry by entry: coverage, validity, usable links, and the
direct link as primary. -/
def State.bankPromises (s : State) (c : Nat) (b : Bank) : Bool :=
  let others := s.mgr.service.filter fun x => x != c && !s.mgr.failed.contains x
  (others.all fun x => b.entries.any fun e => e.dst.val == x)
  && (firstRefused b c).isNone
  && b.entries.all fun e => e.noPath || (s.usableRoute c e.prim
      && (match e.alt with | some a => s.usableRoute c a | none => true)
      && (!s.direct c e.dst.val || e.prim.length == 1))

/-- Entries whose alternate shares a link with the primary (R108 promise 5). -/
def sharedEntries (c : Nat) (b : Bank) : Nat :=
  (b.entries.filter fun e => match e.alt with
    | some a => routeLost c (links c e.prim) a
    | none => false).length
where
  /-- The links of a route as (chip, port). -/
  links (c : Nat) : List Hop → List (Nat × Nat)
    | [] => []
    | h :: t => (c, h.port.val) :: links h.chip.val t

/-- The bank computed last for a chip. -/
def State.lastBank (s : State) (c : Nat) : Bank := ((s.mgr.banks.find? fun q => q.1 == c).map (·.2)).getD Bank.empty

/-- The slices a change affects (R94): those with a member on a chip whose table changes, or every slice where LEVELs
change. -/
def State.affected (s : State) (changed : List (Nat × Bank)) : List Nat :=
  let levels := changed.any fun q => (s.lastBank q.1).levels != q.2.levels
  (s.mgr.slices.filter fun x => levels || x.members.any fun m => changed.any fun q => q.1 == m.chip.val).map (·.num)

/-- Commands that waited for routes end with ROUTE_VERSION (Table 16.6). -/
def State.finishRoutes (s : State) (refs : List FwRef) : State :=
  refs.foldl (fun t r => t.finishFw r ACK_OK (t.fld F.MGR_ROUTE_ROUTE_VERSION)) s

/-- The base pair in force as a WB_BASE body for a place in the time tree (R37). -/
def State.ownBase (s : State) (e : TreeEntry) : WbBase :=
  ⟨s.reg .FT_WB_BASE_FTU, BitVec.ofNat 48 (s.fld F.FT_WB_BASE_NUM_BASE_NUM), Fin.ofNat 4 (s.fld F.FT_WB_CTL_LENGTH),
   e.depth, e.upstream, e.alternate⟩

/-- ROUTE_RECOMPUTE_DONE (R37, R108): the time tree is installed with the routes; the banks computed meet the promises and are written for drain and swap (R94). While a
drain runs a new change waits (R95). -/
def execRouteRecomputeDone (banks : List (Chip × Bank)) (tree : List (Chip × TreeEntry)) (time : Nat) (s : State) : Out :=
  act s fun s =>
    match s.mgr.recompute with
    | none => s
    | some refs =>
      if s.isActive = false ∨ s.mgr.drain.isSome ∨ banks.all (fun q => s.bankPromises q.1.val q.2) = false then s
      else
        let bs := banks.map fun q => (q.1.val, q.2)
        let changed := bs.filter fun q => s.lastBank q.1 != q.2
        let s1 := s.setFld F.MGR_ROUTE_COMPUTE_TIME 0 (min 65535 time)
        let s2 := s1.setFld F.MGR_ROUTE_SHARED 0 (min 65535 ((bs.map fun q => sharedEntries q.1 q.2).sum))
        if changed.isEmpty then
          (({ s2 with mgr := { s2.mgr with recompute := none } }).finishRoutes refs).raiseFailures
        else
          let d : MgrDrain := ⟨changed, s.affected changed, [], [], 0, 0, 0, refs, s.mgr.prepared.isSome⟩
          let s3 := { s2 with mgr := { s2.mgr with recompute := none, drain := some d, drains := s2.mgr.drains + 1
                                                   banks := bs } }
          let s4 := changed.foldl (fun t q => t.askMgmt q.1 (.tableWrite q.2)) s3
          tree.foldl (fun t q => t.sendMgmt q.1.val (.wbBase (t.ownBase q.2))) s4

/-- The packets held at the edge ports go on over the new paths (R94). -/
def State.releaseHeld (s : State) : State :=
  s.net.held.foldl (fun t q => t.ingress q.1 q.2) { s with net := { s.net with held := [] } }

/-- The manager's part of the swap: EVT_ROUTE, the waiting commands' results, and steps 5 and 6 of a failure. -/
def State.mgrSwapped (s : State) : State :=
  match s.mgr.drain with
  | some d =>
    if s.isActive ∧ d.phase = 2 then
      let s1 := { s with mgr := { s.mgr with drain := none } }
      let s2 := s1.setFld F.MGR_ROUTE_ROUTE_VERSION 0 (s1.fld F.EDG_CTL_ROUTE_VERSION)
      let s3 := (s2.finishRoutes d.refs).event EVT_ROUTE []
      let s4 := if d.prepares then s3.event EVT_PLAN_READY [] else s3
      s4.raiseFailures
    else s
  | none => s

/-- SWAP_APPLY (R94): at k the new bank is active, held packets go on, timers resume, ROUTE_VERSION increments. -/
def execSwapApply (s : State) : Out :=
  act s fun s =>
    if s.fld F.EDG_CTL_DRAIN = 3 ∧ s.reached (BitVec.ofNat 48 (s.fld F.EDG_SWAP_AT_WINGBEAT)) then
      s.activate.endDrain.releaseHeld.mgrSwapped
    else s

/-- SWAP_MISSED (R95): no SWAP by s + 256: the slices go on over the old bank, SWAP_MISSED is written, and the Monarch
starts the change again. -/
def execSwapMissed (s : State) : Out :=
  act s fun s =>
    match s.route.stop with
    | some (_, b) =>
      if s.fld F.EDG_CTL_DRAIN = 2 ∧ s.reached (b + 256#48) then
        let s1 := s.endDrain.releaseHeld.sillage 0x03 0x02 2 []
        match s1.mgr.drain with
        | some d => if s1.isActive then ({ s1 with mgr := { s1.mgr with drain := none } }).needRecompute d.refs else s1
        | none => s1
      else s
    | none => s

/-! ### Slices (R109 to R112) -/

def State.sliceRec (s : State) (n : Nat) : Option SliceRec := s.mgr.slices.find? fun x => x.num == n

def State.putSlice (s : State) (r : SliceRec) : State :=
  { s with mgr := { s.mgr with slices := (s.mgr.slices.filter fun x => x.num != r.num) ++ [r] } }

/-- The rank map of a member list (Table 5.6). -/
def rankRows (ms : List Member) : List (BitVec 32) :=
  ms.map fun m => BitVec.ofNat 32 (2 ^ 31 + m.port.val * 2 ^ 16 + m.chip.val)

/-- Each number of a list once, in the order of first appearance. -/
def onceEach (l : List Nat) : List Nat := l.foldl (fun a c => if a.contains c then a else a ++ [c]) []

/-- Tell the slice's chips their entry and rank map (R110): the members' chips, and every chip in service, since any of them may
hold a context of the slice. -/
def State.sendSlice (s : State) (r : SliceRec) : State :=
  let q := match r.phase with | .fresh => none | .running => if r.resumeAt.isSome then some r.quiesceAt else none | _ => some r.quiesceAt
  let e : SliceEntry := ⟨Fin.ofNat 1024 r.num, rankRows r.members, q, r.resumeAt, r.sealAt, false⟩
  (onceEach (r.members.map (fun (m : Member) => m.chip.val) ++ s.agents)).foldl (fun t c => t.sendMgmt c (.sliceTable e)) s

/-- A member the map allows: its chip is named and its port is Edge (R109). -/
def memberOk (m : InstMap) (x : Member) : Bool :=
  match mapPort m x.chip.val x.port.val with
  | some p => p.mode.val == PM_EDGE
  | none => false

/-- What the member commands refuse with ACK_BAD_ARGUMENT (R109, Table 16.7). -/
def State.membersOk (s : State) (flags : Nat) (ms : List Member) : Bool :=
  decide (flags ≤ 1) && decide (ms.length ≤ 32768) && decide ms.Nodup
  && (match s.map with | some m => ms.all (memberOk m) | none => false)

/-- What R112 refuses with ACK_STATE: a compatible slice in a map without COMPAT, or a native one with a member behind a
ZL-7210. -/
def State.compatOk (s : State) (compat : Bool) (ms : List Member) : Bool :=
  match s.map with
  | some m => if compat then m.compat
      else ms.all fun x => match mapChip m x.chip.val with | some c => c.model.val == 0 | none => false
  | none => false

/-- SLICE_CREATE (R109, R112). -/
def execSliceCreate (r : FwRef) (slice flags : Fin 65536) (members : List Member) (s : State) : Out :=
  act s fun s => s.mgrCommand r fun s =>
    if slice.val = 0 ∨ 1023 < slice.val ∨ (s.sliceRec slice.val).isSome ∨ s.membersOk flags.val members = false then
      s.finishFw r ACK_BAD_ARGUMENT 0
    else if s.compatOk (flags.val == 1) members = false then s.finishFw r ACK_STATE 0
    else
      let x : SliceRec := ⟨slice.val, flags.val == 1, members, .fresh, 0, none, none, false, none⟩
      ((s.putSlice x).sendSlice x).finishFw r ACK_OK 0

/-- Membership may not change (R111): the slice is neither QUIESCED nor OPEN before any work. -/
def State.membersFixed (s : State) (x : SliceRec) (ran : Bool) : Bool :=
  match x.phase with
  | .quiesced => false
  | .fresh | .running => ran
  | .quiescing | .stopped => true

/-- SLICE_MEMBERS (R109, R111): only while the slice is QUIESCED, or OPEN with no work run by any context of it, and no bouquet
of it is loaded. `ran` says that some context has run work, which the chips' agents know (log entry 32). -/
def execSliceMembers (r : FwRef) (slice flags : Fin 65536) (members : List Member) (ran : Bool) (s : State) : Out :=
  act s fun s => s.mgrCommand r fun s =>
    match s.sliceRec slice.val with
    | none => s.finishFw r ACK_BAD_ARGUMENT 0
    | some x =>
      if x.isSealed then s.finishFw r ACK_DENIED 0
      else if s.membersOk flags.val members = false ∨ x.compat ≠ (flags.val == 1) then s.finishFw r ACK_BAD_ARGUMENT 0
      else if s.membersFixed x ran ∨ s.sliceBouquet slice.val ∨ s.compatOk x.compat members = false then
        s.finishFw r ACK_STATE 0
      else
        let y := { x with members := members }
        ((s.putSlice y).sendSlice y).finishFw r ACK_OK 0

/-- SLICE_QUIESCE (R111): q lies the named wingbeats ahead, at least 2; the result waits for the slice. -/
def execSliceQuiesce (r : FwRef) (slice ahead : Fin 1024) (s : State) : Out :=
  act s fun s => s.mgrCommand r fun s =>
    match s.sliceRec slice.val with
    | none => s.finishFw r ACK_BAD_ARGUMENT 0
    | some x =>
      if ahead.val < 2 then s.finishFw r ACK_BAD_ARGUMENT 0
      else if x.phase = .quiesced ∨ x.phase = .quiescing then s.finishFw r ACK_STATE 0
      else
        let y := { x with phase := .quiescing, quiesceAt := s.wb + BitVec.ofNat 48 ahead.val, resumeAt := none, ref := some r }
        (s.putSlice y).sendSlice y

/-- SLICE_RESUME (R111): queues start again at the boundary named. -/
def execSliceResume (r : FwRef) (slice ahead : Fin 1024) (s : State) : Out :=
  act s fun s => s.mgrCommand r fun s =>
    match s.sliceRec slice.val with
    | none => s.finishFw r ACK_BAD_ARGUMENT 0
    | some x =>
      if ahead.val < 2 then s.finishFw r ACK_BAD_ARGUMENT 0
      else if x.phase ≠ .quiesced then s.finishFw r ACK_STATE 0
      else
        let b := s.wb + BitVec.ofNat 48 ahead.val
        let y := { x with phase := .running, resumeAt := some b, ref := none }
        ((s.putSlice y).sendSlice y).finishFw r ACK_OK (b.toNat % 2 ^ 32)

/-- SLICE_QUIESCED (R111): every context has no running command and no unacknowledged packet. -/
def execSliceQuiesced (slice : Slice) (s : State) : Out :=
  act s fun s =>
    match s.sliceRec slice.val with
    | some x =>
      if s.isActive ∧ x.phase = .quiescing ∧ s.reached x.quiesceAt ∧ s.sliceBusy slice.val = false then
        let s1 := s.putSlice { x with phase := .quiesced, ref := none }
        match x.ref with
        | some r => s1.finishFw r ACK_OK (x.quiesceAt.toNat % 2 ^ 32)
        | none => s1
      else s
    | none => s

/-- QUIESCE_TIMEOUT (R111): at q + 64 the command ends with ACK_TIMEOUT and the slice stays stopped. -/
def execQuiesceTimeout (slice : Slice) (s : State) : Out :=
  act s fun s =>
    match s.sliceRec slice.val with
    | some x =>
      if s.isActive ∧ x.phase = .quiescing ∧ s.reached (x.quiesceAt + 64#48) then
        let s1 := s.putSlice { x with phase := .stopped, ref := none }
        match x.ref with
        | some r => s1.finishFw r ACK_TIMEOUT 0
        | none => s1
      else s
    | none => s

/-- The agent's entry of a slice. -/
def State.sliceEntry (s : State) (slice : Nat) : Option SliceEntry := s.agent.slices.find? fun e => e.slice.val == slice

/-- A slice is destroyed: the agent's entry goes, and every key of it is erased from the chip (R297). -/
def State.forgetSlice (s : State) (slice : Nat) : State :=
  let sealed' := s.fld F.SEC_SLICE_STATUS_STATE slice == 2
  let s1 := { s with
    agent := { s.agent with slices := s.agent.slices.filter fun x => x.slice.val != slice }
    sec := { s.sec with
      kems := s.sec.kems.filter fun x => x.slice != slice
      slices := s.sec.slices.filter fun x => x.num != slice
      chains := Store.set (fun _ => 0#256) s.sec.chains slice 0 } }
  let s2 := s1.setReg .SEC_SLICE_STATUS slice 0
  if sealed' then s2.setFld F.SEC_STATUS_SEALED_SLICES 0 (s2.fld F.SEC_STATUS_SEALED_SLICES - 1) else s2

/-- SLICE_TABLE_RECEIVE (R110, R367): the rank map of each context of the slice is written; a chip in forward-only
operation ignores it. -/
def execSliceTableReceive (h : MsgHdr) (e : SliceEntry) (s : State) : Out :=
  act s fun s => s.fromManager h fun s =>
    if s.forwardOnly then s
    else if e.gone then s.forgetSlice e.slice.val
    else
      let s1 := { s with agent := { s.agent with
        slices := (s.agent.slices.filter fun x => x.slice != e.slice) ++ [e] } }
      (List.range 4096).foldl (fun t c =>
        if t.ctxState c ≠ 0 ∧ t.ctxSlice c = e.slice.val then t.modCtx c fun x => { x with ranks := e.rows } else t) s1

/-- SLICE_DESTROY (R109, R297): refused while a bouquet of the slice is loaded; every chip forgets the slice. -/
def execSliceDestroy (r : FwRef) (slice : Slice) (s : State) : Out :=
  act s fun s => s.mgrCommand r fun s =>
    match s.sliceRec slice.val with
    | none => s.finishFw r ACK_BAD_ARGUMENT 0
    | some x =>
      if s.sliceBouquet slice.val then s.finishFw r ACK_STATE 0
      else
        let s1 := { s with mgr := { s.mgr with slices := s.mgr.slices.filter fun y => y.num != slice.val } }
        (s1.sendMgmt 0xFFFF (.sliceTable ⟨slice, rankRows x.members, none, none, none, true⟩)).finishFw r ACK_OK 0

/-! ### Capacity and plans (R117 to R119) -/

/-- Every port of a chip that expects a neighbour has MATCH (R117). -/
def State.allMatched (s : State) (m : InstMap) (chip : Nat) : Bool :=
  match mapChip m chip with
  | none => false
  | some c => (List.range 128).all fun i => match c.ports[i]? with
      | some p => p.peerKind.val == 0 || s.mgr.reports.any fun q =>
          q.chip == chip && q.port == i && q.verdict == some true
      | none => true

/-- SWITCH_IN (R117): the result follows the swap. -/
def execSwitchIn (r : FwRef) (chip : Chip) (s : State) : Out :=
  act s fun s => s.mgrCommand r fun s =>
    match s.map with
    | some m =>
      if s.mgr.service.contains chip.val ∨ (mapChip m chip.val).isNone ∨ s.allMatched m chip.val = false then
        s.finishFw r ACK_STATE 0
      else ({ s with mgr := { s.mgr with service := s.mgr.service ++ [chip.val] } }).needRecompute [r]
    | none => s.finishFw r ACK_STATE 0

/-- SWITCH_OUT (R118): refused while the switch holds a bound context (as its agent reports) or a placement of a loaded
bouquet; the result follows the swap. -/
def execSwitchOut (r : FwRef) (chip : Chip) (bound : Bool) (s : State) : Out :=
  act s fun s => s.mgrCommand r fun s =>
    if bound ∨ s.chipBouquet chip.val ∨ s.mgr.service.contains chip.val = false then s.finishFw r ACK_STATE 0
    else ({ s with mgr := { s.mgr with service := s.mgr.service.filter (· != chip.val) } }).needRecompute [r]

/-- The bytes of a plan (R119). -/
def planBytes (p : Plan) : List Byte :=
  leBytes 4 p.id.toNat ++ leBytes 1 p.shape.val ++ leBytes 1 p.x.val ++ leBytes 1 p.y.val ++ leBytes 1 p.z.val
  ++ leBytes 2 p.cross.length ++ leBytes 4 p.mapSeq.toNat ++ List.replicate 50 0
  ++ (p.cross.map fun c => leBytes 2 c.ocs.val ++ leBytes 2 c.portA.val ++ leBytes 2 c.portB.val ++ [0, 0]).flatten

/-- PLAN_EXPORT (R119): the plan the firmware found for the shape, none where no plan keeps R37 and reachability; it is
written at DEST in the sender's port space. -/
def execPlanExport (r : FwRef) (owner : Fin 4) (shape x y z : Fin 256) (dest : Word) (destLen : Nat)
    (plan : Option Plan) (s : State) : Out :=
  act s fun s => s.mgrCommand r fun s =>
    match plan with
    | none => s.finishFw r ACK_BAD_ARGUMENT 0
    | some p =>
      let bytes := planBytes p
      let grid := shape.val == 1 || shape.val == 2
      if 3 < shape.val ∨ p.shape ≠ shape ∨ p.x ≠ x ∨ p.y ≠ y ∨ p.z ≠ z ∨ (grid = false ∧ (x.val ≠ 0 ∨ y.val ≠ 0 ∨ z.val ≠ 0))
          ∨ p.mapSeq.toNat ≠ s.fld F.MGR_MAP_MAP_SEQ ∨ destLen < bytes.length then
        s.finishFw r ACK_BAD_ARGUMENT 0
      else
        let s1 := { s with mgr := { s.mgr with plans := (s.mgr.plans.filter fun (q : Plan) => q.id != p.id) ++ [p] } }
        (s1.emit (.hostWrite owner.val dest.toNat bytes)).finishFw r ACK_OK p.id.toNat

/-- Cross-connects of a plan that the other does not have, as optical circuit switch ports. -/
def changedCross (a b : List Cross) : List (Nat × Nat) :=
  ((a.filter fun c => !b.contains c) ++ (b.filter fun c => !a.contains c)).flatMap fun c =>
    [(c.ocs.val, c.portA.val), (c.ocs.val, c.portB.val)]

/-- A loaded bouquet claims a port whose cross-connect changes (R119). -/
def State.planBlocked (s : State) (p : Plan) : Bool :=
  match s.map with
  | none => true
  | some m => (changedCross p.cross ((s.mgr.applied.map (·.cross)).getD [])).any fun q =>
      match ocsEnd m q.1 q.2 with
      | some (c, i) => s.podPortClaimed c i
      | none => false

/-- Start preparing a plan: routes that use no changing port are computed and installed. -/
def State.preparePlan (s : State) (r : FwRef) (id : BitVec 32) : State :=
  match s.mgr.plans.find? fun p => p.id == id with
  | none => s.finishFw r ACK_STATE 0
  | some p =>
    if s.planBlocked p then s.finishFw r ACK_STATE 0
    else (({ s with mgr := { s.mgr with prepared := some p } }).setFld F.MGR_PLAN_PREPARED 0 id.toNat).needRecompute [r]

/-- PLAN_PREPARE (R119): a second prepare waits until the first plan is applied or cancelled. -/
def execPlanPrepare (r : FwRef) (id : BitVec 32) (s : State) : Out :=
  act s fun s => s.mgrCommand r fun s =>
    if s.mgr.prepared.isSome then { s with mgr := { s.mgr with prepWait := s.mgr.prepWait ++ [(r, id)] } }
    else s.preparePlan r id

/-- No plan is pending any more: the next waiting prepare starts. -/
def State.nextPrepare (s : State) : State :=
  match s.mgr.prepWait with
  | (r, id) :: t => ({ s with mgr := { s.mgr with prepWait := t } }).preparePlan r id
  | [] => s

/-- PLAN_APPLIED (R119): routes are computed for the new shape; the result follows the install. -/
def execPlanApplied (r : FwRef) (id : BitVec 32) (s : State) : Out :=
  act s fun s => s.mgrCommand r fun s =>
    match s.mgr.prepared with
    | some p =>
      if p.id = id then
        let s1 := { s with mgr := { s.mgr with prepared := none, applied := some p } }
        let s2 := (s1.setFld F.MGR_PLAN_PREPARED 0 0).setFld F.MGR_PLAN_APPLIED 0 id.toNat
        (s2.needRecompute [r]).nextPrepare
      else s.finishFw r ACK_STATE 0
    | none => s.finishFw r ACK_STATE 0

/-- PLAN_CANCEL (R119): routes return to the applied plan; the result follows the install. -/
def execPlanCancel (r : FwRef) (id : BitVec 32) (s : State) : Out :=
  act s fun s => s.mgrCommand r fun s =>
    match s.mgr.prepared with
    | some p =>
      if p.id = id then
        let s1 := ({ s with mgr := { s.mgr with prepared := none } }).setFld F.MGR_PLAN_PREPARED 0 0
        (s1.needRecompute [r]).nextPrepare
      else s.finishFw r ACK_STATE 0
    | none => s.finishFw r ACK_STATE 0

/-- NO_PATH entries of the banks last computed. -/
def State.noPathEntries (s : State) : Nat :=
  (s.mgr.banks.map fun q => (q.2.entries.filter fun e => e.noPath).length).sum

/-- ROUTE_STATUS (Table 16.6). -/
def execRouteStatus (r : FwRef) (s : State) : Out :=
  act s fun s => s.mgrCommand r fun s =>
    let block := leBytes 4 (s.fld F.MGR_ROUTE_ROUTE_VERSION) ++ leBytes 4 (s.fld F.MGR_ROUTE_SHARED)
      ++ leBytes 4 s.noPathEntries ++ leBytes 4 (s.fld F.MGR_ROUTE_COMPUTE_TIME) ++ leBytes 4 s.mgr.drains
      ++ List.replicate 12 0
    s.finishFw r ACK_OK 32 block

/-! ### Endpoints (R120, R121) -/

/-- EP_DISCOVER_SEND (R120, Table 5.10). -/
def execEpDiscoverSend (port : Port) (s : State) : Out :=
  act s fun s =>
    if s.fld F.PRT_CTL_MODE port.val = PM_EDGE ∧ s.linkState port.val = PS_UP then
      let m := Mgmt.epDiscover s.chip port.val (s.fld F.FT_WB_CTL_LENGTH) (s.fld F.FT_STATUS_DEPTH)
        (s.reg .FT_WB_BASE_FTU) (BitVec.ofNat 48 (s.fld F.FT_WB_BASE_NUM_BASE_NUM))
      (s.modEp port.val fun e => { e with discover := some s.wb }).emit
        (.linkMgmt ⟨port.val, Nat.lt_trans port.isLt (by decide)⟩ m)
    else s

/-- EP_IDENTITY_RECEIVE (R120): the endpoint is identified. -/
def execEpIdentityReceive (port : Port) (device : Word) (window : Nat) (features : BitVec 32) (s : State) : Out :=
  act s fun s =>
    if s.fld F.PRT_CTL_MODE port.val = PM_EDGE ∧ s.linkState port.val = PS_UP ∧ window ≤ 2 ^ 40 then
      s.modEp port.val fun e => { e with ident := some (device, window, features), discover := none }
    else s

/-- The endpoint becomes SILENT, and the agent sends FAULT (R121). -/
def State.epSilent (s : State) (port : Nat) : State :=
  if (s.ep port).silent then s.modEp port fun e => { e with run := 0 }
  else (s.modEp port fun e => { e with silent := true, run := 0 }).sendMgmt 0xFFFE (.fault (.endpoint port) 0)

/-- A heartbeat's WB_NUM lies within 1 wingbeat of the switch's (R121). -/
def beatValid (now wb : Wb) : Bool := decide ((wb - now + 1#48).toNat ≤ 2)

/-- EP_HEARTBEAT_RECEIVE (R121): at most two heartbeats count in a wingbeat; a WB_NUM more than 1 away makes the endpoint
SILENT; 16 consecutive wingbeats of valid heartbeats make a SILENT endpoint ALIVE, which is reported. -/
def execEpHeartbeatReceive (port : Port) (wb : Wb) (s : State) : Out :=
  act s fun s =>
    let e := s.ep port.val
    let same := e.lastBeat == some s.wb
    if s.fld F.PRT_CTL_MODE port.val ≠ PM_EDGE ∨ s.linkState port.val ≠ PS_UP ∨ (same ∧ 2 ≤ e.beats) then s
    else if beatValid s.wb wb = false then s.epSilent port.val
    else
      let run := if same then e.run else if e.lastBeat = some (s.wb - 1#48) then e.run + 1 else 1
      let s1 := s.modEp port.val fun e => { e with
        lastBeat := some s.wb, beats := if same then e.beats + 1 else 1, run := run }
      if e.silent ∧ 16 ≤ run then
        (s1.modEp port.val fun e => { e with silent := false }).sendMgmt 0xFFFE (.endpointAlive port.val)
      else s1

/-- ENDPOINT_SILENT (R121): no heartbeat for 4 consecutive wingbeats. -/
def execEndpointSilent (port : Port) (s : State) : Out :=
  act s fun s =>
    let late : Bool := match (s.ep port.val).lastBeat with
      | some b => s.reached (b + 4#48)
      | none => true
    if s.fld F.PRT_CTL_MODE port.val = PM_EDGE ∧ s.linkState port.val = PS_UP ∧ late then s.epSilent port.val else s

/-- EPOCH_ACK_RECEIVE (R120): the notice is answered. -/
def execEpochAckReceive (port : Port) (ctx : Ctx) (epoch : Fin 256) (s : State) : Out :=
  act s fun s =>
    s.modEp port.val fun e => { e with notices := e.notices.filter fun q => !(q.1 == ctx.val && q.2 == epoch.val) }

end Sys2Proof.Machine
end

