-- ==== Sys2Proof/Machine/Context.lean ====
section
/-! DEFINITION. Sys2Proof/Machine/Context.lean: contexts, their bindings, pages, queues and channels as the firmware makes
and removes them (R140 to R143, R160, R162, R251 to R254, R271).
(log entries of this file: DEDUCED 41, 42, 43, 85; DESIGN CHOICE 13) -/

namespace Sys2Proof.Machine

/-! ### Contexts (R140 to R142) -/

/-- Event counters the chip's contexts own together (R152). -/
def State.counterSum (s : State) : Nat := (s.contexts.map fun c => s.fld F.QUE_CTX_STATUS_EVT_COUNT c).sum

/-- A slice's home context on this chip (R252). -/
def State.homeOf (s : State) (slice : Nat) : Option Nat :=
  s.contexts.find? fun c => s.ctxSlice c == slice && (s.ctx c).home && s.ctxState c != 4

/-- The context a create gives: the one named, or for 0xFFFF some free one, a free value (log entry 13). -/
def State.pickCtx (s : State) (n : Nat) : Nat × State :=
  if n = 0xFFFF then
    let (v, s1) := s.fresh
    (firstNotIn s1.contexts 0 4096 v (s1.contexts.length + 1), s1)
  else (n, s)

/-- A context starts: ACTIVE at the epoch its number last held, with counters 0 and a new pool key (R142, R152, R295). -/
def State.makeCtx (s : State) (c slice events : Nat) (home : Bool) : State :=
  let s1 := (s.setFld F.QUE_CTX_STATUS_STATE c 1).setFld F.QUE_CTX_STATUS_SLICE c slice
  let s2 := (s1.setFld F.QUE_CTX_STATUS_EVT_COUNT c events).setFld F.QUE_CTX_STATUS_SEALED c (bit (s.isSealed slice))
  let s3 := (s2.setFld F.QUE_CTX_STATUS_RESETS c 0).setCtx c { CtxSt.init with
    home := home, ranks := ((s.sliceEntry slice).map (·.rows)).getD [], key := s.pool.keys + 1 }
  { s3 with pool := { s3.pool with keys := s3.pool.keys + 1 } }

/-- CTX_CREATE (R140, R142, R252, R298, R348). -/
def execCtxCreate (r : FwRef) (slice ctx : Fin 65536) (events : Nat) (flags : Fin 256) (tenant : Bool) (s : State) : Out :=
  act s fun s =>
    let home := flags.val == 1
    if 1 < flags.val ∨ 1023 < slice.val ∨ (4095 < ctx.val ∧ ctx.val ≠ 0xFFFF) ∨ 65536 < events
        ∨ (s.sliceEntry slice.val).isNone then s.finishFw r ACK_BAD_ARGUMENT 0
    else if s.flag F.INS_STATUS_IMAGO = false then s.finishFw r ACK_STATE 0
    else if s.isSealed slice.val ∧ tenant = false then s.finishFw r ACK_DENIED 0
    else if (ctx.val = 0xFFFF ∧ 4096 ≤ s.contexts.length) ∨ 65536 < s.counterSum + events then
      s.finishFw r ACK_NO_RESOURCE 0
    else if (ctx.val ≠ 0xFFFF ∧ s.ctxState ctx.val ≠ 0) ∨ (home ∧ (s.homeOf slice.val).isSome) then
      s.finishFw r ACK_STATE 0
    else
      let (c, s1) := s.pickCtx ctx.val
      (s1.makeCtx c slice.val events home).finishFw r ACK_OK (s.ctxEpoch c * 2 ^ 16 + c)

/-- The chip is no switch in service (R109, R117): installed but idle and never given a bank, or left out of the LEVELs of its
active bank, as a withdrawn switch is. -/
def State.notInService (s : State) : Bool :=
  if s.fld F.EDG_CTL_VALID 0 = 0 then ((s.map.bind fun m => mapChip m s.chip).map fun c => c.initial.val == 1) == some true
  else !s.activeBank.levels.isEmpty && (levelOf s.activeBank s.chip).isNone

/-- CTX_BIND (R109, R117, R140, R255, R298): RANK's member must be this chip and port, its endpoint identified, and the switch in
service. -/
def execCtxBind (r : FwRef) (ctx : Ctx) (port : Port) (rank : Rank) (winRead winWrite : Bool) (s : State) : Out :=
  act s fun s =>
    let c := ctx.val
    if s.ctxState c = 0 ∨ ((s.ctx c).ranks[rank.val]?).bind rankEntry ≠ some (s.chip, port.val) then
      s.finishFw r ACK_BAD_ARGUMENT 0
    else if s.isSealed (s.ctxSlice c) then s.finishFw r ACK_DENIED 0
    else if (s.ep port.val).ident.isNone ∨ s.notInService then s.finishFw r ACK_STATE 0
    else
      let b : Binding := ⟨port.val, rank.val, winRead, winWrite⟩
      (s.modCtx c fun x => { x with
        bindings := (x.bindings.filter fun q => q.port != port.val) ++ [b] }).finishFw r ACK_OK 0

/-- CTX_UNBIND (R140, R298). -/
def execCtxUnbind (r : FwRef) (ctx : Ctx) (port : Port) (s : State) : Out :=
  act s fun s =>
    let c := ctx.val
    if (s.binding c port.val).isNone then s.finishFw r ACK_BAD_ARGUMENT 0
    else if s.isSealed (s.ctxSlice c) then s.finishFw r ACK_DENIED 0
    else (s.modCtx c fun x => { x with bindings := x.bindings.filter fun q => q.port != port.val }).finishFw r ACK_OK 0

/-- A reset or a destroy is requested (R160, R162, R163): it takes effect at the next boundary; the requests of one wingbeat
are one, and a destroy replaces a reset. -/
def State.askReset (s : State) (c : Nat) (destroy : Bool) : State :=
  let s1 := s.modCtx c fun x => { x with
    resetAt := some (x.resetAt.getD (s.wb + 1#48)), destroys := x.destroys || destroy }
  if s.ctxState c = 3 then s1 else s1.setFld F.QUE_CTX_STATUS_STATE c 2

/-- CTX_RESET (R160): the result names the epoch after the reset. -/
def execCtxReset (r : FwRef) (ctx : Ctx) (s : State) : Out :=
  act s fun s =>
    let st := s.ctxState ctx.val
    if st = 0 ∨ st = 3 ∨ st = 4 ∨ (s.ctx ctx.val).destroys then s.finishFw r ACK_STATE 0
    else (s.askReset ctx.val false).finishFw r ACK_OK ((s.ctxEpoch ctx.val + 1) % 256)

/-- CTX_DESTROY (R162, R246): refused while a loaded bouquet names the context. -/
def execCtxDestroy (r : FwRef) (ctx : Ctx) (s : State) : Out :=
  act s fun s =>
    let st := s.ctxState ctx.val
    if st = 0 ∨ st = 4 ∨ s.ctxBouquet ctx.val then s.finishFw r ACK_STATE 0
    else (s.askReset ctx.val true).finishFw r ACK_OK 0

/-! ### Escalation counts (R358 to R360) -/

/-- How many of the times lie within the last `secs` seconds of fabric time. -/
def State.within (s : State) (ts : List Nat) (secs : Nat) : Nat :=
  (ts.filter fun t => decide (s.ftu.toNat < t + secs * 1600000000)).length

/-- CONTEXT resets on the chip within CHIP_WINDOW, COMPUTE resets within COMPUTE_WINDOW, and resets of a context within
CTX_WINDOW. -/
def State.escContext (s : State) : Nat := s.within s.power.chipResets (s.fld F.RST_ESC_LIMITS_CHIP_WINDOW)
def State.escCompute (s : State) : Nat := s.within s.power.computeTimes (s.fld F.RST_ESC_LIMITS_COMPUTE_WINDOW)
def State.escOf (s : State) (c : Nat) : Nat := s.within (s.ctx c).resets (s.fld F.RST_ESC_LIMITS_CTX_WINDOW)

/-! ### Queues (R143) -/

/-- The base is aligned and the bytes lie in pages the context holds. -/
def State.areaOk (s : State) (c base log : Nat) : Bool :=
  decide (base % 2 ^ log = 0) && decide (base < 2 ^ 47) && s.mapped c base (2 ^ log)

/-- Remove a queue and everything held for it. -/
def State.dropQueue (s : State) (q : Nat) : State :=
  let s1 := (((s.setReg .QUE_CFG q 0).setReg .QUE_RING_BASE q 0).setReg .QUE_CQ_BASE q 0)
  let s2 := (s1.setReg .QUE_INDEX q 0).setReg .QUE_CQ_INDEX q 0
  { s2 with que := ⟨s2.que.runs.filter fun r => r.queue != q, s2.que.laps.filter fun l => l.queue != q⟩ }

/-- QUEUE (R143): create zeroes the ledger and the indexes and sets RUNNING; destroy needs a STOPPED queue. -/
def execQueue (r : FwRef) (queue ctx : Fin 65536) (op ringLog cqLog : Fin 256) (ringBase cqBase : Word) (s : State) : Out :=
  act s fun s =>
    let q := queue.val
    let c := ctx.val
    let k := ringLog.val
    let j := cqLog.val
    if 16383 < q ∨ 4095 < c ∨ 1 < op.val then s.finishFw r ACK_BAD_ARGUMENT 0
    else if op.val = 1 then
      if s.fld F.QUE_CFG_STATE q ≠ 2 then s.finishFw r ACK_STATE 0
      else if s.queueCtx q ≠ c then s.finishFw r ACK_BAD_ARGUMENT 0
      else (s.dropQueue q).finishFw r ACK_OK 0
    else if s.fld F.QUE_CFG_STATE q ≠ 0 then s.finishFw r ACK_STATE 0
    else if k < 4 ∨ 16 < k ∨ j < 4 ∨ 16 < j ∨ s.ctxState c = 0 ∨ s.areaOk c ringBase.toNat (k + 7) = false
        ∨ s.areaOk c cqBase.toNat (j + 5) = false then s.finishFw r ACK_BAD_ARGUMENT 0
    else if s.ctxState c ≠ 1 then s.finishFw r ACK_STATE 0
    else
      let s1 := ((s.setReg .QUE_CFG q 0).setFld F.QUE_CFG_CONTEXT q c).setFld F.QUE_CFG_CQ_LOG q j
      let s2 := (s1.setFld F.QUE_CFG_RING_LOG q k).setFld F.QUE_CFG_STATE q 1
      let s3 := (s2.setReg .QUE_RING_BASE q ringBase).setReg .QUE_CQ_BASE q cqBase
      let s4 := (s3.setReg .QUE_INDEX q 0).setReg .QUE_CQ_INDEX q 0
      (s4.ctxWrite c (ringBase.toNat + 2 ^ k * 64) (List.replicate (2 ^ k * 64) 0)).finishFw r ACK_OK 0

/-! ### Atomizer-L channels (R271) -/

/-- The register index of an Atomizer-L channel. -/
def chanIx (wing chan : Nat) : Nat := wing * 256 + chan

/-- CHANNEL (R271): gives a channel to a context, or releases it. -/
def execChannel (r : FwRef) (wing : Wing) (chan : Fin 256) (ctx : Ctx) (release : Bool) (s : State) : Out :=
  act s fun s =>
    let i := chanIx wing.val chan.val
    let st := s.fld F.ATL_CH_STATUS_STATE i
    let other := st ≠ 0 ∧ s.fld F.ATL_CH_STATUS_CONTEXT i ≠ ctx.val
    if other ∨ 2 ≤ st then s.finishFw r ACK_STATE 0
    else if release then (s.setReg .ATL_CH_STATUS i 0).finishFw r ACK_OK 0
    else if s.ctxState ctx.val = 0 then s.finishFw r ACK_BAD_ARGUMENT 0
    else ((s.setFld F.ATL_CH_STATUS_STATE i 1).setFld F.ATL_CH_STATUS_CONTEXT i ctx.val).finishFw r ACK_OK 0

/-! ### Pages (R251 to R254) -/

/-- Pages of a range of `n` from `v` on wing `w`. -/
def pagesOnWing (v n w : Nat) : Nat := (n + (3 - (w + 4 - v % 4) % 4)) / 4

/-- Take a frame for each page of a range (R250). -/
def takeFrames (perm : Nat) : Nat → Nat → List Page × State → List Page × State
  | _, 0, x => x
  | v, n + 1, x =>
    let (f, s1) := x.2.takeFrame (v % 4)
    takeFrames perm (v + 1) n (x.1 ++ [⟨v, f, perm⟩], s1)

/-- PAGE_GRANT (R253, R298): the frames are taken and zero-filled; the mappings and the result wait for
GRANT_ZEROFILL_DONE. -/
def execPageGrant (r : FwRef) (ctx : Fin 65536) (perm : Fin 256) (count : BitVec 32) (first : Word) (tenant : Bool)
    (s : State) : Out :=
  act s fun s =>
    let c := ctx.val
    let v := first.toNat
    let n := count.toNat
    let names := fun (p : Page) => decide (v ≤ p.page) && decide (p.page < v + n)
    if s.flag F.INS_STATUS_IMAGO = false then s.finishFw r ACK_STATE 0
    else if 4095 < c ∨ 15 < perm.val ∨ n = 0 ∨ 2 ^ 26 < v + n ∨ s.ctxState c = 0 ∨ s.ctxState c = 4
        ∨ (s.ctx c).pages.any names ∨ (s.ctx c).grants.any (fun g => g.pages.any names) then s.finishFw r ACK_BAD_ARGUMENT 0
    else if s.isSealed (s.ctxSlice c) ∧ tenant = false then s.finishFw r ACK_DENIED 0
    else
      let short := fun (w : Nat) => decide (s.freeFrames w < pagesOnWing v n w)
      let hard := fun (w : Nat) => decide (s.freeFrames w + s.fld F.HBM_POOL_SCRUB_QUEUED w < pagesOnWing v n w)
      if (List.range 4).any hard then s.finishFw r ACK_DENIED 0
      else if (List.range 4).any short then s.finishFw r ACK_BUSY 0
      else
        let (ps, s1) := takeFrames perm.val v n ([], s)
        (s1.modCtx c fun x => { x with grants := x.grants ++ [⟨ps, r⟩] }).showPool

/-- GRANT_ZEROFILL_DONE (R253): the oldest grant's last page is zero; every mapping takes effect, then the result
follows. -/
def execGrantZerofillDone (ctx : Ctx) (s : State) : Out :=
  act s fun s =>
    match (s.ctx ctx.val).grants with
    | [] => s
    | g :: t =>
      let s1 := g.pages.foldl (fun a p => a.zeroFrame p.frame) s
      (s1.modCtx ctx.val fun x => { x with pages := x.pages ++ g.pages, grants := t }).finishFw g.ref ACK_OK 0

/-- PAGE_UNGRANT (R254, R270): requests resolved from here on are refused; the frames are queued for scrubbing. -/
def execPageUngrant (r : FwRef) (ctx : Fin 65536) (count : BitVec 32) (first : Word) (s : State) : Out :=
  act s fun s =>
    let c := ctx.val
    let v := first.toNat
    let names := fun (p : Page) => decide (v ≤ p.page) && decide (p.page < v + count.toNat)
    let ps := (s.ctx c).pages.filter names
    if 4095 < c ∨ count = 0 ∨ 2 ^ 26 < v + count.toNat ∨ ps.length ≠ count.toNat then s.finishFw r ACK_BAD_ARGUMENT 0
    else
      let s1 := s.modCtx c fun x => { x with pages := x.pages.filter fun p => !names p }
      ((ps.foldl (fun t p => t.releaseFrame p.frame) s1).showPool).finishFw r ACK_OK 0

/-- FRAME_SCRUB_DONE (R254): the oldest frame in a wing's scrub queue is raw zero and free for grants. Frames kept from before a WARM
reset wait for Imago (R353), and none is scrubbed in self-refresh (Table 18.9). -/
def execFrameScrubDone (wing : Wing) (s : State) : Out :=
  act s fun s =>
    match s.pool.scrub.find? fun f => wingOfFrame f == wing.val && s.flag F.INS_STATUS_IMAGO && !s.power.refresh with
    | none => s
    | some f =>
      let s1 := s.zeroFrame f
      { s1 with pool := { s1.pool with
          scrub := s1.pool.scrub.erase f
          used := if f < 884736 then s1.pool.used.erase f else s1.pool.used
          spare := if f < 884736 then s1.pool.spare else s1.pool.spare ++ [f] } }.showPool

end Sys2Proof.Machine
end

