-- ==== Sys2Proof/Machine/Queue.lean ====
section
/-! DEFINITION. Sys2Proof/Machine/Queue.lean: doorbells, starting and completing commands, event counters, fences and pool
moves (R144 to R157, R256 to R259, R264, R279).
(log entries of this file: DEDUCED 44, 45, 61; DESIGN CHOICE 1) -/

namespace Sys2Proof.Machine

/-! ### Doorbells (R145, R146) -/

/-- Signed difference of two free-running indexes (R144). -/
def serialDiff (a b : Nat) : Int := (BitVec.ofNat 32 a - BitVec.ofNat 32 b).toInt

def State.head (s : State) (q : Nat) : Nat := s.fld F.QUE_INDEX_HEAD q
def State.tail (s : State) (q : Nat) : Nat := s.fld F.QUE_INDEX_TAIL q
def State.cqHead (s : State) (q : Nat) : Nat := s.fld F.QUE_CQ_INDEX_CQ_HEAD q
def State.cqTail (s : State) (q : Nat) : Nat := s.fld F.QUE_CQ_INDEX_CQ_TAIL q

/-- SUBMIT: INDEX is the new TAIL. -/
def State.dbSubmit (s : State) (src : DbSource) (q i : Nat) : State :=
  s.doorbell src q (decide (0 ≤ serialDiff i (s.tail q)) && decide (serialDiff i (s.head q) ≤ 2 ^ s.ringLog q)) fun s =>
    if i = s.tail q then s
    else
      let s1 := s.setFld F.QUE_INDEX_TAIL q i
      { s1 with que := { s1.que with laps := s1.que.laps ++ [⟨q, i, 64⟩] } }

/-- CQ_HEAD: INDEX is the new CQ_HEAD. -/
def State.dbCqHead (s : State) (src : DbSource) (q i : Nat) : State :=
  s.doorbell src q (decide (0 ≤ serialDiff i (s.cqHead q)) && decide (0 ≤ serialDiff (s.cqTail q) i)) fun s =>
    s.setFld F.QUE_CQ_INDEX_CQ_HEAD q i

/-- Covers of slots that HEAD has passed are done with. -/
def State.trimCovers (s : State) (q : Nat) : State :=
  { s with que := { s.que with laps := s.que.laps.filter fun l => l.queue != q || decide (0 < serialDiff l.tail (s.head q)) } }

/-- RESUME (R160): a STOPPED queue of an ACTIVE context restarts at INDEX. -/
def State.dbResume (s : State) (src : DbSource) (q i : Nat) : State :=
  s.doorbell src q (s.fld F.QUE_CFG_STATE q == 2 && s.ctxState (s.queueCtx q) == 1
      && decide (0 ≤ serialDiff i (s.head q)) && decide (0 ≤ serialDiff (s.tail q) i)) fun s =>
    ((s.setFld F.QUE_INDEX_HEAD q i).setFld F.QUE_CFG_STATE q 1).trimCovers q

/-- DB_SUBMIT (R146). -/
def execDbSubmit (src : DbSource) (queue : Queue) (index : BitVec 32) (s : State) : Out :=
  act s fun s => s.dbSubmit src queue.val index.toNat

/-- DB_CQ_HEAD (R146). -/
def execDbCqHead (src : DbSource) (queue : Queue) (index : BitVec 32) (s : State) : Out :=
  act s fun s => s.dbCqHead src queue.val index.toNat

/-- DB_RESUME (R146, R160). -/
def execDbResume (src : DbSource) (queue : Queue) (index : BitVec 32) (s : State) : Out :=
  act s fun s => s.dbResume src queue.val index.toNat

/-! ### Slots (R148, R149) -/

def slotByte (sl : List Byte) (i : Nat) : Nat := (sl.getD i 0).toNat
def slotNum (sl : List Byte) (i n : Nat) : Nat := ofLe ((sl.drop i).take n)

def slotOpcode (sl : List Byte) : Nat := slotByte sl 0
def slotQuiet (sl : List Byte) : Bool := (slotByte sl 1).testBit 0
def slotSignal (sl : List Byte) : Bool := (slotByte sl 1).testBit 1
def slotAlways (sl : List Byte) : Bool := (slotByte sl 1).testBit 2
def slotWaits (sl : List Byte) : Nat := slotByte sl 2 % 8
def slotLap (sl : List Byte) : Nat := slotByte sl 3
def slotCtr (sl : List Byte) : Nat := slotNum sl 4 2
/-- Wait `i` of a slot: counter and threshold (Table 7.3). -/
def slotWait (sl : List Byte) (i : Nat) : Nat × Nat := (slotNum sl (8 + 6 * i) 2, slotNum sl (10 + 6 * i) 4)

/-- Bytes `a` to 63 of the slot are zero. -/
def zeroFrom (sl : List Byte) (a : Nat) : Bool := (sl.drop a).all fun b => b == 0

/-- The operand bytes of Table 7.4 that are reserved are zero, and the operand codes are not reserved. -/
def operandsOk (sl : List Byte) : Bool :=
  match slotOpcode sl with
  | 0x00 => zeroFrom sl 32
  | 0x01 => zeroFrom sl 60
  | 0x02 => decide (slotNum sl 32 2 < 4096) && decide (slotByte sl 34 ≤ 5) && decide (slotByte sl 35 ≤ 4)
      && slotNum sl 37 3 == 0 && zeroFrom sl 56
  | 0x10 => zeroFrom sl 52
  | 0x11 => zeroFrom sl 52
  | 0x12 => decide (slotNum sl 40 2 < 256) && zeroFrom sl 42
  | 0x20 => slotNum sl 38 2 == 0 && zeroFrom sl 48
  | 0x30 => zeroFrom sl 32
  | 0x31 => slotNum sl 34 2 == 0 && zeroFrom sl 40
  | 0x32 => decide (slotByte sl 32 ≤ 1) && decide (slotNum sl 33 2 < 256) && zeroFrom sl 35
  | _ => false

/-- The reserved fields of Table 7.3 are zero, and the operands are in order (R11, R148, R149). -/
def slotFormOk (sl : List Byte) : Bool :=
  decide (slotByte sl 1 < 8) && decide (slotByte sl 2 ≤ 4) && slotNum sl 6 2 == 0
  && (List.range 4).all (fun i => decide (i < slotWaits sl) || slotNum sl (8 + 6 * i) 6 == 0) && operandsOk sl

/-- A queue's wing holds the channel, and the context owns it (R151). -/
def State.ownsChannel (s : State) (c wing chan : Nat) : Bool :=
  s.fld F.ATL_CH_STATUS_STATE (chanIx wing chan) != 0 && s.fld F.ATL_CH_STATUS_CONTEXT (chanIx wing chan) == c

/-- The counters, Skipper group, channel and bouquet a slot names belong to its context (R151). -/
def State.slotOwned (s : State) (c q : Nat) (sl : List Byte) : Bool :=
  let n := s.fld F.QUE_CTX_STATUS_EVT_COUNT c
  (List.range (slotWaits sl)).all (fun i => decide ((slotWait sl i).1 < n))
  && (!slotSignal sl || decide (slotCtr sl < n))
  && match slotOpcode sl with
    | 0x02 => s.ownsGroup c (slotNum sl 32 2)
    | 0x12 => s.ownsChannel c (q / 4096) (slotNum sl 40 2)
    | 0x20 => s.ownsBouquet c (slotNum sl 32 4)
    | 0x31 => decide (slotNum sl 32 2 < n)
    | 0x32 => slotByte sl 32 == 0 || s.ownsChannel c (q / 4096) (slotNum sl 33 2)
    | _ => true

/-- Slices sealed STRICT start only these commands, and COLL where it attaches (R304). -/
def strictAllows (op : Nat) : Bool := [0x00, 0x01, 0x30, 0x31, 0x32].contains op

/-- The status with which a slot is refused as it starts. -/
def State.slotRefusal (s : State) (c q : Nat) (sl : List Byte) : Option Nat :=
  if slotFormOk sl = false then some ST_REFUSED_FORMAT
  else if s.slotOwned c q sl = false then some ST_REFUSED_AUTH
  else if s.isSealed (s.ctxSlice c) ∧ s.flag F.SEC_SLICE_STATUS_STRICT (s.ctxSlice c) ∧ strictAllows (slotOpcode sl) = false then
    some ST_REFUSED_STATE
  else none

/-- The full extent of a command, where its slot gives one (Table 7.4); 0 otherwise. -/
def slotFull (sl : List Byte) : Nat :=
  match slotOpcode sl with
  | 0x01 => 0
  | 0x10 => slotNum sl 48 4
  | 0x11 => slotNum sl 48 4
  | 0x12 => 0
  | _ => 1

/-! ### Counters (R152) -/

def State.counter (s : State) (c n : Nat) : BitVec 32 := Store.get (fun _ => 0#32) (s.ctx c).counters n

def State.addCounter (s : State) (c n add : Nat) : State :=
  s.modCtx c fun x => { x with counters := Store.set (fun _ => 0#32) x.counters n (s.counter c n + BitVec.ofNat 32 add) }

/-- A wait is met (R152). -/
def State.waitMet (s : State) (c : Nat) (w : Nat × Nat) : Bool :=
  decide (0 ≤ (s.counter c w.1 - BitVec.ofNat 32 w.2).toInt)

/-! ### Starting (R147) -/

/-- A quiesce holds the queues of a slice (R111). -/
def State.sliceHeld (s : State) (slice : Nat) : Bool :=
  match s.sliceEntry slice with
  | some e => (match e.quiesceAt with | some q => s.reached q | none => false)
      && !(match e.resumeAt with | some b => s.reached b | none => false)
  | none => false

def State.runsOf (s : State) (q : Nat) : List RunCmd := s.que.runs.filter fun r => r.queue == q

/-- A FENCE of the queue is running (R150). -/
def State.fenced (s : State) (q : Nat) : Bool := (s.runsOf q).any fun r => r.opcode == 0x32

/-- Conditions 1, 2, 5 and 6 of R147, no FENCE, no quiesce and no forward-only operation in the way (R111, R150, R370). -/
def State.mayStart (s : State) (q : Nat) : Bool :=
  let c := s.queueCtx q
  let n := (s.runsOf q).length
  s.fld F.QUE_CFG_STATE q == 1 && s.ctxState c == 1 && decide (serialDiff (s.head q) (s.tail q) < 0) && decide (n < 64)
  && decide (serialDiff (s.cqTail q + n + 1) (s.cqHead q) ≤ 2 ^ s.cqLog q) && !s.fenced q && !s.sliceHeld (s.ctxSlice c)
  && !s.forwardOnly

/-- The slot at HEAD as memory holds it. -/
def State.headSlot (s : State) (q : Nat) : List Byte := s.ctxRead (s.queueCtx q) (s.slotAddr q (s.head q)) 64

/-- The LAP that the slot at HEAD must carry (R147). -/
def State.headLap (s : State) (q : Nat) : Nat := s.head q / 2 ^ s.ringLog q % 256

/-- The fault a read of the slot at HEAD meets. -/
def State.headFault (s : State) (q : Nat) : Option Nat :=
  (s.phys (s.queueCtx q) (s.slotAddr q (s.head q))).bind fun a => s.sectorFault (sectorOf a)

/-- Start the command at HEAD with the slot read, or end it as it starts: its ledger entry is rewritten and HEAD
increments (R147, R157). -/
def State.startCmd (s : State) (q : Nat) (sl : List Byte) (op : Nat) (ended : Option Nat) : State :=
  let c := s.queueCtx q
  let i := s.head q
  let r : RunCmd := {
    queue := q, index := i, ctx := c, epoch := s.ctxEpoch c, opcode := op, slot := sl
    startFtu := s.ftu.toNat
    begun := ended.isSome
    issued := 0, landed := [], fails := [], extent := 0, full := slotFull sl, lastChunk := none
    missing := 0, drops := 0, aux := 0, detail := 0, slipped := false, spilled := false
    progFtu := 0, progWb := 0, stop := false, ended := ended
    blocks := [], chunkLen := 0, own := (0, 0), pos := 0, endAt := none
    ranges := [] }
  let s1 := (s.setFld F.QUE_INDEX_HEAD q (i + 1)).trimCovers q
  ({ s1 with que := { s1.que with runs := s1.que.runs ++ [r] } }).writeLedger r LS_RUNNING 0 0

/-- Start the command at HEAD if every condition of R147 holds: a fault of the slot or a refusal of its fields ends it at
once (R147, R149, R151). -/
def State.tryStart (s : State) (q : Nat) : State :=
  let c := s.queueCtx q
  let sl := s.headSlot q
  if s.mayStart q = false then s
  else
    match s.headFault q with
    | some st => s.startCmd q (List.replicate 64 0) 0 (some st)
    | none =>
      if slotLap sl ≠ s.headLap q then s
      else
        match s.slotRefusal c q sl with
        | some st => s.startCmd q sl (slotOpcode sl) (some st)
        | none =>
          if (List.range (slotWaits sl)).all (fun i => s.waitMet c (slotWait sl i)) then
            s.startCmd q sl (slotOpcode sl) none
          else s

/-- COMMAND_START (R147). -/
def execCommandStart (queue : Queue) (s : State) : Out := act s fun s => s.tryStart queue.val

/-- LAP_REREAD (R147): the slot is read again; a slot that has landed may start. -/
def execLapReread (queue : Queue) (s : State) : Out := act s fun s => s.tryStart queue.val

/-- LAP_TIMEOUT (R147): the slot still mismatches after 64 counted wingbeats. -/
def execLapTimeout (queue : Queue) (s : State) : Out :=
  act s fun s =>
    let q := queue.val
    match s.que.laps.find? fun l => l.queue == q && decide (0 < serialDiff l.tail (s.head q)) with
    | some l =>
      if s.mayStart q ∧ l.left = 0 ∧ (s.headFault q).isNone ∧ slotLap (s.headSlot q) ≠ s.headLap q then
        s.startCmd q (List.replicate 64 0) 0 (some ST_REFUSED_FORMAT)
      else s
    | none => s

/-! ### Commands that do their work at once (R149, R150) -/

/-- A command that has started and not begun. -/
def State.fresh? (s : State) (q i op : Nat) : Option RunCmd :=
  (s.run q i).bind fun r => if r.opcode = op ∧ r.begun = false then some r else none

/-- The command's work is done with this status and extent. -/
def State.endCmd (s : State) (q i st extent : Nat) : State :=
  s.modRun q i fun r => { r with begun := true, ended := some st, extent := extent }

/-- NOP (R149). -/
def execNop (queue : Queue) (index : BitVec 32) (s : State) : Out :=
  act s fun s =>
    match s.fresh? queue.val index.toNat 0x00 with
    | some _ => s.endCmd queue.val index.toNat ST_OK 1
    | none => s

/-- WAIT (R149): it completes as it starts. -/
def execWait (queue : Queue) (index : BitVec 32) (s : State) : Out :=
  act s fun s =>
    match s.fresh? queue.val index.toNat 0x30 with
    | some _ => s.endCmd queue.val index.toNat ST_OK 1
    | none => s

/-- SIGNAL (R149): ADD is added to counter CTR. -/
def execSignal (queue : Queue) (index : BitVec 32) (s : State) : Out :=
  act s fun s =>
    match s.fresh? queue.val index.toNat 0x31 with
    | some r => (s.addCounter r.ctx (slotNum r.slot 32 2) (slotNum r.slot 36 4)).endCmd queue.val index.toNat ST_OK 1
    | none => s

/-! ### Fences (R150, R279) -/

/-- Writes of an Atomizer-L channel numbered below `n` that have not landed. -/
def State.chanOpen (s : State) (ch n : Nat) : Bool :=
  let hit := fun (t : Option Tag) => match t.bind (·.chan) with | some (c, k) => c == ch && decide (k < n) | none => false
  (s.net.copies.any fun c => hit c.cmd) || (s.net.backlog.any fun b => hit b.cmd)

/-- Packets of earlier commands of a queue that have not landed. -/
def State.queueOpen (s : State) (q i : Nat) : Bool :=
  let hit := fun (t : Option Tag) => match t with | some t => t.queue == q && decide (serialDiff t.index i < 0) | none => false
  (s.net.copies.any fun c => hit c.cmd) || (s.net.backlog.any fun b => hit b.cmd) || (s.net.reads.any fun r => hit r.cmd)

/-- FENCE (R150): it marks the writes it covers. -/
def execFence (queue : Queue) (index : BitVec 32) (s : State) : Out :=
  act s fun s =>
    match s.fresh? queue.val index.toNat 0x32 with
    | some r =>
      let ch := chanIx (queue.val / 4096) (slotNum r.slot 33 2)
      s.modRun queue.val index.toNat fun r => { r with
        begun := true, issued := Store.get (fun _ => 0) s.dma.serial ch }
    | none => s

/-- FENCE_COMPLETE (R150, R279). -/
def execFenceComplete (queue : Queue) (index : BitVec 32) (s : State) : Out :=
  act s fun s =>
    let q := queue.val
    let i := index.toNat
    match s.run q i with
    | some r =>
      if r.opcode ≠ 0x32 ∨ r.begun = false ∨ r.ended.isSome then s
      else if slotByte r.slot 32 = 0 then
        if ((s.runsOf q).any fun x => decide (serialDiff x.index i < 0)) ∨ s.queueOpen q i then s else s.endCmd q i ST_OK 1
      else
        let ch := chanIx (q / 4096) (slotNum r.slot 33 2)
        if s.chanOpen ch r.issued then s
        else
          let mine := fun (f : Nat × Nat × Nat) => f.1 == ch && decide (f.2.1 < r.issued)
          let st := ((firstFail ((s.dma.fails.filter mine).map (·.2))).map (·.2)).getD ST_OK
          ({ s with dma := { s.dma with fails := s.dma.fails.filter fun f => !mine f } }).endCmd q i st 1
    | none => s

/-! ### Pool moves (R256, R259, R264) -/

/-- A global address names a pool page of a chip that can exist. -/
def poolAddr (a : Nat) : Bool := !isWindow a && decide (addrChip a < 0xFFFE)

/-- The ranges of a move: bases and length (Table 7.4). -/
def moveSrc (r : RunCmd) : Nat := slotNum r.slot 32 8
def moveDst (r : RunCmd) : Nat := slotNum r.slot 40 8
def moveLen (r : RunCmd) : Nat := slotNum r.slot 48 4

/-- What POOL_READ and POOL_WRITE refuse with ST_REFUSED_FORMAT (Table 7.4, R249, R256). -/
def moveOk (r : RunCmd) : Bool :=
  let n := moveLen r
  n % 64 == 0 && decide (64 ≤ n) && poolAddr (moveSrc r) && moveSrc r % 64 == 0 && moveDst r % 64 == 0
  && decide (addrChip (moveDst r) < 0xFFFE) && (r.opcode == 0x10 || poolAddr (moveDst r))
  && decide (addrOffset (moveSrc r) + n ≤ 2 ^ 47)
  && (if isWindow (moveDst r) then decide (windowByte (moveDst r) + n ≤ 2 ^ 40)
      else decide (addrOffset (moveDst r) + n ≤ 2 ^ 47))

/-- The page or window that an address lies in, by target chip. -/
def areaOf (a : Nat) : Nat := if isWindow a then a / 2 ^ 40 * 2 ^ 40 else a / pageBytes * pageBytes

/-- Two byte ranges share a page or a window of one chip (R259). -/
def shareArea (a n b m : Nat) : Bool := decide (areaOf a ≤ areaOf (b + m - 1)) && decide (areaOf b ≤ areaOf (a + n - 1))

/-- Ranges of a running move, or of a collective's member: base and bytes. -/
def rangesOf (r : RunCmd) : List (Nat × Nat) :=
  if r.opcode = 0x10 ∨ r.opcode = 0x11 then [(moveSrc r, moveLen r), (moveDst r, moveLen r)] else r.ranges

/-- Two commands have ranges that share a page or a window (R259). -/
def shares (a b : RunCmd) : Bool :=
  (rangesOf a).any fun x => (rangesOf b).any fun y => shareArea x.1 x.2 y.1 y.2

/-- An earlier running command of the queue shares a page or a window with this one (R259). -/
def State.heldBy (s : State) (r : RunCmd) : Bool :=
  (s.runsOf r.queue).any fun x => decide (serialDiff x.index r.index < 0) && shares x r

/-- Bytes from an address to the next 4 KiB or page boundary, at most `n`. -/
def pieceLen (a n : Nat) : Nat := min n (4096 - a % 4096)

/-- Send the read requests for bytes `off` up to `stop` of a range: pieces end at 4 KiB boundaries of either range (R256). -/
def State.sendReads (s : State) (unit : Nat) (r : RunCmd) (src dst : Nat) (stop : Nat) (chan : Option (Nat × Nat)) :
    Nat → Nat → State
  | _, 0 => s
  | off, fuel + 1 =>
    if stop ≤ off then s
    else
      let n := min (pieceLen (src + off) (stop - off)) (pieceLen (dst + off) (stop - off))
      State.sendReads (s.readReq unit r.ctx r.epoch (src + off) n (some ⟨r.queue, r.index, off, n, chan⟩)) unit r src dst stop
        chan (off + n) fuel

/-- A move issues its next 64 KiB of reads, unless a quiesce has stopped it or an earlier command still holds a page. -/
def State.moveOn (s : State) (r : RunCmd) : State :=
  let n := moveLen r
  if r.stop ∨ r.ended.isSome ∨ s.heldBy r ∨ n ≤ r.issued then s
  else
    let stop := min n (r.issued + 65536)
    let s1 := s.modRun r.queue r.index fun r => { r with begun := true, issued := stop }
    s1.sendReads (0x89 + r.queue / 4096) r (moveSrc r) (moveDst r) stop none r.issued 2048

/-- The row of a move: its refusal, or its next 64 KiB. -/
def State.move (s : State) (q i op : Nat) : State :=
  match s.run q i with
  | some r =>
    if r.opcode ≠ op then s
    else if r.begun = false ∧ moveOk r = false then s.endCmd q i ST_REFUSED_FORMAT 0
    else s.moveOn r
  | none => s

/-- POOL_READ (R256). -/
def execPoolRead (queue : Queue) (index : BitVec 32) (s : State) : Out :=
  act s fun s => s.move queue.val index.toNat 0x10

/-- POOL_WRITE (R256). -/
def execPoolWrite (queue : Queue) (index : BitVec 32) (s : State) : Out :=
  act s fun s => s.move queue.val index.toNat 0x11

/-! ### Completion (R153 to R157) -/

/-- A completion record (Table 7.5). -/
def recordBytes (r : RunCmd) (slot status phase ftu wb : Nat) : List Byte :=
  let aux := if status = ST_ABORT_MEMBER ∨ status = ST_INDEX_RANGE then r.aux else if 0 < r.drops then r.drops else 0
  leBytes 1 status ++ leBytes 1 (phase * 128 + runFlags r) ++ leBytes 2 r.missing ++ leBytes 4 (r.queue * 2 ^ 16 + slot)
  ++ leBytes 4 r.extent ++ leBytes 8 aux ++ leBytes 8 ftu ++ leBytes 4 wb

/-- Append a record to a queue's completion queue; PHASE by its pass (R155). -/
def State.writeRecord (s : State) (q slot : Nat) (r : RunCmd) (status : Nat) : State :=
  let t := s.cqTail q
  let j := s.cqLog q
  let bytes := recordBytes { r with queue := q } slot status (1 - t / 2 ^ j % 2) s.ftu.toNat s.wb.toNat
  (s.ctxWrite r.ctx (s.fld F.QUE_CQ_BASE_BASE q + t % 2 ^ j * 32) bytes).setFld F.QUE_CQ_INDEX_CQ_TAIL q (t + 1)

/-- A command ends: final ledger write, record, then SIGNAL_CTR (R153, R154, R157). -/
def State.complete (s : State) (r : RunCmd) (st : Nat) : State :=
  let s1 := s.writeLedger r (ledgerState st) st (runFlags r)
  let s2 := if slotQuiet r.slot ∧ st = ST_OK then s1 else s1.writeRecord r.queue (s.slotOf r.queue r.index) r st
  let s3 := { s2 with que := { s2.que with runs := s2.que.runs.filter fun x => !(x.queue == r.queue && x.index == r.index) } }
  let s4 := if st = ST_REFUSED_FORMAT ∨ st = ST_REFUSED_AUTH then s3.bump F.QUE_DROPS_REFUSED (r.queue / 4096) else s3
  if slotSignal r.slot ∧ slotCtr r.slot < s4.fld F.QUE_CTX_STATUS_EVT_COUNT r.ctx
      ∧ (st = ST_OK ∨ st = ST_PARTIAL ∨ st = ST_DROPPED_CAPACITY ∨ slotAlways r.slot) then
    s4.addCounter r.ctx (slotCtr r.slot) 1
  else s4

end Sys2Proof.Machine
end

