-- ==== Sys2Proof/Machine/Pool.lean ====
section
/-! DEFINITION. Sys2Proof/Machine/Pool.lean: the Nectar controllers and the endpoint windows: reads, writes and refusals,
the window tables, ECC and retirement (R252 to R266, R416).
(log entries of this file: DEDUCED 47, 48, 50) -/

namespace Sys2Proof.Machine

/-! ### Resolving a request (R252, R256) -/

/-- The context whose page table resolves a packet at this chip (R252). -/
def State.targetCtx (s : State) (p : Packet) : Option Nat :=
  if p.srcChip.val = s.chip then some p.ctx.val else s.homeOf p.slice.val

/-- The permission bit a request needs: R, W, RR or RW (R251, R252). -/
def State.needBit (s : State) (p : Packet) (write : Bool) : Nat :=
  (if p.srcChip.val = s.chip then 0 else 2) + bit write

/-- The byte address behind an offset for a request, or its refusal (R252). -/
def State.resolve (s : State) (p : Packet) (write : Bool) (off : Nat) : Option Nat :=
  (s.targetCtx p).bind fun c => (s.page c (pageOf off)).bind fun e =>
    if e.perm.testBit (s.needBit p write) then some (e.frame * pageBytes + pageByte off) else none

/-- The granules of a request are aligned and lie in one page (R256). -/
def granulesOk (a n : Nat) : Bool :=
  a % 64 == 0 && decide (1 ≤ n) && decide (n ≤ 64) && decide (pageByte (addrOffset a) + n * 64 ≤ pageBytes)

/-- The sectors that `n` granules from a byte address touch. -/
def sectorsOf (a n : Nat) : List Nat :=
  (List.range (sectorOf (a + n * 64 - 1) + 1 - sectorOf a)).map fun k => sectorOf a + k

/-- The granules cover a sector whole. -/
def coversSector (a n sec : Nat) : Bool := decide (a ≤ sec * 512) && decide (sec * 512 + 512 ≤ a + n * 64)

/-! ### Counting (HBM_ registers) -/

/-- The register index of the stack of a frame: wing × 6 + stack (R251, R266). -/
def stackOf (f : Nat) : Nat :=
  if f < 884736 then f / framesPerWing * 6 + f % framesPerWing / 36864 else (f - 884736) / 512

/-- Count the faults that a read of sectors meets. -/
def State.countFaults (s : State) (secs : List Nat) : State :=
  secs.foldl (fun t sec =>
    let f := sec / 4096
    let t1 := if t.pool.poison.contains sec then t.bump F.HBM_ECC_POISON_READS (stackOf f) else t
    if t.pool.badTag.contains sec then t1.bump F.HBM_ACCESS_ERR_INTEGRITY (wingOfFrame f) else t1) s

/-- The status of the lowest failing sector of a list. -/
def State.firstFault (s : State) (secs : List Nat) : Option (Nat × Nat) :=
  secs.findSome? fun sec => (s.sectorFault sec).map fun st => (sec, st)

/-! ### Refusals (R258) -/

/-- The reply to a request: where it goes and what it names (Table 12.2). -/
def State.replyPacket (s : State) (unit status : Nat) (p : Packet) (data : List Byte) : Packet :=
  let arg := p.srcChip.val * 2 ^ 48 + p.srcUnit.val * 2 ^ 40 + status * 2 ^ 32 + p.seq.toNat
  s.unitPacket unit 0x03 2 p.srcChip.val p.srcUnit.val p.ctx.val p.epoch.val p.slice.val arg data

/-- A Nectar controller refuses a WRITE: one flit of zeros goes back, and the WRITE counts as received once that reply is
acknowledged (R258). -/
def State.refuseWrite (s : State) (wing : Nat) (p : Packet) (status : Nat) : State :=
  let unit := 0x89 + wing
  let q := s.replyPacket unit status p (List.replicate 64 0)
  let r : RefusedWrite := ⟨p.srcChip.val, p.srcUnit.val, p.ctx.val, p.epoch.val, p.seq.toNat, unit, s.comingSeq unit q⟩
  let s1 := { s with pool := { s.pool with refusals := s.pool.refusals ++ [r] } }
  let s2 := s1.bump F.HBM_ACCESS_ERR_REFUSAL_REPLIES wing
  let s3 := if status = ST_REFUSED_AUTH ∨ status = ST_REFUSED_FORMAT then s2.bump F.HBM_ACCESS_ERR_REFUSED wing else s2
  s3.source unit q

/-- The WRITE is a resend of one refused whose reply is not yet acknowledged. -/
def State.isRefused (s : State) (unit : Nat) (p : Packet) : Bool :=
  s.pool.refusals.any fun r => r.home == unit && r.chip == p.srcChip.val && r.unit == p.srcUnit.val && r.ctx == p.ctx.val
    && r.epoch == p.epoch.val && r.seq == p.seq.toNat

/-! ### Writes and reads (R256 to R263) -/

/-- What a WRITE meets: a refusal, or the byte address to write. -/
def State.judgeWrite (s : State) (p : Packet) : Except Nat Nat :=
  let a := p.arg.toNat
  let n := p.payFlits.val
  if granulesOk a n = false ∨ isWindow a then .error ST_REFUSED_FORMAT
  else
    match s.resolve p true (addrOffset a) with
    | none => .error ST_REFUSED_AUTH
    | some b =>
      match s.firstFault ((sectorsOf b n).filter fun sec => !coversSector b n sec) with
      | some x => .error x.2
      | none => .ok b

/-- Apply a write: the granules land, and each sector covered whole loses its marks (R258, R265). -/
def State.applyWrite (s : State) (b n : Nat) (bytes : List Byte) : State :=
  let whole := (sectorsOf b n).filter fun sec => coversSector b n sec
  let s1 := s.writeMem b (bytes.take (n * 64))
  { s1 with pool := { s1.pool with
      poison := s1.pool.poison.filter fun x => !whole.contains x
      badTag := s1.pool.badTag.filter fun x => !whole.contains x } }

/-- A tracked packet that the controller marks received itself (R87, R258). -/
def State.received (s : State) (unit : Nat) (p : Packet) : State :=
  let k := receivedKey unit p
  let s1 := s.setReceived (noteReceived (s.receivedOf k) p.seq)
  if p.ackSoon then s1.ackStream k p.slice.val else s1

/-- A write that reaches a Nectar controller: discarded if it repeats one applied or one refused and not settled; otherwise
refused, or applied and marked received (R87, R258). -/
def State.sinkWrite (s : State) (wing : Nat) (p : Packet) : State :=
  let unit := 0x89 + wing
  let r := s.receivedOf (receivedKey unit p)
  if s.isRefused unit p then s
  else
    match arrivalOf r p.seq with
    | .fresh =>
      match s.judgeWrite p with
      | .error st =>
        let secs := match s.resolve p true (addrOffset p.arg.toNat) with
          | some b => if st = ST_INTEGRITY ∨ st = ST_POOL_UNCORRECTABLE then
              (sectorsOf b p.payFlits.val).filter fun sec => !coversSector b p.payFlits.val sec else []
          | none => []
        (s.countFaults secs).refuseWrite wing p st
      | .ok b => (s.applyWrite b p.payFlits.val p.payload).received unit p
    | .duplicate => (s.setReceived { r with owed := true }).bump F.EDG_E2E_DUPLICATES wing
    | .beyond => s.bump F.EDG_E2E_DUPLICATES wing

/-- POOL_WRITE_REQUEST (R256, R258, R260). -/
def execPoolWriteRequest (wing : Wing) (p : Packet) (s : State) : Out :=
  act s fun s => if p.kind.val = 0x01 then s.sinkWrite wing.val p else s

/-- The controller's answer to a READ_REQ: status, data, the sectors read, and the lowest failing one (R257, R263). -/
def State.judgeRead (s : State) (p : Packet) : Nat × List Byte × List Nat × Option Nat :=
  let a := p.arg.toNat
  let n := p.chunk.toNat
  let zeros := List.replicate (64 * (if n = 0 ∨ 64 < n then 1 else n)) 0
  if granulesOk a n = false ∨ isWindow a then (ST_REFUSED_FORMAT, zeros, [], none)
  else
    match s.resolve p false (addrOffset a) with
    | none => (ST_REFUSED_AUTH, zeros, [], none)
    | some b =>
      let secs := sectorsOf b n
      match s.firstFault secs with
      | some x => (x.2, s.readMem b (n * 64), secs, some (x.1 * 512 - b))
      | none => (ST_OK, s.readMem b (n * 64), secs, none)

/-- The command of this chip that a READ_REQ serves learns which sector fails first (R264). -/
def State.markBad (s : State) (p : Packet) (bad : Option Nat) : State :=
  if p.srcChip.val = s.chip then
    { s with net := { s.net with reads := s.net.reads.map fun r =>
        if r.unit = p.srcUnit.val ∧ r.seq = p.seq.toNat ∧ r.ctx = p.ctx.val ∧ r.epoch = p.epoch.val ∧ r.chip = s.chip
            ∧ r.addr = p.arg.toNat then { r with bad := bad } else r } }
  else s

/-- POOL_READ_REQUEST (R257, R263). -/
def execPoolReadRequest (wing : Wing) (p : Packet) (s : State) : Out :=
  act s fun s =>
    if p.kind.val ≠ 0x02 then s
    else
      let (st, data, secs, bad) := s.judgeRead p
      let s1 := (s.countFaults secs).markBad p bad
      let s2 := if st = ST_REFUSED_AUTH ∨ st = ST_REFUSED_FORMAT then s1.bump F.HBM_ACCESS_ERR_REFUSED wing.val else s1
      s2.source (0x89 + wing.val) (s2.replyPacket (0x89 + wing.val) st p data)

/-! ### Endpoint windows (R255, R258, R416) -/

/-- Bytes a window request covers. -/
def winBytes (p : Packet) : Nat := 64 * (if p.kind.val = 0x01 then p.payFlits.val else p.chunk.toNat)

/-- A context of the packet's slice grants the access on the port. -/
def State.winAllowed (s : State) (port : Nat) (p : Packet) : Bool :=
  s.contexts.any fun c => s.ctxSlice c == p.slice.val && match s.binding c port with
    | some b => if p.kind.val = 0x01 then b.winWrite else b.winRead
    | none => false

/-- WINDOW_BYTES of the endpoint; 0 where none is identified. -/
def State.winSize (s : State) (port : Nat) : Nat := match (s.ep port).ident with | some i => i.2.1 | none => 0

/-- The refusal that R255 and R256 give a window request. -/
def State.judgeWindow (s : State) (port : Nat) (p : Packet) : Option Nat :=
  let a := p.arg.toNat
  let n := winBytes p
  if a % 64 ≠ 0 ∨ n = 0 ∨ 4096 < n ∨ 2 ^ 40 < windowByte a + n then some ST_REFUSED_FORMAT
  else if s.winAllowed port p = false then some ST_REFUSED_AUTH
  else if (s.ep port).silent ∨ s.winSize port = 0 then some ST_WINDOW_ABSENT
  else if s.winSize port < windowByte a + n then some ST_REFUSED_AUTH
  else none

/-- A refused request whose marker the endpoint has not acknowledged (R258). -/
def State.winRefusedOf (s : State) (port : Nat) (p : Packet) : Bool :=
  (s.ep port).refused.any fun x => x.pkt.srcChip == p.srcChip && x.pkt.srcUnit == p.srcUnit && x.pkt.ctx == p.ctx
    && x.pkt.seq == p.seq

/-- The requester is the same source and context as an entry's. -/
def sameReq (w : WinStream) (p : Packet) : Bool := w.chip == p.srcChip.val && w.unit == p.srcUnit.val && w.ctx == p.ctx.val

/-- The tables have room for a request (R255, R416). -/
def State.winRoom (s : State) (port : Nat) (p : Packet) : Bool :=
  ((s.ep port).streams.any (fun w => sameReq w p) || decide ((s.ep port).streams.length < 1024))
  && (p.kind.val != 0x02 || decide ((s.ep port).reads.length < 256)
      || (s.ep port).reads.any fun r => r.chip == p.srcChip.val && r.unit == p.srcUnit.val && r.seq == p.seq.toNat)

/-- Note a request in the table of window streams: made at the first, replaced at another EPOCH (R416). -/
def noteStream (ws : List WinStream) (p : Packet) : List WinStream :=
  let fresh : WinStream := ⟨p.srcChip.val, p.srcUnit.val, p.ctx.val, p.epoch.val, p.slice.val, [p.seq.toNat], []⟩
  if ws.any fun w => sameReq w p then
    ws.map fun w =>
      if sameReq w p = false then w
      else if w.epoch ≠ p.epoch.val then fresh
      else if w.toEp.contains p.seq.toNat then w else { w with toEp := w.toEp ++ [p.seq.toNat] }
  else ws ++ [fresh]

/-- Deliver an admitted request to the endpoint and keep its entries (R255, R416). -/
def State.winDeliver (s : State) (port : Port) (p : Packet) : State :=
  let r : WinRead := ⟨p.srcChip.val, p.srcUnit.val, p.seq.toNat, p.slice.val, p.ctx.val, p.epoch.val⟩
  let s1 := s.modEp port.val fun e => { e with
    streams := noteStream e.streams p
    reads := if p.kind.val = 0x02 ∧ e.reads.contains r = false then e.reads ++ [r] else e.reads }
  s1.toEndpoint port p

/-- The Thorax agent answers a refused window request in a stream of its own (R255). -/
def State.winRefuse (s : State) (port : Port) (p : Packet) (st : Nat) : State :=
  let n := if p.kind.val = 0x02 ∧ 1 ≤ p.chunk.toNat ∧ p.chunk.toNat ≤ 64 then p.chunk.toNat else 1
  let q := s.replyPacket 0x80 st p (List.replicate (64 * n) 0)
  (s.modEp port.val fun e => { e with refused := e.refused ++ [⟨p, s.comingSeq 0x80 q, false, false⟩] }).source 0x80 q

/-- The checks of R255 on a window request; one without room waits. -/
def State.windowRequest (s : State) (port : Port) (p : Packet) : State :=
  if s.winRefusedOf port.val p then s
  else
    match s.judgeWindow port.val p with
    | some st => s.winRefuse port p st
    | none =>
      if s.winRoom port.val p then s.winDeliver port p
      else s.modEp port.val fun e => { e with waiting := e.waiting ++ [p] }

/-- WINDOW_REQUEST (R255, R256, R416). -/
def execWindowRequest (port : Port) (p : Packet) (s : State) : Out :=
  act s fun s => if (p.kind.val = 0x01 ∨ p.kind.val = 0x02) ∧ isWindow p.arg.toNat then s.windowRequest port p else s

/-- WINDOW_ENTRY_FREE (R255, R416): the first waiting request that now has room goes on. -/
def execWindowEntryFree (port : Port) (s : State) : Out :=
  act s fun s =>
    match (s.ep port.val).waiting.find? fun p => s.winRoom port.val p with
    | some p => (s.modEp port.val fun e => { e with waiting := e.waiting.erase p }).windowRequest port p
    | none => s

/-- REFUSAL_MARKER_SEND (R258): the header of the refused request with PAY_FLITS 0 and REFUSED set. -/
def execRefusalMarkerSend (port : Port) (s : State) : Out :=
  act s fun s =>
    match (s.ep port.val).refused.find? fun x => x.acked && !x.sent && s.winRoom port.val { x.pkt with kind := 0x01 } with
    | some x =>
      let m := { x.pkt with payFlits := 0, payload := [], refused := true, truncated := false }
      let s1 := s.modEp port.val fun e => { e with
        refused := e.refused.map fun y => if y = x then { y with sent := true } else y
        streams := noteStream e.streams x.pkt }
      s1.toEndpoint port { m with e2eCrc := e2eCrcOf m }
    | none => s

/-! ### ECC and retirement (R265, R266) -/

/-- Frames that exist: those of the stacks, and those of the reserves. -/
def frameExists (f : Nat) : Bool := decide (f < 884736 + 12288)

/-- Reserve frames left on a stack, as HBM_STACK_STATUS shows them. -/
def State.showReserve (s : State) (k : Nat) : State :=
  let left := 512 - Store.get (fun _ => 0) s.pool.reserve k
  (s.setFld F.HBM_STACK_STATUS_RESERVE_LEFT k left).setFld F.HBM_STACK_STATUS_RESERVE_EMPTY k (bit (left == 0))

/-- HBM_RETIRE QUEUED of a wing. -/
def State.showRetire (s : State) (w : Nat) : State :=
  s.setFld F.HBM_RETIRE_QUEUED w (min 255 (s.pool.retire.filter fun f => wingOfFrame f == w).length)

/-- Queue a frame for retirement, unless its stack's reserve is empty (R265, R266). -/
def State.queueRetire (s : State) (f : Nat) : State :=
  if s.pool.retire.contains f ∨ 512 ≤ Store.get (fun _ => 0) s.pool.reserve (stackOf f) then s
  else ({ s with pool := { s.pool with retire := s.pool.retire ++ [f] } }).showRetire (wingOfFrame f)

/-- ECC_CORRECTED (R265). -/
def execEccCorrected (frame : Nat) (s : State) : Out :=
  act s fun s =>
    if frameExists frame = false then s
    else
      let n := Store.get (fun _ => 0) s.pool.corrected frame + 1
      let s1 := (s.bump F.HBM_ECC_CORRECTED (stackOf frame))
      let s2 := { s1 with pool := { s1.pool with corrected := Store.set (fun _ => 0) s1.pool.corrected frame n } }
      if s2.fld F.HBM_RETIRE_THRESHOLD (wingOfFrame frame) ≤ n then s2.queueRetire frame else s2

/-- ECC_UNCORRECTABLE (R265): the sector is POISON and reads as the array now gives it; the frame is queued for
retirement, with a HIGH record. -/
def execEccUncorrectable (frame : Nat) (sector : Fin 4096) (data : List Byte) (s : State) : Out :=
  act s fun s =>
    if frameExists frame = false then s
    else
      let sec := frame * 4096 + sector.val
      let s1 := (s.bump F.HBM_ECC_UNCORRECTABLE (stackOf frame)).writeMem (sec * 512) (data.take 512)
      let s2 := { s1 with pool := { s1.pool with
        poison := if s1.pool.poison.contains sec then s1.pool.poison else s1.pool.poison ++ [sec] } }
      (s2.sillage 0x09 0x02 2 []).queueRetire frame

/-- Move what a frame holds to another: bytes, tags and marks (R266 step 1). -/
def State.moveFrame (s : State) (f g : Nat) : State :=
  let lo := f * pageBytes
  let cells := s.mem.filter fun x => decide (lo ≤ x.1) && decide (x.1 < lo + pageBytes)
  let kept := Store.dropIf (fun k => decide (lo ≤ k) && decide (k < lo + pageBytes)) s.mem
  let there := fun (x : Nat) => if x / 4096 = f then g * 4096 + x % 4096 else x
  { s with
    mem := cells.foldl (fun (m : List Host.Cell) x => Store.set memDefault m (g * pageBytes + (x.1 - lo)) x.2) kept
    pool := { s.pool with poison := s.pool.poison.map there, badTag := s.pool.badTag.map there } }

/-- The page tables, queues and regions that name a frame name another in its place (R266 step 3). -/
def State.renameFrame (s : State) (f g : Nat) : State :=
  let swap := fun (x : Nat) => if x = f then g else x
  let s1 := s.contexts.foldl (fun t c => t.modCtx c fun x => { x with
    pages := x.pages.map fun p => { p with frame := swap p.frame }
    grants := x.grants.map fun y => { y with pages := y.pages.map fun p => { p with frame := swap p.frame } } }) s
  let inUse := s.pool.used.contains f || decide (884736 ≤ f) && !s.pool.spare.contains f
  { s1 with pool := { s1.pool with
      scrub := s1.pool.scrub.map swap, overflow := s1.pool.overflow.map swap
      used := if f < 884736 ∧ s1.pool.used.contains f = false then s1.pool.used ++ [f] else s1.pool.used
      spare := (s1.pool.spare.filter fun x => x != f) ++ (if inUse then [] else [g]) } }

/-- RETIRE_COPY_DONE (R266): the frame due first on its wing moves to a reserve frame of its stack, the defect list and
HBM_RETIRE follow, and a record is written. -/
def execRetireCopyDone (wing : Wing) (s : State) : Out :=
  act s fun s =>
    match s.pool.retire.find? fun f => wingOfFrame f == wing.val with
    | none => s
    | some f =>
      let k := stackOf f
      let n := Store.get (fun _ => 0) s.pool.reserve k
      let s0 := { s with pool := { s.pool with retire := s.pool.retire.erase f } }
      if 512 ≤ n then s0.showRetire wing.val
      else
        let g := 884736 + k * 512 + n
        let cause := if s.pool.poison.any fun x => x / 4096 == f then 3 else 4
        let unit := if f < 884736 then f % 36864 else 36864 + (f - 884736) % 512
        let s1 := { s0 with pool := { s0.pool with reserve := Store.set (fun _ => 0) s0.pool.reserve k (n + 1) } }
        let s2 := (s1.moveFrame f g).renameFrame f g
        let s3 := ((s2.bump F.HBM_RETIRE_RETIRED wing.val).showRetire wing.val).showReserve k
        (s3.appendDefect 0x07 k cause unit).sillage 0x09 0x01 1 []

/-- RETIRE_THRESHOLD (R265): 8 to 1,024, for every wing. -/
def execRetireThreshold (r : FwRef) (n : Fin 2048) (s : State) : Out :=
  act s fun s =>
    if n.val < 8 ∨ 1024 < n.val then s.finishFw r ACK_BAD_ARGUMENT 0
    else ((List.range 4).foldl (fun t w => t.setFld F.HBM_RETIRE_THRESHOLD w n.val) s).finishFw r ACK_OK 0

end Sys2Proof.Machine
end

