-- ==== Sys2Proof/Machine/Accord.lean ====
section
/-! DEFINITION. Sys2Proof/Machine/Accord.lean: Accord arithmetic (R164 to R182): formats, reductions, output conversion,
stochastic rounding, fixed-accord sums and residues. An FP32 value is held as its 32 bits.
(log entries of this file: DESIGN CHOICE 14) -/

namespace Sys2Proof.Machine

/-! ### Numbers and formats (R165 to R167) -/

/-- A number as a node computes with it: (−1)^neg × m × 2^e, an infinity, or a NaN. -/
inductive Flt where
  | nan
  | inf (neg : Bool)
  | num (neg : Bool) (m : Nat) (e : Int)
deriving DecidableEq, Repr

/-- A binary format: exponent and mantissa bits, bias, and which codes are special: 0 as IEEE 754, 1 only the all-ones code
(E4M3), 2 none. -/
structure FFmt where
  eb : Nat
  mb : Nat
  bias : Nat
  special : Nat
deriving DecidableEq, Repr

def fp32 : FFmt := ⟨8, 23, 127, 0⟩

/-- The element format of a floating-point or MX format code (Table 8.2). -/
def fmtOf (code : Nat) : Option FFmt :=
  match code with
  | 0x00 => some fp32
  | 0x01 => some ⟨8, 7, 127, 0⟩
  | 0x02 => some ⟨5, 10, 15, 0⟩
  | 0x03 => some ⟨4, 3, 7, 1⟩
  | 0x04 => some ⟨5, 2, 15, 0⟩
  | 0x08 => some ⟨4, 3, 7, 1⟩
  | 0x09 => some ⟨5, 2, 15, 0⟩
  | 0x0A => some ⟨2, 3, 1, 2⟩
  | 0x0B => some ⟨3, 2, 3, 2⟩
  | 0x0C => some ⟨2, 1, 1, 2⟩
  | _ => none

def isMx (code : Nat) : Bool := decide (0x08 ≤ code) && decide (code ≤ 0x0C)
def isFloat (code : Nat) : Bool := (fmtOf code).isSome
def isInt (code : Nat) : Bool := decide (0x10 ≤ code) && decide (code ≤ 0x14)
def isPair (code : Nat) : Bool := code == 0x20 || code == 0x21

/-- Bits per element (Table 8.2). -/
def elemBits (code : Nat) : Nat :=
  match code with
  | 0x00 => 32 | 0x01 => 16 | 0x02 => 16 | 0x03 => 8 | 0x04 => 8
  | 0x08 => 8 | 0x09 => 8 | 0x0A => 6 | 0x0B => 6 | 0x0C => 4
  | 0x10 => 8 | 0x11 => 16 | 0x12 => 32 | 0x13 => 64 | 0x14 => 64
  | 0x20 => 64 | 0x21 => 64
  | _ => 0

/-- A format code of Table 8.2. -/
def fmtKnown (code : Nat) : Bool := elemBits code != 0

/-- Bytes of `n` elements of a format, MX scales included (R166). -/
def streamBytes (code n : Nat) : Nat := n * elemBits code / 8 + (if isMx code then n / 32 else 0)

/-- The element codes of a stream of `n` elements: element k in bits n·k upward (R166). -/
def elems (code n : Nat) (bs : List Byte) : List Nat :=
  let w := elemBits code
  if w % 8 = 0 then (List.range n).map fun k => ofLe ((bs.drop (k * (w / 8))).take (w / 8))
  else
    let all := ofLe (bs.take (n * w / 8))
    (List.range n).map fun k => all / 2 ^ (w * k) % 2 ^ w

/-- Pack element codes (R166). -/
def packElems (code : Nat) (xs : List Nat) : List Byte :=
  let w := elemBits code
  if w % 8 = 0 then xs.flatMap fun x => leBytes (w / 8) x
  else
    leBytes (xs.length * w / 8) (xs.foldr (fun x a => x % 2 ^ w + 2 ^ w * a) 0)

/-- The value of an element code. -/
def decodeF (f : FFmt) (w : Nat) : Flt :=
  let neg := (w / 2 ^ (f.eb + f.mb)) % 2 == 1
  let e := w / 2 ^ f.mb % 2 ^ f.eb
  let m := w % 2 ^ f.mb
  if f.special = 0 ∧ e = 2 ^ f.eb - 1 then (if m = 0 then .inf neg else .nan)
  else if f.special = 1 ∧ e = 2 ^ f.eb - 1 ∧ m = 2 ^ f.mb - 1 then .nan
  else if e = 0 then .num neg m (1 - (f.bias : Int) - f.mb)
  else .num neg (2 ^ f.mb + m) ((e : Int) - f.bias - f.mb)

/-- The floor of log2 of m × 2^e, for m above 0. -/
def floorLog2 (m : Nat) (e : Int) : Int := (Nat.log2 m : Int) + e

/-- m × 2^e as a count of quanta 2^q: the whole part, and the rest as a fraction. -/
def quanta (m : Nat) (e q : Int) : Nat × Nat × Nat :=
  if q ≤ e then (m * 2 ^ (e - q).toNat, 0, 1)
  else
    let d := 2 ^ (q - e).toNat
    (m / d, m % d, d)

/-- The largest finite magnitude of a format, as a count of quanta and the quantum's exponent. -/
def largest (f : FFmt) : Nat × Int :=
  let top := if f.special = 0 then 2 ^ f.eb - 2 else 2 ^ f.eb - 1
  let k := if f.special = 1 then 2 ^ (f.mb + 1) - 2 else 2 ^ (f.mb + 1) - 1
  (k, (top : Int) - f.bias - f.mb)

/-- The quantum's exponent of a format at a magnitude. -/
def quantumOf (f : FFmt) (m : Nat) (e : Int) : Int :=
  max (floorLog2 m e - f.mb) (1 - (f.bias : Int) - f.mb)

/-- The code of a magnitude k × 2^q that a format holds. -/
def magCode (f : FFmt) (k : Nat) (q : Int) : Nat :=
  if k < 2 ^ f.mb then k
  else if k = 2 ^ (f.mb + 1) then (q + 1 + f.mb + f.bias).toNat * 2 ^ f.mb
  else (q + f.mb + f.bias).toNat * 2 ^ f.mb + (k - 2 ^ f.mb)

/-- k × 2^q lies above the largest finite magnitude of a format. -/
def aboveLargest (f : FFmt) (k : Nat) (q : Int) : Bool :=
  let (k', q') := largest f
  if q' ≤ q then decide (k' < k * 2 ^ (q - q').toNat) else decide (k' * 2 ^ (q' - q).toNat < k)

/-- Round a magnitude m × 2^e, above 0, to a format: the code, or none for an overflow (Table 8.3, R175). `r` is the random
word of R175. -/
def roundMag (f : FFmt) (mode r : Nat) (m : Nat) (e : Int) : Option Nat :=
  let q := quantumOf f m e
  let (k, n, d) := quanta m e q
  let up := match mode with
    | 0 => decide (d < 2 * n) || (decide (2 * n = d) && k % 2 == 1)
    | 1 => false
    | _ => decide (r < n * 2 ^ 32 / d)
  if aboveLargest f k q then none
  else
    let k1 := if up then k + 1 else k
    if aboveLargest f k1 q then none else some (magCode f k1 q)

/-- A sign above the code bits of a format. -/
def signed (f : FFmt) (neg : Bool) (c : Nat) : Nat := (if neg then 2 ^ (f.eb + f.mb) else 0) + c

/-- The code of the largest finite magnitude. -/
def largestCode (f : FFmt) : Nat := let (k, q) := largest f; magCode f k q

/-- The canonical NaN of Table 8.4, and the infinity of IEEE formats. -/
def nanCode (f : FFmt) : Nat :=
  if f.special = 1 then 2 ^ (f.eb + f.mb) - 1 else (2 ^ f.eb - 1) * 2 ^ f.mb + 2 ^ (f.mb - 1)
def infCode (f : FFmt) : Nat := (2 ^ f.eb - 1) * 2 ^ f.mb

/-- Convert to a floating-point format (R174, Table 8.4). -/
def convertF (f : FFmt) (mode : Nat) (nanOvf : Bool) (r : Nat) (x : Flt) : Nat :=
  match x with
  | .nan => nanCode f
  | .inf neg => if f.special = 1 then nanCode f else signed f neg (infCode f)
  | .num neg m e =>
    if m = 0 then signed f neg 0
    else
      match roundMag f mode r m e with
      | some c => signed f neg c
      | none =>
        if mode = 1 then signed f neg (largestCode f)
        else if f.special = 1 then (if nanOvf then nanCode f else signed f neg (largestCode f))
        else signed f neg (infCode f)

/-- FP32 bits of a number, rounded to nearest even. -/
def toF32 (x : Flt) : Nat := convertF fp32 0 false 0 x
def ofF32 (w : Nat) : Flt := decodeF fp32 w

/-- The exact sum of two numbers; equal magnitudes of opposite sign give +0 (R173). -/
def fltAdd (a b : Flt) : Flt :=
  match a, b with
  | .nan, _ => .nan
  | _, .nan => .nan
  | .inf x, .inf y => if x = y then .inf x else .nan
  | .inf x, _ => .inf x
  | _, .inf y => .inf y
  | .num x m e, .num y n f =>
    if m = 0 ∧ n = 0 then .num (x && y) 0 0
    else
      let q := min e f
      let v : Int := (if x then -1 else 1) * (m * 2 ^ (e - q).toNat : Int) + (if y then -1 else 1) * (n * 2 ^ (f - q).toNat : Int)
      .num (decide (v < 0)) v.natAbs q

/-- The exact product. -/
def fltMul (a b : Flt) : Flt :=
  match a, b with
  | .nan, _ => .nan
  | _, .nan => .nan
  | .inf x, .inf y => .inf (x != y)
  | .inf x, .num y n _ => if n = 0 then .nan else .inf (x != y)
  | .num x m _, .inf y => if m = 0 then .nan else .inf (x != y)
  | .num x m e, .num y n f => .num (x != y) (m * n) (e + f)

/-- One FP32 addition, rounded to nearest even (R171, R173). -/
def addF32 (a b : Nat) : Nat := toF32 (fltAdd (ofF32 a) (ofF32 b))
/-- One FP32 product, rounded to nearest even (R223). -/
def mulF32 (a b : Nat) : Nat := toF32 (fltMul (ofF32 a) (ofF32 b))

/-! ### Decoding a member's elements (R166, R167) -/

/-- An MX value at its scale: exact, or an infinity from 2^128 on. -/
def atScale (x : Flt) (scale : Nat) : Flt :=
  if scale = 255 then .nan
  else
    match x with
    | .num neg m e =>
      let e1 := e + scale - 127
      if m ≠ 0 ∧ 128 ≤ floorLog2 m e1 then .inf neg else .num neg m e1
    | y => y

/-- The FP32 values of a stream of `n` elements in a floating-point or MX format; every NaN canonical. -/
def decodeStream (code n : Nat) (bs : List Byte) : List Nat :=
  match fmtOf code with
  | none => []
  | some f =>
    let xs := elems code n bs
    if isMx code then
      let scales := bs.drop (n * elemBits code / 8)
      (xs.zip (List.range n)).map fun q => toF32 (atScale (decodeF f q.1) (scales.getD (q.2 / 32) 0).toNat)
    else xs.map fun x => toF32 (decodeF f x)

/-! ### Operations (R164, R168 to R170) -/

def RO_SUM : Nat := 0
def RO_FIXED : Nat := 1
def RO_MIN : Nat := 2
def RO_MAX : Nat := 3
def RO_AND : Nat := 4
def RO_OR : Nat := 5
def RO_XOR : Nat := 6
def RO_ARGMIN : Nat := 7
def RO_ARGMAX : Nat := 8

/-- Table 8.1. -/
def reductionOk (op inF outF : Nat) : Bool :=
  fmtKnown inF && fmtKnown outF &&
  match op with
  | 0 => (isFloat inF && isFloat outF) || (isInt inF && isInt outF)
  | 1 => isFloat inF && isFloat outF
  | 2 => !isPair inF && inF == outF
  | 3 => !isPair inF && inF == outF
  | 4 => isInt inF && inF == outF
  | 5 => isInt inF && inF == outF
  | 6 => isInt inF && inF == outF
  | 7 => isPair inF && inF == outF
  | 8 => isPair inF && inF == outF
  | _ => false

/-- Bytes per element of a partial sum (R188). -/
def partialBytes (op inF : Nat) : Nat :=
  if op = RO_FIXED then 8
  else if isFloat inF then 4
  else if isPair inF ∨ op = RO_SUM then 8
  else elemBits inF / 8

/-- A two's complement number of `w` bits. -/
def toSigned (w x : Nat) : Int := if x % 2 ^ w < 2 ^ (w - 1) then (x % 2 ^ w : Nat) else ((x % 2 ^ w : Nat) : Int) - 2 ^ w

/-- The value of an integer element. -/
def intVal (code x : Nat) : Int := if code = 0x14 then (x : Int) else toSigned (elemBits code) x

/-- Order of FP32 values that are numbers: −Inf first, −0 before +0 (R169). -/
def f32Key (w : Nat) : Int := if w < 2 ^ 31 then (w : Int) else -((w - 2 ^ 31 : Nat) : Int) - 1

def f32Nan (w : Nat) : Bool := decide (0x7F800000 < w % 2 ^ 31)
def canonNan : Nat := 0x7FC00000

/-- MIN or MAX of two FP32 values (R169). -/
def minmaxF32 (isMax : Bool) (a b : Nat) : Nat :=
  if f32Nan a ∨ f32Nan b then canonNan
  else if decide (f32Key a < f32Key b) == isMax then b else a

/-- ARGMIN or ARGMAX of two pairs, value low and index high (R170). -/
def argBest (code : Nat) (isMax : Bool) (a b : Nat) : Nat :=
  let va := a % 2 ^ 32
  let vb := b % 2 ^ 32
  let lower := if a / 2 ^ 32 ≤ b / 2 ^ 32 then a else b
  if code = 0x20 ∧ (f32Nan va ∨ f32Nan vb) then
    if f32Nan va ∧ f32Nan vb then lower else if f32Nan va then a else b
  else
    let ka := if code = 0x20 then f32Key va else toSigned 32 va
    let kb := if code = 0x20 then f32Key vb else toSigned 32 vb
    if ka = kb then lower else if decide (ka < kb) == isMax then b else a

/-- Combine two partial values of one element (R168 to R171), for all operations but SUM_FIXED. -/
def combine (op code a b : Nat) : Nat :=
  match op with
  | 0 => if isFloat code then addF32 a b else (a + b) % 2 ^ 64
  | 2 => if isFloat code then minmaxF32 false a b else if intVal code b < intVal code a then b else a
  | 3 => if isFloat code then minmaxF32 true a b else if intVal code a < intVal code b then b else a
  | 4 => a &&& b
  | 5 => a ||| b
  | 6 => a ^^^ b
  | 7 => argBest code false a b
  | 8 => argBest code true a b
  | _ => a

/-- A member's contribution to a partial value: FP32 for floating-point input, 64-bit for integer SUM, the element
otherwise; a pair's NaN is canonical. -/
def liftStream (op code n : Nat) (bs : List Byte) : List Nat :=
  if isFloat code then decodeStream code n bs
  else
    (elems code n bs).map fun x =>
      if op = RO_SUM then ((intVal code x) % 2 ^ 64).toNat
      else if code = 0x20 ∧ f32Nan (x % 2 ^ 32) then x / 2 ^ 32 * 2 ^ 32 + canonNan
      else x

/-! ### Fixed-accord mode (R176 to R180) -/

/-- Cut a list in pieces of `k`. -/
def blocksOf {α : Type} (k : Nat) : Nat → List α → List (List α)
  | 0, _ => []
  | _, [] => []
  | n + 1, x :: xs => (x :: xs).take k :: blocksOf k n ((x :: xs).drop k)

/-- The code of a block of FP32 values (R176). -/
def blockCode (xs : List Nat) : Nat :=
  xs.foldl (fun c w =>
    match ofF32 w with
    | .num _ m e => if c = 255 ∨ m = 0 then c else max c (min 254 (max 1 (floorLog2 m e + 127))).toNat
    | _ => 255) 0

/-- The codes of a chunk of FP32 values. -/
def blockCodes (xs : List Nat) : List Nat := (blocksOf 32 xs.length xs).map blockCode

/-- The marker of R179, as the 64-bit pattern of −2^63. -/
def marker : Nat := 2 ^ 63

/-- to_fixed of R177: the value in quanta of 2^(e−45), half to even, as a 64-bit pattern. -/
def toFixed (w code : Nat) : Nat :=
  match ofF32 w with
  | .num neg m e =>
    let (k, n, d) := quanta m e ((code : Int) - 127 - 45)
    let k1 := if d < 2 * n ∨ (2 * n = d ∧ k % 2 = 1) then k + 1 else k
    if neg then (2 ^ 64 - k1) % 2 ^ 64 else k1
  | _ => 0

/-- The three flags of a value in a block of code 0xFF (R178). -/
def flagsOf (w : Nat) : Nat :=
  match ofF32 w with
  | .nan => 2 ^ 40
  | .inf true => 2 ^ 20
  | .inf false => 1
  | _ => 0

/-- The final code does not cover the value (R179). -/
def uncoveredBy (code w : Nat) : Bool :=
  match ofF32 w with
  | .num _ m e => m != 0 && code != 255 && (code == 0 || decide ((code : Int) - 127 < floorLog2 m e))
  | _ => code != 255

/-- A member's block in integers, marked where the code does not cover it (R177 to R179): values, and whether it is
marked. -/
def fixBlock (code : Nat) (xs : List Nat) : List Nat × Bool :=
  if xs.any (uncoveredBy code) then (xs.map fun _ => marker, true)
  else if code = 255 then (xs.map flagsOf, false)
  else if code = 0 then (xs.map fun _ => 0, false)
  else (xs.map fun w => toFixed w code, false)

/-- A member's chunk in integers under the final codes, and the blocks marked. -/
def fixStream (codes : List Nat) (xs : List Nat) : List Nat × Nat :=
  let bs := ((blocksOf 32 xs.length xs).zip codes).map fun q => fixBlock q.2 q.1
  (bs.flatMap (·.1), (bs.filter (·.2)).length)

/-- Add two partial sums: a marked block stays marked (R177, R179). -/
def fixAdd (a b : List Nat) : List Nat :=
  ((blocksOf 32 a.length a).zip (blocksOf 32 b.length b)).flatMap fun q =>
    if q.1.contains marker ∨ q.2.contains marker then q.1.map fun _ => marker
    else (q.1.zip q.2).map fun x => (x.1 + x.2) % 2 ^ 64

/-- The modulus of R180. -/
def resP : Nat := 2 ^ 61 - 1

/-- The residue of a chunk of integers; a marker counts as 0 (R179, R180). -/
def residueOf (xs : List Nat) : Nat :=
  ((xs.zip (List.range xs.length)).foldl (fun r q =>
    if q.1 = marker then r else (r + ((toSigned 64 q.1) % (resP : Int)).toNat * 2 ^ (q.2 % 61)) % resP) 0)

/-- The final values of a block (R177 to R179), and whether it counts as a code violation at the producing node. -/
def unfixBlock (code : Nat) (xs : List Nat) : List Flt × Bool :=
  if xs.contains marker then (xs.map fun _ => Flt.nan, false)
  else if code = 255 then
    let pos := (xs.map fun x => x % 2 ^ 20).sum
    let neg := (xs.map fun x => x / 2 ^ 20 % 2 ^ 20).sum
    let nan := (xs.map fun x => x / 2 ^ 40).sum
    if nan ≠ 0 ∨ (pos ≠ 0 ∧ neg ≠ 0) then (xs.map fun _ => Flt.nan, false)
    else if pos ≠ 0 then (xs.map fun _ => Flt.inf false, false)
    else if neg ≠ 0 then (xs.map fun _ => Flt.inf true, false)
    else (xs.map fun _ => Flt.nan, true)
  else (xs.map fun x => let v := toSigned 64 x; .num (decide (v < 0)) v.natAbs ((code : Int) - 127 - 45), false)

/-- The final values of a chunk, and the code violations found (R178). -/
def unfixStream (codes xs : List Nat) : List Flt × Nat :=
  let bs := ((blocksOf 32 xs.length xs).zip codes).map fun q => unfixBlock q.2 q.1
  (bs.flatMap (·.1), (bs.filter (·.2)).length)

/-! ### Stochastic rounding (R175) -/

def philoxRound (c : List Nat) (k0 k1 : Nat) : List Nat :=
  let p0 := 0xD2511F53 * c.getD 0 0
  let p1 := 0xCD9E8D57 * c.getD 2 0
  [(p1 / 2 ^ 32 ^^^ c.getD 1 0 ^^^ k0) % 2 ^ 32, p1 % 2 ^ 32, (p0 / 2 ^ 32 ^^^ c.getD 3 0 ^^^ k1) % 2 ^ 32, p0 % 2 ^ 32]

/-- Philox4x32-10 (R175). -/
def philox (ctr : List Nat) (k0 k1 : Nat) : List Nat :=
  (List.range 10).foldl (fun c i => philoxRound c ((k0 + i * 0x9E3779B9) % 2 ^ 32) ((k1 + i * 0xBB67AE85) % 2 ^ 32)) ctr

/-- The random word of element `i`: SEED, chunk, third and fourth counter words (R175). -/
def randWord (seed chunk num word3 i : Nat) : Nat :=
  (philox [i / 4, chunk, num % 2 ^ 32, word3] (seed % 2 ^ 32) (seed / 2 ^ 32)).getD (i % 4) 0

/-! ### Output (R168, R174) -/

/-- The elements and the scale of one MX block (R174). -/
def convertMx (f : FFmt) (mode : Nat) (rnd : Nat → Nat) (base : Nat) (xs : List Flt) : List Nat × Nat :=
  if xs.any (fun x => match x with | .num _ _ _ => false | _ => true) then (xs.map fun _ => 0, 255)
  else
    let logs := xs.filterMap fun x => match x with | .num _ m e => if m = 0 then none else some (floorLog2 m e) | _ => none
    match logs with
    | [] => (xs.map fun _ => 0, 0)
    | l :: t =>
      let top := largest f
      let big := floorLog2 top.1 top.2
      let x := max ((t.foldl max l) - big) (-127)
      let scaled := xs.map fun y => match y with | .num neg m e => Flt.num neg m (e - x) | z => z
      let codes := (scaled.zip (List.range scaled.length)).map fun q =>
        match q.1 with
        | .num neg m e =>
          if m = 0 then signed f neg 0
          else signed f neg ((roundMag f mode (rnd (base + q.2)) m e).getD
            (largestCode f))
        | _ => 0
      (codes, if x ≤ 127 then (x + 127).toNat else (Config.mxScaleAbove x.toNat).val)

/-- Convert values to a stream in a floating-point or MX format (R174, R175). -/
def convertStream (code mode : Nat) (nanOvf : Bool) (rnd : Nat → Nat) (xs : List Flt) : List Byte :=
  match fmtOf code with
  | none => []
  | some f =>
    if isMx code then
      let bs := ((blocksOf 32 xs.length xs).zip (List.range xs.length)).map fun q => convertMx f mode rnd (q.2 * 32) q.1
      packElems code (bs.flatMap (·.1)) ++ bs.map fun b => BitVec.ofNat 8 b.2
    else
      packElems code ((xs.zip (List.range xs.length)).map fun q => convertF f mode nanOvf (rnd q.2) q.1)

/-- Saturate an integer to an integer format (R168). -/
def saturate (code : Nat) (v : Int) : Nat :=
  let w := elemBits code
  if code = 0x14 then (min (max v 0) (2 ^ 64 - 1)).toNat
  else ((min (max v (-(2 ^ (w - 1)))) (2 ^ (w - 1) - 1)) % 2 ^ w).toNat

/-- The result stream of a reduction from its final partial values (R172, R174). -/
def resultStream (op inF outF mode : Nat) (nanOvf : Bool) (rnd : Nat → Nat) (xs : List Nat) : List Byte :=
  if isFloat inF then convertStream outF mode nanOvf rnd (xs.map ofF32)
  else if op = RO_SUM then
    packElems outF (xs.map fun (x : Nat) => saturate outF (if inF = 0x14 then (x : Int) else toSigned 64 x))
  else packElems outF xs

end Sys2Proof.Machine
end

