-- ==== Sys2Proof/Machine/CollBase.lean ====
section
/-! DEFINITION. Sys2Proof/Machine/CollBase.lean: the parts that collectives, exchanges and Skipper groups share: the
descriptor and its checks, trees, nodes and slots, and the packets of a collective (R185 to R198).
(log entries of this file: DEDUCED 51, 55, 58; DESIGN CHOICE 121) -/

namespace Sys2Proof.Machine

/-! ### Memory that a step of the part reads and writes for a context (R187, R252) -/

/-- A pool address of this chip. -/
def State.isOwnPool (s : State) (a : Nat) : Bool := addrChip a == s.chip && !isWindow a

/-- The byte address behind a pool offset for an access of the context, with permission bit `b` (R251, R252). -/
def State.ownByte (s : State) (c b off : Nat) : Option Nat :=
  (s.page c (pageOf off)).bind fun e => if e.perm.testBit b then some (e.frame * pageBytes + pageByte off) else none

/-- Pages that `n` bytes from an offset touch: the offset at which each begins. -/
def pageStarts (off n : Nat) : List Nat :=
  (List.range ((pageByte off + n + pageBytes - 1) / pageBytes)).map fun k => if k = 0 then off else (off / pageBytes + k) * pageBytes

/-- The fault or refusal of a read of `n` bytes at a pool offset by the context. -/
def State.ownFault (s : State) (c off n : Nat) : Option Nat :=
  if (pageStarts off n).any fun o => (s.ownByte c 0 o).isNone then some ST_REFUSED_AUTH
  else
    (List.range ((off % 512 + n + 511) / 512)).findSome? fun k =>
      (s.ownByte c 0 (if k = 0 then off else (off / 512 + k) * 512)).bind fun a => s.sectorFault (sectorOf a)

/-- Read memory for a context: this chip's pool through its page table, anything else as the environment answers. -/
def State.readAt (s : State) (c addr n : Nat) (remote : List RemoteRead) : Option (Except Nat (List Byte)) :=
  if n = 0 then some (.ok [])
  else if s.isOwnPool addr then
    some (match s.ownFault c (addrOffset addr) n with
      | some st => .error st
      | none => .ok (s.ctxRead c (addrOffset addr) n))
  else
    (remote.find? fun r => r.addr == addr).map fun r => if r.status = 0 then .ok (r.bytes.take n) else .error r.status

/-- Sectors that a range of pool offsets touches, as the offset at which each one's share begins and whether the range covers it
whole. -/
def sectorShares (off n : Nat) : List (Nat × Bool) :=
  (List.range ((off % 512 + n + 511) / 512)).map fun k =>
    let b := off / 512 * 512 + k * 512
    (max off b, decide (off ≤ b) && decide (b + 512 ≤ off + n))

/-- Write bytes at a pool offset of a context where every byte may be written; the refusal otherwise. A sector covered in part
must not be marked; one covered whole loses its marks (R258, R263, R265). -/
def State.storeOwn (s : State) (c off : Nat) (bs : List Byte) : State × Nat :=
  let at' := fun (o : Nat) => (s.ownByte c 1 o).map sectorOf
  let shares := sectorShares off bs.length
  if (pageStarts off bs.length).any fun o => (s.ownByte c 1 o).isNone then (s, ST_REFUSED_AUTH)
  else
    match shares.findSome? fun x => if x.2 then none else (at' x.1).bind s.sectorFault with
    | some st => (s, st)
    | none =>
      let whole := shares.filterMap fun x => if x.2 then at' x.1 else none
      let s1 := s.ctxWrite c off bs
      ({ s1 with pool := { s1.pool with
        poison := s1.pool.poison.filter fun x => !whole.contains x
        badTag := s1.pool.badTag.filter fun x => !whole.contains x } }, ST_OK)

/-- Write an array that belongs to a command: this chip's pool at once, anything else as WRITE packets of `unit`. -/
def State.storeAt (s : State) (unit c epoch addr : Nat) (bs : List Byte) : State :=
  if bs = [] then s
  else if s.isOwnPool addr then (s.storeOwn c (addrOffset addr) bs).1
  else
    (blocksOf 4096 bs.length bs).zip (List.range bs.length) |>.foldl
      (fun t q => t.writeReq unit c epoch (addr + 4096 * q.2) q.1 none) s

/-! ### The descriptor (Table 9.1) -/

def dKind (d : List Byte) : Nat := slotByte d 0
def dOp (d : List Byte) : Nat := slotByte d 1 % 16
def dRound (d : List Byte) : Nat := slotByte d 1 / 16 % 4
def dNanOvf (d : List Byte) : Bool := (slotByte d 1).testBit 6
def dIn (d : List Byte) : Nat := slotByte d 2
def dOut (d : List Byte) : Nat := slotByte d 3
def dRoot (d : List Byte) : Nat := slotNum d 4 2
def dSlip (d : List Byte) : Nat := if slotNum d 6 2 = 0 then 16 else slotNum d 6 2
def dSlots (d : List Byte) : Nat := if slotByte d 12 = 0 then 8 else slotByte d 12
def dSeed (d : List Byte) : Nat := slotNum d 16 8
def dNum (d : List Byte) : Nat := slotNum d 24 8
def dDetail (d : List Byte) : Nat := slotNum d 32 8
def dXblock (d : List Byte) : Nat := slotNum d 48 8
def dGroup (d : List Byte) : Nat := slotNum d 56 2
def dRow (d : List Byte) : Nat := slotNum d 58 2
def dCap (d : List Byte) : Nat := slotNum d 60 2
def dK (d : List Byte) : Nat := slotByte d 62

def isReduceKind (k : Nat) : Bool := k == 1 || k == 2 || k == 3
def isVarKind (k : Nat) : Bool := k == 7 || k == 8 || k == 9
def isExchangeKind (k : Nat) : Bool := decide (4 ≤ k) && decide (k ≤ 9)
/-- A reduction takes place: the tree kinds and COMBINE (R223). -/
def dReduces (d : List Byte) : Bool := isReduceKind (dKind d) || dKind d == 9
def dFixed (d : List Byte) : Bool := dReduces d && dOp d == RO_FIXED

/-- Bytes per element of a node's partial stream. -/
def dPart (d : List Byte) : Nat := if dReduces d then partialBytes (dOp d) (dIn d) else 0

/-- Bytes of the largest stream of `n` elements (R188). -/
def largestStream (d : List Byte) (n : Nat) : Nat :=
  max (max (streamBytes (dIn d) n) (streamBytes (dOut d) n)) (n * dPart d)

/-- The most elements of one stream in 64 KiB. -/
def fitElems (code : Nat) : Nat :=
  if isMx code then 65536 / (4 * elemBits code + 1) * 32 else 65536 * 8 / max 1 (elemBits code)

/-- What a chunk's elements come in multiples of (R188, R218). -/
def chunkUnit (d : List Byte) : Nat :=
  if dKind d = 8 ∨ dKind d = 9 then max 1 (dRow d) else if dFixed d ∨ isMx (dIn d) ∨ isMx (dOut d) then 32 else 1

/-- Elements per chunk (R188, R218): the field, or the largest that fits. -/
def dChunk (d : List Byte) : Nat :=
  if slotNum d 8 4 ≠ 0 then slotNum d 8 4
  else
    let m := min (min (fitElems (dIn d)) (fitElems (dOut d))) (if dPart d = 0 then 65536 * 8 else 65536 / dPart d)
    m / chunkUnit d * chunkUnit d

/-- The digest of R186; XBLOCK and COUNT are zero in a variable exchange (R211). -/
def descDigest (d : List Byte) (count : Nat) : Nat :=
  let tail := (d.drop 48).take 16
  let tail := if isVarKind (dKind d) then List.replicate 8 0#8 ++ tail.drop 8 else tail
  (Config.shake256 (d.take 32 ++ tail ++ leBytes 4 (if isVarKind (dKind d) then 0 else count))).toNat % 2 ^ 32

/-- Elements of the blocks of a member's SRC (Table 9.2, R215, R218, R222). -/
def srcBlocks (d : List Byte) (count p : Nat) : List Nat :=
  match dKind d with
  | 3 => List.replicate p (count / p)
  | 6 => List.replicate p count
  | 8 => [count * dRow d]
  | 9 => [dCap d * dRow d]
  | _ => [count]

/-- The chunk's size agrees with R188, R211 and R218. -/
def chunkOk (d : List Byte) (count p : Nat) : Bool :=
  let n := dChunk d
  let total := (srcBlocks d count p).sum
  decide (1 ≤ n) && n % chunkUnit d == 0 && decide (largestStream d n ≤ 65536)
  && (decide (4096 ≤ largestStream d n) || decide (largestStream d total < 4096))
  && decide (chunkCount n (srcBlocks d count p) ≤ 2 ^ 24)

/-- The reserved fields of a descriptor are zero, and VAR has the layout of Table 10.1. -/
def descReserved (d : List Byte) : Bool :=
  let k := dKind d
  decide (1 ≤ k) && decide (k ≤ 9) && decide (slotByte d 1 < 128) && decide (slotNum d 6 2 ≤ 1024)
  && (slotByte d 12 == 0 || (decide (4 ≤ slotByte d 12) && decide (slotByte d 12 ≤ 128)))
  && slotNum d 13 3 == 0 && slotNum d 40 8 == 0 && decide (dRound d < 3)
  && (if k = 2 ∨ k = 5 then true else dRoot d == 0)
  && (if isVarKind k then
        dXblock d % 64 == 0 && slotByte d 63 == 0 && decide (dGroup d < 4096) && (k != 9 || dGroup d == 0)
        && (if k = 7 then dRow d == 0 && dCap d == 0 && dK d == 0
            else decide (1 ≤ dRow d) && decide (dRow d ≤ 16384) && decide (1 ≤ dCap d) && decide (1 ≤ dK d)
              && decide (dK d ≤ 8) && !((isMx (dIn d) || isMx (dOut d)) && dRow d % 32 != 0))
      else slotNum d 48 16 == 0)

/-- R185: the descriptor may run with this COUNT, SRC and DST among `p` members. -/
def descOk (d : List Byte) (count p src dst : Nat) : Bool :=
  let k := dKind d
  let bytes := fun (code : Nat) => max 1 (elemBits code / 8)
  descReserved d && fmtKnown (dIn d) && fmtKnown (dOut d)
  && (if isReduceKind k then reductionOk (dOp d) (dIn d) (dOut d)
      else if k = 9 then isFloat (dIn d) && isFloat (dOut d) && decide (dOp d ≤ 1)
      else dIn d == dOut d && dOp d == 0 && dRound d == 0)
  && (k == 7 || decide (1 ≤ count)) && (k != 3 || count % max 1 p == 0)
  && (if k = 8 ∨ k = 9 then decide (count ≤ 1048576)
      else !((isMx (dIn d) || isMx (dOut d)) && (srcBlocks d count p).any fun b => b % 32 != 0))
  && chunkOk d count p && src % bytes (dIn d) == 0 && dst % bytes (dOut d) == 0 && dDetail d % 4096 == 0
  && (if k = 2 ∨ k = 5 then decide (dRoot d < p) else true)

/-! ### Trees (R190) -/

/-- The members of a slice: rank, chip and edge port. -/
def State.collMembers (s : State) (slice : Nat) : List (Nat × Nat × Nat) :=
  let rows := ((s.sliceEntry slice).map (·.rows)).getD []
  (rows.zip (List.range rows.length)).filterMap fun q => (rankEntry q.1).map fun e => (q.2, e.1, e.2)

/-- The cell of a chip, by the map. -/
def State.cellOf (s : State) (chip : Nat) : Nat :=
  match s.map.bind fun m => m.chips.find? fun c => c.chip.val == chip with
  | some c => c.cell.val
  | none => 0

/-- The first entries under a key, in order. -/
def firstBy (f : Nat × Nat × Nat → Nat) (ms : List (Nat × Nat × Nat)) : List (Nat × Nat × Nat) :=
  ms.foldl (fun acc m => if acc.any fun x => f x == f m then acc else acc ++ [m]) []

/-- The wing of a chip's leaf node: that of its lowest rank's edge port. -/
def leafWing (ms : List (Nat × Nat × Nat)) (chip : Nat) : Nat :=
  match ms.find? fun m => m.2.1 == chip with
  | some m => wingOf m.2.2
  | none => 0

/-- The lowest-ranked member of the cell of a chip. -/
def State.cellHead (s : State) (ms : List (Nat × Nat × Nat)) (chip : Nat) : Nat :=
  match ms.find? fun m => s.cellOf m.2.1 == s.cellOf chip with
  | some m => m.2.1
  | none => chip

/-- The slice lies in one cell. -/
def State.oneCell (s : State) (ms : List (Nat × Nat × Nat)) : Bool :=
  match ms with
  | [] => true
  | m :: t => t.all fun x => s.cellOf x.2.1 == s.cellOf m.2.1

/-- Height of the root. -/
def State.treeTop (s : State) (ms : List (Nat × Nat × Nat)) : Nat := if s.oneCell ms then 1 else 2

/-- The node above a leaf of a chip, or above a cell node: chip and wing. -/
def State.treeParent (s : State) (ms : List (Nat × Nat × Nat)) (root chip height : Nat) : Option (Nat × Nat) :=
  let cell := fun (c : Nat) => let h := s.cellHead ms c; (h, leafWing ms h)
  if height = 0 then let x := cell chip; some (x.1, (x.2 + 1) % 4)
  else if height = 1 ∧ s.oneCell ms = false then
    let rootChip := ((ms.find? fun m => m.1 == root).map (·.2.1)).getD chip
    let x := cell rootChip
    some (x.1, (x.2 + 2) % 4)
  else none

/-- The wing of this chip's node of a height. -/
def treeWing (ms : List (Nat × Nat × Nat)) (chip height : Nat) : Nat := (leafWing ms chip + height) % 4

/-- The inputs of this chip's node of a height, in order (R171, R190). -/
def State.treeIns (s : State) (ms : List (Nat × Nat × Nat)) (chip height : Nat) : List CollIn :=
  let ranksOn := fun (p : Nat → Bool) => (ms.filter fun m => p m.2.1).map (·.1)
  if height = 0 then (ms.filter fun m => m.2.1 == chip).map fun m => ⟨m.1, none, [m.1]⟩
  else if height = 1 then
    let mine := ms.filter fun m => s.cellOf m.2.1 == s.cellOf chip
    (firstBy (·.2.1) mine).map fun m => ⟨m.1, some (m.2.1, leafWing ms m.2.1), ranksOn fun c => c == m.2.1⟩
  else
    (firstBy (fun m => s.cellOf m.2.1) ms).map fun m =>
      ⟨m.1, some (m.2.1, (leafWing ms m.2.1 + 1) % 4), ranksOn fun c => s.cellOf c == s.cellOf m.2.1⟩

/-- The inputs of an exchange leaf: every rank that sends, its own members without a node (R191). -/
def exchangeIns (ms : List (Nat × Nat × Nat)) (chip : Nat) (d : List Byte) : List CollIn :=
  (ms.filter fun m => dKind d != 5 || m.1 == dRoot d).map fun m =>
    ⟨m.1, if m.2.1 = chip then none else some (m.2.1, leafWing ms m.2.1), [m.1]⟩

/-- The leaf nodes of a slice: chip and wing. -/
def leavesOf (ms : List (Nat × Nat × Nat)) : List (Nat × Nat) :=
  (firstBy (·.2.1) ms).map fun m => (m.2.1, leafWing ms m.2.1)

/-! ### Nodes and slots (R192, R198) -/

def State.collNode (s : State) (slice num height : Nat) : Option CollNode :=
  s.coll.nodes.find? fun n => n.slice == slice && n.num == num && n.height == height

/-- Rewrite one node. -/
def State.modNode (s : State) (n : CollNode) (f : CollNode → CollNode) : State :=
  { s with coll := { s.coll with nodes := s.coll.nodes.map fun x =>
      if x.slice = n.slice ∧ x.num = n.num ∧ x.height = n.height then f x else x } }

def sameNode (a b : CollNode) : Bool := a.slice == b.slice && a.num == b.num && a.height == b.height

/-- A node as it now stands. -/
def State.nodeNow (s : State) (n : CollNode) : CollNode := (s.collNode n.slice n.num n.height).getD n

/-- Slots of a wing in use, in quarantine or ABSENT (R374), dynamic and scheduled or of the spill area. -/
def State.slotsUsed (s : State) (wing : Nat) (spilled : Bool) : List Nat :=
  ((s.coll.nodes.filter fun n => n.wing == wing && (n.phase == .spilled) == spilled).flatMap (·.slots)) ++
  ((s.coll.hold.filter fun h => h.wing == wing && h.spilled == spilled).flatMap (·.slots)) ++
  (if spilled then [] else (s.spares.use'.rowsAbsent.filter fun a => a.1 == wing).map (·.2))

/-- The first `n` free slots of a range; fewer where fewer are free. -/
def freeSlotsIn (used : List Nat) (lo hi n : Nat) : List Nat :=
  (((List.range (hi - lo)).map (· + lo)).filter fun k => !used.contains k).take n

/-- Free slots for a node's size: dynamic 1,792 to 2,047, scheduled below, spill 0 to 4,095 (R192, Table 9.4). -/
def State.findSlots (s : State) (wing n : Nat) (kind : SlotPhase) : List Nat :=
  match kind with
  | .spilled => freeSlotsIn (s.slotsUsed wing true) 0 4096 n
  | .scheduled => freeSlotsIn (s.slotsUsed wing false) 0 1792 n
  | _ => freeSlotsIn (s.slotsUsed wing false) 1792 2048 n

def isWaiting (n : CollNode) : Bool := match n.phase with | .waiting _ => true | _ => false
def isSpillWaiting (n : CollNode) : Bool := match n.phase with | .spillWaiting _ => true | _ => false

/-- ACD_SLOTS of each wing. -/
def State.showSlots (s : State) : State :=
  (List.range 4).foldl (fun t w =>
    let dyn := (t.slotsUsed w false).filter fun k => decide (1792 ≤ k)
    ((t.setFld F.ACD_SLOTS_DYN_FREE w (256 - dyn.length)).setFld F.ACD_SLOTS_SPILL_USED w (t.slotsUsed w true).length).setFld
      F.ACD_SLOTS_DYN_WAITING w (t.coll.nodes.filter fun n => n.wing == w && isWaiting n).length) s

/-- No node of the wing waits ahead of this one (R198). -/
def State.firstWaiting (s : State) (n : CollNode) (p : CollNode → Bool) : Bool :=
  match s.coll.nodes.find? fun x => x.wing == n.wing && p x with
  | some x => sameNode x n
  | none => true

/-- A node that waits takes dynamic slots if they are free (R192, R198). -/
def State.takeSlots (s : State) (n : CollNode) : State :=
  let free := s.findSlots n.wing n.size .dynamic
  if isWaiting n ∧ s.firstWaiting n isWaiting ∧ n.size ≤ free.length then
    (s.modNode n fun x => { x with phase := .dynamic, slots := free }).showSlots
  else s.showSlots

/-- A node that the dynamic pool left waiting takes spill slots if there is room (R198). -/
def State.takeSpill (s : State) (n : CollNode) : State :=
  let free := s.findSlots n.wing n.size .spilled
  if s.firstWaiting n isSpillWaiting ∧ n.size ≤ free.length then
    let s1 := (s.modNode n fun x => { x with phase := .spilled, slots := free }).bump F.ACD_EVENTS_SPILLS n.wing
    (n.members.foldl (fun t m => t.modRun m.queue m.index fun r => { r with spilled := true }) s1).showSlots
  else s.showSlots

/-- Drop a node; its slots are free at once, or held to a boundary (R160, R192). -/
def State.dropNode (s : State) (n : CollNode) (till : Option Wb) : State :=
  let h := match till with
    | some b => if n.slots = [] then [] else [⟨n.wing, n.phase == .spilled, n.slots, b⟩]
    | none => []
  { s with coll := { s.coll with
      nodes := s.coll.nodes.filter fun x => !sameNode x n
      hold := s.coll.hold ++ h } }.showSlots

/-- The node issues grants: it has its slots. -/
def nodeActive (n : CollNode) : Bool := n.phase == .dynamic || n.phase == .spilled || n.phase == .scheduled

/-- A leaf of an exchange. -/
def isExchangeNode (n : CollNode) : Bool := isExchangeKind (dKind n.desc)

/-- Slots a node holds for its own items: in an exchange half, rounded down, is kept for peers (R193). -/
def ownSlots (n : CollNode) : List Nat := if isExchangeNode n then n.slots.take (n.size - n.size / 2) else n.slots
def peerSlots (n : CollNode) : List Nat := if isExchangeNode n then n.slots.drop (n.size - n.size / 2) else []

def slotBusy (n : CollNode) (k : Nat) : Bool := n.feeds.any (fun f => f.slot == k) || n.chunks.any fun c => c.acc == some k

/-! ### Chunks (R188) -/

def nodeP (s : State) (n : CollNode) : Nat := (s.collMembers n.slice).length

/-- Elements of chunk `c` of a sequence of blocks, and the coordinate where it begins. -/
def chunkSpan (n : Nat) : List Nat → Nat → Nat × Nat
  | [], _ => (0, 0)
  | b :: t, c =>
    let k := (b + n - 1) / n
    if c < k then (c * n, min n (b - c * n))
    else
      let (p, l) := chunkSpan n t (c - k)
      (p + b, l)

/-- Chunks of a tree node's collective. -/
def State.treeChunks (s : State) (n : CollNode) : Nat := chunkCount (dChunk n.desc) (srcBlocks n.desc n.count (nodeP s n))

/-- Elements of a tree node's chunk. -/
def State.treeLen (s : State) (n : CollNode) (c : Nat) : Nat :=
  (chunkSpan (dChunk n.desc) (srcBlocks n.desc n.count (nodeP s n)) c).2

def CollChunk.blank (dst num : Nat) : CollChunk :=
  { dst := dst, num := num, acc := none, first := none, seen := [], late := 0, codesIn := [], codesUp := false
    codes := none, parts := [], slipped := false, spilled := false, out := none, grant := none, codeGrant := none
    sent := false, since := 0, down := [], result := none, rets := [], aborts := [], served := [], abort := none
    undelivered := false }

def nodeChunk (n : CollNode) (dst c : Nat) : Option CollChunk := n.chunks.find? fun x => x.dst == dst && x.num == c

/-- Rewrite a chunk of a node, making it where it is new. -/
def modChunk (n : CollNode) (dst c : Nat) (f : CollChunk → CollChunk) : CollNode :=
  match nodeChunk n dst c with
  | some _ => { n with chunks := n.chunks.map fun x => if x.dst = dst ∧ x.num = c then f x else x }
  | none => { n with chunks := n.chunks ++ [f (CollChunk.blank dst c)] }

def State.chunkUpd (s : State) (n : CollNode) (dst c : Nat) (f : CollChunk → CollChunk) : State :=
  s.modNode n fun x => modChunk x dst c f

/-- Bytes of a chunk stream of `len` elements from one input: a member's, or a child's partial. -/
def inputBytes (n : CollNode) (i : CollIn) (len : Nat) : Nat :=
  if isExchangeNode n ∨ (i.node.isNone ∧ n.height = 0) then streamBytes (dIn n.desc) len else len * dPart n.desc

/-- Cut a stream in the packets of R189. -/
def pieces (bs : List Byte) : List (Nat × List Byte) :=
  let ps := blocksOf 4096 bs.length bs
  (List.range ps.length).zip ps

/-- A stream from its packets, at most `n` bytes. -/
def joinPieces (ps : List (Nat × List Byte)) (n : Nat) : List Byte :=
  (((List.range ((n + 4095) / 4096)).map fun k =>
    ((ps.find? fun q => q.1 == k).map (fun q => q.2.take 4096)).getD []).flatten).take n

/-- Every packet of a stream of `n` bytes has come. -/
def allPieces (ps : List (Nat × List Byte)) (n : Nat) : Bool :=
  (List.range ((n + 4095) / 4096)).all fun k => ps.any fun q => q.1 == k

/-! ### Packets of a collective (R189, R194, Tables 9.3 and 9.4) -/

def chunkField (num : Nat) (codes slipped spilled abort : Bool) (low : Nat) : BitVec 32 :=
  BitVec.ofNat 32 (num * 256 + bit codes * 128 + bit slipped * 64 + bit spilled * 32 + bit abort * 16 + low)

def slotHandle (chip wing slot : Nat) (spilled : Bool) (ret : Nat) (retSpilled : Bool) (num : Nat) : Nat :=
  chip * 2 ^ 48 + wing * 2 ^ 46 + slot * 2 ^ 34 + bit spilled * 2 ^ 33 + ret * 2 ^ 21 + bit retSpilled * 2 ^ 20 + num % 2 ^ 16

def hChip (h : Nat) : Nat := h / 2 ^ 48 % 65536
def hWing (h : Nat) : Nat := h / 2 ^ 46 % 4
def hSlot (h : Nat) : Nat := h / 2 ^ 34 % 4096
def hSpilled (h : Nat) : Bool := h.testBit 33
def hRet (h : Nat) : Nat := h / 2 ^ 21 % 4096
def hRetSpilled (h : Nat) : Bool := h.testBit 20
def hTag (h : Nat) : Nat := h % 2 ^ 16

/-- A packet of a collective from an Accord unit or a contributor; its payload is not filled up, so that its length is that
of the stream. -/
def State.collPacket (s : State) (unit kind vc chip dstUnit ctx epoch slice arg : Nat) (chunk : BitVec 32)
    (payload : List Byte) : Packet :=
  { s.unitPacket unit kind vc chip dstUnit ctx epoch slice arg [] with
    chunk := chunk, payload := payload, payFlits := Fin.ofNat 128 ((payload.length + 63) / 64) }

/-- A node sends a GRANT, REQUEST or REFUSE (R194). -/
def State.sendGrant (s : State) (n : CollNode) (chip unit ctx epoch arg : Nat) (chunk : BitVec 32) (src dst : Nat) : State :=
  if s.forwardOnly then s else
  let p := s.collPacket (0x81 + n.wing) 0x12 0 chip unit ctx epoch n.slice arg chunk []
  s.source (0x81 + n.wing) { p with srcRank := Fin.ofNat 65536 src, dstRank := Fin.ofNat 65536 dst }

/-- A chunk of a tree node passed a spilled node: this one, or one below or above it (Table 9.3). -/
def passedSpill (n : CollNode) (num : Nat) : Bool :=
  n.phase == .spilled || !isExchangeNode n && ((nodeChunk n 0xFFFF num).map (·.spilled)).getD false

/-- A node sends a stream of COLL_UP packets under a handle (R195, R196). -/
def State.sendUp (s : State) (n : CollNode) (handle num : Nat) (codes slipped abort : Bool) (residue src dst : Nat)
    (bs : List Byte) : State :=
  let unit := 0x81 + n.wing
  (if bs = [] then [(0, [])] else pieces bs).foldl (fun (t : State) q =>
    let p := t.collPacket unit 0x10 3 (hChip handle) (0x81 + hWing handle) n.owner n.epoch n.slice handle
      (chunkField num codes slipped (passedSpill n num) abort q.1) q.2
    t.source unit { p with residue := BitVec.ofNat 64 residue, srcRank := Fin.ofNat 65536 src, dstRank := Fin.ofNat 65536 dst }
      (some ⟨16384 + n.slice, n.num, num, 0, none⟩)) s

/-- The handle of a slot of a node, with the node's return slot where it is a child's. -/
def handleOf (s : State) (n : CollNode) (slot : Nat) : Nat := slotHandle s.chip n.wing slot (n.phase == .spilled) 0 false n.num

/-! ### Members at a leaf -/

/-- The member of a rank whose command takes part. -/
def memberOf (n : CollNode) (rank : Nat) : Option CollMember := n.members.find? fun m => m.rank == rank

/-- The command of a member still runs. -/
def State.memberRuns (s : State) (m : CollMember) : Bool := (s.run m.queue m.index).isSome

def modMember (n : CollNode) (rank : Nat) (f : CollMember → CollMember) : CollNode :=
  { n with members := n.members.map fun m => if m.rank = rank then f m else m }

/-- A command ends at a chunk with a status, unless it is to end sooner. -/
def State.endAtChunk (s : State) (q i chunk st : Nat) : State :=
  s.modRun q i fun r => match r.endAt with
    | some (k, _) => if k ≤ chunk then r else { r with endAt := some (chunk, st) }
    | none => { r with endAt := some (chunk, st) }

/-- Send a stretch of a result to a member's DST as COLL_DOWN packets (R187, R196, R197): `at'` is its coordinate among the
member's chunks, `addr` where it lands, `last` that it is the command's last, `spilled` that the chunk passed a spilled node. -/
def State.sendResult (s : State) (n : CollNode) (m : CollMember) (num at' len addr : Nat) (slipped spilled last : Bool)
    (bs : List Byte) : State :=
  let unit := 0x81 + n.wing
  let ps := pieces bs
  let cut := fun (k : Nat) =>
    if isMx (dOut n.desc) then k * len / max 1 ps.length else min len (k * 4096 * 8 / max 1 (elemBits (dOut n.desc)))
  ps.foldl (fun (t : State) q =>
    let a := addr + q.1 * 4096
    let p := t.collPacket unit 0x11 4 (addrChip a) (addrUnit a) m.ctx m.epoch n.slice a
      (chunkField num false slipped spilled false q.1) q.2
    let hi := if q.1 + 1 = ps.length then len else cut (q.1 + 1)
    t.source unit { p with ackSoon := last && q.1 + 1 == ps.length }
      (some ⟨m.queue, m.index, at' + cut q.1, hi - cut q.1, none⟩)) s

/-- Result packets of a chunk that await acknowledgement. -/
def State.downOpen (s : State) (n : CollNode) (num : Nat) : Bool :=
  let mine := fun (unit : Nat) (p : Packet) => unit == 0x81 + n.wing && p.kind.val == 0x11 && p.slice.val == n.slice
    && p.chunk.toNat / 256 == num
  (s.net.copies.any fun c => mine c.key.unit c.pkt && (match c.cmd with
    | some t => n.members.any (fun m => m.queue == t.queue && m.index == t.index) || (t.queue == 16384 + n.slice && t.index == n.num)
    | none => false))
  || (s.net.backlog.any fun b => mine b.unit b.pkt)

end Sys2Proof.Machine
end

