-- ==== Sys2Proof/Machine/Frames.lean ====
section
/-! DEFINITION. Sys2Proof/Machine/Frames.lean: frames on the Antenna ports at link level, and the doorbells and locks that the
owners share (R310 to R325).
(log entries of this file: DEDUCED 6, 73, 108, 115) -/

namespace Sys2Proof.Machine

/-! ### Time in FTU (R36) -/

/-- FTU of a number of microseconds. -/
def usFtu (n : Nat) : Nat := n * 1600

/-- Fabric time since `t`. -/
def State.since (s : State) (t : Ftu) : Nat := (s.ftu - t).toNat

/-- The Antenna ports work: also while the part is frozen, driven by the read-out engine (R388), and not in reset, SLEEP or
DEEP. -/
def actAnt (s : State) (f : State → State) : Out :=
  .next (if s.power.aonOn && !s.power.inReset && decide (s.fld F.PWR_STATUS_STATE < 2) then f s else s)

/-! ### Tracked frames (R310 to R312) -/

def AN_DOWN : Nat := 0
def AN_TRAINING : Nat := 1
def AN_INIT : Nat := 2
def AN_UP : Nat := 3

def State.modAnt (s : State) (a : Nat) (f : AntSt → AntSt) : State := s.setAnt a (f (s.ant a))

def State.antState (s : State) (a : Nat) : Nat := s.fld F.ANT_STATUS_STATE a

/-- A frame with every field zero but TYPE. -/
def antFrame (typ : Nat) : AntFrame := ⟨Fin.ofNat 256 typ, 0, 0, 0, 0, 0, 0, 0, [], true⟩

/-- Send a frame: ACK_SEQ names the last tracked frame received in order (R312). -/
def State.antEmit (s : State) (a : Nat) (f : AntFrame) : State :=
  (s.modAnt a fun q => { q with owed := false }).emit (.antFrame a { f with ack := (s.ant a).rxSeq - 1 })

/-- Send waiting tracked frames while fewer than 128 are unacknowledged (R312); `fuel` bounds the number. -/
def State.antPump (s : State) (a : Nat) : Nat → State
  | 0 => s
  | fuel + 1 =>
    let q := s.ant a
    match q.waiting with
    | [] => s
    | w :: t =>
      if 128 ≤ q.unacked.length then s
      else
        let f := { w.frame with seq := q.txSeq }
        let q1 := { q with
          waiting := t, unacked := q.unacked ++ [{ w with frame := f }], txSeq := q.txSeq + 1
          progress := if q.unacked = [] then s.ftu else q.progress }
        State.antPump ((s.setAnt a q1).antEmit a f) a fuel

/-- Send a tracked frame on a port that is UP. -/
def State.antQueue (s : State) (a : Nat) (f : AntFrame) (events : List Nat := []) : State :=
  if s.antState a = AN_UP then
    let s1 := s.modAnt a fun q => { q with waiting := q.waiting ++ [⟨f, 0, events⟩] }
    s1.antPump a (s1.ant a).waiting.length
  else s

/-- ACK_SEQ of a frame received: frames up to it are acknowledged, and the event records they carried leave the queue (R312,
R316). -/
def State.antAcked (s : State) (a : Nat) (ack : Fin 65536) : State :=
  let q := s.ant a
  match q.unacked.findIdx? fun x => x.frame.seq == ack with
  | none => s
  | some i =>
    let evs := (q.unacked.take (i + 1)).flatMap (·.events)
    let s1 := s.setAnt a { q with
      unacked := q.unacked.drop (i + 1), progress := s.ftu
      events := q.events.filter fun e => !evs.contains e.seq }
    s1.antPump a (s1.ant a).waiting.length

/-- Send LINK_NAK, at most one per 1 µs (R312). -/
def State.antNak (s : State) (a : Nat) : State :=
  let room : Bool := match (s.ant a).nakAt with
    | none => true
    | some t => decide (usFtu 1 ≤ s.since t)
  if room then (s.modAnt a fun q => { q with nakAt := some s.ftu }).antEmit a (antFrame 0x32) else s

/-- A tracked frame arrives on a port that is UP: it takes effect once, in SEQ order; a gap is answered with LINK_NAK, and a
frame that fails R310 is counted and answered so too (R310, R312). -/
def State.antReceive (s : State) (a : Nat) (good : Bool) (f : AntFrame) (eff : State → State) : State :=
  if s.antState a ≠ AN_UP then s
  else if good = false then (s.bump F.ANT_COUNTS_CRC_ERRORS a).antNak a
  else
    let s1 := s.antAcked a f.ack
    let q := s1.ant a
    if f.seq = q.rxSeq then eff (s1.setAnt a { q with rxSeq := q.rxSeq + 1, owed := true })
    else if (f.seq - q.rxSeq).val < 32768 then s1.antNak a
    else s1.setAnt a { q with owed := true }

/-- A RESPONSE or another tracked frame of the part. -/
def State.antReply (s : State) (a : Nat) (req : AntFrame) (status : Nat) (data : List Byte) : State :=
  s.antQueue a { antFrame 0x04 with
    status := Fin.ofNat 256 status, tag := req.tag, addr := req.addr, len := data.length, data := data }

/-! ### Doorbells (R319, R325) -/

/-- Pending unmasked DB_OUT bits of an owner. -/
def State.dbPending (s : State) (owner : Nat) : BitVec 32 :=
  BitVec.ofNat 32 (s.fld F.DB_OUT_BITS owner) &&& ~~~(BitVec.ofNat 32 (s.fld F.DB_OUT_MASK_MASK owner))

/-- The Antenna port of an owner. -/
def antOf (owner : Nat) : Option Nat := if owner = 1 ∨ owner = 2 then some (owner - 1) else none

/-- A DOORBELL frame falls due for an owner whose pending unmasked bits have grown (R325). -/
def State.dbDue (s : State) (old : State) (owner : Nat) : State :=
  match antOf owner with
  | none => s
  | some a => if s.dbPending owner &&& ~~~(old.dbPending owner) = 0 then s else s.modAnt a fun q => { q with bell := true }

/-- Raise a doorbell bit towards an owner: DB_IN towards the firmware and the wing stewards, DB_OUT towards owners 1, 2 and 4. -/
def State.ring (s : State) (owner bitNo : Nat) : State :=
  if owner = 1 ∨ owner = 2 ∨ owner = 4 then
    (s.setFld F.DB_OUT_BITS owner (s.fld F.DB_OUT_BITS owner ||| 2 ^ (bitNo % 32))).dbDue s owner
  else s.setFld F.DB_IN_BITS 0 (s.fld F.DB_IN_BITS ||| 2 ^ (bitNo % 32))

/-- Send the DOORBELL frame that is due: DB_OUT without the masked bits (R325). -/
def State.sendBell (s : State) (a : Nat) : State :=
  (s.modAnt a fun q => { q with bell := false }).antQueue a { antFrame 0x21 with
    len := 8, data := leBytes 8 (s.dbPending (a + 1)).toNat }

/-! ### Register accesses (R9, R313, R322, R364) -/

/-- The always-on domain alone has power: SLEEP or DEEP (R363). -/
def State.asleep (s : State) : Bool := decide (2 ≤ s.fld F.PWR_STATUS_STATE)

/-- An access reaches the part: the always-on domain runs and no reset is held; the debug port needs DEBUG_EN (R403); in SLEEP and
DEEP only the debug port reaches the part (R364), and while it is frozen the firmware does not run (R388). -/
def State.reaches (s : State) (owner : Nat) : Bool :=
  s.power.aonOn && !s.power.inReset && (owner != 4 || s.pins.debugEn) && (!s.asleep || owner == 4)
  && !(s.power.frozen && owner == 3)

/-- What a write of a Thorax register answers while the part is stopped: refused in a freeze (R388); in SLEEP and DEEP the Thorax
answers and nothing changes (R322, R364). -/
def stoppedWrite (s : State) : Nat × Word := (if s.power.frozen then ST_DOMAIN_OFF else ST_OK, 0)

/-- What a write to a wing, or to a receiver that is powered down, answers while the part is stopped (R322, R388). -/
def stoppedOff (_s : State) : Nat × Word := (ST_DOMAIN_OFF, 0)

/-- A register access of an owner, with its status and the value read. While the part is frozen, in SLEEP and in DEEP the access
answers `stopped` without effect (R322, R364, R388). -/
def accessBy (owner : Nat) (s : State) (f : State → State × Nat × Word)
    (stopped : State → Nat × Word := stoppedWrite) : Out :=
  if s.reaches owner = false then .next s
  else if s.running then
    let (t, st, v) := f s
    .next (t.emit (.access owner st v))
  else
    let (st, v) := stopped s
    .next (s.emit (.access owner st v))

/-- What a read of a Thorax register answers while the part is stopped: its frozen value, or 0 in SLEEP and DEEP (R364, R388). -/
def frozenFld (f : Fld) (i : Nat) (s : State) : Nat × Word := (ST_OK, if s.power.frozen then BitVec.ofNat 64 (s.fld f i) else 0)

/-- A read of an RC field: it returns the holder, and claims the field for the reader where it was free (R9). -/
def State.claim (s : State) (f : Fld) (i owner : Nat) : State × Nat × Word :=
  let h := s.fld f i
  (if h = 0 then s.setFld f i owner else s, ST_OK, BitVec.ofNat 64 h)

/-- A write of an RC field: the stored number releases it; any other value is ignored (R9). -/
def State.release (s : State) (f : Fld) (i : Nat) (value : Word) : State × Nat × Word :=
  (if s.fld f i = getBits value f.lo f.width then s.setFld f i 0 else s, ST_OK, 0)

end Sys2Proof.Machine
end

