-- ==== Sys2Proof/Machine/Mailbox.lean ====
section
/-! DEFINITION. Sys2Proof/Machine/Mailbox.lean: the sixty-four mailboxes, CTL_SEM, owners and their restarts (R317 to R325).
(log entries of this file: DEDUCED 73) -/

namespace Sys2Proof.Machine

/-! ### Mailboxes (R319 to R324) -/

/-- Who receives on a mailbox: the firmware (3), a wing steward (0), or the owner given by DEST (Table 15.7). -/
def State.mbxReceiver (s : State) (n : Nat) : Nat :=
  if n < 28 then 3 else if n < 32 then 0 else s.fld F.MBX_STATUS_DEST n

/-- Who may send on a mailbox (Table 15.7). -/
def mbxSender (owner n : Nat) : Bool := if n < 32 then owner == 1 || owner == 2 || owner == 4 else owner == 3

def ownerEpoch (owner : Nat) : Fld :=
  if owner = 1 then F.CTL_EPOCHS_ANT_A
  else if owner = 2 then F.CTL_EPOCHS_ANT_B
  else if owner = 3 then F.CTL_EPOCHS_FIRMWARE
  else F.CTL_EPOCHS_DEBUG

/-- Post a word (R320): FULL, SENDER and POST_EPOCH are set, VALID clears, and the receiver's bit is raised. -/
def State.mbxPost (s : State) (owner n dest : Nat) (word : Word) : State :=
  let s1 := ((s.setReg .MBX_DATA n word).setFld F.MBX_STATUS_FULL n 1).setFld F.MBX_STATUS_SENDER n owner
  let s2 := s1.setFld F.MBX_STATUS_POST_EPOCH n (s.fld (ownerEpoch owner))
  let s3 := s2.setFld F.MBX_STATUS_DEST n (if n < 28 then 3 else if n < 32 then 0 else dest)
  let s4 := (s3.setFld F.MBX_STATUS_DOMAIN n (if 28 ≤ n ∧ n < 32 then n - 27 else 0)).setFld F.MBX_ACK_VALID n 0
  s4.ring (s4.mbxReceiver n) n

/-- A write of MBX_DATA (R320): by the holder of the lock while FULL is clear. -/
def State.mbxWrite (s : State) (owner n dest : Nat) (word : Word) : State × Nat × Word :=
  if mbxSender owner n = false then (s, ST_REFUSED_AUTH, 0)
  else if s.fld F.MBX_LOCK_OWNER n ≠ owner ∨ s.flag F.MBX_STATUS_FULL n then (s, ST_REFUSED_STATE, 0)
  else (s.mbxPost owner n dest word, ST_OK, 0)

/-- MBX_SEND as one act (R320): the lock is 0 or the sender's, FULL is clear, and the lock stays as it was. -/
def State.mbxSend (s : State) (owner n : Nat) (word : Word) : State × Nat :=
  let l := s.fld F.MBX_LOCK_OWNER n
  if mbxSender owner n = false then (s, ST_REFUSED_AUTH)
  else if (l ≠ 0 ∧ l ≠ owner) ∨ s.flag F.MBX_STATUS_FULL n then (s, ST_REFUSED_STATE)
  else (s.mbxPost owner n 0 word, ST_OK)

/-- An acknowledgement (R321): FULL clears, VALID and CODE are set, and the sender's bit is raised. -/
def State.mbxAck (s : State) (n code : Nat) : State :=
  let s1 := (s.setFld F.MBX_STATUS_FULL n 0).setFld F.MBX_ACK_VALID n 1
  (s1.setFld F.MBX_ACK_CODE n code).ring (s.fld F.MBX_STATUS_SENDER n) n

/-- A write of MBX_ACK (R321): by the receiver only, and only while FULL is set. Owner 0 stands for a wing steward. -/
def State.mbxAnswer (s : State) (owner n code : Nat) : State × Nat × Word :=
  if owner ≠ s.mbxReceiver n then (s, ST_REFUSED_AUTH, 0)
  else if s.flag F.MBX_STATUS_FULL n = false then (s, ST_REFUSED_STATE, 0)
  else (s.mbxAck n (code % 256), ST_OK, 0)

/-- CTL_SEM_READ (R9, R317). -/
def execCtlSemRead (owner : Owner) (s : State) : Out :=
  accessBy owner.val s (fun s => s.claim F.CTL_SEM_OWNER 0 owner.val) (frozenFld F.CTL_SEM_OWNER 0)

/-- CTL_SEM_RELEASE (R9, R317). -/
def execCtlSemRelease (owner : Owner) (value : Word) (s : State) : Out :=
  accessBy owner.val s fun s => s.release F.CTL_SEM_OWNER 0 value

/-- MBX_LOCK_READ (R9, R320). -/
def execMbxLockRead (owner : Owner) (n : Mailbox) (s : State) : Out :=
  accessBy owner.val s (fun s => s.claim F.MBX_LOCK_OWNER n.val owner.val) (frozenFld F.MBX_LOCK_OWNER n.val)

/-- MBX_LOCK_RELEASE (R9, R320). -/
def execMbxLockRelease (owner : Owner) (n : Mailbox) (value : Word) (s : State) : Out :=
  accessBy owner.val s fun s => s.release F.MBX_LOCK_OWNER n.val value

/-- MBX_POST (R320). -/
def execMbxPost (owner : Owner) (n : Mailbox) (word : Word) (dest : Owner) (s : State) : Out :=
  accessBy owner.val s (fun s => s.mbxWrite owner.val n.val dest.val word) stoppedOff

/-- MBX_ACKNOWLEDGE (R321). -/
def execMbxAcknowledge (owner : Owner) (n : Mailbox) (code : Fin 256) (s : State) : Out :=
  accessBy owner.val s fun s => s.mbxAnswer owner.val n.val code.val

/-- DOORBELL_FRAME_SEND (R325). -/
def execDoorbellFrameSend (port : Antenna) (s : State) : Out :=
  act s fun s => if (s.ant port.val).bell ∧ s.antState port.val = AN_UP then s.sendBell port.val else s

/-! ### Restarts of owners (R318, R323) -/

/-- The receiver of a FULL mailbox restarts (R323). -/
def State.mbxReset (s : State) (n : Nat) : State := (s.setReg .MBX_DATA n 0).mbxAck n ACK_RECEIVER_RESET

/-- A channel's lock goes with its holder's restart: at once where it is idle, when its chain ends otherwise (R318). -/
def State.dropChanLock (s : State) (owner n : Nat) : State :=
  if 12 ≤ n ∨ s.fld F.ATS_CH_LOCK_OWNER n ≠ owner then s
  else if s.fld F.ATS_CH_STATUS_STATE n = 0 then s.setFld F.ATS_CH_LOCK_OWNER n 0
  else
    let c := Store.get (fun _ => ChainS.init) s.dma.chanS n
    { s with dma := { s.dma with chanS := Store.set (fun _ => ChainS.init) s.dma.chanS n { c with orphan := true } } }

/-- An owner restarts (R318): its epoch increments, every RC register that holds its number returns to 0, its Sillage cursor
too, and a FULL mailbox it receives on is answered (R323). -/
def State.ownerRestart (s : State) (owner : Nat) : State :=
  let e := ownerEpoch owner
  let s1 := s.setFld e 0 ((s.fld e + 1) % 256)
  let s2 := if s1.fld F.CTL_SEM_OWNER = owner then s1.setFld F.CTL_SEM_OWNER 0 0 else s1
  let s3 := (List.range 64).foldl (fun (t : State) n =>
    if t.fld F.MBX_LOCK_OWNER n = owner then t.setFld F.MBX_LOCK_OWNER n 0 else t) s2
  let s4 := ((List.range 12).foldl (fun (t : State) n => t.dropChanLock owner n) s3).setReg .SIL_CURSOR owner 0
  (List.range 64).foldl (fun (t : State) n =>
    if t.flag F.MBX_STATUS_FULL n ∧ t.mbxReceiver n = owner then t.mbxReset n else t) s4

/-- The management firmware restarts (R318, R323, Table 16.14): CHIP commands that ran end with ACK_INTERRUPTED, except the one
that asked for it. -/
def State.fwRestart (s : State) (but : Option FwRef) : State :=
  let s1 := s.ownerRestart 3
  let open' := s1.fw.journal.filter fun (e : JournalEntry) => !e.done && !mgrOpcode e.opcode && but != some e.ref
  open'.foldl (fun (t : State) (e : JournalEntry) => t.finishFw e.ref ACK_INTERRUPTED 0) s1

/-- OWNER_RESTART (R318): the firmware restarts by its watchdog, or the TAP enters Test-Logic-Reset. Owners 1 and 2 restart with
their ports (Table 15.6). -/
def execOwnerRestart (owner : Owner) (s : State) : Out :=
  act s fun s =>
    if owner.val = 3 then ({ s with fw := { s.fw with restarts := s.fw.restarts ++ [s.ftu.toNat] } }).fwRestart none
    else if owner.val = 4 then s.ownerRestart 4
    else s

end Sys2Proof.Machine
end

