-- ==== Sys2Proof/Machine/Streamer.lean ====
section
/-! DEFINITION. Sys2Proof/Machine/Streamer.lean: DMA descriptors and transforms, and the Atomizer-S engine with its sixteen
channels (R272 to R282, R315).
(log entries of this file: DEDUCED 70, 72, 73) -/

namespace Sys2Proof.Machine

/-! ### Descriptors (R273, R274) -/

/-- A descriptor as its 64 bytes give it (Table 13.1). -/
def descOf (addr : Nat) (b : List Byte) : Desc where
  addr := addr
  src := slotNum b 0 8
  dst := slotNum b 8 8
  next := slotNum b 16 8
  rowBytes := slotNum b 24 4
  rows := slotNum b 28 4
  srcStride := slotNum b 32 4
  dstStride := slotNum b 36 4
  xform := slotByte b 40
  xsize := slotByte b 41
  xchan := slotNum b 42 2
  eventEn := (slotByte b 44).testBit 1
  record := (slotByte b 44).testBit 0
  srcSpace := slotByte b 45 % 16
  dstSpace := slotByte b 45 / 16
  event := slotNum b 46 2
  tag := slotNum b 48 8
  ctx := slotNum b 56 2

/-- The transform codes of an engine with their sizes and channels, and the figure ROW_BYTES must divide by (Table 13.3). -/
def xformOk (atlS : Bool) (d : Desc) : Bool :=
  let e := d.xsize
  let plain := decide (d.xchan = 0)
  match d.xform with
  | 0x00 => e == 0 && plain
  | 0x01 | 0x02 => !atlS && [1, 2, 4, 8].contains e && decide (2 ≤ d.xchan) && decide (d.xchan ≤ 64)
      && d.rowBytes % (e * d.xchan) == 0
  | 0x03 | 0x04 => !atlS && plain && (e == 4 || (e == 6 && d.rowBytes % 192 == 0))
  | 0x10 => atlS && plain && [2, 4, 8].contains e
  | 0x11 => atlS && plain && [4, 8].contains e
  | _ => false

/-- The limits of Table 13.1 that both engines share. -/
def descLimits (d : Desc) : Bool :=
  d.src % 64 == 0 && d.dst % 64 == 0 && d.next % 64 == 0
  && d.rowBytes % 64 == 0 && decide (64 ≤ d.rowBytes) && decide (d.rowBytes ≤ 16777216)
  && decide (1 ≤ d.rows) && decide (d.rows ≤ 16777216) && decide (d.rows * d.rowBytes ≤ 2 ^ 36)
  && d.srcStride % 64 == 0 && d.dstStride % 64 == 0 && (d.rows == 1 || decide (d.rowBytes ≤ d.dstStride))

/-- Some source row and some destination row share a byte: for each source row, the first destination row that ends above its
start. -/
def rowsMeet (d : Desc) (src dst : Nat) : Bool :=
  (List.range (if d.srcStride = 0 then 1 else d.rows)).any fun i =>
    let a := src + i * d.srcStride
    let j := if a < dst + d.rowBytes ∨ d.dstStride = 0 then 0 else (a - dst - d.rowBytes) / d.dstStride + 1
    let b := dst + j * d.dstStride
    decide (j < d.rows) && decide (b < a + d.rowBytes) && decide (a < b + d.rowBytes)

/-! ### Transforms (R276) -/

/-- Bit `i` of a row. -/
def rowBit (b : List Byte) (i : Nat) : Bool := (b.getD (i / 8) 0).getLsbD (i % 8)

/-- A row of bytes from its bits. -/
def bitsRow (n : Nat) (f : Nat → Bool) : List Byte :=
  (List.range n).map fun k =>
    BitVec.ofNat 8 ((List.range 8).foldl (fun a i => a + if f (8 * k + i) then 2 ^ i else 0) 0)

/-- The output row of a transform (Table 13.3). -/
def xformRow (d : Desc) (b : List Byte) : List Byte :=
  let rb := b.length
  let e := d.xsize
  let c := d.xchan
  match d.xform with
  | 0x01 =>
    let nEl := rb / (e * c)
    (List.range rb).map fun o => b.getD ((o / e % nEl * c + o / e / nEl) * e + o % e) 0
  | 0x02 =>
    let nEl := rb / (e * c)
    (List.range rb).map fun o => b.getD ((o / e % c * nEl + o / e / c) * e + o % e) 0
  | 0x03 =>
    let nEl := rb * 8 / e
    bitsRow rb fun i => rowBit b (i % nEl * e + i / nEl)
  | 0x04 =>
    let nEl := rb * 8 / e
    bitsRow rb fun i => rowBit b (i % e * nEl + i / e)
  | 0x10 => (List.range rb).map fun o => b.getD (o / e * e + (e - 1 - o % e)) 0
  | 0x11 => (List.range rb).map fun o => b.getD (o / e * e + (e - 2 - o % e / 2 * 2) + o % 2) 0
  | _ => b

/-! ### Channels of Atomizer-S (R272, R279) -/

def State.chS (s : State) (n : Nat) : ChainS := Store.get (fun _ => ChainS.init) s.dma.chanS n

def State.setChS (s : State) (n : Nat) (c : ChainS) : State :=
  { s with dma := { s.dma with chanS := Store.set (fun _ => ChainS.init) s.dma.chanS n c } }

def State.modChS (s : State) (n : Nat) (f : ChainS → ChainS) : State := s.setChS n (f (s.chS n))

def AS_IDLE : Nat := 0
def AS_RUNNING : Nat := 1
def AS_STOPPING : Nat := 2
def AS_WAIT_RING : Nat := 3
def AS_WAIT_ENGINE : Nat := 4

def State.chSState (s : State) (n : Nat) : Nat := s.fld F.ATS_CH_STATUS_STATE n

/-- The channel's owner by its lock; channels 12 to 15 belong to the firmware. -/
def State.chSOwner (s : State) (n : Nat) : Nat := if 12 ≤ n then 3 else s.fld F.ATS_CH_LOCK_OWNER n

/-- A record may be written for a descriptor with RECORD set, one place being kept for the chain's end (R279). -/
def State.ringRoom (s : State) (n : Nat) : Bool :=
  decide ((BitVec.ofNat 32 (s.fld F.ATS_CQ_INDEX_CQ_TAIL n + 2) - BitVec.ofNat 32 (s.fld F.ATS_CQ_INDEX_CQ_HEAD n)).toNat
    ≤ 2 ^ s.fld F.ATS_CQ_BASE_LOG n)

/-- First descriptor not started; 0 for none. -/
def nextDescS (c : ChainS) : Nat :=
  match c.desc with
  | some d => if c.started then d.next else d.addr
  | none => c.at'.getD 0

/-- Write a record of Table 13.4 to the channel's ring. -/
def State.recordS (s : State) (n status : Nat) (isFence isPartial : Bool) : State :=
  let c := s.chS n
  let t := s.fld F.ATS_CQ_INDEX_CQ_TAIL n
  let k := s.fld F.ATS_CQ_BASE_LOG n
  let at' := s.fld F.ATS_CQ_BASE_BASE n + t % 2 ^ k * 32
  let bytes := leBytes 1 status ++ leBytes 1 ((1 - t / 2 ^ k % 2) * 128 + 2 * bit isFence + bit isPartial) ++ leBytes 1 n ++ [0]
    ++ leBytes 4 c.finished ++ leBytes 8 (nextDescS c) ++ leBytes 8 c.lastTag ++ leBytes 8 s.ftu.toNat
  let s1 := s.setFld F.ATS_CQ_INDEX_CQ_TAIL n ((t + 1) % 2 ^ 32)
  if s.fld F.ATS_CQ_BASE_SPACE n = 3 then s1.writeMem (sramBase + at' % sramBytes) bytes
  else s1.emit (.hostWrite (s.fld F.ATS_CQ_BASE_SPACE n) at' bytes)

/-- The chain ends (R278): its last status, its record except where the host is lost, and the lock of a restarted holder. -/
def State.endS (s : State) (n status : Nat) : State :=
  let c := s.chS n
  let more : Bool := nextDescS c != 0 || status != ST_OK
  let s1 := if status = ST_DMA_HOST_LOST then s else s.recordS n status false more
  let s2 := (s1.setFld F.ATS_CH_STATUS_LAST_STATUS n status).setFld F.ATS_CH_STATUS_STATE n AS_IDLE
  let s3 := if c.orphan ∧ n < 12 then s2.setFld F.ATS_CH_LOCK_OWNER n 0 else s2
  let s4 := s3.modChS n fun c => { c with
    at' := none, desc := none, asked := false, started := false, stopping := false, buf := [], failed := none, orphan := false }
  { s4 with dma := { s4.dma with serving := if s4.dma.serving = some n then none else s4.dma.serving } }

/-- Host writes of a channel numbered below `k` that have no answer. -/
def State.hostOpen (s : State) (n k : Nat) : Bool :=
  (List.range 2).any fun a => (s.ant a).hosts.any fun h => h.chan == n && h.kind == 2 && decide (h.pos < k)

/-- The FENCE records that may be written now (R279), in order; `fuel` bounds their number. -/
def State.settleS (s : State) (n : Nat) : Nat → State
  | 0 => s
  | fuel + 1 =>
    let c := s.chS n
    match c.fences with
    | [] => s
    | k :: t =>
      if s.hostOpen n k then s
      else
        let st := ((firstFail (c.fails.filter fun f => decide (f.1 < k))).map (·.2)).getD ST_OK
        let s1 := s.modChS n fun c => { c with fences := t, fails := c.fails.filter fun f => decide (k ≤ f.1) }
        State.settleS (s1.recordS n st true false) n fuel

/-! ### Accesses of Atomizer-S (R275, R310, R315) -/

/-- The Antenna port of a space, 1 or 2. -/
def spacePort (space : Nat) : Nat := space - 1

def isHostSpace (space : Nat) : Bool := space == 1 || space == 2

/-- The port of a host space has room for another request. -/
def State.hostRoom (s : State) (space : Nat) : Bool :=
  let q := s.ant (spacePort space)
  decide (q.hosts.length < q.maxOut)

def State.hostUp (s : State) (space : Nat) : Bool := s.antState (spacePort space) == AN_UP

/-- Send a HOST_READ or HOST_WRITE. -/
def State.hostAsk (s : State) (space chan kind pos num addr len : Nat) (data : List Byte) : State :=
  let a := spacePort space
  let q := s.ant a
  let h : HostReq := ⟨q.hostTag, chan, kind, pos, num, s.ftu⟩
  let s1 := s.setAnt a { q with hosts := q.hosts ++ [h], hostTag := (q.hostTag + 1) % 2 ^ 32 }
  s1.antQueue a { antFrame (if data = [] then 0x10 else 0x11) with
    tag := BitVec.ofNat 32 q.hostTag, addr := BitVec.ofNat 64 addr, len := len, data := data }

/-- A SRAM range that Antenna frames and Atomizer-S may write: the load range while it is open (R343, R411). -/
def State.loadRange (s : State) (off n : Nat) : Bool := s.ins.loadOpen && decide (off + n ≤ 0x2000000)

/-- Thorax SRAM bytes as an owner other than the firmware reads them: firmware-held regions read zero (Table 22.3). -/
def State.sramRead (s : State) (off n : Nat) : List Byte :=
  (List.range n).map fun k =>
    let o := off + k
    if (0x2000000 ≤ o ∧ o < 0x3800000) ∨ (0x3C00000 ≤ o ∧ o < 0x3E00000) ∨ 0x3F80000 ≤ o then 0 else s.byteAt (sramBase + o)

/-- Read a local source piece: its bytes, and the failure met. -/
def State.localRead (s : State) (n : Nat) (d : Desc) (addr len : Nat) : List Byte × Option Nat :=
  if d.srcSpace = 3 then
    (if 12 ≤ n then s.readMem (sramBase + addr) len else s.sramRead addr len, none)
  else
    let off := addrOffset addr
    let x := s.ownFault (d.ctx % 4096) off len
    if x = some ST_REFUSED_AUTH then (List.replicate len 0, x) else (s.ctxRead (d.ctx % 4096) off len, x)

/-- Write a local destination piece: the failure met, with nothing written. -/
def State.localWrite (s : State) (d : Desc) (addr : Nat) (bs : List Byte) : State × Option Nat :=
  if d.dstSpace = 3 then
    if s.loadRange addr bs.length then (s.writeMem (sramBase + addr) bs, none) else (s, some ST_REFUSED_AUTH)
  else
    let (t, st) := s.storeOwn (d.ctx % 4096) (addrOffset addr) bs
    (t, if st = ST_OK then none else some st)

/-- An address is one of its space (Table 13.2): on this chip and a pool offset in space 0. -/
def State.spaceOk (s : State) (space addr : Nat) : Bool :=
  match space with
  | 0 => !isWindow addr && addrChip addr == s.chip
  | 1 | 2 => decide (addr < 2 ^ 48)
  | 3 => decide (addr < sramBytes)
  | _ => false

/-- What Atomizer-S refuses a descriptor with (R274, R275). -/
def State.refuseS (s : State) (n : Nat) (c : ChainS) (b : List Byte) (d : Desc) : Option Nat :=
  let res := slotByte b 44 / 4 == 0 && decide (d.event < 32) && decide (d.ctx < 4096) && zeroFrom b 58
  let owner := s.chSOwner n
  let hostBad := fun (sp : Nat) => isHostSpace sp && owner != sp && owner != 3
  let poolBad := (d.srcSpace = 0 ∨ d.dstSpace = 0) ∧ (s.ctxState d.ctx = 0 ∨ s.isSealed (s.ctxSlice d.ctx))
  if !(res && descLimits d && xformOk true d && s.spaceOk d.srcSpace d.src && s.spaceOk d.dstSpace d.dst
      && (d.next == 0 || s.spaceOk c.space d.next)) then some ST_REFUSED_FORMAT
  else if d.srcSpace = d.dstSpace ∧ rowsMeet d d.src d.dst then some ST_DMA_OVERLAP
  else if hostBad d.srcSpace ∨ hostBad d.dstSpace ∨ poolBad then some ST_REFUSED_AUTH
  else none

/-! ### The engine -/

/-- Bytes of a descriptor, and the addresses of byte `o` of it. -/
def descBytes (d : Desc) : Nat := d.rows * d.rowBytes
def descSrc (d : Desc) (o : Nat) : Nat := d.src + o / d.rowBytes * d.srcStride + o % d.rowBytes
def descDst (d : Desc) (o : Nat) : Nat := d.dst + o / d.rowBytes * d.dstStride + o % d.rowBytes
/-- The piece at byte `o`: up to 4 KiB within its row. -/
def descPiece (d : Desc) (o : Nat) : Nat := min 4096 (d.rowBytes - o % d.rowBytes)

/-- The descriptor has been read: it stands at the engine. -/
def State.gotDescS (s : State) (n addr : Nat) (b : List Byte) : State :=
  let c := s.chS n
  let d := descOf addr b
  match s.refuseS n c b d with
  | some st => (s.setChS n { c with at' := some addr }).endS n st
  | none => s.setChS n { c with
      desc := some d, asked := false, started := false, count := c.count + 1, issued := 0, moved := 0, buf := []
      failed := none }

/-- The descriptor at the engine has finished (R277). -/
def State.finishS (s : State) (n : Nat) (d : Desc) : State :=
  let s1 := s.modChS n fun c => { c with
    finished := c.finished + 1, lastTag := d.tag, desc := none, started := false
    at' := if d.next = 0 then none else some d.next }
  let s2 := s1.setFld F.ATS_CH_STATUS_DESC_DONE n (s1.chS n).finished
  let s3 := if d.eventEn then s2.ring (s2.chSOwner n) d.event else s2
  if d.record then s3.recordS n ST_OK false false else s3

/-- A failure of the descriptor at the engine: the first one ends the chain once the descriptor has run (R278). -/
def ChainS.fail (c : ChainS) (st : Nat) : ChainS := { c with failed := some (c.failed.getD st) }

/-- Write a transformed piece of `len` bytes: to memory of the part at once, to the host as a HOST_WRITE where there is room. `none`
where the engine must wait. A refused write is a failure of the descriptor and waits for the next FENCE too (R278, R279). -/
def State.pieceS (s : State) (n : Nat) (d : Desc) (o len : Nat) (bs : List Byte) : Option State :=
  let out := xformRow d bs
  let past := fun (c : ChainS) => { c with moved := c.moved + len, serial := c.serial + 1 }
  if bs = [] then some (s.modChS n past)
  else if isHostSpace d.dstSpace then
    if s.hostUp d.dstSpace = false then some (s.endS n ST_DMA_HOST_LOST)
    else if s.hostRoom d.dstSpace then
      some ((s.hostAsk d.dstSpace n 2 (s.chS n).serial (s.chS n).finished (descDst d o) out.length out).modChS n past)
    else none
  else
    match s.localWrite d (descDst d o) out with
    | (t, none) => some (t.modChS n past)
    | (t, some st) => some (t.modChS n fun c => past ({ c with fails := c.fails ++ [(c.serial, st)] }.fail st))

/-- One act of the engine on the channel it serves; `none` where it must wait. -/
def State.actS (s : State) (n : Nat) : Option State :=
  let c := s.chS n
  match c.desc with
  | none =>
    match c.at' with
    | none => some (s.endS n ST_OK)
    | some a =>
      if c.stopping then some (s.endS n ST_ABORT_STOP)
      else if 1048576 ≤ c.count then some (s.endS n ST_DMA_CHAIN_LONG)
      else if c.asked then none
      else if s.spaceOk c.space a = false ∨ a % 64 ≠ 0 ∨ c.space = 0 then some (s.endS n ST_REFUSED_FORMAT)
      else if c.space = 3 then some (s.gotDescS n a (s.readMem (sramBase + a) 64))
      else if s.chSOwner n ≠ c.space ∧ s.chSOwner n ≠ 3 then some (s.endS n ST_REFUSED_AUTH)
      else if s.hostUp c.space = false then some (s.endS n ST_DMA_HOST_LOST)
      else if s.hostRoom c.space then
        some ((s.hostAsk c.space n 0 0 c.finished a 64 []).modChS n fun c => { c with asked := true })
      else none
  | some d =>
    if c.started = false then
      if c.stopping then some (s.endS n ST_ABORT_STOP)
      else if d.record ∧ s.ringRoom n = false then
        let s1 := s.setFld F.ATS_CH_STATUS_STATE n AS_WAIT_RING
        some { s1 with dma := { s1.dma with serving := none } }
      else some (s.modChS n fun c => { c with started := true })
    else if c.moved = descBytes d then some (match c.failed with | some st => s.endS n st | none => s.finishS n d)
    else
      match c.buf with
      | (o, bs) :: t => (s.modChS n fun c => { c with buf := t }).pieceS n d o (descPiece d o) bs
      | [] =>
        if c.issued = descBytes d then none
        else
          let len := descPiece d c.issued
          let s1 := s.modChS n fun c => { c with issued := c.issued + len }
          if isHostSpace d.srcSpace then
            if s.hostUp d.srcSpace = false then some (s.endS n ST_DMA_HOST_LOST)
            else if s.hostRoom d.srcSpace then
              some (s1.hostAsk d.srcSpace n 1 c.issued c.finished (descSrc d c.issued) len [])
            else none
          else
            match s.localRead n d (descSrc d c.issued) len with
            | (bs, none) => s1.pieceS n d c.issued len bs
            | (bs, some st) => (s1.modChS n fun c => c.fail st).pieceS n d c.issued len bs

/-- The engine goes on with the channel it serves until it must wait. -/
def State.runS (s : State) (n : Nat) : Nat → State
  | 0 => s
  | fuel + 1 =>
    if s.dma.serving = some n then
      match s.actS n with
      | some t => State.runS t n fuel
      | none => s
    else s

/-- Acts enough for the longest chain. -/
def engineFuel : Nat := 2 ^ 60

/-- The channel the engine serves next (R272): the next ready one in ascending order after the last. -/
def State.nextS (s : State) : Option Nat :=
  ((List.range 16).map fun k => (s.dma.lastS + 1 + k) % 16).find? fun n => s.chSState n == AS_WAIT_ENGINE

/-- A free engine takes the next ready channel. -/
def State.serveS (s : State) : State :=
  match s.dma.serving with
  | some n => s.runS n engineFuel
  | none =>
    match s.nextS with
    | none => s
    | some n =>
      let s1 := s.setFld F.ATS_CH_STATUS_STATE n AS_RUNNING
      ({ s1 with dma := { s1.dma with serving := some n, lastS := n } }).runS n engineFuel

/-! ### The rows -/

/-- The owner checks of the ATS_ registers: anyone but the lock's owner gets ST_REFUSED_AUTH. -/
def State.ownS (s : State) (owner n : Nat) (f : State → State × Nat × Word) : State × Nat × Word :=
  if owner = 0 ∨ s.chSOwner n ≠ owner then (s, ST_REFUSED_AUTH, 0) else f s

/-- GO (R272, Table 13.6). -/
def State.goS (s : State) (owner n : Nat) : State × Nat × Word :=
  s.ownS owner n fun s =>
    if s.chSState n ≠ AS_IDLE then (s, ST_REFUSED_STATE, 0)
    else
      let s1 := s.modChS n fun c => { c with
        at' := some (s.fld F.ATS_CH_DESC_ADDRESS n), space := s.fld F.ATS_CH_DESC_SPACE n
        finished := 0, count := 0, lastTag := 0, stopping := false, desc := none, asked := false, started := false
        issued := 0, moved := 0, buf := [], failed := none, orphan := false }
      ((s1.setFld F.ATS_CH_STATUS_DESC_DONE n 0).setFld F.ATS_CH_STATUS_STATE n AS_WAIT_ENGINE, ST_OK, 0)

/-- STOP (R280): a descriptor that has started finishes; otherwise the chain ends now. -/
def State.stopS (s : State) (owner n : Nat) : State × Nat × Word :=
  s.ownS owner n fun s =>
    if s.chSState n = AS_IDLE then (s, ST_OK, 0)
    else if (s.chS n).desc.isSome ∧ (s.chS n).started then
      ((s.modChS n fun c => { c with stopping := true }).setFld F.ATS_CH_STATUS_STATE n AS_STOPPING, ST_OK, 0)
    else (s.endS n ST_ABORT_STOP, ST_OK, 0)

/-- FENCE (R279). -/
def State.fenceS (s : State) (owner n : Nat) : State × Nat × Word :=
  s.ownS owner n fun s =>
    let s1 := s.modChS n fun c => { c with fences := c.fences ++ [c.serial] }
    (s1.settleS n (s1.chS n).fences.length, ST_OK, 0)

/-- ATS_GO (R272). -/
def execAtsGo (owner : Owner) (chan : Fin 16) (s : State) : Out := accessBy owner.val s fun s => s.goS owner.val chan.val

/-- ATS_STOP (R280). -/
def execAtsStop (owner : Owner) (chan : Fin 16) (s : State) : Out := accessBy owner.val s fun s => s.stopS owner.val chan.val

/-- ATS_FENCE (R279). -/
def execAtsFence (owner : Owner) (chan : Fin 16) (s : State) : Out := accessBy owner.val s fun s => s.fenceS owner.val chan.val

/-- ATS_CHANNEL_SERVE (R272). -/
def execAtsChannelServe (s : State) : Out := act s fun s => if s.forwardOnly then s else s.serveS

/-- ATS_RING_ROOM (R279): the channel is ready for the engine again. -/
def execAtsRingRoom (chan : Fin 16) (s : State) : Out :=
  act s fun s =>
    if s.chSState chan.val = AS_WAIT_RING ∧ s.ringRoom chan.val then
      let s1 := s.setFld F.ATS_CH_STATUS_STATE chan.val AS_WAIT_ENGINE
      if s1.dma.serving = none then s1.serveS else s1
    else s

/-- ATS_CH_LOCK_READ (R9). -/
def execAtsChLockRead (owner : Owner) (chan : Fin 16) (s : State) : Out :=
  accessBy owner.val s (fun s => s.claim F.ATS_CH_LOCK_OWNER chan.val owner.val) (frozenFld F.ATS_CH_LOCK_OWNER chan.val)

/-- ATS_CH_LOCK_RELEASE (R9): channels 12 to 15 always read 3. -/
def execAtsChLockRelease (owner : Owner) (chan : Fin 16) (value : Word) (s : State) : Out :=
  accessBy owner.val s fun s => if 12 ≤ chan.val then (s, ST_OK, 0) else s.release F.ATS_CH_LOCK_OWNER chan.val value

/-- An answer to a host request (R315): data go to their place, a write has landed, and a failure ends the chain after its
descriptor (R278) or, where that has finished, waits for the next FENCE. A failed read writes the bytes that its answer carries. -/
def State.hostAnswer (s : State) (a : Nat) (f : AntFrame) : State :=
  match (s.ant a).hosts.find? fun h => h.tag == f.tag.toNat with
  | none => s
  | some h =>
    let s1 := s.modAnt a fun q => { q with hosts := q.hosts.filter fun x => x.tag != h.tag }
    let n := h.chan
    let c := s1.chS n
    let live : Bool := s1.chSState n != AS_IDLE && h.num == c.finished
    let s2 :=
      if f.status ≠ 0 then
        let s2 := if h.kind = 2 then s1.modChS n fun c => { c with fails := c.fails ++ [(h.pos, ST_REFUSED_AUTH)] } else s1
        if live = false then s2
        else if h.kind = 0 then s2.endS n ST_REFUSED_AUTH
        else s2.modChS n fun c => { c.fail ST_REFUSED_AUTH with
          buf := if h.kind = 1 then c.buf ++ [(h.pos, f.data.take (f.data.length / 64 * 64))] else c.buf }
      else if live = false then s1
      else if h.kind = 0 then
        match c.at' with
        | some x => if c.asked then s1.gotDescS n x f.data else s1
        | none => s1
      else if h.kind = 1 then s1.modChS n fun c => { c with buf := c.buf ++ [(h.pos, f.data)] }
      else s1
    let s3 := s2.settleS n (s2.chS n).fences.length
    if s3.dma.serving = some n then s3.runS n engineFuel else s3

/-- HOST_RESPONSE_RECEIVE (R315). -/
def execHostResponseReceive (port : Antenna) (good : Bool) (f : AntFrame) (s : State) : Out :=
  act s fun s => s.antReceive port.val good f fun s => s.hostAnswer port.val f

/-- The host behind a port is lost (Table 13.6): chains that use its space end at once, and writes without an answer have
failed. -/
def State.hostLost (s : State) (a : Nat) : State :=
  let sp := a + 1
  let open' := (s.ant a).hosts
  let s1 := s.modAnt a fun q => { q with hosts := [] }
  let uses := fun (t : State) (n : Nat) =>
    let c := t.chS n
    t.chSState n != AS_IDLE
      && (c.space == sp || match c.desc with | some d => d.srcSpace == sp || d.dstSpace == sp | none => false)
  (List.range 16).foldl (fun (t : State) n =>
    let lost := (open'.filter fun h => h.chan == n && h.kind == 2).map fun h => (h.pos, ST_DMA_HOST_LOST)
    let t1 := t.modChS n fun c => { c with fails := c.fails ++ lost }
    let t2 := if uses t1 n then t1.endS n ST_DMA_HOST_LOST else t1
    t2.settleS n (t2.chS n).fences.length) s1

end Sys2Proof.Machine
end

