-- ==== Sys2Proof/Machine/Dma.lean ====
section
/-! DEFINITION. Sys2Proof/Machine/Dma.lean: the Atomizer-L engines, their channels and chains, and the answers to reads and
writes that the chip's units have sent (R256 to R258, R271 to R281).
(log entries of this file: DEDUCED 47, 70, 71; DESIGN CHOICE 49) -/

namespace Sys2Proof.Machine

/-! ### Channels and chains (R271, R277) -/

def AL_IDLE : Nat := 1
def AL_RUNNING : Nat := 2
def AL_STOPPING : Nat := 3
def AL_WAIT_BUFFER : Nat := 4

/-- The chain that runs on a channel. -/
def State.liveChain (s : State) (ch : Nat) : Option ChainL := s.dma.chains.find? fun x => x.chan == ch && x.live

def State.modChain (s : State) (ch : Nat) (f : ChainL → ChainL) : State :=
  { s with dma := { s.dma with chains := s.dma.chains.map fun x => if x.chan = ch ∧ x.live then f x else x } }

/-- Channels of a wing that hold data in its buffer. -/
def State.bufferedOn (s : State) (wing : Nat) : Nat := (s.dma.buffered.filter fun c => c / 256 == wing).length

/-- First descriptor of a chain not started; 0 for none. -/
def nextDescL (x : ChainL) : Nat :=
  match x.desc with
  | some d => if x.started then d.next else d.addr
  | none => x.at'.getD 0

/-- What Atomizer-L refuses a descriptor with (R274). -/
def State.refuseL (s : State) (c : Nat) (b : List Byte) (d : Desc) : Option Nat :=
  let res := slotByte b 44 / 4 == 0 && !d.record && slotByte b 45 == 0 && d.ctx == 0 && zeroFrom b 58
  if !(res && descLimits d && xformOk false d) ∨ (d.eventEn ∧ s.fld F.QUE_CTX_STATUS_EVT_COUNT c ≤ d.event) then
    some ST_REFUSED_FORMAT
  else if rowsMeet d d.src d.dst then some ST_DMA_OVERLAP
  else none

/-- The part of a chain's end that its command sees (R278): status, EXTENT, DETAIL. -/
def State.endRunL (s : State) (x : ChainL) (status : Nat) : State :=
  s.modRun x.queue x.index fun r => { r with
    begun := true, ended := some status, extent := x.finished, detail := nextDescL x
    full := x.finished + bit (status != ST_OK || nextDescL x != 0) }

/-- Ask for the source row that the write engine needs next (R271). -/
def State.askRow (s : State) (ch : Nat) : State :=
  match s.liveChain ch with
  | none => s
  | some x =>
    match x.desc, s.run x.queue x.index with
    | some d, some r =>
      if x.asked ∨ d.rows ≤ x.row then s
      else
        let a := d.src + x.row * d.srcStride
        (s.modChain ch fun x => { x with asked := true, got := [] }).sendReads (0x89 + ch / 256) r a a d.rowBytes
          (some (ch, readSerial)) 0 (d.rowBytes / 64 + 1)
    | _, _ => s

/-- The next command's chain takes a free channel: the counts of the last chain go, and it waits for buffer room (R271, R277,
R278). -/
def State.beginL (s : State) (ch : Nat) : State :=
  match s.dma.chains.find? fun x => x.chan == ch with
  | none => s
  | some x =>
    if x.live then s
    else
      let start := fun (y : ChainL) => if y.queue = x.queue ∧ y.index = x.index then { y with live := true } else y
      let s1 := { s with dma := { s.dma with chains := s.dma.chains.map start } }
      let s2 := (s1.setFld F.ATL_CH_STATUS_DESC_DONE ch 0).setFld F.ATL_CH_STATUS_LATE_STATUS ch 0
      if s2.bufferedOn (ch / 256) < 64 ∧ !(s2.dma.ready.any fun c => c / 256 == ch / 256) then
        { s2.setFld F.ATL_CH_STATUS_STATE ch AL_RUNNING with dma := { s2.dma with buffered := s2.dma.buffered ++ [ch] } }
      else { s2.setFld F.ATL_CH_STATUS_STATE ch AL_WAIT_BUFFER with dma := { s2.dma with ready := s2.dma.ready ++ [ch] } }

/-- The chain ends and leaves its channel to the next command's. -/
def State.leaveL (s : State) (x : ChainL) (status : Nat) : State :=
  let s1 := (s.endRunL x status).setFld F.ATL_CH_STATUS_STATE x.chan AL_IDLE
  let s2 := { s1 with dma := { s1.dma with
    chains := s1.dma.chains.filter fun y => !(y.queue == x.queue && y.index == x.index)
    ready := s1.dma.ready.filter fun c => c != x.chan, buffered := s1.dma.buffered.filter fun c => c != x.chan } }
  (if status = ST_ABORT_STOP then s2.bump F.ATL_EVENTS_STOPS (x.chan / 256) else s2).beginL x.chan

/-- Read the next descriptor and set it to work: a refusal waits for the write engine, a failed read ends the chain, and the end of
the chain or a stop ends it too (R273, R277, R278, R280). -/
def State.stepL (s : State) (ch : Nat) (remote : List RemoteRead) : State :=
  match s.liveChain ch with
  | none => s
  | some x =>
    if s.dma.buffered.contains ch = false ∨ x.desc.isSome ∨ x.refused.isSome then s
    else
      match x.at' with
      | none => s.leaveL x ST_OK
      | some a =>
        if x.stopping then s.leaveL x ST_ABORT_STOP
        else if 1048576 ≤ x.count then s.modChain ch fun x => { x with refused := some ST_DMA_CHAIN_LONG }
        else
          match s.run x.queue x.index with
          | none => s
          | some r =>
            if a % 64 ≠ 0 then s.modChain ch fun x => { x with refused := some ST_REFUSED_FORMAT }
            else
              match s.readAt r.ctx a 64 remote with
              | none => s
              | some (.error st) => s.leaveL x st
              | some (.ok b) =>
                let d := descOf a b
                match s.refuseL r.ctx b d with
                | some st => s.modChain ch fun x => { x with refused := some st }
                | none => (s.modChain ch fun x => { x with
                    desc := some d, started := false, row := 0, asked := false, got := [], count := x.count + 1 }).askRow ch

/-- A free channel goes on with the next command's chain, and a chain with its next descriptor. -/
def State.goOnL (s : State) (ch : Nat) (remote : List RemoteRead) : State := (s.beginL ch).stepL ch remote

/-- DMA (R277): the command's chain joins its channel. -/
def execDma (queue : Queue) (index : BitVec 32) (remote : List RemoteRead) (s : State) : Out :=
  act s fun s =>
    match s.fresh? queue.val index.toNat 0x12 with
    | none => s
    | some r =>
      let ch := chanIx (queue.val / 4096) (slotNum r.slot 40 2)
      let x : ChainL := {
        chan := ch, queue := queue.val, index := index.toNat, live := false, at' := some (slotNum r.slot 32 8)
        desc := none, started := false, row := 0, asked := false, got := [], finished := 0, count := 0
        stopping := false, refused := none }
      let s1 := s.modRun queue.val index.toNat fun r => { r with begun := true }
      ({ s1 with dma := { s1.dma with chains := s1.dma.chains ++ [x] } }).goOnL ch remote

/-- ATL_BUFFER_GRANT (R271): the first ready channel of the wing becomes active where fewer than 64 are; a channel that is active
goes on. -/
def execAtlBufferGrant (wing : Wing) (chan : Fin 256) (remote : List RemoteRead) (s : State) : Out :=
  act s fun s =>
    let ch := chanIx wing.val chan.val
    if s.bufferedOn wing.val < 64 ∧ (s.dma.ready.find? fun c => c / 256 == wing.val) = some ch then
      let s1 := s.setFld F.ATL_CH_STATUS_STATE ch AL_RUNNING
      ({ s1 with dma := { s1.dma with
        ready := s1.dma.ready.erase ch, buffered := s1.dma.buffered ++ [ch] } }).stepL ch remote
    else s.stepL ch remote

/-! ### Rows (R276, R277) -/

/-- Bytes of a row in order from its pieces; `none` while some are missing. -/
def rowBytesOf (rb : Nat) (got : List (Nat × List Byte)) : Option (List Byte) :=
  let sorted := got.mergeSort fun a b => decide (a.1 ≤ b.1)
  let bs := sorted.flatMap (·.2)
  if rb ≤ bs.length then some (bs.take rb) else none

/-- Write a row from byte `off` on: WRITE packets end at 4 KiB boundaries of the destination. -/
def State.writeRow (s : State) (x : ChainL) (r : RunCmd) (dst : Nat) (bs : List Byte) : Nat → Nat → State
  | _, 0 => s
  | off, fuel + 1 =>
    if bs.length ≤ off then s
    else
      let n := pieceLen (dst + off) (bs.length - off)
      let k := Store.get (fun _ => 0) s.dma.serial x.chan
      let t : Tag := ⟨x.queue, x.index, x.finished, n, some (x.chan, k)⟩
      let s1 := { s with dma := { s.dma with serial := Store.set (fun _ => 0) s.dma.serial x.chan (k + 1) } }
      State.writeRow (s1.writeReq (0x89 + x.chan / 256) r.ctx r.epoch (dst + off) ((bs.drop off).take n) (some t)) x r dst bs
        (off + n) fuel

/-- A whole source row has come: its transform is written, and the next row is asked for. -/
def State.driveL (s : State) (ch : Nat) : State :=
  match s.liveChain ch with
  | none => s
  | some x =>
    match x.desc, s.run x.queue x.index with
    | some d, some r =>
      if x.asked = false then s.askRow ch
      else
        match rowBytesOf d.rowBytes x.got with
        | none => s
        | some bs =>
          let s1 := s.modChain ch fun x => { x with started := true, asked := false, row := x.row + 1, got := [] }
          (s1.writeRow x r (d.dst + x.row * d.dstStride) (xformRow d bs) 0 (d.rowBytes / 64 + 1)).askRow ch
    | _, _ => s

/-- Writes of a channel that have not left the engine. -/
def State.writesWait (s : State) (ch : Nat) : Bool :=
  s.net.backlog.any fun b => match b.cmd.bind (·.chan) with | some (c, n) => c == ch && n != readSerial | none => false

/-- DESCRIPTOR_FINISH (R277, R278): the descriptor's last write has left the engine. A failure met before ends the chain after
it; otherwise EVENT is signalled and the chain goes on. -/
def execDescriptorFinish (wing : Wing) (chan : Fin 256) (remote : List RemoteRead) (s : State) : Out :=
  act s fun s =>
    let ch := chanIx wing.val chan.val
    match (s.driveL ch).liveChain ch with
    | none => s
    | some x =>
      let s := s.driveL ch
      match x.desc, s.run x.queue x.index with
      | some d, some r =>
        if x.row < d.rows ∨ s.writesWait ch then s
        else
          match r.fails.find? fun f => f.1 == x.finished with
          | some f => (s.leaveL x f.2).goOnL ch remote
          | none =>
            let s1 := (s.setFld F.ATL_CH_STATUS_DESC_DONE ch (x.finished + 1)).bump F.ATL_EVENTS_DESCRIPTORS wing.val
            let s2 := if d.eventEn then s1.addCounter r.ctx d.event 1 else s1
            let s3 := s2.progress x.queue x.index fun r => { r with extent := x.finished + 1 }
            let s4 := s3.modChain ch fun x => { x with
              desc := none, started := false, row := 0, finished := x.finished + 1
              at' := if d.next = 0 then none else some d.next }
            s4.goOnL ch remote
      | _, _ => s

/-- DESCRIPTOR_REFUSED (R274): the write engine reaches the refused descriptor. -/
def execDescriptorRefused (wing : Wing) (chan : Fin 256) (remote : List RemoteRead) (s : State) : Out :=
  act s fun s =>
    let ch := chanIx wing.val chan.val
    match s.liveChain ch with
    | none => s
    | some x =>
      match x.refused with
      | none => s
      | some st => ((s.leaveL x st).bump F.ATL_EVENTS_REFUSED wing.val).goOnL ch remote

/-! ### Stops (R280) -/

/-- Stop the chain of a channel at a descriptor boundary. -/
def State.stopChan (s : State) (ch : Nat) : State :=
  match s.liveChain ch with
  | none => s
  | some x =>
    if x.started then (s.modChain ch fun x => { x with stopping := true }).setFld F.ATL_CH_STATUS_STATE ch AL_STOPPING
    else if x.desc = none ∧ x.at' = none then s
    else s.leaveL x ST_ABORT_STOP

/-- Stop every chain of a context: those that wait for their channel end with nothing done. -/
def State.stopChains (s : State) (c : Nat) : State :=
  let mine := fun (t : State) (x : ChainL) => match t.run x.queue x.index with | some r => r.ctx == c | none => false
  let s1 := (s.dma.chains.filter fun x => !x.live && mine s x).foldl (fun (t : State) (x : ChainL) =>
    let t1 := t.endRunL x ST_ABORT_STOP
    ({ t1 with dma := { t1.dma with
      chains := t1.dma.chains.filter fun y => !(y.queue == x.queue && y.index == x.index) } }).bump
      F.ATL_EVENTS_STOPS (x.chan / 256)) s
  (s1.dma.chains.filter fun x => x.live && mine s1 x).foldl (fun (t : State) (x : ChainL) => t.stopChan x.chan) s1

/-- ATL_STOP (R280): a write of ATL_CH_SEL with STOP set. -/
def execAtlStop (owner : Owner) (wing : Wing) (chan : Fin 256) (s : State) : Out :=
  accessBy owner.val s (fun s =>
    ((s.setFld F.ATL_CH_SEL_CHANNEL wing.val chan.val).stopChan (chanIx wing.val chan.val), ST_OK, 0)) stoppedOff

/-- A reset cuts the chains of a context where they stand: EXTENT counts the descriptors finished (R280). -/
def State.cutChains (s : State) (c : Nat) : State :=
  let mine := s.dma.chains.filter fun x => match s.run x.queue x.index with | some r => r.ctx == c | none => false
  mine.foldl (fun (t : State) (x : ChainL) =>
    let t1 := t.modRun x.queue x.index fun r => { r with extent := x.finished, detail := nextDescL x, full := x.finished + 1 }
    let t2 := if x.live then t1.setFld F.ATL_CH_STATUS_STATE x.chan AL_IDLE else t1
    { t2 with dma := { t2.dma with
      chains := t2.dma.chains.filter fun y => !(y.queue == x.queue && y.index == x.index)
      ready := t2.dma.ready.filter fun k => k != x.chan || !x.live
      buffered := t2.dma.buffered.filter fun k => k != x.chan || !x.live } }) s

/-! ### Answers (R257, R258, R264) -/

/-- Where a failing sector of a read begins in its range: known for this chip, a free one of its sectors otherwise (log entry 1). -/
def State.failAt (s : State) (r : PendingRead) : Nat × State :=
  match r.bad with
  | some b => (b, s)
  | none =>
    let n := (sectorsOf r.addr r.granules).length
    if n ≤ 1 then (0, s)
    else
      let (v, s1) := s.fresh
      (v % n * 512 - r.addr % 512, s1)

/-- The data of a read come for the work that asked (R256, R264, R278). -/
def State.readDone (s : State) (r : PendingRead) (status : Nat) (data : List Byte) : State :=
  match r.cmd with
  | none => s
  | some t =>
    let bs := data.take t.len
    match t.chan with
    | some (ch, _) =>
      match s.dma.chains.find? fun (x : ChainL) => x.queue == t.queue && x.index == t.index && x.live with
      | none => s
      | some x =>
        let s1 := if status = ST_OK then s else s.cmdFail t.queue t.index x.finished status
        (s1.modChain ch fun x => { x with got := x.got ++ [(t.off, bs)] }).driveL ch
    | none =>
      match s.run t.queue t.index with
      | none => s
      | some q =>
        let write := fun (s : State) => s.writeReq r.unit q.ctx q.epoch (moveDst q + t.off) bs (some t)
        if status = ST_OK then write s
        else if status = ST_INTEGRITY ∨ status = ST_POOL_UNCORRECTABLE then
          let (o, s1) := s.failAt r
          write (s1.cmdFail t.queue t.index (t.off + o) status)
        else s.cmdFail t.queue t.index t.off status

/-- READ_RESP_RECEIVE (R257, R258): an answer to a read, or the refusal of a write. -/
def execReadRespReceive (unit : Fin 256) (p : Packet) (s : State) : Out :=
  act s fun s =>
    let status := p.arg.toNat / 2 ^ 32 % 256
    match s.readFor unit.val p with
    | some r => ({ s with net := { s.net with reads := s.net.reads.erase r } }).readDone r status p.payload
    | none =>
      match s.writeFor unit.val p with
      | none => s
      | some c =>
        let s1 := { s with net := { s.net with copies := s.net.copies.map fun x => if x = c then { x with cmd := none } else x } }
        match c.cmd with
        | some t => s1.tagFail t status
        | none => s1

end Sys2Proof.Machine
end

