-- ==== Sys2Proof/Machine/HawkOps.lean ====
section
/-! DEFINITION. Sys2Proof/Machine/HawkOps.lean: the operators of Hawk cores (R229 to R236): FP32 steps, block-exact sums, the
parameter areas of Table 11.2 with their limits, and what each operator computes from the bytes it reads. -/

namespace Sys2Proof.Machine

/-! ### FP32 steps (R229 to R231) -/

def negF32 (a : Nat) : Nat := if f32Nan a then canonNan else if a < 2 ^ 31 then a + 2 ^ 31 else a - 2 ^ 31
def subF32 (a b : Nat) : Nat := addF32 a (negF32 b)

/-- A quotient, exact but for a sticky last bit far below any FP32 rounding point. -/
def fltDiv (a b : Flt) : Flt :=
  match a, b with
  | .nan, _ => .nan
  | _, .nan => .nan
  | .inf _, .inf _ => .nan
  | .inf x, .num y _ _ => .inf (x != y)
  | .num x _ _, .inf y => .num (x != y) 0 0
  | .num x m e, .num y n f =>
    if n = 0 then (if m = 0 then .nan else .inf (x != y))
    else
      let k := 64 + Nat.log2 n
      let q := m * 2 ^ k / n
      .num (x != y) (2 * q + (if m * 2 ^ k % n = 0 then 0 else 1)) (e - f - k - 1)

/-- A correctly rounded FP32 quotient. -/
def divF32 (a b : Nat) : Nat := toF32 (fltDiv (ofF32 a) (ofF32 b))

/-- A function of R231 on FP32 bits; every NaN is canonical. -/
def fixedFn (f : BitVec 32 → BitVec 32) (a : Nat) : Nat :=
  if f32Nan a then canonNan
  else
    let r := (f (BitVec.ofNat 32 a)).toNat
    if f32Nan r then canonNan else r

def expF32 : Nat → Nat := fixedFn Config.hawkExp
def tanhF32 : Nat → Nat := fixedFn Config.hawkTanh
def phiF32 : Nat → Nat := fixedFn Config.hawkPhi
def rsqrtF32 : Nat → Nat := fixedFn Config.hawkRsqrt

def oneF32 : Nat := 0x3F800000

/-- FP32 of a small whole number. -/
def natF32 (n : Nat) : Nat := toF32 (.num false n 0)

/-- A block-exact sum (R230). -/
def blockSum (ts : List Flt) : Nat :=
  match (blocksOf 32 ts.length ts).map fun b => toF32 (b.foldl fltAdd (.num false 0 0)) with
  | [] => 0
  | r :: t => t.foldl addF32 r

/-- Clamp to [lo, hi]; a NaN stays a NaN. -/
def clampF32 (lo hi v : Nat) : Nat := minmaxF32 false (minmaxF32 true v lo) hi

def geluErf (v : Nat) : Nat := mulF32 v (phiF32 v)
def siluF32 (v : Nat) : Nat := divF32 v (addF32 oneF32 (expF32 (negF32 v)))

/-- GELU in tanh form, each operation rounded in the order written (Table 11.2). -/
def geluTanh (v : Nat) : Nat :=
  let cube := mulF32 (mulF32 v v) v
  let inner := mulF32 0x3F4C422A (addF32 v (mulF32 0x3D372713 cube))
  mulF32 (mulF32 0x3F000000 v) (addF32 oneF32 (tanhF32 inner))

/-- ACT of REDUCE_TAIL. -/
def actFn (act lo hi v : Nat) : Nat :=
  match act with
  | 0 => v
  | 1 => minmaxF32 true 0 v
  | 2 => geluErf v
  | 3 => siluF32 v
  | _ => clampF32 lo hi v

/-- Round a number to an integer by ROUND and saturate to INT8; a NaN gives 0 (Table 11.2, QUANT). -/
def toInt8 (mode r : Nat) (x : Flt) : Nat :=
  match x with
  | .nan => 0
  | .inf neg => if neg then 0x80 else 0x7F
  | .num neg m e =>
    let (k, n, d) := quanta m e 0
    let up := match mode with
      | 0 => decide (d < 2 * n) || (decide (2 * n = d) && k % 2 == 1)
      | 1 => false
      | _ => decide (r < n * 2 ^ 32 / d)
    let k1 := if up then k + 1 else k
    saturate 0x10 (if neg then -(k1 : Int) else (k1 : Int))

/-! ### Parameter areas (R233, Table 11.2) -/

/-- Read numbers of given sizes, each at the next offset that is a multiple of its size; the end offset comes too. -/
def readParams (b : List Byte) : List Nat → Nat → List Nat × Nat
  | [], o => ([], o)
  | n :: t, o =>
    let o1 := (o + n - 1) / n * n
    let (vs, e) := readParams b t (o1 + n)
    (slotNum b o1 n :: vs, e)

/-- Parameter sizes by type. -/
def paramSizes (typ : Nat) : List Nat :=
  match typ with
  | 0x10 => [8, 8, 8, 4, 4, 4, 4, 1, 1, 1, 1]
  | 0x11 => [8, 8, 4, 4, 1, 1, 1]
  | 0x12 => [8, 8, 4, 4, 1, 1, 1]
  | 0x13 => [8, 8, 8, 8, 8, 4, 4, 2, 1, 1, 1, 1]
  | 0x14 => [8, 8, 8, 4, 4, 4, 1, 1, 1]
  | 0x15 => [8, 8, 8, 8, 4, 2, 2, 2, 1, 1, 1, 1, 1]
  | 0x16 => [8, 8, 8, 8, 4, 2, 1, 1, 1]
  | 0x17 => [8, 8, 8, 4, 4, 4, 1, 1, 1]
  | 0x18 => [8, 8, 8, 4, 4, 4, 1, 1, 1]
  | 0x19 => [8, 8, 8, 4, 4, 4, 4, 1, 1, 1, 1]
  | 0x1A => [8, 8, 4, 4, 4, 4, 1, 1]
  | _ => []

/-- The parameters of an operator's area. -/
def params (typ : Nat) (b : List Byte) : List Nat := (readParams b (paramSizes typ) 0).1
def pv (v : List Nat) (i : Nat) : Nat := v.getD i 0

/-- Bytes after the last parameter are zero (R11, R233). -/
def paramRest (typ : Nat) (b : List Byte) : Bool := zeroFrom b (readParams b (paramSizes typ) 0).2

def plainFloat (f : Nat) : Bool := decide (f ≤ 4)
/-- Elements come in whole MX blocks. -/
def mxWhole (fs : List Nat) (n : Nat) : Bool := !(fs.any isMx) || n % 32 == 0
/-- A finite FP32 value at or above 0, for EPS. -/
def nonNeg (w : Nat) : Bool := !f32Nan w && (decide (w < 2 ^ 31) || w == 2 ^ 31)
def isPerm4 (p : Nat) : Bool :=
  let xs := (List.range 4).map fun j => p / 4 ^ j % 4
  (List.range 4).all fun i => xs.contains i

/-- Elements of a KV page of a format. -/
def pageElems (fmt bytes : Nat) : Nat :=
  if isMx fmt then bytes / (4 * elemBits fmt + 1) * 32 else bytes * 8 / max 1 (elemBits fmt)

/-- The formats QUANT and DEQUANT may name on the narrow side. -/
def narrowFmt (f : Nat) : Bool := f == 3 || f == 4 || isMx f || f == 0x10
/-- And on the wide side. -/
def wideFmt (f : Nat) : Bool := decide (f ≤ 2)

/-- The group of formats a matrix operand belongs to (R236). -/
def matGroup (f : Nat) : Nat := if f = 1 ∨ f = 2 then 1 else if f = 3 ∨ f = 4 then 2 else if isMx f then 3 else 0

/-- The limits of Table 11.2 and R236 on an operator's parameters; `cores` is the node's CORES. -/
def paramOk (typ cores : Nat) (v : List Nat) : Bool :=
  let f := fun i => pv v i
  match typ with
  | 0x10 => decide (1 ≤ f 3) && decide (f 3 ≤ 2 ^ 24) && plainFloat (f 7) && isFloat (f 8) && decide (f 9 ≤ 4)
      && decide (f 10 < 3) && mxWhole [f 8] (f 3)
  | 0x11 => decide (1 ≤ f 2) && wideFmt (f 4) && narrowFmt (f 5) && decide (f 6 < 3) && mxWhole [f 5] (f 2)
  | 0x12 => decide (1 ≤ f 2) && narrowFmt (f 4) && wideFmt (f 5) && decide (f 6 < 3) && mxWhole [f 4] (f 2)
  | 0x13 => decide (1 ≤ f 7) && decide (f 7 ≤ 4096) && decide (1 ≤ f 6) && decide (f 6 ≤ 2 ^ 20) && isFloat (f 8)
      && isFloat (f 9) && decide (f 10 < 3) && decide (f 11 < 3) && mxWhole [f 8, f 9] (f 7)
  | 0x14 => decide (1 ≤ f 3) && decide (f 3 ≤ 65536) && decide (64 ≤ f 4) && decide (f 4 ≤ 65536) && f 4 % 64 == 0
      && fmtKnown (f 6) && fmtKnown (f 7) && decide (f 8 < 3)
      && (f 6 == f 7 || (narrowFmt (f 6) && wideFmt (f 7) && decide (streamBytes (f 7) (pageElems (f 6) (f 4)) ≤ 65536)))
  | 0x15 => decide (f 0 < 2 ^ 48) && decide (f 3 < 2 ^ 48) && decide (1 ≤ f 4) && decide (f 4 ≤ 65536) && f 5 % 32 == 0
      && decide (32 ≤ f 5) && decide (f 5 ≤ 8192) && f 6 % (32 * max 1 cores) == 0 && decide (1 ≤ f 6) && decide (f 6 ≤ 8192)
      && matGroup (f 8) != 0 && matGroup (f 8) == matGroup (f 9) && isFloat (f 10) && decide (f 11 < 3) && decide (f 12 < 3)
  | 0x16 => decide (1 ≤ f 4) && decide (f 4 ≤ 2 ^ 20) && decide (2 ≤ f 5) && decide (f 5 ≤ 1024) && decide (1 ≤ f 6)
      && decide (f 6 ≤ 8) && decide (f 6 ≤ f 5) && decide (f 7 < 2) && isFloat (f 8) && mxWhole [f 8] (f 5)
  | 0x17 => decide (1 ≤ f 4) && decide (f 4 ≤ 65536) && isFloat (f 6) && isFloat (f 7) && decide (f 8 < 3)
      && mxWhole [f 6, f 7] (f 4)
  | 0x18 => decide (1 ≤ f 4) && decide (f 4 ≤ 65536) && nonNeg (f 5) && isFloat (f 6) && isFloat (f 7) && decide (f 8 < 3)
      && mxWhole [f 6, f 7] (f 4)
  | 0x19 => decide (1 ≤ f 3) && decide (f 3 ≤ 2 ^ 24) && decide (f 7 < 6) && isFloat (f 8) && isFloat (f 9) && decide (f 10 < 3)
      && (if f 7 = 3 ∨ f 7 = 4 then true else f 1 == 0) && (f 4 == 0 || f 3 % f 4 == 0)
      && mxWhole [f 8, f 9] (f 3) && mxWhole [f 8] (f 4)
  | 0x1A => isPerm4 (f 6) && [1, 2, 4, 8].contains (f 7) && decide (f 2 * f 3 * f 4 * f 5 ≤ 2 ^ 28)
      && decide (1 ≤ f 2 * f 3 * f 4 * f 5)
  | _ => false

/-- The address ranges an operator's parameters name, as address and bytes; what the data itself decides is left to the
target (R151). GATHER_MATMUL's shards and outputs lie in other contexts' pages and are not listed. -/
def paramRanges (typ : Nat) (v : List Nat) : List (Nat × Nat) :=
  let f := fun i => pv v i
  (match typ with
    | 0x10 => [(f 0, streamBytes (f 7) (f 3)), (f 1, streamBytes (f 8) (f 3)), (f 2, 4 * f 3)]
    | 0x11 => [(f 0, streamBytes (f 4) (f 2)), (f 1, streamBytes (f 5) (f 2))]
    | 0x12 => [(f 0, streamBytes (f 4) (f 2)), (f 1, streamBytes (f 5) (f 2))]
    | 0x13 => [(f 0, f 5 * streamBytes (f 8) (f 7)), (f 2, 4 * (f 6 + 1)), (f 4, f 6 * streamBytes (f 9) (f 7))]
    | 0x14 => [(f 1, 4 * f 3), (f 2, f 3 * streamBytes (f 7) (pageElems (f 6) (f 4)))]
    | 0x15 => [(f 1, f 6 * streamBytes (f 9) (f 5)), (f 2, 4 * f 6)]
    | 0x16 => [(f 0, f 4 * streamBytes (f 8) (f 5)), (f 1, 2 * f 4 * f 6), (f 2, 4 * f 4 * f 6), (f 3, 2 * f 5)]
    | 0x17 => [(f 0, f 3 * streamBytes (f 6) (f 4)), (f 1, f 3 * streamBytes (f 7) (f 4)), (f 2, (f 3 * f 4 + 7) / 8)]
    | 0x18 => [(f 0, f 3 * streamBytes (f 6) (f 4)), (f 1, f 3 * streamBytes (f 7) (f 4)), (f 2, 4 * f 4)]
    | 0x19 => [(f 0, streamBytes (f 8) (f 3)), (f 1, streamBytes (f 8) (if f 4 = 0 then f 3 else f 4)),
        (f 2, streamBytes (f 9) (f 3))]
    | 0x1A => let n := f 2 * f 3 * f 4 * f 5 * f 7; [(f 0, n), (f 1, n)]
    | _ => []).filter fun x => x.1 != 0 && x.2 != 0

/-! ### Operators (R229 to R235) -/

/-- What a step leaves: its writes, its status, and rows or pages completed with the count of bad indices. -/
structure StepOut where
  writes : List (Nat × List Byte)
  status : Nat
  extent : Nat
  aux : Nat
deriving DecidableEq, Repr

/-- Reading for a step: bytes, a failed read's status, or `none` where the answer from elsewhere has not come. -/
abbrev Rd := Nat → Nat → Except (Option Nat) (List Byte)

/-- An array that may be absent. -/
def rdOpt (rd : Rd) (a n : Nat) : Except (Option Nat) (List Byte) := if a = 0 then .ok [] else rd a n

/-- Rows of an array of `rows` × `l` values. -/
def rowVals (fmt l : Nat) (rows : Nat) (bs : List Byte) : List (List Nat) :=
  let w := streamBytes fmt l
  (List.range rows).map fun r => decodeStream fmt l ((bs.drop (r * w)).take w)

/-- A row converted to its output format. -/
def outRow (fmt mode : Nat) (rnd : Nat → Nat → Nat) (row : Nat) (xs : List Nat) : List Byte :=
  convertStream fmt mode false (rnd row) (xs.map ofF32)

def u32s (bs : List Byte) (n : Nat) : List Nat := elems 0x12 n bs
def u16s (bs : List Byte) (n : Nat) : List Nat := elems 0x11 n bs

/-- REDUCE_TAIL. -/
def opReduceTail (v : List Nat) (rd : Rd) (rnd : Nat → Nat → Nat) : Except (Option Nat) StepOut := do
  let f := fun i => pv v i
  let n := f 3
  let xs ← rd (f 0) (streamBytes (f 7) n)
  let bs ← rdOpt rd (f 2) (4 * n)
  let bias := u32s bs n
  let x := decodeStream (f 7) n xs
  let y := (x.zip (List.range n)).map fun q =>
    actFn (f 9) (f 5) (f 6) (addF32 (mulF32 q.1 (f 4)) (if f 2 = 0 then 0 else toF32 (ofF32 (bias.getD q.2 0))))
  return ⟨[(f 1, outRow (f 8) (f 10) rnd 0 y)], ST_OK, 1, 0⟩

/-- QUANT. -/
def opQuant (v : List Nat) (rd : Rd) (rnd : Nat → Nat → Nat) : Except (Option Nat) StepOut := do
  let f := fun i => pv v i
  let xs ← rd (f 0) (streamBytes (f 4) (f 2))
  let x := decodeStream (f 4) (f 2) xs
  let out := if f 5 = 0x10 then
      (x.zip (List.range x.length)).map fun q => BitVec.ofNat 8 (toInt8 (f 6) (rnd 0 q.2) (ofF32 (mulF32 q.1 (f 3))))
    else outRow (f 5) (f 6) rnd 0 x
  return ⟨[(f 1, out)], ST_OK, 1, 0⟩

/-- The values of DEQUANT: INT8 times SCALE, other formats decoded. -/
def dequantVals (fmt n scale : Nat) (bs : List Byte) : List Nat :=
  if fmt = 0x10 then
    (elems 0x10 n bs).map fun x =>
      let i := intVal 0x10 x
      mulF32 (toF32 (.num (decide (i < 0)) i.natAbs 0)) scale
  else decodeStream fmt n bs

/-- DEQUANT. -/
def opDequant (v : List Nat) (rd : Rd) (rnd : Nat → Nat → Nat) : Except (Option Nat) StepOut := do
  let f := fun i => pv v i
  let xs ← rd (f 0) (streamBytes (f 4) (f 2))
  return ⟨[(f 1, outRow (f 5) (f 6) rnd 0 (dequantVals (f 4) (f 2) (f 3) xs))], ST_OK, 1, 0⟩

/-- One bag of EMBED_BAG from its weighted rows. -/
def bagRow (mode dim : Nat) (rows : List (Nat × List Nat)) : List Nat :=
  (List.range dim).map fun i =>
    if mode = 2 then
      match rows.map fun r => r.2.getD i 0 with
      | [] => 0
      | x :: t => t.foldl (minmaxF32 true) x
    else
      let sum := blockSum (rows.map fun r => ofF32 (mulF32 r.1 (r.2.getD i 0)))
      if mode = 0 ∨ rows.isEmpty then sum else divF32 sum (natF32 rows.length)

/-- Read what one bag of EMBED_BAG needs: its indices from `lo` up, its weights and rows; none for a bag with an index out of
range, and how many there were. -/
def readBag (v : List Nat) (rd : Rd) (lo n : Nat) : Except (Option Nat) (Option (List (Nat × List Nat)) × Nat) := do
  let f := fun i => pv v i
  let ib ← rd (f 1 + 4 * lo) (4 * n)
  let ix := u32s ib n
  let bad := (ix.filter fun i => decide (f 5 ≤ i)).length
  if bad ≠ 0 then return (none, bad)
  else
    let wb ← rdOpt rd (if f 3 = 0 then 0 else f 3 + 4 * lo) (4 * n)
    let ws := if f 3 = 0 then ix.map fun _ => oneF32 else u32s wb n
    let w := streamBytes (f 8) (f 7)
    let rows ← ix.mapM fun i => rd (f 0 + i * w) w
    return (some (ws.zip (rows.map (decodeStream (f 8) (f 7)))), 0)

/-- EMBED_BAG. -/
def opEmbedBag (v : List Nat) (rd : Rd) (rnd : Nat → Nat → Nat) : Except (Option Nat) StepOut := do
  let f := fun i => pv v i
  let ob ← rd (f 2) (4 * (f 6 + 1))
  let offs := u32s ob (f 6 + 1)
  let bags ← (List.range (f 6)).mapM fun b => readBag v rd (offs.getD b 0) (offs.getD (b + 1) 0 - offs.getD b 0)
  let rows := (bags.zip (List.range (f 6))).map fun q =>
    match q.1.1 with
    | none => List.replicate (streamBytes (f 9) (f 7)) 0xFF#8
    | some rs => outRow (f 9) (f 11) rnd q.2 (bagRow (f 10) (f 7) rs)
  let bad : Nat := (bags.map (·.2)).sum
  return ⟨[(f 4, rows.flatten)], if bad = 0 then ST_OK else ST_INDEX_RANGE, f 6, bad⟩

/-- KV_GATHER. -/
def opKvGather (v : List Nat) (rd : Rd) (rnd : Nat → Nat → Nat) : Except (Option Nat) StepOut := do
  let f := fun i => pv v i
  let n := pageElems (f 6) (f 4)
  let same := f 6 == f 7
  let outBytes := if same then f 4 else streamBytes (f 7) n
  let ib ← rd (f 1) (4 * f 3)
  let pages ← ((u32s ib (f 3)).zip (List.range (f 3))).mapM fun (q : Nat × Nat) =>
    if q.1 = 0xFFFFFFFF then Except.ok (List.replicate outBytes 0#8, 0)
    else if f 5 ≤ q.1 then Except.ok (List.replicate outBytes 0xFF#8, 1)
    else do
      let b ← rd (f 0 + q.1 * f 4) (f 4)
      return (if same then b else outRow (f 7) (f 8) rnd q.2 (dequantVals (f 6) n oneF32 b), 0)
  let bad : Nat := (pages.map (·.2)).sum
  return ⟨[(f 2, (pages.map (·.1)).flatten)], if bad = 0 then ST_OK else ST_INDEX_RANGE, f 3, bad⟩

/-- Order of selection: higher logit first, lower expert first (R235); values are compared in the order of R169. -/
def pickBest (xs : List (Nat × Nat)) : Option (Nat × Nat) :=
  match xs with
  | [] => none
  | x :: t => some (t.foldl (fun a b => if f32Key a.1 < f32Key b.1 then b else a) x)

/-- The K experts chosen, as logit and expert. -/
def pickK : Nat → List (Nat × Nat) → List (Nat × Nat)
  | 0, _ => []
  | k + 1, xs => match pickBest xs with
    | some b => b :: pickK k (xs.filter fun q => q.2 != b.2)
    | none => []

/-- The weights of the chosen experts (R235). -/
def gateWeights (norm : Nat) (all sel : List (Nat × Nat)) : List Nat :=
  if sel.all fun q => q.1 == 0xFF800000 then sel.map fun _ => divF32 oneF32 (natF32 sel.length)
  else
    let m := (sel.head?.map (·.1)).getD 0
    let e := fun (x : Nat) => expF32 (subF32 x m)
    let s := if norm = 0 then
        match sel.map fun q => e q.1 with
        | [] => 0
        | x :: t => t.foldl addF32 x
      else blockSum (all.map fun q => ofF32 (e q.1))
    sel.map fun q => divF32 (e q.1) s

/-- TOPK_GATE (R235). -/
def opTopkGate (v : List Nat) (rd : Rd) : Except (Option Nat) StepOut := do
  let f := fun i => pv v i
  let lb ← rd (f 0) (f 4 * streamBytes (f 8) (f 5))
  let mb ← rdOpt rd (f 3) (2 * f 5)
  let map := u16s mb (f 5)
  let rows := (rowVals (f 8) (f 5) (f 4) lb).map fun xs =>
    let all := (xs.zip (List.range xs.length)).filter fun q => !f32Nan q.1
    let sel := pickK (f 6) all
    let ws := gateWeights (f 7) all sel
    let route := sel.map fun q => if f 3 = 0 then q.2 else map.getD q.2 0
    let pad := f 6 - sel.length
    (route ++ List.replicate pad 0xFFFF, ws ++ List.replicate pad 0)
  return ⟨[(f 1, rows.flatMap fun r => r.1.flatMap (leBytes 2)), (f 2, rows.flatMap fun r => r.2.flatMap (leBytes 4))],
    ST_OK, f 4, 0⟩

/-- One row of SOFTMAX; `inc` says which elements are included. -/
def softmaxRow (scale : Nat) (xs : List Nat) (inc : List Bool) : List Nat :=
  let z := xs.map fun x => mulF32 x scale
  let used := (z.zip inc).filterMap fun q => if q.2 then some q.1 else none
  if used.any f32Nan then xs.map fun _ => canonNan
  else
    match used with
    | [] => xs.map fun _ => 0
    | x :: t =>
      let m := t.foldl (minmaxF32 true) x
      let s := blockSum (used.map fun y => ofF32 (expF32 (subF32 y m)))
      (z.zip inc).map fun q => if q.2 then divF32 (expF32 (subF32 q.1 m)) s else 0

/-- SOFTMAX. -/
def opSoftmax (v : List Nat) (rd : Rd) (rnd : Nat → Nat → Nat) : Except (Option Nat) StepOut := do
  let f := fun i => pv v i
  let l := f 4
  let xb ← rd (f 0) (f 3 * streamBytes (f 6) l)
  let mb ← rdOpt rd (f 2) ((f 3 * l + 7) / 8)
  let rows := ((rowVals (f 6) l (f 3) xb).zip (List.range (f 3))).map fun q =>
    let inc := (List.range l).map fun i =>
      f 2 == 0 || (let k := q.2 * l + i; ((mb.getD (k / 8) 0).toNat).testBit (k % 8))
    outRow (f 7) (f 8) rnd q.2 (softmaxRow (f 5) q.1 inc)
  return ⟨[(f 1, rows.flatten)], ST_OK, f 3, 0⟩

/-- RMSNORM. -/
def opRmsnorm (v : List Nat) (rd : Rd) (rnd : Nat → Nat → Nat) : Except (Option Nat) StepOut := do
  let f := fun i => pv v i
  let l := f 4
  let xb ← rd (f 0) (f 3 * streamBytes (f 6) l)
  let gb ← rdOpt rd (f 2) (4 * l)
  let g := if f 2 = 0 then List.replicate l oneF32 else u32s gb l
  let rows := ((rowVals (f 6) l (f 3) xb).zip (List.range (f 3))).map fun q =>
    let ss := blockSum (q.1.map fun x => fltMul (ofF32 x) (ofF32 x))
    let r := rsqrtF32 (addF32 (divF32 ss (natF32 l)) (f 5))
    outRow (f 7) (f 8) rnd q.2 ((q.1.zip g).map fun p => mulF32 (mulF32 p.1 r) p.2)
  return ⟨[(f 1, rows.flatten)], ST_OK, f 3, 0⟩

/-- ELEMWISE. -/
def opElemwise (v : List Nat) (rd : Rd) (rnd : Nat → Nat → Nat) : Except (Option Nat) StepOut := do
  let f := fun i => pv v i
  let n := f 3
  let m := if f 4 = 0 then n else f 4
  let xb ← rd (f 0) (streamBytes (f 8) n)
  let yb ← if f 7 = 3 ∨ f 7 = 4 then rd (f 1) (streamBytes (f 8) m) else Except.ok []
  let ys := decodeStream (f 8) m yb
  let xs := decodeStream (f 8) n xb
  let out := (xs.zip (List.range n)).map fun q =>
    let y := ys.getD (q.2 % m) 0
    match f 7 with
    | 0 => geluErf q.1
    | 1 => geluTanh q.1
    | 2 => siluF32 q.1
    | 3 => addF32 q.1 y
    | 4 => mulF32 q.1 y
    | _ => clampF32 (f 5) (f 6) q.1
  return ⟨[(f 2, outRow (f 9) (f 10) rnd 0 out)], ST_OK, 1, 0⟩

/-- TRANSPOSE_SHUFFLE: output axis j is input axis PERM[2j+1:2j]. -/
def opTranspose (v : List Nat) (rd : Rd) : Except (Option Nat) StepOut := do
  let f := fun i => pv v i
  let d := [f 2, f 3, f 4, f 5]
  let stride := [1, f 2, f 2 * f 3, f 2 * f 3 * f 4]
  let n := f 2 * f 3 * f 4 * f 5
  let xb ← rd (f 0) (n * f 7)
  let ax := (List.range 4).map fun j => f 6 / 4 ^ j % 4
  let e := ax.map fun a => d.getD a 1
  let out := (List.range n).flatMap fun o =>
    let o0 := o % e.getD 0 1
    let o1 := o / e.getD 0 1 % e.getD 1 1
    let o2 := o / (e.getD 0 1 * e.getD 1 1) % e.getD 2 1
    let o3 := o / (e.getD 0 1 * e.getD 1 1 * e.getD 2 1)
    let i := ([o0, o1, o2, o3].zip ax).foldl (fun s q => s + q.1 * stride.getD q.2 0) 0
    (xb.drop (i * f 7)).take (f 7)
  return ⟨[(f 1, out)], ST_OK, 1, 0⟩

/-- The columns of W (R236). -/
def matCols (v : List Nat) (w : List Byte) : List (List Nat) :=
  let k := pv v 5
  let n := pv v 6
  if isMx (pv v 9) then rowVals (pv v 9) k n w
  else
    let all := decodeStream (pv v 9) (k * n) w
    (List.range n).map fun j => (List.range k).map fun i => all.getD (i * n + j) 0

/-- One member's product of GATHER_MATMUL in its output format, row by row (R236). -/
def matmulRows (v : List Nat) (a : List Byte) (cols : List (List Nat)) (bias : List Byte) (rnd : Nat → Nat → Nat) : List Byte :=
  let f := fun i => pv v i
  let m := f 4
  let k := f 5
  let n := f 6
  let b := u32s bias n
  (((rowVals (f 8) k m a).zip (List.range m)).map fun q =>
    outRow (f 10) (f 11) rnd q.2 ((cols.zip (List.range n)).map fun c =>
      let y := blockSum ((q.1.zip c.1).map fun t => fltMul (ofF32 t.1) (ofF32 t.2))
      if f 2 = 0 then y else addF32 y (toF32 (ofF32 (b.getD c.2 0))))).flatten

/-- An operator other than COLL and GATHER_MATMUL. -/
def runOperator (typ : Nat) (v : List Nat) (rd : Rd) (rnd : Nat → Nat → Nat) : Except (Option Nat) StepOut :=
  match typ with
  | 0x10 => opReduceTail v rd rnd
  | 0x11 => opQuant v rd rnd
  | 0x12 => opDequant v rd rnd
  | 0x13 => opEmbedBag v rd rnd
  | 0x14 => opKvGather v rd rnd
  | 0x16 => opTopkGate v rd
  | 0x17 => opSoftmax v rd rnd
  | 0x18 => opRmsnorm v rd rnd
  | 0x19 => opElemwise v rd rnd
  | 0x1A => opTranspose v rd
  | _ => .ok ⟨[], ST_OK, 0, 0⟩

/-! ### A collective that a node drives (R243) -/

/-- The result of one chunk over all members: a member's stream of `n` elements each, in rank order. -/
def reduceChunk (d : List Byte) (chunk n : Nat) (ins : List (List Byte)) : List Byte :=
  let rnd := fun i => randWord (dSeed d) chunk (dNum d) 0 i
  if dFixed d then
    let xs := ins.map (decodeStream (dIn d) n)
    let codes := match xs.map blockCodes with
      | [] => []
      | c :: t => t.foldl (fun a b => (a.zip b).map fun q => max q.1 q.2) c
    let sum := match xs.map fun x => (fixStream codes x).1 with
      | [] => []
      | a :: t => t.foldl fixAdd a
    convertStream (dOut d) (dRound d) (dNanOvf d) rnd (unfixStream codes sum).1
  else
    match ins.map (liftStream (dOp d) (dIn d) n) with
    | [] => []
    | a :: t =>
      let sum := t.foldl (fun x y => (x.zip y).map fun q => combine (dOp d) (dIn d) q.1 q.2) a
      resultStream (dOp d) (dIn d) (dOut d) (dRound d) (dNanOvf d) rnd sum

/-- Elements `o` up to `o + n` of a member's stream of `total` elements. -/
def cutStream (code total o n : Nat) (bs : List Byte) : List Byte :=
  let w := elemBits code
  if isMx code then (bs.drop (o * w / 8)).take (n * w / 8) ++ ((bs.drop (total * w / 8)).drop (o / 32)).take (n / 32)
  else (bs.drop (o * w / 8)).take (n * w / 8)

/-- What each rank's DST receives from a collective whose inputs of `count` elements are all at one node (Table 9.2): rank and
bytes, in the order of chunks. -/
def drivenResult (d : List Byte) (count : Nat) (ins : List (List Byte)) : List (List Byte) :=
  let p := ins.length
  let n := dChunk d
  let chunksOf := fun (lo len : Nat) => (List.range ((len + n - 1) / n)).map fun k => (lo + k * n, min n (len - k * n))
  match dKind d with
  | 4 => ins.map fun _ => ins.flatten
  | 5 => ins.map fun _ => ins.getD (dRoot d) []
  | 6 => (List.range p).map fun r => (ins.map fun x => cutStream (dIn d) count (r * (count / max 1 p)) (count / max 1 p) x).flatten
  | k =>
    let spans := if k = 3 then (List.range p).flatMap fun r => chunksOf (r * (count / max 1 p)) (count / max 1 p)
      else chunksOf 0 count
    let res := (spans.zip (List.range spans.length)).map fun q =>
      (q.1.1, reduceChunk d q.2 q.1.2 (ins.map (cutStream (dIn d) count q.1.1 q.1.2)))
    if k = 3 then (List.range p).map fun r =>
      (res.filter fun q => q.1 / max 1 (count / max 1 p) == r).flatMap (·.2)
    else if k = 2 then (List.range p).map fun r => if r = dRoot d then res.flatMap (·.2) else []
    else ins.map fun _ => res.flatMap (·.2)

end Sys2Proof.Machine
end

