-- ==== Sys2Proof/Machine/Security.lean ====
section
/-! DEFINITION. Sys2Proof/Machine/Security.lean: measurement, attestation, slice keys, sealing, and the SEAL sets of links
(R283 to R307).
(log entries of this file: DEDUCED 60) -/

namespace Sys2Proof.Machine

/-! ### Measurement (R291) -/

def digestBytes (d : BitVec 256) : List Byte := leBytes 32 d.toNat

/-- A chain extended with one measurement. -/
def extendChain (m : BitVec 256) (kind : Nat) (d : BitVec 256) : BitVec 256 :=
  Config.shake256 (digestBytes m ++ leBytes 1 kind ++ digestBytes d)

def State.logMeasure (s : State) (kind : Nat) (d : BitVec 256) : State :=
  { s with sec := { s.sec with log := s.sec.log ++ [(kind, d, s.ftu.toNat)] } }

def State.modSec (s : State) (f : SecSt → SecSt) : State := { s with sec := f s.sec }

def State.measureBoot (s : State) (kind : Nat) (d : BitVec 256) : State :=
  (s.modSec fun x => { x with boot := extendChain x.boot kind d }).logMeasure kind d
def State.measureKernel (s : State) (d : BitVec 256) : State :=
  (s.modSec fun x => { x with kernel := extendChain x.kernel 3 d }).logMeasure 3 d
def State.measureSteward (s : State) (d : BitVec 256) : State :=
  (s.modSec fun x => { x with steward := extendChain x.steward 4 d }).logMeasure 4 d

/-- The chain of a slice: zero at the slice's creation. -/
def State.sliceChain (s : State) (slice : Nat) : BitVec 256 := Store.get (fun _ => 0#256) s.sec.chains slice

/-- Extend a slice's chain: the seal policy (5) or a bouquet (6). -/
def State.measureSlice (s : State) (slice kind : Nat) (d : BitVec 256) : State :=
  (s.modSec fun x => { x with chains := Store.set (fun _ => 0#256) x.chains slice (extendChain (s.sliceChain slice) kind d) }).logMeasure
    kind d

/-- MEASURE_READ (Table 16.5): the entries of the log from `first` on, 48 bytes each. -/
def execMeasureRead (r : FwRef) (first : Fin 65536) (s : State) : Out :=
  act s fun s =>
    if s.sec.log.length < first.val then s.finishFw r ACK_BAD_ARGUMENT 0
    else
      let l := s.sec.log.drop first.val
      s.finishFw r ACK_OK l.length (l.flatMap fun e =>
        leBytes 1 e.1 ++ List.replicate 7 0 ++ digestBytes e.2.1 ++ leBytes 8 e.2.2)

/-! ### Keys (R284, R293 to R296) -/

/-- KDF of R284: 256 bits unless another length is stated. -/
def kdf (k : List Byte) (label : String) (x : List Byte) (bits : Nat := 256) : List Byte := Config.kmac256 k x bits label

/-- Chip ‖ slice, as a context string. -/
def State.chipSlice (s : State) (slice : Nat) : List Byte := leBytes 2 s.chip ++ leBytes 2 slice

def State.secSlice (s : State) (slice : Nat) : Option SecSlice := s.sec.slices.find? fun x => x.num == slice

/-- The tag of a tenant command's block, without its last 32 bytes, under K_cmd (R296). -/
def State.tenantTag (s : State) (slice : Nat) (label : String) (block : List Byte) : Option (List Byte) :=
  (s.secSlice slice).map fun x => kdf (kdf x.tk "CMD" (s.chipSlice slice)) label block

/-- The tag of a bouquet of a sealed slice over the signed message (R288, R296). -/
def State.bouquetTag (s : State) (slice : Nat) (covered : List Byte) : Option (List Byte) :=
  (s.secSlice slice).map fun x =>
    kdf (kdf x.srk "BOUQ" []) "BOUQUET" ("EVZ-BOUQUET".toList.map (fun c => BitVec.ofNat 8 c.toNat) ++
      digestBytes (Config.shake256 covered))

/-! ### Attestation (R287, R292) -/

/-- Fit bytes to a length. -/
def fitBytes (n : Nat) (l : List Byte) : List Byte := (l ++ List.replicate (n - l.length) 0).take n

/-- SLICE_STATE of a report. -/
def State.sliceStateByte (s : State) (slice : Nat) : Nat :=
  s.fld F.SEC_SLICE_STATUS_STATE slice + 128 * bit (s.flag F.SEC_SLICE_STATUS_STRICT slice)

/-- The slice has a context or a key on this chip. -/
def State.sliceHere (s : State) (slice : Nat) : Bool :=
  (s.secSlice slice).isSome || s.contexts.any fun c => s.ctxSlice c == slice

/-- Report bytes 0 to 1,919 (Table 14.3). -/
def State.reportBody (s : State) (slice : Nat) (nonce : List Byte) (key : Nat) : List Byte :=
  leBytes 4 0x54525441 ++ [1] ++ leBytes 1 Config.variant.val ++ leBytes 2 s.chip ++ leBytes 8 (s.reg .SEC_DEVICE_ID).toNat
  ++ fitBytes 32 nonce ++ leBytes 8 s.ftu.toNat
  ++ leBytes 1 (bit (s.flag F.SEC_STATUS_DEBUG_EN) + 2 * bit (!s.flag F.SEC_STATUS_TEST_WINDOW_CLOSED) + 4 * bit s.forwardOnly)
  ++ List.replicate 7 0 ++ digestBytes s.sec.boot ++ digestBytes s.sec.kernel ++ digestBytes s.sec.steward
  ++ digestBytes (if s.sliceHere slice then s.sliceChain slice else 0)
  ++ leBytes 2 slice ++ leBytes 1 (s.sliceStateByte slice) ++ [0] ++ leBytes 4 s.cocoon.mapSeq.toNat
  ++ digestBytes s.cocoon.mapDigest ++ digestBytes (((s.secSlice slice).map (·.policy)).getD 0)
  ++ List.replicate 56 0 ++ fitBytes 1568 (Config.kemPublic key) ++ List.replicate 32 0

/-- A signature block header (Table 14.1). -/
def sigHeader (kind len : Nat) (signer : BitVec 256) (domain : String) : List Byte :=
  leBytes 1 kind ++ [0, 0, 0] ++ leBytes 4 len ++ digestBytes signer
  ++ fitBytes 16 (domain.toList.map fun c => BitVec.ofNat 8 c.toNat) ++ List.replicate 8 0

/-- RESERVED_TO in Cocoon. -/
def State.setCocoonReserved (s : State) (n : Nat) : State := { s with cocoon := { s.cocoon with reservedTo := n } }

/-- The next signature index, with RESERVED_TO moved on in Cocoon where it is reached (R287). -/
def State.takeIndex (s : State) : Nat × State :=
  let i := s.fld F.SEC_XMSS_INDEX_NEXT_INDEX
  let s1 := if s.fld F.SEC_XMSS_RESERVED_RESERVED_TO ≤ i then
      let n := s.fld F.SEC_XMSS_RESERVED_RESERVED_TO + 1024
      (s.setFld F.SEC_XMSS_RESERVED_RESERVED_TO 0 n).setCocoonReserved n
    else s
  let s2 := s1.setFld F.SEC_XMSS_INDEX_NEXT_INDEX 0 (i + 1)
  (i, if i + 1 = 2 ^ 40 then s2.setFld F.SEC_STATUS_XMSS_EXHAUSTED 0 1 else s2)

/-- ATTEST (R292): a signed report with a fresh KEM key; an earlier key of the slice is destroyed. Which key the random bit
generator draws is a free value. -/
def execAttest (r : FwRef) (slice : Slice) (nonce : List Byte) (s : State) : Out :=
  act s fun s =>
    if nonce.length ≠ 32 then s.finishFw r ACK_BAD_ARGUMENT 0
    else if s.flag F.SEC_STATUS_XMSS_EXHAUSTED ∨ 2 ^ 40 ≤ s.fld F.SEC_XMSS_INDEX_NEXT_INDEX then s.finishFw r ACK_STATE 0
    else
      let (key, s1) := s.fresh
      let body := s1.reportBody slice.val nonce key
      let (i, s2) := s1.takeIndex
      let report := body ++ sigHeader 1 9893 (Config.shake256 Config.attestKey) "EVZ-REPORT"
        ++ fitBytes 9893 (Config.xmssSign i "EVZ-REPORT" (Config.shake256 body))
      let kem : KemKey := ⟨slice.val, key, s.ftu, Config.shake256 report⟩
      (s2.modSec fun x => { x with kems := (x.kems.filter fun k => k.slice != slice.val) ++ [kem] }).finishFw r ACK_OK
        report.length report

/-- CERT_CHAIN (Table 16.5): identity, variant and firmware-signing certificates. -/
def execCertChain (r : FwRef) (s : State) : Out :=
  act s fun s =>
    let b := Config.identityCert ++ Config.variantCert ++ Config.signingCert
    s.finishFw r ACK_OK (b.length % 2 ^ 32) b

/-- KEM_KEY_EXPIRE (R292): 60 s after its report a decapsulation key is destroyed. -/
def execKemKeyExpire (slice : Slice) (s : State) : Out :=
  act s fun s => s.modSec fun x => { x with
    kems := x.kems.filter fun k => !(k.slice == slice.val && decide (60 * ppsPeriod ≤ (s.ftu - k.at').toNat)) }

/-! ### Key delivery (R294, R297 step 2, R299) -/

/-- The slice is OPEN or QUIESCED here, by the agent's entry: not on its way into a quiesce. -/
def State.openOrQuiesced (s : State) (slice : Nat) : Bool :=
  match s.sliceEntry slice with
  | some e =>
    match e.quiesceAt with
    | none => true
    | some q => (match e.resumeAt with | some b => s.reached b | none => false) || (s.reached q && s.sliceBusy slice == false)
  | none => false

/-- The member table of a policy: chip and edge port of each entry, or none where it breaks Table 11.7. -/
def policyMembers (p : List Byte) : Option (List (Nat × Nat)) :=
  let n := (p.length - 1) / 8
  if p.length = 0 ∨ (p.length - 1) % 8 ≠ 0 ∨ 1 < slotByte p 0 then none
  else
    let es := (List.range n).map fun i => (p.drop (1 + 8 * i)).take 8
    if es.all fun e => slotByte e 3 == 0 && slotNum e 6 2 == 0 && decide (slotNum e 4 2 < 16384) then
      some (es.map fun e => (slotNum e 0 2, slotByte e 2))
    else none

/-- The slice's members in rank order, by the agent's entry. -/
def State.slicePlaces (s : State) (slice : Nat) : List (Nat × Nat) :=
  (((s.sliceEntry slice).map (·.rows)).getD []).filterMap rankEntry

/-- A slice enters SEALED on this chip (R297 step 4, R306). The SPILL_NONCE drawn is a free value. -/
def State.enterSealed (s : State) (slice : Nat) : State :=
  let (v, s1) := s.fresh
  let s2 := s1.setFld F.SEC_SLICE_STATUS_STATE slice 2
  let s3 := (s2.setFld F.SEC_STATUS_TEST_WINDOW_CLOSED 0 1).bump F.SEC_STATUS_SEALED_SLICES
  let s4 := s3.modSec fun x => { x with slices := x.slices.map fun k => if k.num = slice then { k with spillNonce := v } else k }
  s4.contexts.foldl (fun t c => if t.ctxSlice c = slice then t.setFld F.QUE_CTX_STATUS_SEALED c 1 else t) s4

/-- KEY_DELIVER (R294, R297): decapsulate, unwrap, hold the policy, enter KEYED; where the slice is sealed already the chip
re-enters SEALED at once (R299). -/
def execKeyDeliver (r : FwRef) (slice : Slice) (ct iv wrapped policy : List Byte) (s : State) : Out :=
  act s fun s =>
    let n := slice.val
    let d := Config.shake256 policy
    let sealedPod := match (s.sliceEntry n).bind (·.sealAt) with | some z => s.reached z | none => false
    if ct.length ≠ 1568 ∨ iv.length ≠ 12 ∨ wrapped.length ≠ 48 then s.finishFw r ACK_BAD_ARGUMENT 0
    else
      match policyMembers policy with
      | none => s.finishFw r ACK_BAD_ARGUMENT 0
      | some ms =>
        if s.isSealed n ∨ (sealedPod = false ∧ s.openOrQuiesced n = false)
            ∨ (s.fld F.SEC_SLICE_STATUS_STATE n = 1 ∧ ((s.secSlice n).map (·.policy)) ≠ some d) then
          s.finishFw r ACK_STATE 0
        else
          match s.sec.kems.find? fun k => k.slice == n with
          | none => s.finishFw r ACK_DENIED 0
          | some k =>
            let s1 := s.modSec fun x => { x with kems := x.kems.filter fun y => y != k }
            let tk := kdf (Config.kemOpen k.key ct) "TENANT" (digestBytes k.digest)
            match Config.gcmOpen (kdf tk "WRAP" (s.chipSlice n)) iv (s.chipSlice n) wrapped with
            | none => s1.finishFw r ACK_DENIED 0
            | some srk =>
              if ms ≠ s.slicePlaces n then s1.finishFw r ACK_DENIED 0
              else
                let x : SecSlice := {
                  num := n, srk := srk, tk := tk, policy := d, strict := slotByte policy 0 == 1
                  tenantSeq := ((s.secSlice n).map (·.tenantSeq)).getD 0
                  spillNonce := 0 }
                let s2 := s1.modSec fun y => { y with slices := (y.slices.filter fun z => z.num != n) ++ [x] }
                let s3 := ((s2.measureSlice n 5 d).setFld F.SEC_SLICE_STATUS_POLICY_LOW n d.toNat).setFld
                  F.SEC_SLICE_STATUS_STRICT n (slotByte policy 0)
                let s4 := s3.setFld F.SEC_SLICE_STATUS_STATE n 1
                let s5 := if sealedPod then s4.enterSealed n else s4
                s5.finishFw r ACK_OK (s5.sliceStateByte n)

/-! ### Sealing (R297, R307) -/

/-- Tell every chip a slice's entry. -/
def State.sendSliceAll (s : State) (x : SliceRec) : State :=
  let q := match x.phase with
    | .fresh => none
    | .running => if x.resumeAt.isSome then some x.quiesceAt else none
    | _ => some x.quiesceAt
  s.sendMgmt 0xFFFF (.sliceTable ⟨Fin.ofNat 1024 x.num, rankRows x.members, q, x.resumeAt, x.sealAt, false⟩)

/-- Every chip in service reports KEYED with one POLICY_DIGEST (R297 step 3). -/
def State.allKeyed (s : State) (reports : List SealReport) : Bool :=
  match s.agents with
  | [] => false
  | a :: _ =>
    match (reports.find? fun q => q.chip.val == a).bind (·.policy) with
    | none => false
    | some d => s.agents.all fun c => (reports.find? fun q => q.chip.val == c).bind (·.policy) == some d

/-- SLICE_SEAL (R297): the checks of steps 1 and 3, then the boundary z; a second seal is refused. `tenant` says that the
command carries a tenant tag that verified. -/
def execSliceSeal (r : FwRef) (slice : Slice) (tenant : Bool) (reports : List SealReport) (s : State) : Out :=
  act s fun s => s.mgrCommand r fun s =>
    if tenant = false then s.finishFw r ACK_DENIED 0
    else
      match s.sliceRec slice.val with
      | none => s.finishFw r ACK_BAD_ARGUMENT 0
      | some x =>
        if x.isSealed ∨ x.sealAt.isSome ∨ x.compat ∨ (x.phase ≠ .fresh ∧ x.phase ≠ .running ∧ x.phase ≠ .quiesced)
            ∨ s.allKeyed reports = false ∨ (reports.any fun q => !q.linksOk) then
          s.finishFw r ACK_STATE 0
        else
          let (v, s1) := s.fresh
          let z := s1.wb + 2#48 + BitVec.ofNat 48 (v % 2 ^ 32)
          let y := { x with sealAt := some z, isSealed := true }
          ((s1.putSlice y).sendSliceAll y).finishFw r ACK_OK (z.toNat % 2 ^ 32)

/-- SEAL_BOUNDARY (R297 step 4): at z a KEYED chip enters SEALED. -/
def execSealBoundary (slice : Slice) (s : State) : Out :=
  act s fun s =>
    match (s.sliceEntry slice.val).bind (·.sealAt) with
    | some z =>
      if s.reached z ∧ s.fld F.SEC_SLICE_STATUS_STATE slice.val = 1 then s.enterSealed slice.val else s
    | none => s

/-! ### SEAL sets (R300 to R303) -/

/-- The key of one direction of a link for a slice (Table 14.4): the sending chip and port, or the edge link's side. -/
def State.linkKey (s : State) (x : SecSlice) (l : Nat) (incoming : Bool) : List Byte :=
  if s.linkMode l = PM_EDGE then
    kdf x.srk "EDGE" (leBytes 2 s.chip ++ leBytes 2 l ++ leBytes 1 (bit incoming))
  else if incoming then
    match (s.port l).peer with
    | some id => kdf x.srk "LINK" (leBytes 2 id.chip.val ++ leBytes 2 id.port.val)
    | none => []
  else kdf x.srk "LINK" (leBytes 2 s.chip ++ leBytes 2 l)

/-- The XOR of the GCM tags of the sealed slices that sent in an interval (R301). -/
def State.sealTag (s : State) (l num : Nat) (incoming : Bool) (pkts : List Packet) : BitVec 128 :=
  s.sec.slices.foldl (fun t x =>
    match pkts.filter fun p => p.slice.val == x.num with
    | [] => t
    | ps => t ^^^ Config.gcmTag (s.linkKey x l incoming) num ps) 0

/-- SEAL_INTERVAL_END (R301): the intervals of a port that have ended now owe their SEAL set. -/
def execSealIntervalEnd (l : Link) (s : State) : Out :=
  act s fun s =>
    if s.linkState l.val ≠ PS_UP ∨ s.interval = 0 then s
    else
      let n := s.interval - 1
      s.modSec fun x =>
        let outs := if x.outs.any fun o => o.link == l.val && o.num == n then x.outs
          else x.outs ++ [⟨l.val, n, [], [], false, false⟩]
        { x with outs := outs.map fun o => if o.link = l.val ∧ o.num ≤ n then { o with ended := true } else o }

/-- SEAL_SET_SEND (R301 to R303): once every input interval that fed an ended one is verified, its set goes out; FAIL where
one of them failed. -/
def execSealSetSend (l : Link) (s : State) : Out :=
  act s fun s =>
    match s.sec.outs.find? fun o => o.link == l.val && o.ended with
    | some o =>
      if o.deps.any fun d => s.sec.ins.any fun r => r.link == d.1 && r.num == d.2 then s
      else
        let s1 := s.modSec fun x => { x with outs := x.outs.filter fun y => y != o }
        let t : SealSet := {
          fail := o.fail, empty := o.pkts.isEmpty, checkOk := true, interval := BitVec.ofNat 32 o.num
          tag := s.sealTag l.val o.num false o.pkts }
        s1.emit (.sealSet l t)
    | none => s

/-- An interval fails at a receiving port (R303): its packets are discarded, SEAL_FAIL is written, the link is lost. -/
def State.sealFailed (s : State) (l : Nat) (r : Option SealIn) (num : Nat) : State :=
  let s1 := match r with | some r => s.sealDrop r | none => s
  ((s1.bump F.SEC_SEAL_EVENTS_SEAL_FAILS).sillage 0x0B 0x02 2 [l, num]).lossOfLink l

/-- The packets of an interval that has verified go to their consumers (R302); one that another interval still holds waits
on. -/
def State.sealVerified (s : State) (r : SealIn) : State :=
  let s1 := s.modSec fun x => { x with ins := x.ins.filter fun y => y != r }
  s1.sec.held.foldl (fun t h =>
    if r.pkts.any (samePacket h.2) ∧ t.sealDeps h.2 = [] then
      (t.modSec fun x => { x with held := x.held.erase h }).consume
        (deliveryWing r.link (.unit (Fin.ofNat 256 h.1))) h.1 h.2
    else t) s1

/-- The interval number that the low 32 bits of a set name: the latest not after the present one. -/
def State.setInterval (s : State) (low : BitVec 32) : Nat :=
  s.interval - (s.interval + 2 ^ 32 - low.toNat) % 2 ^ 32

/-- SEAL_SET_RECEIVE (R301 to R303): a set whose CHECK fails is no valid set. -/
def execSealSetReceive (l : Link) (t : SealSet) (s : State) : Out :=
  act s fun s =>
    if t.checkOk = false ∨ s.linkState l.val ≠ PS_UP then s
    else
      let n := s.setInterval t.interval
      match s.sec.ins.find? fun r => r.link == l.val && r.num == n with
      | some r =>
        if t.fail then (s.sealDrop r).bump F.SEC_SEAL_EVENTS_FAIL_PASSED
        else if t.empty ∨ t.tag ≠ s.sealTag l.val n true r.pkts then s.sealFailed l.val (some r) n
        else s.sealVerified r
      | none =>
        if t.fail then s.bump F.SEC_SEAL_EVENTS_FAIL_PASSED
        else if t.empty = false ∧ t.tag ≠ 0 then s.sealFailed l.val none n
        else s

/-- SEAL_SET_TIMEOUT (R301): no valid set 2,048 FTU after an interval with sealed flits ended. -/
def execSealSetTimeout (l : Link) (s : State) : Out :=
  act s fun s =>
    match s.sec.ins.find? fun r => r.link == l.val && decide ((r.num + 1) * 1024 + 2048 ≤ s.ftu.toNat) with
    | some r => s.sealFailed l.val (some r) r.num
    | none => s

end Sys2Proof.Machine
end

