-- ==== Sys2Proof/Machine/Exchange.lean ====
section
/-! DEFINITION. Sys2Proof/Machine/Exchange.lean: exchange among leaf nodes, and the count phase, drops and sums of the
variable exchanges (R191, R211 to R223).
(log entries of this file: DEDUCED 56) -/

namespace Sys2Proof.Machine

/-! ### Streams in pieces -/

/-- The elements from `a` on, `l` of them, of a stream of `total` elements, MX scales with them (R166). -/
def subStream (code total : Nat) (bs : List Byte) (a l : Nat) : List Byte :=
  let w := elemBits code
  (bs.drop (a * w / 8)).take (l * w / 8) ++
    (if isMx code then (bs.drop (total * w / 8 + a / 32)).take (l / 32) else [])

/-- Streams one after another as one stream (R166): each with its elements. -/
def joinStreams (code : Nat) (ss : List (Nat × List Byte)) : List Byte :=
  let w := elemBits code
  (ss.flatMap fun q => q.2.take (q.1 * w / 8)) ++ (if isMx code then ss.flatMap fun q => q.2.drop (q.1 * w / 8) else [])

/-! ### What a member's exchange sends and receives (Table 9.2, R215, R219, R222) -/

def XInfo.blank : XInfo := ⟨0, [], 0, [], [], [], [], [], [], [], [], 0⟩
def xOf (m : CollMember) : XInfo := m.x.getD XInfo.blank

/-- The address fields of the exchange block (Table 10.2), by byte. -/
def xAddr (x : XInfo) (b : Nat) : Nat := slotNum x.block b 8
def xDstCap (x : XInfo) : Nat := slotNum x.block 56 4

/-- Fields of an ORIGIN entry: VALID, choice, token, source rank. -/
def oValid (o : Nat) : Bool := o.testBit 63
def oChoice (o : Nat) : Nat := o / 2 ^ 48 % 8
def oToken (o : Nat) : Nat := o / 2 ^ 16 % 2 ^ 32
def oRank (o : Nat) : Nat := o % 2 ^ 16

/-- KEPT of a RETURN entry (Table 10.2). -/
def rKept (v : Nat) : Bool := v.testBit 31

/-- Positions in ROUTE of the choices of a member whose route is `d`, in token order. -/
def choicesTo (x : XInfo) (d : Nat) : List Nat :=
  ((x.route.zip (List.range x.route.length)).filter fun q => q.1 == d).map (·.2)

/-- Positions of the choices to `d` that are kept: the lowest-indexed tokens (R219). -/
def keptTo (x : XInfo) (d : Nat) : List Nat := (choicesTo x d).take ((x.keeps.getD d (0, 0)).1)

/-- Rows of a COMBINE's SRC that go to rank `d`, ascending. -/
def rowsTo (x : XInfo) (d : Nat) : List Nat :=
  ((x.origin.zip (List.range x.origin.length)).filter fun q => oValid q.1 && oRank q.1 == d).map (·.2)

/-- Choices of a COMBINE's source that came back kept from rank `s`: positions in ROUTE. -/
def keptFrom (x : XInfo) (s : Nat) : List Nat :=
  ((x.route.zip x.ret).zip (List.range x.route.length) |>.filter fun q => q.1.1 == s && rKept q.1.2).map (·.2)

/-- The blocks a member sends: destination and elements (0xFFFF: to every member). -/
def sendBlocks (n : CollNode) (p : Nat) (m : CollMember) : List (Nat × Nat) :=
  let x := xOf m
  match dKind n.desc with
  | 4 => [(0xFFFF, n.count)]
  | 5 => [(0xFFFF, n.count)]
  | 6 => (List.range p).map fun d => (d, n.count)
  | 7 => (List.range p).map fun d => (d, x.sends.getD d 0)
  | 8 => (List.range p).map fun d => (d, (keptTo x d).length * dRow n.desc)
  | _ => (List.range p).map fun d => (d, (rowsTo x d).length * dRow n.desc)

/-- The blocks a member receives, by source rank. -/
def recvBlocks (n : CollNode) (p : Nat) (m : CollMember) : List Nat :=
  let x := xOf m
  match dKind n.desc with
  | 4 => List.replicate p n.count
  | 5 => [n.count]
  | 6 => List.replicate p n.count
  | 7 => (List.range p).map fun s => x.recvs.getD s 0
  | 8 => (List.range p).map fun s => x.recvs.getD s 0 * dRow n.desc
  | _ => (List.range p).map fun s => (keptFrom x s).length * dRow n.desc

/-- The blocks of a member's DST, padding included (R220, R222). -/
def dstBlocks (n : CollNode) (p : Nat) (m : CollMember) : List Nat :=
  let bs := recvBlocks n p m
  match dKind n.desc with
  | 8 => bs ++ [dCap n.desc * dRow n.desc - bs.sum]
  | 9 => [(xOf m).tokens * dRow n.desc]
  | _ => bs

/-- The blocks of a member's SRC as it sends it to its leaf (R188, R218). -/
def feedBlocks (n : CollNode) (p : Nat) (m : CollMember) : List Nat :=
  match dKind n.desc with
  | 8 => [(xOf m).tokens * dRow n.desc]
  | 9 => [dCap n.desc * dRow n.desc]
  | _ => (sendBlocks n p m).map (·.2)

/-- Chunks of a member's input, and elements of one. -/
def feedCount (n : CollNode) (p : Nat) (m : CollMember) : Nat := chunkCount (dChunk n.desc) (feedBlocks n p m)
def feedSpan (n : CollNode) (p : Nat) (m : CollMember) (c : Nat) : Nat × Nat := chunkSpan (dChunk n.desc) (feedBlocks n p m) c

/-- The block a chunk number falls in, and its number there. -/
def blockOf (k : Nat) : List (Nat × Nat) → Nat → Option (Nat × Nat)
  | [], _ => none
  | (d, b) :: t, c => if c < (b + k - 1) / k then some (d, c) else blockOf k t (c - (b + k - 1) / k)

/-- The row of a member's whole input: taken from the chunk that holds it. -/
def rowOf (n : CollNode) (p : Nat) (m : CollMember) (r : Nat) : List Byte :=
  let row := dRow n.desc
  let k := dChunk n.desc
  let c := r * row / k
  match m.buf.find? fun q => q.1 == c with
  | some q => subStream (dIn n.desc) (feedSpan n p m c).2 q.2 (r * row - c * k) row
  | none => []

/-- Rows of a member's input that go to `d`, with the token and choice of each. -/
def rowList (n : CollNode) (m : CollMember) (d : Nat) : List (Nat × Nat × Nat) :=
  let x := xOf m
  if dKind n.desc = 8 then (keptTo x d).map fun i => (i / dK n.desc, i / dK n.desc, i % dK n.desc)
  else (rowsTo x d).map fun j => (j, oToken (x.origin.getD j 0), oChoice (x.origin.getD j 0))

/-- The rows of chunk `i` of the block to `d`. -/
def rowsOfChunk (n : CollNode) (m : CollMember) (d i : Nat) : List (Nat × Nat × Nat) :=
  let per := dChunk n.desc / max 1 (dRow n.desc)
  ((rowList n m d).drop (i * per)).take per

/-- Ranks of this leaf whose data a chunk for another leaf's member lacks: those that send it and those not started (R200). -/
def lackingAway (p : Nat) (n : CollNode) (c : CollChunk) (locals : List Nat) : List Nat :=
  locals.filter fun r => !(c.parts.any fun q => q.input == r) && match memberOf n r with
    | some m => n.bad.contains r || (sendBlocks n p m).any fun b => b.1 == c.dst && decide (c.num * dChunk n.desc < b.2)
    | none => true

/-- The ranks whose data a chunk of an exchange lacks: sources that send it and members that have not started (R200,
R201). -/
def lackingEx (s : State) (n : CollNode) (c : CollChunk) : List Nat :=
  let p := nodeP s n
  let k := dChunk n.desc
  let locals := ((s.collMembers n.slice).filter fun m => m.2.1 == s.chip).map (·.1)
  if c.dst ≠ 0xFFFF ∧ c.dst ∉ locals then lackingAway p n c locals
  else
  let sends := fun (src : Nat) =>
    if c.dst = 0xFFFF then true
    else match memberOf n c.dst with
      | some m => decide (c.num * k < (recvBlocks n p m).getD src 0)
      | none => true
  let missing := (n.ins.filter fun i => sends i.rank && !c.parts.any fun q => q.input == i.rank).map (·.rank)
  missing ++ (locals.filter fun r => ((memberOf n r).isNone || n.bad.contains r) && !missing.contains r)

/-! ### Delivery at an exchange leaf (R191, R215, R220, R222) -/

/-- The coordinate at a member's DST of chunk `num` of the block from `src`. -/
def destCoord (n : CollNode) (p : Nat) (m : CollMember) (src num : Nat) : Nat :=
  (if dKind n.desc = 5 then 0 else ((recvBlocks n p m).take src).sum) + num * dChunk n.desc

/-- Elements of a chunk of the block from `src` to a member. -/
def blockSpan (n : CollNode) (p : Nat) (m : CollMember) (src num : Nat) : Nat :=
  let b := if dKind n.desc = 5 then n.count else (recvBlocks n p m).getD src 0
  min (dChunk n.desc) (b - num * dChunk n.desc)

/-- Send a stretch to a member's DST and note it as issued (R197). -/
def State.giveMember (s : State) (n : CollNode) (m : CollMember) (num coord len : Nat) (slipped spilled : Bool)
    (bs : List Byte) : State :=
  match s.run m.queue m.index with
  | none => s
  | some r =>
    let last := r.own.2 - r.own.1 ≤ r.issued + len
    let s1 := s.modRun m.queue m.index fun r => { r with
      issued := r.issued + len, slipped := r.slipped || slipped, spilled := r.spilled || spilled }
    s1.sendResult n m num coord len (m.dst + streamBytes (dOut n.desc) coord) slipped (spilled || n.phase == .spilled) last bs

/-- A member may be served now: its command runs, it has its counts, and no earlier command holds its pages (R259). -/
def State.canServe (s : State) (n : CollNode) (m : CollMember) : Bool :=
  (match m.x with | some x => x.phase == 2 | none => true) && !n.bad.contains m.rank &&
  match s.run m.queue m.index with
  | some r => r.endAt.isNone && !s.heldBy r
  | none => false

/-- The key under which a part is served to a member. -/
def serveKey (src rank : Nat) : Nat := src * 65536 + rank

/-- Serve the parts of a chunk to the members they are for. -/
def State.serveParts (s : State) (n : CollNode) (c : CollChunk) : State :=
  let p := nodeP s n
  let todo := c.parts.flatMap fun q => (n.members.filter fun m =>
    (c.dst == 0xFFFF || m.rank == c.dst) && !c.served.contains (serveKey q.input m.rank)).map fun m => (q, m)
  todo.foldl (fun (t : State) (x : CollPart × CollMember) =>
    if t.canServe n x.2 = false then t
    else
      let t1 := t.chunkUpd n c.dst c.num fun y => { y with served := y.served ++ [serveKey x.1.input x.2.rank] }
      let coord := destCoord n p x.2 x.1.input c.num
      t1.giveMember n x.2 (wholeChunks (dChunk n.desc) (dstBlocks n p x.2) coord).1 coord
        (blockSpan n p x.2 x.1.input c.num) c.slipped c.spilled x.1.bytes) s

/-- Data chunks of an exchange, as against count data. -/
def isDataChunk (c : CollChunk) : Bool := c.dst != 0xFFFE && c.dst != 0xFFFD

/-- Serve whatever an exchange leaf holds; chunks whose every part has come and gone are dropped. -/
def State.serveExchange (s : State) (n0 : CollNode) : State :=
  let n := s.nodeNow n0
  if dKind n.desc = 9 then s
  else
    let s1 := (n.chunks.filter isDataChunk).foldl (fun (t : State) c => t.serveParts n c) s
    let targets := fun (c : CollChunk) => (((s1.collMembers n.slice).filter fun m => m.2.1 == s1.chip).map (·.1)).filter fun r =>
      c.dst == 0xFFFF || r == c.dst
    let done := fun (c : CollChunk) => isDataChunk c && (lackingEx s1 n c).isEmpty
      && c.parts.all fun q => (targets c).all fun r => c.served.contains (serveKey q.input r)
    s1.modNode n fun x => { x with chunks := x.chunks.filter fun c => !done c }

/-! ### COMBINE (R222, R223) -/

/-- The products p of a kept choice: weight times each decoded value (R223). -/
def weighted (code row : Nat) (bs : List Byte) (w : Nat) : List Nat := (decodeStream code row bs).map fun y => mulF32 w y

/-- Ordered or fixed sums over the kept choices of each element; `vs` holds, per choice, none where the row has no such kept
choice. -/
def combineRow (fixed : Bool) (vs : List (List Nat)) : List Nat :=
  match vs with
  | [] => []
  | v :: t => if fixed then v else t.foldl (fun a b => (a.zip b).map fun q => addF32 q.1 q.2) v

/-- The values of a chunk of the result: rows `lo` to `hi` of a source's tokens (R223). -/
def combineChunk (n : CollNode) (x : XInfo) (lo hi : Nat) : List Flt :=
  let row := dRow n.desc
  let k := dK n.desc
  let zero := List.replicate row 0
  let kept := fun (t j : Nat) => rKept (x.ret.getD (t * k + j) 0)
  let vals := fun (t j : Nat) => weighted (dIn n.desc) row (((x.rows.find? fun q => q.1 == t * k + j).map (·.2)).getD [])
    (x.weights.getD (t * k + j) 0)
  let rows := (List.range (hi - lo)).map (· + lo)
  if dFixed n.desc then
    let per := (List.range k).map fun j => rows.flatMap fun t => if kept t j then vals t j else zero
    let codes := per.foldl (fun a v => if a = [] then blockCodes v else (a.zip (blockCodes v)).map fun q => max q.1 q.2) []
    let sums := per.foldl (fun (a : List Nat) v =>
      let f := (fixStream codes v).1
      if a = [] then f else fixAdd a f) []
    (unfixStream codes sums).1
  else
    rows.flatMap fun t =>
      let vs := (((List.range k).filter fun j => kept t j).map fun j => vals t j)
      if vs = [] then (zero.map ofF32) else (combineRow false vs).map ofF32

/-- Send each chunk of a COMBINE's result whose kept rows have all come (R222). -/
def State.serveCombine (s : State) (n0 : CollNode) : State :=
  let n := s.nodeNow n0
  if dKind n.desc ≠ 9 then s
  else
    n.members.foldl (fun (t : State) m =>
      let x := xOf m
      let row := dRow n.desc
      let k := dChunk n.desc
      (List.range (chunkCount k [x.tokens * row])).foldl (fun (t : State) c =>
        let (at', len) := chunkSpan k [x.tokens * row] c
        let lo := at' / row
        let hi := lo + len / row
        let key := serveKey c m.rank
        let ch := (nodeChunk (t.nodeNow n) 0xFFFC 0).getD (CollChunk.blank 0xFFFC 0)
        let ready := (List.range ((hi - lo) * dK n.desc)).all fun j =>
          let i := lo * dK n.desc + j
          !rKept (x.ret.getD i 0) || x.rows.any fun q => q.1 == i
        if ch.served.contains key ∨ ready = false ∨ t.canServe n m = false then t
        else
          let bs := convertStream (dOut n.desc) (dRound n.desc) (dNanOvf n.desc)
            (randWord (dSeed n.desc) c (dNum n.desc) 0) (combineChunk n x lo hi)
          let of' := n.chunks.filter fun y => y.dst == m.rank
          (t.chunkUpd n 0xFFFC 0 fun y => { y with served := y.served ++ [key] }).giveMember n m c at' len
            (of'.any (·.slipped)) (of'.any (·.spilled)) bs) t) s

/-- Rows of a COMBINE arrive for a member: one for a choice not kept is dropped and counted (R222). -/
def State.takeRows (s : State) (n : CollNode) (dst len : Nat) (bs : List Byte) (tags : List (Nat × Nat)) : State :=
  let row := dRow n.desc
  ((List.range (len / max 1 row)).zip tags).foldl (fun (t : State) q =>
    let i := q.2.1 * dK n.desc + q.2.2
    match (memberOf (t.nodeNow n) dst) with
    | some m =>
      if rKept ((xOf m).ret.getD i 0) then
        t.modNode n fun x => modMember x dst fun m => { m with
          x := m.x.map fun y => { y with rows := (y.rows.filter fun r => r.1 != i) ++ [(i, subStream (dIn n.desc) len bs (q.1 * row) row)] } }
      else t.bump F.ACD_EVENTS_BAD_GRANT n.wing
    | none => t) s

/-! ### A chunk arrives at an exchange leaf -/

/-- ORIGIN entries of the rows that a chunk brings to a DISPATCH destination (R220). -/
def noteOrigins (n : CollNode) (p : Nat) (m : CollMember) (src num : Nat) (tags : List (Nat × Nat)) : XInfo :=
  let x := xOf m
  let first := destCoord n p m src num / max 1 (dRow n.desc)
  let o := (tags.zip (List.range tags.length)).foldl (fun (l : List Nat) q =>
    l.set (first + q.2) (2 ^ 63 + q.1.2 * 2 ^ 48 + q.1.1 * 2 ^ 16 + src)) x.origin
  { x with origin := o }

/-- Data from `src` for `dst` is whole at the leaf (R191). -/
def State.arriveEx (s : State) (n0 : CollNode) (src dst num : Nat) (bs : List Byte) (tags : List (Nat × Nat)) : State :=
  let n := s.nodeNow n0
  let p := nodeP s n
  let seen := fun (c : CollChunk) => { c with first := some (c.first.getD s.ftu.toNat) }
  if dKind n.desc = 9 then
    match memberOf n dst with
    | some m =>
      let len := min (dChunk n.desc) ((recvBlocks n p m).getD src 0 - num * dChunk n.desc)
      let s1 := s.chunkUpd n dst num fun c => { seen c with parts := c.parts ++ [⟨src, [], [], 0⟩] }
      (s1.takeRows n dst len bs tags).serveCombine n
    | none => s
  else
    let s1 := s.chunkUpd n dst num fun c => { seen c with parts := c.parts ++ [⟨src, [], bs, 0⟩] }
    let s2 := if dKind n.desc = 8 then
        s1.modNode n fun y => modMember y dst fun m => { m with x := some (noteOrigins n p m src num tags) }
      else s1
    s2.serveExchange n

/-- The leaf of a rank: chip and wing. -/
def State.leafOfRank (s : State) (n : CollNode) (r : Nat) : Option (Nat × Nat) :=
  let ms := s.collMembers n.slice
  (ms.find? fun m => m.1 == r).map fun m => (m.2.1, leafWing ms m.2.1)

/-- Ask a peer leaf for room (R194). -/
def State.askPeer (s : State) (n : CollNode) (o : CollOut) : State :=
  s.sendGrant n o.chip (0x81 + o.wing) n.owner n.epoch (n.digest * 2 ^ 32 + n.num)
    (chunkField o.chunk o.codes false (n.phase == .spilled) false 1) o.src o.dst

/-- A chunk for `dst` leaves its member's leaf: to this leaf's own members at once, to every other leaf that needs it by a
grant (R191). -/
def State.launch (s : State) (n : CollNode) (src dst num : Nat) (bs : List Byte) (tags : List (Nat × Nat)) : State :=
  let ms := s.collMembers n.slice
  let all := leavesOf ms
  let tgt := if dst = 0xFFFF then all else ((s.leafOfRank n dst).map fun x => [x]).getD []
  tgt.foldl (fun (t : State) x =>
    if x.1 = t.chip then t.arriveEx n src dst num bs tags
    else
      let c := nodeChunk (t.nodeNow n) dst num
      let o : CollOut := ⟨src, dst, num, x.1, x.2, false, bs, none, false, (c.map (·.slipped)).getD false⟩
      let t1 := if dst = 0xFFFF ∨ 8 ≤ dKind n.desc then t
        else t.chunkUpd n dst num fun y => { y with parts := y.parts ++ [⟨src, [], [], 0⟩] }
      (t1.modNode n fun y => { y with outs := y.outs ++ [o] }).askPeer n o) s

/-- A chunk of a member's input is whole at its leaf (R191, R218, R222): it goes on as it is, or, once the member's whole input
is here, row by row. -/
def State.forwardEx (s : State) (n0 : CollNode) (rank c : Nat) (bs : List Byte) : State :=
  let n := s.nodeNow n0
  let p := nodeP s n
  match memberOf n rank with
  | none => s
  | some m =>
    if dKind n.desc < 8 then
      match blockOf (dChunk n.desc) (sendBlocks n p m) c with
      | some (d, i) => s.launch n rank d i bs []
      | none => s
    else
      let m1 := { m with buf := m.buf ++ [(c, bs)] }
      let s1 := s.modNode n fun y => modMember y rank fun _ => m1
      if m1.buf.length < feedCount n p m then s1
      else
        (sendBlocks n p m1).foldl (fun (t : State) b =>
          (List.range (chunkCount (dChunk n.desc) [b.2])).foldl (fun (t : State) i =>
            let rows := rowsOfChunk n m1 b.1 i
            t.launch n rank b.1 i (joinStreams (dIn n.desc) (rows.map fun r => (dRow n.desc, rowOf n p m1 r.1))) (rows.map (·.2))) t) s1

/-- Send what a peer's grant admits (R191, R194): the ABORT of a leaf that gave up, or the chunk. -/
def State.sendOut (s : State) (n : CollNode) (o : CollOut) : State :=
  match o.grant with
  | none => s
  | some g =>
    let s1 := s.modNode n fun y => { y with outs := y.outs.map fun x => if x = o then { x with sent := true } else x }
    let late := o.slipped || n.chunks.any fun c => c.slipped
      && (if o.codes then c.dst == 0xFFFE || c.dst == 0xFFFD else c.dst == o.dst && c.num == o.chunk)
    match n.cut with
    | some (_, bits) => s1.sendUp n g o.chunk o.codes late true 0 o.src o.dst (leBytes 4096 bits)
    | none => s1.sendUp n g o.chunk o.codes late false 0 o.src o.dst o.data

/-! ### The count phase (R213 to R221) -/

/-- Ranks of a leaf's members, ascending. -/
def ranksAt (ms : List (Nat × Nat × Nat)) (chip : Nat) : List Nat := (ms.filter fun m => m.2.1 == chip).map (·.1)

/-- Numbers of 32 bits as bytes. -/
def wordsOf (l : List Nat) : List Byte := l.flatMap fun v => leBytes 4 v
/-- 32-bit numbers that bytes hold. -/
def wordsIn (n : Nat) (bs : List Byte) : List Nat := (List.range n).map fun i => ofLe ((bs.drop (4 * i)).take 4)

/-- Every member of this leaf has started. -/
def State.allHere (s : State) (n : CollNode) : Bool :=
  (ranksAt (s.collMembers n.slice) s.chip).all fun r => (memberOf n r).isSome && !n.bad.contains r

/-- Queue a stream of count data for a peer leaf, in pieces of 64 KiB from number `base` on (R213). -/
def State.countOut (s : State) (n : CollNode) (peer : Nat × Nat) (base : Nat) (bs : List Byte) : State :=
  let ps := blocksOf 65536 bs.length bs
  ((List.range ps.length).zip ps).foldl (fun (t : State) q =>
    let o : CollOut := ⟨0xFFFF, 0xFFFF, base + q.1, peer.1, peer.2, true, q.2, none, false, false⟩
    (t.modNode n fun y => { y with outs := y.outs ++ [o] }).askPeer n o) s

/-- Number of the first piece of the second stream, which carries rows kept and offsets (R213 step 3). -/
def keptBase : Nat := 2 ^ 23

/-- The leaf's members have all started: their counts go to every other leaf (R213 step 2). -/
def State.sendCounts (s : State) (n0 : CollNode) : State :=
  let n := s.nodeNow n0
  let ms := s.collMembers n.slice
  if ¬(dKind n.desc = 7 ∨ dKind n.desc = 8) ∨ s.allHere n = false then s
  else
    ((leavesOf ms).filter fun x => x.1 != s.chip).foldl (fun (t : State) x =>
      let body := (ranksAt ms t.chip).flatMap fun r => (ranksAt ms x.1).map fun d =>
        ((memberOf n r).map fun m => (xOf m).sends.getD d 0).getD 0
      t.countOut n x 0 (wordsOf body)) s

/-- Count data received from a leaf in one stream, if it is whole: `words` numbers in all. -/
def countsFrom (n : CollNode) (dst words chipIx : Nat) : Option (List Nat) :=
  let parts := (n.chunks.filter fun c => c.dst == dst).filterMap fun c => (c.parts.find? fun q => q.input == chipIx).map fun q => (c.num, q.bytes)
  let bs := (List.range ((words * 4 + 65535) / 65536)).flatMap fun k => ((parts.find? fun q => q.1 == k).map (·.2)).getD []
  if words * 4 ≤ bs.length then some (wordsIn words bs) else none

/-- What every rank sends to each member of this leaf, once every leaf's counts are here. -/
def State.countTable (s : State) (n : CollNode) : Option (List (Nat × List Nat)) :=
  let ms := s.collMembers n.slice
  let mine := ranksAt ms s.chip
  let cols := (leavesOf ms).map fun x =>
    let from' := ranksAt ms x.1
    if x.1 = s.chip then
      some (from'.map fun r => (r, mine.map fun d => ((memberOf n r).map fun m => (xOf m).sends.getD d 0).getD 0))
    else (countsFrom n 0xFFFE (from'.length * mine.length) x.1).map fun w =>
      (from'.zip (List.range from'.length)).map fun q => (q.1, (List.range mine.length).map fun j => w.getD (q.2 * mine.length + j) 0)
  if s.allHere n = false ∨ cols.any (·.isNone) then none
  else
    let rows := cols.flatMap fun c => c.getD []
    some ((mine.zip (List.range mine.length)).map fun q =>
      (q.1, (List.range (nodeP s n)).map fun r => ((rows.find? fun y => y.1 == r).map fun y => y.2.getD q.2 0).getD 0))

/-- Rows kept and their offset, by source rank, at one destination (R219). -/
def capacityRule (cap : Nat) (col : List Nat) : List (Nat × Nat) :=
  (col.foldl (fun (a : List (Nat × Nat) × Nat) c => (a.1 ++ [(min c (cap - a.2), a.2)], a.2 + c)) ([], 0)).1

/-- The counts of every leaf are here: receive counts are fixed, and in a DISPATCH every source's leaf is told the rows kept
(R213 step 3, R215, R219). -/
def State.applyCounts (s : State) (n0 : CollNode) : State :=
  let n := s.nodeNow n0
  let ms := s.collMembers n.slice
  match s.countTable n with
  | none => s
  | some tab =>
    if n.members.any fun m => (xOf m).recvs != [] then s
    else
      let kept := tab.map fun q => (q.1, if dKind n.desc = 8 then capacityRule (dCap n.desc) q.2 else q.2.map fun c => (c, 0))
      let s1 := s.modNode n fun y => { y with members := y.members.map fun m => { m with
        x := m.x.map fun x => { x with
          recvs := (((kept.find? fun q => q.1 == m.rank).map (·.2)).getD []).map (·.1)
          keeps := if dKind n.desc = 8 then (List.range (nodeP s n)).map fun d =>
              (((kept.find? fun q => q.1 == d).map fun q => q.2.getD m.rank (0, 0)).getD (0, 0))
            else [] } } }
      if dKind n.desc = 8 then
        ((leavesOf ms).filter fun x => x.1 != s.chip).foldl (fun (t : State) x =>
          t.countOut n x keptBase (wordsOf (kept.flatMap fun q => (ranksAt ms x.1).flatMap fun r =>
            let v := q.2.getD r (0, 0)
            [v.1, v.2]))) s1
      else s1

/-- Rows kept at the members of other leaves are known for every destination (R213 step 3). -/
def State.keepsReady (s : State) (n : CollNode) : Bool :=
  let ms := s.collMembers n.slice
  dKind n.desc == 7 || ((leavesOf ms).filter fun x => x.1 != s.chip).all fun x =>
    (countsFrom n 0xFFFD ((ranksAt ms x.1).length * (ranksAt ms s.chip).length * 2) x.1).isSome

/-- Fill in the rows kept at other leaves' members. -/
def State.applyKeeps (s : State) (n : CollNode) : State :=
  let ms := s.collMembers n.slice
  let mine := ranksAt ms s.chip
  if dKind n.desc = 7 then s
  else
    ((leavesOf ms).filter fun x => x.1 != s.chip).foldl (fun (t : State) x =>
      let there := ranksAt ms x.1
      match countsFrom n 0xFFFD (there.length * mine.length * 2) x.1 with
      | none => t
      | some w => t.modNode n fun y => { y with members := y.members.map fun m => { m with
          x := m.x.map fun z => { z with keeps := (there.zip (List.range there.length)).foldl (fun (l : List (Nat × Nat)) q =>
            let i := 2 * (q.2 * mine.length + (mine.takeWhile fun r => r != m.rank).length)
            l.set q.1 (w.getD i 0, w.getD (i + 1) 0)) z.keeps } } }) s

/-- The values each member brings to the generation, once the counts are settled (R213 step 4): rank, V0, V1. -/
def State.countValues (s : State) (n0 : CollNode) : List (Nat × Nat × Nat) :=
  let n := s.nodeNow n0
  if (dKind n.desc = 7 ∨ dKind n.desc = 8) ∧ s.keepsReady n ∧ (n.members.all fun m => (xOf m).recvs != []) ∧ s.allHere n then
    (n.members.filter fun m => (xOf m).phase == 0).map fun m =>
      let x := xOf m
      let v := x.recvs.sum
      (m.rank, v, if dKind n.desc = 7 ∧ xDstCap x < v then 1 else 0)
  else []

/-- Choices of a member that were dropped: positions in ROUTE (R221). -/
def droppedChoices (p : Nat) (x : XInfo) : List Nat :=
  let kept := (List.range p).flatMap fun d => keptTo x d
  (List.range x.route.length).filter fun i => decide (x.route.getD i 0xFFFF < p) && !kept.contains i

/-- The RETURN array of a member (Table 10.2, R221). -/
def returnArray (p : Nat) (x : XInfo) : List Nat :=
  (List.range x.route.length).map fun i =>
    let d := x.route.getD i 0xFFFF
    let l := keptTo x d
    if d < p ∧ l.contains i then 2 ^ 31 + (x.keeps.getD d (0, 0)).2 + (l.takeWhile fun j => j != i).length else 0

/-- The drop list (R221). -/
def dropList (k : Nat) (x : XInfo) (drops : List Nat) : List Byte :=
  let l := drops.take 511
  leBytes 4 drops.length ++ leBytes 4 l.length ++
    l.flatMap fun i => leBytes 8 (i / k + x.route.getD i 0 * 2 ^ 32 + (i % k) * 2 ^ 48)

/-- The generation of a member's count phase has its result (R213 step 5, R216, R221): the receive counts are written, and
data moves unless some member's DST is too small. -/
def State.countDone (s : State) (n0 : CollNode) (rank v0 v1 : Nat) : State :=
  let n := s.nodeNow n0
  let p := nodeP s n
  match memberOf n rank with
  | none => s
  | some m =>
    let x := xOf m
    let unit := 0x81 + n.wing
    let put := fun (t : State) (a : Nat) (bs : List Byte) => t.storeAt unit m.ctx m.epoch a bs
    let counts := n.chunks.filter fun c => c.dst == 0xFFFE || c.dst == 0xFFFD
    let s := s.modRun m.queue m.index fun r => { r with
      slipped := r.slipped || counts.any (·.slipped), spilled := r.spilled || counts.any (·.spilled) }
    let s1 := put s (xAddr x 8) (wordsOf x.recvs)
    let s2 := put s1 (x.addr + 60) (leBytes 4 v0)
    let drops := if dKind n.desc = 8 then droppedChoices p x else []
    let s3 := if dKind n.desc = 8 then put s2 (xAddr x 24) (wordsOf (returnArray p x)) else s2
    if v1 ≠ 0 then s3.endAtChunk m.queue m.index 0 ST_REFUSED_FIT
    else
      let x2 := { x with phase := 2, ret := returnArray p x, origin := List.replicate (dCap n.desc) 0 }
      let m2 := { m with x := some x2 }
      let bs := dstBlocks n p m2
      let s4 := (s3.modNode n fun y => modMember y rank fun _ => m2).modRun m.queue m.index fun r => { r with
        blocks := bs, own := (0, bs.sum), full := bs.sum, drops := drops.length }
      let s5 := if dKind n.desc = 8 ∧ drops ≠ [] ∧ m.detail ≠ 0 then
          (put s4 m.detail (dropList (dK n.desc) x drops)).modRun m.queue m.index fun r => { r with detail := m.detail }
        else s4
      -- rows past the last kept token are padding (R220)
      let pad := if dKind n.desc = 8 then bs.getLast?.getD 0 else 0
      let k := dChunk n.desc
      let s6 := (List.range (chunkCount k [pad])).foldl (fun (t : State) i =>
        let len := min k (pad - i * k)
        t.giveMember n m2 (chunkCount k bs.dropLast + i) (bs.sum - pad + i * k) len false false
          (List.replicate (streamBytes (dOut n.desc) len) 0)) s5
      s6.serveExchange n

/-- ORIGIN and MASK of a DISPATCH whose rows have all landed (R220). -/
def State.writeOrigins (s : State) (n : CollNode) (m : CollMember) : State :=
  let x := xOf m
  let unit := 0x81 + n.wing
  let mask := (x.origin.zip (List.range x.origin.length)).foldl (fun a q => if oValid q.1 then a + 2 ^ q.2 else a) 0
  let bytes := (dCap n.desc + 511) / 512 * 64
  let s1 := s.storeAt unit m.ctx m.epoch (xAddr x 40) (x.origin.flatMap fun o => leBytes 8 o)
  s1.storeAt unit m.ctx m.epoch (xAddr x 48) (leBytes bytes mask)

end Sys2Proof.Machine
end

