-- ==== Sys2Proof/Machine/Skipper.lean ====
section
/-! DEFINITION. Sys2Proof/Machine/Skipper.lean: Skipper groups, barriers and scalar reductions (R207 to R210).
(log entries of this file: DEDUCED 57, 58, 69, 122) -/

namespace Sys2Proof.Machine

/-! ### Groups -/

def State.skpGroup (s : State) (g : Nat) : Option SkpGroup := s.coll.groups.find? fun x => x.num == g

def State.modGroup (s : State) (g : Nat) (f : SkpGroup → SkpGroup) : State :=
  { s with coll := { s.coll with groups := s.coll.groups.map fun x => if x.num = g then f x else x } }

def modSkpNode (g : SkpGroup) (h : Nat) (f : SkpNode → SkpNode) : SkpGroup :=
  { g with nodes := g.nodes.map fun n => if n.height = h then f n else n }

def skpNode (g : SkpGroup) (h : Nat) : Option SkpNode := g.nodes.find? fun n => n.height == h

def skpGen (n : SkpNode) (gen : Nat) : Option SkpGen := n.gens.find? fun x => x.gen == gen

/-- Rewrite a generation of a node. -/
def modGen (n : SkpNode) (gen : Nat) (f : SkpGen → SkpGen) : SkpNode :=
  { n with gens := n.gens.map fun x => if x.gen = gen then f x else x }

def State.genUpd (s : State) (g h gen : Nat) (f : SkpGen → SkpGen) : State :=
  s.modGroup g fun x => modSkpNode x h fun n => modGen n gen f

/-- SKP_GROUP_STATUS of a group. -/
def State.showGroup (s : State) (g : Nat) : State :=
  match s.skpGroup g with
  | none => s.setReg .SKP_GROUP_STATUS g 0
  | some x =>
    let mine := ((skpNode x 0).map fun n => n.ins.length).getD 0
    let open1 := x.nodes.any fun n => n.gens.any fun y => y.result.isNone
    let ab := match skpNode x 0 with
      | some n => (match n.gens.getLast? with | some y => (match y.result with | some (_, some _) => true | _ => false) | none => false)
      | none => false
    ((s.setFld F.SKP_GROUP_STATUS_MEMBERS g mine).setFld F.SKP_GROUP_STATUS_SLIP_LIMIT g x.limit).setFld
      F.SKP_GROUP_STATUS_STATE g (if open1 then 2 else if ab then 3 else 1)

/-- This chip's nodes of a group: the default tree over its members, its root as for its lowest rank (R190, R207). -/
def State.groupNodes (s : State) (slice : Nat) (ranks : List Nat) : List SkpNode :=
  let ms := (s.collMembers slice).filter fun m => ranks.contains m.1
  let low := (ms.head?.map (·.1)).getD 0
  let top := s.treeTop ms
  let on := fun (x : Nat × Nat) => x.1 == s.chip
  let has := fun (h : Nat) =>
    if h = 0 then ms.any fun m => m.2.1 == s.chip
    else if h = 1 then ms.any fun m => (s.treeParent ms low m.2.1 0).map on == some true
    else top == 2 && ms.any fun m => ((s.treeParent ms low m.2.1 0).bind fun x => s.treeParent ms low x.1 1).map on == some true
  ((List.range 3).filter has).map fun h =>
    { height := h, wing := if h = 2 then (leafWing ms s.chip + 2) % 4 else treeWing ms s.chip h, isRoot := h == top
      parent := if h = top then none else s.treeParent ms low s.chip h, ins := s.treeIns ms s.chip h, gens := [] }

/-- SKIP_GROUP (R207, Table 16.9): create or release a group. -/
def execSkipGroup (r : FwRef) (group slice : Fin 65536) (slip flags : Fin 256) (ranks : List Rank) (s : State) : Out :=
  act s fun s => s.mgrCommand r fun s =>
    let g := group.val
    if 1 < flags.val then s.finishFw r ACK_BAD_ARGUMENT 0
    else if flags.val = 1 then
      match s.skpGroup g with
      | none => s.finishFw r ACK_BAD_ARGUMENT 0
      | some x =>
        if s.groupNamed g ∨ x.waits ≠ [] then s.finishFw r ACK_STATE 0
        else
          let s1 := { s with coll := { s.coll with groups := s.coll.groups.filter fun y => y.num != g } }
          (s1.showGroup g).finishFw r ACK_OK g
    else
      let ms := s.collMembers slice.val
      let rs := ranks.map (·.val)
      if ms = [] ∨ (g ≠ 0xFFFF ∧ 4095 < g) ∨ rs.any (fun k => !ms.any fun m => m.1 == k) ∨ rs.eraseDups.length ≠ rs.length then
        s.finishFw r ACK_BAD_ARGUMENT 0
      else if g ≠ 0xFFFF ∧ (s.skpGroup g).isSome then s.finishFw r ACK_STATE 0
      else if 4096 ≤ s.coll.groups.length then s.finishFw r ACK_NO_RESOURCE 0
      else
        let (v, s1) := if g = 0xFFFF then s.fresh else (g, s)
        let num := if g = 0xFFFF then firstNotIn (s.coll.groups.map (·.num)) 0 4096 v 4097 else g
        let all := if rs = [] then ms.map (·.1) else (ms.map (·.1)).filter fun k => rs.contains k
        let x : SkpGroup := ⟨num, slice.val, all, if slip.val = 0 then 16 else slip.val, [], s.groupNodes slice.val all, []⟩
        (({ s1 with coll := { s1.coll with groups := s1.coll.groups ++ [x] } }).showGroup num).finishFw r ACK_OK num

/-! ### Messages (Table 9.9) -/

/-- The reduction that an OP of Table 7.4 names. -/
def skipRed (op : Nat) : Nat := match op with | 1 => RO_SUM | 2 => RO_MIN | 3 => RO_MAX | 4 => RO_AND | _ => RO_OR

def skpArg (g : Nat) (x : SkpGen) (abort down : Bool) : Nat :=
  x.gen * 2 ^ 32 + x.typ * 2 ^ 24 + bit abort * 2 ^ 20 + bit down * 2 ^ 19 + x.nvals * 2 ^ 16 + x.op * 2 ^ 12 + g

/-- A node of a wing sends a SKIPPER message; no code of Table 4.5 names a Skipper unit, so it goes to the wing's Accord
unit. -/
def State.sendSkp (s : State) (g : SkpGroup) (wing : Nat) (tgt : Nat × Nat) (x : SkpGen) (down : Bool)
    (abort : Option (Nat × Nat)) (vals : List Nat) : State :=
  let body := match abort with
    | some (n, m) => leBytes 2 n ++ List.replicate 6 0 ++ leBytes 8 m
    | none => if x.op = 0 then [] else (List.range 4).flatMap fun i => leBytes 8 (vals.getD i 0)
  s.source (0x81 + wing) (s.unitPacket (0x81 + wing) 0x20 0 tgt.1 (0x81 + tgt.2) 0 0 g.slice (skpArg g.num x abort.isSome down) body)

/-- What a node of a generation sends up: its combined values, or its abort. -/
def skpUp (n : SkpNode) (x : SkpGen) : List Nat × Option (Nat × Nat) :=
  if x.gone ≠ [] then ([], some x.aborted)
  else
    let vs := n.ins.filterMap fun i => (x.got.find? fun q => q.1 == i.rank).map (·.2)
    (match vs with
      | [] => []
      | v :: t => t.foldl (fun a b => (a.zip b).map fun q => combine (skipRed x.op) x.typ q.1 q.2) v, none)

/-! ### Results (R208, R213) -/

/-- A member's command ends with the result of its generation. -/
def State.finishWait (s : State) (g : SkpGroup) (wing : Nat) (w : SkpWait) (x : SkpGen) (vals : List Nat)
    (abort : Option (Nat × Nat)) : State :=
  let s := s.modRun w.queue w.index fun r => { r with slipped := r.slipped || x.slipped }
  match abort, w.coll with
  | some (n, m), _ =>
    let s1 := s.modRun w.queue w.index fun r => { r with missing := n, aux := m }
    if w.coll.isSome then s1.endAtChunk w.queue w.index 0 ST_ABORT_MEMBER else s1.endCmd w.queue w.index ST_ABORT_MEMBER 0
  | none, some (slice, num) =>
    (match s.collNode slice num 0 with
      | some n => s.countDone n w.rank (vals.getD 0 0) (vals.getD 1 0)
      | none => s)
  | none, none =>
    let bytes := (vals.take x.nvals).flatMap fun v => leBytes 8 v
    let s1 := match s.run w.queue w.index with
      | some r => if bytes = [] ∨ w.dst = 0 then s else s.storeAt (0x81 + wing) w.ctx r.epoch w.dst bytes
      | none => s
    s1.endCmd w.queue w.index ST_OK 1

/-- A node has the result of a generation: it goes to its children, and at a leaf to its members. -/
def State.skpResult (s : State) (g0 h gen : Nat) (vals : List Nat) (abort : Option (Nat × Nat)) : State :=
  match (s.skpGroup g0).bind fun g => (skpNode g h).bind fun n => (skpGen n gen).map fun x => (g, n, x) with
  | none => s
  | some (g, n, x) =>
    if x.result.isSome then s
    else
      let s1 := s.genUpd g0 h gen fun y => { y with result := some (vals, abort) }
      let s2 := n.ins.foldl (fun (t : State) i => match i.node with
        | some tgt => t.sendSkp g n.wing tgt x true abort vals
        | none => t) s1
      if h ≠ 0 then s2.showGroup g0
      else
        let mine := g.waits.filter fun w => w.gen == gen
        let s3 := s2.modGroup g0 fun y => { y with waits := y.waits.filter fun w => w.gen != gen }
        let s4 := mine.foldl (fun (t : State) w => t.finishWait g n.wing w x vals abort) s3
        (s4.setFld F.SKP_GROUP_STATUS_GEN g0 gen).showGroup g0

/-- Every input of a generation has come, or aborted: the node combines and sends up, or as the root ends the generation. -/
def State.skpAdvance (s : State) (g0 h gen : Nat) : State :=
  match (s.skpGroup g0).bind fun g => (skpNode g h).bind fun n => (skpGen n gen).map fun x => (g, n, x) with
  | none => s
  | some (g, n, x) =>
    let whole := n.ins.all fun i => x.got.any (fun q => q.1 == i.rank) || x.gone.contains i.rank
    if whole = false ∨ x.up ∨ x.result.isSome then s
    else
      let (vals, abort) := skpUp n x
      let s1 := (s.genUpd g0 h gen fun y => { y with up := true }).bump
        (if abort.isSome then F.SKP_EVENTS_ABORTS else F.SKP_EVENTS_OPS) n.wing
      match n.parent with
      | some tgt => s1.sendSkp g n.wing tgt x false abort vals
      | none => s1.skpResult g0 h gen vals abort

/-- The first input of a generation reaches a node. -/
def State.skpOpen (s : State) (g0 h gen op nvals typ : Nat) : State :=
  s.modGroup g0 fun g => modSkpNode g h fun n =>
    if (skpGen n gen).isSome then n
    else
      let x : SkpGen := ⟨gen, op, nvals, typ, [], true, 0, false, false, [], (0, 0), none⟩
      { n with gens := (n.gens ++ [x]).drop (n.gens.length + 1 - 256) }

/-- An input of a generation arrives: one that disagrees with the node's operation is not taken (R208). -/
def State.skpInput (s : State) (g0 h gen op nvals typ rank : Nat) (vals : List Nat) : State × Bool :=
  let s1 := s.skpOpen g0 h gen op nvals typ
  match (s1.skpGroup g0).bind fun g => (skpNode g h).bind fun n => skpGen n gen with
  | none => (s1, false)
  | some x =>
    if x.op ≠ op ∨ x.nvals ≠ nvals ∨ x.typ ≠ typ then (s1, false)
    else if x.got.any fun q => q.1 == rank then (s1, true)
    else ((s1.genUpd g0 h gen fun y => { y with got := y.got ++ [(rank, vals)] }).skpAdvance g0 h gen, true)

/-- A member takes its next generation on a group (R208, R214): the generation, and the state in which it is taken. -/
def State.nextGen (s : State) (g0 rank : Nat) : Nat × State :=
  match s.skpGroup g0 with
  | none => (0, s)
  | some g =>
    let gen := ((g.next.find? fun q => q.1 == rank).map (·.2)).getD 1
    (gen, s.modGroup g0 fun x => { x with next := (x.next.filter fun q => q.1 != rank) ++ [(rank, gen + 1)] })

/-- A member contributes to its generation: it waits for the result, or has it already, or disagrees with its node. -/
def State.contribute (s : State) (g0 : Nat) (w : SkpWait) (op nvals typ : Nat) (vals : List Nat) : State :=
  let early := (s.skpGroup g0).bind fun g => (skpNode g 0).bind fun n => (skpGen n w.gen).bind fun x => x.result.map fun y => (g, n, x, y)
  match early with
  | some (g, n, x, vals', abort) => s.finishWait g n.wing w x vals' abort
  | none =>
    let s1 := s.modGroup g0 fun x => { x with waits := x.waits ++ [w] }
    let (s2, ok) := s1.skpInput g0 0 w.gen op nvals typ w.rank vals
    if ok then s2.showGroup g0
    else
      let wing := (((s2.skpGroup g0).bind fun g => skpNode g 0).map (·.wing)).getD 0
      let s3 := (s2.modGroup g0 fun x => { x with waits := x.waits.filter fun y => y != w }).bump F.SKP_EVENTS_MISMATCHES wing
      if w.coll.isSome then s3.endAtChunk w.queue w.index 0 ST_DESC_MISMATCH else s3.endCmd w.queue w.index ST_DESC_MISMATCH 0

/-! ### The command (R208) -/

/-- The rank at which a context takes part: the one rank it is bound at (R186). -/
def State.rankOf (s : State) (c : Nat) : Option Nat :=
  match ((s.ctx c).bindings.map (·.rank)).eraseDups with
  | [r] => some r
  | _ => none

/-- The operands of a SKIP that Tables 7.4 and 9.9 give no meaning. -/
def skipOk (sl : List Byte) : Bool :=
  slotByte sl 34 == 0 || ((slotByte sl 36 == 0x13 || slotByte sl 36 == 0x14) && slotNum sl 40 8 % 8 == 0 && slotNum sl 48 8 % 8 == 0)

/-- SKIP (R207, R208): the member's next generation, with the values at SRC. -/
def execSkip (queue : Queue) (index : BitVec 32) (remote : List RemoteRead) (s : State) : Out :=
  act s fun s =>
    let q := queue.val
    let i := index.toNat
    match s.fresh? q i 0x02 with
    | none => s
    | some r =>
      let sl := r.slot
      let g := slotNum sl 32 2
      let op := slotByte sl 34
      let n := if op = 0 then 0 else slotByte sl 35
      if skipOk sl = false then s.endCmd q i ST_REFUSED_FORMAT 0
      else
        match s.rankOf r.ctx with
        | none => s.endCmd q i ST_REFUSED_STATE 0
        | some rank =>
          if ((s.skpGroup g).map fun x => x.ranks.contains rank) ≠ some true then s.endCmd q i ST_REFUSED_STATE 0
          else
            match s.readAt r.ctx (slotNum sl 40 8) (n * 8) remote with
            | none => s
            | some res =>
              let (gen, s1) := s.nextGen g rank
              let s2 := s1.modRun q i fun r => { r with begun := true }
              match res with
              | .error st => s2.endCmd q i st 0
              | .ok bs => s2.contribute g ⟨rank, gen, q, i, r.ctx, slotNum sl 48 8, none⟩ op n (if op = 0 then 0 else slotByte sl 36)
                  ((List.range n).map fun k => ofLe ((bs.drop (8 * k)).take 8))

/-! ### Receiving, repeating, slipping and aborting (R200, R208) -/

/-- SKIPPER_RECEIVE (R208): an upward message from a child, or the result from the parent. -/
def execSkipperReceive (unit : Fin 256) (p : Packet) (s : State) : Out :=
  act s fun s =>
    let a := p.arg.toNat
    let g0 := a % 4096
    let gen := a / 2 ^ 32
    let op := a / 2 ^ 12 % 16
    let nv := a / 2 ^ 16 % 8
    let typ := a / 2 ^ 24 % 256
    let vals := (List.range nv).map fun k => ofLe ((p.payload.drop (8 * k)).take 8)
    let ab := (ofLe (p.payload.take 2), ofLe ((p.payload.drop 8).take 8))
    let src := (p.srcChip.val, p.srcUnit.val - 0x81)
    if p.kind.val ≠ 0x20 then s
    else
      match s.skpGroup g0 with
      | none => s
      | some g =>
        if a.testBit 19 then
          match g.nodes.find? fun n => 0x81 + n.wing == unit.val && n.parent == some src with
          | some n => s.skpResult g0 n.height gen vals (if a.testBit 20 then some ab else none)
          | none => s
        else
          match g.nodes.find? fun n => 0x81 + n.wing == unit.val && n.ins.any fun i => i.node == some src with
          | none => s
          | some n =>
            let rank := ((n.ins.find? fun i => i.node == some src).map (·.rank)).getD 0
            match skpGen n gen with
            | some x =>
              match x.result with
              | some (v, abort) => s.sendSkp g n.wing src x true abort v
              | none =>
                if a.testBit 20 then
                  if x.gone.contains rank then s
                  else (s.genUpd g0 n.height gen fun y => { y with
                    gone := y.gone ++ [rank], aborted := (y.aborted.1 + ab.1, y.aborted.2 ||| ab.2) }).skpAdvance g0 n.height gen
                else (s.skpInput g0 n.height gen op nv typ rank vals).1
            | none =>
              if a.testBit 20 then
                let s1 := s.skpOpen g0 n.height gen op nv typ
                (s1.genUpd g0 n.height gen fun y => { y with gone := [rank], aborted := ab }).skpAdvance g0 n.height gen
              else (s.skpInput g0 n.height gen op nv typ rank vals).1

/-- SKIPPER_REPEAT (R208). -/
def execSkipperRepeat (group : Fin 4096) (height : Fin 3) (gen : BitVec 32) (s : State) : Out :=
  act s fun s =>
    match (s.skpGroup group.val).bind fun g => (skpNode g height.val).bind fun n => (skpGen n gen.toNat).map fun x => (g, n, x) with
    | some (g, n, x) =>
      (match n.parent with
        | some tgt =>
          if x.up ∧ x.result.isNone then
            let (vals, abort) := skpUp n x
            s.sendSkp g n.wing tgt x false abort vals
          else s
        | none => s)
    | none => s

/-- Ranks of the inputs that a generation lacks at a node. -/
def skpLacking (n : SkpNode) (x : SkpGen) : List Nat :=
  (n.ins.filter fun i => !(x.got.any fun q => q.1 == i.rank) && !x.gone.contains i.rank).flatMap (·.ranks)

/-- A generation slips at the end of its due wingbeat (R200, R208). -/
def State.skpSlip (s : State) (g0 h gen : Nat) : State :=
  match (s.skpGroup g0).bind fun g => (skpNode g h).bind fun n => (skpGen n gen).map fun x => (n, x) with
  | some (n, x) =>
    if 1 ≤ x.late ∧ x.result.isNone ∧ x.slipped = false ∧ skpLacking n x ≠ [] then
      s.genUpd g0 h gen fun y => { y with slipped := true }
    else s
  | none => s

/-- A generation aborts at its limit: the lacking ranks are missing (R200, R208). -/
def State.skpAbort (s : State) (g0 h gen : Nat) : State :=
  match (s.skpGroup g0).bind fun g => (skpNode g h).bind fun n => (skpGen n gen).map fun x => (g, n, x) with
  | some (g, n, x) =>
    let miss := skpLacking n x
    if g.limit + h + 1 ≤ x.late ∧ x.result.isNone ∧ x.up = false ∧ miss ≠ [] then
      let bits := (miss.filter fun r => decide (r < 64)).foldl (fun a r => a ||| 2 ^ r) 0
      (s.genUpd g0 h gen fun y => { y with
        gone := y.gone ++ (n.ins.filter fun i => !(x.got.any fun q => q.1 == i.rank) && !x.gone.contains i.rank).map (·.rank)
        aborted := (y.aborted.1 + miss.length, y.aborted.2 ||| bits) }).skpAdvance g0 h gen
    else s
  | none => s

/-- A tick passes for a slice that is not stopped: generations that wait grow later (R200). -/
def skpTick (g : SkpGroup) : SkpGroup :=
  { g with nodes := g.nodes.map fun n => { n with
    gens := n.gens.map fun x => if x.result.isNone then { x with late := x.late + 1 } else x } }

/-! ### Scheduled collectives (R243) -/

/-- A node of a loaded bouquet is a COLL node of this chip that members drive and whose descriptor has the digest, COUNT
being the command's. -/
def State.collEntry (s : State) (x : BqNode) (digest count : Nat) : Bool :=
  x.typ == 0x01 && x.chip == s.chip && slotNum x.param 72 2 == 0xFFFF && descDigest (x.param.take 64) count == digest

/-- Parts that commands may attach to: committed and not unloading. -/
def attachable (b : BqPart) : Bool := decide (1 ≤ b.state) && decide (b.state ≤ 3)

/-- The COLL node of a bouquet of the slice: handle, bouquet node, wing and slots. -/
def State.schedNode (s : State) (slice digest count : Nat) (p : BqPart → Bool) (q : BqNode → Bool) :
    Option (Nat × Nat × Nat × Nat) :=
  (s.hawk.parts.filter fun b => attachable b && b.slice == slice && p b).findSome? fun b =>
    ((b.bq.nodes.zip (List.range b.bq.nodes.length)).find? fun x => s.collEntry x.1 digest count && q x.1).map fun x =>
      (b.handle, x.2, x.1.wing, x.1.slots)

/-- The scheduled collective a COLL command attaches to (R243): posted on its member's queue of the member table, with the
node's digest. -/
def State.attachOf (s : State) (r : RunCmd) (d : List Byte) : Option (Nat × Nat × Nat × Nat) :=
  let count := slotNum r.slot 56 4
  s.schedNode (s.ctxSlice r.ctx) (descDigest d count) count
    (fun b => b.bq.members.any fun m => m.chip == s.chip && m.queue == r.queue) fun _ => true

end Sys2Proof.Machine
end

