-- ==== Sys2Proof/Machine/Bouquet.lean ====
section
/-! DEFINITION. Sys2Proof/Machine/Bouquet.lean: bouquet images and what the loader checks of them (R238 to R241).
(log entries of this file: DEDUCED 63, 64) -/

namespace Sys2Proof.Machine

/-! ### The image (R238, Tables 11.5 to 11.7) -/

def readNode (b : List Byte) : BqNode where
  typ := slotByte b 0
  flags := slotByte b 1
  wing := slotByte b 2
  threads := slotByte b 3
  chip := slotNum b 4 2
  first := slotNum b 6 2
  cores := slotNum b 8 2
  slots := slotNum b 10 2
  localBytes := slotNum b 12 4
  ctx := slotNum b 16 2
  sigCtr := slotNum b 18 2
  queue := slotNum b 20 2
  param := (b.drop 32).take 96

def readStep (b : List Byte) : BqStep where
  node := slotNum b 0 2
  offset := slotNum b 2 2
  cycles := slotNum b 4 2
  auto := (slotByte b 6).testBit 0
  opAllowed := (slotByte b 6).testBit 1
  accBytes := slotNum b 8 4

def readClaim (b : List Byte) : BqClaim where
  chip := slotNum b 0 2
  port := slotByte b 2
  dir := slotByte b 3
  offset := slotNum b 4 2
  units := slotNum b 6 2

def readMember (b : List Byte) : BqMember where
  chip := slotNum b 0 2
  port := slotByte b 2
  queue := slotNum b 4 2

/-- Entry `i` of a table of `n`-byte entries at an offset. -/
def entryAt (img : List Byte) (off n i : Nat) : List Byte := (img.drop (off + i * n)).take n

/-- The bouquet of an image, read at the places its header names. -/
def readBq (img : List Byte) : Bq :=
  let h := fun (o n : Nat) => slotNum img o n
  { variant := slotByte img 5, length := slotByte img 6, period := h 10 2, kernelMin := h 24 4, seed := h 32 8
    nodes := (List.range (h 8 2)).map fun i => readNode (entryAt img (h 40 4) 128 i)
    steps := (List.range (h 12 4)).map fun i => readStep (entryAt img (h 44 4) 16 i)
    claims := (List.range (h 20 4)).map fun i => readClaim (entryAt img (h 48 4) 8 i)
    members := (List.range (h 16 2)).map fun i => readMember (entryAt img (h 52 4) 8 i) }

def isPow2 (n : Nat) : Bool := n != 0 && 2 ^ Nat.log2 n == n

/-- The header of Table 11.5, and the sections in order without overlap. -/
def headerOk (img : List Byte) : Bool :=
  let h := fun (o n : Nat) => slotNum img o n
  let nodes := h 8 2
  let steps := h 12 4
  let members := h 16 2
  let claims := h 20 4
  decide (64 ≤ img.length) && h 0 4 == 0x51554F42 && slotByte img 4 == 1 && decide (slotByte img 5 < 3)
  && decide (slotByte img 6 < 4) && slotByte img 7 == 0 && decide (1 ≤ nodes) && decide (nodes ≤ 4096) && isPow2 (h 10 2)
  && decide (h 10 2 ≤ 4096) && decide (1 ≤ steps) && decide (steps ≤ 65536) && decide (1 ≤ members)
  && decide (members ≤ 32768) && h 18 2 == 0 && decide (claims ≤ 1048576) && h 28 4 == img.length
  && decide (img.length ≤ 16777216) && h 60 4 == 0
  && h 40 4 % 64 == 0 && h 44 4 % 64 == 0 && h 48 4 % 64 == 0 && h 52 4 % 64 == 0 && h 56 4 % 64 == 0
  && decide (64 ≤ h 40 4) && decide (h 40 4 + 128 * nodes ≤ h 44 4) && decide (h 44 4 + 16 * steps ≤ h 48 4)
  && decide (h 48 4 + 8 * claims ≤ h 52 4) && decide (h 52 4 + 8 * members ≤ h 56 4)
  && decide (h 56 4 + 64 + h (h 56 4 + 4) 4 ≤ img.length)

/-- Reserved fields of the entries (R11). -/
def entriesReserved (img : List Byte) : Bool :=
  let h := fun (o n : Nat) => slotNum img o n
  (List.range (h 8 2)).all (fun i =>
    let e := entryAt img (h 40 4) 128 i
    decide (slotByte e 1 < 2) && slotNum e 22 10 == 0 && decide (slotNum e 16 2 < 4096) && decide (slotNum e 20 2 < 16384))
  && (List.range (h 12 4)).all (fun i =>
    let e := entryAt img (h 44 4) 16 i
    decide (slotByte e 6 < 4) && slotByte e 7 == 0 && slotNum e 12 4 == 0)
  && (List.range (h 20 4)).all (fun i =>
    let e := entryAt img (h 48 4) 8 i
    decide (slotByte e 2 < 128) && decide (slotByte e 3 < 2))
  && (List.range (h 16 2)).all (fun i =>
    let e := entryAt img (h 52 4) 8 i
    decide (slotByte e 2 < 128) && slotByte e 3 == 0 && decide (slotNum e 4 2 < 16384) && slotNum e 6 2 == 0)

/-- The parameter area of a node (R233); `full` says it is PARAM or an ARG block of 96 bytes. -/
def nodeParamOk (n : BqNode) (param : List Byte) : Bool :=
  let v := params n.typ param
  paramRest n.typ param && paramOk n.typ n.cores v
  && (if n.typ = 0x15 then
        let k := pv v 5
        let tile := streamBytes (pv v 9) k * (pv v 6 / max 1 n.cores)
        let row := streamBytes (pv v 8) k
        decide (1 ≤ 65536 / max 1 row)
        && decide (tile + 2 * (min (pv v 4) (65536 / max 1 row) * row) + 8192 ≤ n.localBytes)
      else true)

/-- A COLL node's parameters: the descriptor, DST_OFF and INPUT_NODE (Table 11.2, R164); a node drives only the kinds without
an exchange block. -/
def collParamOk (nodes : Nat) (param : List Byte) : Bool :=
  let d := param.take 64
  let inp := slotNum param 72 2
  dKind d != 0x0A && descReserved d && fmtKnown (dIn d) && fmtKnown (dOut d)
  && (if isReduceKind (dKind d) then reductionOk (dOp d) (dIn d) (dOut d)
      else if dKind d = 9 then isFloat (dIn d) && isFloat (dOut d) && decide (dOp d ≤ 1)
      else dIn d == dOut d && dOp d == 0 && dRound d == 0)
  && zeroFrom param 74 && (inp == 0xFFFF || (decide (inp < nodes) && decide (dKind d ≤ 6)))

/-- A node entry (Table 11.6). -/
def nodeOk (b : Bq) (n : BqNode) : Bool :=
  decide (n.wing < 4) &&
  (if n.typ = 0x01 then n.threads == 0 && n.first == 0xFFFF && n.cores == 0 && collParamOk b.nodes.length n.param
   else paramSizes n.typ != [] && decide (1 ≤ n.threads) && decide (n.threads ≤ 32) && decide (1 ≤ n.cores)
    && decide (n.cores ≤ 96) && n.first / 96 == n.wing && (n.first + n.cores - 1) / 96 == n.wing && nodeParamOk n n.param
    && (n.typ != 0x15 || (n.flags == 1
        && (pv (params 0x15 n.param) 12 != 2
          || match b.nodes[pv (params 0x15 n.param) 7]? with
            | some c => c.typ == 0x01 && slotNum c.param 72 2 != 0xFFFF
            | none => false))))

/-- The K of the DISPATCH nodes equals that of every TOPK_GATE (R224). -/
def gatesAgree (b : Bq) : Bool :=
  (b.nodes.filter fun n => n.typ == 0x16).all fun g =>
    (b.nodes.filter fun n => n.typ == 0x01 && dKind n.param == 8).all fun c => pv (params 0x16 g.param) 6 == dK c.param

/-- Check 1 of Table 11.8. -/
def bqFormOk (img : List Byte) : Bool :=
  headerOk img && entriesReserved img &&
  let b := readBq img
  b.nodes.all (nodeOk b)
  && b.steps.all (fun st => decide (st.offset < b.period) && match b.nodes[st.node]? with
      | some n => (n.typ != 0x01 || st.cycles == 0) && (b.steps.filter fun x => x.node == st.node && x.offset == st.offset).length == 1
      | none => false)
  && b.claims.all (fun c => decide (c.offset < b.period))
  && b.nodes.all (fun n => !(b.members.any fun m => m.chip == n.chip && m.queue == n.queue))
  && gatesAgree b

/-- The chips that a load names (R239 step 1). -/
def bqChips (b : Bq) : List Nat :=
  onceEach (b.nodes.map (·.chip) ++ b.claims.map (·.chip) ++ b.members.map (·.chip))

/-! ### Placement (R227, R228, R247) -/

/-- Index of a logical core in SPR_MAP; its state and physical core. -/
def coreIx (wing k : Nat) : Nat := 512 + wing * 128 + k
def State.coreAbsent (s : State) (wing k : Nat) : Bool := s.fld F.SPR_MAP_STATE (coreIx wing k) == 2
def State.corePhys (s : State) (wing k : Nat) : Nat := s.fld F.SPR_MAP_PHYSICAL (coreIx wing k)

/-- Logical cores of a node, on its wing. -/
def nodeCores (n : BqNode) : List Nat := (List.range n.cores).map fun i => n.first % 96 + i

/-- Scheduled Hawk nodes of a bouquet at an offset, on a chip. -/
def nodesAt (b : Bq) (chip offset : Nat) : List BqNode :=
  (b.steps.filter fun st => st.offset == offset % max 1 b.period).filterMap fun st =>
    (b.nodes[st.node]?).bind fun n => if n.chip = chip ∧ n.typ ≠ 0x01 ∧ st.auto then some n else none

/-- Scheduled groups on a logical core at an offset. -/
def groupsOn (bs : List Bq) (chip wing core offset : Nat) : Nat :=
  (bs.map fun b => ((nodesAt b chip offset).filter fun n => n.wing == wing && (nodeCores n).contains core).length).sum

/-- Cores of a wing with a scheduled group at an offset. -/
def busyCores (bs : List Bq) (chip wing offset : Nat) : Nat :=
  ((List.range 96).filter fun c => groupsOn bs chip wing c offset != 0).length

def State.presentCores (s : State) (wing : Nat) : Nat := ((List.range 96).filter fun c => !s.coreAbsent wing c).length

/-- The bouquets whose claims this chip holds. -/
def State.heldBqs (s : State) : List Bq := s.hawk.parts.map (·.bq)

/-- HWK_BQ_STATUS, HWK_BQ_START, HWK_WING_STATUS and SCHED_CLAIMED show the parts held. -/
def State.showParts (s : State) : State :=
  let s1 := (List.range 64).foldl (fun (t : State) e =>
    match t.hawk.parts.find? fun b => b.entry == e && b.state != 0 with
    | some b =>
      let w := putBits (putBits (putBits (putBits 0 32 32 b.handle) 12 10 b.slice) 3 1 (bit b.degraded)) 0 3 b.state
      (t.setReg .HWK_BQ_STATUS e w).setReg .HWK_BQ_START e (putBits (putBits 0 48 13 b.bq.period) 0 48 b.start.toNat)
    | none => (t.setReg .HWK_BQ_STATUS e 0).setReg .HWK_BQ_START e 0) s
  let bs := s.heldBqs
  let live := s.hawk.parts.filter fun b => b.state != 0
  (List.range 4).foldl (fun t w =>
    let least := (bqOffsets bs).foldl (fun m o => min m (t.presentCores w - busyCores bs s.chip w o)) (t.presentCores w)
    let here := (live.filter fun b => b.bq.nodes.any fun n => n.chip == s.chip && n.wing == w).length
    let loaded := s.hawk.parts.filter fun b => b.handle != 0
    let claimed := (loaded.flatMap fun b => (b.bq.nodes.filter fun n => n.chip == s.chip && n.wing == w).map (·.slots)).sum
    ((t.setFld F.HWK_WING_STATUS_RESERVE_MIN w least).setFld F.HWK_WING_STATUS_BOUQUETS w here).setFld
      F.ACD_SLOTS_SCHED_CLAIMED w claimed) s1

/-! ### The checks (Tables 11.8 and 11.9) -/

/-- A refusal of this chip. -/
def State.refusal (s : State) (status resource : Nat) (index : Nat := 0) (offset : Nat := 0xFFFF) (need : Nat := 0)
    (limit : Nat := 0) : BqRefusal :=
  ⟨status, resource, s.chip, index, offset, need, limit⟩

/-- Rated Hawk clock of a variant code in MHz (Table 0.1). -/
def clockMhz (variant : Nat) : Nat := match variant with | 0 => 2000 | 1 => 1700 | _ => 1400

/-- Cycles the schedule may assign to a group (R32). -/
def assignable (variant len : Nat) : Nat := clockMhz variant * (2 * 2 ^ len) * 15 / 16

/-- Nodes of a bouquet on this chip with their numbers. -/
def State.ownNodes (s : State) (b : Bq) : List (BqNode × Nat) :=
  (b.nodes.zip (List.range b.nodes.length)).filter fun q => q.1.chip == s.chip

/-- The image's signature block fits its slice (R288, check 2): kind 0 unsealed, kind 2 with a tag that verifies sealed. -/
def State.bqSigned (s : State) (slice : Nat) (img : List Byte) : Bool :=
  let off := slotNum img 56 4
  let h := img.drop off
  let kind := slotByte h 0
  let dom := "EVZ-BOUQUET".toList.map fun c => BitVec.ofNat 8 c.toNat
  slotNum h 1 3 == 0 && slotNum h 8 32 == 0 && (h.drop 40).take 16 == dom ++ List.replicate 5 0#8 && slotNum h 56 8 == 0
  && (if s.isSealed slice then
        kind == 2 && slotNum h 4 4 == 32 && some ((h.drop 64).take 32) == s.bouquetTag slice (img.take off)
      else kind == 0 && slotNum h 4 4 == 0)

/-- An address range belongs to the slice (check 8): pages of this chip mapped in the node's context, pages of a chip or a
window of an endpoint of the slice. -/
def State.rangeOwned (s : State) (slice c a n : Nat) : Bool :=
  let ms := s.slicePlaces slice
  if isWindow a then ms.contains (addrChip a, windowPort a)
  else if addrChip a = s.chip then s.mapped c (addrOffset a) n
  else ms.any fun m => m.1 == addrChip a

/-- Check 8 on one node's addresses. -/
def State.nodeRangesOk (s : State) (slice : Nat) (n : BqNode) (param : List Byte) : Bool :=
  (paramRanges n.typ (params n.typ param)).all fun r => s.rangeOwned slice n.ctx r.1 r.2

/-- Check 8. -/
def State.bqOwned (s : State) (slice : Nat) (b : Bq) : Option BqRefusal :=
  let mine := fun (c : Nat) => s.ctxState c != 0 && s.ctxSlice c == slice
  let bad := fun (resource index : Nat) => some (s.refusal ST_REFUSED_AUTH resource index)
  ((s.ownNodes b).findSome? fun q =>
    let n := q.1
    if mine n.ctx = false then bad 0x0C q.2
    else if n.sigCtr ≠ 0xFFFF ∧ s.fld F.QUE_CTX_STATUS_EVT_COUNT n.ctx ≤ n.sigCtr then bad 0x0C q.2
    else if s.fld F.QUE_CFG_STATE n.queue = 0 ∨ s.queueCtx n.queue ≠ n.ctx then bad 0x0A n.queue
    else
      match bqGroup n with
      | some g => if s.ownsGroup n.ctx g then none else bad 0x08 g
      | none => if s.nodeRangesOk slice n n.param then none else bad 0x0B q.2).orElse fun _ =>
  ((b.members.filter fun m => m.chip == s.chip).findSome? fun m =>
    if s.fld F.QUE_CFG_STATE m.queue = 0 ∨ mine (s.queueCtx m.queue) = false then bad 0x0A m.queue else none)

/-- Check 9. -/
def State.bqPresent (s : State) (b : Bq) : Option BqRefusal :=
  ((s.ownNodes b).findSome? fun q =>
    ((nodeCores q.1).find? fun c => q.1.typ != 0x01 && s.coreAbsent q.1.wing c).map fun c =>
      s.refusal ST_BQ_ABSENT 0x01 (q.1.wing * 96 + c)).orElse fun _ =>
  ((b.claims.filter fun c => c.chip == s.chip).findSome? fun c =>
    let mode := s.fld F.PRT_CTL_MODE c.port
    if s.linkState c.port = PS_UP ∧ (mode = PM_EDGE ∨ (mode = PM_FABRIC ∧ c.dir = 0)) then none
    else some (s.refusal ST_BQ_ABSENT 0x07 c.port)).orElse fun _ =>
  ((s.ownNodes b).findSome? fun q => (bqGroup q.1).bind fun g =>
    if (List.range 16).all fun l => s.fld F.SPR_MAP_STATE (5 * 512 + q.1.wing * 128 + l) == 2 then
      some (s.refusal ST_BQ_ABSENT 0x08 g) else none)

/-- The first failing pair of an offset and an index, offsets first. -/
def firstAt (offs ixs : List Nat) (f : Nat → Nat → Option BqRefusal) : Option BqRefusal :=
  offs.findSome? fun o => ixs.findSome? fun i => f o i

/-- Check 10 (R240, Table 11.9), in ascending resource code. -/
def State.bqFits (s : State) (b : Bq) : Option BqRefusal :=
  let bs := s.heldBqs ++ [b]
  let offs := bqOffsets bs
  let chip := s.chip
  let len := s.fld F.FT_WB_CTL_LENGTH
  let no := fun (resource index offset need limit : Nat) =>
    if limit < need then some (s.refusal ST_REFUSED_FIT resource index offset need limit) else none
  let wings := List.range 4
  let cores := onceEach ((s.ownNodes b).flatMap fun q => if q.1.typ = 0x01 then [] else
    (nodeCores q.1).map fun c => q.1.wing * 96 + c)
  (firstAt offs cores fun o c => no 1 c o (groupsOn bs chip (c / 96) (c % 96) o) 1).orElse fun _ =>
  (cores.findSome? fun c => no 2 c 0xFFFF (bs.map fun x => ((x.nodes.filter fun n =>
    n.chip == chip && n.typ != 0x01 && n.wing == c / 96 && (nodeCores n).contains (c % 96)).map (·.localBytes)).sum).sum
    1507328).orElse fun _ =>
  ((b.steps.filter fun st => (b.nodes[st.node]?).map (·.chip) == some chip).findSome? fun st =>
    no 3 st.node st.offset st.cycles (assignable b.variant len)).orElse fun _ =>
  (firstAt offs wings fun o w => no 4 w o (busyCores bs chip w o) (s.presentCores w - 4)).orElse fun _ =>
  (wings.findSome? fun w => no 5 w 0xFFFF (bs.map fun x => ((x.nodes.filter fun n =>
    n.chip == chip && n.wing == w).map (·.slots)).sum).sum 1792).orElse fun _ =>
  (firstAt offs wings fun o w =>
    let lanes := ((List.range 64).filter fun l => s.fld F.SPR_MAP_STATE (2 * 512 + w * 128 + l) == 2).length
    no 6 w o (bs.map fun x => ((x.steps.filter fun st => st.offset == o % max 1 x.period
        && (match x.nodes[st.node]? with | some n => n.chip == chip && n.wing == w | none => false)).map (·.accBytes)).sum).sum
      (12000000 * 2 ^ len * (64 - lanes) / 64)).orElse fun _ =>
  (firstAt offs (onceEach ((b.claims.filter fun c => c.chip == chip).map fun c => c.dir * 128 + c.port)) fun o k =>
    no 7 (k % 128) o (unitsAt bs chip (k % 128) (k / 128) o) (portUnits len (s.linkWidth (k % 128)))).orElse fun _ =>
  (onceEach ((s.ownNodes b).filterMap fun q => bqGroup q.1)).findSome? (fun g =>
    no 8 g 0xFFFF ((s.heldBqs.filter fun x => x.nodes.any fun n => bqGroup n == some g).length + 1) 1) |>.orElse fun _ =>
  no 9 0 0xFFFF bs.length 64

/-- Checks 3 to 10. A chip left without a fresh base pair refuses every load (R28). -/
def State.bqChecks (s : State) (slice : Nat) (b : Bq) (kernel : Nat) : Option BqRefusal :=
  let no := fun (st : Nat) => some (s.refusal st 0)
  if s.time.stale ∨ (s.sliceEntry slice).isNone ∨ s.sliceHeld slice then no ST_REFUSED_STATE
  else if clockMhz Config.variant.val < clockMhz b.variant then no ST_BQ_VARIANT
  else if b.length ≠ s.fld F.FT_WB_CTL_LENGTH then no ST_BQ_LENGTH
  else if kernel < b.kernelMin then no ST_BQ_KERNEL
  else if (b.members.map fun m => (m.chip, m.port)) ≠ s.slicePlaces slice then no ST_BQ_SHAPE
  else (s.bqOwned slice b).orElse fun _ => (s.bqPresent b).orElse fun _ => s.bqFits b

/-! ### Active images of a class (R336) -/

def State.activeBuild (s : State) (cls : Nat) : Nat := ((s.fw.active.find? fun x => x.1 == cls).map (·.2.1)).getD 0

/-- A staged image of a class becomes the active one. -/
def State.activate' (s : State) (cls : Nat) : State :=
  match s.fw.staged.find? fun x => x.1 == cls with
  | some x => { s with fw := { s.fw with
      active := (s.fw.active.filter fun y => y.1 != cls) ++ [x], staged := s.fw.staged.filter fun y => y.1 != cls } }
  | none => s

/-- A staged Hawk kernel becomes active at a bouquet load and extends the KERNEL chain (R291, R336). -/
def State.startKernel (s : State) : State :=
  match s.fw.staged.find? fun x => x.1 == 1 with
  | some x => (s.activate' 1).measureKernel x.2.2
  | none => s

/-- The loader on one chip (Table 11.8): the state after the checks, and the refusal. A bouquet that passes check 2 is measured
into the slice's chain (R291). -/
def State.loadCheck (s0 : State) (slice : Nat) (img : List Byte) : State × Option BqRefusal :=
  let s := s0.startKernel
  if bqFormOk img = false then (s, some (s.refusal ST_REFUSED_FORMAT 0))
  else if s.bqSigned slice img = false then
    (if s.isSealed slice then s.bump F.SEC_SEAL_EVENTS_TAG_FAILS else s, some (s.refusal ST_REFUSED_AUTH 0))
  else
    let s1 := s.measureSlice slice 6 (Config.shake256 (img.take (slotNum img 56 4)))
    (s1, s1.bqChecks slice (readBq img) (s1.activeBuild 1))

end Sys2Proof.Machine
end

