-- ==== Sys2Proof/Machine/Collective.lean ====
section
/-! DEFINITION. Sys2Proof/Machine/Collective.lean: COLL commands, grants, reduction at the nodes of a tree, results, spill,
slip and abort (R185 to R206).
(log entries of this file: DEDUCED 51, 52, 53, 54, 55, 56, 58) -/

namespace Sys2Proof.Machine

/-! ### Lateness (R203) -/

/-- The histogram bin of a lateness in FTU. -/
def lateBin (d : Nat) : Fld :=
  if d < 1600 then F.ACD_LATE_HIST_BIN0 else if d < 16000 then F.ACD_LATE_HIST_BIN1
  else if d < 160000 then F.ACD_LATE_HIST_BIN2 else F.ACD_LATE_HIST_BIN3

/-- A member's first packet of a chunk reaches its leaf `d` FTU after the chunk's first arrival. -/
def State.noteLate (s : State) (slice rank d : Nat) : State :=
  let s1 := s.bump (lateBin d) slice
  let v := min d (2 ^ 32 - 1)
  if s.flag F.ACD_SLOWEST_VALID slice ∧ v ≤ s.fld F.ACD_SLOWEST_LATENESS slice then s1
  else ((s1.setFld F.ACD_SLOWEST_RANK slice rank).setFld F.ACD_SLOWEST_LATENESS slice v).setFld F.ACD_SLOWEST_VALID slice 1

/-- An input's first packet of a chunk has come (R200, R203). -/
def State.noteFirst (s : State) (n : CollNode) (dst num input : Nat) : State :=
  let c := ((nodeChunk (s.nodeNow n) dst num).getD (CollChunk.blank dst num))
  if c.seen.contains input then s
  else
    let t0 := c.first.getD s.ftu.toNat
    let s1 := s.chunkUpd n dst num fun x => { x with first := some t0, seen := x.seen ++ [input] }
    match n.ins.find? fun i => i.rank == input with
    | some i => if n.height = 0 ∧ i.node.isNone then s1.noteLate n.slice input (s.ftu.toNat - t0) else s1
    | none => s1

/-! ### Results at a tree node (R196, R197) -/

/-- A tree leaf's result reaches one member: the part of it that is the member's goes to DST, and the rest counts as come
(R187, Table 9.2). -/
def State.giveTree (s : State) (n : CollNode) (m : CollMember) (c : CollChunk) (bs : List Byte) : State :=
  let p := nodeP s n
  let (at', len) := chunkSpan (dChunk n.desc) (srcBlocks n.desc n.count p) c.num
  let base := if dKind n.desc = 3 then m.rank * (n.count / max 1 p) else 0
  let mine := match dKind n.desc with
    | 2 => m.rank == dRoot n.desc
    | 3 => at' / max 1 (n.count / max 1 p) == m.rank
    | _ => true
  let s1 := s.modRun m.queue m.index fun r => { r with slipped := r.slipped || c.slipped, spilled := r.spilled || c.spilled }
  if mine then
    match s1.run m.queue m.index with
    | none => s1
    | some r =>
      let last := r.own.2 - r.own.1 ≤ r.issued + len
      (s1.modRun m.queue m.index fun r => { r with issued := r.issued + len }).sendResult n m c.num at' len
        (m.dst + streamBytes (dOut n.desc) (at' - base)) c.slipped (passedSpill n c.num) last bs
  else s1.collLanded m.queue m.index at' len

/-- Send a packet stream of a result or of final codes down to a child node (R196). -/
def State.sendDown (s : State) (n : CollNode) (tgt : Nat × Nat) (ret : Nat × Bool) (num : Nat) (codes slipped spilled abort : Bool)
    (bs : List Byte) : State :=
  let unit := 0x81 + n.wing
  let h := slotHandle tgt.1 tgt.2 ret.1 ret.2 0 false n.num
  (if bs = [] then [(0, [])] else pieces bs).foldl (fun (t : State) q =>
    t.source unit (t.collPacket unit 0x11 4 tgt.1 (0x81 + tgt.2) n.owner n.epoch n.slice h
      (chunkField num codes slipped spilled abort q.1) q.2) (some ⟨16384 + n.slice, n.num, num, 0, none⟩)) s

/-- The slot of a child that takes a chunk's result. -/
def retOf (c : CollChunk) (rank : Nat) : Nat × Bool :=
  match c.rets.find? fun q => q.1 == rank with
  | some q => (q.2.1, q.2.2)
  | none => (0, false)

/-- Serve a chunk's result to every input not yet served: children at once, members once their command runs (R196, R200). -/
def State.serveTree (s : State) (n0 : CollNode) (num : Nat) : State :=
  let n := s.nodeNow n0
  match nodeChunk n 0xFFFF num with
  | none => s
  | some c =>
    match c.result with
    | none => s
    | some bs =>
      n.ins.foldl (fun (t : State) i =>
        if c.served.contains i.rank then t
        else
          let mark := fun (t : State) => t.chunkUpd n 0xFFFF num fun x => { x with served := x.served ++ [i.rank] }
          match i.node with
          | some tgt => (mark t).sendDown n tgt (retOf c i.rank) num false c.slipped (c.spilled || n.phase == .spilled) false bs
          | none =>
            match memberOf n i.rank with
            | some m => if n.bad.contains i.rank then mark t
                else if t.canServe n m then (mark t).giveTree n m c bs else t
            | none => if n.bad.contains i.rank then mark t else t) s

/-! ### Aborts (R201, R202) -/

/-- The ranks a tree node's chunk lacks, with those that its aborted inputs name (R201). -/
def missingBits (n : CollNode) (c : CollChunk) : Nat :=
  let coding := dFixed n.desc && c.codes.isNone
  let has := fun (i : CollIn) => (if coding then c.codesIn.any fun q => q.1 == i.rank else c.parts.any fun q => q.input == i.rank)
    || c.aborts.any fun q => q.1 == i.rank
  let ranks := (n.ins.filter fun i => !has i || n.bad.contains i.rank).flatMap (·.ranks)
  c.aborts.foldl (fun a q => a ||| q.2) (ranks.foldl (fun a r => a ||| 2 ^ r) 0)

/-- The number of ranks a bitmap marks. -/
def popCount (b : Nat) : Nat := ((List.range 65536).filter fun i => b.testBit i).length

/-- A leaf's members end at a chunk with a bitmap (R201, R202): the bitmap goes to DETAIL, and the status says whether anyone
is missing. -/
def State.abortMembers (s : State) (n : CollNode) (chunk bits : Nat) : State :=
  n.members.foldl (fun (t : State) m =>
    match t.run m.queue m.index with
    | none => t
    | some _ =>
      let t1 := if m.detail ≠ 0 ∧ bits ≠ 0 then t.storeAt (0x81 + n.wing) m.ctx m.epoch m.detail (leBytes 4096 bits) else t
      let t2 := t1.modRun m.queue m.index fun r => { r with
        missing := popCount bits, aux := bits % 2 ^ 64, detail := if m.detail ≠ 0 ∧ bits ≠ 0 then m.detail else r.detail }
      t2.endAtChunk m.queue m.index chunk (if bits = 0 then ST_PARENT_LOST else ST_ABORT_MEMBER)) s

/-- The final bitmap reaches a node: children are told, and a leaf ends its members (R201). -/
def State.abortDown (s : State) (n0 : CollNode) (num bits : Nat) : State :=
  let n := s.nodeNow n0
  let c := (nodeChunk n 0xFFFF num).getD (CollChunk.blank 0xFFFF num)
  let s1 := s.modNode n fun x => { x with cut := some (match x.cut with
    | some (k, b) => if k ≤ num then (k, b) else (num, bits)
    | none => (num, bits)) }
  let s2 := s1.chunkUpd n 0xFFFF num fun x => { x with abort := some bits, result := none }
  if n.height = 0 then s2.abortMembers n num bits
  else n.ins.foldl (fun (t : State) i => match i.node with
    | some tgt => t.sendDown n tgt (retOf c i.rank) num false c.slipped c.spilled true (leBytes 4096 bits)
    | none => t) s2

/-- Chunks aborted with a chunk: it and every later one (R201). -/
def State.countAborts (s : State) (n : CollNode) (num : Nat) : State :=
  s.bump F.ACD_EVENTS_ABORTS n.wing ((if isExchangeNode n then num + 1 else s.treeChunks n) - num)

/-- A node sends its ABORT up under the grant it holds (R201). -/
def State.abortUp (s : State) (n : CollNode) (c : CollChunk) (bits : Nat) : State :=
  match (if c.grant.isSome then c.grant else c.codeGrant) with
  | some g =>
    let s1 := s.sendUp n g c.num (c.grant.isNone) c.slipped true 0 0xFFFF 0xFFFF (leBytes 4096 bits)
    s1.chunkUpd n 0xFFFF c.num fun x => { x with sent := true }
  | none => s

/-- A node aborts a chunk (R201): the root answers with the final bitmap, any other node sends it up. -/
def State.abortNode (s : State) (n0 : CollNode) (num bits : Nat) : State :=
  let n := s.nodeNow n0
  let c := (nodeChunk n 0xFFFF num).getD (CollChunk.blank 0xFFFF num)
  if c.abort.isSome then s
  else
    let s1 := s.countAborts n num
    let s2 := s1.modNode n fun x => { x with cut := some ((x.cut.map fun q => (min q.1 num, q.2)).getD (num, bits)) }
    let s3 := s2.chunkUpd n 0xFFFF num fun x => { x with abort := some bits }
    if n.isRoot then s3.abortDown n num bits
    else s3.abortUp n { c with abort := some bits } bits

/-- A chunk with an aborted input aborts once every input has come (R201). -/
def State.abortIfWhole (s : State) (n0 : CollNode) (num : Nat) : State :=
  let n := s.nodeNow n0
  match nodeChunk n 0xFFFF num with
  | some c =>
    let coding := dFixed n.desc && c.codes.isNone
    let whole := n.ins.all fun i => c.aborts.any (fun q => q.1 == i.rank) ||
      (if coding then c.codesIn.any fun q => q.1 == i.rank else c.parts.any fun q => q.input == i.rank)
    if c.aborts ≠ [] ∧ whole then s.abortNode n num (missingBits n c) else s
  | none => s

/-! ### Grants (R193 to R196) -/

/-- Grant an input its slot: a member that takes part, or a child node (R193). -/
def State.grantInput (s : State) (n : CollNode) (i : CollIn) (num slot : Nat) (codes : Bool) : State :=
  let slipped := ((nodeChunk n 0xFFFF num).map (·.slipped)).getD false
  let f := chunkField num codes slipped (n.phase == .spilled) false 0
  match i.node with
  | some tgt => s.sendGrant n tgt.1 (0x81 + tgt.2) n.owner n.epoch (handleOf s n slot) f 0xFFFF 0xFFFF
  | none =>
    match memberOf n i.rank with
    | some m =>
      (match m.unit with
        | some u => if s.memberRuns m ∧ !n.bad.contains i.rank then
            s.sendGrant n u.1 u.2 m.ctx m.epoch (handleOf s n slot) f i.rank 0xFFFF else s
        | none => s)
    | none => s

/-- A node asks its parent for room for a chunk (R194). -/
def State.askParent (s : State) (n : CollNode) (num : Nat) : State :=
  match n.parent with
  | some tgt => s.sendGrant n tgt.1 (0x81 + tgt.2) n.owner n.epoch (n.digest * 2 ^ 32 + n.num)
      (chunkField num false false (n.phase == .spilled) false 1) 0xFFFF 0xFFFF
  | none => s

/-- Send a tree node's partial up under its grant (R172, R181, R199). -/
def State.sendPartial (s : State) (n : CollNode) (num : Nat) : State :=
  match nodeChunk n 0xFFFF num with
  | some c =>
    (match c.abort, c.out, c.grant with
      | some bits, _, _ => if c.sent then s else s.abortUp n c bits
      | none, some (bs, res), some g =>
        if c.sent then s
        else
          let ret := c.acc.getD 0
          let h := g + ret * 2 ^ 21 + bit (n.phase == .spilled) * 2 ^ 20
          (s.chunkUpd n 0xFFFF num fun x => { x with sent := true, since := 0 }).sendUp n h num false c.slipped false res 0xFFFF 0xFFFF bs
      | _, _, _ => s)
  | none => s

/-- Send a node's codes up, once it has those of every input and the parent's code grant (R176, R196). -/
def State.sendCodes (s : State) (n : CollNode) (num : Nat) : State :=
  match nodeChunk n 0xFFFF num with
  | some c =>
    let whole := n.ins.all fun i => c.codesIn.any fun q => q.1 == i.rank
    let codes := c.codesIn.foldl (fun (a : List Nat) q => if a = [] then q.2 else (a.zip q.2).map fun x => max x.1 x.2) []
    if whole = false ∨ c.codesUp ∨ c.abort.isSome then s
    else if n.isRoot then
      let s1 := s.chunkUpd n 0xFFFF num fun x => { x with codesUp := true, codes := some codes }
      n.ins.foldl (fun (t : State) i => match i.node with
        | some tgt => t.sendDown n tgt (retOf c i.rank) num true c.slipped c.spilled false (codes.map fun v => BitVec.ofNat 8 v)
        | none => t) s1
    else
      (match c.codeGrant with
        | some g =>
          let h := g + (c.acc.getD 0) * 2 ^ 21 + bit (n.phase == .spilled) * 2 ^ 20
          (s.chunkUpd n 0xFFFF num fun x => { x with codesUp := true }).sendUp n h num true c.slipped false 0 0xFFFF 0xFFFF
            (codes.map fun v => BitVec.ofNat 8 v)
        | none => s)
  | none => s

/-! ### Assigning slots (R193, R196) -/

/-- Input items a feed's slot can be freed for (R193): a reduction in order adds an input once every one before it is in. -/
def feedDone (s : State) (n : CollNode) (f : CollFeed) : Bool :=
  if isExchangeNode n then
    if f.codes then n.chunks.any fun c => c.num == f.chunk && (c.dst == 0xFFFE || c.dst == 0xFFFD) && c.parts.any fun q => q.input == f.input
    else
      let whole := match n.ins.find? fun i => i.rank == f.input with
        | some i => match i.node, memberOf n f.input with
          | none, some m => allPieces f.pkts (streamBytes (dIn n.desc) (feedSpan n (nodeP s n) m f.chunk).2)
          | none, none => false
          | some _, _ => !(n.chunks.any fun c => c.dst == f.dst && c.num == f.chunk && !(c.parts.any fun q => q.input == f.input)) && f.pkts != []
        | none => false
      whole && !(n.outs.any fun o => o.src == f.input && !o.sent)
  else
    match nodeChunk n 0xFFFF f.chunk with
    | none => true
    | some c =>
      let have' := fun (r : Nat) => c.parts.any fun q => q.input == r
      let ordered := dOp n.desc == RO_SUM && isFloat (dIn n.desc)
      have' f.input && (!ordered || (n.ins.takeWhile fun i => i.rank != f.input).all fun i => have' i.rank)

/-- Free the slots whose items are done: inputs added or forwarded, and chunks whose result everyone has acknowledged. -/
def State.releaseItems (s : State) (n0 : CollNode) : State :=
  let n := s.nodeNow n0
  let s1 := s.modNode n fun x => { x with feeds := x.feeds.filter fun f => !feedDone s n f }
  let gone := fun (c : CollChunk) => c.acc.isSome && c.result.isSome && (n.ins.all fun i => c.served.contains i.rank)
    && !s1.downOpen n c.num
  s1.modNode n fun x => { x with chunks := x.chunks.filter fun c => !gone c }

/-- Chunks that a node works through. -/
def itemLimit (s : State) (n : CollNode) : Nat :=
  let all := if isExchangeNode n then
      (n.members.map fun m => if m.unit.isSome then feedCount n (nodeP s n) m else 0).foldl max 0
    else s.treeChunks n
  match n.stopAt with
  | some k => min k all
  | none => all

/-- Assign a slot to an item of a tree node: ACC(c) first, then IN(c, j) in order (R193); in SUM_FIXED the data items wait for
the final codes (R196). -/
def State.assignTree (s : State) (n : CollNode) (slot : Nat) : State :=
  let (c, j) := n.next
  let m := n.ins.length
  let bump := fun (x : CollNode) => { x with next := if j = m then (c + 1, 0) else (c, j + 1) }
  if j = 0 then
    let s1 := s.modNode n fun x => bump (modChunk x 0xFFFF c fun y => { y with acc := some slot })
    let s2 := s1.askParent n c
    if dFixed n.desc then n.ins.foldl (fun (t : State) i => t.grantInput n i c slot true) s2 else s2
  else if dFixed n.desc ∧ ((nodeChunk n 0xFFFF c).bind (·.codes)).isNone then s
  else
    match n.ins[j - 1]? with
    | none => s
    | some i =>
      let s1 := s.modNode n fun x => bump { x with feeds := x.feeds ++ [⟨slot, i.rank, 0xFFFF, c, false, []⟩] }
      s1.grantInput n i c slot false

/-- Assign a slot to an item of an exchange leaf: the next chunk of the next member that has one. -/
def State.assignExchange (s : State) (n : CollNode) (slot : Nat) : State :=
  let (c, j) := n.next
  let locals := n.ins.filter fun i => i.node.isNone
  match locals[j]? with
  | none => s.modNode n fun x => { x with next := (c + 1, 0) }
  | some i =>
    match memberOf n i.rank with
    | none => s
    | some m =>
      let waits : Bool := match m.x with | some x => dKind n.desc != 9 && x.phase != 2 | none => false
      if waits ∧ !n.bad.contains i.rank then s
      else
        let s1 := s.modNode n fun x => { x with next := (c, j + 1) }
        if m.unit.isSome ∧ c < feedCount n (nodeP s n) m ∧ !n.bad.contains i.rank then
          (s1.modNode n fun x => { x with feeds := x.feeds ++ [⟨slot, i.rank, 0xFFFF, c, false, []⟩] }).grantInput n i c slot false
        else s1

/-- Give a peer leaf the room it asked for (R191, R193). -/
def State.assignPeer (s : State) (n : CollNode) (slot : Nat) (a : CollAsk) : State :=
  let s1 := s.modNode n fun x => { x with
    asked := x.asked.filter fun y => y != a
    feeds := x.feeds ++ [⟨slot, if a.codes then a.chip else a.src, a.dst, a.chunk, a.codes, []⟩] }
  s1.sendGrant n a.chip (0x81 + a.wing) n.owner n.epoch (handleOf s n slot)
    (chunkField a.chunk a.codes false (n.phase == .spilled) false 0) a.src a.dst

/-- The node that a NodeId names. -/
def State.nodeOf (s : State) (i : NodeId) : Option CollNode :=
  match i with
  | .coll slice num h => s.collNode slice.val num.toNat h.val
  | .skip _ _ => none

/-- SLOT_ASSIGN (R193, R196): free what is done, then assign one slot; a result held back goes on where it now may. -/
def execSlotAssign (node : NodeId) (s : State) : Out :=
  act s fun s =>
    match s.nodeOf node with
    | none => s
    | some n0 =>
      let s0 := if isExchangeNode n0 then (s.serveExchange n0).serveCombine n0
        else n0.chunks.foldl (fun (t : State) c => t.serveTree n0 c.num) s
      let s1 := s0.releaseItems n0
      let n := s1.nodeNow n0
      if nodeActive n = false ∨ n.cut.isSome then s1
      else
        let own := (ownSlots n).find? fun k => !slotBusy n k
        let peer := (peerSlots n).find? fun k => !slotBusy n k
        let s2 := match peer, n.asked with
          | some k, a :: _ => s1.assignPeer n k a
          | _, _ => s1
        let n2 := s2.nodeNow n
        match own with
        | some k => if n2.next.1 < itemLimit s2 n2 then
            (if isExchangeNode n2 then s2.assignExchange n2 k else s2.assignTree n2 k) else s2
        | none => s2

/-! ### Starting (R185 to R187, R192) -/

/-- Nodes whose collective is over: a leaf whose members have all started and ended, a higher node with nothing left. -/
def State.nodeOver (s : State) (n : CollNode) : Bool :=
  if n.height = 0 then
    let locals := ranksAt (s.collMembers n.slice) s.chip
    (locals.all fun r => (memberOf n r).isSome || n.bad.contains r) && n.members.all (fun m => !s.memberRuns m)
      && n.outs.all (fun o => o.sent || n.cut.isSome)
  else
    (n.chunks.all fun c => c.abort.isSome || c.result.isSome && (n.ins.all fun i => c.served.contains i.rank) && !s.downOpen n c.num)
      && (n.cut.isSome || itemLimit s n ≤ n.next.1 && n.sched.isNone)

/-- A leaf that has ended its collective early and has no running member holds nothing more: its slots are free, and it stays for
the members still to come (R193, R201). -/
def State.nodeQuiet (s : State) (n : CollNode) : Bool :=
  n.height == 0 && n.cut.isSome && n.slots != [] && n.members.all fun m => !s.memberRuns m

/-- Drop the nodes whose collective is over, and free the slots of those that only wait for late members. -/
def State.sweepNodes (s : State) : State :=
  let s1 := (s.coll.nodes.filter fun n => s.nodeOver n).foldl (fun (t : State) n => t.dropNode n none) s
  (s1.coll.nodes.filter fun n => s1.nodeQuiet n).foldl (fun (t : State) n =>
    (t.modNode n fun x => { x with slots := [], feeds := [] }).showSlots) s1

/-- The contributor of a member (R187): the endpoint whose window holds SRC, or the Nectar controller that holds it; none
where the kind makes the member send nothing. -/
def contributorOf (d : List Byte) (rank port chip src : Nat) : Option (Nat × Nat) :=
  if dKind d = 5 ∧ rank ≠ dRoot d then none
  else if isWindow src ∧ addrChip src = chip ∧ windowPort src = port then some (chip, port)
  else if isWindow src then some (addrChip src, windowPort src)
  else some (addrChip src, addrUnit src)

/-- A new leaf for a slice's collective, acting for the context of its first member (R190, R192). -/
def State.newLeaf (s : State) (slice c : Nat) (d : List Byte) (count : Nat) (sched : Option (Nat × Nat × Nat × Nat)) : CollNode :=
  let ms := s.collMembers slice
  let ex := isExchangeKind (dKind d)
  { slice := slice, num := dNum d % 2 ^ 32, height := 0
    wing := (match sched with | some (_, _, w, _) => w | none => leafWing ms s.chip)
    isRoot := ex, top := if ex then 0 else s.treeTop ms
    parent := if ex then none else s.treeParent ms (dRoot d) s.chip 0
    owner := c, epoch := s.ctxEpoch c, sched := sched.map fun x => (x.1, x.2.1), desc := d, count := count
    digest := descDigest d count
    size := (match sched with | some (_, _, _, k) => k | none => dSlots d)
    ins := if ex then exchangeIns ms s.chip d else s.treeIns ms s.chip 0
    members := [], bad := []
    phase := if sched.isSome then .scheduled else .waiting 0
    slots := [], next := (0, 0), feeds := [], chunks := [], outs := [], asked := [], cut := none, stopAt := none }

/-- Put a new node in: a scheduled one has its claimed slots, another takes or waits for dynamic ones (R192, R198). -/
def State.addNode (s : State) (n : CollNode) : State :=
  let n1 := if n.phase = .scheduled then { n with slots := s.findSlots n.wing n.size .scheduled } else n
  let s1 := { s with coll := { s.coll with nodes := s.coll.nodes ++ [n1] } }
  if n.phase = .scheduled then s1.showSlots else s1.takeSlots n1

/-- A collective of the context with this tag runs already, or the context is in this one (R186). -/
def State.tagClash (s : State) (slice num c : Nat) : Bool :=
  s.coll.nodes.any fun n => n.height == 0 && n.num % 65536 == num % 65536 && n.members.any fun m =>
    m.ctx == c && (s.memberRuns m || (n.slice == slice && n.num == num))

/-- Elements of the member's whole DST and the stretch of the collective that is its own (R187, R197). -/
def ownSpan (d : List Byte) (count p rank : Nat) : List Nat × Nat × Nat :=
  let bs := srcBlocks d count p
  match dKind d with
  | 2 => (bs, 0, if rank = dRoot d then count else 0)
  | 3 => (bs, rank * (count / max 1 p), (rank + 1) * (count / max 1 p))
  | 4 => (List.replicate p count, 0, p * count)
  | 6 => (bs, 0, bs.sum)
  | 7 => ([], 0, 0)
  | 8 => ([], 0, 0)
  | 9 => ([count * dRow d], 0, count * dRow d)
  | _ => (bs, 0, bs.sum)

/-- A member joins its leaf: grants that waited for it are sent, and results held for it are delivered (R193, R200). -/
def State.joinLeaf (s : State) (n0 : CollNode) (m : CollMember) : State :=
  let s1 := s.modNode n0 fun x => { x with members := x.members ++ [m] }
  let n := s1.nodeNow n0
  if n.phase = .gaveUp then s1.endAtChunk m.queue m.index 0 ST_SPILL_FULL
  else
    match n.cut with
    | some (k, bits) => s1.abortMembers { n with members := [m] } (if isExchangeNode n then 0 else k) bits
    | none =>
      match n.ins.find? fun i => i.rank == m.rank && i.node.isNone with
      | none => s1.serveExchange n
      | some i =>
        let s2 := (n.feeds.filter fun f => f.input == m.rank && f.pkts == []).foldl (fun (t : State) f =>
          t.grantInput n i f.chunk f.slot false) s1
        let s3 := if dFixed n.desc ∧ !isExchangeNode n then
            (n.chunks.filter fun c => c.acc.isSome && c.codes.isNone).foldl (fun (t : State) c =>
              t.grantInput n i c.num (c.acc.getD 0) true) s2
          else s2
        if isExchangeNode n then s3.serveExchange n
        else n.chunks.foldl (fun (t : State) c => t.serveTree n c.num) s3

/-! ### The exchange block (R211 to R214) -/

/-- Read an array of `n` numbers of `w` bytes for a member. -/
def State.readArray (s : State) (c addr n w : Nat) (remote : List RemoteRead) : Option (Except Nat (List Nat)) :=
  (s.readAt c addr (n * w) remote).map fun e => e.map fun bs => (List.range n).map fun i => ofLe ((bs.drop (w * i)).take w)

/-- Table 10.2: the addresses a kind does not use are 0, and T is 1 to 1,048,576. -/
def blockOk (kind count : Nat) (b : List Byte) : Bool :=
  let z := fun (a : Nat) => slotNum b a 8 == 0
  match kind with
  | 7 => z 16 && z 24 && z 32 && z 40 && z 48
  | 8 => z 0 && z 32 && decide (1 ≤ count) && decide (count ≤ 1048576)
  | _ => z 0 && z 8 && z 48 && decide (1 ≤ count) && decide (count ≤ 1048576)

/-- A ROUTE in order: ranks below P or 0xFFFF, none twice for one token (R212). -/
def routesOk (p k : Nat) (route : List Nat) : Bool :=
  (route.all fun d => d == 0xFFFF || decide (d < p)) &&
  (blocksOf k route.length route).all fun t =>
    let u := t.filter fun d => d != 0xFFFF
    u.eraseDups.length == u.length

/-- Read and check a member's exchange block and arrays (R212, R213): nothing while an answer is awaited, a status where a
read is refused or fails, or where the block breaks its table. -/
def State.readXblock (s : State) (c p : Nat) (d : List Byte) (addr count : Nat) (remote : List RemoteRead) :
    Option (Except Nat XInfo) :=
  let kind := dKind d
  match s.readAt c addr 64 remote with
  | none => none
  | some (.error st) => some (.error st)
  | some (.ok b) =>
    let k := dK d
    let counts := if kind = 7 then s.readArray c (slotNum b 0 8) p 4 remote else some (.ok [])
    let route := if kind = 7 then some (.ok []) else s.readArray c (slotNum b 16 8) (count * k) 2 remote
    let ret := if kind = 9 then s.readArray c (slotNum b 24 8) (count * k) 4 remote else some (.ok [])
    let weights := if kind = 9 then s.readArray c (slotNum b 32 8) (count * k) 4 remote else some (.ok [])
    let origin := if kind = 9 then s.readArray c (slotNum b 40 8) (dCap d) 8 remote else some (.ok [])
    if blockOk kind count b = false then some (.error ST_REFUSED_FORMAT)
    else
      match counts, route, ret, weights, origin with
      | some (.ok cs), some (.ok rt), some (.ok rv), some (.ok ws), some (.ok os) =>
        if kind = 7 ∧ cs.sum ≠ count then some (.error ST_REFUSED_FORMAT)
        else if kind ≠ 7 ∧ routesOk p k rt = false then some (.error ST_REFUSED_FORMAT)
        else
          let sends := if kind = 7 then cs
            else (List.range p).map fun r => (rt.filter fun x => x == r).length
          let x := XInfo.blank
          some (.ok { x with
            addr := addr, block := b, tokens := count, sends := sends, route := rt, ret := rv, weights := ws, origin := os
            phase := if kind = 9 then 2 else 0 })
      | some (.error st), _, _, _, _ => some (.error st)
      | _, some (.error st), _, _, _ => some (.error st)
      | _, _, some (.error st), _, _ => some (.error st)
      | _, _, _, some (.error st), _ => some (.error st)
      | _, _, _, _, some (.error st) => some (.error st)
      | _, _, _, _, _ => none

/-- Bring the members' values to the generation once the counts are settled (R213 step 4). -/
def State.toGeneration (s : State) (n0 : CollNode) : State :=
  let s1 := s.applyCounts n0
  let n := s1.nodeNow n0
  let s2 := if s1.keepsReady n ∧ n.members.all (fun m => (xOf m).recvs != []) then s1.applyKeeps n else s1
  (s2.countValues n).foldl (fun (t : State) v =>
    match (s2.skpGroup (dGroup n.desc)).bind fun g => g.waits.find? fun w =>
        w.rank == v.1 && w.coll == some (n.slice, n.num) with
    | some w =>
      let t1 := t.modNode n fun x => modMember x v.1 fun m => { m with x := m.x.map fun y => { y with phase := 1 } }
      let t2 := t1.modGroup (dGroup n.desc) fun g => { g with waits := g.waits.filter fun y => y != w }
      t2.contribute (dGroup n.desc) w 3 2 0x14 [v.2.1, v.2.2]
    | none => t) s2

/-! ### COLL (R185 to R187) -/

/-- The scheduled collective that a COLL command attaches to (R243): handle, bouquet node, wing and slots. -/
abbrev Attach := Option (Nat × Nat × Nat × Nat)

/-- A member whose descriptor and block are in order takes part at its leaf, or is found to disagree with it (R186). -/
def State.enterColl (s : State) (r : RunCmd) (rank port : Nat) (d : List Byte) (count : Nat) (x : Option XInfo) (sched : Attach) :
    State :=
  let q := r.queue
  let i := r.index
  let slice := s.ctxSlice r.ctx
  let num := dNum d % 2 ^ 32
  let p := (s.collMembers slice).length
  let src := slotNum r.slot 40 8
  let dst := slotNum r.slot 48 8
  let s1 := if (s.collNode slice num 0).isSome then s else s.addNode (s.newLeaf slice r.ctx d count sched)
  match s1.collNode slice num 0 with
  | none => s1
  | some n =>
    if n.digest ≠ descDigest d count then
      (s1.modNode n fun y => { y with bad := y.bad ++ [rank] }).endCmd q i ST_DESC_MISMATCH 0
    else
      let (bs, lo, hi) := ownSpan d count p rank
      let gives := dKind d != 5 || rank == dRoot d
      let gets := dKind d != 2 || rank == dRoot d
      let bytesIn := streamBytes (dIn d) (srcBlocks d count p).sum
      let s2 := s1.modRun q i fun r => { r with
        begun := true, blocks := bs, chunkLen := dChunk d, own := (lo, hi), full := hi - lo, spilled := n.phase == .spilled
        ranges := (if gives then [(src, bytesIn)] else []) ++ (if gets then [(dst, streamBytes (dOut d) (hi - lo))] else []) }
      let m : CollMember := {
        rank := rank, queue := q, index := i, ctx := r.ctx, epoch := r.epoch, src := src, dst := dst, detail := dDetail d
        unit := contributorOf d rank port s.chip src, lost := false, buf := [], x := x }
      if isVarKind (dKind d) ∧ dKind d ≠ 9 then
        let (gen, s3) := s2.nextGen (dGroup d) rank
        let s4 := s3.modGroup (dGroup d) fun g => { g with
          waits := g.waits ++ [⟨rank, gen, q, i, r.ctx, 0, some (slice, num)⟩] }
        ((s4.joinLeaf n m).noteFirst n 0xFFFE 0 rank).sendCounts n |>.toGeneration n
      else (s2.joinLeaf n m).serveCombine n

/-- COLL with its descriptor read (R185, R186, R212, R214, R304). -/
def State.startColl (s : State) (r : RunCmd) (rank : Nat) (d : List Byte) (sched : Attach) (remote : List RemoteRead) : State :=
  let q := r.queue
  let i := r.index
  let slice := s.ctxSlice r.ctx
  let ms := s.collMembers slice
  let count := slotNum r.slot 56 4
  let gives := dKind d != 5 || rank == dRoot d
  let gets := dKind d != 2 || rank == dRoot d
  let src := if gives then slotNum r.slot 40 8 else 0
  let dst := if gets then slotNum r.slot 48 8 else 0
  let port := ((ms.find? fun m => m.1 == rank).map (·.2.2)).getD 0
  if descOk d count ms.length src dst = false then s.endCmd q i ST_REFUSED_FORMAT 0
  else if s.tagClash slice (dNum d % 2 ^ 32) r.ctx then s.endCmd q i ST_REFUSED_STATE 0
  else if s.isSealed slice ∧ s.flag F.SEC_SLICE_STATUS_STRICT slice ∧ sched.isNone then s.endCmd q i ST_REFUSED_STATE 0
  else if isVarKind (dKind d) then
    let holds := (s.skpGroup (dGroup d)).map fun g => g.slice == slice && g.ranks == ms.map (·.1)
    if dKind d ≠ 9 ∧ holds ≠ some true then s.endCmd q i ST_REFUSED_STATE 0
    else
      match s.readXblock r.ctx ms.length d (dXblock d) count remote with
      | none => s
      | some (.error st) =>
        let s1 := s.endCmd q i st 0
        (match s1.collNode slice (dNum d % 2 ^ 32) 0 with
          | some n => s1.modNode n fun y => { y with bad := y.bad ++ [rank] }
          | none => s1)
      | some (.ok x) => s.enterColl r rank port d count (some x) sched
  else s.enterColl r rank port d count none sched

/-- COLL (R185). -/
def execColl (queue : Queue) (index : BitVec 32) (remote : List RemoteRead) (s : State) : Out :=
  act s fun s0 =>
    let s := s0.sweepNodes
    match s.fresh? queue.val index.toNat 0x01 with
    | none => s
    | some r =>
      match s.readAt r.ctx (slotNum r.slot 32 8) 64 remote with
      | none => s
      | some (.error st) => s.endCmd r.queue r.index st 0
      | some (.ok d) =>
        match s.rankOf r.ctx with
        | none => s.endCmd r.queue r.index ST_REFUSED_STATE 0
        | some rank => s.startColl r rank d (s.attachOf r d) remote

/-! ### Contributing (R187, R195, R196) -/

/-- A member's contribution was refused or failed (R187): its command ends with the read's status, and it counts as missing
from there on. -/
def State.loseMember (s : State) (n : CollNode) (rank chunk st : Nat) : State :=
  match memberOf n rank with
  | none => s
  | some m =>
    let s1 := s.modNode n fun x => { x with bad := x.bad ++ [rank], members := x.members.map fun y =>
      if y.rank = rank then { y with lost := true } else y }
    s1.endAtChunk m.queue m.index (min chunk 0) st

/-- A Nectar controller of this chip contributes a chunk of a member's SRC (R187). -/
def State.contributePool (s : State) (unit : Nat) (n : CollNode) (m : CollMember) (p : Packet) : State :=
  let num := p.chunk.toNat / 256
  let codes := p.chunk.getLsbD 7
  let pp := nodeP s n
  let (at', len) := if isExchangeNode n then feedSpan n pp m num else chunkSpan (dChunk n.desc) (srcBlocks n.desc n.count pp) num
  let addr := m.src + streamBytes (dIn n.desc) at'
  match s.readAt m.ctx addr (streamBytes (dIn n.desc) len) [] with
  | none => s
  | some (.error st) => s.loseMember n m.rank num st
  | some (.ok bs) =>
    let body := if codes then (blockCodes (decodeStream (dIn n.desc) len bs)).map fun v => BitVec.ofNat 8 v else bs
    (pieces body).foldl (fun (t : State) q =>
      let u := t.collPacket unit 0x10 3 (hChip p.arg.toNat) (0x81 + hWing p.arg.toNat) m.ctx m.epoch n.slice p.arg.toNat
        (chunkField num codes false false false q.1) q.2
      t.source unit { u with srcRank := Fin.ofNat 65536 m.rank } none) s

/-- A Nectar controller whose chip does not hold the leaf contributes the bytes that the request names (R187). -/
def State.contributeAway (s : State) (unit addr len fmt : Nat) (p : Packet) : State :=
  match s.readAt ((s.homeOf p.slice.val).getD 0) addr (streamBytes fmt len) [] with
  | some (.ok bs) =>
    let codes := p.chunk.getLsbD 7
    let body := if codes then (blockCodes (decodeStream fmt len bs)).map fun v => BitVec.ofNat 8 v else bs
    (pieces body).foldl (fun (t : State) q =>
      let u := t.collPacket unit 0x10 3 (hChip p.arg.toNat) (0x81 + hWing p.arg.toNat) p.ctx.val p.epoch.val p.slice.val p.arg.toNat
        (chunkField (p.chunk.toNat / 256) codes false false false q.1) q.2
      t.source unit { u with srcRank := p.srcRank } none) s
  | _ => s

/-- GRANT_RECEIVE (R191, R194 to R196): a Nectar controller contributes its member's chunk; a child node notes its parent's
grant and sends what is ready; a leaf of an exchange sends the chunk a peer admits. `addr`, `len` and `fmt` serve a
controller whose chip does not hold the leaf. -/
def execGrantReceive (unit : Fin 256) (p : Packet) (addr len : Nat) (fmt : Fin 256) (s : State) : Out :=
  act s fun s =>
    let h := p.arg.toNat
    let num := p.chunk.toNat / 256
    let codes := p.chunk.getLsbD 7
    if p.kind.val ≠ 0x12 ∨ p.chunk.toNat % 16 ≠ 0 then s
    else if 0x89 ≤ unit.val then
      if hChip h ≠ s.chip then s.contributeAway unit.val addr len fmt.val p
      else
        match s.coll.nodes.find? fun n => n.height == 0 && n.slice == p.slice.val && n.wing == hWing h && n.num % 65536 == hTag h
            && (n.feeds.any (fun f => f.slot == hSlot h && f.chunk == num) || n.chunks.any fun c => c.acc == some (hSlot h) && c.num == num) with
        | none => s
        | some n =>
          match memberOf n p.srcRank.val with
          | none => s
          | some m =>
            (match s.run m.queue m.index with
              | some r => if s.heldBy r ∨ m.lost then s else s.contributePool unit.val n m p
              | none => s)
    else
      let mine := fun (n : CollNode) => n.slice == p.slice.val && 0x81 + n.wing == unit.val && n.num % 65536 == hTag h
      match s.coll.nodes.find? fun n => mine n && n.parent == some (hChip h, hWing h) with
      | some n =>
        let s1 := s.chunkUpd n 0xFFFF num fun c => if codes then { c with codeGrant := some h } else { c with grant := some h }
        if codes then s1.sendCodes (s1.nodeNow n) num else s1.sendPartial (s1.nodeNow n) num
      | none =>
        match s.coll.nodes.find? fun n => mine n && isExchangeNode n with
        | none => s
        | some n =>
          match n.outs.find? fun o => o.chip == hChip h && o.wing == hWing h && o.chunk == num && o.codes == codes
              && o.src == p.srcRank.val && o.dst == p.dstRank.val && !o.sent with
          | none => s
          | some o =>
            let o1 := { o with grant := some h }
            let s1 := s.modNode n fun x => { x with outs := x.outs.map fun y => if y = o then o1 else y }
            s1.sendOut (s1.nodeNow n) o1

/-! ### Requests (R192, R194, R198) -/

/-- The context a higher node acts for (R192). -/
def State.higherOwner (s : State) (slice : Nat) : Nat :=
  match s.homeOf slice with
  | some c => c
  | none =>
    let ms := s.collMembers slice
    ((s.contexts.filter fun c => s.ctxSlice c == slice).find? fun c =>
      (s.rankOf c) == ((ms.find? fun m => m.2.1 == s.chip).map (·.1))).getD 0

/-- A higher node of this chip for a collective. -/
def State.newHigher (s : State) (slice h : Nat) (d : List Byte) (count : Nat) : CollNode :=
  let ms := s.collMembers slice
  let c := s.higherOwner slice
  let wing := treeWing ms s.chip h
  let sched := s.schedNode slice (descDigest d count) count (fun _ => true) fun x => x.wing == wing
  { slice := slice, num := dNum d % 2 ^ 32, height := h, wing := wing
    isRoot := h == s.treeTop ms, top := s.treeTop ms, parent := s.treeParent ms (dRoot d) s.chip h
    owner := c, epoch := s.ctxEpoch c, sched := sched.map fun x => (x.1, x.2.1), desc := d, count := count
    digest := descDigest d count
    size := (match sched with | some (_, _, _, k) => k | none => dSlots d)
    ins := s.treeIns ms s.chip h, members := [], bad := []
    phase := if sched.isSome then .scheduled else .waiting 0
    slots := [], next := (0, 0), feeds := [], chunks := [], outs := [], asked := [], cut := none, stopAt := none }

/-- A node answers a REQUEST with REFUSE (R198). -/
def State.refuse (s : State) (n : CollNode) (chip unit chunk : Nat) : State :=
  s.sendGrant n chip unit n.owner n.epoch (n.digest * 2 ^ 32 + n.num) (chunkField chunk false false false false 2) 0xFFFF 0xFFFF

/-- GRANT_REQUEST_RECEIVE (R192, R194): the first REQUEST makes a higher node, from the descriptor and COUNT that its digest
stands for; an item with a slot is granted again; a peer leaf's request waits for room. -/
def execGrantRequestReceive (unit : Fin 256) (p : Packet) (desc : List Byte) (count : Nat) (s : State) : Out :=
  act s fun s0 =>
    let s := s0.sweepNodes
    let num := p.arg.toNat % 2 ^ 32
    let digest := p.arg.toNat / 2 ^ 32
    let slice := p.slice.val
    let chunk := p.chunk.toNat / 256
    let ms := s.collMembers slice
    if p.kind.val ≠ 0x12 ∨ p.chunk.toNat % 16 ≠ 1 ∨ ms = [] then s
    else
      match s.coll.nodes.find? fun n => n.slice == slice && n.num == num && 0x81 + n.wing == unit.val
          && n.ins.any fun i => i.node == some (p.srcChip.val, p.srcUnit.val - 0x81) with
      | some n =>
        if n.phase = .gaveUp then s.refuse n p.srcChip.val p.srcUnit.val chunk
        else if isExchangeNode n then
          let a : CollAsk := ⟨p.srcRank.val, p.dstRank.val, chunk, p.chunk.getLsbD 7, p.srcChip.val, p.srcUnit.val - 0x81⟩
          if n.asked.contains a ∨ n.feeds.any (fun f => f.codes == a.codes && f.chunk == chunk && f.dst == a.dst
              && f.input == (if a.codes then a.chip else a.src)) then s
          else s.modNode n fun x => { x with asked := x.asked ++ [a] }
        else
          match n.ins.find? fun i => i.node == some (p.srcChip.val, p.srcUnit.val - 0x81) with
          | some i =>
            (match n.feeds.find? fun f => f.input == i.rank && f.chunk == chunk && f.pkts == [] with
              | some f => s.grantInput n i chunk f.slot false
              | none => s)
          | none => s
      | none =>
        let h := if unit.val = 0x81 + treeWing ms s.chip 1 then 1 else 2
        if descDigest desc count ≠ digest ∨ dNum desc % 2 ^ 32 ≠ num ∨ isExchangeKind (dKind desc) ∨ unit.val ≠ 0x81 + treeWing ms s.chip h
            ∨ s.treeTop ms < h ∨ (s.collNode slice num h).isSome then s
        else s.addNode (s.newHigher slice h desc count)

/-- A leaf's members end with ST_SPILL_FULL (R198). -/
def State.spillFull (s : State) (n : CollNode) : State :=
  n.members.foldl (fun (t : State) m => t.endAtChunk m.queue m.index 0 ST_SPILL_FULL) s

/-- A node gives up (R198): a leaf ends its members, and a higher node refuses what its children ask. -/
def State.giveUp (s : State) (n : CollNode) : State :=
  let s1 := (s.modNode n fun x => { x with phase := .gaveUp }).showSlots
  if n.height = 0 then s1.spillFull n
  else n.ins.foldl (fun (t : State) i => match i.node with
    | some tgt => t.refuse n tgt.1 (0x81 + tgt.2) 0
    | none => t) s1

/-- GRANT_REFUSE_RECEIVE (R198): the child ends its members, or refuses its own children. -/
def execGrantRefuseReceive (unit : Fin 256) (p : Packet) (s : State) : Out :=
  act s fun s =>
    if p.kind.val ≠ 0x12 ∨ p.chunk.toNat % 16 ≠ 2 then s
    else
      match s.coll.nodes.find? fun n => n.slice == p.slice.val && n.num == p.arg.toNat % 2 ^ 32 && 0x81 + n.wing == unit.val
          && n.parent == some (p.srcChip.val, p.srcUnit.val - 0x81) with
      | some n => s.giveUp n
      | none => s

/-- GRANT_REPEAT (R194): every GRANT whose input has not begun to arrive, and every REQUEST not granted. -/
def execGrantRepeat (node : NodeId) (s : State) : Out :=
  act s fun s =>
    match s.nodeOf node with
    | none => s
    | some n =>
      if nodeActive n = false ∨ n.cut.isSome then s
      else
        let s1 := (n.feeds.filter fun f => f.pkts == []).foldl (fun (t : State) f =>
          match n.ins.find? fun i => i.rank == f.input with
          | some i => if isExchangeNode n ∧ i.node.isSome then
              (match i.node with
                | some tgt => t.sendGrant n tgt.1 (0x81 + tgt.2) n.owner n.epoch (handleOf t n f.slot)
                    (chunkField f.chunk f.codes false (n.phase == .spilled) false 0) f.input f.dst
                | none => t)
            else t.grantInput n i f.chunk f.slot f.codes
          | none => t) s
        let s2 := if dFixed n.desc ∧ !isExchangeNode n then
            (n.chunks.filter fun c => c.acc.isSome && c.codes.isNone).foldl (fun (t : State) c =>
              (n.ins.filter fun i => !c.codesIn.any fun q => q.1 == i.rank).foldl (fun (t : State) i =>
                t.grantInput n i c.num (c.acc.getD 0) true) t) s1
          else s1
        let s3 := (n.chunks.filter fun c => c.acc.isSome && c.grant.isNone && c.abort.isNone).foldl (fun (t : State) c =>
          t.askParent n c.num) s2
        (n.outs.filter fun o => o.grant.isNone).foldl (fun (t : State) o => t.askPeer n o) s3

/-! ### Contributions (R193, R195, R201, R204) -/

/-- A whole data stream of an input is in a tree node (R176 to R178, R193). -/
def State.arriveTree (s : State) (n : CollNode) (i : CollIn) (num residue : Nat) (ret : Nat × Bool) (bs : List Byte) : State :=
  let len := s.treeLen n num
  let c := (nodeChunk n 0xFFFF num).getD (CollChunk.blank 0xFFFF num)
  let (vals, bad, res) :=
    if i.node.isSome then
      let w := dPart n.desc
      ((List.range len).map fun k => ofLe ((bs.drop (w * k)).take w), 0, residue)
    else if dFixed n.desc then
      let f := fixStream (c.codes.getD []) (decodeStream (dIn n.desc) len bs)
      (f.1, f.2, residueOf f.1)
    else (liftStream (dOp n.desc) (dIn n.desc) len bs, 0, 0)
  let s1 := s.chunkUpd n 0xFFFF num fun x => { x with
    parts := x.parts ++ [⟨i.rank, vals, [], res⟩]
    rets := if i.node.isSome then (x.rets.filter fun q => q.1 != i.rank) ++ [(i.rank, ret.1, ret.2)] else x.rets }
  (if bad = 0 then s1 else s1.bump F.ACD_CHECK_CODE_VIOLATIONS n.wing bad).abortIfWhole n num

/-- The input of a node that a COLL_UP comes from, if it is the one that was granted (R195). -/
def granteeOf (s : State) (n : CollNode) (p : Packet) (rank : Nat) : Option CollIn :=
  n.ins.find? fun i => i.rank == rank && (match i.node with
    | some tgt => p.srcChip.val == tgt.1 && p.srcUnit.val == 0x81 + tgt.2
    | none => match memberOf n rank with
      | some m => (match m.unit with
        | some u => p.srcChip.val == u.1 && p.srcUnit.val == u.2 && s.memberRuns m
        | none => false)
      | none => false)

/-- A codes packet enters a tree node's code room (R196). -/
def State.takeCodes (s : State) (n : CollNode) (c : CollChunk) (p : Packet) : State :=
  match n.ins.find? fun i => (granteeOf s n p i.rank).isSome && (i.node.isSome || i.rank == p.srcRank.val || p.srcUnit.val < 128) with
  | none => s.bump F.ACD_EVENTS_BAD_GRANT n.wing
  | some i =>
    let len := s.treeLen n c.num
    let codes := ((p.payload.take ((len + 31) / 32)).map (·.toNat))
    let s1 := s.noteFirst n 0xFFFF c.num i.rank
    if p.chunk.getLsbD 4 then
      (s1.chunkUpd n 0xFFFF c.num fun x => if x.aborts.any fun q => q.1 == i.rank then x
        else { x with aborts := x.aborts ++ [(i.rank, ofLe (p.payload.take 4096))] }).abortIfWhole n c.num
    else if c.codesIn.any fun q => q.1 == i.rank then s1
    else
      let s2 := s1.chunkUpd n 0xFFFF c.num fun x => { x with
        codesIn := x.codesIn ++ [(i.rank, codes)]
        slipped := x.slipped || p.chunk.getLsbD 6, spilled := x.spilled || p.chunk.getLsbD 5
        rets := if i.node.isSome then (x.rets.filter fun q => q.1 != i.rank) ++ [(i.rank, hRet p.arg.toNat, hRetSpilled p.arg.toNat)]
          else x.rets }
      (s2.sendCodes (s2.nodeNow n) c.num).abortIfWhole n c.num

/-- A data packet enters a granted slot: a packet already marked is discarded (R204), and the last one makes the input
whole. -/
def State.takeData (s : State) (n : CollNode) (f : CollFeed) (i : CollIn) (p : Packet) (tags : List (Nat × Nat)) : State :=
  let idx := p.chunk.toNat % 16
  let pp := nodeP s n
  let ex := isExchangeNode n
  let key := if ex ∧ i.node.isSome then f.dst else 0xFFFF
  let s1 := if ex ∧ i.node.isNone then
      (match memberOf n i.rank with
        | some m => match blockOf (dChunk n.desc) (sendBlocks n pp m) f.chunk with
          | some (d, k) => if dKind n.desc < 8 then s.noteFirst n d k i.rank else s
          | none => s
        | none => s)
    else if ex then s.chunkUpd n key f.chunk fun x => { x with
      first := some (x.first.getD s.ftu.toNat), slipped := x.slipped || p.chunk.getLsbD 6, spilled := x.spilled || p.chunk.getLsbD 5 }
    else s.noteFirst n 0xFFFF f.chunk i.rank
  if p.chunk.getLsbD 4 then
    if ex then
      -- a peer leaf gave up: its bitmap joins this leaf's (R201)
      let bits := ofLe (p.payload.take 4096)
      let s2 := s1.modNode n fun x => { x with cut := some (0, bits ||| ((x.cut.map (·.2)).getD 0)) }
      s2.abortMembers n 0 bits
    else
      (s1.chunkUpd n 0xFFFF f.chunk fun x => if x.aborts.any fun q => q.1 == i.rank then x
        else { x with aborts := x.aborts ++ [(i.rank, ofLe (p.payload.take 4096))] }).abortIfWhole n f.chunk
  else if f.pkts.any fun q => q.1 == idx then s1
  else
    let f1 := { f with pkts := f.pkts ++ [(idx, p.payload)] }
    let s2 := s1.modNode n fun x => { x with feeds := x.feeds.map fun y => if y.slot = f.slot then f1 else y }
    let s3 := if ex then s2 else s2.chunkUpd n 0xFFFF f.chunk fun x => { x with
      slipped := x.slipped || p.chunk.getLsbD 6, spilled := x.spilled || p.chunk.getLsbD 5 }
    let len := if ex then
        (match i.node, memberOf n i.rank with
          | none, some m => (feedSpan n pp m f.chunk).2
          | none, none => 0
          | some _, _ => if f.dst = 0xFFFF then min (dChunk n.desc) (n.count - f.chunk * dChunk n.desc)
              else match memberOf n f.dst with
                | some m => min (dChunk n.desc) ((recvBlocks n pp m).getD f.input 0 - f.chunk * dChunk n.desc)
                | none => dChunk n.desc)
      else s.treeLen n f.chunk
    let bytes := inputBytes n i len
    if allPieces f1.pkts bytes = false then s3
    else
      let bs := joinPieces f1.pkts bytes
      if ex = false then s3.arriveTree (s3.nodeNow n) i f.chunk p.residue.toNat (hRet p.arg.toNat, hRetSpilled p.arg.toNat) bs
      else if i.node.isNone then s3.forwardEx n i.rank f.chunk bs
      else s3.arriveEx n i.rank f.dst f.chunk bs tags

/-- Count data from a peer leaf enters its room (R213). -/
def State.takeCounts (s : State) (n : CollNode) (f : CollFeed) (p : Packet) : State :=
  let idx := p.chunk.toNat % 16
  let ms := s.collMembers n.slice
  if p.srcChip.val ≠ f.input then s.bump F.ACD_EVENTS_BAD_GRANT n.wing
  else if f.pkts.any fun q => q.1 == idx then s
  else
    let f1 := { f with pkts := f.pkts ++ [(idx, p.payload)] }
    let s1 := s.modNode n fun x => { x with feeds := x.feeds.map fun y => if y.slot = f.slot then f1 else y }
    let late := fun (c : CollChunk) => { c with slipped := c.slipped || p.chunk.getLsbD 6, spilled := c.spilled || p.chunk.getLsbD 5 }
    let second := decide (keptBase ≤ f.chunk)
    let words := (ranksAt ms f.input).length * (ranksAt ms s.chip).length * (if second then 2 else 1)
    let piece := if second then f.chunk - keptBase else f.chunk
    let bytes := min 65536 (words * 4 - piece * 65536)
    let key := if second then 0xFFFD else 0xFFFE
    if allPieces f1.pkts bytes = false then s1.chunkUpd n key piece late
    else
      let s2 := s1.chunkUpd n key piece fun c => { late c with
        first := some (c.first.getD s.ftu.toNat), parts := c.parts ++ [⟨f.input, [], joinPieces f1.pkts bytes, 0⟩] }
      s2.toGeneration n

/-- A contribution of an old epoch (R160): its slot is quarantined by a reset, or a context of this chip sent it before its own
reset. -/
def State.staleSlot (s : State) (unit : Nat) (p : Packet) : Bool :=
  let h := p.arg.toNat
  hChip h == s.chip &&
    ((s.coll.hold.any fun x => 0x81 + x.wing == unit && x.slots.contains (hSlot h) && x.spilled == hSpilled h) ||
      (p.srcChip.val == s.chip && !(decide (0x81 ≤ p.srcUnit.val) && decide (p.srcUnit.val ≤ 0x84))
        && p.epoch.val != s.ctxEpoch p.ctx.val))

/-- COLL_UP_RECEIVE (R160, R193, R195, R196, R201, R204, R213). `tags` are the token and choice of each row that a peer leaf's chunk
brings (R222). -/
def execCollUpReceive (unit : Fin 256) (p : Packet) (tags : List (Nat × Nat)) (s : State) : Out :=
  act s fun s =>
    let h := p.arg.toNat
    let num := p.chunk.toNat / 256
    let wing := unit.val - 0x81
    let bad := s.bump F.ACD_EVENTS_BAD_GRANT wing
    if p.kind.val ≠ 0x10 then s
    else if s.staleSlot unit.val p then s.bump F.QUE_DROPS_STALE_SLOT wing
    else
      let mine := fun (n : CollNode) => 0x81 + n.wing == unit.val && n.slots.contains (hSlot h) && (n.phase == .spilled) == hSpilled h
      match s.coll.nodes.find? mine with
      | none => bad
      | some n =>
        if hChip h ≠ s.chip ∨ hTag h ≠ n.num % 65536 ∨ p.slice.val ≠ n.slice then bad
        else if n.cut.isSome ∧ !(match n.cut with | some (k, _) => !isExchangeNode n && decide (num < k) | none => false) then s
        else if p.chunk.getLsbD 7 ∧ !isExchangeNode n then
          (match n.chunks.find? fun c => c.acc == some (hSlot h) && c.num == num with
            | some c => s.takeCodes n c p
            | none => bad)
        else
          match n.feeds.find? fun f => f.slot == hSlot h && f.chunk == num && f.codes == p.chunk.getLsbD 7 with
          | none => bad
          | some f =>
            if f.codes then s.takeCounts n f p
            else
              match granteeOf s n p f.input with
              | some i => s.takeData n f i p tags
              | none => bad

/-! ### Reducing (R171 to R183) -/

/-- A tree node's chunk reduced: partial values in the order of R171. -/
def reduceParts (n : CollNode) (c : CollChunk) : List Nat :=
  let vs := n.ins.filterMap fun i => (c.parts.find? fun q => q.input == i.rank).map (·.vals)
  match vs with
  | [] => []
  | v :: t => t.foldl (fun a b => if dFixed n.desc then fixAdd a b else (a.zip b).map fun q => combine (dOp n.desc) (dIn n.desc) q.1 q.2) v

/-- The residues agree (R180, R181). -/
def residueOk (c : CollChunk) (vals : List Nat) : Bool :=
  residueOf vals % resP == (c.parts.map (·.residue)).sum % resP

/-- The result of a chunk at the node that produces it, and code violations found there (R172, R174, R178). -/
def produce (n : CollNode) (c : CollChunk) (vals : List Nat) : List Byte × Nat :=
  let rnd := randWord (dSeed n.desc) c.num (dNum n.desc) 0
  if dFixed n.desc then
    let (fs, bad) := unfixStream (c.codes.getD []) vals
    (convertStream (dOut n.desc) (dRound n.desc) (dNanOvf n.desc) rnd fs, bad)
  else (resultStream (dOp n.desc) (dIn n.desc) (dOut n.desc) (dRound n.desc) (dNanOvf n.desc) rnd vals, 0)

/-- CHUNK_REDUCE_COMPLETE (R171 to R183): every input is in and the check has ended; the partial goes up, or the result
down. No spare lane can settle it where none is free. -/
def execChunkReduceComplete (node : NodeId) (chunk : BitVec 32) (check : ReduceCheck) (s : State) : Out :=
  act s fun s =>
    match s.nodeOf node with
    | none => s
    | some n =>
      match nodeChunk n 0xFFFF chunk.toNat with
      | none => s
      | some c =>
        let whole := n.ins.all fun i => c.parts.any fun q => q.input == i.rank
        if isExchangeNode n ∨ whole = false ∨ n.bad ≠ [] ∨ c.out.isSome ∨ c.abort.isSome ∨ c.undelivered then s
        else
          let vals := reduceParts n c
          let agree := !dFixed n.desc || residueOk c vals
          let fails := if dFixed n.desc then F.ACD_CHECK_RESIDUE_FAILS else F.ACD_CHECK_LANE_MISMATCHES
          let s1 := if check = .passed ∧ agree then s else s.bump fails n.wing
          let s2 := if check = .spare ∧ agree ∧ s.fld F.SPR_FREE_LANES n.wing ≠ 0 then s1.bump F.ACD_CHECK_LANES_RETIRED n.wing else s1
          let noSpare : Bool := check == .spare && s.fld F.SPR_FREE_LANES n.wing == 0
          if check = .undelivered ∨ noSpare ∨ agree = false then
            let s3 := (s2.bump F.ACD_CHECK_UNDELIVERED n.wing).chunkUpd n 0xFFFF c.num fun x => { x with undelivered := true }
            n.members.foldl (fun (t : State) m => t.endAtChunk m.queue m.index c.num ST_FAULT_UNIT) s3
          else if n.isRoot then
            let (bs, bad) := produce n c vals
            let s3 := if bad = 0 then s2 else s2.bump F.ACD_CHECK_CODE_VIOLATIONS n.wing bad
            (s3.chunkUpd n 0xFFFF c.num fun x => { x with out := some ([], 0), result := some bs }).serveTree n c.num
          else
            let w := dPart n.desc
            let s3 := s2.chunkUpd n 0xFFFF c.num fun x => { x with
              out := some (vals.flatMap fun v => leBytes w v, if dFixed n.desc then residueOf vals else 0) }
            s3.sendPartial (s3.nodeNow n) c.num

/-! ### Results come down (R187, R196, R201, R202) -/

/-- A Nectar controller sinks a result packet as it sinks a WRITE (R187): the bytes of the result land, in whatever pages they
touch. -/
def State.sinkResult (s : State) (wing : Nat) (p : Packet) : State :=
  let unit := 0x89 + wing
  let r := s.receivedOf (receivedKey unit p)
  let off := addrOffset p.arg.toNat
  let n := p.payload.length
  if s.isRefused unit p then s
  else
    match arrivalOf r p.seq with
    | .duplicate => (s.setReceived { r with owed := true }).bump F.EDG_E2E_DUPLICATES wing
    | .beyond => s.bump F.EDG_E2E_DUPLICATES wing
    | .fresh =>
      match (pageStarts off n).mapM fun o => s.resolve p true o with
      | none => s.refuseWrite wing p ST_REFUSED_AUTH
      | some _ =>
        let at' := fun (o : Nat) => (s.resolve p true o).getD 0
        let secs := (List.range ((off % 512 + n + 511) / 512)).map fun k =>
          let o := if k = 0 then off else (off / 512 + k) * 512
          (sectorOf (at' o), o / 512 * 512)
        let part := secs.filter fun q => !(decide (off ≤ q.2) && decide (q.2 + 512 ≤ off + n))
        match s.firstFault (part.map (·.1)) with
        | some x => (s.countFaults (part.map (·.1))).refuseWrite wing p x.2
        | none =>
          let whole := (secs.filter fun q => decide (off ≤ q.2) && decide (q.2 + 512 ≤ off + n)).map (·.1)
          let s1 := ((p.payload.zip (List.range n)).foldl (fun (t : State) q => t.writeMem (at' (off + q.2)) [q.1]) s)
          let s2 := { s1 with pool := { s1.pool with
            poison := s1.pool.poison.filter fun x => !whole.contains x, badTag := s1.pool.badTag.filter fun x => !whole.contains x } }
          s2.received unit p

/-- COLL_DOWN_RECEIVE (R187, R196, R201, R202). -/
def execCollDownReceive (unit : Fin 256) (p : Packet) (s : State) : Out :=
  act s fun s =>
    let h := p.arg.toNat
    let num := p.chunk.toNat / 256
    let idx := p.chunk.toNat % 16
    if p.kind.val ≠ 0x11 then s
    else if 0x89 ≤ unit.val then s.sinkResult (unit.val - 0x89) p
    else
      match s.coll.nodes.find? fun n => 0x81 + n.wing == unit.val && n.slice == p.slice.val && n.num % 65536 == hTag h
          && n.parent == some (p.srcChip.val, p.srcUnit.val - 0x81) with
      | none => s
      | some n =>
        match nodeChunk n 0xFFFF num with
        | none => s
        | some c =>
          let s0 := s.chunkUpd n 0xFFFF num fun x => { x with
            slipped := x.slipped || p.chunk.getLsbD 6, spilled := x.spilled || p.chunk.getLsbD 5 }
          if p.chunk.getLsbD 4 then s0.abortDown n num (ofLe (p.payload.take 4096))
          else if p.chunk.getLsbD 7 then
            let codes := (p.payload.take ((s.treeLen n num + 31) / 32)).map (·.toNat)
            let s1 := s0.chunkUpd n 0xFFFF num fun x => { x with codes := some codes }
            n.ins.foldl (fun (t : State) i => match i.node with
              | some tgt => t.sendDown n tgt (retOf c i.rank) num true c.slipped c.spilled false (codes.map fun v => BitVec.ofNat 8 v)
              | none => t) s1
          else if c.down.any fun q => q.1 == idx then s0
          else
            let down := c.down ++ [(idx, p.payload)]
            let bytes := streamBytes (dOut n.desc) (s.treeLen n num)
            let whole := allPieces down bytes
            let s1 := s0.chunkUpd n 0xFFFF num fun x => { x with
              down := down, result := if whole then some (joinPieces down bytes) else x.result }
            if whole then s1.serveTree n num else s1

/-! ### Spill (R198) -/

/-- NODE_SLOTS_OBTAINED (R198). -/
def execNodeSlotsObtained (node : NodeId) (s : State) : Out :=
  act s fun s0 =>
    let s := s0.sweepNodes
    match s.nodeOf node with
    | some n => if isWaiting n then s.takeSlots n else if isSpillWaiting n then s.takeSpill n else s
    | none => s

/-- SPILL (R198): at the fourth tick of waiting, unless the slots are there. -/
def execSpill (node : NodeId) (s : State) : Out :=
  act s fun s0 =>
    let s := s0.sweepNodes
    match s.nodeOf node with
    | some n =>
      (match n.phase with
        | .waiting k =>
          if k < 4 then s
          else
            let s1 := s.takeSlots n
            if isWaiting (s1.nodeNow n) then
              (s1.modNode n fun x => { x with phase := .spillWaiting 0 }).takeSpill (({ n with phase := .spillWaiting 0 } : CollNode))
            else s1
        | _ => s)
    | none => s

/-- SPILL_GIVE_UP (R198). -/
def execSpillGiveUp (node : NodeId) (s : State) : Out :=
  act s fun s =>
    match s.nodeOf node with
    | some n =>
      (match n.phase with
        | .spillWaiting k => if dSlip n.desc ≤ k then s.giveUp n else s
        | _ => s)
    | none => s

/-! ### Slip, abort and results that do not come (R200 to R202) -/

/-- A chunk of a node lacks an input. -/
def lacksInput (s : State) (n : CollNode) (c : CollChunk) : Bool :=
  if isExchangeNode n then
    if c.dst = 0xFFFE ∨ c.dst = 0xFFFD then
      (n.members.any fun m => (xOf m).phase == 0) || s.allHere n == false
    else !(lackingEx s n c).isEmpty
  else
    let coding := dFixed n.desc && c.codes.isNone
    n.bad != [] || n.ins.any fun i => !(c.aborts.any fun q => q.1 == i.rank) &&
      !(if coding then c.codesIn.any fun q => q.1 == i.rank else c.parts.any fun q => q.input == i.rank)

/-- CHUNK_SLIP (R200, R208). -/
def execChunkSlip (node : NodeId) (dst : Rank) (chunk : BitVec 32) (s : State) : Out :=
  act s fun s =>
    match node with
    | .skip g h => s.skpSlip g.val h.val chunk.toNat
    | .coll _ _ _ =>
      match s.nodeOf node with
      | none => s
      | some n =>
        match nodeChunk n dst.val chunk.toNat with
        | none => s
        | some c =>
          if 1 ≤ c.late ∧ c.slipped = false ∧ c.abort.isNone ∧ n.cut.isNone ∧ c.result.isNone ∧ c.out.isNone ∧ lacksInput s n c then
            let s1 := (s.chunkUpd n dst.val c.num fun x => { x with slipped := true }).bump F.ACD_EVENTS_SLIPS n.wing
            n.members.foldl (fun (t : State) m => t.modRun m.queue m.index fun r => { r with slipped := true }) s1
          else s

/-- An exchange leaf gives up a chunk (R201, R213): the missing ranks end every member. -/
def State.abortExchange (s : State) (n : CollNode) (c : CollChunk) : State :=
  let ms := s.collMembers n.slice
  let ranks := if c.dst = 0xFFFE ∨ c.dst = 0xFFFD then
      ((ranksAt ms s.chip).filter fun r => (memberOf n r).isNone || n.bad.contains r)
        ++ ((ms.filter fun m => m.2.1 != s.chip && !(n.chunks.any fun y => y.dst == c.dst && y.parts.any fun q => q.input == m.2.1)).map (·.1))
    else lackingEx s n c
  let bits := ranks.foldl (fun a r => a ||| 2 ^ r) 0
  let s1 := (s.countAborts n c.num).modNode n fun x => { x with cut := some (0, bits) }
  let s2 := s1.abortMembers n 0 bits
  (n.outs.filter fun o => o.grant.isSome && !o.sent).foldl (fun (t : State) o => t.sendOut (t.nodeNow n) o) s2

/-- CHUNK_ABORT (R200, R201, R208). -/
def execChunkAbort (node : NodeId) (dst : Rank) (chunk : BitVec 32) (s : State) : Out :=
  act s fun s =>
    match node with
    | .skip g h => s.skpAbort g.val h.val chunk.toNat
    | .coll _ _ _ =>
      match s.nodeOf node with
      | none => s
      | some n =>
        match nodeChunk n dst.val chunk.toNat with
        | none => s
        | some c =>
          if dSlip n.desc + n.height + 1 ≤ c.late ∧ c.abort.isNone ∧ n.cut.isNone ∧ c.result.isNone ∧ c.out.isNone ∧ lacksInput s n c then
            if isExchangeNode n then s.abortExchange n c else s.abortNode n c.num (missingBits n c)
          else s

/-- A chunk whose partial found no result is aborted downward with an empty bitmap (R202). -/
def State.abortLost (s : State) (n : CollNode) (c : CollChunk) : State :=
  (if c.abort.isSome then s else s.countAborts n c.num).abortDown n c.num 0

/-- RESULT_TIMEOUT (R202): the chunk is aborted downward with an empty bitmap. -/
def execResultTimeout (node : NodeId) (chunk : BitVec 32) (s : State) : Out :=
  act s fun s =>
    match s.nodeOf node with
    | none => s
    | some n =>
      match nodeChunk n 0xFFFF chunk.toNat with
      | none => s
      | some c =>
        if c.sent ∧ c.result.isNone ∧ n.isRoot = false ∧ dSlip n.desc + 2 * n.top + 10 ≤ c.since ∧ !(c.abort == some 0) then
          s.abortLost n c
        else s

/-- The partial or ABORT that a node sent up has failed for good: the chunk is aborted downward at once, with an empty bitmap
(R202). -/
def State.upFailed (s : State) (unit : Nat) (t : Tag) : State :=
  match s.coll.nodes.find? fun n => 16384 + n.slice == t.queue && n.num == t.index && 0x81 + n.wing == unit with
  | none => s
  | some n =>
    match nodeChunk n 0xFFFF t.off with
    | none => s
    | some c =>
      if isExchangeNode n ∨ n.isRoot ∨ c.result.isSome ∨ c.abort = some 0 then s else s.abortLost n c

/-- RESEND_LIMIT (R88, R202): after the fourth resend and two more wingbeats the packet is given up, and its command ends with
ST_CHECK_FAIL. -/
def execResendLimit (unit : Fin 256) (chip : Chip) (peer : Fin 256) (ctx : Ctx) (seq : BitVec 32) (s : State) : Out :=
  act s fun s =>
    match s.copyOf unit.val chip.val peer.val ctx.val seq with
    | some c =>
      if s.copyDue c ∧ c.resends = 4 then
        let s1 := { s with net := { s.net with copies := s.net.copies.filter fun q => q != c } }
        (match c.cmd with
          | some t => if 16384 ≤ t.queue ∧ c.pkt.kind.val = 0x10 then s1.upFailed unit.val t else s1.tagFail t ST_CHECK_FAIL
          | none => s1).pump
      else s
    | none => s

/-- A tick passes for the slice of a node: chunks that wait grow later, and nodes without slots wait on (R198, R200, R202).
`step` says whether the wingbeat that ended was one of a scheduled node's own steps. -/
def tickNode (n : CollNode) (counted step : Bool) : CollNode :=
  let n1 := match n.phase with
    | .waiting k => { n with phase := .waiting (k + 1) }
    | .spillWaiting k => { n with phase := .spillWaiting (k + 1) }
    | _ => n
  if counted = false then n1
  else
    { n1 with chunks := n1.chunks.map fun c =>
        let c1 := if c.first.isSome ∧ (n.sched.isNone ∨ step ∨ 0 < c.late) then { c with late := c.late + 1 } else c
        if c1.sent ∧ c1.result.isNone then { c1 with since := c1.since + 1 } else c1 }

end Sys2Proof.Machine
end

