-- ==== Sys2Proof/Machine/Hawk.lean ====
section
/-! DEFINITION. Sys2Proof/Machine/Hawk.lean: loading, running and unloading bouquets: the manager's side of a load, the chip's
part, scheduled steps, OP commands and the budget monitor (R34, R35, R239 to R248).
(log entries of this file: DEDUCED 62, 65, 66, 68, 69, 118; DESIGN CHOICE 7, 67, 121) -/

namespace Sys2Proof.Machine

/-! ### The manager's side (R239, R241, R245) -/

/-- The 32-byte block of BQ_LOAD (Table 16.7). -/
def loadBlock (x : BqRefusal) (start : Nat) : List Byte :=
  leBytes 1 x.status ++ leBytes 1 x.resource ++ leBytes 2 x.chip ++ leBytes 2 x.index ++ leBytes 2 x.offset ++ leBytes 4 x.need
  ++ leBytes 4 x.limit ++ leBytes 8 start ++ leBytes 8 0

def acceptedLoad : BqRefusal := ⟨0, 0, 0, 0, 0, 0, 0⟩

def State.modLoad (s : State) (id : Nat) (f : MgrLoad → MgrLoad) : State :=
  { s with mgr := { s.mgr with loads := s.mgr.loads.map fun l => if l.id = id then f l else l } }

def State.dropLoad (s : State) (id : Nat) : State :=
  { s with mgr := { s.mgr with loads := s.mgr.loads.filter fun l => l.id != id } }

/-- A load or an unload is under way: it holds back those that name a common chip (R239). -/
def loadBusy (l : MgrLoad) : Bool := (l.sentAt.isSome && l.handle == 0) || l.unloadAt.isSome

def commonChip (a b : MgrLoad) : Bool := a.chips.any fun c => b.chips.contains c

/-- Start the loads and unloads that nothing under way holds back. -/
def State.startLoads (s : State) : State :=
  (s.mgr.loads.map (·.id)).foldl (fun (t : State) id =>
    match t.mgr.loads.find? fun l => l.id == id with
    | none => t
    | some l =>
      if (t.mgr.loads.any fun x => x.id != id && loadBusy x && commonChip l x) then t
      else if l.handle = 0 ∧ l.sentAt.isNone then
        l.chips.foldl (fun (u : State) c => u.askMgmt c (.bqImage id l.slice l.image))
          (t.modLoad id fun x => { x with sentAt := some t.ftu })
      else
        match l.want with
        | some r =>
          let (v, t1) := t.fresh
          let u : Wb := t1.wb + BitVec.ofNat 48 (2 + v)
          ((t1.modLoad id fun x => { x with want := none, unloadAt := some u }).sendMgmt 0xFFFF (.bqUnload l.handle u)).finishFw r
            ACK_OK (u.toNat % 2 ^ 32)
        | none => t) s

/-- The first multiple of PERIOD at least 64 wingbeats ahead (R239). -/
def firstStart (now extra period : Nat) : Wb :=
  BitVec.ofNat 48 ((now + 64 + extra + max 1 period - 1) / max 1 period * max 1 period)

/-- Every chip has answered, or counts as refusing: commit or abort (R239 step 3). -/
def State.decideLoad (s : State) (l : MgrLoad) : State :=
  let bad := l.answers.filter fun a => a.2.isSome
  match bad.foldl (fun (m : Option (Nat × Option BqRefusal)) a => match m with
      | some b => if a.1 < b.1 then some a else some b
      | none => some a) none with
  | some (_, some x) =>
    let s1 := (s.dropLoad l.id).sendMgmt 0xFFFF (.bqCommit l.id none)
    (({ s1 with mgr := { s1.mgr with refusal := some x } }).finishFw l.ref ACK_REFUSED_LOAD 0 (loadBlock x 0)).startLoads
  | _ =>
    let (v, s1) := s.fresh
    let h := firstNotIn (s1.mgr.loads.map (·.handle)) 1 (2 ^ 32 - 1) v (s1.mgr.loads.length + 1)
    let (w, s2) := s1.fresh
    let start := firstStart s2.wb.toNat w ((l.bq.map (·.period)).getD 1)
    let s3 := (s2.modLoad l.id fun x => { x with handle := h, start := start }).sendMgmt 0xFFFF
      (.bqCommit l.id (some (h, start)))
    (s3.finishFw l.ref ACK_OK h (loadBlock acceptedLoad start.toNat)).startLoads

/-- BQ_LOAD (R239). An image whose header cannot be read names no chip; the Monarch refuses it itself. -/
def execBqLoad (r : FwRef) (slice : Fin 65536) (image : List Byte) (s : State) : Out :=
  act s fun s => s.mgrCommand r fun s =>
    if slice.val = 0 ∨ 1023 < slice.val then s.finishFw r ACK_BAD_ARGUMENT 0
    else if headerOk image = false then
      let x := s.refusal ST_REFUSED_FORMAT 0
      ({ s with mgr := { s.mgr with refusal := some x } }).finishFw r ACK_REFUSED_LOAD 0 (loadBlock x 0)
    else
      let b := readBq image
      let l : MgrLoad := {
        id := s.mgr.loadSeq, slice := slice.val, image := image, bq := some b, chips := bqChips b, sentAt := none
        answers := [], ref := r, handle := 0, start := 0
        want := none, unloadAt := none, degraded := false }
      ({ s with mgr := { s.mgr with loads := s.mgr.loads ++ [l], loadSeq := s.mgr.loadSeq + 1 } }).startLoads

/-- A chip that names the load answers; the load is decided once each has. -/
def State.takeAnswer (s : State) (chip load : Nat) (x : Option BqRefusal) : State :=
  match s.mgr.loads.find? fun l => l.id == load && l.handle == 0 && l.sentAt.isSome with
  | some l =>
    if l.chips.contains chip = false ∨ (l.answers.any fun a => a.1 == chip) then s
    else
      let l1 := { l with answers := l.answers ++ [(chip, x)] }
      let s1 := s.modLoad load fun _ => l1
      if l1.chips.all fun c => l1.answers.any fun a => a.1 == c then s1.decideLoad l1 else s1
  | none => s

/-- BQ_LOAD_TIMEOUT (R239): one second after the image went out, a missing answer counts as ST_REFUSED_STATE. -/
def execBqLoadTimeout (load : Nat) (s : State) : Out :=
  act s fun s =>
    match s.mgr.loads.find? fun l => l.id == load && l.handle == 0 with
    | some l =>
      match l.sentAt with
      | some t =>
        if s.isActive ∧ 1600000000 ≤ (s.ftu - t).toNat then
          let missing := l.chips.filter fun c => !l.answers.any fun a => a.1 == c
          let l1 := { l with answers := l.answers ++ missing.map fun c => (c, some ⟨ST_REFUSED_STATE, 0, c, 0, 0xFFFF, 0, 0⟩) }
          s.decideLoad l1
        else s
      | none => s
    | none => s

/-- BQ_UNLOAD (R245): an unload that repeats one under way answers with its boundary. -/
def execBqUnload (r : FwRef) (handle : BitVec 32) (s : State) : Out :=
  act s fun s => s.mgrCommand r fun s =>
    match s.mgr.loads.find? fun l => l.handle == handle.toNat && l.handle != 0 with
    | none => s.finishFw r ACK_BAD_ARGUMENT 0
    | some l =>
      match l.unloadAt with
      | some u => s.finishFw r ACK_OK (u.toNat % 2 ^ 32)
      | none => if l.want.isSome then s.finishFw r ACK_STATE 0 else (s.modLoad l.id fun x => { x with want := some r }).startLoads

/-- The state of a bouquet for BQ_STATUS: this chip's part knows it, or the boundaries decide. -/
def State.loadState (s : State) (l : MgrLoad) : Nat :=
  match s.hawk.parts.find? fun b => b.handle == l.handle with
  | some b => b.state
  | none =>
    if (match l.unloadAt with | some u => s.reached u | none => false) then 4 else if s.reached l.start then 2 else 1

/-- BQ_STATUS (R241). -/
def execBqStatus (r : FwRef) (handle : BitVec 32) (s : State) : Out :=
  act s fun s => s.mgrCommand r fun s =>
    if handle = 0 then
      s.finishFw r ACK_OK 0 (leBytes 16 0 ++ loadBlock (s.mgr.refusal.getD acceptedLoad) 0)
    else
      match s.mgr.loads.find? fun l => l.handle == handle.toNat with
      | none => s.finishFw r ACK_BAD_ARGUMENT 0
      | some l =>
        s.finishFw r ACK_OK 0 (leBytes 1 (s.loadState l) ++ leBytes 1 (bit l.degraded) ++ leBytes 2 l.slice
          ++ leBytes 2 ((l.bq.map (·.period)).getD 0) ++ leBytes 2 0 ++ leBytes 8 l.start.toNat
          ++ loadBlock acceptedLoad l.start.toNat)

/-! ### The chip's part (R239) -/

def State.modPart (s : State) (p : BqPart → Bool) (f : BqPart → BqPart) : State :=
  { s with hawk := { s.hawk with parts := s.hawk.parts.map fun b => if p b then f b else b } }

def State.partOf (s : State) (handle : Nat) : Option BqPart := s.hawk.parts.find? fun b => b.handle == handle && b.state != 0

/-- HWK_LOAD_RESULT and HWK_LOAD_AMOUNT show the outcome of the chip's last load (R241). -/
def State.showLoad (s : State) (x : Option BqRefusal) : State :=
  match x with
  | none => (s.setReg .HWK_LOAD_RESULT 0 0).setReg .HWK_LOAD_AMOUNT 0 0
  | some x =>
    (s.setReg .HWK_LOAD_RESULT 0 (putBits (putBits (putBits (putBits (putBits 0 48 16 x.chip) 40 8 x.status) 32 8 x.resource)
      16 16 x.index) 0 16 x.offset)).setReg .HWK_LOAD_AMOUNT 0 (putBits (putBits 0 32 32 x.need) 0 32 x.limit)

/-- The refusal those registers show. -/
def State.shownLoad (s : State) : BqRefusal :=
  let w := s.reg .HWK_LOAD_RESULT
  let a := s.reg .HWK_LOAD_AMOUNT
  ⟨getBits w 40 8, getBits w 32 8, getBits w 48 16, getBits w 16 16, getBits w 0 16, getBits a 32 32, getBits a 0 32⟩

/-- The loader checks an image; a part that passes holds its claims under a free table entry (R239 step 2). -/
def State.loadImage (s : State) (load slice : Nat) (image : List Byte) : State :=
  let (s1, x) := s.loadCheck slice image
  match x with
  | some _ => s1.showLoad x
  | none =>
    let (v, s2) := s1.fresh
    let e := firstNotIn (s2.hawk.parts.map (·.entry)) 0 64 v 65
    let b : BqPart := {
      load := load, handle := 0, entry := e, slice := slice, bq := readBq image, start := 0, state := 0
      degraded := false, stopped := [], skips := [], stale := [], feeds := []
      ran := [], kernel := s2.activeBuild 1, tiles := []
      unloadAt := none }
    ({ s2 with hawk := { s2.hawk with parts := s2.hawk.parts ++ [b] } }).showLoad none

/-- The chip's answer to a load. -/
def State.answerLoad (s : State) (load : Nat) : State :=
  s.sendMgmt 0xFFFE (.bqAnswer load (if s.hawk.parts.any fun b => b.load == load then none else some s.shownLoad))

/-- BQ_LOAD_CHECK (R239): a chip receives an image, or the manager an answer. -/
def execBqLoadCheck (h : MsgHdr) (m : BqMsg) (s : State) : Out :=
  act s fun s =>
    match m with
    | .image load slice bytes =>
      s.fromManager h (fun (t : State) => if t.hawk.parts.any fun b => b.load == load then t else t.loadImage load slice.val bytes)
        fun (t : State) => t.answerLoad load
    | .answer load x =>
      s.atManager h fun (t : State) =>
        (t.answered fun dst body => dst == h.src.val && match body with | .bqImage l _ _ => l == load | _ => false).takeAnswer
          h.src.val load x

/-- Read for a step of the part. -/
def State.stepRd (s : State) (c : Nat) (remote : List RemoteRead) : Rd := fun a n =>
  match s.readAt c a n remote with
  | none => .error none
  | some (.error st) => .error (some st)
  | some (.ok b) => .ok b

/-- Bytes of W of a GATHER_MATMUL node. -/
def weightBytes (v : List Nat) : Nat := pv v 6 * streamBytes (pv v 9) (pv v 5)

/-- Read one core's tile, unless it is held already (R236, R247). -/
def State.readTile (s : State) (p : BqPart → Bool) (node : Nat) (n : BqNode) (core : Nat) (remote : List RemoteRead) : State :=
  let v := params n.typ n.param
  match s.stepRd n.ctx remote (pv v 1) (weightBytes v) with
  | .error none => s
  | .error (some st) => s.modPart p fun b => { b with tiles := b.tiles ++ [⟨node, core, st, []⟩] }
  | .ok w => s.modPart p fun b => { b with tiles := b.tiles ++ [⟨node, core, ST_OK, w⟩] }

/-- Read the tiles of this chip's PERSIST nodes that are not held yet. -/
def State.readTiles (s : State) (b : BqPart) (remote : List RemoteRead) : State :=
  (s.ownNodes b.bq).foldl (fun (t : State) q =>
    if q.1.typ ≠ 0x15 then t
    else (List.range q.1.cores).foldl (fun (u : State) j =>
      if b.tiles.any fun x => x.node == q.2 && x.core == j then u
      else u.readTile (fun x => x.load == b.load) q.2 q.1 j remote) t) s

/-- BQ_COMMIT_RECEIVE (R239): commit gives the part its handle and START, and the tiles are read from the pool (R236); abort
releases its claims. -/
def execBqCommitReceive (h : MsgHdr) (load : Nat) (go : Option (BitVec 32 × Wb)) (remote : List RemoteRead) (s : State) : Out :=
  act s fun s => s.fromManager h fun (t : State) =>
    match t.hawk.parts.find? fun b => b.load == load && b.handle == 0, go with
    | some b, some (handle, start) =>
      let t1 := t.modPart (fun x => x.load == load) fun x => { x with handle := handle.toNat, start := start, state := 1 }
      (t1.readTiles b remote).showParts
    | some _, none => ({ t with hawk := { t.hawk with parts := t.hawk.parts.filter fun x => x.load != load } }).showParts
    | none, _ => t

/-- BQ_START (R239 step 4): the first period begins. Tiles not read yet are read. -/
def execBqStart (handle : BitVec 32) (remote : List RemoteRead) (s : State) : Out :=
  act s fun s =>
    match s.partOf handle.toNat with
    | some b =>
      if b.state = 1 ∧ s.reached b.start then
        (s.readTiles b remote).modPart (fun x => x.load == b.load) (fun x => { x with state := 2 }) |>.showParts
      else s
    | none => s

/-! ### Cores (R227, R228) -/

def hwkIx (wing phys : Nat) : Nat := wing * 104 + phys

/-- The cores of a node take up work: STATE 2 scheduled, 3 unscheduled. -/
def State.takeCores (s : State) (handle : Nat) (n : BqNode) (st : Nat) : State :=
  (nodeCores n).foldl (fun (t : State) c =>
    let i := hwkIx n.wing (t.corePhys n.wing c)
    (((t.setFld F.HWK_CORE_STATUS_STATE i st).setFld F.HWK_CORE_STATUS_CONTEXT i n.ctx).setFld F.HWK_CORE_STATUS_BOUQUET i
      handle).bump F.HWK_CORE_COUNTS_STEPS i) s

/-- And end it, counted by how it ended. -/
def State.freeCores (s : State) (n : BqNode) (status : Nat) : State :=
  (nodeCores n).foldl (fun (t : State) c =>
    let i := hwkIx n.wing (t.corePhys n.wing c)
    let t1 := if t.fld F.HWK_CORE_STATUS_STATE i = 4 then t else t.setFld F.HWK_CORE_STATUS_STATE i 1
    let t2 := (t1.setFld F.HWK_CORE_STATUS_CONTEXT i 0).setFld F.HWK_CORE_STATUS_BOUQUET i 0
    if status = ST_OVERRUN then t2.bump F.HWK_CORE_COUNTS_OVERRUNS i
    else if status = ST_FAULT_UNIT then t2.bump F.HWK_CORE_COUNTS_FAULTS i
    else t2) s

/-- Every core of a node is there and holds what its local store must (R247). -/
def State.coresOk (s : State) (b : BqPart) (node : Nat) (n : BqNode) : Bool :=
  (nodeCores n).all fun c => !s.coreAbsent n.wing c && !b.stale.contains (node, c)
    && s.fld F.HWK_CORE_STATUS_STATE (hwkIx n.wing (s.corePhys n.wing c)) != 4

/-- Every port of this chip that the bouquet claims at an offset is UP (R116). -/
def State.claimsUp (s : State) (b : BqPart) (offset : Nat) : Bool :=
  b.bq.claims.all fun c => c.chip != s.chip || c.offset != offset || s.linkState c.port == PS_UP

/-- The part is DEGRADED (R116, R247). -/
def State.markDegraded (s : State) (handle : Nat) : State := s.degradePart handle

/-! ### What a step computes (R233 to R236, R243) -/

/-- A step's work: writes as context, address and bytes; inputs for COLL nodes as node, rank and bytes. -/
structure StepWork where
  writes : List (Nat × Nat × List Byte)
  feeds : List (Nat × Nat × List Byte)
  status : Nat
  extent : Nat
  aux : Nat
deriving DecidableEq, Repr

/-- The context in whose pages a member's addresses lie. -/
def State.memberCtx (s : State) (own : Nat) (m : BqMember) : Nat := if m.chip = s.chip then s.queueCtx m.queue else own

/-- The columns each core holds, in order (R236 step 1). -/
def tileCols (b : BqPart) (node : Nat) (n : BqNode) (v : List Nat) : Except (Option Nat) (List (List Nat)) := do
  let w := pv v 6 / max 1 n.cores
  let parts ← (List.range n.cores).mapM fun j =>
    match b.tiles.find? fun t => t.node == node && t.core == j with
    | none => Except.error none
    | some t => if t.status ≠ ST_OK then .error (some t.status) else .ok (((matCols v t.bytes).drop (j * w)).take w)
  return parts.flatten

/-- GATHER_MATMUL (R236): each member's activation by W. The shard of a member of another chip comes as the environment's
answer under its address plus rank × 2^64. -/
def State.workMatmul (s : State) (b : BqPart) (node : Nat) (n : BqNode) (v : List Nat) (remote : List RemoteRead)
    (rnd : Nat → Nat → Nat) : Except (Option Nat) StepWork := do
  let f := fun i => pv v i
  let cols ← tileCols b node n v
  let bias ← if f 2 = 0 then Except.ok [] else s.stepRd n.ctx remote (f 2) (4 * f 6)
  let rows ← (b.bq.members.zip (List.range b.bq.members.length)).mapM fun (q : BqMember × Nat) => do
    let at' := q.1.chip * 2 ^ 48 + f 0
    let bytes := f 4 * streamBytes (f 8) (f 5)
    let a ← if q.1.chip = s.chip then s.stepRd (s.memberCtx n.ctx q.1) remote at' bytes
      else s.stepRd n.ctx (remote.filterMap fun x =>
        if x.addr = at' + q.2 * 2 ^ 64 then some { x with addr := at' } else none) at' bytes
    return (q, matmulRows v a cols bias rnd)
  let out := if f 12 = 2 then [] else rows.map fun x =>
    let base := x.1.1.chip * 2 ^ 48
    let tgt := if f 12 = 0 then base + f 3 else base + 2 ^ 47 + x.1.1.port * 2 ^ 40 + f 3
    (s.memberCtx n.ctx x.1.1, tgt, x.2)
  let feeds := if f 12 = 2 then rows.map fun x => (f 7, x.1.2, x.2) else []
  return ⟨out, feeds, ST_OK, f 4 * b.bq.members.length, 0⟩

/-- A COLL node that another node drives (R243): every rank's input is in. -/
def State.workDriven (s : State) (b : BqPart) (node : Nat) (n : BqNode) : Except (Option Nat) StepWork := do
  let d := n.param.take 64
  let ins ← (List.range b.bq.members.length).mapM fun r =>
    match b.feeds.find? fun f => f.1 == node && f.2.1 == r with
    | some f => Except.ok f.2.2
    | none => .error none
  let count := match b.bq.nodes[slotNum n.param 72 2]? with
    | some g => pv (params g.typ g.param) 4 * pv (params g.typ g.param) 6
    | none => 0
  let res := drivenResult d count ins
  let tgt := slotNum n.param 64 8
  let writes := ((b.bq.members.zip res).filter fun q => q.2 != []).map fun q =>
    (s.memberCtx n.ctx q.1, q.1.chip * 2 ^ 48 + tgt, q.2)
  return ⟨writes, [], ST_OK, count, 0⟩

/-- What a step of a node does with its parameters; INSTANCE seeds its stochastic rounding (R232). -/
def State.stepWork (s : State) (b : BqPart) (node : Nat) (n : BqNode) (param : List Byte) (inst : Nat) (remote : List RemoteRead) :
    Except (Option Nat) StepWork :=
  let v := params n.typ param
  let rnd := fun (row i : Nat) => randWord b.bq.seed row inst (node + 1) i
  if n.typ = 0x01 then s.workDriven b node n
  else if n.typ = 0x15 then s.workMatmul b node n v remote rnd
  else (runOperator n.typ v (s.stepRd n.ctx remote) rnd).map fun o =>
    ⟨o.writes.map fun w => (n.ctx, w.1, w.2), [], o.status, o.extent, o.aux⟩

/-- Send bytes as WRITE packets that end at 4 KiB boundaries; `off` numbers them for the tag. -/
def State.sendPieces (s : State) (unit c epoch : Nat) (tag : Nat × Nat) : Nat → Nat → Nat → List Byte → State
  | 0, _, _, _ => s
  | fuel + 1, off, addr, bs =>
    if bs = [] then s
    else
      let n := pieceLen addr bs.length
      State.sendPieces (s.writeReq unit c epoch addr (bs.take n) (some ⟨tag.1, tag.2, off, n, none⟩)) unit c epoch tag fuel (off + n)
        (addr + n) (bs.drop n)

/-- Carry out a step's writes: this chip's pool at once, anything else as packets. The status is the first refusal's. -/
def State.stepWrites (s : State) (unit : Nat) (tag : Nat × Nat) (ws : List (Nat × Nat × List Byte)) : State × Nat :=
  let (t, st, _) := ws.foldl (fun (a : State × Nat × Nat) w =>
    let (t, st, off) := a
    if w.2.2 = [] then a
    else if t.isOwnPool w.2.1 then
      let (t1, x) := t.storeOwn w.1 (addrOffset w.2.1) w.2.2
      (t1, (if st = ST_OK then x else st), off + w.2.2.length)
    else
      (t.sendPieces unit w.1 (t.ctxEpoch w.1) tag (w.2.2.length / 64 + 2) off w.2.1 w.2.2, st, off + w.2.2.length)) (s, ST_OK, 0)
  (t, st)

/-- A step begins: what it reads is read, its cores are taken and its outputs sent. `op` is the OP command it runs for. A step
whose answers from elsewhere, tiles or inputs are not there has not begun. -/
def State.beginStep (s : State) (b : BqPart) (step : Nat) (st : BqStep) (n : BqNode) (param : List Byte) (inst : Nat)
    (op : Option (Nat × Nat)) (remote : List RemoteRead) : State :=
  let fault := !(n.typ == 0x01) && !s.coresOk b st.node n || !s.claimsUp b st.offset
  let work := if fault then .error (some ST_FAULT_UNIT) else s.stepWork b st.node n param inst remote
  let unit := (if n.typ = 0x01 then 0x81 else 0x85) + n.wing
  let tag := op.getD (20480, s.hawk.serial)
  let begin' := fun (t0 : State) (w : StepWork) =>
    let t := if n.typ = 0x01 then t0 else t0.takeCores b.handle n (if op.isSome then 3 else 2)
    let pseudo : RunCmd := {
      queue := 20480, index := s.hawk.serial, ctx := n.ctx, epoch := s.ctxEpoch n.ctx, opcode := 0x20, slot := []
      startFtu := s.ftu.toNat, begun := true, issued := 0, landed := [], fails := [], extent := 0, full := 1, lastChunk := none
      missing := 0, drops := 0, aux := w.aux, detail := 0, slipped := false, spilled := false
      progFtu := 0, progWb := 0, stop := false, ended := none
      blocks := [], chunkLen := 0, own := (0, 0), pos := 0, endAt := none
      ranges := [] }
    let t1 := if op.isSome then t else { t with que := { t.que with runs := t.que.runs ++ [pseudo] } }
    let (t2, x) := t1.stepWrites unit tag w.writes
    let run : StepRun := ⟨b.handle, step, op, tag, (if x = ST_OK then w.status else x), w.extent, w.aux, s.wb⟩
    let t3 := { t2 with hawk := { t2.hawk with runs := t2.hawk.runs ++ [run], serial := t2.hawk.serial + 1 } }
    t3.modPart (fun y => y.load == b.load) fun y => { y with
      ran := (y.ran.filter fun z => z.2 == s.wb) ++ [(step, s.wb)]
      feeds := (y.feeds.filter fun f => !(n.typ == 0x01 && f.1 == st.node)
        && !(w.feeds.any fun g => g.1 == f.1 && g.2.1 == f.2.1)) ++ w.feeds }
  match work with
  | .error none => s
  | .error (some x) => (begin' s ⟨[], [], x, 0, 0⟩).when fault fun t => t.markDegraded b.handle
  | .ok w => begin' s w

/-! ### Scheduled steps (R242, R243) -/

/-- A context's steps run: it is neither stopped by an overrun nor reset and not yet released (R34, R246). -/
def State.ctxSteps (s : State) (b : BqPart) (c : Nat) : Bool :=
  !b.stopped.contains c && b.skips.all fun q => q.1 != c || s.reached q.2

/-- The step is due in this wingbeat (R242). -/
def State.stepDue (s : State) (b : BqPart) (st : BqStep) : Bool :=
  b.state == 2 && s.reached b.start && (s.wb - b.start).toNat % max 1 b.bq.period == st.offset

/-- STEP_RUN (R242): an AUTO step of a Hawk node, or a COLL node that a node drives. Steps that members drive run as their
commands' chunks come (R200, R243). -/
def execStepRun (handle : BitVec 32) (step : Nat) (remote : List RemoteRead) (s : State) : Out :=
  act s fun s =>
    match s.partOf handle.toNat with
    | none => s
    | some b =>
      match b.bq.steps[step]? with
      | none => s
      | some st =>
        match b.bq.nodes[st.node]? with
        | none => s
        | some n =>
          let drives : Bool := if n.typ = 0x01 then slotNum n.param 72 2 != 0xFFFF else st.auto
          if n.chip = s.chip ∧ drives ∧ s.stepDue b st ∧ s.ctxSteps b n.ctx ∧ !(b.ran.contains (step, s.wb)) then
            s.beginStep b step st n n.param ((s.wb - b.start).toNat / max 1 b.bq.period % 2 ^ 32) none remote
          else s

def State.stepNode (s : State) (x : StepRun) : Option (BqPart × BqStep × BqNode) :=
  (s.partOf x.handle).bind fun b => (b.bq.steps[x.step]?).bind fun st => (b.bq.nodes[st.node]?).map fun n => (b, st, n)

def State.dropStepRun (s : State) (x : StepRun) : State :=
  { s with hawk := { s.hawk with runs := s.hawk.runs.filter fun y => y.tag != x.tag }
           que := { s.que with runs := s.que.runs.filter fun r => !(r.queue == 20480 && (r.queue, r.index) == x.tag) } }

/-- An AUTO step reports (R242): SIGNAL_CTR for ST_OK, a record in REPORT_QUEUE for any other status, or one more lost. -/
def State.reportStep (s : State) (x : StepRun) (node : Nat) (n : BqNode) (st extent : Nat) (r : RunCmd) : State :=
  if st = ST_OK then (if n.sigCtr = 0xFFFF then s else s.addCounter n.ctx n.sigCtr 1)
  else if s.fld F.QUE_CFG_STATE n.queue ≠ 0 ∧ serialDiff (s.cqTail n.queue + 1) (s.cqHead n.queue) ≤ 2 ^ s.cqLog n.queue then
    (s.writeRecord n.queue node { r with extent := extent, aux := x.aux, ctx := n.ctx, full := extent } st).bump
      F.HWK_REPORTS_WRITTEN n.wing
  else s.bump F.HWK_REPORTS_LOST n.wing

/-- An AUTO step that runs ends with a status. -/
def State.endStep (s : State) (x : StepRun) (st extent : Nat) : State :=
  match s.stepNode x, s.run x.tag.1 x.tag.2 with
  | some (_, bs, n), some r =>
    let s1 := if n.typ = 0x01 then s else s.freeCores n st
    (s1.dropStepRun x).reportStep x bs.node n st extent r
  | _, _ => s.dropStepRun x

/-- The status a step that runs ends with by its own outputs: the lowest failure, or its work's. -/
def State.stepStatus (s : State) (x : StepRun) : Nat :=
  match (s.run x.tag.1 x.tag.2).bind fun r => firstFail r.fails with
  | some f => if x.status = ST_OK then f.2 else x.status
  | none => x.status

/-- STEP_COMPLETE (R242): every output of an AUTO step has landed. -/
def execStepComplete (handle : BitVec 32) (step : Nat) (s : State) : Out :=
  act s fun s =>
    match s.hawk.runs.find? fun x => x.handle == handle.toNat && x.step == step && x.op.isNone with
    | some x => if s.quiet x.tag.1 x.tag.2 then s.endStep x (s.stepStatus x) x.extent else s
    | none => s

/-! ### OP commands (R244) -/

/-- A bouquet step that an OP slot names. -/
def State.opStep (s : State) (sl : List Byte) : Option (BqPart × BqStep × BqNode) :=
  (s.partOf (slotNum sl 32 4)).bind fun b => (b.bq.steps[slotNum sl 36 2]?).bind fun st =>
    (b.bq.nodes[st.node]?).map fun n => (b, st, n)

/-- OP (R244): the refusals at its start, and the ARG block, which is kept behind the slot. -/
def execOp (queue : Queue) (index : BitVec 32) (remote : List RemoteRead) (s : State) : Out :=
  act s fun s =>
    let q := queue.val
    let i := index.toNat
    match s.fresh? q i 0x20 with
    | none => s
    | some r =>
      match s.opStep r.slot with
      | none => s.endCmd q i ST_REFUSED_STATE 0
      | some (b, st, n) =>
        let arg := slotNum r.slot 40 8
        let go := fun (block : List Byte) => s.modRun q i fun r => { r with begun := true, pos := s.wb.toNat, slot := r.slot ++ block }
        if b.state ≠ 2 ∨ st.opAllowed = false ∨ n.typ = 0x01 then s.endCmd q i ST_REFUSED_STATE 0
        else if n.chip ≠ s.chip ∨ r.ctx ≠ n.ctx then s.endCmd q i ST_REFUSED_AUTH 0
        else if arg = 0 then go []
        else
          match s.readAt r.ctx arg 96 remote with
          | none => s
          | some (.error x) => s.endCmd q i x 0
          | some (.ok block) =>
            if nodeParamOk n block = false then s.endCmd q i ST_REFUSED_FORMAT 0
            else if s.nodeRangesOk b.slice n block = false then s.endCmd q i ST_REFUSED_AUTH 0
            else go block

/-- A core holds no scheduled group in this wingbeat and runs nothing (R228). -/
def State.coreFree (s : State) (wing c : Nat) : Bool :=
  groupsOn s.heldBqs s.chip wing c (s.wb.toNat % 4096) == 0
  && !(s.hawk.runs.any fun x => match s.stepNode x with
    | some (_, _, n) => n.typ != 0x01 && n.wing == wing && (nodeCores n).contains c
    | none => false)

/-- An OP command that waits for its cores. -/
def State.opWaits (s : State) (q i : Nat) : Option RunCmd :=
  (s.run q i).bind fun r =>
    if r.opcode = 0x20 ∧ r.begun ∧ r.ended.isNone ∧ !(s.hawk.runs.any fun x => x.op == some (q, i)) then some r else none

/-- OP_STEP_START (R244): at a boundary after its start every core of the node is free. -/
def execOpStepStart (queue : Queue) (index : BitVec 32) (remote : List RemoteRead) (s : State) : Out :=
  act s fun s =>
    let q := queue.val
    let i := index.toNat
    match s.opWaits q i with
    | none => s
    | some r =>
      match s.opStep r.slot with
      | none => s
      | some (b, st, n) =>
        let since := (s.wb - BitVec.ofNat 48 r.pos).toNat
        if 1 ≤ since ∧ since ≤ 64 ∧ b.state = 2 ∧ s.power.pace = 0 ∧ (nodeCores n).all (fun c => s.coreFree n.wing c) then
          let param := if r.slot.length ≤ 64 then n.param else r.slot.drop 64
          s.beginStep b (slotNum r.slot 36 2) st n param (i % 2 ^ 32) (some (q, i)) remote
        else s

/-- OP_NO_FIT (R244): 64 wingbeats have gone by. -/
def execOpNoFit (queue : Queue) (index : BitVec 32) (s : State) : Out :=
  act s fun s =>
    match s.opWaits queue.val index.toNat with
    | some r => if 64 ≤ (s.wb - BitVec.ofNat 48 r.pos).toNat then s.endCmd queue.val index.toNat ST_REFUSED_FIT 0 else s
    | none => s

/-- The step of an OP command ends: its cores are free again, and the command has its status. -/
def State.endOp (s : State) (x : StepRun) (st extent : Nat) : State :=
  match x.op with
  | none => s
  | some (q, i) =>
    let s1 := match s.stepNode x with
      | some (_, _, n) => s.freeCores n st
      | none => s
    (s1.dropStepRun x).modRun q i fun r => { r with ended := some st, extent := extent, aux := x.aux }

/-! ### The budget monitor (R34, R35) -/

/-- A bouquet stops in a context; once every context that its nodes name is stopped, it is STOPPED (R34, R245). -/
def State.stopIn (s : State) (handle c : Nat) : State :=
  (s.modPart (fun b => b.handle == handle) fun b =>
    let stopped := if b.stopped.contains c then b.stopped else b.stopped ++ [c]
    let all := (b.bq.nodes.filter fun n => n.chip == s.chip).all fun n => stopped.contains n.ctx
    { b with stopped := stopped, state := if b.state = 2 ∧ all then 3 else b.state }).showParts

def overrunFld (w : Nat) : Fld :=
  match w with | 0 => F.FT_OVERRUN_WING0 | 1 => F.FT_OVERRUN_WING1 | 2 => F.FT_OVERRUN_WING2 | _ => F.FT_OVERRUN_WING3

/-- A CONTEXT reset of the context falls on this tick (R35). -/
def State.resetNow (s : State) (c : Nat) : Bool :=
  match (s.ctx c).resetAt with
  | some b => s.reached b
  | none => false

/-- A step that runs past its wingbeat ends: a failed core's status stands (Table 11.11), a reset of its context comes first
(R35), and an overrun stops the bouquet in the context. How much of it was done is free. -/
def State.overrun (s : State) (wing : Nat) (x : StepRun) (n : BqNode) : State :=
  let own := s.stepStatus x
  let (v, s1) := s.fresh
  let done := v % (x.extent + 1)
  match x.op with
  | some _ =>
    if own = ST_FAULT_UNIT then s1.endOp x own 0
    else if s1.resetNow n.ctx then s1.endOp x ST_ABORT_CONTEXT 0
    else (s1.endOp x ST_OVERRUN 0).bump F.HWK_REPORTS_OP_OVERRUNS n.wing
  | none =>
    if own = ST_FAULT_UNIT then s1.endStep x own x.extent
    else if s1.resetNow n.ctx then s1.endStep x ST_ABORT_CONTEXT done
    else ((s1.endStep x ST_OVERRUN done).bump (overrunFld wing)).stopIn x.handle n.ctx

/-- A scheduled chunk that computes at the tick: every input is in and no output has come (R33, R34). -/
def chunkComputes (n : CollNode) (c : CollChunk) : Bool :=
  !isExchangeNode n && c.out.isNone && c.abort.isNone && n.bad.isEmpty && decide (0 < c.late)
  && n.ins.all fun i => c.parts.any fun q => q.input == i.rank

/-- Such a chunk ends its members' commands there with ST_OVERRUN, or ST_ABORT_CONTEXT where a reset falls on the tick. -/
def State.overrunChunk (s : State) (wing : Nat) (n : CollNode) (c : CollChunk) (handle ctx : Nat) : State :=
  let st := if s.resetNow ctx then ST_ABORT_CONTEXT else ST_OVERRUN
  let s1 := n.members.foldl (fun (t : State) m => t.endAtChunk m.queue m.index c.num st) s
  let s2 := s1.chunkUpd n 0xFFFF c.num fun x => { x with undelivered := true }
  if st = ST_OVERRUN then (s2.bump (overrunFld wing)).stopIn handle ctx else s2

/-- BUDGET_OVERRUN (R34): at the tick, a wing's monitor ends every step that began in an earlier wingbeat and has not ended. -/
def execBudgetOverrun (wing : Wing) (s : State) : Out :=
  act s fun s =>
    let s1 := s.hawk.runs.foldl (fun (t : State) x =>
      match t.stepNode x with
      | some (_, _, n) => if n.wing = wing.val ∧ x.wb ≠ t.wb then t.overrun wing.val x n else t
      | none => t) s
    s.coll.nodes.foldl (fun (t : State) n =>
      match n.sched with
      | some (h, k) =>
        if n.wing ≠ wing.val then t
        else
          let ctx := (((t.partOf h).bind fun b => b.bq.nodes[k]?).map (·.ctx)).getD n.owner
          n.chunks.foldl (fun (u : State) c => if chunkComputes n c then u.overrunChunk wing.val n c h ctx else u) t
      | none => t) s1

/-! ### Unloading (R245) -/

/-- A node's collective stops at the next chunk boundary (R111 step 3, R245): nothing past it is issued, and members that have
more to come end there with ST_ABORT_STOP. -/
def State.stopColl (s : State) (n : CollNode) : State :=
  let k := n.next.1 + (if 0 < n.next.2 then 1 else 0)
  let s1 := s.modNode n fun x => { x with stopAt := some (match x.stopAt with | some a => min a k | none => k) }
  n.members.foldl (fun (t : State) m =>
    match t.run m.queue m.index with
    | some r =>
      if isExchangeNode n then t.endAtChunk m.queue m.index 0 ST_ABORT_STOP
      else if k < chunkCount r.chunkLen r.blocks then t.endAtChunk m.queue m.index k ST_ABORT_STOP
      else t
    | none => t) s1

/-- OP commands of a bouquet end: those that wait at once, those that run with ST_ABORT_STOP unless they have failed. -/
def State.stopOps (s : State) (handle : Nat) : State :=
  s.que.runs.foldl (fun (t : State) r =>
    if r.opcode = 0x20 ∧ r.queue < 16384 ∧ slotNum r.slot 32 4 = handle ∧ r.ended.isNone then
      if t.hawk.runs.any fun x => x.op == some (r.queue, r.index) then
        let stop := fun (x : StepRun) =>
          if x.op = some (r.queue, r.index) ∧ x.status = ST_OK then { x with status := ST_ABORT_STOP } else x
        { t with hawk := { t.hawk with runs := t.hawk.runs.map stop } }
      else t.endCmd r.queue r.index ST_ABORT_STOP 0
    else t) s

/-- BQ_UNLOAD_BOUNDARY (R245): from u no step starts, and attached COLL commands and OP commands stop. A part that a COMPUTE reset
removed still holds its claims (R246). -/
def execBqUnloadBoundary (handle : BitVec 32) (u : Wb) (s : State) : Out :=
  act s fun s =>
    match s.hawk.parts.find? fun b => b.handle == handle.toNat && b.handle != 0 with
    | some b =>
      if b.unloadAt.isSome ∨ !s.reached u then s
      else
        let stop := fun (x : BqPart) => { x with state := if x.state = 0 then 0 else 4, unloadAt := some u }
        let s1 := (s.modPart (fun x => x.load == b.load) stop).stopOps handle.toNat
        ((s1.coll.nodes.filter fun n => (n.sched.map (·.1)) == some handle.toNat).foldl State.stopColl s1).showParts
    | none => s

/-- BQ_UNLOAD_RELEASE (R245): at u + 2 the claims and the handle are released, on the chip and by the manager. -/
def execBqUnloadRelease (handle : BitVec 32) (s : State) : Out :=
  act s fun s =>
    let h := handle.toNat
    let past := fun (u : Option Wb) => match u with | some u => s.reached (u + 2#48) | none => false
    let s1 := if s.hawk.parts.any fun b => b.handle == h && h != 0 && past b.unloadAt then
        ({ s with hawk := { s.hawk with parts := s.hawk.parts.filter fun b => b.handle != h } }).showParts
      else s
    match s.mgr.loads.find? fun l => l.handle == h && h != 0 && past l.unloadAt with
    | some l => (s1.dropLoad l.id).startLoads
    | none => s1

/-! ### Failed cores and resets (R246, R247) -/

/-- TILE_RELOAD (R247): the new core of a PERSIST node is free, pacing admits the reload (R369), and its local store is read again. -/
def execTileReload (handle : BitVec 32) (node core : Nat) (remote : List RemoteRead) (s : State) : Out :=
  act s fun s =>
    match s.partOf handle.toNat with
    | none => s
    | some b =>
      match b.bq.nodes[node]? with
      | none => s
      | some n =>
        if b.stale.contains (node, core) = false ∨ s.coreAbsent n.wing core ∨ s.coreFree n.wing core = false ∨ s.power.pace ≠ 0 then s
        else
          let j := core - n.first % 96
          let hit := fun (x : BqPart) => x.load == b.load
          let done := fun (t : State) => t.modPart hit fun x => { x with stale := x.stale.erase (node, core) }
          if n.typ ≠ 0x15 then done s
          else
            let s1 := s.modPart hit fun x => { x with tiles := x.tiles.filter fun t => !(t.node == node && t.core == j) }
            let s2 := s1.readTile hit node n j remote
            if (s2.hawk.parts.any fun x => hit x && x.tiles.any fun t => t.node == node && t.core == j) then done s2 else s

/-- A core fails (R247): the steps on it end with ST_FAULT_UNIT, and PERSIST nodes there wait for a reload. -/
def State.coreFailed (s : State) (wing core : Nat) : State :=
  let on := fun (n : BqNode) => n.typ != 0x01 && n.chip == s.chip && n.wing == wing && (nodeCores n).contains core
  let s1 := s.hawk.runs.foldl (fun (t : State) x =>
    match t.stepNode x with
    | some (_, _, n) =>
      if on n then (if x.op.isSome then t.endOp x ST_FAULT_UNIT 0 else t.endStep x ST_FAULT_UNIT x.extent) else t
    | none => t) s
  let f := fun (b : BqPart) =>
    let hit := (b.bq.nodes.zip (List.range b.bq.nodes.length)).filter fun q =>
      on q.1 && q.1.flags == 1 && !b.stale.contains (q.2, core)
    { b with stale := b.stale ++ hit.map fun q => (q.2, core) }
  { s1 with hawk := { s1.hawk with parts := s1.hawk.parts.map f } }

/-- A logical core becomes ABSENT (R247): the bouquets that name it are DEGRADED. -/
def State.coreLost (s : State) (wing core : Nat) : State :=
  s.hawk.parts.foldl (fun (t : State) b =>
    if b.bq.nodes.any fun n => n.typ != 0x01 && n.chip == t.chip && n.wing == wing && (nodeCores n).contains core then
      t.markDegraded b.handle else t) s

/-- A context is reset at `b` (R246): its steps end with ST_ABORT_CONTEXT, are skipped until b + 2, and its stop ends. -/
def State.resetSteps (s : State) (c : Nat) (b : Wb) : State :=
  let s1 := s.hawk.runs.foldl (fun (t : State) x =>
    match t.stepNode x with
    | some (_, _, n) =>
      if n.ctx = c then (if x.op.isSome then t.endOp x ST_ABORT_CONTEXT 0 else t.endStep x ST_ABORT_CONTEXT x.extent) else t
    | none => t) s
  let f := fun (p : BqPart) =>
    if p.bq.nodes.any fun n => n.chip == s.chip && n.ctx == c then
      { p with
        stopped := p.stopped.filter fun x => x != c
        skips := (p.skips.filter fun q => q.1 != c) ++ [(c, b + 2#48)]
        state := if p.state = 3 then 2 else p.state }
    else p
  ({ s1 with hawk := { s1.hawk with parts := s1.hawk.parts.map f } }).showParts

/-- A COMPUTE reset removes every part of the chip; the claims of those loaded stay held until they are unloaded (R246, R354). -/
def State.dropParts (s : State) : State :=
  let gone := fun (b : BqPart) =>
    { b with state := 0, stopped := [], skips := [], stale := [], feeds := [], ran := [], tiles := [] }
  ({ s with hawk := { s.hawk with parts := s.hawk.parts.map gone, runs := [] }
            que := { s.que with runs := s.que.runs.filter fun r => r.queue != 20480 } }).showParts

end Sys2Proof.Machine
end

