-- ==== Sys2Proof/Machine/Antenna.lean ====
section
/-! DEFINITION. Sys2Proof/Machine/Antenna.lean: the Antenna ports' link states, INIT exchange, replay, and events (R308 to R316).
The frames READ, WRITE and MBX_SEND stand in Access.lean.
(log entries of this file: DEDUCED 74, 98) -/

namespace Sys2Proof.Machine

/-- The port's SEQ numbers and frames start afresh (R311). -/
def State.antFresh (s : State) (a : Nat) : State :=
  s.modAnt a fun q => { q with
    gotInit := false, gotAck := false, sentAck := false, txSeq := 0, rxSeq := 0, unacked := [], waiting := [], owed := false
    progress := s.ftu, nakAt := none, since := s.ftu, bell := false }

/-- Change the port's state; leaving UP counts, ends the chains that use the port, and restarts its owner (R309, R318). -/
def State.antGo (s : State) (a state : Nat) : State :=
  let was := s.antState a
  let s1 := (s.setFld F.ANT_STATUS_STATE a state).antFresh a
  if was = AN_UP ∧ s.power.frozen = false then ((s1.bump F.ANT_COUNTS_DOWNS a).hostLost a).ownerRestart (a + 1) else s1

/-- The port enters UP (R311): the first frame carries every pending unmasked doorbell bit (R325). -/
def State.antEnterUp (s : State) (a : Nat) : State :=
  let s1 := s.setFld F.ANT_STATUS_STATE a AN_UP
  let s2 := (s1.modAnt a fun q => { q with since := s.ftu, progress := s.ftu })
  let s3 := { s2 with power := { s2.power with alertAnt := false } }
  if s3.dbPending (a + 1) = 0 then s3 else s3.sendBell a

/-- INIT has been exchanged both ways with ACK. -/
def State.antCheckUp (s : State) (a : Nat) : State :=
  let q := s.ant a
  if s.antState a = AN_INIT ∧ q.gotAck ∧ q.sentAck then s.antEnterUp a else s

/-- ANT_SIGNAL_DETECT (R309): signal on all four wavelengths. The port needs its SerDes reference (R396). -/
def execAntSignalDetect (port : Antenna) (s : State) : Out :=
  actAnt s fun s =>
    if s.antState port.val = AN_DOWN ∧ s.power.refsLost.contains 0 = false then s.antGo port.val AN_TRAINING else s

/-- ANT_FEC_ALIGN (R309): FEC aligns on every lane within 100 ms. -/
def execAntFecAlign (port : Antenna) (s : State) : Out :=
  actAnt s fun s =>
    if s.antState port.val = AN_TRAINING then
      (s.antGo port.val AN_INIT).setFld F.ANT_STATUS_LANES port.val 15
    else s

/-- ANT_TRAIN_TIMEOUT (R309): 100 ms have passed in TRAINING or in INIT. -/
def execAntTrainTimeout (port : Antenna) (s : State) : Out :=
  actAnt s fun s =>
    let st := s.antState port.val
    if (st = AN_TRAINING ∨ st = AN_INIT) ∧ usFtu 100000 ≤ s.since (s.ant port.val).since then
      (s.antGo port.val AN_DOWN).setFld F.ANT_STATUS_LANES port.val 0
    else s

/-- ANT_LOSS (R308): a wavelength loses signal, or FEC alignment is lost; `lanes` still have both. -/
def execAntLoss (port : Antenna) (lanes : Fin 16) (s : State) : Out :=
  actAnt s fun s =>
    if lanes.val = 15 ∨ s.antState port.val = AN_DOWN then s
    else (s.antGo port.val AN_DOWN).setFld F.ANT_STATUS_LANES port.val lanes.val

/-- RETRAIN of ANT_CTL (R309). -/
def State.antRetrain (s : State) (a : Nat) : State := (s.antGo a AN_DOWN).setFld F.ANT_STATUS_LANES a 0

/-- ANT_RETRAIN (R309). -/
def execAntRetrain (owner : Owner) (port : Antenna) (s : State) : Out :=
  accessBy owner.val s fun s => (s.antRetrain port.val, ST_OK, 0)

/-- The data of the part's INIT frame (R311). -/
def State.initData (s : State) (a : Nat) : List Byte :=
  [0] ++ leBytes 1 a ++ [1, 64] ++ leBytes 2 s.chip ++ leBytes 1 (s.fld (ownerEpoch (a + 1))) ++ [0]
  ++ leBytes 8 (s.reg .SEC_DEVICE_ID).toNat

/-- ANT_INIT_SEND (R311): ACK is set once a valid INIT of the peer has come. -/
def execAntInitSend (port : Antenna) (s : State) : Out :=
  actAnt s fun s =>
    let a := port.val
    if s.antState a = AN_INIT then
      let q := s.ant a
      let s1 := s.antEmit a { antFrame 0x30 with flags := if q.gotInit then 1 else 0, len := 16, data := s.initData a }
      (s1.modAnt a fun q => { q with sentAck := q.sentAck || q.gotInit }).antCheckUp a
    else s

/-- ANT_INIT_RECEIVE (R311): ROLE, VERSION and MAX_OUT of a valid INIT of a control node; while UP it returns the port to
INIT. -/
def execAntInitReceive (port : Antenna) (good ack : Bool) (role version maxOut : Fin 256) (s : State) : Out :=
  actAnt s fun s =>
    let a := port.val
    let valid : Bool := role == 1 && version == 1 && decide (16 ≤ maxOut.val)
    if s.antState a < AN_INIT then s
    else if good = false then s.bump F.ANT_COUNTS_CRC_ERRORS a
    else if valid = false then s
    else
      let s1 := if s.antState a = AN_UP then s.antGo a AN_INIT else s
      (s1.modAnt a fun q => { q with gotInit := true, gotAck := q.gotAck || ack, maxOut := maxOut.val }).antCheckUp a

/-! ### Replay (R312) -/

/-- Replay every unacknowledged frame in SEQ order. A frame that has been replayed 8 times takes the port DOWN instead. -/
def State.antReplay (s : State) (a : Nat) : State :=
  let q := s.ant a
  if q.unacked.any fun x => decide (8 ≤ x.replays) then s.antRetrain a
  else if q.unacked = [] then s
  else
    let s1 := (s.setAnt a { q with
      unacked := q.unacked.map fun x => { x with replays := x.replays + 1 }, progress := s.ftu }).bump F.ANT_COUNTS_REPLAYS a
    q.unacked.foldl (fun (t : State) (x : AntSent) => t.antEmit a x.frame) s1

/-- ANT_LINK_ACK (R312). -/
def execAntLinkAck (port : Antenna) (good : Bool) (ack : Fin 65536) (s : State) : Out :=
  actAnt s fun s =>
    if s.antState port.val ≠ AN_UP then s
    else if good = false then (s.bump F.ANT_COUNTS_CRC_ERRORS port.val).antNak port.val
    else s.antAcked port.val ack

/-- ANT_LINK_NAK (R312): ACK_SEQ names the last good frame; the rest is replayed. -/
def execAntLinkNak (port : Antenna) (good : Bool) (ack : Fin 65536) (s : State) : Out :=
  actAnt s fun s =>
    if s.antState port.val ≠ AN_UP then s
    else if good = false then (s.bump F.ANT_COUNTS_CRC_ERRORS port.val).antNak port.val
    else (s.antAcked port.val ack).antReplay port.val

/-- ANT_REPLAY_TIMEOUT (R312): 20 µs without progress. -/
def execAntReplayTimeout (port : Antenna) (s : State) : Out :=
  actAnt s fun s =>
    let q := s.ant port.val
    if s.antState port.val = AN_UP ∧ q.unacked ≠ [] ∧ usFtu 20 ≤ s.since q.progress then s.antReplay port.val else s

/-- ANT_LINK_ACK_SEND (R312): nothing else has carried the acknowledgement. -/
def execAntLinkAckSend (port : Antenna) (s : State) : Out :=
  actAnt s fun s =>
    if s.antState port.val = AN_UP ∧ (s.ant port.val).owed then s.antEmit port.val (antFrame 0x31) else s

/-- HOST_TIMEOUT (R315): a host request has no answer after 1 ms. -/
def execHostTimeout (port : Antenna) (s : State) : Out :=
  act s fun s =>
    if s.antState port.val = AN_UP ∧ (s.ant port.val).hosts.any (fun h => decide (usFtu 1000 ≤ s.since h.sentAt)) then
      s.antRetrain port.val
    else s

/-! ### Events (R316) -/

/-- An event record (Table 15.5). -/
def eventBytes (e : EvtRec) : List Byte :=
  let args := (e.args.flatMap fun x => leBytes x.2 x.1).take 16
  leBytes 1 e.code ++ [0] ++ leBytes 2 e.chip ++ leBytes 4 e.seq ++ leBytes 8 e.ftu ++ args
  ++ List.replicate (16 - args.length) 0

/-- EVENT_FRAME_SEND (R316): up to 128 records not yet on their way, while the port is UP and EVT_EN is set. -/
def execEventFrameSend (port : Antenna) (s : State) : Out :=
  act s fun s =>
    let a := port.val
    let q := s.ant a
    let sent := (q.unacked ++ q.waiting).flatMap (·.events)
    let evs := (q.events.filter fun e => !sent.contains e.seq).take 128
    if s.antState a ≠ AN_UP ∨ s.flag F.ANT_CTL_EVT_EN a = false ∨ evs = [] then s
    else
      let data := evs.flatMap eventBytes
      s.antQueue a { antFrame 0x20 with len := data.length, data := data } (evs.map (·.seq))

end Sys2Proof.Machine
end

