-- ==== Sys2Proof/Machine/Firmware.lean ====
section
/-! DEFINITION. Sys2Proof/Machine/Firmware.lean: the firmware command interface: acceptance, the journal, results, and images
(R326 to R339).
(log entries of this file: DEDUCED 75, 76, 77; DESIGN CHOICE 19) -/

namespace Sys2Proof.Machine

/-! ### Commands by opcode (Tables 16.5 to 16.12) -/

/-- How a command takes its argument: nothing, bits of ARG (as a mask), or a block with so many body bytes, `none` where the
length varies. -/
inductive FwArg where
  | nothing
  | bits (mask : Nat)
  | block (bytes : Option Nat)
deriving DecidableEq, Repr

/-- The argument of a command by opcode; `none` for a reserved one (R335). -/
def fwArg (op : Nat) : Option FwArg :=
  match op with
  | 0x01 => some (.block (some 40))
  | 0x02 => some .nothing
  | 0x03 => some (.bits 0xFFFF)
  | 0x04 => some (.block none)
  | 0x10 => some (.bits 0x3)
  | 0x11 | 0x12 => some (.block none)
  | 0x13 => some (.bits 0x1)
  | 0x14 => some (.bits 0x3)
  | 0x15 => some (.block (some 20))
  | 0x16 | 0x17 | 0x18 => some (.bits 0xFFFFFFFF)
  | 0x19 => some .nothing
  | 0x1A | 0x1B => some (.bits 0xFFFF)
  | 0x20 | 0x21 => some (.block none)
  | 0x22 | 0x23 => some (.bits 0x3FF03FF)
  | 0x24 => some (.block (some 8))
  | 0x25 => some (.bits 0x3FF)
  | 0x26 => some (.block (some 16))
  | 0x27 => some (.bits 0x1FFFFFFFFF)
  | 0x28 => some (.bits 0x7FFFF)
  | 0x29 | 0x2A => some (.bits 0xFFF)
  | 0x2B | 0x2C => some (.block (some 16))
  | 0x2D => some (.block (some 24))
  | 0x2E => some (.bits 0x7FFFFF)
  | 0x2F => some (.block none)
  | 0x30 => some (.block (some 20))
  | 0x31 | 0x32 => some (.bits 0xFFFFFFFF)
  | 0x40 => some (.bits 0x37F)
  | 0x41 => some (.bits 0x3FF007F)
  | 0x42 => some (.bits 0xFF)
  | 0x43 => some (.bits 0x7F)
  | 0x44 => some (.block (some 24))
  | 0x45 => some (.block (some 56))
  | 0x46 => some (.block (some 8))
  | 0x50 => some (.block (some 16))
  | 0x51 => some (.bits 0x3)
  | 0x52 | 0x53 => some .nothing
  | 0x60 => some (.bits 0x7)
  | 0x61 => some (.bits 0xFF03)
  | 0x62 => some (.bits 0x1)
  | 0x63 => some (.block (some 16))
  | 0x70 => some .nothing
  | 0x71 => some (.block (some 8))
  | 0x72 => some .nothing
  | 0x73 => some (.block (some 12))
  | 0x80 => some (.bits 0xFFFFFFFF)
  | 0x81 => some .nothing
  | 0x82 => some (.bits 0x7FF)
  | 0x90 => some (.bits 0xFF)
  | 0xA0 => some .nothing
  | _ => none

/-- The result block a command needs, in bytes, from its argument (Tables 16.5 to 16.12); `none` where it needs no block. -/
def State.fwBlock (s : State) (op arg : Nat) : Option Nat :=
  match op with
  | 0x01 => some 11877
  | 0x02 => some (Config.identityCert.length + Config.variantCert.length + Config.signingCert.length)
  | 0x03 => some ((s.sec.log.length - arg % 65536) * 48)
  | 0x19 => some 32
  | 0x30 => some 32
  | 0x32 => some 48
  | 0x51 => some (8 * s.mgr.service.length)
  | 0x52 => some 32
  | 0x80 => some ((s.cocoon.defects.length - arg % 2 ^ 32) * 16)
  | 0x81 => some 96
  | 0x90 => some (match arg % 256 with | 0 => 32 | 1 => 64 | 2 => 48 | _ => 0)
  | 0xA0 => some 32
  | _ => none

/-- Commands that the forward-only monitor answers (R367). -/
def monitorAnswers (op : Nat) : Bool :=
  [0x02, 0x03, 0x52, 0x90, 0x80, 0x81, 0x70, 0x2A, 0x60, 0x61, 0x62].contains op

/-! ### Words and blocks (R327, R328) -/

def wordOp (w : Word) : Nat := getBits w 56 8
def wordSeq (w : Word) : Nat := getBits w 40 16
def wordForm (w : Word) : Nat := getBits w 38 2
def wordArg (w : Word) : Nat := getBits w 0 38

/-- The command area of an owner in Thorax SRAM: first offset, and bytes (R327). -/
def commandArea (owner : Nat) : Option (Nat × Nat) :=
  if owner = 1 then some (0x3E00000, 0x80000)
  else if owner = 2 then some (0x3E80000, 0x80000)
  else if owner = 4 then some (0x3F00000, 0x80000)
  else none

/-- A range lies in an owner's command area. -/
def inArea (owner off n : Nat) : Bool :=
  match commandArea owner with
  | some (b, len) => decide (b ≤ off) && decide (off + n ≤ b + len)
  | none => false

/-- A command as delivered: sender's space, the mailbox and owner it came by, its word, and its block with FORM 3 for a block that
comes inline in a MGMT datagram (R338). -/
structure FwPost where
  space : FwSpace
  mbx : Nat
  owner : Nat
  word : Word
  form : Nat
  block : List Byte
deriving DecidableEq, Repr

def FwPost.isTenant (p : FwPost) : Bool := (slotByte p.block 1).testBit 0
def FwPost.bodyLen (p : FwPost) : Nat := slotNum p.block 4 4
def FwPost.body (p : FwPost) : List Byte := (p.block.drop 32).take p.bodyLen
/-- RESULT and RESULT_LEN; a MGMT datagram has room for 8,184 bytes (R338). -/
def FwPost.area (p : FwPost) : Nat := if p.form = 3 then 1 else if p.form = 0 then 0 else slotNum p.block 8 8
def FwPost.room (p : FwPost) : Nat := if p.form = 3 then 8184 else if p.form = 0 then 0 else slotNum p.block 16 4
/-- The argument: ARG, or the U64 of the body (R328). -/
def FwPost.arg (p : FwPost) : Nat := if p.form = 0 then wordArg p.word else slotNum p.block 32 8

/-- Bytes of a whole block: header, body and tenant trailer. -/
def blockBytes (b : List Byte) : Nat := 32 + slotNum b 4 4 + (if (slotByte b 1).testBit 0 then 48 else 0)

/-- The digest of a command (R331). -/
def FwPost.digest (p : FwPost) : Nat :=
  let w := leBytes 8 (p.word &&& ~~~(fieldMask 0 40)).toNat
  let a := if p.form = 0 then leBytes 8 (wordArg p.word)
    else p.block.take 8 ++ List.replicate 12 0 ++ p.block.drop 20
  (Config.shake256 (w ++ a)).toNat % 2 ^ 64

/-- The block's header and length are right (R327, R328). -/
def FwPost.headerOk (p : FwPost) : Bool :=
  let n := p.bodyLen
  let top := if p.form = 2 then decide (n ≤ 2 ^ 21) else decide (blockBytes p.block ≤ 524288)
  slotByte p.block 0 == wordOp p.word && decide (slotByte p.block 1 < 2) && slotNum p.block 2 2 == wordSeq p.word
  && (p.block.drop 20).take 12 == List.replicate 12 0 && top && decide (blockBytes p.block ≤ p.block.length)

/-- Reserved bytes of a command's block body: first offset and bytes (Tables 16.5 to 16.12, R11). -/
def fwResv (op bodyLen : Nat) : List (Nat × Nat) :=
  match op with
  | 0x01 | 0x24 => [(2, 6)]
  | 0x04 => [(2, 6), (1636, 4)]
  | 0x15 | 0x44 => [(4, 4)]
  | 0x20 | 0x21 => (List.range ((bodyLen - 8) / 4)).map fun k => (11 + 4 * k, 1)
  | 0x26 => [(9, 7)]
  | 0x2B | 0x2C => [(3, 1)]
  | 0x2D => [(7, 1)]
  | 0x2F => [(6, 2), (12, 4)]
  | 0x30 | 0x71 => [(3, 5)]
  | 0x46 | 0x50 => [(1, 3)]
  | 0x63 => [(12, 4)]
  | 0x73 => [(5, 3)]
  | _ => []

/-- Reserved fields are zero, and the KIND of RESET is one of its three (R11, R335). -/
def FwPost.resvOk (p : FwPost) : Bool :=
  let op := wordOp p.word
  ((fwResv op p.bodyLen).all fun x => slotNum p.body x.1 x.2 == 0) && (op != 0x60 || (p.arg % 8 != 0 && decide (p.arg % 8 < 4)))

/-- The argument has the shape the command tables give (R328, R335). -/
def FwPost.argOk (p : FwPost) : Bool :=
  p.resvOk &&
  match fwArg (wordOp p.word) with
  | none => false
  | some .nothing => if p.form = 0 then wordArg p.word == 0 else p.bodyLen == 0
  | some (.bits m) => (p.form == 0 || p.bodyLen == 8) && (BitVec.ofNat 64 p.arg &&& ~~~(BitVec.ofNat 64 m)) == 0
  | some (.block n) => p.form != 0 && (match n with | some k => p.bodyLen == k | none => true)

/-- The slice that a tenant command is about (R296). -/
def State.tenantSlice (s : State) (p : FwPost) : Option Nat :=
  match wordOp p.word with
  | 0x01 | 0x04 | 0x20 | 0x21 | 0x24 | 0x26 | 0x30 => some (slotNum p.body 0 2)
  | 0x2B | 0x2C => some (s.ctxSlice (slotNum p.body 0 2))
  | 0x2D => some (s.ctxSlice (slotNum p.body 2 2))
  | 0x45 => some (s.ctxSlice (slotNum p.body 2 2))
  | 0x22 | 0x23 | 0x25 => some (p.arg % 1024)
  | 0x27 | 0x28 | 0x29 | 0x2A => some (s.ctxSlice (p.arg % 4096))
  | _ => none

/-- The tenant tag verifies and TENANT_SEQ is new (R296). -/
def State.tenantOk (s : State) (p : FwPost) : Bool :=
  match s.tenantSlice p with
  | none => false
  | some sl =>
    let n := blockBytes p.block
    let tag := (p.block.drop (n - 32)).take 32
    (match s.tenantTag sl "CMD" (p.block.take (n - 32)) with | some t => t == tag | none => false)
    && (match s.secSlice sl with | some x => decide (x.tenantSeq < slotNum p.block (n - 48) 8) | none => false)

/-! ### Acceptance (R329 to R334) -/

def State.entryOf (s : State) (r : FwRef) : Option JournalEntry := s.fw.journal.find? fun e => decide (e.ref = r)

/-- Commands accepted and not ended. -/
def State.fwPending (s : State) : Nat := (s.fw.journal.filter fun e => !e.done).length

/-- The refusal of a new command, by mailbox acknowledgement, before it has any effect (R326 to R335, R367). -/
def State.fwRefusal (s : State) (p : FwPost) : Option Nat :=
  let op := wordOp p.word
  let steward : Bool := 28 ≤ p.mbx && decide (p.mbx < 32)
  if p.form ≠ 0 ∧ p.isTenant ∧ s.tenantOk p = false then some ACK_DENIED
  else if 64 ≤ s.fwPending then some ACK_BUSY
  else if (fwArg op).isNone ∨ steward ≠ (op == 0xA0) then some ACK_BAD_COMMAND
  else if p.form = 0 ∧ p.argOk = false then some ACK_BAD_ARGUMENT
  else if p.form ≠ 0 ∧ (p.headerOk && p.argOk) = false then some ACK_BAD_ARGUMENT
  else if p.form = 1 ∧ p.area ≠ 0 ∧ inArea p.owner p.area p.room = false then some ACK_BAD_ARGUMENT
  else if p.form = 2 ∧ p.owner = 4 then some ACK_BAD_ARGUMENT
  else if mgrOpcode op ∧ s.isManagerChip = false then some ACK_NOT_MANAGER
  else if mgrOpcode op ∧ s.isActive = false then some ACK_STATE
  else if s.forwardOnly ∧ monitorAnswers op = false then some ACK_STATE
  else
    match s.fwBlock op p.arg with
    | none => none
    | some n =>
      let need := n + (if p.form ≠ 0 ∧ p.isTenant then 48 else 0)
      if p.form = 0 ∨ p.area = 0 then some ACK_BAD_ARGUMENT
      else if p.room < need then some ACK_RESULT_SHORT
      else none

/-- A tenant command was refused for its tag, or its TENANT_SEQ is the last one accepted now (R296). -/
def State.noteTenant (s : State) (p : FwPost) (ok : Bool) : State :=
  if p.form = 0 ∨ p.isTenant = false then s
  else if ok = false then s.bump F.SEC_SEAL_EVENTS_TAG_FAILS
  else
    match s.tenantSlice p with
    | none => s
    | some sl =>
      let n := slotNum p.block (blockBytes p.block - 48) 8
      let set := fun (x : SecSlice) => if x.num = sl then { x with tenantSeq := n } else x
      { s with sec := { s.sec with slices := s.sec.slices.map set } }

/-- Keep the 1,024 most recent entries of a space (R331). -/
def trimJournal (sp : FwSpace) (j : List JournalEntry) : List JournalEntry :=
  let mine := j.filter fun e => decide (e.ref.space = sp)
  match mine with
  | [] => j
  | e :: _ => if 1024 < mine.length then j.erase e else j

/-- The highest SEQ accepted of a space, raised where the new one is ahead. -/
def raiseSeq (l : List (FwSpace × Fin 65536)) (sp : FwSpace) (n : Fin 65536) : List (FwSpace × Fin 65536) :=
  match l.find? fun x => decide (x.1 = sp) with
  | some x => if (n - x.2).val < 32768 then (l.filter fun y => !decide (y.1 = sp)) ++ [(sp, n)] else l
  | none => l ++ [(sp, n)]

/-- SEQ is behind the journal window (R331 step 1). -/
def State.seqStale (s : State) (sp : FwSpace) (n : Fin 65536) : Bool :=
  match s.fw.highest.find? fun x => decide (x.1 = sp) with
  | some x => decide ((BitVec.ofNat 16 (n - x.2).val).toInt ≤ -1024)
  | none => false

/-- A command word is taken: the code of its acknowledgement (R329, R331). -/
def State.takeCommand (s : State) (p : FwPost) : State × Nat :=
  let seq : Fin 65536 := Fin.ofNat 65536 (wordSeq p.word)
  let ref : FwRef := ⟨p.space, seq⟩
  let deliver := fun (e : JournalEntry) =>
    if e.ref = ref then { e with mbx := p.mbx, owner := p.owner, form := p.form, area := p.area, room := p.room } else e
  if s.seqStale p.space seq then (s, ACK_SEQ_STALE)
  else
    match s.entryOf ref with
    | some e =>
      if e.digest ≠ p.digest then (s, ACK_SEQ_REUSED)
      else
        let ready := if e.done ∧ s.fw.ready.contains ref = false ∧ (s.twin.waits.any fun w => decide (w.1 = ref)) = false
          then s.fw.ready ++ [ref] else s.fw.ready
        ({ s with fw := { s.fw with journal := s.fw.journal.map deliver, ready := ready } }, ACK_PENDING)
    | none =>
      match s.fwRefusal p with
      | some c => (s.noteTenant p (!(c == ACK_DENIED)), c)
      | none =>
        let e : JournalEntry := {
          ref := ref, digest := p.digest, opcode := wordOp p.word, done := false, code := 0, value := 0, block := []
          mbx := p.mbx, owner := p.owner, form := p.form, area := p.area, room := p.room
          tenant := if p.form ≠ 0 ∧ p.isTenant then
            (s.tenantSlice p).map fun sl => (sl, slotNum p.block (blockBytes p.block - 48) 8) else none }
        let s1 := s.noteTenant p true
        ({ s1 with fw := { s1.fw with
          journal := trimJournal p.space (s1.fw.journal ++ [e]), highest := raiseSeq s1.fw.highest p.space seq } }, ACK_PENDING)

/-- The block of a posted word: from the sender's command area, or as the firmware's Atomizer-S channel fetched it (R327). -/
def State.postBlock (s : State) (owner : Nat) (w : Word) (fetched : List Byte) : Option (List Byte) :=
  match wordForm w with
  | 0 => some []
  | 1 =>
    let off := wordArg w % 2 ^ 20 * 64
    let head := s.readMem (sramBase + off) 32
    let n := blockBytes head
    if wordArg w / 2 ^ 20 = 0 ∧ inArea owner off n then some (s.readMem (sramBase + off) n) else none
  | 2 => if owner ≠ 4 ∧ wordArg w < 2 ^ 36 then some fetched else none
  | _ => none

/-- FW_COMMAND_ACCEPT (R326, R329): the firmware, or the wing steward of mailboxes 28 to 31, takes the word on a command mailbox
and acknowledges it. -/
def execFwCommandAccept (mbx : Fin 32) (fetched : List Byte) (s : State) : Out :=
  act s fun s =>
    let n := mbx.val
    if s.flag F.MBX_STATUS_FULL n = false then s
    else
      let w := s.reg .MBX_DATA n
      let owner := s.fld F.MBX_STATUS_SENDER n
      if owner = 4 ∧ s.pins.debugEn = false then s.mbxAck n ACK_DENIED
      else
        match s.postBlock owner w fetched with
        | none => s.mbxAck n ACK_BAD_ARGUMENT
        | some b =>
          let sp := if owner = 4 then FwSpace.debug else FwSpace.owners
          let (t, c) := s.takeCommand ⟨sp, n, owner, w, wordForm w, b⟩
          t.mbxAck n c

/-! ### Results (R329, R334) -/

/-- The result block as written: a tenant command's ends in a tagged trailer (R296, R334), and a repeat finds the one stored. -/
def State.resultBlock (s : State) (e : JournalEntry) : List Byte :=
  match e.tenant with
  | none => e.block
  | some (sl, seq) =>
    let b := e.block ++ leBytes 8 seq ++ List.replicate 8 0
    b ++ (s.tenantTag sl "RESULT" b).getD []

/-- The result word (Table 16.3). -/
def resultWord (e : JournalEntry) : Word :=
  BitVec.ofNat 64 (e.opcode * 2 ^ 56 + e.ref.seq.val * 2 ^ 40 + e.code * 2 ^ 32 + e.value % 2 ^ 32)

/-- Write a result block in the space of its command's block: Thorax SRAM, or the sender's control-node memory. -/
def State.writeResult (s : State) (e : JournalEntry) : State :=
  let b := (s.resultBlock e).take e.room
  if e.area = 0 ∨ b = [] then s
  else if e.form = 1 then s.writeMem (sramBase + e.area) b
  else if e.form = 2 then s.emit (.hostWrite e.owner e.area b)
  else s

/-- The first ready result of its mailbox. -/
def State.firstReady (s : State) (e : JournalEntry) : Bool :=
  match s.fw.ready.find? fun r => match s.entryOf r with
      | some x => x.mbx == e.mbx && decide (x.ref.space = e.ref.space) || x.mbx == e.mbx && x.mbx < 32
      | none => false with
  | some r => decide (r = e.ref)
  | none => false

/-- A result has been posted: the journal keeps up to 16 KiB of its block (R331), with the trailer of a tenant command (R334). -/
def State.posted (s : State) (r : FwRef) : State :=
  let cut := fun (e : JournalEntry) =>
    if e.ref = r then { e with block := (s.resultBlock e).take 16384, tenant := none } else e
  { s with fw := { s.fw with ready := s.fw.ready.erase r, journal := s.fw.journal.map cut } }

/-! ### Images (R336, R337) -/

/-- Stage a verified image in place of any staged image of its class (R336). -/
def State.stage (s : State) (cls build : Nat) (bytes : List Byte) : State :=
  { s with fw := { s.fw with
    staged := (s.fw.staged.filter fun x => x.1 != cls) ++ [(cls, build, Config.shake256 bytes)]
    bytes := (s.fw.bytes.filter fun x => x.1 != cls) ++ [(cls, bytes)] } }

/-- A broadcast of the class runs. -/
def State.bcastOf (s : State) (cls : Nat) : Bool := match s.fw.bcast with | some b => b.cls == cls | none => false

/-- FW_STAGE (R336): the image is verified by R290 before it is stored; a failed one leaves the staged image as it was. -/
def execFwStage (r : FwRef) (cls : Fin 256) (image : FwImage) (s : State) : Out :=
  act s fun s =>
    if 2 < cls.val then s.finishFw r ACK_BAD_ARGUMENT 0
    else if s.bcastOf cls.val then s.finishFw r ACK_STATE 0
    else if image.verdict ≠ 0 ∨ image.cls.val ≠ cls.val then s.finishFw r ACK_BAD_IMAGE 0
    else (s.stage cls.val image.build.toNat image.bytes).finishFw r ACK_OK image.build.toNat

/-- Bytes of image in a piece. -/
def pieceBytes : Nat := 4032

/-- Pieces of an image. -/
def piecesOf (n : Nat) : Nat := (n + pieceBytes - 1) / pieceBytes

/-- A piece of an image, the last zero-padded. -/
def pieceOf (bytes : List Byte) (k : Nat) : List Byte := fitBytes pieceBytes (bytes.drop (k * pieceBytes))

/-- The image staged for a broadcast. -/
def State.bcastBytes (s : State) (cls : Nat) : List Byte := ((s.fw.bytes.find? fun x => x.1 == cls).map (·.2)).getD []

/-- FW_BROADCAST (R337): FW_OFFER goes to every chip; the pieces follow, four a wingbeat. -/
def execFwBroadcast (r : FwRef) (cls : Fin 4) (s : State) : Out :=
  act s fun s => s.mgrCommand r fun s =>
    match s.fw.staged.find? fun x => x.1 == cls.val with
    | none => s.finishFw r ACK_STATE 0
    | some (_, build, digest) =>
      if s.fw.bcast.isSome then s.finishFw r ACK_STATE 0
      else
        let bytes := s.bcastBytes cls.val
        let b : Bcast := {
          ref := r, cls := cls.val, build := build, results := [(s.chip, 0, build)], progress := s.ftu, next := 0 }
        ({ s with fw := { s.fw with bcast := some b } }).sendMgmt 0xFFFF
          (.fwOffer cls.val build bytes.length (piecesOf bytes.length) digest)

/-- Send the next four pieces of the broadcast in progress (R337). -/
def State.sendImagePieces (s : State) : State :=
  match s.fw.bcast with
  | none => s
  | some b =>
    let bytes := s.bcastBytes b.cls
    let n := min 4 (piecesOf bytes.length - b.next)
    let s1 := (List.range n).foldl (fun (t : State) k =>
      t.sendMgmt 0xFFFF (.fwPiece (b.next + k) b.build (pieceOf bytes (b.next + k)))) s
    { s1 with fw := { s1.fw with bcast := some { b with next := b.next + n, progress := if n = 0 then b.progress else s.ftu } } }

/-- The result block of a broadcast: 8 bytes for each chip in service. A chip that has not answered shows free values there
(log entry 1). -/
def bcastBlock (b : Bcast) : List Nat → List Byte × State → List Byte × State
  | [], x => x
  | c :: t, (bs, s) =>
    match b.results.find? fun x => x.1 == c with
    | some (_, res, build) => bcastBlock b t (bs ++ leBytes 2 c ++ leBytes 1 res ++ [0] ++ leBytes 4 build, s)
    | none =>
      let (v, s1) := s.fresh
      bcastBlock b t (bs ++ leBytes 2 c ++ leBytes 1 v ++ [0] ++ leBytes 4 (v / 256), s1)

/-- The broadcast ends with a code; VALUE is the chips verified. -/
def State.endBcast (s : State) (b : Bcast) (code : Nat) : State :=
  let (bs, s1) := bcastBlock b s.mgr.service ([], s)
  let ok := (s.mgr.service.filter fun c => b.results.any fun x => x.1 == c && x.2.1 == 0).length
  ({ s1 with fw := { s1.fw with bcast := none } }).finishFw b.ref code ok bs

/-- FW_BROADCAST_TIMEOUT (R337): a chip is unverified after 1 s without progress. -/
def execFwBroadcastTimeout (s : State) : Out :=
  act s fun s =>
    match s.fw.bcast with
    | some b => if usFtu 1000000 ≤ s.since b.progress then s.endBcast b ACK_TIMEOUT else s
    | none => s

/-- FW_OFFER_RECEIVE (R337). -/
def execFwOfferReceive (h : MsgHdr) (cls : Fin 256) (build : BitVec 32) (bytes pieces : Nat) (digest : BitVec 256)
    (s : State) : Out :=
  act s fun s => s.fromManager h fun s =>
    let i : Incoming := ⟨cls.val, build.toNat, bytes, pieces, digest, []⟩
    { s with fw := { s.fw with incoming := (s.fw.incoming.filter fun x => x.cls != cls.val) ++ [i] } }

/-- The first run of missing pieces of an image: first and count. -/
def missingRun (i : Incoming) : Nat × Nat :=
  let miss := (List.range i.pieces).filter fun k => !(i.got.any fun g => g.1 == k)
  match miss with
  | [] => (0, 0)
  | f :: _ => (f, ((List.range miss.length).takeWhile fun k => miss.getD k 0 == f + k).length)

/-- A piece arrives: the last one of the image asks for missing pieces, or has the image checked, staged and reported. -/
def State.takePiece (s : State) (piece build : Nat) (data : List Byte) (verdict : Nat) : State :=
  match s.fw.incoming.find? fun i => i.build == build with
  | none => s
  | some i =>
    if i.pieces ≤ piece then s
    else
      let i1 := { i with got := (i.got.filter fun g => g.1 != piece) ++ [(piece, data)] }
      let keep := s.fw.incoming.filter fun x => x.cls != i.cls
      let (f, n) := missingRun i1
      if n = 0 then
        let sorted := i1.got.mergeSort fun a b => decide (a.1 ≤ b.1)
        let bytes := (sorted.flatMap (·.2)).take i.bytes
        let res := if Config.shake256 bytes ≠ i.digest then 3 else if 2 < i.cls then 4 else verdict
        let s1 := { s with fw := { s.fw with incoming := keep } }
        let s2 := if res = 0 then s1.stage i.cls build bytes else s1
        s2.sendMgmt 0xFFFE (.fwResult build res)
      else
        let s1 := { s with fw := { s.fw with incoming := keep ++ [i1] } }
        if piece + 1 = i.pieces then s1.sendMgmt 0xFFFE (.fwNeed build f n) else s1

/-- FW_PIECE_RECEIVE (R337): `verdict` is the outcome of R290 for the whole image. -/
def execFwPieceReceive (h : MsgHdr) (piece : Nat) (build : BitVec 32) (data : List Byte) (verdict : Fin 5) (s : State) : Out :=
  act s fun s => s.fromManager h fun s => s.takePiece piece build.toNat data verdict.val

/-- FW_NEED_RECEIVE (R337): the pieces go again to that chip alone. -/
def execFwNeedReceive (h : MsgHdr) (build : BitVec 32) (first count : Nat) (s : State) : Out :=
  act s fun s => s.atManager h fun s =>
    match s.fw.bcast with
    | none => s
    | some b =>
      if b.build ≠ build.toNat then s
      else
        let bytes := s.bcastBytes b.cls
        let s1 := (List.range (min count (piecesOf bytes.length - first))).foldl (fun (t : State) k =>
          t.sendMgmt h.src.val (.fwPiece (first + k) b.build (pieceOf bytes (first + k)))) s
        { s1 with fw := { s1.fw with bcast := some { b with progress := s.ftu } } }

/-- FW_RESULT_RECEIVE (R337): the broadcast ends when every chip in service has answered. -/
def execFwResultReceive (h : MsgHdr) (build : BitVec 32) (result : Fin 256) (s : State) : Out :=
  act s fun s => s.atManager h fun s =>
    match s.fw.bcast with
    | none => s
    | some b =>
      if b.build ≠ build.toNat then s
      else
        let b1 := { b with
          results := (b.results.filter fun x => x.1 != h.src.val) ++ [(h.src.val, result.val, build.toNat)], progress := s.ftu }
        let s1 := { s with fw := { s.fw with bcast := some b1 } }
        if s.mgr.service.all fun c => b1.results.any fun x => x.1 == c then s1.endBcast b1 ACK_OK else s1

/-- FW_STATUS (R336): active and staged build of the three classes. -/
def execFwStatus (r : FwRef) (s : State) : Out :=
  act s fun s =>
    let b := fun (l : List (Nat × Nat × BitVec 256)) (c : Nat) => ((l.find? fun x => x.1 == c).map (·.2.1)).getD 0
    let block := (List.range 3).flatMap fun c => leBytes 4 (b s.fw.active c) ++ leBytes 4 (b s.fw.staged c)
    s.finishFw r ACK_OK 32 (block ++ List.replicate 8 0)

/-- FW_RESTART (R318): the result follows the restart. -/
def execFwRestart (r : FwRef) (s : State) : Out :=
  act s fun s => if s.isActive then s.finishFw r ACK_STATE 0 else (s.fwRestart (some r)).finishFw r ACK_OK 0

/-! ### Counters (R335) -/

/-- The journal counters of a space: highest SEQ, entries held, entries ACCEPTED. -/
def State.journalCounts (s : State) (sp : FwSpace) : List Nat :=
  let mine := s.fw.journal.filter fun e => decide (e.ref.space = sp)
  [((s.fw.highest.find? fun x => decide (x.1 = sp)).map (·.2.val)).getD 0, mine.length, (mine.filter fun e => !e.done).length]

/-- The counters of a group (Table 16.12). -/
def State.counterGroup (s : State) (g : Nat) : Option (List Nat) :=
  match g with
  | 0 => some [s.cocoon.hours, s.cocoon.cycles, s.fld F.RST_COUNTS_WARM, s.fld F.RST_COUNTS_COMPUTE]
  | 1 => some [s.escContext, s.escCompute, s.fld F.RST_ESC_LIMITS_CTX_RESETS,
      s.fld F.RST_ESC_LIMITS_CTX_WINDOW, s.fld F.RST_ESC_LIMITS_CHIP_RESETS, s.fld F.RST_ESC_LIMITS_CHIP_WINDOW,
      s.fld F.RST_ESC_LIMITS_COMPUTE_RESETS, s.fld F.RST_ESC_LIMITS_COMPUTE_WINDOW]
  | 2 => some (s.journalCounts .owners ++ s.journalCounts .debug)
  | _ => none

/-- COUNTERS (R335). -/
def execCounters (r : FwRef) (group : Fin 256) (s : State) : Out :=
  act s fun s =>
    match s.counterGroup group.val with
    | none => s.finishFw r ACK_BAD_ARGUMENT 0
    | some l => s.finishFw r ACK_OK (8 * l.length) (l.flatMap (leBytes 8))

end Sys2Proof.Machine
end

