-- ==== Sys2Proof/Machine/Service.lean ====
section
/-! DEFINITION. Sys2Proof/Machine/Service.lean: posting of results, service ports, and bulk-move sessions (R62 to R65, R329, R338).
(log entries of this file: DEDUCED 79, 80, 81, 82) -/

namespace Sys2Proof.Machine

/-! ### Sessions (R64) -/

def State.session (s : State) (port num : Nat) : Option BulkSession :=
  s.fw.sessions.find? fun x => x.port == port && x.num == num

def State.modSession (s : State) (port num : Nat) (f : BulkSession → BulkSession) : State :=
  { s with fw := { s.fw with sessions := s.fw.sessions.map fun x => if x.port = port ∧ x.num = num then f x else x } }

/-- A datagram is discarded and counted (R64). -/
def State.discardBulk (s : State) (port : Nat) : State :=
  { s with fw := { s.fw with discards := Store.modify (fun _ => 0) s.fw.discards port (fun (n : Nat) => n + 1) } }

def BK_WRITE : Nat := 0x01
def BK_READ_REQ : Nat := 0x02
def BK_READ_RESP : Nat := 0x03
def BK_ACK : Nat := 0x04
def BK_NAK : Nat := 0x05
def BK_MGMT : Nat := 0x10

/-- A datagram of the part (Table 3.8). -/
def bulkDgram (op status session : Nat) (seq : BitVec 32) (len : Nat) (addr : Word) (data : List Byte) : BulkDgram :=
  { version := 1, opcode := Fin.ofNat 256 op, flags := if op = BK_READ_RESP ∨ op = BK_MGMT then 1 else 0
    status := Fin.ofNat 256 status, session := BitVec.ofNat 32 session, seq := seq, len := len, addr := addr, data := data }

/-- The configuration of a service port. -/
def State.svc (s : State) (port : Nat) : Option SvcCfg := s.fw.services.find? fun x => x.port == port

/-- The link partner pauses the priority of the port (R62). -/
def State.svcPaused (s : State) (port : Nat) : Bool :=
  match s.svc port with
  | some c => c.paused.any fun p => p.val == c.prio
  | none => false

/-- Send what waits on a session while fewer than 1,024 datagrams are unacknowledged and the priority is not paused (R62, R64);
`fuel` bounds the number. -/
def State.bulkPump (s : State) (port num : Nat) : Nat → State
  | 0 => s
  | fuel + 1 =>
    match s.session port num with
    | none => s
    | some x =>
      match x.waiting with
      | [] => s
      | d :: t =>
        if 1024 ≤ x.unacked.length ∨ s.svcPaused port then s
        else
          let d1 := { d with seq := x.txNext }
          let s1 := s.modSession port num fun y => { y with
            waiting := t, unacked := y.unacked ++ [d1], txNext := y.txNext + 1
            lastAck := if y.unacked = [] then s.ftu else y.lastAck }
          State.bulkPump (s1.emit (.bulk port d1)) port num fuel

/-- Put a sequenced datagram on a session. -/
def State.bulkSend (s : State) (port num : Nat) (d : BulkDgram) : State :=
  let s1 := s.modSession port num fun x => { x with waiting := x.waiting ++ [d] }
  s1.bulkPump port num (match s1.session port num with | some x => x.waiting.length | none => 0)

/-- A cumulative ACK: SEQ names the last datagram received in order (R64). -/
def State.bulkAck (s : State) (x : BulkSession) : State :=
  (s.modSession x.port x.num fun y => { y with since := 0, ackAt := none }).emit
    (.bulk x.port (bulkDgram BK_ACK ST_OK x.num (x.rxNext - 1) 0 0 []))

/-- A NAK (R64): for a gap it names the first missing SEQ with STATUS 0, for a refusal the datagram refused. -/
def State.bulkNak (s : State) (x : BulkSession) (seq : BitVec 32) (status : Nat) : State :=
  s.emit (.bulk x.port (bulkDgram BK_NAK status x.num seq 0 0 []))

/-- The pages of the session's context grant the range of a WRITE or READ_REQ (R64). -/
def State.bulkRange (s : State) (x : BulkSession) (addr n bitNo : Nat) : Bool :=
  s.isOwnPool addr && (pageStarts (addrOffset addr) n).all fun o => (s.ownByte x.ctx bitNo o).isSome

/-- The answer of a command delivered by a session (R338): the result word, then up to 8,184 bytes of block. -/
def State.sendMgmtResult (s : State) (port num : Nat) (word : Word) (block : List Byte) : State :=
  let bs := leBytes 8 word.toNat ++ block.take 8184
  let n := (bs.length + 63) / 64 * 64
  s.bulkSend port num (bulkDgram BK_MGMT ST_OK num 0 n 0 (fitBytes n bs))

/-- A MGMT datagram's command (R65, R338): it has the rights of owners 1 and 2 but for SIL_CLEAR. A refusal returns at once. -/
def State.bulkCommand (s : State) (x : BulkSession) (d : BulkDgram) : State :=
  let w : Word := BitVec.ofNat 64 (ofLe (d.data.take 8))
  let refused := fun (t : State) (c : Nat) =>
    t.sendMgmtResult x.port x.num (BitVec.ofNat 64 (wordOp w * 2 ^ 56 + wordSeq w * 2 ^ 40 + c * 2 ^ 32)) []
  if x.mgmt = false ∨ d.data.length < 8 then s
  else if wordOp w = 0x70 then refused s ACK_DENIED
  else
    let (t, c) := s.takeCommand ⟨.session (Fin.ofNat 128 x.port) x.num, 65, 1, w, 3, d.data.drop 8⟩
    if c = ACK_PENDING then t else refused t c

/-- A datagram in order has its effect (R64). -/
def State.bulkEffect (s : State) (x : BulkSession) (d : BulkDgram) : State :=
  let op := d.opcode.val
  let a := d.addr.toNat
  if op = BK_WRITE then
    if s.bulkRange x a d.len 1 = false then s.bulkNak x d.seq ST_REFUSED_AUTH
    else
      let (t, st) := s.storeOwn x.ctx (addrOffset a) d.data
      if st = ST_OK then t else t.bulkNak x d.seq st
  else if op = BK_READ_REQ then
    if s.bulkRange x a d.len 0 = false then s.bulkNak x d.seq ST_REFUSED_AUTH
    else
      match s.ownFault x.ctx (addrOffset a) d.len with
      | some st => s.bulkNak x d.seq st
      | none =>
        s.bulkSend x.port x.num (bulkDgram BK_READ_RESP ST_OK x.num 0 d.len d.addr (s.ctxRead x.ctx (addrOffset a) d.len))
  else if op = BK_MGMT then s.bulkCommand x d
  else s

/-- Resend what is unacknowledged from a SEQ on (R64). -/
def State.bulkResend (s : State) (x : BulkSession) (seq : BitVec 32) : State :=
  let again := x.unacked.filter fun d => decide ((d.seq - seq).toNat < 2 ^ 31)
  (s.modSession x.port x.num fun y => { y with lastAck := s.ftu }).emits (again.map fun d => .bulk x.port d)

/-- An ACK or NAK acknowledges up to a SEQ. -/
def State.bulkAcked (s : State) (x : BulkSession) (seq : BitVec 32) : State :=
  let s1 := s.modSession x.port x.num fun y => { y with
    unacked := y.unacked.filter fun d => decide (0 < (d.seq - seq).toNat ∧ (d.seq - seq).toNat < 2 ^ 31), lastAck := s.ftu }
  s1.bulkPump x.port x.num x.waiting.length

/-- A sequenced datagram arrives (R64): in order it has its effect; ahead of a gap it is answered with a NAK; a duplicate is
discarded by SEQ. An ACK falls due by ACK_REQ or after 64 datagrams. -/
def State.bulkSequenced (s : State) (x : BulkSession) (d : BulkDgram) : State :=
  let asks := d.flags.val.testBit 1
  let due := fun (y : BulkSession) => { y with
    since := y.since + 1, ackAt := if asks then some (y.ackAt.getD s.ftu) else y.ackAt }
  let ahead := (d.seq - x.rxNext).toNat
  if ahead = 0 then
    let x1 := { due x with rxNext := x.rxNext + 1, nakked := false }
    (s.modSession x.port x.num fun _ => x1).bulkEffect x1 d
  else if ahead < 2 ^ 31 then
    let s1 := s.modSession x.port x.num fun y => { y with nakked := true }
    if x.nakked then s1 else s1.bulkNak x x.rxNext ST_OK
  else s.modSession x.port x.num due

/-- The header and length of a datagram are right (R63, Table 3.8). A READ_REQ asks for LENGTH bytes and carries none. -/
def bulkOk (d : BulkDgram) : Bool :=
  let op := d.opcode.val
  let n := if op = BK_WRITE ∨ op = BK_READ_RESP ∨ op = BK_MGMT then d.len else 0
  d.version == 1 && decide (d.flags.val < 4) && d.len % 64 == 0 && decide (d.len ≤ 8192) && decide (d.data.length = n)
  && [BK_WRITE, BK_READ_REQ, BK_READ_RESP, BK_ACK, BK_NAK, BK_MGMT].contains op

/-- The port is a service port that is UP. -/
def State.servicePort (s : State) (port : Nat) : Bool := s.fld F.PRT_CTL_MODE port == PM_SERVICE && s.linkState port == PS_UP

/-- A datagram arrives on a service port: one whose tag fails or whose session is unknown is discarded and counted (R64). -/
def State.bulkIn (s : State) (port : Nat) (d : BulkDgram) (tagOk : Bool) : State :=
  match s.session port d.session.toNat with
  | none => s.discardBulk port
  | some x =>
    if (tagOk && bulkOk d) = false then s.discardBulk port
    else if d.opcode.val = BK_ACK then s.bulkAcked x d.seq
    else if d.opcode.val = BK_NAK then (if d.status = 0 then s.bulkResend x d.seq else s)
    else s.bulkSequenced x d

/-- BULK_DATAGRAM_RECEIVE (R64). -/
def execBulkDatagramReceive (port : Port) (d : BulkDgram) (tagOk : Bool) (s : State) : Out :=
  act s fun s => if s.servicePort port.val ∧ d.opcode.val ≠ BK_MGMT then s.bulkIn port.val d tagOk else s

/-- BULK_MGMT_DATAGRAM (R65). -/
def execBulkMgmtDatagram (port : Port) (d : BulkDgram) (tagOk : Bool) (s : State) : Out :=
  act s fun s => if s.servicePort port.val ∧ d.opcode.val = BK_MGMT then s.bulkIn port.val d tagOk else s

/-- BULK_ACK_TIMER (R64): an ACK is due within 10 µs of ACK_REQ, and after 64 datagrams. -/
def execBulkAckTimer (port : Port) (session : BitVec 32) (s : State) : Out :=
  act s fun s =>
    match s.session port.val session.toNat with
    | some x => if x.ackAt.isSome ∨ 64 ≤ x.since then s.bulkAck x else s
    | none => s

/-- BULK_RESEND_TIMEOUT (R64): 100 µs without an ACK. -/
def execBulkResendTimeout (port : Port) (session : BitVec 32) (s : State) : Out :=
  act s fun s =>
    match s.session port.val session.toNat with
    | some x =>
      match x.unacked with
      | [] => s
      | d :: _ => if usFtu 100 ≤ s.since x.lastAck then s.bulkResend x d.seq else s
    | none => s

/-! ### Service-port frames (R62) -/

/-- The frame passes the receive filter of Table 3.7. -/
def svcAccepts (c : SvcCfg) (f : EthFrame) : Bool :=
  f.fcsOk && decide (64 ≤ f.len) && decide (f.len ≤ 9216)
  && (match f.vlan with | some v => v.val == c.vlan | none => c.vlan == 0)

/-- SERVICE_FRAME_RECEIVE (R62): PFC is honoured, solicitations and echoes of the port's address are answered, IPv4 and ARP are
discarded, and the rest reaches the Thorax on VC6. No frame goes on to the fabric or to another port. -/
def execServiceFrameReceive (port : Port) (f : EthFrame) (s : State) : Out :=
  act s fun s =>
    let p := port.val
    match s.svc p with
    | none => s
    | some c =>
      if s.servicePort p = false then s
      else
        let answer := fun (k : EthKind) => s.emit (.ethernet p { kind := k, len := f.len, fcsOk := true, vlan := f.vlan, dst := f.dst })
        match f.kind with
        | .pfc prios =>
          if f.fcsOk = false then s
          else
            let svcs := s.fw.services.map fun x => if x.port = p then { x with paused := prios } else x
            let s1 := { s with fw := { s.fw with services := svcs } }
            (s1.fw.sessions.filter fun x => x.port == p).foldl (fun (t : State) x => t.bulkPump p x.num x.waiting.length) s1
        | .ipv4 | .arp => s
        | .neighbour target => if svcAccepts c f ∧ target = c.ipv6 then answer (.advert target) else s
        | .echo => if svcAccepts c f ∧ f.dst = c.ipv6 then answer .echoReply else s
        | .lldp | .advert _ | .echoReply | .udp _ | .ipv6 | .other => if svcAccepts c f then s.emit (.service p f) else s

/-! ### Commands (Table 16.9) -/

/-- SERVICE_CFG (R62). -/
def execServiceCfg (r : FwRef) (port prio : Fin 256) (vlan : Fin 65536) (ipv6 : BitVec 128) (s : State) : Out :=
  act s fun s =>
    let p := port.val
    if 128 ≤ p ∨ 7 < prio.val ∨ 4095 < vlan.val ∨ s.fld F.PRT_CTL_MODE p ≠ PM_SERVICE then s.finishFw r ACK_BAD_ARGUMENT 0
    else
      let c : SvcCfg := ⟨p, prio.val, vlan.val, ipv6, match s.svc p with | some x => x.paused | none => []⟩
      ({ s with fw := { s.fw with services := (s.fw.services.filter fun (x : SvcCfg) => x.port != p) ++ [c] } }).finishFw r ACK_OK 0

/-- The key of a session (R295): derived for a sealed slice, the one delivered otherwise. -/
def State.sessionKey (s : State) (ctx num : Nat) (key : List Byte) : List Byte :=
  let sl := s.ctxSlice ctx
  if s.isSealed sl then
    match s.secSlice sl with
    | some x => kdf x.srk "BULK" (leBytes 2 s.chip ++ leBytes 2 ctx ++ leBytes 4 num)
    | none => key
  else key

/-- SESSION_OPEN (R64, R295, R298). -/
def execSessionOpen (r : FwRef) (port flags : Fin 256) (ctx : Fin 65536) (session : BitVec 32) (peer : BitVec 128)
    (key : List Byte) (tenant : Bool) (s : State) : Out :=
  act s fun s =>
    let p := port.val
    let c := ctx.val
    let sealed' := s.isSealed (s.ctxSlice c)
    if 128 ≤ p ∨ s.fld F.PRT_CTL_MODE p ≠ PM_SERVICE ∨ 1 < flags.val ∨ 4096 ≤ c ∨ s.ctxState c = 0
        ∨ (s.session p session.toNat).isSome then s.finishFw r ACK_BAD_ARGUMENT 0
    else if sealed' ∧ (tenant = false ∨ key.any fun b => b != 0) then s.finishFw r ACK_DENIED 0
    else if 256 ≤ (s.fw.sessions.filter fun x => x.port == p).length then s.finishFw r ACK_NO_RESOURCE 0
    else
      let x : BulkSession := {
        port := p, num := session.toNat, mgmt := flags.val == 1, ctx := c, peer := peer
        key := s.sessionKey c session.toNat key, rxNext := 0, since := 0, ackAt := none, nakked := false
        txNext := 0, unacked := [], waiting := [], lastAck := s.ftu }
      ({ s with fw := { s.fw with sessions := s.fw.sessions ++ [x] } }).finishFw r ACK_OK 0

/-- SESSION_CLOSE (R64). -/
def execSessionClose (r : FwRef) (port : Fin 256) (session : BitVec 32) (s : State) : Out :=
  act s fun s =>
    if (s.session port.val session.toNat).isNone then s.finishFw r ACK_BAD_ARGUMENT 0
    else
      let keep := s.fw.sessions.filter fun x => !(x.port == port.val && x.num == session.toNat)
      ({ s with fw := { s.fw with sessions := keep } }).finishFw r ACK_OK 0

/-! ### Results (R329, R338) -/

/-- RESULT_POST (R329): the first ready result of a command mailbox goes to mailbox 32 above it once that is free; a session's
result goes out in a MGMT datagram. -/
def execResultPost (r : FwRef) (s : State) : Out :=
  act s fun s =>
    match s.entryOf r with
    | none => s
    | some e =>
      if s.fw.ready.contains r = false ∨ s.firstReady e = false then s
      else
        match r.space with
        | .session port num => (s.sendMgmtResult port.val num (resultWord e) (s.resultBlock e)).posted r
        | _ =>
          let m := e.mbx + 32
          if 32 ≤ e.mbx ∨ s.flag F.MBX_STATUS_FULL m then s
          else ((s.writeResult e).mbxPost 3 m e.owner (resultWord e)).posted r

end Sys2Proof.Machine
end

