-- ==== Sys2Proof/Machine/Sillage.lean ====
section
/-! DEFINITION. Sys2Proof/Machine/Sillage.lean: the persistent segment, cursors, and the commands of the recorder (R380 to R386).
(log entries of this file: DEDUCED 83, 103) -/

namespace Sys2Proof.Machine

/-! ### Records as bytes (Table 20.1) -/

/-- A record as its 64 bytes. -/
def recordOf (r : SilRec) : List Byte :=
  let flags := bit r.ctxValid * 16 + bit r.isSealed * 8 + bit r.persisted * 4 + r.severity
  let p := fun (k : Nat) => leBytes 8 (r.params.getD k 0)
  leBytes 8 r.ftu ++ leBytes 6 r.wb ++ leBytes 2 r.chip ++ leBytes 4 r.seq ++ leBytes 3 r.hours ++ leBytes 3 r.cycles
  ++ leBytes 1 r.source ++ leBytes 1 r.code ++ leBytes 1 flags ++ leBytes 3 (r.slice * 4096 + r.ctx) ++ p 0 ++ p 1 ++ p 2 ++ p 3

/-! ### The persistent segment (R383) -/

/-- Append a record to the ring of 1,024 in Cocoon. -/
def State.persist (s : State) (r : SilRec) : State :=
  let l := s.cocoon.persistent ++ [{ r with persisted := true }]
  let l1 := l.drop (l.length - 1024)
  ({ s with cocoon := { s.cocoon with persistent := l1 } }).setFld F.SIL_CFG_PERSIST_HELD 0 l1.length

/-- A HIGH record is not copied: its PERSISTED bit in the live log is 0. -/
def State.skipPersist (s : State) (r : SilRec) : State :=
  let off := fun (x : SilRec) => if x.seq = r.seq then { x with persisted := false } else x
  ({ s with sil := { s.sil with ring := s.sil.ring.map off, overflow := s.sil.overflow.map off } }).bump
    F.SIL_COUNTS_PERSIST_SKIPPED

/-- A TRIP record (Table 20.2). -/
def isTrip (r : SilRec) : Bool := r.source == 0x0E && r.code == 0x02

/-- Take one record off the list of those to copy: appended, or skipped beyond 100 a second (R383). -/
def State.persistNext (s : State) (r : SilRec) : State :=
  let now := s.ftu.toNat
  let recent := s.sil.appends.filter fun t => decide (now < t + 1600000000)
  let s1 := { s with sil := { s.sil with toPersist := s.sil.toPersist.erase r, appends := recent } }
  if isTrip r then s1.persist r
  else if recent.length < 100 then
    ({ s1 with sil := { s1.sil with appends := recent ++ [now] } }).persist r
  else s1.skipPersist r

/-- PERSIST_WRITE (R383): within 10 ms of the record. Fabric time and the record keep no clock of the part waiting. -/
def execPersistWrite (s : State) : Out :=
  act s fun s =>
    match s.sil.toPersist with
    | [] => s
    | r :: _ => s.persistNext r

/-! ### Cursors (R384) -/

/-- What a cursor selects: the record, the position it then shows, and GONE. -/
def State.silSelect (s : State) (segment pos : Nat) : Option (SilRec × Nat × Bool) :=
  if segment = 0 then
    ((s.sil.overflow ++ s.sil.ring).find? fun r => decide (pos ≤ r.seq)).map fun r => (r, r.seq, r.seq != pos)
  else (s.cocoon.persistent[pos]?).map fun r => (r, pos, false)

/-- Show bytes in the owner's windows. -/
def State.showWindow (s : State) (owner : Nat) (bs : List Byte) : State :=
  (List.range 8).foldl (fun (t : State) k =>
    t.setReg .SIL_WINDOW (owner * 8 + k) (BitVec.ofNat 64 (ofLe ((bs.drop (8 * k)).take 8)))) s

/-- Latch the record that SEGMENT and POSITION select into the owner's bank (R384). -/
def State.latch (s : State) (owner segment pos : Nat) (auto' : Bool) : State :=
  let base := segment * 2 ^ 32 + bit auto' * 2 ^ 33
  match s.silSelect segment pos with
  | some (r, p, gone) =>
    (s.setReg .SIL_CURSOR owner (BitVec.ofNat 64 (base + p + bit gone * 2 ^ 34))).showWindow owner (recordOf r)
  | none => (s.setReg .SIL_CURSOR owner (BitVec.ofNat 64 (base + pos + 2 ^ 35))).showWindow owner []

/-- A write of SIL_CURSOR. -/
def State.writeCursor (s : State) (owner : Nat) (v : Word) : State :=
  s.latch owner (getBits v 32 1) (getBits v 0 32) (getBits v 33 1 == 1)

/-- A read of SIL_WINDOW7: with AUTO the next record is latched in the same access (R384). -/
def State.readWindow7 (s : State) (owner : Nat) : State × Nat × Word :=
  let v := s.reg .SIL_WINDOW (owner * 8 + 7)
  let s1 := if s.flag F.SIL_CURSOR_AUTO owner then
      s.latch owner (s.fld F.SIL_CURSOR_SEGMENT owner) ((s.fld F.SIL_CURSOR_POSITION owner + 1) % 2 ^ 32) true
    else s
  (s1, ST_OK, v)

/-- SIL_CURSOR_WRITE (R384). -/
def execSilCursorWrite (owner : Owner) (value : Word) (s : State) : Out :=
  accessBy owner.val s fun s => (s.writeCursor owner.val value, ST_OK, 0)

/-- SIL_WINDOW7_AUTO_READ (R384). -/
def execSilWindow7AutoRead (owner : Owner) (s : State) : Out :=
  accessBy owner.val s (fun s => s.readWindow7 owner.val)
    fun s => (ST_OK, if s.power.frozen then s.reg .SIL_WINDOW (owner.val * 8 + 7) else 0)

/-! ### Commands (R385, R386) -/

/-- SIL_CLEAR (R385): from the CTL_SEM holder, and not from owner 4 (Table 16.12). -/
def execSilClear (r : FwRef) (s : State) : Out :=
  act s fun s =>
    let owner := match s.entryOf r with | some e => e.owner | none => 0
    if owner = 4 ∨ owner = 0 ∨ s.fld F.CTL_SEM_OWNER ≠ owner then s.finishFw r ACK_DENIED 0
    else
      let n := s.sil.ring.length + s.sil.overflow.length
      let s1 := { s with sil := { s.sil with ring := [], overflow := [], begun := false } }
      (s1.silOldest.sillage 0x10 0x02 0 [n]).finishFw r ACK_OK n

/-- Take `n` free frames of a wing for the part itself. -/
def State.takeOwn (s : State) (w : Nat) : Nat → State × List Nat
  | 0 => (s, [])
  | n + 1 =>
    let (f, s1) := s.takeFrame w
    let (s2, l) := s1.takeOwn w n
    (s2, f :: l)

/-- The lowest-numbered wing that holds `n` frames free. -/
def State.wingWith (s : State) (n : Nat) : Option Nat := (List.range 4).find? fun w => decide (n ≤ s.freeFrames w)

/-- The overflow region moves to `n` frames of a wing. -/
def State.setRegion (s : State) (w : Nat) (fs : List Nat) : State :=
  (({ s with pool := { s.pool with overflow := fs } }).setFld F.SIL_CFG_WING 0 w).setFld F.SIL_CFG_FRAMES 0 fs.length

/-- Take the region of `n` frames afresh (R382, R386): from the lowest-numbered wing that holds them; none where no wing does. -/
def State.moveRegion (s : State) (n : Nat) : Option State :=
  (s.wingWith n).map fun w =>
    let (s1, fs) := s.takeOwn w n
    let s2 := s.pool.overflow.foldl State.releaseFrame s1
    (s2.setRegion w fs).showPool

/-- A change of FRAMES (R386); none where no wing holds the frames. Before Imago no frames are held. -/
def State.resizeRegion (s : State) (n : Nat) : Option State :=
  let fs := s.pool.overflow
  let w := s.fld F.SIL_CFG_WING
  if s.flag F.INS_STATUS_IMAGO = false then some (s.setFld F.SIL_CFG_FRAMES 0 n)
  else if n ≤ fs.length then
    let lost := s.sil.overflow.length - n * 32768
    let s1 := { s with sil := { s.sil with overflow := s.sil.overflow.drop lost } }
    let s2 := (fs.drop n).foldl State.releaseFrame (s1.bump F.SIL_COUNTS_LOST 0 lost)
    some ((s2.setRegion w (fs.take n)).showPool.silOldest)
  else if fs ≠ [] ∧ n - fs.length ≤ s.freeFrames w then
    let (s1, more) := s.takeOwn w (n - fs.length)
    some (s1.setRegion w (fs ++ more)).showPool
  else s.moveRegion n

/-- SIL_CONFIG (R386). -/
def execSilConfig (r : FwRef) (frames : Fin 65536) (minSeverity : Fin 256) (s : State) : Out :=
  act s fun s =>
    if 512 < frames.val ∨ 2 < minSeverity.val then s.finishFw r ACK_BAD_ARGUMENT 0
    else
      match s.resizeRegion frames.val with
      | some t => (t.setFld F.SIL_CFG_MIN_SEVERITY 0 minSeverity.val).finishFw r ACK_OK 0
      | none => s.finishFw r ACK_NO_RESOURCE 0

end Sys2Proof.Machine
end

