-- ==== Sys2Proof/Machine/Wipe.lean ====
section
/-! DEFINITION. Sys2Proof/Machine/Wipe.lean: what POR, WARM, SLEEP and DEEP leave of the part (R351, R353, R357, R363, Table 18.3).
(log entries of this file: DEDUCED 50, 94, 96, 103) -/

namespace Sys2Proof.Machine

/-! ### The pool (R266, R345, R353) -/

/-- The frame that a defect entry of KIND 0x07 retired: a frame of a stack, or a frame of its reserve. -/
def retiredFrame (d : Defect) : Nat :=
  if d.unit < 36864 then d.place * 36864 + d.unit else 884736 + d.place * 512 + (d.unit - 36864)

/-- Frames retired since manufacture, by the defect list. -/
def State.retiredFrames (s : State) : List Nat := (s.cocoon.defects.filter fun d => d.kind == 7).map retiredFrame

/-- Reserve frames that stand in the place of retired ones. -/
def State.reserveInUse (s : State) : List Nat :=
  (List.range 24).flatMap fun k =>
    (List.range (Store.get (fun _ => 0) s.pool.reserve k)).map fun i => 884736 + k * 512 + i

/-- The pool with every frame that is not retired free and no mark (R345). -/
def State.freshPool (s : State) : PoolSt :=
  let gone := s.retiredFrames
  { PoolSt.init with
    used := gone.filter fun f => decide (f < 884736)
    spare := s.reserveInUse.filter fun f => !gone.contains f
    reserve := s.pool.reserve
    keys := s.pool.keys }

/-- The pool held through a WARM reset or SLEEP: frames of contexts wait to be scrubbed (R353). -/
def State.heldPool (s : State) : PoolSt :=
  let mine := s.contexts.flatMap fun c =>
    ((s.ctx c).pages ++ (s.ctx c).grants.flatMap (·.pages)).map (·.frame)
  { s.pool with scrub := s.pool.scrub ++ mine, copies := [], refusals := [] }

/-! ### Registers and records -/

/-- Registers that keep part of what they hold, or all of it, beyond their survival set. -/
def keepsMore (r : RegName) : Bool :=
  r == .INS_FAST || r == .RST_CAUSE || r == .PWR_MEASURE

/-- The register file after a WARM reset, or entry to SLEEP or DEEP (R408): FAST_PATH, the logical cores and the overflow region keep
what their rows say. -/
def State.wipeRegs (s : State) (set : Survives) : State :=
  let s1 := s.resetRegs fun r _ => !(r.kept.contains set || keepsMore r)
  let s2 := s1.setFld F.INS_CTL_FAST_PATH 0 (s.fld F.INS_CTL_FAST_PATH)
  let s3 := if set = Survives.deep then s2
    else (s2.setFld F.SIL_CFG_FRAMES 0 (s.fld F.SIL_CFG_FRAMES)).setFld F.SIL_CFG_WING 0 (s.fld F.SIL_CFG_WING)
  if set = Survives.warm then
    (List.range 416).foldl (fun (t : State) i => t.setFld F.HWK_CORE_STATUS_LOGICAL i (s.fld F.HWK_CORE_STATUS_LOGICAL i)) s3
  else s3

/-- SLEEP: the unread ring goes to the overflow region, whose oldest records give way (R382). -/
def State.saveRing (s : State) : State :=
  let all := s.sil.overflow ++ s.sil.ring
  let lost := all.length - s.overflowRoom
  ({ s with sil := { s.sil with ring := [], overflow := all.drop lost } }).bump F.SIL_COUNTS_LOST 0 lost

/-- The recorder after a reset or entry to a low-power state. -/
def wipeSil (s : SilSt) (set : Survives) : SilSt :=
  if set = Survives.deep then { SilSt.init with toPersist := s.toPersist } else { s with rate := (0, 0), appends := [] }

/-- The firmware: images alone stay, and none in DEEP (Table 18.3). -/
def wipeFw (f : FwSt) (set : Survives) : FwSt :=
  if set = Survives.deep then FwSt.init else { FwSt.init with active := f.active, staged := f.staged, bytes := f.bytes }

/-! ### Everything outside the scope (Table 18.3) -/

/-- The ports: their last qualification alone is kept, for the fast path (R349). -/
def State.portsKept (s : State) : Store PortSt :=
  (s.ports.map fun q => (q.1, { PortSt.init with lastQual := q.2.lastQual })).filter fun q => decide (q.2 ≠ PortSt.init)

/-- Transmitters turn off (R353). -/
def State.dark (s : State) : State :=
  let on := (List.finRange 129).filter fun l => s.linkState l.val != PS_DISABLED
  s.emits (on.map fun l => OutMsg.transmit l false)

/-- Power and reset after a WARM reset or entry to SLEEP or DEEP. -/
def wipePower (p : PowerSt) (set : Survives) : PowerSt :=
  { PowerSt.init with
    inReset := set == Survives.warm, porHeld := false, lowSeen := p.lowSeen, rstLow := p.rstLow, source := p.source, extest := p.extest
    sysLost := p.sysLost, refsLost := p.refsLost, refresh := set != Survives.deep, tripped := p.tripped
    wakeCmps := if set = Survives.warm then 0 else p.wakeCmps, shownAt := p.shownAt }

/-- A WARM reset, or entry to SLEEP or DEEP. -/
def State.wipe (s : State) (set : Survives) : State :=
  let s1 := if set = Survives.sleep then s.dark.saveRing else s.dark
  let s2 := s1.wipeRegs set
  ({ s2 with
    time := TimeSt.init
    ports := s.portsKept
    eps := []
    ctxs := []
    net := NetSt.init
    que := ⟨[], []⟩
    pool := if set = Survives.deep then s.freshPool else s.heldPool
    dma := DmaSt.init
    coll := ⟨[], [], []⟩
    hawk := ⟨[], [], 0⟩
    sec := SecSt.init
    mem := Store.dropIf (fun a => decide (sramBase ≤ a) || set == Survives.deep) s.mem
    route := RouteSt.init
    agent := AgentSt.init
    map := none
    mgr := MgrSt.init
    twin := TwinSt.init
    fw := wipeFw s.fw set
    sil := wipeSil s1.sil set
    ants := []
    ins := { InsSt.init with warm := true }
    power := wipePower s.power set
    spares := { s2.spares with waiting := [], uncommitted := [] }
    chr := ChrSt.init }).silOldest

/-- A WARM reset begins (R349, R353): the marker is set, and a start test in progress leaves CLEAN clear (Table 17.3). Out of DEEP
there is no pool to hold. -/
def State.warmNow (s : State) (source : Nat) : State :=
  let testing := decide (s.fld F.INS_STATUS_STAGE = 4) && s.fld F.INS_STATUS_STATE == 1
  let s1 := (if testing then s.unclean else s).setFld F.INS_FAST_MARKER 0 1
  let s2 := (s1.bump F.RST_COUNTS_WARM).wipe .warm
  { s2 with power := { s2.power with source := source, tripped := false, refresh := s.fld F.PWR_STATUS_STATE != 3 } }

/-- Entry to SLEEP (2) or DEEP (3) (R363). -/
def State.enterLow (s : State) (code : Nat) : State :=
  let s1 := if s.flag F.INS_CTL_FAST_PATH then s.setFld F.INS_FAST_MARKER 0 1 else s
  (s1.wipe (if code = 2 then .sleep else .deep)).setFld F.PWR_STATUS_STATE 0 code

/-- Entry that waited for contexts to be ready again (R363). -/
def State.tryLow (s : State) : State :=
  match s.power.sleepWant with
  | some (code, _) => if s.contexts.any fun c => s.ctxState c == 2 then s else s.enterLow code
  | none => s

/-- A hardware trip (R366): its record goes to the persistent segment, and the part enters DEEP. -/
def State.trip (s : State) : State :=
  let s1 := s.sillage 0x0E 0x02 2 []
  let s2 := match s1.sil.toPersist.find? isTrip with | some r => s1.persistNext r | none => s1
  let s3 := s2.enterLow 3
  { s3 with power := { s3.power with tripped := true, frozen := false, wakeCmps := 0 } }

/-- POR (R351): everything but Cocoon. -/
def State.porNow (s : State) (p : PowerSt) : State :=
  { State.reset with
    pool := s.freshPool
    cocoon := s.cocoon
    pins := s.pins
    power := p
    out := s.dark.out
    free := s.free
    pending := s.pending }

end Sys2Proof.Machine
end

