-- ==== Sys2Proof/Machine/CtxReset.lean ====
section
/-! DEFINITION. Sys2Proof/Machine/CtxReset.lean: CONTEXT and COMPUTE resets, destroy, quiesce at its boundary, and the entry to
forward-only operation that escalation and other causes start (R111, R160 to R163, R351 to R359, R368, R370).
(log entries of this file: DEDUCED 84, 85, 86) -/

namespace Sys2Proof.Machine

/-! ### Forward-only entry (R367, R368, R370) -/

/-- Cause bits of Table 18.7. -/
def FO_THERMAL : Nat := 0
def FO_SUPPLY : Nat := 1
def FO_SPARES : Nat := 2
def FO_ESCALATION : Nat := 3
def FO_FIRMWARE : Nat := 4
def FO_COMMAND : Nat := 5
def FO_POWER : Nat := 6

/-- A cause of forward-only operation arises (R368): before Imago it is only recorded (Table 17.3); otherwise its bit is set, and
the first cause starts the entry of Table 18.8. -/
def State.foCause (s : State) (cause : Nat) : State :=
  if s.flag F.INS_STATUS_IMAGO = false then s.sillage 0x0D 0x03 2 []
  else
    let s1 := s.setFld F.PWR_STATUS_FO_CAUSES 0 (s.fld F.PWR_STATUS_FO_CAUSES ||| 2 ^ cause)
    if s.forwardOnly then s1
    else
      let s2 := (s1.setFld F.PWR_STATUS_FWD_ONLY 0 1).sillage 0x0E 0x03 2 []
      let s3 := { s2 with power := { s2.power with foAt := some s.wb, foReset := false } }
      if s3.isManagerChip then s3.fence else s3

/-! ### One context at its boundary (R160 to R162) -/

/-- The chip's units discard everything the network holds for a context (R160): copies, packets not yet started, streams, reads,
and what they have received of its streams; edge ports discard the reads they have delivered (R255) and their streams. -/
def State.dropNet (s : State) (c : Nat) : State :=
  let n := { s.net with
    copies := s.net.copies.filter fun x => x.key.ctx != c
    nextSeq := s.net.nextSeq.filter fun x => x.1.ctx != c
    received := s.net.received.filter fun x => x.key.ctx != c
    reads := s.net.reads.filter fun x => x.ctx != c
    backlog := s.net.backlog.filter fun x => x.pkt.ctx.val != c }
  let eps := s.eps.map fun q => (q.1, { q.2 with
    reads := q.2.reads.filter fun x => x.ctx != c
    streams := q.2.streams.filter fun x => x.ctx != c
    grants := q.2.grants.filter fun x => x.ctx != c })
  { s with
    net := n
    eps := eps.filter fun q => decide (q.2 ≠ EpSt.init)
    pool := { s.pool with refusals := s.pool.refusals.filter fun x => x.ctx != c }
    sec := { s.sec with held := s.sec.held.filter fun x => x.2.ctx.val != c } }

/-- Nodes and the members of a context (R192, R202): nodes that act for it are dropped, their slots held to b + 2, and members of
other contexts there end with ST_PARENT_LOST; in other nodes its members count as missing. -/
def State.dropColl (s : State) (c : Nat) (till : Wb) : State :=
  let s1 := (s.coll.nodes.filter fun n => n.owner == c).foldl (fun (t : State) n =>
    let t1 := n.members.foldl (fun (u : State) m =>
      if m.ctx = c ∨ n.height ≠ 0 then u
      else
        match u.run m.queue m.index with
        | some r => u.complete r ST_PARENT_LOST
        | none => u) t
    t1.dropNode n (some till)) s
  let miss := fun (n : CollNode) =>
    { n with bad := n.bad ++ ((n.members.filter fun m => m.ctx == c && !n.bad.contains m.rank).map (·.rank)) }
  { s1 with coll := { s1.coll with
    nodes := s1.coll.nodes.map miss
    groups := s1.coll.groups.map fun g => { g with waits := g.waits.filter fun w => w.ctx != c } } }

/-- The commands of a context that run: they end with ST_ABORT_CONTEXT by a final ledger write and a record; a COMPUTE reset
writes neither (R160, R161). The part's own steps for the context go with them. -/
def State.endRuns (s : State) (c : Nat) (writes : Bool) : State :=
  let mine := s.que.runs.filter fun r => r.ctx == c && decide (r.queue < 16384)
  let s1 := if writes then mine.foldl (fun (t : State) r => t.complete r ST_ABORT_CONTEXT) s else s
  { s1 with que := { s1.que with runs := s1.que.runs.filter fun r => r.ctx != c } }

/-- Every queue of the context enters STOPPED with HEAD unchanged. -/
def State.stopQueues (s : State) (c : Nat) : State :=
  let qs := s.queuesOf c
  let s1 := qs.foldl (fun (t : State) q => t.setFld F.QUE_CFG_STATE q 2) s
  { s1 with que := { s1.que with laps := s1.que.laps.filter fun l => !qs.contains l.queue } }

/-- The agent notifies each bound endpoint of the new epoch from `b` on (R160, Table 5.10). -/
def State.sendNotices (s : State) (c : Nat) (b : Wb) : State :=
  (s.ctx c).bindings.foldl (fun (t : State) x =>
    let e := t.ctxEpoch c
    (t.modEp x.port fun y => { y with notices := y.notices ++ [(c, e)] }).emit
      (.linkMgmt (Fin.ofNat 129 x.port) (.epochNotice c e b))) s

/-- A destroy at its boundary (R162): the keys go, pages are queued for scrubbing, queues, channels and sessions are deleted. -/
def State.destroyAt (s : State) (c : Nat) : State :=
  let x := s.ctx c
  let s1 := (x.pages ++ x.grants.flatMap (·.pages)).foldl (fun (t : State) p => t.releaseFrame p.frame) s
  let s2 := (s1.queuesOf c).foldl State.dropQueue s1
  let chans := (s2.regs.filter fun q => q.1 % 256 == RegName.ATL_CH_STATUS.code && getBits q.2 0 3 != 0 && getBits q.2 20 12 == c).map
    fun q => q.1 / 256
  let s3 := chans.foldl (fun (t : State) ch => t.setReg .ATL_CH_STATUS ch 0) s2
  let s4 := { s3 with fw := { s3.fw with sessions := s3.fw.sessions.filter fun y => y.ctx != c } }
  let s5 := s4.modCtx c fun y => { y with pages := [], grants := [], counters := [], key := 0 }
  ((x.grants.foldl (fun (t : State) g => t.finishFw g.ref ACK_STATE 0) s5).setFld F.QUE_CTX_STATUS_STATE c 4).showPool

/-- The context leaves its boundary: the epoch increments, b + 2 releases it, and a destroy goes further. -/
def State.ctxTurn (s : State) (c : Nat) (b : Wb) : State :=
  let x := s.ctx c
  let s1 := (s.setFld F.QUE_CTX_STATUS_EPOCH c ((s.ctxEpoch c + 1) % 256)).modCtx c fun y => { y with
    resetAt := none, releaseAt := some (b + 2#48) }
  let s2 := s1.sendNotices c b
  if x.destroys then s2.destroyAt c else s2

/-- A CONTEXT reset or a destroy at its boundary (R160, R162). -/
def State.resetCtx (s : State) (c : Nat) (b : Wb) : State :=
  let s1 := ((s.resetSteps c b).cutChains c).endRuns c true
  (((s1.dropColl c (b + 2#48)).dropNet c).stopQueues c).ctxTurn c b

/-- Count a CONTEXT reset (R358, R359): the context that reaches its limit is barred at b + 2, and the chip that reaches its own
enters forward-only. -/
def State.countReset (s : State) (c : Nat) : State :=
  let now := s.ftu.toNat
  let s1 := (s.modCtx c fun x => { x with resets := x.resets ++ [now] })
  let s2 := { s1 with power := { s1.power with chipResets := s1.power.chipResets ++ [now] } }
  let s3 := s2.modCtx c fun x => { x with bars := x.bars || decide (s2.fld F.RST_ESC_LIMITS_CTX_RESETS ≤ s2.escOf c) }
  if s3.fld F.RST_ESC_LIMITS_CHIP_RESETS ≤ s3.escContext then s3.foCause FO_ESCALATION else s3

/-- CONTEXT_RESET_BOUNDARY (R160). A destroy is not counted (R358 counts resets). -/
def execContextResetBoundary (ctx : Ctx) (s : State) : Out :=
  act s fun s =>
    let c := ctx.val
    match (s.ctx c).resetAt with
    | some b =>
      if s.reached b then
        let d := (s.ctx c).destroys
        let s1 := s.resetCtx c b
        if d then s1 else s1.countReset c
      else s
    | none => s

/-- Slots whose quarantine has ended are free (R160). -/
def State.freeHeld (s : State) : State :=
  ({ s with coll := { s.coll with hold := s.coll.hold.filter fun h => !s.reached h.till } }).showSlots

/-- A context at b + 2: ACTIVE, BARRED with its record (R358), or FREE after a destroy (R162). -/
def State.releaseCtx (s : State) (c : Nat) : State :=
  let x := s.ctx c
  let s1 := s.freeHeld
  if x.destroys then
    let e := s.ctxEpoch c
    ((s1.setReg .QUE_CTX_STATUS c 0).setFld F.QUE_CTX_STATUS_EPOCH c e).setCtx c CtxSt.init
  else
    let s2 := s1.modCtx c fun y => { y with releaseAt := none, bars := false }
    if s.ctxState c = 3 then s2
    else if x.bars then
      (s2.setFld F.QUE_CTX_STATUS_STATE c 3).silRec 0x06 0x01 1 (s.ctxSlice c) (some c) (s.isSealed (s.ctxSlice c)) []
    else s2.setFld F.QUE_CTX_STATUS_STATE c 1

/-- CONTEXT_RESET_RELEASE (R160). -/
def execContextResetRelease (ctx : Ctx) (s : State) : Out :=
  act s fun s =>
    match (s.ctx ctx.val).releaseAt with
    | some b => if s.reached b then (s.releaseCtx ctx.val).tryLow else s
    | none => s

/-! ### COMPUTE resets (R161, R352, R354) -/

/-- Registers that a COMPUTE reset returns to their reset values; those shown from other state and those kept in part are set by
`computeUnits`. -/
def computeReset (r : RegName) : Bool :=
  !r.kept.contains .compute && r != .XBR_INFLIGHT && r != .HWK_CORE_STATUS && r != .ACD_SLOTS && r != .RST_CAUSE
  && r != .HWK_WING_STATUS && r != .PWR_MEASURE

/-- The units of the COMPUTE scope stop and lose their work (R354): parts, chains, nodes and generations. -/
def State.computeUnits (s : State) (b : Wb) : State :=
  let s1 := s.coll.nodes.foldl (fun (t : State) n => t.dropNode n (some (b + 2#48))) s
  let idle := fun (g : SkpGroup) => { g with waits := [], nodes := g.nodes.map fun n => { n with gens := [] } }
  let s2 := { s1 with
    coll := { s1.coll with groups := s1.coll.groups.map idle }
    dma := { s1.dma with chains := [], fails := [], ready := [], buffered := [] }
    que := { s1.que with runs := [] } }
  let s3 := s2.resetRegs fun r _ => computeReset r
  let cores := (List.range 416).filter fun i => s3.reg .HWK_CORE_STATUS i != RegName.por .HWK_CORE_STATUS i
  let s4 := cores.foldl (fun (t : State) i =>
    t.setReg .HWK_CORE_STATUS i (putBits 0 11 9 (t.fld F.HWK_CORE_STATUS_LOGICAL i))) s3
  s4.dropParts.showSlots

/-- A context at the boundary of a COMPUTE reset, or of forward-only entry (R161). One already between its own boundary and
release at `b` is reset as the rest is. -/
def State.computeCtx (s : State) (b : Wb) (c : Nat) : State :=
  let s1 := ((s.endRuns c false).dropNet c).stopQueues c
  let st := s.ctxState c
  let s2 := if st = 1 then s1.setFld F.QUE_CTX_STATUS_STATE c 2 else s1
  if st = 4 then s2 else s2.ctxTurn c b

/-- Every context of the chip is reset by R161. Contexts that were reset at this boundary already are left. -/
def State.resetAll (s : State) (b : Wb) : State :=
  let done := fun (c : Nat) => (s.ctx c).releaseAt == some (b + 2#48)
  ((s.contexts.filter fun c => !done c).foldl (fun (t : State) c => t.computeCtx b c) s).computeUnits b

/-- A COMPUTE reset at its boundary, or at once where no base pair is set (R351, R354): counted, described in RST_CAUSE, and a
chip that reaches its limit enters forward-only from that boundary (R359, R372). -/
def State.computeNow (s : State) (b : Wb) : State :=
  let s1 := (s.resetAll b).bump F.RST_COUNTS_COMPUTE
  let s2 := s1.setReg .RST_CAUSE 0 (putBits (putBits 0 32 8 3) 24 8 3)
  let refs := s.power.computeRefs
  let s3 := { s2 with power := { s2.power with
    computeAt := none, computeRefs := [], computeReady := if s.time.based then some (b + 2#48) else none
    computeTimes := s2.power.computeTimes ++ [s.ftu.toNat] } }
  let s4 := refs.foldl (fun (t : State) r => t.finishFw r ACK_OK 0) s3
  if s4.fld F.RST_ESC_LIMITS_COMPUTE_RESETS ≤ s4.escCompute then s4.foCause FO_ESCALATION else s4

/-- RESET_COMPUTE (R354): at the boundary after the request; requests that meet merge (R352). -/
def execResetCompute (r : FwRef) (s : State) : Out :=
  act s fun s =>
    let s1 := { s with power := { s.power with
      computeRefs := s.power.computeRefs ++ [r], computeAt := some (s.power.computeAt.getD (s.wb + 1#48)) } }
    if s.time.based then s1 else s1.computeNow s.wb

/-- COMPUTE_RESET_BOUNDARY (R354). -/
def execComputeResetBoundary (s : State) : Out :=
  act s fun s =>
    match s.power.computeAt with
    | some b => if s.reached b then s.computeNow b else s
    | none => s

/-! ### Quiesce at its boundary (R111) -/

/-- QUIESCE_BOUNDARY (R111 steps 2 and 3): from q the slice's queues start nothing, and each running command issues nothing past
its next chunk boundary. -/
def execQuiesceBoundary (slice : Slice) (s : State) : Out :=
  act s fun s =>
    if s.sliceHeld slice.val then
      let cs := s.contexts.filter fun c => s.ctxSlice c == slice.val
      let halt := fun (r : RunCmd) => if cs.contains r.ctx ∧ r.queue < 16384 then { r with stop := true } else r
      let s1 := { s with que := { s.que with runs := s.que.runs.map halt } }
      let s2 := cs.foldl (fun (t : State) c => t.stopChains c) s1
      (s2.coll.nodes.filter fun n => n.slice == slice.val && n.stopAt.isNone).foldl State.stopColl s2
    else s

end Sys2Proof.Machine
end

