-- ==== Sys2Proof/Machine/Spares.lean ====
section
/-! DEFINITION. Sys2Proof/Machine/Spares.lean: failed units, their spares, the defect list and the wing stewards' reports
(R373 to R379, R344, R414).
(log entries of this file: DEDUCED 87, 88, 89, 90, 91, 99, 104) -/

namespace Sys2Proof.Machine

/-! ### Units and their maps (Table 19.1) -/

/-- Logical units of a kind per wing, and its physical spares; none of the kinds that SPR_MAP does not show. -/
def logicalUnits (kind : Nat) : Nat := match kind with | 1 => 96 | 2 => 64 | 5 => 16 | 6 => 48 | _ => 0
def spareUnits (kind : Nat) : Nat := match kind with | 1 => 8 | 2 => 4 | 5 => 2 | 6 => 4 | _ => 0

/-- Kinds whose logical units SPR_MAP shows. -/
def mapKinds : List Nat := [1, 2, 5, 6]

def mapIx (kind wing logical : Nat) : Nat := kind * 512 + wing * 128 + logical

/-- The word of SPR_MAP. -/
def mapWord (phys state : Nat) : Word := BitVec.ofNat 64 (phys * 256 + state)

def State.unitAbsent (s : State) (kind wing l : Nat) : Bool := s.fld F.SPR_MAP_STATE (mapIx kind wing l) == 2
def State.unitPhys (s : State) (kind wing l : Nat) : Nat := s.fld F.SPR_MAP_PHYSICAL (mapIx kind wing l)

/-- Physical units of a kind on a wing that no logical number uses and that have not failed, in ascending order. -/
def State.freeUnits (s : State) (kind wing : Nat) : List Nat :=
  (List.range (logicalUnits kind + spareUnits kind)).filter fun p =>
    !s.spares.use'.failed.contains (kind, wing, p) &&
    (List.range (logicalUnits kind)).all fun l => s.unitAbsent kind wing l || s.unitPhys kind wing l != p

def State.rowsFree (s : State) (wing : Nat) : Nat := Store.get (fun _ => 512) s.spares.use'.rowsFree wing
def State.lsMin (s : State) (wing : Nat) : Nat := Store.get (fun _ => 32) s.spares.use'.lsMin wing

/-- Logical units of a kind that are ABSENT on a wing. -/
def State.absentUnits (s : State) (kind wing : Nat) : Nat :=
  if kind = 3 then (s.spares.use'.rowsAbsent.filter fun a => a.1 == wing).length
  else ((List.range (logicalUnits kind)).filter fun l => s.unitAbsent kind wing l).length

/-- HWK_CORE_STATUS of a wing's physical cores: the logical core each holds, and 4 for one that failed. A core that runs keeps what it
shows. -/
def State.showCores (s : State) (wing : Nat) : State :=
  (List.range 104).foldl (fun (t : State) p =>
    let i := wing * 104 + p
    let held := (List.range 96).find? fun l => !t.unitAbsent 1 wing l && t.unitPhys 1 wing l == p
    let now := t.fld F.HWK_CORE_STATUS_STATE i
    if t.spares.use'.failed.contains (1, wing, p) then t.setReg .HWK_CORE_STATUS i (putBits (putBits 0 11 9 0x1FF) 0 3 4)
    else
      match held with
      | none => t.setReg .HWK_CORE_STATUS i (putBits 0 11 9 0x1FF)
      | some l =>
        let t1 := t.setFld F.HWK_CORE_STATUS_LOGICAL i (wing * 96 + l)
        if now = 2 ∨ now = 3 then t1 else t1.setFld F.HWK_CORE_STATUS_STATE i 1) s

/-- SPR_FREE, HWK_WING_STATUS ABSENT and the steward's counts of a wing (R379, R414). -/
def State.showSpares (s : State) : State :=
  (List.range 4).foldl (fun (t : State) w =>
    let n := fun (k : Nat) => (t.freeUnits k w).length
    let t1 := t.setReg .SPR_FREE w (BitVec.ofNat 64
      (t.rowsFree w * 2 ^ 48 + t.lsMin w * 2 ^ 32 + n 6 * 2 ^ 24 + n 5 * 2 ^ 16 + n 2 * 2 ^ 8 + n 1))
    let t2 := t1.setFld F.HWK_WING_STATUS_ABSENT w (t1.absentUnits 1 w)
    let t3 := (t2.setFld F.WST_STATUS_PRESENT w (96 - t2.absentUnits 1 w)).setFld F.WST_STATUS_FREE_CORES w (n 1)
    t3.showCores w) s.showSlots

/-- Every entry of SPR_MAP. -/
def State.allMaps (s : State) : Store Word :=
  (s.regs.filter fun q => q.1 % 256 == RegName.SPR_MAP.code).map fun q => (q.1 / 256, q.2)

/-- The maps as they stand go to Cocoon (R375). -/
def State.keepMaps (s : State) : State :=
  { s with cocoon := { s.cocoon with spareMap := s.allMaps, spareUse := s.spares.use' } }

/-- The spare assignments come from Cocoon (R349, R377). -/
def State.loadMaps (s : State) : State :=
  let s1 := s.cocoon.spareMap.foldl (fun (t : State) q => t.setReg .SPR_MAP q.1 q.2) (s.resetRegs fun r _ => r == .SPR_MAP)
  { s1 with spares := { s1.spares with use' := s1.cocoon.spareUse } }

/-! ### Failure (R374, R375) -/

/-- A chunk whose slot fails is not delivered: its members' commands end there with ST_FAULT_UNIT (R374). -/
def State.slotFailed (s : State) (wing slot : Nat) : State :=
  s.coll.nodes.foldl (fun (t : State) n =>
    if n.wing ≠ wing ∨ n.phase = .spilled then t
    else
      let t1 := n.chunks.foldl (fun (u : State) c =>
        if c.acc = some slot then
          let v := n.members.foldl (fun (x : State) m => x.endAtChunk m.queue m.index c.num ST_FAULT_UNIT) u
          v.chunkUpd n c.dst c.num fun x => { x with undelivered := true }
        else u) t
      n.feeds.foldl (fun (u : State) f =>
        if f.slot = slot then
          let v := n.members.foldl (fun (x : State) m => x.endAtChunk m.queue m.index f.chunk ST_FAULT_UNIT) u
          v.chunkUpd n f.dst f.chunk fun x => { x with undelivered := true }
        else u) t1) s

/-- The lane that a Skipper group uses on a wing: group mod 16, or the lowest-numbered present one (R373, Table 19.1). -/
def State.skipLane (s : State) (wing group : Nat) : Option Nat :=
  if s.unitAbsent 5 wing (group % 16) = false then some (group % 16)
  else (List.range 16).find? fun l => !s.unitAbsent 5 wing l

/-- Generations on a Skipper lane that fails: commands of members that wait there end with ST_FAULT_UNIT. -/
def State.laneFailed (s : State) (wing lane : Nat) : State :=
  s.coll.groups.foldl (fun (t : State) g =>
    if s.skipLane wing g.num = some lane ∧ (g.nodes.any fun n => n.height == 0 && n.wing == wing) then
      let t1 := g.waits.foldl (fun (u : State) w =>
        if w.coll.isSome then u.endAtChunk w.queue w.index 0 ST_FAULT_UNIT else u.endCmd w.queue w.index ST_FAULT_UNIT 0) t
      t1.modGroup g.num fun x => { x with waits := [] }
    else t) s

/-- Work on a logical unit ends (R375). -/
def State.unitWorkEnds (s : State) (kind wing logical : Nat) : State :=
  match kind with
  | 1 => s.coreFailed wing logical
  | 3 => s.slotFailed wing logical
  | 5 => s.laneFailed wing logical
  | _ => s

/-- A unit of R375 that can fail: its kind, and a logical number that is present and not already failed. -/
def State.canFail (s : State) (kind wing logical : Nat) : Bool :=
  let fresh := !s.spares.waiting.any fun u => u.kind == kind && u.wing == wing && u.logical == logical
  if kind = 3 then decide (logical < 2048) && !s.spares.use'.rowsAbsent.contains (wing, logical) && fresh
  else decide (logical < logicalUnits kind) && !s.unitAbsent kind wing logical && fresh

/-- UNIT_FAILED (R374, R375, Table 19.2): `logical` is the slot for an Accord SRAM row, whose row is `row`. -/
def execUnitFailed (kind : Fin 16) (wing : Wing) (logical : Fin 2048) (cause : Fin 256) (row : BitVec 32) (s : State) : Out :=
  act s fun s =>
    let k := kind.val
    let w := wing.val
    let l := logical.val
    if s.canFail k w l = false then s
    else
      let phys := if k = 3 then row.toNat else s.unitPhys k w l
      let s1 := s.unitWorkEnds k w l
      let s2 := { s1 with spares := { s1.spares with
        waiting := s1.spares.waiting ++ [({ kind := k, wing := w, logical := l, detected := s1.wb } : UnitFail)]
        uncommitted := s1.spares.uncommitted ++ [(k, w, cause.val, phys)]
        use' := if k = 3 then s1.spares.use' else { s1.spares.use' with failed := s1.spares.use'.failed ++ [(k, w, phys)] } } }
      let s3 := if k = 1 then s2.showCores w else s2
      s3.sillage 0x0F 0x01 2 []

/-! ### Takeover (R375, R376) -/

/-- The map of one failure: a spare takes the logical number, or it becomes ABSENT. -/
def State.mapTakeover (s : State) (u : UnitFail) : State :=
  if u.kind = 3 then
    let n := s.rowsFree u.wing
    let use1 := s.spares.use'
    { s with spares := { s.spares with use' :=
      if n = 0 then { use1 with rowsAbsent := use1.rowsAbsent ++ [(u.wing, u.logical)] }
      else { use1 with rowsFree := Store.set (fun _ => 512) use1.rowsFree u.wing (n - 1) } } }
  else
    s.setReg .SPR_MAP (mapIx u.kind u.wing u.logical) (match s.freeUnits u.kind u.wing with
      | p :: _ => mapWord p 1
      | [] => mapWord 0xFF 2)

/-- Failures in the order in which they take their spares: logical numbers ascending within a kind and wing. -/
def failOrder (l : List UnitFail) : List UnitFail := l.mergeSort fun a b => decide (a.logical ≤ b.logical)

/-- A slot that is ABSENT marks the bouquet that claims it DEGRADED (R374): the one whose node holds it, or all of the wing where the
slots left are too few for the claims. -/
def State.slotLost (s : State) (wing slot : Nat) : State :=
  if 1792 ≤ slot then s
  else
    match (s.coll.nodes.find? fun n => n.wing == wing && n.slots.contains slot && n.phase == .scheduled).bind (·.sched) with
    | some (h, _) => s.markDegraded h
    | none =>
      let gone := (s.spares.use'.rowsAbsent.filter fun a => a.1 == wing && decide (a.2 < 1792)).length
      if s.fld F.ACD_SLOTS_SCHED_CLAIMED wing ≤ 1792 - gone then s
      else s.hawk.parts.foldl (fun (t : State) b =>
        if b.bq.nodes.any fun n => n.chip == t.chip && n.wing == wing && n.slots != 0 then t.markDegraded b.handle else t) s

/-- Forward-only cause SPARES, once (R368). -/
def State.sparesCause (s : State) : State := s.foCause FO_SPARES

/-- What an ABSENT logical unit brings with it (Tables 19.1 and 19.2): FAULT to the Monarch, the bouquets that name it, the port of an
AES engine, and forward-only where a wing has no AES engine left. -/
def State.unitLost (s : State) (kind wing logical : Nat) : State :=
  let s1 := s.sendMgmt 0xFFFE (.fault (.unit kind wing (if kind = 1 then wing * 96 + logical else logical)) 0)
  match kind with
  | 1 => s1.coreLost wing logical
  | 3 => s1.slotLost wing logical
  | 6 =>
    let s2 := if logical < 32 then s1.lossOfLink (wing * 32 + logical) else s1
    if s2.absentUnits 6 wing = 48 then s2.sparesCause else s2
  | _ => s1

/-- One takeover after its boundary. -/
def State.takeover (s : State) (u : UnitFail) : State :=
  let s1 := s.mapTakeover u
  let lost := if u.kind = 3 then s1.spares.use'.rowsAbsent.contains (u.wing, u.logical) else s1.unitAbsent u.kind u.wing u.logical
  let after := s1.flag F.INS_STATUS_IMAGO
  if lost then
    (if after then s1.bump F.SPR_EVENTS_ABSENTS else s1).unitLost u.kind u.wing u.logical
  else if after then s1.bump F.SPR_EVENTS_TAKEOVERS else s1

/-- SPARE_TAKEOVER (R375): at the boundary after detection. -/
def execSpareTakeover (s : State) : Out :=
  act s fun s =>
    let due := fun (u : UnitFail) => !s.time.based || s.reached (u.detected + 1#48)
    let now := failOrder (s.spares.waiting.filter due)
    let s1 := { s with spares := { s.spares with waiting := s.spares.waiting.filter fun u => !due u } }
    (now.foldl State.takeover s1).showSpares

/-- DEFECT_COMMIT (R375, R378): the entry and the map with the takeovers due are written to Cocoon in one act. -/
def execDefectCommit (s : State) : Out :=
  act s fun s =>
    match s.spares.uncommitted with
    | [] => s
    | (k, w, cause, unit) :: t =>
      let s1 := ({ s with spares := { s.spares with uncommitted := t } }).appendDefect k w cause unit
      let new := (failOrder s1.spares.waiting).foldl State.mapTakeover s1
      { s1 with cocoon := { s1.cocoon with spareMap := new.allMaps, spareUse := new.spares.use' } }

/-- A port goes out of service for good: its mode is Disabled, and LINK_LOSS is announced (Table 18.7). -/
def State.disablePort (s : State) (p : Nat) : State :=
  if s.linkMode p = PM_DISABLED then s
  else ((s.setFld F.PRT_CTL_MODE p PM_DISABLED).dropLink p PS_DISABLED).announceLoss p

/-- ESSENTIAL_UNIT_FAIL (R368, Table 18.7): after Imago a crossbar quarter (kind 0x0A), a bridge (0x0B; `wing` the higher-numbered wing it
joins) or an HBM stack (0x07) fails. -/
def execEssentialUnitFail (kind : Fin 16) (wing : Wing) (s : State) : Out :=
  act s fun s =>
    if kind.val = 0x0A ∨ kind.val = 0x0B then
      let s1 := if s.flag F.INS_STATUS_IMAGO then
          (List.range 32).foldl (fun (t : State) p => t.disablePort (wing.val * 32 + p)) s
        else s
      s1.sparesCause
    else if kind.val = 0x07 then s.sparesCause
    else s

/-! ### The start test (R344, R377) -/

/-- Append the failures that are not on the defect list; the number appended. -/
def State.noteFails (s : State) (fails : List (Nat × Nat × Nat)) : State × Nat :=
  fails.foldl (fun (x : State × Nat) f =>
    if x.1.cocoon.defects.any fun d => d.kind == f.1 && d.place == f.2.1 && d.unit == f.2.2 then x
    else (x.1.appendDefect f.1 f.2.1 1 f.2.2, x.2 + 1)) (s, 0)

/-- The logical numbers of a kind and wing afresh: passing units in ascending order, the rest ABSENT (R377). -/
def State.renumber (s : State) (kind wing : Nat) : State :=
  let ok := (List.range (logicalUnits kind + spareUnits kind)).filter fun p => !s.spares.use'.failed.contains (kind, wing, p)
  (List.range (logicalUnits kind)).foldl (fun (t : State) l =>
    t.setReg .SPR_MAP (mapIx kind wing l) (match ok[l]? with | some p => mapWord p 0 | none => mapWord 0xFF 2)) s

/-- The logical numbers of a kind and wing as they were: a spare takes the number of each unit found failed (R344). -/
def State.refill (s : State) (kind wing : Nat) : State :=
  (List.range (logicalUnits kind)).foldl (fun (t : State) l =>
    if t.unitAbsent kind wing l ∨ t.spares.use'.failed.contains (kind, wing, t.unitPhys kind wing l) = false then t
    else t.mapTakeover ⟨kind, wing, l, 0⟩) s

/-- Entries of SPR_MAP of which `p` holds. -/
def State.countMap (s : State) (p : Nat → Nat → Nat → Bool) : Nat :=
  (mapKinds.map fun k => ((List.range 4).map fun w => ((List.range (logicalUnits k)).filter fun l => p k w l).length).sum).sum

/-- A wing without a present AES engine, or a quarter or bridge that fails: FAIL_UNIT of TEST_ESSENTIAL. -/
def State.testEssential (s : State) (fails : List (Nat × Nat × Nat)) : Option Nat :=
  match fails.find? fun f => f.1 == 0x0A || f.1 == 0x0B with
  | some f => some f.2.1
  | none => (List.range 4).find? fun w => s.absentUnits 6 w == 48

/-- The units that fail a start test, and the assignments that follow (R344, R377). -/
def State.assign (s : State) (t : StartTest) (por : Bool) : State :=
  let rows9 := s.spares.use'.sramRows
  let s00 := if por then { s with spares := { s.spares with use' := SpareUse.init } } else s.loadMaps
  let s0 := { s00 with spares := { s00.spares with use' := { s00.spares.use' with sramRows := min rows9 s00.spares.use'.sramRows } } }
  let old := s0.spares.use'
  let rows := fun (w : Nat) => (t.fails.filter fun f => f.1 == 3 && f.2.1 == w).length
  let use1 : SpareUse := { old with
    failed := old.failed ++ t.fails.filter fun f => mapKinds.contains f.1 && !old.failed.contains f
    rowsFree := (List.range 4).foldl (fun (x : Store Nat) w =>
      Store.set (fun _ => 512) x w (Store.get (fun _ => 512) x w - rows w)) old.rowsFree
    rowsAbsent := old.rowsAbsent ++ t.slots.filter fun a => !old.rowsAbsent.contains a
    lsMin := (List.range 4).foldl (fun (x : Store Nat) w => Store.set (fun _ => 32) x w (t.lsMin.getD w 32)) old.lsMin
    sramRows := old.sramRows - (t.fails.filter fun f => f.1 == 9).length }
  let s1 := { s0 with spares := { s0.spares with use' := use1 } }
  mapKinds.foldl (fun (x : State) k => (List.range 4).foldl (fun (y : State) w => if por then y.renumber k w else y.refill k w) x) s1

/-- Rows of Accord SRAM that only this test found failing, one spare row each; the spares a WARM start test brought in among the
units that SPR_MAP shows, or after POR the numbers that stand on units beyond the logical count. -/
def State.sparesUsed (old new : State) (por : Bool) : Nat :=
  if por then new.countMap fun k w l => !new.unitAbsent k w l && decide (logicalUnits k ≤ new.unitPhys k w l)
  else new.countMap fun k w l => !new.unitAbsent k w l && (old.unitPhys k w l != new.unitPhys k w l)

/-- WST_TEST and WST_STATUS of a wing at the end of stage 4 (R414). -/
def State.stewardTest (s : State) (t : StartTest) (before : List Defect) (essential : Option Nat) (w : Nat) : State :=
  let mine := (s.cocoon.defects.drop before.length).filter fun d => d.place == w && d.kind != 7 && d.kind != 8
  let result := if essential = some w then 3 else if mapKinds.any (fun k => 0 < s.absentUnits k w) ∨ 0 < s.absentUnits 3 w then 2 else 1
  let s1 := (s.setFld F.WST_TEST_HOURS w s.cocoon.hours).setFld F.WST_TEST_UNITS w (t.units.getD w 0)
  ((s1.setFld F.WST_TEST_NEW_DEFECTS w (min 255 mine.length)).setFld F.WST_TEST_RESULT w result).setFld F.WST_STATUS_STATE w 1

/-- The start test ends (R344): defects appended, spares brought in, INS_TEST and the stewards' results; and FAIL_UNIT where an
essential unit failed. -/
def State.startTest (s : State) (t : StartTest) (por : Bool) : State × Option Nat :=
  let (s1, n) := s.noteFails t.fails
  let s2 := s1.assign t por
  let old := s1.loadMaps
  let ess := s2.testEssential t.fails
  let s3 := (s2.setFld F.INS_TEST_UNITS_TESTED 0 (min 65535 (t.units.sum + t.thorax))).setFld F.INS_TEST_NEW_DEFECTS 0 (min 65535 n)
  let s4 := (s3.setFld F.INS_TEST_SPARES_USED 0 (old.sparesUsed s3 por)).setFld F.INS_TEST_ABSENT 0
    ((s3.countMap fun k w l => s3.unitAbsent k w l) + s3.spares.use'.rowsAbsent.length)
  let s5 := (List.range 4).foldl (fun (x : State) w => x.stewardTest t s.cocoon.defects ess w) s4
  (s5.showSpares.keepMaps, ess)

/-- At Imago the agent sends FAULT for each kind and wing that holds an ABSENT unit, with their count (R377). -/
def State.absentFaults (s : State) : State :=
  [1, 2, 3, 5, 6].foldl (fun (t : State) k => (List.range 4).foldl (fun (u : State) w =>
    let n := u.absentUnits k w
    if n = 0 then u else u.sendMgmt 0xFFFE (.fault (.unit k w 0xFFFF) n)) t) s

/-! ### After a COMPUTE reset (R354) -/

/-- COMPUTE_RESET_READY (R354): at b + 2 the units are ready and slots leave quarantine. -/
def execComputeResetReady (s : State) : Out :=
  act s fun s =>
    match s.power.computeReady with
    | some b =>
      if s.reached b then ({ s with power := { s.power with computeReady := none } }).freeHeld.showSpares else s
    | none => s

/-! ### Commands (R378, R379, R414) -/

/-- A defect entry as its 16 bytes (Table 19.3). -/
def defectBytes (d : Defect) : List Byte :=
  leBytes 4 d.seq ++ leBytes 4 d.hours ++ leBytes 1 d.kind ++ leBytes 1 d.place ++ leBytes 1 d.cause ++ leBytes 1 d.stage
  ++ leBytes 4 d.unit

/-- DEFECT_READ (R378): entries in SEQ order from the first one named. -/
def execDefectRead (r : FwRef) (first : BitVec 32) (s : State) : Out :=
  act s fun s =>
    if s.cocoon.defects.length < first.toNat then s.finishFw r ACK_BAD_ARGUMENT 0
    else
      let l := s.cocoon.defects.drop first.toNat
      s.finishFw r ACK_OK l.length (l.flatMap defectBytes)

/-- SPARE_STATUS (R379). -/
def execSpareStatus (r : FwRef) (s : State) : Out :=
  act s fun s =>
    let n := fun (k w : Nat) => leBytes 1 (s.freeUnits k w).length
    let wings := (List.range 4).flatMap fun w => n 1 w ++ n 2 w ++ n 5 w ++ n 6 w ++ leBytes 2 (s.rowsFree w) ++ leBytes 2 (s.lsMin w)
    let spareCounts := (List.range 24).flatMap fun k => leBytes 2 (512 - Store.get (fun _ => 0) s.pool.reserve k)
    s.finishFw r ACK_OK 96 (wings ++ spareCounts ++ leBytes 2 s.spares.use'.sramRows ++ List.replicate 14 0)

/-- WING_STATUS (R414, Table 16.12), of the steward whose mailbox took the command. -/
def execWingStatus (r : FwRef) (s : State) : Out :=
  act s fun s =>
    let w := match s.entryOf r with | some e => (e.mbx - 28) % 4 | none => 0
    let block := leBytes 1 (s.fld F.PWR_STATUS_STATE) ++ leBytes 1 (s.fld F.WST_STATUS_PRESENT w)
      ++ leBytes 1 (s.fld F.WST_STATUS_FREE_CORES w) ++ List.replicate 5 0 ++ leBytes 8 (s.reg .WST_TEST w).toNat
    s.finishFw r ACK_OK 32 (block ++ List.replicate 16 0)

end Sys2Proof.Machine
end

