-- ==== Sys2Proof/Machine/Power.lean ====
section
/-! DEFINITION. Sys2Proof/Machine/Power.lean: reset commands, power states, comparators and trips, pacing, and forward-only operation
(R351 to R372).
(log entries of this file: DEDUCED 92, 93, 94, 104, 108, 123, 125; DESIGN CHOICE 127) -/

namespace Sys2Proof.Machine

/-! ### Reset commands (R353, R355) -/

/-- RESET_WARM (R353): no result word; WARM_RELEASE follows. -/
def execResetWarm (_r : FwRef) (s : State) : Out := act s fun s => s.warmNow 3

/-- The manager firmware starts afresh (R124, R347, R355). -/
def State.startManager (s : State) : State :=
  if s.isManagerChip then
    { s.setFld F.TWN_STATUS_STATE 0 MS_STARTING with twin := { TwinSt.init with startAt := some s.ftu } }
  else s

/-- Registers that a ROLE reset returns to their reset values (Table 22.6); TWN_STATUS keeps EPOCH and MGR_ROLE all but ACTIVE. -/
def roleReset (r : RegName) : Bool :=
  !r.kept.contains .role && r != .MGR_ROLE && r != .TWN_STATUS && r != .RST_CAUSE && r != .PWR_MEASURE

/-- A ROLE reset (R355): an ACTIVE chip clears ROOT and LOCKED and stops; the manager's records go, its journal and epoch stay. -/
def State.roleNow (s : State) (source : Nat) : State :=
  let epoch := s.fld F.TWN_STATUS_EPOCH
  let s1 := if s.isActive then s.setFld F.FT_STATUS_STATE 0 TS_ACQUIRE else s
  let s2 := (s1.resetRegs fun r _ => roleReset r).setFld F.MGR_ROLE_ACTIVE 0 0
  let s3 := (s2.setReg .TWN_STATUS 0 0).setFld F.TWN_STATUS_EPOCH 0 epoch
  let s4 := (s3.bump F.RST_COUNTS_ROLE).setReg .RST_CAUSE 0 (putBits (putBits 0 32 8 4) 24 8 source)
  ({ s4 with mgr := MgrSt.init }).startManager

/-- RESET_ROLE (R355, Table 16.11). -/
def execResetRole (r : FwRef) (s : State) : Out :=
  act s fun s => if s.isManagerChip then (s.roleNow 3).finishFw r ACK_OK 0 else s.finishFw r ACK_STATE 0

/-- MANAGER_WATCHDOG (R355). -/
def execManagerWatchdog (s : State) : Out := act s fun s => if s.isManagerChip then s.roleNow 6 else s

/-! ### Power states (R361 to R364) -/

/-- The wake mask sets WAKE of the comparators it names (Table 18.6). -/
def State.wakeMask (s : State) (mask : Nat) : State :=
  (List.range 8).foldl (fun (t : State) n => if mask.testBit n then t.setFld F.AON_CMP_CTL_WAKE n 1 else t) s

/-- POWER_ACTIVE (R361). -/
def execPowerActive (r : FwRef) (mask : Fin 256) (s : State) : Out :=
  act s fun s => ((s.wakeMask mask.val).setFld F.PWR_STATUS_STATE 0 0).finishFw r ACK_OK 0

/-- POWER_DOZE (R362): no clock, result or scheduled time changes. -/
def execPowerDoze (r : FwRef) (mask : Fin 256) (s : State) : Out :=
  act s fun s => ((s.wakeMask mask.val).setFld F.PWR_STATUS_STATE 0 1).finishFw r ACK_OK 0

/-- SLEEP or DEEP (R363): with no context ACTIVE and no ACTIVE manager role; contexts that reset are waited for. -/
def State.goLow (s : State) (r : FwRef) (mask code : Nat) : State :=
  if (s.contexts.any fun c => s.ctxState c == 1) ∨ s.isActive then s.finishFw r ACK_STATE 0
  else
    let s1 := s.wakeMask mask
    ({ s1 with power := { s1.power with sleepWant := some (code, r) } }).tryLow

/-- POWER_SLEEP (R363). -/
def execPowerSleep (r : FwRef) (mask : Fin 256) (s : State) : Out := act s fun s => s.goLow r mask.val 2

/-- POWER_DEEP (R363). -/
def execPowerDeep (r : FwRef) (mask : Fin 256) (s : State) : Out := act s fun s => s.goLow r mask.val 3

/-! ### Comparators and trips (R365, R366) -/

/-- The always-on domain works and no POR holds it. -/
def State.aonLive (s : State) : Bool := s.power.aonOn && !(s.power.inReset && s.power.porHeld)

/-- The condition of a comparator as the part itself knows it: FT_COUNT for 0 to 3, as the environment says for the others. -/
def State.cmpTrue (s : State) (n : Nat) : Bool :=
  decide (4 ≤ n) || decide ((s.reg .AON_CMP_VALUE n).toNat ≤ s.ftu.toNat)

/-- The actions of a comparator that fires (R365, R368, R387). -/
def State.cmpActions (s : State) (n : Nat) : State :=
  let entering := s.asleep || s.power.sleepWant.isSome
  let s1 := if s.flag F.AON_CMP_CTL_WAKE n ∧ entering ∧ s.power.tripped = false then
      { s with power := { s.power with wakeCmps := s.power.wakeCmps ||| 2 ^ n } }
    else s
  if s1.running = false then s1
  else
    let s2 := if s1.flag F.CHR_ARM_ARMED ∧ (s1.fld F.CHR_ARM_CMP_MASK).testBit n then s1.chrTrigger 2 else s1
    let s3 := s2.sillage 0x0E 0x01 1 []
    if s3.flag F.AON_CMP_CTL_FWD_ONLY n = false then s3
    else if n = 4 then s3.foCause FO_THERMAL
    else if n = 5 then s3.foCause FO_SUPPLY
    else s3

/-- COMPARATOR_FIRE (R365): an enabled comparator's condition becomes true. -/
def execComparatorFire (n : Fin 8) (s : State) : Out :=
  .next (
    let on := s.fld F.AON_CMP_EVENTS_ACTIVE
    if s.aonLive ∧ s.flag F.AON_CMP_CTL_ENABLE n.val ∧ on.testBit n.val = false ∧ s.cmpTrue n.val then
      let s1 := s.setFld F.AON_CMP_EVENTS_ACTIVE 0 (on ||| 2 ^ n.val)
      (s1.setFld F.AON_CMP_EVENTS_FIRED 0 (s1.fld F.AON_CMP_EVENTS_FIRED ||| 2 ^ n.val)).cmpActions n.val
    else s)

/-- COMPARATOR_CLEAR (R365, Table 18.6): the condition ends; comparators 0 to 3 stay fired until VALUE is written. -/
def execComparatorClear (n : Fin 8) (s : State) : Out :=
  .next (
    let on := s.fld F.AON_CMP_EVENTS_ACTIVE
    if s.aonLive ∧ 4 ≤ n.val ∧ on.testBit n.val then s.setFld F.AON_CMP_EVENTS_ACTIVE 0 (on - 2 ^ n.val) else s)

/-- HARDWARE_TRIP (R366): in every state but POR. -/
def execHardwareTrip (s : State) : Out := .next (if s.aonLive then s.trip else s)

/-- ALERT_N is driven low: a trip, no Antenna port after stage 2, or a fired comparator with ALERT (R343, R365, R366). -/
def State.alertLow (s : State) : Bool :=
  s.power.tripped || s.power.alertAnt
  || (List.range 8).any fun n => (s.fld F.AON_CMP_EVENTS_FIRED).testBit n && s.flag F.AON_CMP_CTL_ALERT n

/-! ### Forward-only operation (R367 to R371) -/

/-- FORWARD_ONLY_ENTER (R368). -/
def execForwardOnlyEnter (r : FwRef) (s : State) : Out :=
  act s fun s =>
    if s.flag F.INS_STATUS_IMAGO then (s.foCause FO_COMMAND).finishFw r ACK_OK 0 else s.finishFw r ACK_STATE 0

/-- Edge ports on which a context is bound. -/
def State.boundPorts (s : State) : List Nat :=
  (List.range 128).filter fun p => s.contexts.any fun c => (s.ctx c).bindings.any fun b => b.port == p

/-- FWD_ONLY_CONTEXT_RESET (R370, Table 18.8): at n + 1 every context is reset by R161, bouquet parts go, and FAULT names the chip and
each bound endpoint. -/
def execFwdOnlyContextReset (s : State) : Out :=
  act s fun s =>
    match s.power.foAt with
    | some n =>
      if s.power.foReset = false ∧ s.reached (n + 1#48) then
        let bound := s.boundPorts
        let s1 := s.resetAll (n + 1#48)
        let s2 := bound.foldl (fun (t : State) p => t.sendMgmt 0xFFFE (.fault (.endpoint p) 0)) (s1.sendMgmt 0xFFFE (.fault .chip 0))
        { s2 with power := { s2.power with foReset := true } }
      else s
    | none => s

/-- FWD_ONLY_HALT (R370, Table 18.8): at n + 3 the quarantine ends, the pool enters self-refresh, and the monitor takes over. -/
def execFwdOnlyHalt (s : State) : Out :=
  act s fun s =>
    match s.power.foAt with
    | some n =>
      if s.power.foReset ∧ s.reached (n + 3#48) then
        let s1 := ({ s with power := { s.power with foAt := none, halted := true, refresh := true } }).freeHeld
        if s1.isManagerChip then
          { s1.resetRegs fun r _ => r == .MGR_ROUTE || r == .MGR_PLAN || r == .MGR_NBR with mgr := MgrSt.init }
        else s1
      else s
    | none => s

/-- A cause of forward-only has gone, or goes with the leave command (Table 18.7). -/
def State.causeGone (s : State) (bit : Nat) : Bool :=
  let active := s.fld F.AON_CMP_EVENTS_ACTIVE
  if bit = FO_THERMAL then !active.testBit 4
  else if bit = FO_SUPPLY then !active.testBit 5
  else if bit = FO_POWER then (match s.power.underSince with | some t => decide (usFtu 100000 ≤ s.since t) | none => false)
  else bit == FO_ESCALATION || bit == FO_COMMAND

/-- The chip leaves forward-only (R371). -/
def State.leaveForwardOnly (s : State) (r : FwRef) : State :=
  let esc := (s.fld F.PWR_STATUS_FO_CAUSES).testBit FO_ESCALATION
  let s1 := (s.setFld F.PWR_STATUS_FO_CAUSES 0 0).setFld F.PWR_STATUS_FWD_ONLY 0 0
  let s2 := { s1 with
    power := { s1.power with
      foAt := none, foReset := false, halted := false, refresh := false
      computeTimes := if esc then [] else s1.power.computeTimes, chipResets := if esc then [] else s1.power.chipResets }
    twin := if s1.mgrState = MS_FENCED then { s1.twin with fencedAt := some s1.wb, probeAt := none } else s1.twin }
  ((s2.sillage 0x0E 0x04 0 []).fwRestart (some r)).sendStatus

/-- FORWARD_ONLY_LEAVE (R368, R371): while any cause remains the command clears none. -/
def execForwardOnlyLeave (r : FwRef) (s : State) : Out :=
  act s fun s =>
    let causes := s.fld F.PWR_STATUS_FO_CAUSES
    if s.forwardOnly = false then s.finishFw r ACK_OK 0
    else if (List.range 7).all fun b => !causes.testBit b || s.causeGone b then (s.leaveForwardOnly r).finishFw r ACK_OK 0
    else s.finishFw r ACK_STATE 0

/-! ### Escalation limits (R360) -/

/-- ESCALATION (R360, Table 18.4): a value outside its bounds changes none. -/
def execEscalation (r : FwRef) (ctxResets ctxWindow chipResets chipWindow computeResets computeWindow : Fin 65536) (s : State) : Out :=
  act s fun s =>
    let into := fun (v : Fin 65536) (lo hi : Nat) => decide (lo ≤ v.val) && decide (v.val ≤ hi)
    if into ctxResets 2 64 && into ctxWindow 1 600 && into chipResets 4 256 && into chipWindow 10 3600
        && into computeResets 2 16 && decide (60 ≤ computeWindow.val) then
      let s1 := (s.setFld F.RST_ESC_LIMITS_CTX_RESETS 0 ctxResets.val).setFld F.RST_ESC_LIMITS_CTX_WINDOW 0 ctxWindow.val
      let s2 := (s1.setFld F.RST_ESC_LIMITS_CHIP_RESETS 0 chipResets.val).setFld F.RST_ESC_LIMITS_CHIP_WINDOW 0 chipWindow.val
      let s3 := (s2.setFld F.RST_ESC_LIMITS_COMPUTE_RESETS 0 computeResets.val).setFld F.RST_ESC_LIMITS_COMPUTE_WINDOW 0
        computeWindow.val
      s3.finishFw r ACK_OK 0
    else s.finishFw r ACK_BAD_ARGUMENT 0

/-! ### Input power (R369) -/

/-- The module power limit of the variant in W (Table 21.9). -/
def powerLimit (variant : Nat) : Nat := match variant with | 0 => 3000 | 1 => 2400 | _ => 1900

/-- Steps of pacing: 16 of 1/16 reach the floor. -/
def paceStep (pace watts limit : Nat) : Nat :=
  if limit * 97 < watts * 100 then min 16 (pace + 1) else if watts * 100 < limit * 95 then pace - 1 else pace

/-- PWR_MEASURE, every 1 ms. -/
def State.showPower (s : State) (watts vin temp : Nat) : State :=
  let due := match s.power.shownAt with | some t => decide (usFtu 1000 ≤ s.since t) | none => true
  if due then
    let s1 := s.setReg .PWR_MEASURE 0 (BitVec.ofNat 64 (temp * 2 ^ 48 + vin * 2 ^ 32 + watts * 2 ^ 16))
    { s1 with power := { s1.power with shownAt := some s.ftu } }
  else s

/-- POWER_MEASURE (R369): every 10 µs; the bus in mV, the temperature in 1/16 °C. Operation above 60 V is not specified (R397). -/
def execPowerMeasure (watts vin temp : Fin 65536) (s : State) : Out :=
  if s.running ∧ 60000 < vin.val then .fault .vinAboveRange
  else act s fun s =>
    let limit := powerLimit Config.variant.val
    let p := s.power
    let pace := paceStep p.pace watts.val limit
    let above := if limit < watts.val ∧ pace = 16 then some (p.overSince.getD s.ftu) else none
    let under := if watts.val * 100 < limit * 90 then some (p.underSince.getD s.ftu) else none
    ({ s with power := { p with pace := pace, overSince := above, underSince := under } }).showPower watts.val vin.val temp.val

/-- POWER_LIMIT (R369): above the limit for 10 ms with pacing at its floor. -/
def execPowerLimit (s : State) : Out :=
  act s fun s =>
    match s.power.overSince with
    | some t => if usFtu 10000 ≤ s.since t then (s.sillage 0x0E 0x05 2 []).foCause FO_POWER else s
    | none => s

/-- FIRMWARE_WATCHDOG_LIMIT (Table 18.7): three restarts by watchdog within 60 s, or no restart. -/
def execFirmwareWatchdogLimit (stuck : Bool) (s : State) : Out :=
  act s fun s =>
    let recent := s.fw.restarts.filter fun t => decide (s.ftu.toNat < t + usFtu 60000000)
    if stuck ∨ 3 ≤ recent.length then s.foCause FO_FIRMWARE else s

end Sys2Proof.Machine
end

