-- ==== Sys2Proof/Machine/Reset.lean ====
section
/-! DEFINITION. Sys2Proof/Machine/Reset.lean: the control signals, supply, clocks and straps (R349, R351, R353, R395 to R403).
(log entries of this file: DEDUCED 95, 96, 97) -/

namespace Sys2Proof.Machine

/-! ### Release (R342, R349, R398, R400) -/

/-- The straps are sampled (R400). -/
def State.sample (s : State) (x : Straps) : State :=
  let s1 := { s with pins := { role := x.role, serialSel := x.serialSel, debugEn := x.debugEn } }
  (s1.setFld F.MGR_ROLE_STRAP 0 x.role.val).setFld F.SEC_STATUS_DEBUG_EN 0 (bit x.debugEn)

/-- Instar starts at stage 1 (R340). -/
def State.startInstar (s : State) : State :=
  { s with ins := { s.ins with stageAt := s.ftu, beganAt := s.ftu } }

/-- RST_CAUSE of a reset or wake of the whole part. -/
def State.setCauseOf (s : State) (kind source wake : Nat) (held : Bool) : State :=
  s.setReg .RST_CAUSE 0 (BitVec.ofNat 64 (kind * 2 ^ 32 + source * 2 ^ 24 + wake * 2 ^ 16 + bit held))

/-- POR ends where nothing holds it (R398, R399, R403). -/
def State.releasePor (s : State) (x : Straps) : State :=
  let p := s.power
  if p.aonOn ∧ p.inReset ∧ p.porHeld ∧ p.lowSeen ∧ p.rstLow = false ∧ p.extest = false ∧ p.sysLost = false then
    let s1 := { s with power := { p with inReset := false, porHeld := false } }
    ((s1.setCauseOf 1 p.source 0 false).sample x).startInstar
  else s

/-- Power and reset in POR. -/
def porPower (p : PowerSt) (source : Nat) : PowerSt :=
  { PowerSt.init with
    lowSeen := p.lowSeen, rstLow := p.rstLow, source := source, extest := p.extest, sysLost := p.sysLost, refsLost := p.refsLost }

/-- POR_ASSERT (R351, R397, R402): the always-on domain starts, or RESET_N is low. -/
def execPorAssert (powerUp : Bool) (s : State) : Out :=
  .next (
    let p := s.power
    if powerUp then
      if p.aonOn then s else s.porNow { porPower p 0 with lowSeen := false, rstLow := false }
    else if p.aonOn = false then s
    else if p.porHeld then { s with power := { p with lowSeen := true, rstLow := true } }
    else s.porNow { porPower p 1 with lowSeen := true, rstLow := true })

/-- RESET_RELEASE (R342, R398): RESET_N rises. After a power-up the conditions of R398 step 2 must hold, or RESET_N must go low
again. -/
def execResetRelease (ok : Bool) (x : Straps) (s : State) : Out :=
  .next (
    let p := s.power
    if p.rstLow = false then s
    else
      let good := ok || p.source != 0
      let s1 := { s with power := { p with rstLow := false, lowSeen := p.lowSeen && good } }
      s1.releasePor x)

/-- WARM_ASSERT (R353): POR covers it (R352). -/
def execWarmAssert (s : State) : Out :=
  .next (if s.power.aonOn = false ∨ s.power.porHeld then s else s.warmNow 2)

/-- The warm-reset conditions of R349: the marker, CLEAN, and the age of the last full test. -/
def State.eligible (s : State) : Bool :=
  s.flag F.INS_FAST_MARKER && s.flag F.INS_FAST_CLEAN && decide (s.cocoon.hours < s.fld F.INS_FAST_LAST_FULL + 168)

/-- The pool was not held: its contents, the overflow region and its records are lost (R353, R382). -/
def State.poolLost (s : State) : State :=
  let s1 := { s with
    pool := { s.freshPool with corrected := s.pool.corrected }
    mem := Store.dropIf (fun a => decide (a < sramBase)) s.mem
    sil := { s.sil with overflow := [] } }
  ((s1.setFld F.SIL_CFG_FRAMES 0 8).setFld F.SIL_CFG_WING 0 0).silOldest

/-- The part comes up warm (R349, R353, R363). -/
def State.comeWarm (s : State) (kind source : Nat) (busOk : Bool) (x : Straps) : State :=
  let held := busOk && s.power.refresh
  let s0 := s.setCauseOf kind source s.power.wakeCmps held
  let s1 := { s0 with power := { s0.power with inReset := false, wakeCmps := 0, tripped := false } }
  let s2 := (if held then s1 else s1.poolLost).setFld F.PWR_STATUS_STATE 0 0
  let s3 := s2.setFld F.INS_STATUS_FAST_TAKEN 0 (bit (s2.flag F.INS_CTL_FAST_PATH && s2.eligible))
  (s3.sample x).startInstar

/-- WARM_RELEASE (R349, R363): WARM_N rises, a commanded WARM reset ends, or a comparator wakes the part. `busOk` says that the 48 V bus
has stayed within 40 to 60 V. -/
def execWarmRelease (busOk : Bool) (x : Straps) (s : State) : Out :=
  .next (
    let p := s.power
    if p.aonOn = false ∨ p.porHeld then s
    else if p.inReset then s.comeWarm 2 p.source busOk x
    else if s.asleep ∧ p.wakeCmps ≠ 0 then
      (s.bump F.RST_COUNTS_WARM).comeWarm (if s.fld F.PWR_STATUS_STATE = 2 then 5 else 6) 4 busOk x
    else s)

/-! ### Supply, clocks and the TAP (R396, R397, R399, R403) -/

/-- VIN_LOSS (R397): below 30 V the always-on domain loses power; the next power-up is a POR. -/
def execVinLoss (s : State) : Out :=
  .next (if s.power.aonOn then s.porNow { porPower s.power 0 with aonOn := false, lowSeen := false, rstLow := false, extest := false }
    else s)

/-- The part is held as if RESET_N were low. A POR in progress goes on as it was. -/
def State.holdPor (s : State) (p : PowerSt) (source : Nat) : State :=
  if p.porHeld then { s with power := p } else s.porNow { porPower p source with lowSeen := true }

/-- SYSCLK_LOSS (R399): RST_CAUSE will record SOURCE 0. -/
def execSysclkLoss (s : State) : Out :=
  .next (if s.power.aonOn then s.holdPor { s.power with sysLost := true } 0 else { s with power := { s.power with sysLost := true } })

/-- SYSCLK_RETURN (R399). -/
def execSysclkReturn (x : Straps) (s : State) : Out :=
  .next (({ s with power := { s.power with sysLost := false } }).releasePor x)

/-- DEBUG_EXTEST (R403): EXTEST holds the part; Test-Logic-Reset afterwards lets it come up by POR. -/
def execDebugExtest (hold : Bool) (x : Straps) (s : State) : Out :=
  .next (
    if s.power.aonOn = false then s
    else if hold then s.holdPor { s.power with extest := true } 1
    else ({ s with power := { s.power with extest := false } }).releasePor x)

/-- Links that a SerDes reference serves (R396). -/
def refLinks (k : Nat) : List Nat := (List.range 16).map (16 * k + ·) ++ (if k = 0 then [twinLink] else [])

/-- SREFCLK_LOSS (R396). -/
def execSrefclkLoss (k : Fin 8) (s : State) : Out :=
  .next (
    let s1 := { s with power := { s.power with refsLost := k :: s.power.refsLost.filter fun j => j != k } }
    let s2 := if s1.running then (refLinks k.val).foldl State.lossOfLink s1 else s1
    let ants := s2.power.aonOn && !s2.power.inReset && !s2.asleep && k == 0
    if ants then (s2.antGo 0 AN_DOWN).antGo 1 AN_DOWN else s2)

/-- SREFCLK_RETURN (R396): the ports retrain as their lanes lock again. -/
def execSrefclkReturn (k : Fin 8) (s : State) : Out :=
  .next { s with power := { s.power with refsLost := s.power.refsLost.filter fun j => j != k } }

end Sys2Proof.Machine
end

