-- ==== Sys2Proof/Machine/Instar.lean ====
section
/-! DEFINITION. Sys2Proof/Machine/Instar.lean: the eight stages of bring-up (R340 to R350).
(log entries of this file: DEDUCED 96, 98, 99, 100, 101, 102) -/

namespace Sys2Proof.Machine

/-! ### Stages and their control (R340, R341) -/

def IS_RUNNING : Nat := 1
def IS_DONE : Nat := 2
def IS_FAILED : Nat := 3

/-- Failure codes (Table 17.2). -/
def FC_PUF : Nat := 0x01
def FC_COCOON : Nat := 0x02
def FC_ROM_SELFTEST : Nat := 0x03
def FC_SRAM : Nat := 0x04
def FC_IMAGE_FORMAT : Nat := 0x05
def FC_IMAGE_SIGNATURE : Nat := 0x06
def FC_TEST_ESSENTIAL : Nat := 0x07
def FC_HBM_TRAIN : Nat := 0x08
def FC_NO_MAP : Nat := 0x09
def FC_NO_TIME : Nat := 0x0A
def FC_TIMEOUT : Nat := 0x0B

def State.insStage (s : State) : Nat := s.fld F.INS_STATUS_STAGE
def State.insState (s : State) : Nat := s.fld F.INS_STATUS_STATE

/-- A stage runs. -/
def State.stageRuns (s : State) (n : Nat) : Bool := s.insStage == n && s.insState == IS_RUNNING

/-- Milliseconds since the stage began, saturating. -/
def State.elapsedMs (s : State) : Nat := min (2 ^ 32 - 1) (s.since s.ins.beganAt / 1600000)

/-- A stage begins, and with `fresh` its limit. -/
def State.beginStage (s : State) (n : Nat) (fresh : Bool) : State :=
  let s1 := (((s.setFld F.INS_STATUS_STAGE 0 n).setFld F.INS_STATUS_STATE 0 IS_RUNNING).setFld F.INS_STATUS_FAIL_CODE 0 0).setFld
    F.INS_STATUS_FAIL_UNIT 0 0
  let s2 := s1.setFld F.INS_STATUS_ELAPSED_MS 0 0
  { s2 with ins := { s2.ins with beganAt := s.ftu, stageAt := if fresh then s.ftu else s.ins.stageAt } }

/-- A stage ends DONE, with its record (R341). -/
def State.stageDone (s : State) : State :=
  let ms := s.elapsedMs
  ((s.setFld F.INS_STATUS_STATE 0 IS_DONE).setFld F.INS_STATUS_ELAPSED_MS 0 ms).sillage 0x0D 0x01 0 [s.insStage, 0, ms]

/-- A stage fails with a code and unit, with its record (R341). After a failed stage 3 the image may be written again (Table 17.3, log
entry 135). -/
def State.stageFailed (s0 : State) (code unit : Nat) : State :=
  let s := { s0 with ins := { s0.ins with loadOpen := s0.ins.loadOpen || s0.insStage == 3 } }
  let ms := s.elapsedMs
  let s1 := ((s.setFld F.INS_STATUS_STATE 0 IS_FAILED).setFld F.INS_STATUS_ELAPSED_MS 0 ms).setFld F.INS_STATUS_FAIL_CODE 0 code
  (s1.setFld F.INS_STATUS_FAIL_UNIT 0 unit).sillage 0x0D 0x02 2 [s.insStage, code, ms]

/-- The stage after one that is DONE: the fast path skips stage 4 (R349). -/
def State.nextStage (s : State) : Nat := if s.insStage = 3 ∧ s.flag F.INS_STATUS_FAST_TAKEN then 5 else s.insStage + 1

/-- A stage that failed may be started again (Table 17.1). -/
def State.retryable (s : State) : Bool :=
  s.insStage == 3 || s.insStage == 5 || s.insStage == 7 || (s.insStage == 6 && s.fld F.INS_STATUS_FAIL_CODE == FC_NO_MAP)

/-- A GO of stage `n` is acted on (R340). -/
def State.goOk (s : State) (n : Nat) : Bool :=
  (s.insState == IS_DONE && s.nextStage == n) || (s.insState == IS_FAILED && s.insStage == n && s.retryable)

/-- A write of INS_CTL stores its RW fields. -/
def State.storeInsCtl (s : State) (v : Word) : State :=
  let s1 := s.setFld F.INS_CTL_FAST_PATH 0 (getBits v 8 1)
  (s1.setFld F.INS_CTL_SOURCE 0 (getBits v 6 1)).setFld F.INS_CTL_STAGE 0 (getBits v 1 3)

/-- A write of INS_CTL with GO and the STAGE named runs `f` where R340 admits it; any other GO write changes nothing. -/
def State.goWrite (s : State) (v : Word) (n : Nat) (ok : Bool) (f : State → State) : State × Nat × Word :=
  let s1 := s.storeInsCtl v
  (if getBits v 0 1 = 0 then s1 else if getBits v 1 3 = n ∧ ok then f s1 else s, ST_OK, 0)

/-! ### Stage 1: always-on and Cocoon (R286, R342) -/

/-- Records of Cocoon whose tag fails, by number: 0 life, 1 installation, 2 defect list, 3 spare maps, 4 persistent segment, 5 XMSS
state. Each is treated as absent and reported. -/
def State.dropRecord (s : State) (k : Nat) : State :=
  let c := s.cocoon
  let c1 : CocoonSt := match k with
    | 0 => { c with hours := 0, cycles := 0, lastFull := 0 }
    | 1 => { c with serials := CocoonSt.init.serials, mapDigest := 0, mapSeq := 0, authDigest := none }
    | 2 => { c with defects := [] }
    | 3 => { c with spareMap := [], spareUse := SpareUse.init }
    | 4 => { c with persistent := [] }
    | _ => { c with reservedTo := 0 }
  ({ s with cocoon := c1 }).sillage 0x0B 0x01 2 []

/-- Cocoon's records into the registers that show them (R342 step 4). -/
def State.loadCocoon (s : State) (deviceId : Word) : State :=
  let c := s.cocoon
  let n := c.defects.length
  let s1 := (s.setFld F.SPR_STATUS_ENTRIES 0 n).setFld F.SPR_STATUS_LIST_FULL 0 (bit (n == 65536))
  let s2 := (s1.setFld F.INS_LIFE_HOURS 0 c.hours).setFld F.INS_LIFE_POWER_CYCLES 0 c.cycles
  let s3 := (s2.setReg .SEC_DEVICE_ID 0 deviceId).setFld F.SEC_XMSS_INDEX_NEXT_INDEX 0 c.reservedTo
  let s4 := (s3.setFld F.SEC_XMSS_RESERVED_RESERVED_TO 0 c.reservedTo).setFld F.SIL_CFG_PERSIST_HELD 0 c.persistent.length
  let s5 := s4.setFld F.INS_FAST_LAST_FULL 0 c.lastFull
  let s6 := s5.setFld F.SEC_STATUS_XMSS_EXHAUSTED 0 (bit (decide (2 ^ 40 ≤ c.reservedTo)))
  (List.range 4).foldl (fun (t : State) w =>
    t.setFld F.HBM_RETIRE_RETIRED w (c.defects.filter fun d => d.kind == 7 && d.place / 6 == w).length) s6

/-- STAGE1_DONE (R342): the device seed, the variant certificate, and the Cocoon records whose tag fails. -/
def execStage1Done (pufOk certOk : Bool) (deviceId : Word) (bad : List (Fin 6)) (s : State) : Out :=
  act s fun s =>
    if s.stageRuns 1 = false then s
    else if pufOk = false then s.stageFailed FC_PUF 0
    else
      let s1 := bad.foldl (fun (t : State) k => t.dropRecord k.val) s
      let s2 := s1.setFld F.SEC_STATUS_PUF_OK 0 1
      if certOk = false then s2.stageFailed FC_COCOON 0
      else
        let s3 := if s2.ins.warm then s2 else { s2 with cocoon := { s2.cocoon with cycles := s2.cocoon.cycles + 1 } }
        let s4 := if bad.contains 2 then s3.setFld F.INS_STATUS_FAST_TAKEN 0 0 else s3
        (((s4.setFld F.SEC_STATUS_COCOON_OK 0 1).loadCocoon deviceId).stageDone).beginStage 2 false

/-! ### Stage 2: self-check (R343) -/

/-- STAGE2_DONE (R343): the boot ROM's own checks, and the SRAM rows found failing. -/
def execStage2Done (romOk : Bool) (rows : Nat) (s : State) : Out :=
  act s fun s =>
    if s.stageRuns 2 = false then s
    else if romOk = false then s.stageFailed FC_ROM_SELFTEST 0
    else
      let left := if s.ins.warm then s.cocoon.spareUse.sramRows else 256
      if left < rows then s.stageFailed FC_SRAM 0
      else
        let s1 := { s with spares := { s.spares with use' := { s.spares.use' with sramRows := left - rows } } }
        let s2 := (s1.setFld F.SEC_STATUS_XMSS_READY 0 1).measureBoot 1 Config.romDigest
        let up := (List.range 2).any fun a => s2.antState a == AN_UP
        let s3 := { s2 with ins := { s2.ins with loadOpen := true }, power := { s2.power with alertAnt := !up } }
        s3.stageDone

/-! ### Stage 3: firmware (R290, R336) -/

/-- The image that INS_CTL SOURCE chooses: build where it is known, digest; and whether it is the staged one. -/
def State.chooseImage (s : State) : Option (Nat × BitVec 256 × Bool) :=
  if s.flag F.INS_CTL_SOURCE then
    match s.fw.staged.find? fun x => x.1 == 0 with
    | some x => some (x.2.1, x.2.2, true)
    | none => (s.fw.active.find? fun x => x.1 == 0).map fun x => (x.2.1, x.2.2, false)
  else some (0, Config.shake256 (s.readMem sramBase (s.fld F.INS_IMAGE_BYTES)), false)

/-- GO of stage 3: the load range closes and the image is verified. -/
def State.goFirmware (s : State) : State :=
  let s1 := s.beginStage 3 true
  let s2 := { s1 with ins := { s1.ins with loadOpen := false } }
  match s2.chooseImage with
  | none => s2.stageFailed FC_IMAGE_FORMAT 0
  | some (build, digest, staged) => { s2 with ins := { s2.ins with image := some (build, digest), fromStaged := staged } }

/-- INS_GO_FIRMWARE (R340). -/
def execInsGoFirmware (owner : Owner) (value : Word) (s : State) : Out :=
  accessBy owner.val s fun s => s.goWrite value 3 (s.goOk 3) State.goFirmware

/-- The image starts: it is measured and becomes the active one; a staged steward image becomes active at a WARM reset (R336). -/
def State.startImage (s : State) (build : Nat) (digest : BitVec 256) : State :=
  let s1 := ((s.setFld F.SEC_STATUS_FW_VERIFIED 0 1).setFld F.INS_IMAGE_ACTIVE_BUILD 0 build).measureBoot 2 digest
  let s2 := { s1 with fw := { s1.fw with
    active := (s1.fw.active.filter fun (x : Nat × Nat × BitVec 256) => x.1 != 0) ++ [(0, build, digest)]
    staged := if s.ins.fromStaged then s1.fw.staged.filter fun (x : Nat × Nat × BitVec 256) => x.1 != 0 else s1.fw.staged } }
  let s3 := s2.activate' 2
  let s4 := match s3.fw.active.find? fun (x : Nat × Nat × BitVec 256) => x.1 == 2 with
    | some x => (List.range 4).foldl (fun (t : State) _ => t.measureSteward x.2.2) s3
    | none => s3
  (List.range 4).foldl (fun (t : State) w =>
    (t.setFld F.WST_STATUS_STATE w 1).setFld F.WST_STATUS_BUILD w (t.activeBuild 2)) s4

/-- STAGE3_DONE (R290, R343): 0 the image passes, 1 its header, length or class is wrong, 2 it fails R290. `build` is that of an image
from the load range. -/
def execStage3Done (verdict : Fin 3) (build : BitVec 32) (s : State) : Out :=
  act s fun s =>
    if s.stageRuns 3 = false then s
    else
      match s.ins.image with
      | none => s
      | some (b, digest) =>
        if verdict.val = 1 then s.stageFailed FC_IMAGE_FORMAT 0
        else if verdict.val = 2 then s.stageFailed FC_IMAGE_SIGNATURE 0
        else (s.startImage (if s.flag F.INS_CTL_SOURCE then b else build.toNat) digest).stageDone

/-! ### Stage 4: start test (R344) -/

/-- GO of stage 4: the stewards test their wings. -/
def State.goStartTest (s : State) : State :=
  (List.range 4).foldl (fun (t : State) w => t.setFld F.WST_STATUS_STATE w 2) (s.beginStage 4 true)

/-- INS_GO_START_TEST (R344). -/
def execInsGoStartTest (owner : Owner) (value : Word) (s : State) : Out :=
  accessBy owner.val s fun s => s.goWrite value 4 (s.goOk 4) State.goStartTest

/-- STAGE4_DONE (R344): on DONE the operating hours are the time of the last full test. -/
def execStage4Done (t : StartTest) (s : State) : Out :=
  act s fun s =>
    if s.stageRuns 4 = false then s
    else
      let (s1, ess) := s.startTest t (!s.ins.warm)
      match ess with
      | some unit => s1.stageFailed FC_TEST_ESSENTIAL unit
      | none =>
        let s2 := { s1 with cocoon := { s1.cocoon with lastFull := s1.cocoon.hours } }
        ((s2.setFld F.INS_FAST_LAST_FULL 0 s2.cocoon.hours).setFld F.INS_FAST_CLEAN 0 1).stageDone

/-! ### Stage 5: HBM and pool (R345) -/

/-- The pin rate of a variant in 0.1 Gb/s (Table 0.1). -/
def pinRate (variant : Nat) : Nat := match variant with | 0 => 80 | 1 => 72 | _ => 64

/-- GO of stage 5; on the fast path the spare assignments come from Cocoon here (R349). -/
def State.goHbm (s : State) : State :=
  (if s.flag F.INS_STATUS_FAST_TAKEN then s.loadMaps.showSpares else s).beginStage 5 true

/-- INS_GO_HBM (R345). -/
def execInsGoHbm (owner : Owner) (value : Word) (s : State) : Out :=
  accessBy owner.val s fun s => s.goWrite value 5 (s.goOk 5) State.goHbm

/-- A frame that fails the test is retired into the reserve (R266, R345); `none` where the reserve is empty. -/
def State.retireAt5 (s : State) (f : Nat) : Option State :=
  let k := stackOf f
  let n := Store.get (fun _ => 0) s.pool.reserve k
  if 512 ≤ n then none
  else
    let g := 884736 + k * 512 + n
    let s1 := { s with pool := { s.pool with
      reserve := Store.set (fun _ => 0) s.pool.reserve k (n + 1)
      used := if s.pool.used.contains f then s.pool.used else s.pool.used ++ [f], spare := s.pool.spare ++ [g] } }
    let s2 := (s1.appendDefect 0x07 k 1 (f % 36864)).bump F.INS_TEST_NEW_DEFECTS
    some ((s2.bump F.HBM_RETIRE_RETIRED (wingOfFrame f)).sillage 0x09 0x01 1 [])

/-- Retire each failing frame; the state, and the stack whose reserve is empty. -/
def State.retireAll5 (s : State) : List Nat → State × Option Nat
  | [] => (s, none)
  | f :: t => match s.retireAt5 f with
    | some s1 => s1.retireAll5 t
    | none => (s, some (stackOf f))

/-- Stage 5 ends well: every stack READY, frames as R345 leaves them. -/
def State.poolReady (s : State) : State :=
  let s1 := (List.range 24).foldl (fun (t : State) k =>
    ((t.setFld F.HBM_STACK_STATUS_STATE k 2).setFld F.HBM_STACK_STATUS_PIN_RATE k (pinRate Config.variant.val)).showReserve k) s
  { s1 with power := { s1.power with refresh := false } }

/-- STAGE5_DONE (R345): the stack that fails training, the free frames that fail the test, and whether the bus has stayed within 40 to
60 V (R353). -/
def execStage5Done (busOk : Bool) (stack : Option (Fin 24)) (frames : List (Fin 884736)) (s : State) : Out :=
  act s fun s =>
    if s.stageRuns 5 = false then s
    else
      let held := s.flag F.RST_CAUSE_POOL_HELD && busOk
      let s1 := if held then s else (s.setFld F.RST_CAUSE_POOL_HELD 0 0).poolLost
      match stack with
      | some k => (s1.setFld F.HBM_STACK_STATUS_STATE k.val 4).stageFailed FC_HBM_TRAIN k.val
      | none =>
        let free := frames.filter fun f => !s1.pool.used.contains f.val
        match s1.retireAll5 (free.map (·.val)) with
        | (s2, some k) => (s2.setFld F.HBM_STACK_STATUS_STATE k 4).stageFailed FC_HBM_TRAIN k
        | (s2, none) => s2.poolReady.stageDone

/-! ### Stage 6: ports (R346) -/

/-- A port takes the mode of its map entry. On the fast path it may enter UP as after a loss of link (R49, R349). -/
def State.setMode6 (s : State) (p mode : Nat) : State :=
  let fast := s.flag F.INS_STATUS_FAST_TAKEN
  let s1 := (s.setFld F.PRT_CTL_MODE p mode).setPort p { PortSt.init with
    lastQual := if fast then (s.port p).lastQual else none, retrain := fast }
  s1.setLinkState p (if mode = PM_DISABLED then PS_DISABLED else PS_DOWN)

/-- Ports not Disabled in the map. -/
def State.expectedPorts (s : State) : List Nat := (List.range 128).filter fun p => s.linkMode p != PM_DISABLED

/-- GO of stage 6. -/
def State.goPorts (s : State) : State :=
  let s1 := s.beginStage 6 true
  match s1.map.bind fun m => mapChip m s1.chip with
  | none => s1.stageFailed FC_NO_MAP 0
  | some c =>
    let s2 := (List.range 128).foldl (fun (t : State) p => t.setMode6 p (((c.ports[p]?).map (·.mode.val)).getD 0)) s1
    s2.setFld F.INS_PORTS_EXPECTED 0 s2.expectedPorts.length

/-- INS_GO_PORTS (R346). -/
def execInsGoPorts (owner : Owner) (value : Word) (s : State) : Out :=
  accessBy owner.val s fun s => s.goWrite value 6 (s.goOk 6) State.goPorts

/-- The limit of stage 6: the largest QUAL_TIME and 2 s. -/
def State.limit6 (s : State) : Nat :=
  ((List.range 128).map fun p => s.fld F.PRT_CTL_QUAL_TIME p).foldl max 0 * usFtu 100000 + usFtu 2000000

/-- A port has an outcome (R346). -/
def hasOutcome (st : Nat) : Bool := st == PS_UP || st == PS_QUAL_FAIL || st == PS_QUARANTINE || st == PS_STRANGER

/-- INS_PORTS at the end of stage 6. -/
def State.countPorts (s : State) : State :=
  let ps := s.expectedPorts
  let n := fun (p : Nat → Bool) => (ps.filter p).length
  let is' := fun (st : Nat) => n fun p => s.linkState p == st
  let s1 := (s.setFld F.INS_PORTS_UP 0 (is' PS_UP)).setFld F.INS_PORTS_QUAL_FAIL 0 (is' PS_QUAL_FAIL)
  let s2 := s1.setFld F.INS_PORTS_HELD 0 (is' PS_QUARANTINE + is' PS_STRANGER)
  (s2.setFld F.INS_PORTS_DOWN 0 (is' PS_DOWN)).setFld F.INS_PORTS_NARROW 0
    (n fun p => s.linkState p == PS_UP && s.linkWidth p == 6)

/-- STAGE6_END (R346): every expected port has an outcome, or the limit is reached. -/
def execStage6End (s : State) : Out :=
  act s fun s =>
    if s.stageRuns 6 ∧ (s.expectedPorts.all (fun p => hasOutcome (s.linkState p)) ∨ s.limit6 ≤ s.since s.ins.stageAt) then
      s.countPorts.stageDone
    else s

/-! ### Stage 7: role and time (R347) -/

/-- GO of stage 7: the role step opens, unless an earlier run of the stage has settled the role. -/
def State.goRole (s : State) : State :=
  let settled := s.insStage == 7 && s.ins.timeOpen
  let s1 := s.beginStage 7 true
  { s1 with ins := { s1.ins with roleOpen := !settled, timeOpen := false } }

/-- GO of stage 7 with TIME (R124): agents and a standby acquire time; a manager chip starts its firmware. -/
def State.goTime (s : State) : State :=
  let s1 := { s with ins := { s.ins with roleOpen := false, timeOpen := true } }
  let s2 := if s1.fld F.FT_STATUS_STATE = TS_FREE then s1.setFld F.FT_STATUS_STATE 0 TS_ACQUIRE else s1
  if s2.isManagerChip ∧ s2.mgrState = 0 then s2.startManager else s2

/-- A write of INS_CTL that names stage 7 without TIME. -/
def State.writeRole (s : State) (v : Word) : State × Nat × Word := s.goWrite v 7 (s.goOk 7 && getBits v 7 1 == 0) State.goRole

/-- A write of INS_CTL that names stage 7 with TIME. -/
def State.writeTime (s : State) (v : Word) : State × Nat × Word :=
  s.goWrite v 7 (s.stageRuns 7 && !s.ins.timeOpen && getBits v 7 1 == 1) State.goTime

/-- INS_GO_ROLE (R347). -/
def execInsGoRole (owner : Owner) (value : Word) (s : State) : Out := accessBy owner.val s fun s => s.writeRole value

/-- INS_GO_TIME (R347). -/
def execInsGoTime (owner : Owner) (value : Word) (s : State) : Out := accessBy owner.val s fun s => s.writeTime value

/-- A write of INS_CTL, whatever stage it names (R340). -/
def State.writeInsCtl (s : State) (v : Word) : State × Nat × Word :=
  match getBits v 1 3 with
  | 3 => s.goWrite v 3 (s.goOk 3) State.goFirmware
  | 4 => s.goWrite v 4 (s.goOk 4) State.goStartTest
  | 5 => s.goWrite v 5 (s.goOk 5) State.goHbm
  | 6 => s.goWrite v 6 (s.goOk 6) State.goPorts
  | 7 => if getBits v 7 1 = 1 then s.writeTime v else s.writeRole v
  | _ => s.goWrite v 0 false id

/-- Time is held: LOCKED or ROOT. -/
def State.hasTime (s : State) : Bool := s.fld F.FT_STATUS_STATE == TS_LOCKED || s.fld F.FT_STATUS_STATE == TS_ROOT

/-- STAGE7_DONE (R347). -/
def execStage7Done (s : State) : Out :=
  act s fun s =>
    if s.stageRuns 7 ∧ s.ins.timeOpen ∧ s.hasTime ∧ s.time.based then s.stageDone.beginStage 8 true else s

/-! ### Stage 8: Imago (R348) -/

/-- The code of the first check of R348 that fails. -/
def State.imagoFail (s : State) (advancing : Bool) : Option Nat :=
  if s.flag F.SEC_STATUS_PUF_OK = false then some FC_PUF
  else if s.flag F.SEC_STATUS_COCOON_OK = false then some FC_COCOON
  else if s.flag F.SEC_STATUS_FW_VERIFIED = false then some FC_IMAGE_SIGNATURE
  else if s.flag F.SEC_STATUS_XMSS_READY = false then some FC_ROM_SELFTEST
  else if s.flag F.MGR_MAP_VALID = false then some FC_NO_MAP
  else if s.hasTime = false ∨ advancing = false then some FC_NO_TIME
  else none

/-- The part reaches Imago: frames become grantable, the overflow region is taken unless it was held, and the Monarch hears of the chip
and of what is ABSENT (R345, R348, R377, R382). -/
def State.imago (s : State) : State :=
  let s1 := s.setFld F.INS_STATUS_IMAGO 0 1
  let s2 := if s1.pool.overflow = [] then
      (match s1.moveRegion (s1.fld F.SIL_CFG_FRAMES) with | some t => t | none => s1.setFld F.SIL_CFG_FRAMES 0 0)
    else s1
  s2.showPool.stageDone.sendStatus.absentFaults

/-- IMAGO_CHECK (R348): `advancing` says that FT_WB_NUM advances. -/
def execImagoCheck (advancing : Bool) (s : State) : Out :=
  act s fun s =>
    if s.stageRuns 8 = false then s
    else
      match s.imagoFail advancing with
      | some code => s.stageFailed code 0
      | none => s.imago

/-! ### Limits (Table 17.1) -/

/-- The limit of a stage in ms; stage 6 does not fail by it. -/
def stageLimit (n : Nat) : Option Nat :=
  match n with
  | 1 => some 2000 | 2 => some 5000 | 3 => some 5000 | 4 => some 120000 | 5 => some 60000 | 7 => some 30000 | 8 => some 100
  | _ => none

/-- INSTAR_STAGE_TIMEOUT (R340); stage 7 fails with NO_TIME (R347). -/
def execInstarStageTimeout (s : State) : Out :=
  act s fun s =>
    match stageLimit s.insStage with
    | some ms =>
      if s.insState = IS_RUNNING ∧ usFtu (ms * 1000) ≤ s.since s.ins.stageAt then
        let s1 := { s with ins := { s.ins with roleOpen := false } }
        s1.stageFailed (if s.insStage = 7 then FC_NO_TIME else FC_TIMEOUT) 0
      else s
    | none => s

end Sys2Proof.Machine
end

