-- ==== Sys2Proof/Machine/Chrysalis.lean ====
section
/-! DEFINITION. Sys2Proof/Machine/Chrysalis.lean: freeze triggers, the freeze, and the read-out of the dump (R387 to R394).
(log entries of this file: DEDUCED 105, 106, 107) -/

namespace Sys2Proof.Machine

/-! ### Triggers and the freeze (R387, R388) -/

/-- CHR_STATUS STATE. -/
def CS_FROZEN : Nat := 1
def CS_READOUT : Nat := 2
def CS_DONE : Nat := 3

/-- A freeze can begin: also in a WARM reset, not in POR, SLEEP or DEEP (Tables 20.5 and 21.6). -/
def State.freezable (s : State) : Bool :=
  s.power.aonOn && !s.power.frozen && !s.power.porHeld && !s.power.rstLow && !s.asleep

/-- FREEZE_PIN (R387): FREEZE_N low for 100 ns, armed or not. -/
def execFreezePin (s : State) : Out := .next (if s.freezable then s.chrTrigger 0 else s)

/-- CHR_FREEZE (R387): no result word. -/
def execChrFreeze (_r : FwRef) (s : State) : Out := act s fun s => s.chrTrigger 1

/-- CHR_ARM (R387): DELAY is 0 to 16,000,000 FTU; the register shows it in units of 1,024 FTU, rounded up. -/
def execChrArm (r : FwRef) (flags cmpMask source code severity : Fin 256) (delay : BitVec 32) (s : State) : Out :=
  act s fun s =>
    if 3 < flags.val ∨ 16000000 < delay.toNat then s.finishFw r ACK_BAD_ARGUMENT 0
    else
      let v := (delay.toNat + 1023) / 1024 * 2 ^ 40 + cmpMask.val * 2 ^ 32 + source.val * 2 ^ 24 + code.val * 2 ^ 16
        + severity.val * 2 ^ 8 + flags.val
      let s1 := s.setReg .CHR_ARM 0 (BitVec.ofNat 64 v)
      ({ s1 with chr := { s1.chr with delay := delay.toNat } }).finishFw r ACK_OK 0

/-- The slices sealed on this chip. -/
def State.sealedSlices (s : State) : List Nat := (s.sec.slices.map (·.num)).filter s.isSealed

/-- The freeze (R388): FREEZE_FTU, the FREEZE record, and FROZEN sets on every fabric port and the Twin port. -/
def State.freezeNow (s : State) : State :=
  let s1 := (s.setReg .CHR_FREEZE_FTU 0 s.ftu).setFld F.CHR_STATUS_STATE 0 CS_FROZEN
  let s2 := s1.sillage 0x10 0x10 2 [s1.fld F.CHR_STATUS_CAUSE]
  let s3 := { s2 with
    power := { s2.power with frozen := true }
    chr := { s2.chr with trigAt := none, isSealed := s.sealedSlices, sent := [], todo := [], whole := false } }
  s3.emits (((List.finRange 129).filter fun l => s.trained l.val).map OutMsg.frozen)

/-- FREEZE_DELAY_END (R387, R388): DELAY after the first trigger. -/
def execFreezeDelayEnd (s : State) : Out :=
  .next (
    match s.chr.trigAt with
    | some t => if s.freezable ∧ s.chr.delay ≤ s.since t then s.freezeNow else s
    | none => s)

/-! ### The dump (R390 to R392) -/

/-- Bytes filled with zeros to a multiple of 64. -/
def pad64 (bs : List Byte) : List Byte := bs ++ List.replicate ((64 - bs.length % 64) % 64) 0

/-- A section header (R390). -/
def secHeader (num kind flags die unit index slice len offset : Nat) : List Byte :=
  leBytes 2 num ++ leBytes 1 kind ++ leBytes 1 flags ++ leBytes 1 die ++ leBytes 1 unit ++ leBytes 2 index ++ leBytes 2 slice
  ++ [0, 0] ++ leBytes 4 len ++ leBytes 8 offset ++ leBytes 8 0

/-- Blocks of a wing whose scan sections hold packet or operand data: ports, crossbar, Accord, Hawk cores (R392). -/
def redactUnit (unit : Nat) : Bool := unit == 0x00 || unit == 0x01 || unit == 0x04 || unit == 0x05 || unit == 0x06

/-- The dump key of a sealed slice (R295, R388). -/
def State.dumpKey (s : State) (slice : Nat) : List Byte :=
  match s.secSlice slice with
  | some x => kdf x.srk "DUMP" []
  | none => []

/-- The data of a section as read: Thorax SRAM is the model's own. -/
def State.secData (s : State) (x : DumpSec) : List Byte :=
  if x.kind = 2 ∧ x.die = 0 then s.readMem (sramBase + x.offset) x.data.length else x.data

/-- A section as stream bytes (R390, R392); `hung` says that it ended by R391. -/
def State.secBytes (s : State) (num : Nat) (x : DumpSec) (hung : Bool) : List Byte :=
  let enc : Bool := x.kind == 2 && s.chr.isSealed.contains x.slice
  let red : Bool := x.kind == 1 && x.die != 0 && redactUnit x.unit && !s.chr.isSealed.isEmpty
  let flags := bit enc + 2 * bit hung + 4 * bit red
  let data := s.secData x
  let len := if enc then (data.length + 16 + 63) / 64 * 64 else (pad64 data).length
  let h := secHeader num x.kind flags x.die x.unit x.index (if enc then x.slice else 0) len x.offset
  let iv := leBytes 4 num ++ leBytes 8 (s.reg .CHR_FREEZE_FTU).toNat
  h ++ if enc then fitBytes len (Config.gcmSeal (s.dumpKey x.slice) iv h data) else pad64 data

/-- The engine reads a section. -/
def State.addSec (s : State) (x : DumpSec) (hung : Bool) : State :=
  let n := s.fld F.CHR_STATUS_SECTION + 1
  let s1 := s.setFld F.CHR_STATUS_SECTION 0 n
  { s1 with chr := { s1.chr with todo := s1.chr.todo ++ s.secBytes n x hung } }

/-- The trailer (R390): the digest of every stream byte before it. -/
def State.addTrailer (s : State) : State :=
  let n := s.fld F.CHR_STATUS_SECTION + 1
  let d := Config.shake256 (s.chr.sent ++ s.chr.todo)
  let s1 := s.setFld F.CHR_STATUS_SECTION 0 n
  { s1 with chr := { s1.chr with
    whole := true
    todo := s1.chr.todo ++ secHeader n 3 0 0 0 0 0 64 0 ++ leBytes 32 d.toNat ++ List.replicate 32 0 } }

/-- The data of the header section (R390). -/
def State.dumpHeader (s : State) : List Byte :=
  pad64 (leBytes 4 0x59485243 ++ [1] ++ leBytes 1 (s.fld F.CHR_STATUS_CAUSE) ++ leBytes 2 s.chip
    ++ leBytes 8 (s.reg .SEC_DEVICE_ID).toNat ++ leBytes 8 (s.reg .CHR_FREEZE_FTU).toNat
    ++ leBytes 4 s.cocoon.hours ++ leBytes 4 s.cocoon.cycles ++ leBytes 2 s.chr.isSealed.length)

/-- The staging area of Thorax SRAM and one half of it. -/
def stagingAt : Nat := 0x3800000
def halfBytes : Nat := 0x200000

/-- Read-out begins (R390): the header section, and the staging area as it stands. The unit of an SRAM section is a free value:
Thorax SRAM lies in no block. -/
def State.startDump (s : State) : State :=
  let (u, s1) := s.fresh
  let s2 := (s1.setFld F.CHR_STATUS_STATE 0 CS_READOUT).setFld F.CHR_STATUS_SECTION 0 0
  let s3 := { s2 with chr := { s2.chr with todo := secHeader 0 0 0 0 0 0 0 64 0 ++ s.dumpHeader } }
  s3.addSec ⟨2, 0, u % 256, 0, 0, stagingAt, List.replicate (2 * halfBytes) 0⟩ false

/-- LEN0 or LEN1 of CHR_HALF. -/
def halfLen (half : Nat) : Fld := if half = 0 then F.CHR_HALF_LEN0 else F.CHR_HALF_LEN1

/-- A half is filled and its length published; with the last stream byte the engine is DONE. -/
def State.fillHalf (s : State) (half : Nat) : State :=
  let piece := s.chr.todo.take halfBytes
  if piece = [] ∨ (piece.length < halfBytes ∧ s.chr.whole = false) then s
  else
    let s1 := s.writeMem (sramBase + stagingAt + half * halfBytes) piece
    let rest := s.chr.todo.drop halfBytes
    let s2 := { s1 with chr := { s1.chr with sent := s1.chr.sent ++ piece, todo := rest } }
    let s3 := s2.setFld (halfLen half) 0 piece.length
    if s3.chr.whole ∧ rest = [] then s3.setFld F.CHR_STATUS_STATE 0 CS_DONE else s3

/-- READOUT_HALF_READY (R390): the sections read since the last one, in the order of Table 20.4, and whether they were the last. -/
def execReadoutHalfReady (half : Fin 2) (secs : List DumpSec) (last : Bool) (s : State) : Out :=
  .next (
    if s.power.frozen ∧ s.fld F.CHR_STATUS_STATE = CS_READOUT ∧ s.fld (halfLen half.val) = 0 then
      let s1 := if s.chr.whole then s else secs.foldl (fun (t : State) (x : DumpSec) => t.addSec x false) s
      (if last ∧ s1.chr.whole = false then s1.addTrailer else s1).fillHalf half.val
    else s)

/-- READOUT_HANG (R391): a memory section ends with the bytes read. -/
def execReadoutHang (sec : DumpSec) (s : State) : Out :=
  .next (
    if s.power.frozen ∧ s.fld F.CHR_STATUS_STATE = CS_READOUT ∧ s.chr.whole = false ∧ sec.kind = 2 then
      ((s.addSec sec true).bump F.CHR_STATUS_HUNG_COUNT).sillage 0x10 0x11 2 [sec.die, sec.unit, sec.index]
    else s)

/-! ### CHR_CTL (R389, R393) -/

/-- A write of CHR_CTL, which alone is served during a freeze. In SLEEP and DEEP it finds nothing. -/
def State.chrWrite (s : State) (f : State → State × Nat) : State × Nat := if s.asleep then (s, ST_OK) else f s

/-- START: only while FROZEN. -/
def State.chrStart (s : State) : State × Nat :=
  s.chrWrite fun s => if s.fld F.CHR_STATUS_STATE = CS_FROZEN then (s.startDump, ST_OK) else (s, ST_REFUSED_STATE)

/-- NEXT: the half named is free for the engine again. -/
def State.chrNext (s : State) (half : Nat) : State × Nat := s.chrWrite fun s => (s.setFld (halfLen half) 0 0, ST_OK)

/-- RELEASE: the freeze ends by a WARM reset; without a freeze there is nothing to end. -/
def State.chrRelease (s : State) : State × Nat :=
  s.chrWrite fun s => (if s.power.frozen then s.warmNow 3 else s, ST_OK)

/-- An access to CHR_CTL by its owner. -/
def chrAccess (owner : Nat) (s : State) (f : State → State × Nat) : Out :=
  if s.reaches owner = false then .next s
  else
    let (t, st) := f s
    .next (t.emit (.access owner st 0))

/-- CHR_START (R393). -/
def execChrStart (owner : Owner) (s : State) : Out := chrAccess owner.val s State.chrStart

/-- CHR_NEXT (R393). -/
def execChrNext (owner : Owner) (half : Fin 2) (s : State) : Out := chrAccess owner.val s fun s => s.chrNext half.val

/-- CHR_RELEASE (R389). -/
def execChrRelease (owner : Owner) (s : State) : Out := chrAccess owner.val s State.chrRelease

end Sys2Proof.Machine
end

