-- ==== Sys2Proof/Machine/Register.lean ====
section
/-! DEFINITION. Sys2Proof/Machine/Register.lean: where each register lies (Tables 22.5 to 22.7), what a read of it shows, and what a
write does beyond its access type (R8 to R10, R306, R407 to R410).
(log entries of this file: DEDUCED 92, 109, 111, 112, 113, 114; DESIGN CHOICE 110, 119) -/

namespace Sys2Proof.Machine

/-! ### Addresses -/

/-- The register at byte offset `o` of a list of registers that follow one another. -/
def regAt (rs : List RegName) (o i : Nat) : Option (RegName × Nat) :=
  if o % 8 = 0 then (rs[o / 8]?).map fun r => (r, i) else none

/-- Registers in groups of `step` bytes, `n` groups. -/
def regGroup (rs : List RegName) (step n o : Nat) (ix : Nat → Nat) : Option (RegName × Nat) :=
  if o / step < n then regAt rs (o % step) (ix (o / step)) else none

/-- The Thorax register at an offset of its window (Table 22.6). Banked and selected registers get index 0 here. -/
def thoraxReg (off : Nat) : Option (RegName × Nat) :=
  let o := off % 0x100000
  match off / 0x100000 with
  | 0x0 => regAt [.INS_CTL, .INS_STATUS, .INS_IMAGE, .INS_FT_SEED, .INS_TEST, .INS_PORTS, .INS_LIFE, .INS_FAST] o 0
  | 0x1 => regAt [.CTL_SEM, .CTL_EPOCHS] o 0
  | 0x2 =>
    if o < 0x80000 then regGroup [.MBX_DATA, .MBX_STATUS, .MBX_ACK, .MBX_LOCK] 0x20 64 o id
    else match o - 0x80000 with
      | 0x00 => some (.DB_IN, 0) | 0x08 => some (.DB_IN_MASK, 0)
      | 0x10 => some (.DB_OUT, 1) | 0x18 => some (.DB_OUT_MASK, 1)
      | 0x20 => some (.DB_OUT, 2) | 0x28 => some (.DB_OUT_MASK, 2)
      | 0x30 => some (.DB_OUT, 4) | 0x38 => some (.DB_OUT_MASK, 4)
      | _ => none
  | 0x3 => if o < 0x20 then regAt [.SIL_STATUS, .SIL_CFG, .SIL_COUNTS, .SIL_CURSOR] o 0
    else if o < 0x60 ∧ o % 8 = 0 then some (.SIL_WINDOW, (o - 0x20) / 8) else none
  | 0x4 => regAt [.CHR_CTL, .CHR_STATUS, .CHR_FREEZE_FTU, .CHR_ARM, .CHR_HALF] o 0
  | 0x5 => regAt [.FT_COUNT, .FT_STATUS, .FT_WB_CTL, .FT_WB_BASE_FTU, .FT_WB_BASE_NUM, .FT_WB_NUM, .FT_PPS_CTL, .FT_PPS_CAPTURE,
      .FT_OVERRUN, .FT_COAST] o 0
  | 0x6 => regAt [.SEC_STATUS, .SEC_DEVICE_ID, .SEC_XMSS_INDEX, .SEC_XMSS_RESERVED, .SEC_SEL, .SEC_MEASURE, .SEC_SLICE_STATUS,
      .SEC_SEAL_EVENTS] o 0
  | 0x7 => regAt [.RST_CAUSE, .RST_COUNTS, .RST_ESC_LIMITS, .RST_ESC_COUNT, .PWR_STATUS, .PWR_MEASURE] o 0
  | 0x8 => if o = 0x80 then some (.AON_CMP_EVENTS, 0) else regGroup [.AON_CMP_CTL, .AON_CMP_VALUE] 0x10 8 o id
  | 0x9 => regAt [.TWN_STATUS, .TWN_HEARTBEAT, .TWN_SYNC, .TWN_REVERT, .TWN_AGENT, .TWN_EVENTS, .TWN_PORT_STATUS] o 0
  | 0xA => regGroup [.ANT_CTL, .ANT_STATUS, .ANT_COUNTS] 0x100 2 o id
  | 0xB => regGroup [.ATS_CH_LOCK, .ATS_CH_DESC, .ATS_CH_CTL, .ATS_CH_STATUS, .ATS_CQ_BASE, .ATS_CQ_INDEX] 0x40 16 o id
  | 0xC => regAt [.MGR_ROLE, .MGR_MAP, .MGR_ROUTE, .MGR_PLAN, .MGR_NBR, .MGR_FAILURES] o 0
  | 0xD => regAt [.SPR_STATUS, .SPR_MAP_SEL, .SPR_MAP, .SPR_FREE, .SPR_EVENTS] o 0
  | _ => none

/-- The register of wing `w` at an offset of its window (Table 22.7). Tables that every wing reaches have index 0. -/
def wingReg (w off : Nat) : Option (RegName × Nat) :=
  let o := off % 0x100000
  match off / 0x100000 with
  | 0x0 | 0x1 => regGroup [.PRT_CTL, .PRT_STATUS, .PRT_PEER_ID, .PRT_PEER_SERIAL, .PRT_PEER_DEVICE, .PRT_QUAL_RESULT, .PRT_FEC_COUNT,
      .PRT_EVENTS] 0x10000 32 off fun p => w * 32 + p
  | 0x4 => regAt [.XBR_WAITS, .XBR_HDR_ERR, .XBR_INFLIGHT] o w
  | 0x5 => if o < 0x18 then regAt [.ACD_SLOTS, .ACD_EVENTS, .ACD_CHECK] o w
    else regAt [.ACD_SLICE_SEL, .ACD_SLOWEST, .ACD_LATE_HIST] (o - 0x18) 0
  | 0x6 => regGroup [.HWK_CORE_STATUS, .HWK_CORE_COUNTS] 0x1000 104 o fun c => w * 104 + c
  | 0x7 => if o < 0x10 then regAt [.HWK_WING_STATUS, .HWK_REPORTS] o w
    else regAt [.HWK_BQ_SEL, .HWK_BQ_STATUS, .HWK_BQ_START, .HWK_LOAD_RESULT, .HWK_LOAD_AMOUNT] (o - 0x10) 0
  | 0x8 => regAt [.HBM_STACK_SEL, .HBM_STACK_STATUS, .HBM_ECC, .HBM_RETIRE, .HBM_POOL, .HBM_ACCESS_ERR] o w
  | 0x9 => regAt [.ATL_CH_SEL, .ATL_CH_STATUS, .ATL_EVENTS] o w
  | 0xA => if o < 0x40000 then
      regGroup [.QUE_CFG, .QUE_RING_BASE, .QUE_CQ_BASE, .QUE_INDEX, .QUE_CQ_INDEX, .QUE_DOORBELL] 0x40 4096 o fun q => w * 4096 + q
    else if o = 0x40010 then some (.QUE_DROPS, w)
    else regAt [.QUE_CTX_SEL, .QUE_CTX_STATUS] (o - 0x40000) 0
  | 0xC => regAt [.EDG_CTL, .EDG_SWAP_AT, .EDG_DROPS, .EDG_E2E] o w
  | 0xD => regAt [.SKP_GROUP_SEL, .SKP_GROUP_STATUS, .SKP_EVENTS] o w
  | 0xE => regAt [.WST_STATUS, .WST_TEST] o w
  | _ => none

/-! ### Selection and banks (R384, R410) -/

/-- The index behind a register reached at index `i` by an owner: selected and banked registers. -/
def State.shownIx (s : State) (owner : Nat) (r : RegName) (i : Nat) : Nat :=
  match r with
  | .QUE_CTX_STATUS => s.fld F.QUE_CTX_SEL_CONTEXT
  | .ACD_SLOWEST | .ACD_LATE_HIST => s.fld F.ACD_SLICE_SEL_SLICE
  | .SKP_GROUP_STATUS => s.fld F.SKP_GROUP_SEL_GROUP i
  | .HWK_BQ_STATUS | .HWK_BQ_START => s.fld F.HWK_BQ_SEL_INDEX
  | .HBM_STACK_STATUS | .HBM_ECC => i * 6 + s.fld F.HBM_STACK_SEL_STACK i
  | .ATL_CH_STATUS => chanIx i (s.fld F.ATL_CH_SEL_CHANNEL i)
  | .SEC_SLICE_STATUS => s.fld F.SEC_SEL_SLICE
  | .SPR_MAP => mapIx (s.fld F.SPR_MAP_SEL_KIND) (s.fld F.SPR_MAP_SEL_WING) (s.fld F.SPR_MAP_SEL_LOGICAL)
  | .SPR_FREE => s.fld F.SPR_MAP_SEL_WING
  | .SIL_CURSOR => owner
  | .SIL_WINDOW => owner * 8 + i
  | _ => i

/-- What is selected at index `i` does not exist: a reserved stack number, or no such logical unit. A read shows a free value, and a
write finds nothing. -/
def State.selectsNone (s : State) (r : RegName) (i : Nat) : Bool :=
  match r with
  | .HBM_STACK_STATUS | .HBM_ECC => decide (6 ≤ s.fld F.HBM_STACK_SEL_STACK i)
  | .SPR_MAP => decide (logicalUnits (s.fld F.SPR_MAP_SEL_KIND) ≤ s.fld F.SPR_MAP_SEL_LOGICAL)
  | _ => false

/-! ### What reads show -/

/-- The queue's command at HEAD waits on a counter or its LAP. -/
def State.queWaits (s : State) (q : Nat) : Bool :=
  let sl := s.headSlot q
  s.fld F.QUE_CFG_STATE q == 1 && decide (serialDiff (s.head q) (s.tail q) < 0)
  && (slotLap sl != s.headLap q || (List.range (slotWaits sl)).any fun i => !s.waitMet (s.queueCtx q) (slotWait sl i))

/-- Condition 6 of R147 fails. -/
def State.cqFull (s : State) (q : Nat) : Bool :=
  s.fld F.QUE_CFG_STATE q != 0
  && decide ((2 ^ s.cqLog q : Int) < serialDiff (s.cqTail q + (s.runsOf q).length + 1) (s.cqHead q))

/-- Writes of an Atomizer-L channel not yet landed. -/
def State.chanOutstanding (s : State) (ch : Nat) : Nat :=
  let hit := fun (t : Option Tag) => match t.bind (·.chan) with | some (c, n) => c == ch && n != readSerial | none => false
  (s.net.copies.filter fun c => hit c.cmd).length + (s.net.backlog.filter fun b => hit b.cmd).length

/-- Host writes of an Atomizer-S channel not yet answered. -/
def State.chanSOutstanding (s : State) (n : Nat) : Nat :=
  ((List.range 2).map fun a => ((s.ant a).hosts.filter fun h => h.chan == n && h.kind == 2).length).sum

/-- The selected chain of measurements (R291). -/
def State.chainShown (s : State) : BitVec 256 :=
  match s.fld F.SEC_SEL_CHAIN with
  | 0 => s.sec.boot
  | 1 => s.sec.kernel
  | 2 => s.sec.steward
  | _ => s.sliceChain (s.fld F.SEC_SEL_SLICE)

/-- The slice of a queue that exists is sealed. -/
def State.queSealed (s : State) (q : Nat) : Bool := s.fld F.QUE_CFG_STATE q != 0 && s.isSealed (s.ctxSlice (s.queueCtx q))

/-- RESPONSE frames of a port that wait to be sent: the requests outstanding (R313). -/
def State.antOutstanding (s : State) (a : Nat) : Nat := ((s.ant a).waiting.filter fun x => x.frame.typ.val == 0x04).length

/-- TAKEBACK_PENDING: TAKEBACK is sent and t not yet reached (Table 6.6). -/
def State.takebackPending (s : State) : Bool :=
  s.mgrState == MS_SHADOW && match s.twin.takeback with | some (t, _) => !s.reached t | none => false

/-- The value a register shows, by its index behind selection: fields the part derives, and zeros for sealed slices (Table 14.9) and on
chips without the role. -/
def State.shownWord (s : State) (r : RegName) (k : Nat) : Word :=
  let v := s.reg r k
  match r with
  | .QUE_CFG => putBits (putBits v 0 1 (bit (s.queWaits k))) 1 1 (bit (s.cqFull k))
  | .QUE_RING_BASE | .QUE_CQ_BASE | .QUE_INDEX | .QUE_CQ_INDEX => if s.queSealed k then 0 else v
  | .QUE_CTX_STATUS => putBits v 56 8 (min 255 (s.escOf k))
  | .ACD_SLOWEST | .ACD_LATE_HIST => if s.isSealed k then 0 else v
  | .ATL_CH_STATUS =>
    if s.fld F.ATL_CH_STATUS_STATE k != 0 && s.isSealed (s.ctxSlice (s.fld F.ATL_CH_STATUS_CONTEXT k)) then
      putBits (putBits v 40 24 0) 4 16 0
    else putBits v 4 16 (min 65535 (s.chanOutstanding k))
  | .ATS_CH_STATUS => putBits v 8 16 (min 65535 (s.chanSOutstanding k))
  | .SEC_MEASURE => BitVec.ofNat 64 (s.chainShown.toNat / 2 ^ (64 * s.fld F.SEC_SEL_WORD))
  | .RST_ESC_COUNT => BitVec.ofNat 64 (min 255 s.escCompute * 2 ^ 16 + min 65535 s.escContext)
  | .INS_STATUS => if s.insState = IS_RUNNING then putBits v 32 32 s.elapsedMs else v
  | .INS_FAST => putBits v 2 1 (bit s.eligible)
  | .ANT_STATUS =>
    let q := s.ant k
    putBits (putBits (putBits v 32 9 q.events.length) 24 8 (min 255 q.hosts.length)) 16 8 (min 64 (s.antOutstanding k))
  | .MBX_STATUS =>
    let sender := s.fld F.MBX_STATUS_SENDER k
    putBits v 47 1 (bit (sender != 0 && s.fld F.MBX_STATUS_POST_EPOCH k != s.fld (ownerEpoch sender)))
  | .TWN_REVERT => if s.isManagerChip then putBits v 17 1 (bit s.takebackPending) else 0
  | .TWN_STATUS | .TWN_HEARTBEAT | .TWN_SYNC | .TWN_PORT_STATUS => if s.isManagerChip then v else 0
  | .TWN_EVENTS => if s.isManagerChip then v else BitVec.ofNat 64 (s.fld F.TWN_EVENTS_STALE_DROPS)
  | .MGR_ROUTE | .MGR_PLAN | .MGR_NBR => if s.isActive then v else 0
  | _ => v

/-- A read of a register by an owner (R9): RC registers claim, and SIL_WINDOW7 may latch the next record. -/
def State.readReg (s : State) (owner : Nat) (r : RegName) (i : Nat) : State × Nat × Word :=
  match r with
  | .CTL_SEM => s.claim F.CTL_SEM_OWNER 0 owner
  | .MBX_LOCK => s.claim F.MBX_LOCK_OWNER i owner
  | .ATS_CH_LOCK => s.claim F.ATS_CH_LOCK_OWNER i owner
  | .SIL_WINDOW => if i = 7 then s.readWindow7 owner else (s, ST_OK, s.shownWord r (owner * 8 + i))
  | _ =>
    if s.selectsNone r i then
      let (v, s1) := s.fresh
      (s1, ST_OK, BitVec.ofNat 64 v)
    else (s, ST_OK, s.shownWord r (s.shownIx owner r i))

/-! ### What writes do -/

/-- A write to one field, by its access type (R9). -/
def State.writeField (s : State) (i : Nat) (v : Word) (f : Fld) : State :=
  let x := getBits v f.lo f.width
  match f.acc with
  | .rw => s.setFld f i x
  | .w1cBit => s.setFld f i (s.fld f i - (s.fld f i &&& x))
  | .w1cField => if x = 0 then s else s.setFld f i 0
  | .w1s => s.setFld f i (s.fld f i ||| x)
  | .ro | .wo | .rc => s

/-- A write to a register by the access types of its fields. -/
def State.writeFields (s : State) (r : RegName) (i : Nat) (v : Word) : State :=
  r.fields.foldl (fun (t : State) (f : Fld) => t.writeField i v f) s

/-- A write of AON_CMP_VALUE: a value outside its range is refused; comparators 0 to 3 may fire again (Table 18.6). -/
def State.writeCmpValue (s : State) (n : Nat) (v : Word) : State × Nat × Word :=
  let x := v.toNat
  let ok := if n < 4 then true
    else if n = 4 then decide (1280 ≤ x) && decide (x ≤ 1648)
    else if n = 5 then decide (38000 ≤ x) && decide (x ≤ 46000)
    else x == 0
  if ok = false then (s, ST_REFUSED_FORMAT, 0)
  else
    let s1 := s.setReg .AON_CMP_VALUE n v
    let on := s1.fld F.AON_CMP_EVENTS_ACTIVE
    (if n < 4 then s1.setFld F.AON_CMP_EVENTS_ACTIVE 0 (on - (on &&& 2 ^ n)) else s1, ST_OK, 0)

/-- A write of AON_CMP_CTL: FWD_ONLY is reserved but for comparators 4 and 5, and DIR 1 for 0 to 3. -/
def State.writeCmpCtl (s : State) (n : Nat) (v : Word) : State :=
  let s1 := s.writeFields .AON_CMP_CTL n v
  let s2 := if n = 4 ∨ n = 5 then s1 else s1.setFld F.AON_CMP_CTL_FWD_ONLY n 0
  if n < 4 then s2.setFld F.AON_CMP_CTL_DIR n 0 else s2

/-- A write of CHR_CTL: RELEASE, START and NEXT, by the bits set. -/
def State.writeChrCtl (s : State) (v : Word) : State × Nat × Word :=
  if getBits v 2 1 = 1 then (s.chrRelease.1, ST_OK, 0)
  else
    let (s1, st) := if getBits v 0 1 = 1 then s.chrStart else (s, ST_OK)
    let s2 := if getBits v 1 1 = 1 then (s1.chrNext (getBits v 3 1)).1 else s1
    (s2, st, 0)

/-- A write of ATS_CH_CTL: GO, STOP and FENCE, in this order where several are set; the first refusal is the answer. -/
def State.writeAtsCtl (s : State) (owner n : Nat) (v : Word) : State × Nat × Word :=
  let step := fun (a : State × Nat × Word) (k : Nat) (f : State → State × Nat × Word) =>
    if getBits v k 1 = 1 ∧ a.2.1 = ST_OK then f a.1 else a
  let a0 : State × Nat × Word := if s.chSOwner n = owner then (s, ST_OK, 0) else (s, ST_REFUSED_AUTH, 0)
  let a1 := step a0 0 fun s => s.goS owner n
  let a2 := step a1 1 fun s => s.stopS owner n
  step a2 2 fun s => s.fenceS owner n

/-- A write of QUE_DOORBELL by the control node (R145, Table 7.2); OP 3 is reserved and fails check 2 of R146. -/
def State.writeDoorbell (s : State) (q : Nat) (v : Word) : State :=
  let i := getBits v 0 32
  match getBits v 46 2 with
  | 0 => s.dbSubmit .controlNode q i
  | 1 => s.dbCqHead .controlNode q i
  | 2 => s.dbResume .controlNode q i
  | _ => s.doorbell .controlNode q false id

/-- CLEAR of ACD_SLICE_SEL (R203). -/
def State.clearSlice (s : State) (slice : Nat) : State :=
  (s.setReg .ACD_SLOWEST slice 0).setReg .ACD_LATE_HIST slice 0

/-- A write of ACD_SLICE_SEL. -/
def State.writeSliceSel (s : State) (v : Word) : State :=
  let slice := getBits v 0 10
  let s1 := s.setFld F.ACD_SLICE_SEL_SLICE 0 slice
  if getBits v 63 1 = 1 then s1.clearSlice slice else s1

/-- A write of ATL_CH_SEL. -/
def State.writeChSel (s : State) (w : Nat) (v : Word) : State :=
  let ch := getBits v 0 8
  let s1 := s.setFld F.ATL_CH_SEL_CHANNEL w ch
  if getBits v 63 1 = 1 then s1.stopChan (chanIx w ch) else s1

/-- A write of ANT_CTL. -/
def State.writeAntCtl (s : State) (a : Nat) (v : Word) : State :=
  let s1 := s.setFld F.ANT_CTL_EVT_EN a (getBits v 0 1)
  if getBits v 1 1 = 1 then s1.antRetrain a else s1

/-- A write of a DB_OUT or DB_OUT_MASK register: by its owner alone (R325). -/
def State.writeBell (s : State) (owner : Nat) (r : RegName) (k : Nat) (v : Word) : State × Nat × Word :=
  if owner ≠ k then (s, ST_REFUSED_AUTH, 0) else ((s.writeFields r k v).dbDue s k, ST_OK, 0)

/-- A write of DB_IN: owners 1, 2 and 4 set bits, and the firmware clears them (R325). -/
def State.writeDbIn (s : State) (owner : Nat) (v : Word) : State :=
  let x := getBits v 0 32
  let b := s.fld F.DB_IN_BITS
  s.setFld F.DB_IN_BITS 0 (if owner = 3 then b - (b &&& x) else b ||| x)

/-- A write of a register by an owner: the registers with a rule of their own, and the access types for the rest (R9, R10). -/
def State.writeReg (s : State) (owner : Nat) (r : RegName) (i : Nat) (v : Word) : State × Nat × Word :=
  match r with
  | .CTL_SEM => s.release F.CTL_SEM_OWNER 0 v
  | .MBX_LOCK => s.release F.MBX_LOCK_OWNER i v
  | .ATS_CH_LOCK => if 12 ≤ i then (s, ST_OK, 0) else s.release F.ATS_CH_LOCK_OWNER i v
  | .MBX_DATA => s.mbxWrite owner i (s.fld F.MBX_STATUS_DEST i) v
  | .MBX_ACK => s.mbxAnswer owner i (getBits v 0 8)
  | .DB_IN => (s.writeDbIn owner v, ST_OK, 0)
  | .DB_IN_MASK => (if owner = 3 then s.setFld F.DB_IN_MASK_MASK 0 (getBits v 0 32) else s, ST_OK, 0)
  | .DB_OUT | .DB_OUT_MASK => s.writeBell owner r i v
  | .SIL_CURSOR => (s.writeCursor owner v, ST_OK, 0)
  | .CHR_CTL => s.writeChrCtl v
  | .INS_CTL => s.writeInsCtl v
  | .ANT_CTL => (s.writeAntCtl i v, ST_OK, 0)
  | .ATS_CH_CTL => s.writeAtsCtl owner i v
  | .ATS_CH_DESC | .ATS_CQ_BASE | .ATS_CQ_INDEX => s.ownS owner i fun s => (s.writeFields r i v, ST_OK, 0)
  | .QUE_DOORBELL => (s.writeDoorbell i v, ST_OK, 0)
  | .ACD_SLICE_SEL => (s.writeSliceSel v, ST_OK, 0)
  | .ATL_CH_SEL => (s.writeChSel i v, ST_OK, 0)
  | .AON_CMP_VALUE => s.writeCmpValue i v
  | .AON_CMP_CTL => (s.writeCmpCtl i v, ST_OK, 0)
  | _ => (if s.selectsNone r i then s else s.writeFields r (s.shownIx owner r i) v, ST_OK, 0)

end Sys2Proof.Machine
end

