-- ==== Sys2Proof/Machine/Access.lean ====
section
/-! DEFINITION. Sys2Proof/Machine/Access.lean: the windows of the address space (R407 to R413), READ, WRITE and MBX_SEND frames
(R310, R313, R314), and register writes without a row of their own.
(log entries of this file: DEDUCED 74, 108, 115, 116; DESIGN CHOICE 17) -/

namespace Sys2Proof.Machine

/-! ### Windows (Table 22.1) -/

/-- A window and the offset in it. -/
inductive Window where
  | thorax (off : Nat)
  | wing (w off : Nat)
  | cocoon (off : Nat)
  | sram (off : Nat)
  | pool (off : Nat)
  | reserved
deriving DecidableEq, Repr

/-- Bytes of a block window. -/
def windowBytes : Nat := 0x10000000

/-- The window an address lies in. -/
def windowOf (a : Nat) : Window :=
  if a < windowBytes then .thorax a
  else if 0x000100000000 ≤ a ∧ a < 0x000200000000 then
    let o := a - 0x000100000000
    if o % 0x40000000 < windowBytes then .wing (o / 0x40000000) (o % 0x40000000) else .reserved
  else if 0x000200000000 ≤ a ∧ a < 0x000200000000 + windowBytes then .cocoon (a - 0x000200000000)
  else if 0x000300000000 ≤ a ∧ a < 0x000300000000 + sramBytes then .sram (a - 0x000300000000)
  else if 0x010000000000 ≤ a ∧ a < 0x030000000000 then .pool (a - 0x010000000000)
  else .reserved

/-- Registers that the always-on domain keeps alive in SLEEP and DEEP (R364). -/
def aonReg (r : RegName) : Bool :=
  match r with
  | .AON_CMP_CTL | .AON_CMP_VALUE | .AON_CMP_EVENTS | .RST_CAUSE | .RST_COUNTS | .RST_ESC_LIMITS | .RST_ESC_COUNT
  | .PWR_STATUS | .PWR_MEASURE => true
  | _ => false

/-! ### Registers -/

/-- A read of a Thorax register in any state of the part: in SLEEP and DEEP only the always-on ones hold values (R364), and in a freeze
nothing changes by a read (R388). -/
def State.readThorax (s : State) (owner : Nat) (r : RegName) (i : Nat) : State × Nat × Word :=
  if s.asleep then (s, ST_OK, if aonReg r then s.shownWord r i else 0)
  else if s.power.frozen then (s, ST_OK, s.shownWord r (if r = .SIL_WINDOW then owner * 8 + i else s.shownIx owner r i))
  else s.readReg owner r i

/-- A write of a Thorax register in any state of the part (R322, R364, R388). -/
def State.writeThorax (s : State) (owner : Nat) (r : RegName) (i : Nat) (v : Word) : State × Nat × Word :=
  if r = .CHR_CTL then s.writeChrCtl v
  else if s.asleep then
    if aonReg r then s.writeReg owner r i v
    else (s, if r = .MBX_DATA ∧ i < 32 then ST_DOMAIN_OFF else ST_OK, 0)
  else if s.power.frozen then (s, ST_DOMAIN_OFF, 0)
  else s.writeReg owner r i v

/-- A read of a wing register: none answers while the wing is off or frozen (R322, R388). -/
def State.readWing (s : State) (owner : Nat) (r : RegName) (i : Nat) : State × Nat × Word :=
  if s.asleep || s.power.frozen then (s, ST_DOMAIN_OFF, 0) else s.readReg owner r i

def State.writeWing (s : State) (owner : Nat) (r : RegName) (i : Nat) (v : Word) : State × Nat × Word :=
  if s.asleep || s.power.frozen then (s, ST_DOMAIN_OFF, 0) else s.writeReg owner r i v

/-! ### The Cocoon read window (R412) -/

/-- A record with its tag `tagAt` bytes after its start; a record that is absent reads zero. -/
def taggedByte (place : Nat) (content : List Byte) (tagAt off : Nat) : Byte :=
  if content.all (· == 0) then 0
  else if off < tagAt then content.getD off 0
  else (Config.cocoonTag place content).getD (off - tagAt) 0

/-- The life record (Table 22.4). -/
def lifeRecord (c : CocoonSt) : List Byte :=
  leBytes 4 c.hours ++ leBytes 4 c.cycles ++ leBytes 4 c.lastFull ++ leBytes 4 0 ++ leBytes 8 c.reservedTo

/-- The installation record (Table 22.4). -/
def installRecord (c : CocoonSt) : List Byte :=
  let slot := fun (i : Nat) => (c.serials[i]?).getD none
  let valid := (List.range 4).foldl (fun n i => n + if (slot i).isSome then 2 ^ i else 0) 0
  leBytes 4 c.mapSeq.toNat ++ List.replicate 28 0 ++ leBytes 32 c.mapDigest.toNat ++ leBytes 32 (c.authDigest.getD 0).toNat
  ++ (List.range 4).flatMap (fun i => leBytes 4 ((slot i).getD 0).toNat) ++ leBytes 1 valid

/-- The byte at an offset of the Cocoon read window. -/
def State.cocoonByte (s : State) (o : Nat) : Byte :=
  let c := s.cocoon
  let inside := fun (base len : Nat) => decide (base ≤ o) && decide (o < base + len)
  if inside 0x0000000 0x1000 then taggedByte 0 (lifeRecord c) 4064 o
  else if inside 0x0001000 0x1000 then taggedByte 1 (installRecord c) 4064 (o - 0x1000)
  else if inside 0x0010000 0x4000 then Config.identityCert.getD (o - 0x10000) 0
  else if inside 0x0014000 0x4000 then Config.variantCert.getD (o - 0x14000) 0
  else if inside 0x0100000 0x100020 then taggedByte 2 (c.defects.flatMap defectBytes) 0x100000 (o - 0x100000)
  else if inside 0x0240000 0x10020 then taggedByte 3 (Config.spareMapBytes c.spareMap) 0x10000 (o - 0x240000)
  else if inside 0x0300000 0x10020 then taggedByte 4 (c.persistent.flatMap recordOf) 0x10000 (o - 0x300000)
  else 0

/-! ### The pool test window (R413) -/

/-- The window opens at the end of stage 5. -/
def State.poolOpen (s : State) : Bool :=
  decide (5 < s.insStage) || (s.insStage == 5 && s.insState == IS_DONE)

/-- The pool key of the context that holds a frame; a frame that none holds keeps its bytes as they are. -/
def State.frameKey (s : State) (f : Nat) : Option Nat :=
  (s.contexts.find? fun c => (s.ctx c).pages.any fun p => p.frame == f).map fun c => (s.ctx c).key

/-- The bytes a sector stores: ciphertext, but for a sector written through the window, whose bytes stand as written. -/
def State.sectorStored (s : State) (sec : Nat) : List Byte :=
  let plain := s.readMem (sec * 512) 512
  if s.pool.badTag.contains sec then plain
  else match s.frameKey (sec / 4096) with
    | some k => fitBytes 512 (Config.poolCipher k sec plain)
    | none => plain

/-- Read stored bytes: ranges are multiples of 8 and 8-byte aligned. -/
def State.poolRead (s : State) (a n : Nat) : List Byte :=
  (List.range (n / 8)).flatMap fun k => ((s.sectorStored ((a + 8 * k) / 512)).drop ((a + 8 * k) % 512)).take 8

/-- Store bytes through the window: tags and POISON marks stay, so a later read of the sector fails its tag check. -/
def State.poolWrite (s : State) (a : Nat) (bs : List Byte) : State :=
  let secs := (List.range ((a + bs.length - 1) / 512 - a / 512 + 1)).map (a / 512 + ·)
  let s1 := secs.foldl (fun (t : State) sec =>
    if t.pool.badTag.contains sec then t
    else
      let t1 := t.writeMem (sec * 512) (t.sectorStored sec)
      { t1 with pool := { t1.pool with badTag := t1.pool.badTag ++ [sec] } }) s
  if bs = [] then s else s1.writeMem a bs

/-- Bytes of the window that reach frames: 1,728 GiB. -/
def poolBytes : Nat := 884736 * pageBytes

/-! ### Accesses by address -/

/-- Size and alignment within a byte window (R310). -/
def spanOk (off n size : Nat) : Bool := off % 8 == 0 && n % 8 == 0 && decide (n ≤ 4096) && decide (off + n ≤ size)

/-- The word of a list of bytes. -/
def wordOfBytes (bs : List Byte) : Word := BitVec.ofNat 64 (ofLe bs)

/-- A read of an address range by an owner: the state after it, the status, and the bytes. -/
def State.busRead (s : State) (owner a n : Nat) : State × Nat × List Byte :=
  let word := fun (x : State × Nat × Word) => (x.1, x.2.1, if x.2.1 = ST_OK then leBytes 8 x.2.2.toNat else [])
  match windowOf a with
  | .thorax off =>
    match thoraxReg off with
    | some (r, i) => if n = 8 then word (s.readThorax owner r i) else (s, ST_REFUSED_FORMAT, [])
    | none => (s, ST_REFUSED_FORMAT, [])
  | .wing w off =>
    if s.power.frozen then (s, ST_DOMAIN_OFF, [])
    else match wingReg w off with
      | some (r, i) => if n = 8 then word (s.readWing owner r i) else (s, ST_REFUSED_FORMAT, [])
      | none => (s, ST_REFUSED_FORMAT, [])
  | .cocoon off =>
    if spanOk off n windowBytes = false then (s, ST_REFUSED_FORMAT, [])
    else if s.asleep then (s, ST_OK, List.replicate n 0)
    else (s, ST_OK, (List.range n).map fun k => s.cocoonByte (off + k))
  | .sram off =>
    if spanOk off n sramBytes = false then (s, ST_REFUSED_FORMAT, [])
    else if s.asleep then (s, ST_OK, List.replicate n 0)
    else (s, ST_OK, s.sramRead off n)
  | .pool off =>
    if spanOk off n poolBytes = false then (s, ST_REFUSED_FORMAT, [])
    else if s.asleep then (s, ST_OK, List.replicate n 0)
    else if s.power.frozen then (s, ST_DOMAIN_OFF, [])
    else if s.poolOpen = false then (s, ST_REFUSED_STATE, [])
    else if s.flag F.SEC_STATUS_TEST_WINDOW_CLOSED then (s, ST_OK, List.replicate n 0)
    else (s, ST_OK, s.poolRead off n)
  | .reserved => (s, ST_REFUSED_FORMAT, [])

/-- A write of Thorax SRAM is allowed: the load range while it is open, and the owner's own command area (Table 22.3). -/
def State.sramOk (s : State) (owner off n : Nat) : Bool := s.loadRange off n || inArea owner off n

/-- A write of an address range by an owner: the state after it and the status. -/
def State.busWrite (s : State) (owner a : Nat) (bs : List Byte) : State × Nat :=
  let n := bs.length
  let word := fun (x : State × Nat × Word) => (x.1, x.2.1)
  match windowOf a with
  | .thorax off =>
    match thoraxReg off with
    | some (r, i) => if n = 8 then word (s.writeThorax owner r i (wordOfBytes bs)) else (s, ST_REFUSED_FORMAT)
    | none => (s, ST_REFUSED_FORMAT)
  | .wing w off =>
    if s.power.frozen then (s, ST_DOMAIN_OFF)
    else match wingReg w off with
      | some (r, i) => if n = 8 then word (s.writeWing owner r i (wordOfBytes bs)) else (s, ST_REFUSED_FORMAT)
      | none => (s, ST_REFUSED_FORMAT)
  | .cocoon off =>
    if spanOk off n windowBytes = false then (s, ST_REFUSED_FORMAT)
    else if s.asleep then (s, ST_OK)
    else if s.power.frozen then (s, ST_DOMAIN_OFF)
    else (s, ST_REFUSED_AUTH)
  | .sram off =>
    if spanOk off n sramBytes = false then (s, ST_REFUSED_FORMAT)
    else if s.asleep then (s, ST_OK)
    else if s.power.frozen then (s, ST_DOMAIN_OFF)
    else if s.sramOk owner off n then (s.writeMem (sramBase + off) bs, ST_OK)
    else (s, ST_REFUSED_AUTH)
  | .pool off =>
    if spanOk off n poolBytes = false then (s, ST_REFUSED_FORMAT)
    else if s.asleep then (s, ST_OK)
    else if s.power.frozen then (s, ST_DOMAIN_OFF)
    else if s.poolOpen = false then (s, ST_REFUSED_STATE)
    else if s.flag F.SEC_STATUS_TEST_WINDOW_CLOSED then (s, ST_OK)
    else (s.poolWrite off bs, ST_OK)
  | .reserved => (s, ST_REFUSED_FORMAT)

/-! ### Frames (R310, R313, R314) -/

/-- The fields of a request that are reserved or 0 (R11, Table 15.2). -/
def requestFormOk (f : AntFrame) : Bool :=
  f.flags.val == 0 && f.status.val == 0 && f.resvZero && decide (f.len ≤ 4096) && decide (f.addr.toNat < 2 ^ 48)

/-- A request arrives: beyond 64 outstanding it is refused; otherwise `eff` answers it with a status and data. -/
def State.antRequest (s : State) (a : Nat) (good : Bool) (f : AntFrame) (eff : State → State × Nat × List Byte) : State :=
  s.antReceive a good f fun s =>
    if 64 ≤ s.antOutstanding a then s.antReply a f ST_REFUSED_STATE []
    else if requestFormOk f = false then s.antReply a f ST_REFUSED_FORMAT []
    else
      let (t, st, data) := eff s
      t.antReply a f st data

/-- Uncorrectable lines met by a read of the pool test window count in HBM_ECC of the stack (R413). -/
def State.countEcc (s : State) (a bad : Nat) : State :=
  match windowOf a with
  | .pool off =>
    if s.poolOpen ∧ s.power.frozen = false ∧ s.flag F.SEC_STATUS_TEST_WINDOW_CLOSED = false ∧ off < poolBytes then
      s.bump F.HBM_ECC_UNCORRECTABLE (off / pageBytes / 36864) bad
    else s
  | _ => s

/-- ANT_READ (R313). `silent`: the block does not answer within 2 µs, and the data are zero. `bad`: uncorrectable lines that a read of
the pool test window meets. -/
def execAntRead (port : Antenna) (good silent : Bool) (bad : Fin 65) (f : AntFrame) (s : State) : Out :=
  actAnt s fun s =>
    s.antRequest port.val good f fun s =>
      if f.data ≠ [] then (s, ST_REFUSED_FORMAT, [])
      else if silent then (s, ST_FAULT_UNIT, List.replicate f.len 0)
      else (s.countEcc f.addr.toNat bad.val).busRead (port.val + 1) f.addr.toNat f.len

/-- ANT_WRITE (R313). `silent`: the block does not answer within 2 µs, and the write has taken effect or not, as `took` says. -/
def execAntWrite (port : Antenna) (good silent took : Bool) (f : AntFrame) (s : State) : Out :=
  actAnt s fun s =>
    s.antRequest port.val good f fun s =>
      if f.data.length ≠ f.len then (s, ST_REFUSED_FORMAT, [])
      else
        let (t, st) := s.busWrite (port.val + 1) f.addr.toNat f.data
        if silent then (if took then t else s, ST_FAULT_UNIT, []) else (t, st, [])

/-- ANT_MBX_SEND (R320); in a freeze mailboxes are not served (R388). -/
def execAntMbxSend (port : Antenna) (good : Bool) (f : AntFrame) (s : State) : Out :=
  actAnt s fun s =>
    s.antRequest port.val good f fun s =>
      if 64 ≤ f.addr.toNat ∨ f.len ≠ 8 ∨ f.data.length ≠ 8 then (s, ST_REFUSED_FORMAT, [])
      else if s.power.frozen then (s, ST_DOMAIN_OFF, [])
      else
        let (t, st) := s.mbxSend (port.val + 1) f.addr.toNat (wordOfBytes f.data)
        (t, st, [])

/-! ### The rest -/

/-- ACD_SLICE_CLEAR (R203): a write of ACD_SLICE_SEL with CLEAR. -/
def execAcdSliceClear (owner : Owner) (slice : Slice) (s : State) : Out :=
  accessBy owner.val s (fun s => ((s.setFld F.ACD_SLICE_SEL_SLICE 0 slice.val).clearSlice slice.val, ST_OK, 0)) stoppedOff

/-- REGISTER_WRITE (R9): a write of one word at an address. -/
def execRegisterWrite (owner : Owner) (addr value : Word) (s : State) : Out :=
  if s.reaches owner.val = false then .next s
  else
    let (t, st) := s.busWrite owner.val addr.toNat (leBytes 8 value.toNat)
    .next (t.emit (.access owner.val st 0))

end Sys2Proof.Machine
end

