-- ==== Sys2Proof/Machine/Twin.lean ====
section
/-! DEFINITION. Sys2Proof/Machine/Twin.lean: the two managers: heartbeats, the state copy, fencing, takeover and reversion
(R123 to R139).
(log entries of this file: DEDUCED 12, 34, 35, 36, 37, 38, 39, 40, 77; DESIGN CHOICE 7, 11) -/

namespace Sys2Proof.Machine

/-! ### Shared operations -/

/-- HOLD_LEFT at its start (R137). -/
def holdOff : Nat := 125000

/-- A journal entry taken from another chip: its result is posted on the next delivery (Table 16.14). -/
def undelivered (e : JournalEntry) : JournalEntry := { e with mbx := 64 }

/-- The manager's records as of now, those of MGR commands among the journal (R126, R331). -/
def State.records (s : State) : MgrRecords :=
  ⟨s.mgr, s.time.change, s.fw.journal.filter (fun e => mgrOpcode e.opcode), s.flag F.TWN_STATUS_REVERT_HOLD⟩

/-- The shadow takes the records of a delta or snapshot (R128); a cleared REVERT_HOLD restarts HOLD_LEFT (R138). -/
def State.takeRecords (s : State) (r : MgrRecords) : State :=
  let s1 := if s.flag F.TWN_STATUS_REVERT_HOLD ∧ r.revertHold = false then s.setFld F.TWN_REVERT_HOLD_LEFT 0 holdOff else s
  let own := s1.fw.journal.filter fun e => !mgrOpcode e.opcode
  let s2 := { s1 with mgr := r.mgr, time := { s1.time with change := r.change }, fw := { s1.fw with journal := own ++ r.journal.map undelivered } }
  s2.setFld F.TWN_STATUS_REVERT_HOLD 0 (bit r.revertHold)

/-- Chips in service at the start of the pod: INITIAL of the map (Table 5.4). -/
def State.initialService (s : State) : List Nat :=
  match s.map with
  | some m => (m.chips.filter fun c => c.initial.val == 0).map fun c => c.chip.val
  | none => []

/-- Every chip of the installation map. -/
def State.mapChips (s : State) : List Nat :=
  match s.map with
  | some m => m.chips.map fun c => c.chip.val
  | none => []

def State.probe (s : State) (chips : List Nat) : State := chips.foldl (fun t c => t.sendMgmt c .epochProbe) s

/-- A manager chip becomes ACTIVE with an epoch (R124, R133, R134, R137): it is grandmaster and sets ROOT (R37, R42), and
its own agent follows it. -/
def State.enterActive (s : State) (epoch : Nat) : State :=
  let s1 := ((s.setFld F.TWN_STATUS_STATE 0 MS_ACTIVE).setFld F.TWN_STATUS_EPOCH 0 epoch).setFld F.TWN_STATUS_SYNCED 0 0
  let s2 := (s1.setFld F.MGR_ROLE_ACTIVE 0 1).endCoast.setFld F.FT_STATUS_STATE 0 TS_ROOT
  let s3 := ((s2.setFld F.FT_STATUS_DEPTH 0 0).setFld F.FT_STATUS_UPSTREAM 0 0xFF).setFld F.FT_STATUS_ALTERNATE 0 0xFF
  let s4 := (s3.setFld F.TWN_AGENT_HIGHEST_EPOCH 0 epoch).setFld F.TWN_AGENT_MANAGER_CHIP 0 s3.chip
  let s5 := s4.modTwin fun t => { t with
    startAt := none, probeFtu := none, fencedAt := none, probeAt := none, peerOk := false, ackAt := s4.wb, chain := none, delta := none,
    snap := none, gap := false, based := false, syncedAt := false, takeback := none, activeSilent := 0 }
  let svc := if s5.mgr.service.isEmpty then s5.initialService else s5.mgr.service
  { s5 with mgr := { s5.mgr with service := svc } }

/-- Takeover, takeback and reclaim (R133, R134, R137): counted, recorded, announced; the new manager asks each agent
where it stands (R135). -/
def State.takeOver (s : State) (epoch : Nat) : State :=
  let old := s.fld F.TWN_STATUS_EPOCH
  let s1 := (s.enterActive epoch).bump F.TWN_EVENTS_TAKEOVERS
  let s2 := (s1.sillage 0x05 0x02 2 [old, epoch]).event EVT_TAKEOVER [(old, 4), (epoch, 4)]
  let open' := s2.mgr.loads.filter fun l => l.handle == 0
  let s3 := open'.foldl (fun (t : State) l => t.sendMgmt 0xFFFF (.bqCommit l.id none))
    { s2 with mgr := { s2.mgr with loads := s2.mgr.loads.filter fun l => l.handle != 0 } }
  (s3.sendMgmt 0xFFFF (.takeover epoch s3.chip s3.wb)).probe s3.mgr.service

/-- The chip becomes SHADOW, not SYNCED. -/
def State.enterShadow (s : State) : State :=
  let s1 := ((s.setFld F.TWN_STATUS_STATE 0 MS_SHADOW).setFld F.TWN_STATUS_SYNCED 0 0).setFld F.MGR_ROLE_ACTIVE 0 0
  s1.modTwin fun t => { t with
    startAt := none, probeFtu := none, fencedAt := none, probeAt := none, chain := none, delta := none, snap := none, gap := false,
    based := false, syncedAt := false, takeback := none, waits := [] }

/-- Results that no longer wait become ready in order (R128, R330). -/
def State.releaseWaits (s : State) (p : Wb → Bool) : State :=
  let go := (s.twin.waits.filter fun w => p w.2).map (·.1)
  let s1 := s.modTwin fun t => { t with waits := t.waits.filter fun w => !p w.2 }
  { s1 with fw := { s1.fw with ready := s1.fw.ready ++ go } }

/-- The active chip takes its peer as not SYNCED (R128). -/
def State.peerLost (s : State) : State :=
  if s.twin.peerOk then
    ((s.modTwin fun t => { t with peerOk := false }).releaseWaits fun _ => true).event EVT_TWIN_UNSYNC []
  else s

/-- The later of two wingbeat numbers. -/
def laterWb (a : Option Wb) (b : Wb) : Option Wb :=
  match a with
  | some x => if wbGe b x then some b else some x
  | none => some b

/-! ### Heartbeats (R125, R131) -/

/-- What a valid heartbeat shows of the peer. -/
def State.noteBeat (s : State) (epoch : Nat) (twin : Bool) (b : Beat) : State :=
  let active := b.state.val == MS_ACTIVE
  let s1 := s.modTwin fun t => { t with
    twinBeat := if twin then laterWb t.twinBeat b.wb else t.twinBeat
    fabBeat := if twin then t.fabBeat else laterWb t.fabBeat b.wb
    twinActive := if twin && active then laterWb t.twinActive b.wb else t.twinActive
    fabActive := if !twin && active then laterWb t.fabActive b.wb else t.fabActive
    heardEpoch := max t.heardEpoch epoch
    heardActive := t.heardActive || active
    peerHold := b.holdLeft.toNat }
  let s2 := (s1.setFld F.TWN_STATUS_PEER_STATE 0 b.state.val).setFld F.TWN_STATUS_PEER_SYNCED 0 (bit b.synced)
  let s3 := match laterWb (laterWb s2.twin.twinBeat b.wb) b.wb, laterWb s2.twin.fabBeat b.wb with
    | some x, some y => s2.setFld F.TWN_HEARTBEAT_LAST_HEARD 0 (if wbGe x y then x else y).toNat
    | _, _ => s2
  if s3.mgrState = MS_SHADOW ∧ active then s3.setFld F.TWN_STATUS_EPOCH 0 epoch else s3

/-- A shadow that is not SYNCED asks for a snapshot at the first ACTIVE heartbeat it hears (R124, Table 6.6). -/
def State.askOnBeat (s : State) (first : Bool) : State :=
  if s.mgrState = MS_SHADOW ∧ first ∧ s.flag F.TWN_STATUS_SYNCED = false then s.askSnapshot else s

/-- HEARTBEAT_RECEIVE (R124, R125, R128, R131). -/
def execHeartbeatReceive (h : MsgHdr) (twin : Bool) (b : Beat) (s : State) : Out :=
  act s fun s =>
    if s.isManagerChip = false ∨ s.peerChip ≠ some h.src.val then s
    else
      let s1 := (s.fenceOn h.epoch).noteBeat h.epoch twin b
      if s1.mgrState = MS_ACTIVE then
        if b.synced then
          if s1.twin.peerOk then s1 else s1.modTwin fun t => { t with peerOk := true, ackAt := s1.wb }
        else s1.peerLost
      else s1.askOnBeat (b.state.val == MS_ACTIVE && !s.twin.heardActive)

/-- FENCE_ON_SILENCE (R131): two wingbeats without any heartbeat from a peer last heard as a SYNCED shadow. -/
def execFenceOnSilence (s : State) : Out :=
  act s fun s =>
    let silent := min (s.fld F.TWN_HEARTBEAT_SILENT_TWIN) (s.fld F.TWN_HEARTBEAT_SILENT_FABRIC)
    if s.isActive ∧ s.hasStandby ∧ silent = 2 ∧ s.fld F.TWN_STATUS_PEER_STATE = MS_SHADOW ∧ s.flag F.TWN_STATUS_PEER_SYNCED then
      s.fence
    else s

/-- The heartbeat of the tick (R125), on the Twin port and on VC0. -/
def State.sendBeat (s : State) : State :=
  match s.peerChip with
  | some c =>
    let b := fun (twin : Bool) => Mgmt.heartbeat {
      state := Fin.ofNat 8 s.mgrState, synced := s.flag F.TWN_STATUS_SYNCED, revertHold := s.flag F.TWN_STATUS_REVERT_HOLD
      viaTwin := twin, wb := s.wb, sentFtu := s.ftu
      deltaWb := BitVec.ofNat 32 (s.fld F.TWN_SYNC_DELTA_WB), holdLeft := BitVec.ofNat 32 (s.fld F.TWN_REVERT_HOLD_LEFT) }
    let twin : Link := 128
    let s1 := if s.linkState twinLink = PS_UP then s.emit (.linkMgmt twin (b true)) else s
    s1.sendMgmt c (b false)
  | none => s

/-- The silent counts at a tick (R125): `m` is the wingbeat that has ended. -/
def State.countSilence (s : State) (m : Wb) : State :=
  let got : Option Wb → Bool := fun x => match x with | some w => wbGe w m | none => false
  let up := fun (f : Fld) (x : Option Wb) (t : State) => if got x then t.setFld f 0 0 else t.bump f
  let s1 := up F.TWN_HEARTBEAT_SILENT_FABRIC s.twin.fabBeat (up F.TWN_HEARTBEAT_SILENT_TWIN s.twin.twinBeat s)
  s1.modTwin fun t => { t with activeSilent := if got t.twinActive || got t.fabActive then 0 else t.activeSilent + 1 }

/-- HOLD_LEFT at a tick (R137). -/
def State.countHold (s : State) (m : Wb) : State :=
  if s.fld F.MGR_ROLE_ROLE = 1 ∧ s.mgrState = MS_SHADOW then
    let got : Option Wb → Bool := fun x => match x with | some w => wbGe w m | none => false
    if s.flag F.TWN_STATUS_SYNCED ∧ got s.twin.twinActive ∧ got s.twin.fabActive ∧ s.flag F.TWN_STATUS_REVERT_HOLD = false then
      s.setFld F.TWN_REVERT_HOLD_LEFT 0 (s.fld F.TWN_REVERT_HOLD_LEFT - 1)
    else s.setFld F.TWN_REVERT_HOLD_LEFT 0 holdOff
  else s

/-! ### Start (R124) -/

/-- FTU in 1 ms. -/
def ms1 : Nat := 1600000

/-- MANAGER_LISTEN_END (R124). -/
def execManagerListenEnd (s : State) : Out :=
  act s fun s =>
    match s.twin.startAt with
    | some t =>
      if s.mgrState = MS_STARTING ∧ s.twin.probeFtu = none ∧ ms1 ≤ (s.ftu - t).toNat then
        if s.twin.heardActive then s.enterShadow.askSnapshot
        else if s.fld F.MGR_ROLE_ROLE = 2 then s.enterShadow
        else (s.modTwin fun x => { x with probeFtu := some s.ftu, replies := [] }).probe s.mapChips
      else s
    | none => s

/-- Entries of the MGR journal found ACCEPTED at a start end with ACK_INTERRUPTED (R331). -/
def State.interruptMgr (s : State) : State :=
  let refs := (s.fw.journal.filter fun e => mgrOpcode e.opcode && !e.done).map (·.ref)
  refs.foldl (fun t r => t.finishFw r ACK_INTERRUPTED 0) s

/-- Stage 7 of Instar is running. -/
def State.inStage7 (s : State) : Bool := s.fld F.INS_STATUS_STAGE == 7 && s.fld F.INS_STATUS_STATE == 1

/-- The Monarch that starts the pod sets fabric time and the base pair (R347): BASE_FTU is a multiple of L at least 1 ms
ahead, which one being open (log entry 7). -/
def State.startTime (s : State) : State :=
  let seed := s.reg .INS_FT_SEED
  let s1 := if seed = 0 then s
    else (s.setReg .FT_COUNT 0 seed).sillage 0x01 0x03 0 [s.ftu.toNat, seed.toNat]
  let (v, s2) := s1.fresh
  let len := Sys2Proof.Machine.lenFtu 2
  let n := (s2.ftu.toNat + ms1 + len - 1) / len + v % 2 ^ 16
  let ftu : Ftu := BitVec.ofNat 64 (n * len)
  let s3 := s2.setBase ftu (BitVec.ofNat 48 n) 2
  s3.sendMgmt 0xFFFF (.wbBase ⟨ftu, BitVec.ofNat 48 n, 2, 0xFF, 0xFF, 0xFF⟩)

/-- START_PROBE_END (R124, R129): the epoch is one above the highest of its own and every reply. -/
def execStartProbeEnd (s : State) : Out :=
  act s fun s =>
    match s.twin.probeFtu with
    | some t =>
      if s.mgrState = MS_STARTING ∧ ms1 ≤ (s.ftu - t).toNat then
        let top := (s.twin.replies.map (·.2)).foldl max (s.fld F.TWN_STATUS_EPOCH)
        let s1 := (s.enterActive (top + 1)).interruptMgr
        let s2 := { s1 with mgr := { s1.mgr with recompute := some (s1.mgr.recompute.getD []) } }
        if s2.inStage7 then s2.startTime else s2
      else s
    | none => s

/-- EPOCH_PROBE_RECEIVE (R124): every agent answers, whatever the prober's epoch. -/
def execEpochProbeReceive (h : MsgHdr) (s : State) : Out :=
  act s fun s => s.fromAgent h id fun s =>
    s.sendMgmt h.src.val (.epochReply (s.fld F.TWN_AGENT_HIGHEST_EPOCH) (s.fld F.TWN_AGENT_MANAGER_CHIP)
      (s.fld F.EDG_CTL_ROUTE_VERSION) (s.fld F.MGR_MAP_MAP_SEQ) ((List.range 128).map fun i => (s.linkState i, s.linkWidth i)))

/-- EPOCH_REPLY_RECEIVE (R124, R133, R135): the prober notes the epoch; an ACTIVE chip takes the agent's state where it is
further on than its records. -/
def execEpochReplyReceive (h : MsgHdr) (highest mgrChip version mapSeq : Nat) (ports : List (Nat × Nat)) (s : State) : Out :=
  act s fun s =>
    if s.isManagerChip = false then s
    else s.fromAgent h fun s =>
      let c := h.src.val
      let s1 := (s.modTwin fun t => { t with
        replies := (t.replies.filter fun q => q.1 != c) ++ [(c, highest)]
        heardEpoch := max t.heardEpoch highest }).answered fun d b => d == c && b == .epochProbe
      if s1.isActive then
        let s2 := s1.reconcilePorts c ports
        let s3 := { s2 with mgr := { s2.mgr with
          statuses := (s2.mgr.statuses.filter fun (q : StatusRec) => q.chip != c) ++ [StatusRec.mk c s2.wb version mapSeq ports] } }
        let s4 := if s3.fld F.MGR_ROUTE_ROUTE_VERSION < version then
            let t := s3.setFld F.MGR_ROUTE_ROUTE_VERSION 0 version
            match t.mgr.drain with
            | some d => ({ t with mgr := { t.mgr with drain := none } }).finishRoutes d.refs
            | none => t
          else s3
        match s4.map with
        | some m => if mapSeq < m.mapSeq.toNat then s4.sendMgmt c (.mapUpdate m) else s4
        | none => s4
      else s1

/-! ### State copy (R126 to R128) -/

/-- A delta piece comes in: its record and whether the delta is now whole. A piece of another delta while one is not whole
leaves a gap. -/
def State.deltaPiece (s : State) (forWb : Wb) (piece pieces : Nat) : State × Bool :=
  match s.twin.delta with
  | some (w, n, got, b) =>
    if w = forWb then
      let got' := if got.contains piece then got else got ++ [piece]
      let whole := (List.range n).all fun i => got'.contains i
      (s.modTwin fun t => { t with delta := if whole then none else some (w, n, got', b) }, whole)
    else
      let whole := (List.range pieces).all fun i => i == piece
      (s.modTwin fun t => { t with gap := true, delta := if whole then none else some (forWb, pieces, [piece], s.wb) }, whole)
  | none =>
    let whole := (List.range pieces).all fun i => i == piece
    (s.modTwin fun t => { t with delta := if whole then none else some (forWb, pieces, [piece], s.wb) }, whole)

/-- Send DELTA_ACK for the last complete delta applied. -/
def State.ackDelta (s : State) (forWb : Wb) : State :=
  match s.peerChip with
  | some c => s.sendMgmt c (.deltaAck forWb)
  | none => s

/-- A whole delta: it extends the run, and a shadow with a base applies it (R128). -/
def State.applyDelta (s : State) (forWb : Wb) (r : MgrRecords) : State :=
  match s.twin.chain with
  | none => s.modTwin fun t => { t with chain := some (forWb, forWb, r) }
  | some (a, l, _) =>
    if wbGe l forWb then s
    else if forWb = l + 1#48 then
      let s1 := s.modTwin fun t => { t with chain := some (a, forWb, r) }
      if s1.twin.based ∧ s1.twin.gap = false then
        let s2 := (s1.takeRecords r).setFld F.TWN_SYNC_DELTA_WB 0 forWb.toNat
        (s2.modTwin fun t => { t with syncedAt := s2.flag F.TWN_STATUS_SYNCED }).ackDelta forWb
      else s1
    else s.modTwin fun t => { t with chain := some (forWb, forWb, r), gap := true }

/-- Another DELTA_FORMAT (R126): not SYNCED, and announced. -/
def State.badFormat (s : State) : State :=
  let was := s.flag F.TWN_STATUS_SYNCED
  let s1 := s.unsync false
  let s2 := if was ∨ s.twin.fmtBad then s1 else s1.event EVT_TWIN_UNSYNC []
  s2.modTwin fun t => { t with fmtBad := true }

/-- STATE_DELTA_RECEIVE (R126, R128). `fmtOk` says that DELTA_FORMAT is this firmware's. -/
def execStateDeltaReceive (h : MsgHdr) (forWb : Wb) (piece pieces : Nat) (fmtOk : Bool) (recs : MgrRecords) (s : State) : Out :=
  act s fun s =>
    let s0 := s.fenceOn h.epoch
    if s0.mgrState ≠ MS_SHADOW then s0
    else if fmtOk = false then s0.badFormat
    else
      let (s1, whole) := (s0.modTwin fun t => { t with fmtBad := false }).deltaPiece forWb piece pieces
      if whole then s1.applyDelta forWb recs else s1

/-- A whole snapshot: with the run of deltas after it the shadow is SYNCED (R123, R128). -/
def State.applySnapshot (s : State) (forWb : Wb) (r : MgrRecords) : State :=
  let s0 := (s.setFld F.TWN_SYNC_SNAP_PROGRESS 0 0).modTwin fun t => { t with snap := none }
  let s1 := s0.answered fun _ b => b == Mgmt.snapReq
  let go := fun (t : State) (last : Wb) (q : MgrRecords) =>
    let t1 := ((t.takeRecords q).setFld F.TWN_SYNC_DELTA_WB 0 last.toNat).setFld F.TWN_STATUS_SYNCED 0 1
    (t1.modTwin fun x => { x with based := true, gap := false, syncedAt := true }).ackDelta last
  match s1.twin.chain with
  | some (a, l, q) =>
    if wbGe forWb l then go (s1.modTwin fun t => { t with chain := some (forWb, forWb, r) }) forWb r
    else if wbGe (forWb + 1#48) a then go s1 l q
    else s1.modTwin fun t => { t with gap := true }
  | none => go (s1.modTwin fun t => { t with chain := some (forWb, forWb, r) }) forWb r

/-- Bytes of snapshot per wingbeat (Table 6.4). -/
def snapShare (len : Nat) : Nat :=
  match len with
  | 0 => 16384
  | 1 => 40960
  | 2 => 90112
  | _ => 450560

/-- SNAPSHOT_RECEIVE (R127, R128): one wingbeat's share of a snapshot. -/
def execSnapshotReceive (h : MsgHdr) (forWb : Wb) (piece pieces : Nat) (fmtOk : Bool) (recs : MgrRecords) (s : State) : Out :=
  act s fun s =>
    let s0 := s.fenceOn h.epoch
    if s0.mgrState ≠ MS_SHADOW then s0
    else if fmtOk = false then s0.badFormat
    else
      let got := match s0.twin.snap with
        | some (w, _, g, _) => if w = forWb then (if g.contains piece then g else g ++ [piece]) else [piece]
        | none => [piece]
      let s1 := s0.modTwin fun t => { t with fmtBad := false, snap := some (forWb, pieces, got, s0.wb) }
      if (List.range pieces).all (fun i => got.contains i) then s1.applySnapshot forWb recs
      else s1.setFld F.TWN_SYNC_SNAP_PROGRESS 0 (got.length * snapShare (s1.fld F.FT_WB_CTL_LENGTH) / 16384)

/-- Start a snapshot as of now (R127): its size, at most 48 MiB, is the firmware's own. -/
def State.startSnapshot (s : State) : State :=
  let (v, s1) := s.fresh
  (s1.setFld F.TWN_SYNC_SNAP_PROGRESS 0 0).modTwin fun t => { t with
    sending := some (s1.wb, v % 50331648 + 1, 0, s1.records) }

/-- SNAPSHOT_START (R127): every 4,096 wingbeats. -/
def execSnapshotStart (s : State) : Out :=
  act s fun s => if s.isActive ∧ s.hasStandby ∧ s.wb.toNat % 4096 = 0 then s.startSnapshot else s

/-- SNAP_REQ_RECEIVE (R127). -/
def execSnapReqReceive (h : MsgHdr) (s : State) : Out :=
  act s fun s => s.atManager h fun s => if s.hasStandby then s.startSnapshot else s

/-- The delta of the wingbeat that ended, and the snapshot's next share (R127). -/
def State.sendDelta (s : State) (m : Wb) : State :=
  match s.peerChip with
  | some c =>
    if s.isActive ∧ s.hasStandby then
      let s1 := (s.setFld F.TWN_SYNC_DELTA_WB 0 m.toNat).sendMgmt c (.stateDelta m s.records)
      match s1.twin.sending with
      | some (w, size, sent, r) =>
        let share := snapShare (s1.fld F.FT_WB_CTL_LENGTH)
        let s2 := s1.sendMgmt c (.snapshot w (sent / share) ((size + share - 1) / share) r)
        let done := size ≤ sent + share
        let s3 := s2.modTwin fun t => { t with sending := if done then none else some (w, size, sent + share, r) }
        s3.setFld F.TWN_SYNC_SNAP_PROGRESS 0 (if done then 0 else (sent + share) / 16384)
      | none => s1
    else s
  | none => s

/-- SHADOW_UNSYNC (R128). -/
def execShadowUnsync (s : State) : Out :=
  act s fun s =>
    let pieceMissing : Bool := match s.twin.delta with | some (_, _, _, b) => b != s.wb | none => false
    let shareMissing : Bool := match s.twin.snap with | some (_, _, _, b) => s.reached (b + 2#48) | none => false
    if s.mgrState = MS_SHADOW ∧ (s.twin.gap ∨ pieceMissing ∨ shareMissing) then (s.unsync (!s.twin.gap)).askSnapshot else s

/-- DELTA_ACK_RECEIVE (R128, R330). -/
def execDeltaAckReceive (h : MsgHdr) (forWb : Wb) (s : State) : Out :=
  act s fun s => s.atManager h fun s =>
    (s.modTwin fun t => { t with ackAt := s.wb }).releaseWaits fun w => wbGe forWb w

/-- DELTA_ACK_TIMEOUT (R128): none within 2 wingbeats. -/
def execDeltaAckTimeout (s : State) : Out :=
  act s fun s => if s.isActive ∧ s.hasStandby ∧ s.reached (s.twin.ackAt + 3#48) then s.peerLost else s

/-! ### Takeover (R130, R133 to R135) -/

/-- TAKEOVER (R134). -/
def execTakeover (s : State) : Out :=
  act s fun s =>
    if s.mgrState = MS_SHADOW ∧ (2 ≤ s.twin.activeSilent ∨ s.fld F.TWN_STATUS_PEER_STATE = MS_FENCED) then
      if s.twin.syncedAt then s.takeOver (s.fld F.TWN_STATUS_EPOCH + 1) else s.event EVT_TWIN_UNSYNC []
    else s

/-- TAKEOVER_RECEIVE (R130). -/
def execTakeoverReceive (h : MsgHdr) (epoch : Nat) (chip : Chip) (fromWb : Wb) (s : State) : Out :=
  act s fun s => s.fromManager h fun s =>
    if s.mgrState = MS_SHADOW then s.setFld F.TWN_STATUS_EPOCH 0 epoch else s

/-- FENCED_PROBE (R133): at f + 2, and every 128 wingbeats after. -/
def execFencedProbe (s : State) : Out :=
  act s fun s =>
    match s.twin.fencedAt with
    | some f =>
      let due : Bool := match s.twin.probeAt with | some p => s.reached (p + 128#48) | none => s.reached (f + 2#48)
      if s.mgrState = MS_FENCED ∧ due ∧ s.forwardOnly = false then
        (s.modTwin fun t => { t with probeAt := some s.wb, replies := [] }).probe s.mgr.service
      else s
    | none => s

/-- RECLAIM_DECIDE (R133): two wingbeats after the probe. In forward-only operation the chip stays FENCED (R367). -/
def execReclaimDecide (s : State) : Out :=
  act s fun s =>
    match s.twin.probeAt with
    | some p =>
      if s.mgrState = MS_FENCED ∧ s.reached (p + 2#48) ∧ s.forwardOnly = false then
        let own := s.fld F.TWN_STATUS_EPOCH
        if own < s.twin.heardEpoch then (if s.twin.heardActive then s.enterShadow.askSnapshot else s.enterShadow)
        else if s.mgr.service.length < 2 * s.twin.replies.length ∧ s.twin.heardActive = false then s.takeOver (own + 2)
        else s
      else s
    | none => s

/-! ### Reversion (R137, R138) -/

/-- HOLD_LEFT_ZERO (R137): TAKEBACK names t two wingbeats ahead. -/
def execHoldLeftZero (s : State) : Out :=
  act s fun s =>
    match s.peerChip with
    | some c =>
      if s.mgrState = MS_SHADOW ∧ s.fld F.MGR_ROLE_ROLE = 1 ∧ s.fld F.TWN_REVERT_HOLD_LEFT = 0 ∧ s.twin.takeback = none then
        let t := s.wb + 2#48
        (s.modTwin fun x => { x with takeback := some (t, false) }).sendMgmt c (.takeback t false)
      else s
    | none => s

/-- TAKEBACK_RECEIVE (R137): the active chip answers with ACK before t; the Monarch notes the ACK. -/
def execTakebackReceive (h : MsgHdr) (t : Wb) (ack : Bool) (s : State) : Out :=
  act s fun s =>
    let s0 := s.fenceOn h.epoch
    if s0.isManagerChip = false ∨ s0.peerChip ≠ some h.src.val then s0
    else if ack then
      match s0.twin.takeback with
      | some (t', _) => if t' = t ∧ s0.mgrState = MS_SHADOW then s0.modTwin fun x => { x with takeback := some (t, true) } else s0
      | none => s0
    else if s0.mgrState = MS_ACTIVE ∧ s0.reached t = false then
      (s0.modTwin fun x => { x with takeback := some (t, true) }).sendMgmt h.src.val (.takeback t true)
    else s0

/-- TAKEBACK_TIMEOUT (R137). -/
def execTakebackTimeout (s : State) : Out :=
  act s fun s =>
    match s.twin.takeback with
    | some (t, false) =>
      if s.mgrState = MS_SHADOW ∧ s.reached t then
        (s.modTwin fun x => { x with takeback := none }).setFld F.TWN_REVERT_HOLD_LEFT 0 holdOff
      else s
    | _ => s

/-- TAKEBACK_HANDOVER (Table 6.6): the active chip becomes SHADOW, still SYNCED, and sends the delta for t − 1; it coasts
until the new tree (log entry 12). -/
def execTakebackHandover (s : State) : Out :=
  act s fun s =>
    match s.twin.takeback, s.peerChip with
    | some (t, true), some c =>
      if s.mgrState = MS_ACTIVE ∧ s.reached t then
        let r := s.records
        let m := t - 1#48
        let s1 := (s.sendMgmt c (.stateDelta m r)).enterShadow.startCoast
        let s2 := (s1.setFld F.TWN_SYNC_DELTA_WB 0 m.toNat).setFld F.TWN_STATUS_SYNCED 0 1
        s2.modTwin fun x => { x with based := true, chain := some (m, m, r), syncedAt := true }
      else s
    | _, _ => s

/-- TAKEBACK_COMPLETE (Table 6.6): at t + 1, with the delta for t − 1 applied. -/
def execTakebackComplete (s : State) : Out :=
  act s fun s =>
    match s.twin.takeback with
    | some (t, true) =>
      if s.mgrState = MS_SHADOW ∧ s.fld F.MGR_ROLE_ROLE = 1 ∧ s.reached (t + 1#48)
          ∧ wbGe (BitVec.ofNat 48 (s.fld F.TWN_SYNC_DELTA_WB)) (t - 1#48) then
        let s1 := s.takeOver (s.fld F.TWN_STATUS_EPOCH + 1)
        let s2 := (s1.bump F.TWN_EVENTS_REVERSIONS).event EVT_REVERTED []
        s2.setFld F.TWN_REVERT_HOLD_LEFT 0 holdOff
      else s
    | _ => s

/-- REVERT_CTL (R138, Table 16.6). -/
def execRevertCtl (r : FwRef) (hold : Bool) (s : State) : Out :=
  act s fun s => s.mgrCommand r fun s =>
    let cleared := s.flag F.TWN_STATUS_REVERT_HOLD && !hold
    let s1 := s.setFld F.TWN_STATUS_REVERT_HOLD 0 (bit hold)
    let s2 := if cleared ∧ s1.fld F.MGR_ROLE_ROLE = 1 then s1.setFld F.TWN_REVERT_HOLD_LEFT 0 holdOff else s1
    let left := if cleared then holdOff else if s2.fld F.MGR_ROLE_ROLE = 1 then s2.fld F.TWN_REVERT_HOLD_LEFT else s2.twin.peerHold
    s2.finishFw r ACK_OK left

end Sys2Proof.Machine
end

