-- ==== Sys2Proof/Machine/Tick.lean ====
section
/-! DEFINITION. Sys2Proof/Machine/Tick.lean: the wingbeat tick and what every chip does at it (R27, R125, R127, R137, R147, R160, R198,
R200, R202, R304, R337).
(log entries of this file: DESIGN CHOICE 5, 117) -/

namespace Sys2Proof.Machine

/-- The wingbeat counts for a slice: it is stopped by neither a drain nor a quiesce (R147, R200). -/
def State.counts (s : State) (slice : Nat) : Bool := !(s.sliceStopped slice || s.sliceHeld slice)

/-- Counted wingbeats left for slots that have not landed (R147). -/
def State.tickCovers (s : State) : State :=
  { s with que := { s.que with laps := s.que.laps.map fun (l : Cover) =>
      { l with left := l.left - bit (s.counts (s.ctxSlice (s.queueCtx l.queue))) } } }

/-- The present wingbeat is one of the steps of a node of a bouquet (R200, R242). -/
def State.nodeStep (s : State) (handle node : Nat) : Bool :=
  match s.partOf handle with
  | some b => b.bq.steps.any fun st => st.node == node && s.stepDue b st
  | none => false

/-- Collectives and Skipper groups at the end of a wingbeat (R198, R200, R202). -/
def State.tickColl (s : State) : State :=
  { s with coll := { s.coll with
      nodes := s.coll.nodes.map fun (n : CollNode) =>
        tickNode n (s.counts n.slice) (match n.sched with | some (h, k) => s.nodeStep h k | none => false)
      groups := s.coll.groups.map fun (g : SkpGroup) => if s.counts g.slice then skpTick g else g } }

/-- What a manager chip does at a tick: silent counts, HOLD_LEFT, its heartbeat, and the delta of wingbeat `m` (R125, R127, R137). -/
def State.tickManager (s : State) (m : Wb) : State :=
  if s.isManagerChip then (((s.countSilence m).countHold m).sendBeat).sendDelta m else s

/-- Wingbeat `n` begins. -/
def State.tick (s : State) (n : Wb) : State :=
  let m := s.wb
  let s1 := s.tickCovers.tickColl.setFld F.FT_WB_NUM_NUM 0 n.toNat
  ((s1.freeHeld.sweepNodes.tickManager m).sendImagePieces).freshClaims

/-- WINGBEAT_TICK (R27): the counter has reached the start of the next wingbeat. -/
def execWingbeatTick (s : State) : Out :=
  act s fun s =>
    let n := s.wb + 1
    if s.time.based ∧ 0 ≤ (s.ftu - s.tickFtu n).toInt then s.tick n else s

/-- FTU in one operating hour: 3,600 s of 1,600,000,000 FTU. -/
def hourFtu : Nat := 5760000000000

/-- An operating hour has passed: Cocoon counts it, and INS_LIFE shows it while the part runs (log entry 5). -/
def State.countHour (s : State) : State :=
  let h := (s.cocoon.hours + 1) % 2 ^ 32
  let s1 := { s with cocoon := { s.cocoon with hours := h } }
  if s1.running then s1.setFld F.INS_LIFE_HOURS 0 h else s1

/-- One unit of fabric time passes (R36): the counter advances by 1 in every state in which the always-on domain runs and no POR is
held. -/
def State.passTime (s : State) : State :=
  if s.power.aonOn = false ∨ s.power.porHeld then s
  else
    let s1 := s.setReg .FT_COUNT 0 (s.ftu + 1)
    if s1.ftu.toNat % hourFtu = 0 then s1.countHour else s1

end Sys2Proof.Machine
end

