-- ==== Sys2Proof/Machine/Finish.lean ====
section
/-! DEFINITION. Sys2Proof/Machine/Finish.lean: how a running command comes to its final status, and its completion (R153 to R157, R197,
R201, R221, R264).
(log entries of this file: DEDUCED 46, 118) -/

namespace Sys2Proof.Machine

/-- A move ends when all it has issued has landed or failed, and it has issued everything or a quiesce has stopped it at a chunk
boundary (R111, R264). -/
def State.moveStatus (s : State) (r : RunCmd) : Option Nat :=
  if s.quiet r.queue r.index ∧ (r.stop ∨ (r.begun ∧ moveLen r ≤ r.issued)) then
    some (match firstFail r.fails with
      | some x => x.2
      | none => if moveLen r ≤ r.issued then ST_OK else ST_ABORT_STOP)
  else none

/-- A member's part in a variable exchange that is still in its count phase: no row has a place yet (R213, R216). -/
def State.counting (s : State) (r : RunCmd) : Bool :=
  s.coll.nodes.any fun (n : CollNode) => (dKind n.desc == 7 || dKind n.desc == 8) &&
    n.members.any fun m => m.queue == r.queue && m.index == r.index && decide ((xOf m).phase < 2)

/-- A collective ends at the chunk named for its early end once the chunks before it are final, or when every block is final
(R157, R197, R201, R221). -/
def State.collStatus (s : State) (r : RunCmd) : Option Nat :=
  if s.quiet r.queue r.index = false then none
  else
    let done := match r.lastChunk with | some k => k + 1 | none => 0
    let fail := (firstFail r.fails).map (·.2)
    match r.endAt with
    | some (k, st) => if k ≤ done ∨ fail.isSome then some (fail.getD st) else none
    | none =>
      if r.begun = false ∨ s.counting r then none
      else if r.pos = r.blocks.sum ∨ (fail.isSome ∧ r.own.2 - r.own.1 ≤ r.issued) then
        some (fail.getD (if 0 < r.drops then ST_DROPPED_CAPACITY else ST_OK))
      else none

/-- The final status of a running command, once it has one. -/
def State.finalStatus (s : State) (r : RunCmd) : Option Nat :=
  match r.ended with
  | some st => some st
  | none =>
    if r.opcode = 0x10 ∨ r.opcode = 0x11 then s.moveStatus r
    else if r.opcode = 0x01 then s.collStatus r
    else none

/-- The step of an OP command has ended, and its outputs have landed (R244). -/
def State.settleOp (s : State) (q i : Nat) : State :=
  match s.hawk.runs.find? fun (x : StepRun) => x.op == some (q, i) with
  | some x =>
    if s.quiet x.tag.1 x.tag.2 then
      let st := s.stepStatus x
      s.endOp x st (if st = ST_OK ∨ st = ST_INDEX_RANGE then 1 else 0)
    else s
  | none => s

/-- A DISPATCH whose rows have all landed writes ORIGIN and MASK before its record (R220). -/
def State.settleDispatch (s : State) (r : RunCmd) : State :=
  match s.coll.nodes.find? fun (n : CollNode) => dKind n.desc == 8 && n.members.any fun m => m.queue == r.queue && m.index == r.index with
  | some n =>
    match n.members.find? fun m => m.queue == r.queue && m.index == r.index with
    | some m => if m.x.isSome ∧ r.endAt = none then s.writeOrigins n m else s
    | none => s
  | none => s

/-- COMMAND_COMPLETE (R153, R154, R157). -/
def execCommandComplete (queue : Queue) (index : BitVec 32) (s : State) : Out :=
  act s fun s =>
    let q := queue.val
    let i := index.toNat
    let s1 := s.settleOp q i
    match s1.run q i with
    | none => s
    | some r =>
      match s1.finalStatus r with
      | some st => if s1.heldBy r then s else (s1.settleDispatch r).complete r st
      | none => s1

end Sys2Proof.Machine
end

