-- ==== Sys2Proof/Machine/Dispatch.lean ====
section
/-! DEFINITION. Sys2Proof/Machine/Dispatch.lean: one arm per command, each a call of its meaning. -/
namespace Sys2Proof.Machine

def exec (i : Instr) (s : State) : Host.Outcome State Fault Refusal :=
  match i with
  | .wingbeatTick => Sys2Proof.Machine.execWingbeatTick s
  | .budgetOverrun wing => Sys2Proof.Machine.execBudgetOverrun wing s
  | .wbLength r len => Sys2Proof.Machine.execWbLength r len s
  | .wbChangeReceive h c => Sys2Proof.Machine.execWbChangeReceive h c s
  | .wbChangeDecide => Sys2Proof.Machine.execWbChangeDecide s
  | .wbChangeQuery => Sys2Proof.Machine.execWbChangeQuery s
  | .wbChangeApply => Sys2Proof.Machine.execWbChangeApply s
  | .wbBaseReceive h b => Sys2Proof.Machine.execWbBaseReceive h b s
  | .timeSetSend l => Sys2Proof.Machine.execTimeSetSend l s
  | .timeSetReceive l t => Sys2Proof.Machine.execTimeSetReceive l t s
  | .lossOfUpstream => Sys2Proof.Machine.execLossOfUpstream s
  | .ppsInEdge => Sys2Proof.Machine.execPpsInEdge s
  | .ppsOutStart => Sys2Proof.Machine.execPpsOutStart s
  | .ppsOutEnd => Sys2Proof.Machine.execPpsOutEnd s
  | .portMode r port mode => Sys2Proof.Machine.execPortMode r port mode s
  | .lossOfLink l => Sys2Proof.Machine.execLossOfLink l s
  | .laneFail l lane => Sys2Proof.Machine.execLaneFail l lane s
  | .laneMapReceive port pairs echo => Sys2Proof.Machine.execLaneMapReceive port pairs echo s
  | .berWindowEnd port errs bits corrected uncorrectable => Sys2Proof.Machine.execBerWindowEnd port errs bits corrected uncorrectable s
  | .identSend l => Sys2Proof.Machine.execIdentSend l s
  | .identReceive l id => Sys2Proof.Machine.execIdentReceive l id s
  | .identTimeout l => Sys2Proof.Machine.execIdentTimeout l s
  | .qualPhase1End l errs bits => Sys2Proof.Machine.execQualPhase1End l errs bits s
  | .qualPhase2End l counts unc total => Sys2Proof.Machine.execQualPhase2End l counts unc total s
  | .qualReportReceive l pass => Sys2Proof.Machine.execQualReportReceive l pass s
  | .peerSilent l => Sys2Proof.Machine.execPeerSilent l s
  | .frozenSetReceive port => Sys2Proof.Machine.execFrozenSetReceive port s
  | .frozenSetStop port => Sys2Proof.Machine.execFrozenSetStop port s
  | .serviceFrameReceive port f => Sys2Proof.Machine.execServiceFrameReceive port f s
  | .bulkDatagramReceive port d tagOk => Sys2Proof.Machine.execBulkDatagramReceive port d tagOk s
  | .bulkMgmtDatagram port d tagOk => Sys2Proof.Machine.execBulkMgmtDatagram port d tagOk s
  | .bulkAckTimer port session => Sys2Proof.Machine.execBulkAckTimer port session s
  | .bulkResendTimeout port session => Sys2Proof.Machine.execBulkResendTimeout port session s
  | .flitReceive l word flit => Sys2Proof.Machine.execFlitReceive l word flit s
  | .packetForward l p => Sys2Proof.Machine.execPacketForward l p s
  | .packetDeliver src d p => Sys2Proof.Machine.execPacketDeliver src d p s
  | .creditWaitEscape out vc => Sys2Proof.Machine.execCreditWaitEscape out vc s
  | .creditWaitDrop out vc => Sys2Proof.Machine.execCreditWaitDrop out vc s
  | .creditAuditSend l => Sys2Proof.Machine.execCreditAuditSend l s
  | .creditAuditReceive l free => Sys2Proof.Machine.execCreditAuditReceive l free s
  | .edgeIngress port p => Sys2Proof.Machine.execEdgeIngress port p s
  | .ackSend unit chip peer ctx epoch => Sys2Proof.Machine.execAckSend unit chip peer ctx epoch s
  | .ackReceive unit p => Sys2Proof.Machine.execAckReceive unit p s
  | .resendTimeout unit chip peer ctx seq => Sys2Proof.Machine.execResendTimeout unit chip peer ctx seq s
  | .resendLimit unit chip peer ctx seq => Sys2Proof.Machine.execResendLimit unit chip peer ctx seq s
  | .linkLossReceive h chip port cause => Sys2Proof.Machine.execLinkLossReceive h chip port cause s
  | .tableWriteReceive h bank => Sys2Proof.Machine.execTableWriteReceive h bank s
  | .tableAckReceive h refused => Sys2Proof.Machine.execTableAckReceive h refused s
  | .stopReceive h slices wb => Sys2Proof.Machine.execStopReceive h slices wb s
  | .drainStopBoundary => Sys2Proof.Machine.execDrainStopBoundary s
  | .drainCountZero => Sys2Proof.Machine.execDrainCountZero s
  | .drainTimeout => Sys2Proof.Machine.execDrainTimeout s
  | .drainZeroReceive h => Sys2Proof.Machine.execDrainZeroReceive h s
  | .swapBroadcast => Sys2Proof.Machine.execSwapBroadcast s
  | .swapReceive h wb => Sys2Proof.Machine.execSwapReceive h wb s
  | .swapApply => Sys2Proof.Machine.execSwapApply s
  | .swapMissed => Sys2Proof.Machine.execSwapMissed s
  | .setRole r role => Sys2Proof.Machine.execSetRole r role s
  | .mgmtRepeat seq => Sys2Proof.Machine.execMgmtRepeat seq s
  | .nbrReportRepeat port => Sys2Proof.Machine.execNbrReportRepeat port s
  | .nbrReportReceive h port state id => Sys2Proof.Machine.execNbrReportReceive h port state id s
  | .nbrVerdictReceive h port isMatch => Sys2Proof.Machine.execNbrVerdictReceive h port isMatch s
  | .mapLoad r m => Sys2Proof.Machine.execMapLoad r m s
  | .adoptNeighbour r m => Sys2Proof.Machine.execAdoptNeighbour r m s
  | .mapUpdateReceive h piece pieces m => Sys2Proof.Machine.execMapUpdateReceive h piece pieces m s
  | .agentStatusSend => Sys2Proof.Machine.execAgentStatusSend s
  | .agentStatusReceive h version mapSeq ports => Sys2Proof.Machine.execAgentStatusReceive h version mapSeq ports s
  | .switchSilent chip => Sys2Proof.Machine.execSwitchSilent chip s
  | .faultReceive h m => Sys2Proof.Machine.execFaultReceive h m s
  | .routeRecomputeDone banks tree time => Sys2Proof.Machine.execRouteRecomputeDone banks tree time s
  | .sliceTableReceive h e => Sys2Proof.Machine.execSliceTableReceive h e s
  | .sliceCreate r slice flags members => Sys2Proof.Machine.execSliceCreate r slice flags members s
  | .sliceMembers r slice flags members ran => Sys2Proof.Machine.execSliceMembers r slice flags members ran s
  | .sliceQuiesce r slice ahead => Sys2Proof.Machine.execSliceQuiesce r slice ahead s
  | .quiesceBoundary slice => Sys2Proof.Machine.execQuiesceBoundary slice s
  | .sliceQuiesced slice => Sys2Proof.Machine.execSliceQuiesced slice s
  | .quiesceTimeout slice => Sys2Proof.Machine.execQuiesceTimeout slice s
  | .sliceResume r slice ahead => Sys2Proof.Machine.execSliceResume r slice ahead s
  | .sliceSeal r slice tenant reports => Sys2Proof.Machine.execSliceSeal r slice tenant reports s
  | .sealBoundary slice => Sys2Proof.Machine.execSealBoundary slice s
  | .sliceDestroy r slice => Sys2Proof.Machine.execSliceDestroy r slice s
  | .switchIn r chip => Sys2Proof.Machine.execSwitchIn r chip s
  | .switchOut r chip bound => Sys2Proof.Machine.execSwitchOut r chip bound s
  | .planExport r owner shape x y z dest destLen plan => Sys2Proof.Machine.execPlanExport r owner shape x y z dest destLen plan s
  | .planPrepare r id => Sys2Proof.Machine.execPlanPrepare r id s
  | .planApplied r id => Sys2Proof.Machine.execPlanApplied r id s
  | .planCancel r id => Sys2Proof.Machine.execPlanCancel r id s
  | .routeStatus r => Sys2Proof.Machine.execRouteStatus r s
  | .epDiscoverSend port => Sys2Proof.Machine.execEpDiscoverSend port s
  | .epIdentityReceive port device window features => Sys2Proof.Machine.execEpIdentityReceive port device window features s
  | .epHeartbeatReceive port wb => Sys2Proof.Machine.execEpHeartbeatReceive port wb s
  | .endpointSilent port => Sys2Proof.Machine.execEndpointSilent port s
  | .epochAckReceive port ctx epoch => Sys2Proof.Machine.execEpochAckReceive port ctx epoch s
  | .heartbeatReceive h twin b => Sys2Proof.Machine.execHeartbeatReceive h twin b s
  | .fenceOnSilence => Sys2Proof.Machine.execFenceOnSilence s
  | .managerListenEnd => Sys2Proof.Machine.execManagerListenEnd s
  | .startProbeEnd => Sys2Proof.Machine.execStartProbeEnd s
  | .epochProbeReceive h => Sys2Proof.Machine.execEpochProbeReceive h s
  | .epochReplyReceive h highest mgrChip version mapSeq ports => Sys2Proof.Machine.execEpochReplyReceive h highest mgrChip version mapSeq ports s
  | .stateDeltaReceive h forWb piece pieces fmtOk recs => Sys2Proof.Machine.execStateDeltaReceive h forWb piece pieces fmtOk recs s
  | .snapshotReceive h forWb piece pieces fmtOk recs => Sys2Proof.Machine.execSnapshotReceive h forWb piece pieces fmtOk recs s
  | .snapshotStart => Sys2Proof.Machine.execSnapshotStart s
  | .snapReqReceive h => Sys2Proof.Machine.execSnapReqReceive h s
  | .shadowUnsync => Sys2Proof.Machine.execShadowUnsync s
  | .deltaAckReceive h forWb => Sys2Proof.Machine.execDeltaAckReceive h forWb s
  | .deltaAckTimeout => Sys2Proof.Machine.execDeltaAckTimeout s
  | .takeover => Sys2Proof.Machine.execTakeover s
  | .takeoverReceive h epoch chip fromWb => Sys2Proof.Machine.execTakeoverReceive h epoch chip fromWb s
  | .fencedProbe => Sys2Proof.Machine.execFencedProbe s
  | .reclaimDecide => Sys2Proof.Machine.execReclaimDecide s
  | .holdLeftZero => Sys2Proof.Machine.execHoldLeftZero s
  | .takebackReceive h t ack => Sys2Proof.Machine.execTakebackReceive h t ack s
  | .takebackTimeout => Sys2Proof.Machine.execTakebackTimeout s
  | .takebackHandover => Sys2Proof.Machine.execTakebackHandover s
  | .takebackComplete => Sys2Proof.Machine.execTakebackComplete s
  | .revertCtl r hold => Sys2Proof.Machine.execRevertCtl r hold s
  | .ctxCreate r slice ctx events flags tenant => Sys2Proof.Machine.execCtxCreate r slice ctx events flags tenant s
  | .ctxBind r ctx port rank winRead winWrite => Sys2Proof.Machine.execCtxBind r ctx port rank winRead winWrite s
  | .ctxUnbind r ctx port => Sys2Proof.Machine.execCtxUnbind r ctx port s
  | .ctxReset r ctx => Sys2Proof.Machine.execCtxReset r ctx s
  | .ctxDestroy r ctx => Sys2Proof.Machine.execCtxDestroy r ctx s
  | .contextResetBoundary ctx => Sys2Proof.Machine.execContextResetBoundary ctx s
  | .contextResetRelease ctx => Sys2Proof.Machine.execContextResetRelease ctx s
  | .queue r queue ctx op ringLog cqLog ringBase cqBase => Sys2Proof.Machine.execQueue r queue ctx op ringLog cqLog ringBase cqBase s
  | .channel r wing chan ctx release => Sys2Proof.Machine.execChannel r wing chan ctx release s
  | .pageGrant r ctx perm count first tenant => Sys2Proof.Machine.execPageGrant r ctx perm count first tenant s
  | .grantZerofillDone ctx => Sys2Proof.Machine.execGrantZerofillDone ctx s
  | .pageUngrant r ctx count first => Sys2Proof.Machine.execPageUngrant r ctx count first s
  | .frameScrubDone wing => Sys2Proof.Machine.execFrameScrubDone wing s
  | .skipGroup r group slice slip flags ranks => Sys2Proof.Machine.execSkipGroup r group slice slip flags ranks s
  | .dbSubmit src queue index => Sys2Proof.Machine.execDbSubmit src queue index s
  | .dbCqHead src queue index => Sys2Proof.Machine.execDbCqHead src queue index s
  | .dbResume src queue index => Sys2Proof.Machine.execDbResume src queue index s
  | .commandStart queue => Sys2Proof.Machine.execCommandStart queue s
  | .lapReread queue => Sys2Proof.Machine.execLapReread queue s
  | .lapTimeout queue => Sys2Proof.Machine.execLapTimeout queue s
  | .nop queue index => Sys2Proof.Machine.execNop queue index s
  | .coll queue index remote => Sys2Proof.Machine.execColl queue index remote s
  | .skip queue index remote => Sys2Proof.Machine.execSkip queue index remote s
  | .poolRead queue index => Sys2Proof.Machine.execPoolRead queue index s
  | .poolWrite queue index => Sys2Proof.Machine.execPoolWrite queue index s
  | .dma queue index remote => Sys2Proof.Machine.execDma queue index remote s
  | .op queue index remote => Sys2Proof.Machine.execOp queue index remote s
  | .wait queue index => Sys2Proof.Machine.execWait queue index s
  | .signal queue index => Sys2Proof.Machine.execSignal queue index s
  | .fence queue index => Sys2Proof.Machine.execFence queue index s
  | .fenceComplete queue index => Sys2Proof.Machine.execFenceComplete queue index s
  | .commandComplete queue index => Sys2Proof.Machine.execCommandComplete queue index s
  | .grantReceive unit p addr len fmt => Sys2Proof.Machine.execGrantReceive unit p addr len fmt s
  | .grantRequestReceive unit p desc count => Sys2Proof.Machine.execGrantRequestReceive unit p desc count s
  | .grantRefuseReceive unit p => Sys2Proof.Machine.execGrantRefuseReceive unit p s
  | .grantRepeat node => Sys2Proof.Machine.execGrantRepeat node s
  | .slotAssign node => Sys2Proof.Machine.execSlotAssign node s
  | .collUpReceive unit p tags => Sys2Proof.Machine.execCollUpReceive unit p tags s
  | .chunkReduceComplete node chunk check => Sys2Proof.Machine.execChunkReduceComplete node chunk check s
  | .collDownReceive unit p => Sys2Proof.Machine.execCollDownReceive unit p s
  | .nodeSlotsObtained node => Sys2Proof.Machine.execNodeSlotsObtained node s
  | .spill node => Sys2Proof.Machine.execSpill node s
  | .spillGiveUp node => Sys2Proof.Machine.execSpillGiveUp node s
  | .chunkSlip node dst chunk => Sys2Proof.Machine.execChunkSlip node dst chunk s
  | .chunkAbort node dst chunk => Sys2Proof.Machine.execChunkAbort node dst chunk s
  | .resultTimeout node chunk => Sys2Proof.Machine.execResultTimeout node chunk s
  | .skipperReceive unit p => Sys2Proof.Machine.execSkipperReceive unit p s
  | .skipperRepeat group height gen => Sys2Proof.Machine.execSkipperRepeat group height gen s
  | .bqLoad r slice image => Sys2Proof.Machine.execBqLoad r slice image s
  | .bqLoadCheck h m => Sys2Proof.Machine.execBqLoadCheck h m s
  | .bqLoadTimeout load => Sys2Proof.Machine.execBqLoadTimeout load s
  | .bqCommitReceive h load go remote => Sys2Proof.Machine.execBqCommitReceive h load go remote s
  | .bqStart handle remote => Sys2Proof.Machine.execBqStart handle remote s
  | .stepRun handle step remote => Sys2Proof.Machine.execStepRun handle step remote s
  | .stepComplete handle step => Sys2Proof.Machine.execStepComplete handle step s
  | .opStepStart queue index remote => Sys2Proof.Machine.execOpStepStart queue index remote s
  | .opNoFit queue index => Sys2Proof.Machine.execOpNoFit queue index s
  | .bqUnload r handle => Sys2Proof.Machine.execBqUnload r handle s
  | .bqUnloadBoundary handle u => Sys2Proof.Machine.execBqUnloadBoundary handle u s
  | .bqUnloadRelease handle => Sys2Proof.Machine.execBqUnloadRelease handle s
  | .bqStatus r handle => Sys2Proof.Machine.execBqStatus r handle s
  | .tileReload handle node core remote => Sys2Proof.Machine.execTileReload handle node core remote s
  | .poolWriteRequest wing p => Sys2Proof.Machine.execPoolWriteRequest wing p s
  | .poolReadRequest wing p => Sys2Proof.Machine.execPoolReadRequest wing p s
  | .readRespReceive unit p => Sys2Proof.Machine.execReadRespReceive unit p s
  | .windowRequest port p => Sys2Proof.Machine.execWindowRequest port p s
  | .refusalMarkerSend port => Sys2Proof.Machine.execRefusalMarkerSend port s
  | .windowEntryFree port => Sys2Proof.Machine.execWindowEntryFree port s
  | .eccCorrected frame => Sys2Proof.Machine.execEccCorrected frame s
  | .eccUncorrectable frame sector data => Sys2Proof.Machine.execEccUncorrectable frame sector data s
  | .retireCopyDone wing => Sys2Proof.Machine.execRetireCopyDone wing s
  | .retireThreshold r n => Sys2Proof.Machine.execRetireThreshold r n s
  | .atlBufferGrant wing chan remote => Sys2Proof.Machine.execAtlBufferGrant wing chan remote s
  | .descriptorFinish wing chan remote => Sys2Proof.Machine.execDescriptorFinish wing chan remote s
  | .descriptorRefused wing chan remote => Sys2Proof.Machine.execDescriptorRefused wing chan remote s
  | .atlStop owner wing chan => Sys2Proof.Machine.execAtlStop owner wing chan s
  | .atsGo owner chan => Sys2Proof.Machine.execAtsGo owner chan s
  | .atsStop owner chan => Sys2Proof.Machine.execAtsStop owner chan s
  | .atsFence owner chan => Sys2Proof.Machine.execAtsFence owner chan s
  | .atsChannelServe => Sys2Proof.Machine.execAtsChannelServe s
  | .atsRingRoom chan => Sys2Proof.Machine.execAtsRingRoom chan s
  | .atsChLockRead owner chan => Sys2Proof.Machine.execAtsChLockRead owner chan s
  | .atsChLockRelease owner chan value => Sys2Proof.Machine.execAtsChLockRelease owner chan value s
  | .hostResponseReceive port good f => Sys2Proof.Machine.execHostResponseReceive port good f s
  | .hostTimeout port => Sys2Proof.Machine.execHostTimeout port s
  | .attest r slice nonce => Sys2Proof.Machine.execAttest r slice nonce s
  | .certChain r => Sys2Proof.Machine.execCertChain r s
  | .measureRead r first => Sys2Proof.Machine.execMeasureRead r first s
  | .keyDeliver r slice ct iv wrapped policy => Sys2Proof.Machine.execKeyDeliver r slice ct iv wrapped policy s
  | .kemKeyExpire slice => Sys2Proof.Machine.execKemKeyExpire slice s
  | .sealIntervalEnd l => Sys2Proof.Machine.execSealIntervalEnd l s
  | .sealSetSend l => Sys2Proof.Machine.execSealSetSend l s
  | .sealSetReceive l t => Sys2Proof.Machine.execSealSetReceive l t s
  | .sealSetTimeout l => Sys2Proof.Machine.execSealSetTimeout l s
  | .antSignalDetect port => Sys2Proof.Machine.execAntSignalDetect port s
  | .antFecAlign port => Sys2Proof.Machine.execAntFecAlign port s
  | .antTrainTimeout port => Sys2Proof.Machine.execAntTrainTimeout port s
  | .antLoss port lanes => Sys2Proof.Machine.execAntLoss port lanes s
  | .antInitSend port => Sys2Proof.Machine.execAntInitSend port s
  | .antInitReceive port good ack role version maxOut => Sys2Proof.Machine.execAntInitReceive port good ack role version maxOut s
  | .antRead port good silent bad f => Sys2Proof.Machine.execAntRead port good silent bad f s
  | .antWrite port good silent took f => Sys2Proof.Machine.execAntWrite port good silent took f s
  | .antMbxSend port good f => Sys2Proof.Machine.execAntMbxSend port good f s
  | .antLinkAck port good ack => Sys2Proof.Machine.execAntLinkAck port good ack s
  | .antLinkNak port good ack => Sys2Proof.Machine.execAntLinkNak port good ack s
  | .antReplayTimeout port => Sys2Proof.Machine.execAntReplayTimeout port s
  | .antLinkAckSend port => Sys2Proof.Machine.execAntLinkAckSend port s
  | .antRetrain owner port => Sys2Proof.Machine.execAntRetrain owner port s
  | .eventFrameSend port => Sys2Proof.Machine.execEventFrameSend port s
  | .ownerRestart owner => Sys2Proof.Machine.execOwnerRestart owner s
  | .ctlSemRead owner => Sys2Proof.Machine.execCtlSemRead owner s
  | .ctlSemRelease owner value => Sys2Proof.Machine.execCtlSemRelease owner value s
  | .mbxLockRead owner n => Sys2Proof.Machine.execMbxLockRead owner n s
  | .mbxLockRelease owner n value => Sys2Proof.Machine.execMbxLockRelease owner n value s
  | .mbxPost owner n word dest => Sys2Proof.Machine.execMbxPost owner n word dest s
  | .mbxAcknowledge owner n code => Sys2Proof.Machine.execMbxAcknowledge owner n code s
  | .doorbellFrameSend port => Sys2Proof.Machine.execDoorbellFrameSend port s
  | .fwCommandAccept mbx fetched => Sys2Proof.Machine.execFwCommandAccept mbx fetched s
  | .resultPost r => Sys2Proof.Machine.execResultPost r s
  | .fwStage r cls image => Sys2Proof.Machine.execFwStage r cls image s
  | .fwBroadcast r cls => Sys2Proof.Machine.execFwBroadcast r cls s
  | .fwBroadcastTimeout => Sys2Proof.Machine.execFwBroadcastTimeout s
  | .fwOfferReceive h cls build bytes pieces digest => Sys2Proof.Machine.execFwOfferReceive h cls build bytes pieces digest s
  | .fwPieceReceive h piece build data verdict => Sys2Proof.Machine.execFwPieceReceive h piece build data verdict s
  | .fwNeedReceive h build first count => Sys2Proof.Machine.execFwNeedReceive h build first count s
  | .fwResultReceive h build result => Sys2Proof.Machine.execFwResultReceive h build result s
  | .fwStatus r => Sys2Proof.Machine.execFwStatus r s
  | .fwRestart r => Sys2Proof.Machine.execFwRestart r s
  | .portQualify r port time => Sys2Proof.Machine.execPortQualify r port time s
  | .portReset r port twin => Sys2Proof.Machine.execPortReset r port twin s
  | .portQuarantine r port => Sys2Proof.Machine.execPortQuarantine r port s
  | .serviceCfg r port prio vlan ipv6 => Sys2Proof.Machine.execServiceCfg r port prio vlan ipv6 s
  | .sessionOpen r port flags ctx session peer key tenant => Sys2Proof.Machine.execSessionOpen r port flags ctx session peer key tenant s
  | .sessionClose r port session => Sys2Proof.Machine.execSessionClose r port session s
  | .resetWarm r => Sys2Proof.Machine.execResetWarm r s
  | .resetCompute r => Sys2Proof.Machine.execResetCompute r s
  | .resetRole r => Sys2Proof.Machine.execResetRole r s
  | .computeResetBoundary => Sys2Proof.Machine.execComputeResetBoundary s
  | .computeResetReady => Sys2Proof.Machine.execComputeResetReady s
  | .managerWatchdog => Sys2Proof.Machine.execManagerWatchdog s
  | .powerActive r mask => Sys2Proof.Machine.execPowerActive r mask s
  | .powerDoze r mask => Sys2Proof.Machine.execPowerDoze r mask s
  | .powerSleep r mask => Sys2Proof.Machine.execPowerSleep r mask s
  | .powerDeep r mask => Sys2Proof.Machine.execPowerDeep r mask s
  | .forwardOnlyEnter r => Sys2Proof.Machine.execForwardOnlyEnter r s
  | .forwardOnlyLeave r => Sys2Proof.Machine.execForwardOnlyLeave r s
  | .fwdOnlyContextReset => Sys2Proof.Machine.execFwdOnlyContextReset s
  | .fwdOnlyHalt => Sys2Proof.Machine.execFwdOnlyHalt s
  | .escalation r ctxResets ctxWindow chipResets chipWindow computeResets computeWindow => Sys2Proof.Machine.execEscalation r ctxResets ctxWindow chipResets chipWindow computeResets computeWindow s
  | .counters r group => Sys2Proof.Machine.execCounters r group s
  | .comparatorFire n => Sys2Proof.Machine.execComparatorFire n s
  | .comparatorClear n => Sys2Proof.Machine.execComparatorClear n s
  | .hardwareTrip => Sys2Proof.Machine.execHardwareTrip s
  | .powerMeasure watts vin temp => Sys2Proof.Machine.execPowerMeasure watts vin temp s
  | .powerLimit => Sys2Proof.Machine.execPowerLimit s
  | .firmwareWatchdogLimit stuck => Sys2Proof.Machine.execFirmwareWatchdogLimit stuck s
  | .unitFailed kind wing logical cause row => Sys2Proof.Machine.execUnitFailed kind wing logical cause row s
  | .defectCommit => Sys2Proof.Machine.execDefectCommit s
  | .spareTakeover => Sys2Proof.Machine.execSpareTakeover s
  | .essentialUnitFail kind wing => Sys2Proof.Machine.execEssentialUnitFail kind wing s
  | .defectRead r first => Sys2Proof.Machine.execDefectRead r first s
  | .spareStatus r => Sys2Proof.Machine.execSpareStatus r s
  | .wingStatus r => Sys2Proof.Machine.execWingStatus r s
  | .persistWrite => Sys2Proof.Machine.execPersistWrite s
  | .silCursorWrite owner value => Sys2Proof.Machine.execSilCursorWrite owner value s
  | .silWindow7AutoRead owner => Sys2Proof.Machine.execSilWindow7AutoRead owner s
  | .silClear r => Sys2Proof.Machine.execSilClear r s
  | .silConfig r frames minSeverity => Sys2Proof.Machine.execSilConfig r frames minSeverity s
  | .freezePin => Sys2Proof.Machine.execFreezePin s
  | .chrFreeze r => Sys2Proof.Machine.execChrFreeze r s
  | .chrArm r flags cmpMask source code severity delay => Sys2Proof.Machine.execChrArm r flags cmpMask source code severity delay s
  | .freezeDelayEnd => Sys2Proof.Machine.execFreezeDelayEnd s
  | .chrStart owner => Sys2Proof.Machine.execChrStart owner s
  | .chrNext owner half => Sys2Proof.Machine.execChrNext owner half s
  | .chrRelease owner => Sys2Proof.Machine.execChrRelease owner s
  | .readoutHalfReady half secs last => Sys2Proof.Machine.execReadoutHalfReady half secs last s
  | .readoutHang sec => Sys2Proof.Machine.execReadoutHang sec s
  | .acdSliceClear owner slice => Sys2Proof.Machine.execAcdSliceClear owner slice s
  | .registerWrite owner addr value => Sys2Proof.Machine.execRegisterWrite owner addr value s
  | .porAssert powerUp => Sys2Proof.Machine.execPorAssert powerUp s
  | .resetRelease ok x => Sys2Proof.Machine.execResetRelease ok x s
  | .warmAssert => Sys2Proof.Machine.execWarmAssert s
  | .warmRelease busOk x => Sys2Proof.Machine.execWarmRelease busOk x s
  | .vinLoss => Sys2Proof.Machine.execVinLoss s
  | .sysclkLoss => Sys2Proof.Machine.execSysclkLoss s
  | .srefclkLoss k => Sys2Proof.Machine.execSrefclkLoss k s
  | .debugExtest hold x => Sys2Proof.Machine.execDebugExtest hold x s
  | .stage1Done pufOk certOk deviceId bad => Sys2Proof.Machine.execStage1Done pufOk certOk deviceId bad s
  | .stage2Done romOk rows => Sys2Proof.Machine.execStage2Done romOk rows s
  | .insGoFirmware owner value => Sys2Proof.Machine.execInsGoFirmware owner value s
  | .stage3Done verdict build => Sys2Proof.Machine.execStage3Done verdict build s
  | .insGoStartTest owner value => Sys2Proof.Machine.execInsGoStartTest owner value s
  | .stage4Done t => Sys2Proof.Machine.execStage4Done t s
  | .insGoHbm owner value => Sys2Proof.Machine.execInsGoHbm owner value s
  | .stage5Done busOk stack frames => Sys2Proof.Machine.execStage5Done busOk stack frames s
  | .insGoPorts owner value => Sys2Proof.Machine.execInsGoPorts owner value s
  | .stage6End => Sys2Proof.Machine.execStage6End s
  | .insGoRole owner value => Sys2Proof.Machine.execInsGoRole owner value s
  | .insGoTime owner value => Sys2Proof.Machine.execInsGoTime owner value s
  | .stage7Done => Sys2Proof.Machine.execStage7Done s
  | .imagoCheck advancing => Sys2Proof.Machine.execImagoCheck advancing s
  | .instarStageTimeout => Sys2Proof.Machine.execInstarStageTimeout s
  | .laneLock l bad => Sys2Proof.Machine.execLaneLock l bad s
  | .sysclkReturn x => Sys2Proof.Machine.execSysclkReturn x s
  | .srefclkReturn k => Sys2Proof.Machine.execSrefclkReturn k s

end Sys2Proof.Machine
end

