-- ==== Sys2Proof/WellFormed.lean ====
section
/-! DEFINITION. Sys2Proof/WellFormed.lean: which commands can come to the part: the operands whose types are wider than the fields of
the spec's tables keep to the widths and counts those tables give. No meaning asks for it: a command that is not
well-formed is one that the part's inputs cannot spell. -/

namespace Sys2Proof

/-- MGR_EPOCH and MSG_SEQ have four bytes each (Table 5.1). -/
def MsgHdr.wf (h : MsgHdr) : Bool := decide (h.epoch < 2 ^ 32) && decide (h.seq < 2 ^ 32)

/-- PATH has room for 12 hop bytes; a packet has PAY_FLITS payload flits of 64 bytes, fewer where it is truncated (Table 4.2,
R82). -/
def Packet.wf (p : Packet) : Bool :=
  decide (p.path.length ≤ 12) && decide (p.payload.length ≤ 64 * p.payFlits.val)
    && (p.truncated || p.payload.length == 64 * p.payFlits.val)

/-- LENGTH has four bytes, and a frame of 65 units holds at most 4,160 bytes (R310, Table 15.2). -/
def AntFrame.wf (f : AntFrame) : Bool := decide (f.len < 2 ^ 32) && decide (f.data.length ≤ 4160)

/-- LENGTH has four bytes, and a datagram carries at most 8,192 bytes (Table 3.8, R63). -/
def BulkDgram.wf (d : BulkDgram) : Bool := decide (d.len < 2 ^ 32) && decide (d.data.length ≤ 8192)

/-- An Ethernet frame has at least 64 bytes. -/
def EthFrame.wf (f : EthFrame) : Bool := decide (64 ≤ f.len)

/-- KIND, DIE and UNIT of a section have one byte each, INDEX and SLICE two (R390). -/
def DumpSec.wf (x : DumpSec) : Bool :=
  decide (x.kind < 256) && decide (x.die < 256)
  && decide (x.unit < 256) && decide (x.index < 65536) && decide (x.slice < 1024)

/-- An answer to a read names a status code of 8 bits (Table 0.4). -/
def RemoteRead.wf (x : RemoteRead) : Bool := decide (x.status < 256)

/-- The start test reports on the four wings. -/
def StartTest.wf (t : StartTest) : Bool := t.units.length == 4 && t.lsMin.length == 4

/-- A piece of a message is one of its pieces. -/
def pieceOk (piece pieces : Nat) : Bool := decide (piece < pieces) && decide (pieces < 2 ^ 32)

/-- Frames of the pool: 884,736, and the reserve frames above them (R266, R413). -/
def frameLimit : Nat := 884736 + 12288

/-- The command is one that the part's inputs can spell. -/
def Instr.wf (i : Instr) : Bool :=
  match i with
  | .wbChangeReceive h _ => h.wf
  | .wbBaseReceive h _ => h.wf
  | .laneMapReceive _ pairs _ => pairs.length == 4
  | .berWindowEnd _ errs _ _ _ => errs.length == 8
  | .qualPhase1End _ errs _ => errs.length == 8
  | .serviceFrameReceive _ f => f.wf
  | .bulkDatagramReceive _ d _ => d.wf
  | .bulkMgmtDatagram _ d _ => d.wf
  | .flitReceive _ _ flit => flit.length == 64
  | .packetForward _ p => p.wf
  | .packetDeliver _ _ p => p.wf
  | .creditAuditReceive _ free => free.length == 8 && free.all (· < 65536)
  | .edgeIngress _ p => p.wf
  | .ackReceive _ p => p.wf
  | .linkLossReceive h _ _ _ => h.wf
  | .tableWriteReceive h _ => h.wf
  | .tableAckReceive h _ => h.wf
  | .stopReceive h _ _ => h.wf
  | .drainZeroReceive h => h.wf
  | .swapReceive h _ => h.wf
  | .nbrReportReceive h _ _ _ => h.wf
  | .nbrVerdictReceive h _ _ => h.wf
  | .mapUpdateReceive h piece pieces _ => h.wf && pieceOk piece pieces
  | .agentStatusReceive h _ _ ports => h.wf && ports.length == 128
  | .faultReceive h _ => h.wf
  | .sliceTableReceive h _ => h.wf
  | .heartbeatReceive h _ _ => h.wf
  | .epochProbeReceive h => h.wf
  | .epochReplyReceive h _ _ _ _ ports => h.wf && ports.length == 128
  | .stateDeltaReceive h _ piece pieces _ _ => h.wf && pieceOk piece pieces
  | .snapshotReceive h _ piece pieces _ _ => h.wf && pieceOk piece pieces
  | .snapReqReceive h => h.wf
  | .deltaAckReceive h _ => h.wf
  | .takeoverReceive h epoch _ _ => h.wf && decide (epoch < 2 ^ 32)
  | .takebackReceive h _ _ => h.wf
  | .ctxCreate _ _ _ events _ _ => decide (events ≤ 65536)
  | .coll _ _ remote => remote.all RemoteRead.wf
  | .skip _ _ remote => remote.all RemoteRead.wf
  | .dma _ _ remote => remote.all RemoteRead.wf
  | .op _ _ remote => remote.all RemoteRead.wf
  | .grantReceive _ p addr len _ => p.wf && decide (addr < 2 ^ 64) && decide (len < 2 ^ 32)
  | .grantRequestReceive _ p _ count => p.wf && decide (count < 2 ^ 32)
  | .grantRefuseReceive _ p => p.wf
  | .collUpReceive _ p _ => p.wf
  | .collDownReceive _ p => p.wf
  | .skipperReceive _ p => p.wf
  | .bqLoadCheck h _ => h.wf
  | .bqCommitReceive h _ _ remote => h.wf && remote.all RemoteRead.wf
  | .bqStart _ remote => remote.all RemoteRead.wf
  | .stepRun _ _ remote => remote.all RemoteRead.wf
  | .opStepStart _ _ remote => remote.all RemoteRead.wf
  | .tileReload _ _ _ remote => remote.all RemoteRead.wf
  | .poolWriteRequest _ p => p.wf
  | .poolReadRequest _ p => p.wf
  | .readRespReceive _ p => p.wf
  | .windowRequest _ p => p.wf
  | .eccCorrected frame => decide (frame < frameLimit)
  | .eccUncorrectable frame _ data => decide (frame < frameLimit) && data.length == 512
  | .atlBufferGrant _ _ remote => remote.all RemoteRead.wf
  | .descriptorFinish _ _ remote => remote.all RemoteRead.wf
  | .descriptorRefused _ _ remote => remote.all RemoteRead.wf
  | .hostResponseReceive _ _ f => f.wf
  | .antRead _ _ _ _ f => f.wf
  | .antWrite _ _ _ _ f => f.wf
  | .antMbxSend _ _ f => f.wf
  | .fwCommandAccept _ fetched => decide (fetched.length ≤ 65536)
  | .fwOfferReceive h _ _ bytes pieces _ => h.wf && decide (bytes ≤ 25165824) && pieces == (bytes + 4031) / 4032
  | .fwPieceReceive h piece _ data _ => h.wf && decide (piece < 6242) && data.length == 4032
  | .fwNeedReceive h _ first count => h.wf && decide (first + count ≤ 6242)
  | .fwResultReceive h _ _ => h.wf
  | .readoutHalfReady _ secs _ => secs.all DumpSec.wf
  | .readoutHang sec => sec.wf
  | .stage1Done _ _ _ bad => decide bad.Nodup
  | .stage4Done t => t.wf
  | .stage5Done _ _ frames => decide frames.Nodup
  | .laneLock _ bad => decide bad.Nodup
  | .wingbeatTick .. | .budgetOverrun .. | .wbLength .. | .wbChangeDecide .. | .wbChangeQuery .. | .wbChangeApply ..
  | .timeSetSend .. | .timeSetReceive .. | .lossOfUpstream .. | .ppsInEdge .. | .ppsOutStart .. | .ppsOutEnd ..
  | .portMode .. | .lossOfLink .. | .laneFail .. | .identSend .. | .identReceive .. | .identTimeout ..
  | .qualPhase2End .. | .qualReportReceive .. | .peerSilent .. | .frozenSetReceive .. | .frozenSetStop ..
  | .bulkAckTimer .. | .bulkResendTimeout .. | .creditWaitEscape .. | .creditWaitDrop .. | .creditAuditSend ..
  | .ackSend .. | .resendTimeout .. | .resendLimit .. | .drainStopBoundary .. | .drainCountZero .. | .drainTimeout ..
  | .swapBroadcast .. | .swapApply .. | .swapMissed .. | .setRole .. | .mgmtRepeat .. | .nbrReportRepeat ..
  | .mapLoad .. | .adoptNeighbour .. | .agentStatusSend .. | .switchSilent .. | .routeRecomputeDone ..
  | .sliceCreate .. | .sliceMembers .. | .sliceQuiesce .. | .quiesceBoundary .. | .sliceQuiesced ..
  | .quiesceTimeout .. | .sliceResume .. | .sliceSeal .. | .sealBoundary .. | .sliceDestroy .. | .switchIn ..
  | .switchOut .. | .planExport .. | .planPrepare .. | .planApplied .. | .planCancel .. | .routeStatus ..
  | .epDiscoverSend .. | .epIdentityReceive .. | .epHeartbeatReceive .. | .endpointSilent .. | .epochAckReceive ..
  | .fenceOnSilence .. | .managerListenEnd .. | .startProbeEnd .. | .snapshotStart .. | .shadowUnsync ..
  | .deltaAckTimeout .. | .takeover .. | .fencedProbe .. | .reclaimDecide .. | .holdLeftZero .. | .takebackTimeout ..
  | .takebackHandover .. | .takebackComplete .. | .revertCtl .. | .ctxBind .. | .ctxUnbind .. | .ctxReset ..
  | .ctxDestroy .. | .contextResetBoundary .. | .contextResetRelease .. | .queue .. | .channel .. | .pageGrant ..
  | .grantZerofillDone .. | .pageUngrant .. | .frameScrubDone .. | .skipGroup .. | .dbSubmit .. | .dbCqHead ..
  | .dbResume .. | .commandStart .. | .lapReread .. | .lapTimeout .. | .nop .. | .poolRead .. | .poolWrite ..
  | .wait .. | .signal .. | .fence .. | .fenceComplete .. | .commandComplete .. | .grantRepeat .. | .slotAssign ..
  | .chunkReduceComplete .. | .nodeSlotsObtained .. | .spill .. | .spillGiveUp .. | .chunkSlip .. | .chunkAbort ..
  | .resultTimeout .. | .skipperRepeat .. | .bqLoad .. | .bqLoadTimeout .. | .stepComplete .. | .opNoFit ..
  | .bqUnload .. | .bqUnloadBoundary .. | .bqUnloadRelease .. | .bqStatus .. | .refusalMarkerSend ..
  | .windowEntryFree .. | .retireCopyDone .. | .retireThreshold .. | .atlStop .. | .atsGo .. | .atsStop ..
  | .atsFence .. | .atsChannelServe .. | .atsRingRoom .. | .atsChLockRead .. | .atsChLockRelease .. | .hostTimeout ..
  | .attest .. | .certChain .. | .measureRead .. | .keyDeliver .. | .kemKeyExpire .. | .sealIntervalEnd ..
  | .sealSetSend .. | .sealSetReceive .. | .sealSetTimeout .. | .antSignalDetect .. | .antFecAlign ..
  | .antTrainTimeout .. | .antLoss .. | .antInitSend .. | .antInitReceive .. | .antLinkAck .. | .antLinkNak ..
  | .antReplayTimeout .. | .antLinkAckSend .. | .antRetrain .. | .eventFrameSend .. | .ownerRestart ..
  | .ctlSemRead .. | .ctlSemRelease .. | .mbxLockRead .. | .mbxLockRelease .. | .mbxPost .. | .mbxAcknowledge ..
  | .doorbellFrameSend .. | .resultPost .. | .fwStage .. | .fwBroadcast .. | .fwBroadcastTimeout .. | .fwStatus ..
  | .fwRestart .. | .portQualify .. | .portReset .. | .portQuarantine .. | .serviceCfg .. | .sessionOpen ..
  | .sessionClose .. | .resetWarm .. | .resetCompute .. | .resetRole .. | .computeResetBoundary ..
  | .computeResetReady .. | .managerWatchdog .. | .powerActive .. | .powerDoze .. | .powerSleep .. | .powerDeep ..
  | .forwardOnlyEnter .. | .forwardOnlyLeave .. | .fwdOnlyContextReset .. | .fwdOnlyHalt .. | .escalation ..
  | .counters .. | .comparatorFire .. | .comparatorClear .. | .hardwareTrip .. | .powerMeasure .. | .powerLimit ..
  | .firmwareWatchdogLimit .. | .unitFailed .. | .defectCommit .. | .spareTakeover .. | .essentialUnitFail ..
  | .defectRead .. | .spareStatus .. | .wingStatus .. | .persistWrite .. | .silCursorWrite ..
  | .silWindow7AutoRead .. | .silClear .. | .silConfig .. | .freezePin .. | .chrFreeze .. | .chrArm ..
  | .freezeDelayEnd .. | .chrStart .. | .chrNext .. | .chrRelease .. | .acdSliceClear .. | .registerWrite ..
  | .porAssert .. | .resetRelease .. | .warmAssert .. | .warmRelease .. | .vinLoss .. | .sysclkLoss ..
  | .srefclkLoss .. | .debugExtest .. | .stage2Done .. | .insGoFirmware .. | .stage3Done .. | .insGoStartTest ..
  | .insGoHbm .. | .insGoPorts .. | .stage6End .. | .insGoRole .. | .insGoTime .. | .stage7Done .. | .imagoCheck ..
  | .instarStageTimeout .. | .sysclkReturn .. | .srefclkReturn .. => true

end Sys2Proof
end

