-- ==== Sys2Proof/Safety.lean ====
section
/-! DEFINITION. Sys2Proof/Safety.lean: the terms in which statements speak of the part: states in canonical form, runs that do not
stop, and when the part takes a message, a firmware command or a register access as new. -/

namespace Sys2Proof.Machine

/-- The answer is a next state: neither a fault nor a refusal. -/
def goesOn (o : Out) : Bool :=
  match o with
  | .next _ => true
  | .fault _ => false
  | .refused _ => false

/-- A run of `k` steps that nothing stops. -/
def safeRun : Nat → State → Prop
  | 0, _ => True
  | k + 1, s =>
    match step s with
    | .next t => safeRun k t
    | _ => False

/-- Every store of the state, and the memory, is in canonical form: equal contents are equal data. -/
abbrev State.canonical (s : State) : Prop :=
  Store.wf regDefault s.regs = true ∧ Store.wf (fun _ => PortSt.init) s.ports = true
    ∧ Store.wf (fun _ => EpSt.init) s.eps = true ∧ Store.wf (fun _ => CtxSt.init) s.ctxs = true
    ∧ Store.wf (fun _ => AntSt.init) s.ants = true ∧ Memory.wf s.mem = true

/-- A running chip that is not the active manager takes a message of its manager as new (R100, R130): the epoch is the highest seen,
the sender is its manager, and it acted on no message of that number; it is no broadcast. -/
abbrev State.hears (s : State) (h : MsgHdr) : Prop :=
  s.running = true ∧ s.flag F.MGR_ROLE_ACTIVE = false ∧ h.epoch = s.fld F.TWN_AGENT_HIGHEST_EPOCH
    ∧ h.src.val = s.fld F.TWN_AGENT_MANAGER_CHIP ∧ s.isRepeat h = false ∧ h.bcast = false

/-- A running chip takes a message of an agent as new (R100). -/
abbrev State.hearsAgent (s : State) (h : MsgHdr) : Prop :=
  s.running = true ∧ h.epoch ≤ s.fld F.TWN_STATUS_EPOCH ∧ s.isRepeat h = false ∧ h.bcast = false

/-- The active manager takes a message of an agent as new (R100). -/
abbrev State.managerHears (s : State) (h : MsgHdr) : Prop := s.hearsAgent h ∧ s.flag F.MGR_ROLE_ACTIVE = true

/-- The part runs and is the active manager: it carries out commands of scope MGR (R330). -/
abbrev State.manages (s : State) : Prop := s.running = true ∧ s.isManagerChip = true ∧ s.isActive = true

/-- A register access of the owner reaches the part while it runs (R322, R403). -/
abbrev State.accessRuns (s : State) (owner : Nat) : Prop := s.reaches owner = true ∧ s.running = true

/-- The antenna ports run: the part is powered, out of reset and not asleep (R307). -/
abbrev State.antLive (s : State) : Prop :=
  s.power.aonOn = true ∧ s.power.inReset = false ∧ s.fld F.PWR_STATUS_STATE < 2

/-- The port takes a tracked frame as the next one in order (R310, R312). -/
abbrev State.antTakes (s : State) (a : Nat) (f : AntFrame) : Prop :=
  s.antState a = AN_UP ∧ f.seq = ((s.antAcked a f.ack).ant a).rxSeq

/-- The state in which the effect of a tracked frame begins: its ACK is taken, the next SEQ is expected, and an ACK is owed (R312). -/
abbrev State.antTaken (s : State) (a : Nat) (f : AntFrame) : State :=
  (s.antAcked a f.ack).setAnt a { (s.antAcked a f.ack).ant a with
    rxSeq := ((s.antAcked a f.ack).ant a).rxSeq + 1, owed := true }

end Sys2Proof.Machine

namespace Sys2Proof

/-! ### Kinds of commands -/

/-- The header of a command that only a manager sends to an agent (R98, R130). -/
def Instr.managerMsg (c : Instr) : Option MsgHdr :=
  match c with
  | .wbBaseReceive h _ => some h
  | .tableWriteReceive h _ => some h
  | .stopReceive h _ _ => some h
  | .swapReceive h _ => some h
  | .nbrVerdictReceive h _ _ => some h
  | .mapUpdateReceive h _ _ _ => some h
  | .sliceTableReceive h _ => some h
  | .takeoverReceive h _ _ _ => some h
  | .bqCommitReceive h _ _ _ => some h
  | .fwOfferReceive h _ _ _ _ _ => some h
  | .fwPieceReceive h _ _ _ _ => some h
  | .wbChangeReceive h (.change _ _) => some h
  | .wbChangeReceive h (.commit _) => some h
  | .wbChangeReceive h (.cancel _) => some h
  | .bqLoadCheck h (.image _ _ _) => some h
  | _ => none

/-- Of those, the commands that are answered, also when they are repeated (R100). -/
def Instr.managerAsks (c : Instr) : Bool :=
  match c with
  | .tableWriteReceive _ _ => true
  | .wbChangeReceive _ _ => true
  | .bqLoadCheck _ _ => true
  | _ => false

/-- The firmware commands of scope MGR (R330). -/
def Instr.managerCommand (c : Instr) : Option FwRef :=
  match c with
  | .wbLength r _ => some r
  | .adoptNeighbour r _ => some r
  | .sliceCreate r _ _ _ => some r
  | .sliceMembers r _ _ _ _ => some r
  | .sliceQuiesce r _ _ => some r
  | .sliceResume r _ _ => some r
  | .sliceSeal r _ _ _ => some r
  | .sliceDestroy r _ => some r
  | .switchIn r _ => some r
  | .switchOut r _ _ => some r
  | .planExport r _ _ _ _ _ _ _ _ => some r
  | .planPrepare r _ => some r
  | .planApplied r _ => some r
  | .planCancel r _ => some r
  | .routeStatus r => some r
  | .revertCtl r _ => some r
  | .skipGroup r _ _ _ _ _ => some r
  | .bqLoad r _ _ => some r
  | .bqUnload r _ => some r
  | .bqStatus r _ => some r
  | .fwBroadcast r _ => some r
  | _ => none

/-- The command is an event of the running part alone: it has no effect while the clocks stand (log entry 6). The others are accesses,
frames of the Antenna ports, and the signals and timers of the always-on domain and of a freeze. -/
def Instr.needsClocks (c : Instr) : Bool :=
  match c with
  | .timeSetSend _ => false
  | .atlStop _ _ _ => false
  | .atsGo _ _ => false
  | .atsStop _ _ => false
  | .atsFence _ _ => false
  | .atsChLockRead _ _ => false
  | .atsChLockRelease _ _ _ => false
  | .antSignalDetect _ => false
  | .antFecAlign _ => false
  | .antTrainTimeout _ => false
  | .antLoss _ _ => false
  | .antInitSend _ => false
  | .antInitReceive _ _ _ _ _ _ => false
  | .antRead _ _ _ _ _ => false
  | .antWrite _ _ _ _ _ => false
  | .antMbxSend _ _ _ => false
  | .antLinkAck _ _ _ => false
  | .antLinkNak _ _ _ => false
  | .antReplayTimeout _ => false
  | .antLinkAckSend _ => false
  | .antRetrain _ _ => false
  | .ctlSemRead _ => false
  | .ctlSemRelease _ _ => false
  | .mbxLockRead _ _ => false
  | .mbxLockRelease _ _ _ => false
  | .mbxPost _ _ _ _ => false
  | .mbxAcknowledge _ _ _ => false
  | .comparatorFire _ => false
  | .comparatorClear _ => false
  | .hardwareTrip => false
  | .powerMeasure _ _ _ => false
  | .silCursorWrite _ _ => false
  | .silWindow7AutoRead _ => false
  | .freezePin => false
  | .freezeDelayEnd => false
  | .chrStart _ => false
  | .chrNext _ _ => false
  | .chrRelease _ => false
  | .readoutHalfReady _ _ _ => false
  | .readoutHang _ => false
  | .acdSliceClear _ _ => false
  | .registerWrite _ _ _ => false
  | .porAssert _ => false
  | .resetRelease _ _ => false
  | .warmAssert => false
  | .warmRelease _ _ => false
  | .vinLoss => false
  | .sysclkLoss => false
  | .srefclkLoss _ => false
  | .debugExtest _ _ => false
  | .insGoFirmware _ _ => false
  | .insGoStartTest _ _ => false
  | .insGoHbm _ _ => false
  | .insGoPorts _ _ => false
  | .insGoRole _ _ => false
  | .insGoTime _ _ => false
  | .sysclkReturn _ => false
  | .srefclkReturn _ => false
  | _ => true

end Sys2Proof

namespace Sys2Proof.Machine

/-! ### What a command may change -/

/-- The parts of the state beside the register file and the queue. -/
inductive Part where
  | time
  | ports
  | eps
  | ctxs
  | net
  | que
  | pool
  | dma
  | coll
  | hawk
  | sec
  | mem
  | route
  | agent
  | map
  | mgr
  | twin
  | fw
  | sil
  | ants
  | ins
  | power
  | spares
  | cocoon
  | pins
  | chr
  | out
  | free
  deriving DecidableEq, Repr

/-- The part holds the same in both states. -/
def Part.same (p : Part) (s t : State) : Prop :=
  match p with
  | .time => t.time = s.time
  | .ports => t.ports = s.ports
  | .eps => t.eps = s.eps
  | .ctxs => t.ctxs = s.ctxs
  | .net => t.net = s.net
  | .que => t.que = s.que
  | .pool => t.pool = s.pool
  | .dma => t.dma = s.dma
  | .coll => t.coll = s.coll
  | .hawk => t.hawk = s.hawk
  | .sec => t.sec = s.sec
  | .mem => t.mem = s.mem
  | .route => t.route = s.route
  | .agent => t.agent = s.agent
  | .map => t.map = s.map
  | .mgr => t.mgr = s.mgr
  | .twin => t.twin = s.twin
  | .fw => t.fw = s.fw
  | .sil => t.sil = s.sil
  | .ants => t.ants = s.ants
  | .ins => t.ins = s.ins
  | .power => t.power = s.power
  | .spares => t.spares = s.spares
  | .cocoon => t.cocoon = s.cocoon
  | .pins => t.pins = s.pins
  | .chr => t.chr = s.chr
  | .out => t.out = s.out
  | .free => t.free = s.free

/-- All numbered registers. -/
def RegName.list : List RegName := (List.range 135).map RegName.ofNat

end Sys2Proof.Machine

namespace Sys2Proof

open Sys2Proof.Machine

/-- The parts of the state that a command may change, on any operands and in any state. -/
def Instr.parts (c : Instr) : List Part :=
  match c with
  | .wingbeatTick => [.ports, .eps, .net, .que, .coll, .sec, .agent, .twin, .fw, .out]
  | .budgetOverrun .. => [.ctxs, .que, .coll, .hawk, .mem, .free]
  | .wbLength .. => [.time, .agent, .twin, .fw, .out, .free]
  | .wbChangeReceive .. => [.time, .ports, .agent, .twin, .sil, .ants, .chr, .out]
  | .wbChangeDecide => [.time, .agent, .twin, .fw, .out]
  | .wbChangeQuery => [.agent, .out]
  | .wbChangeApply => [.time, .sil, .chr]
  | .wbBaseReceive .. => [.time, .ports, .agent, .twin, .sil, .ants, .chr, .out]
  | .timeSetSend .. => [.ports, .out]
  | .timeSetReceive .. => [.time, .ports, .sil, .chr]
  | .lossOfUpstream => [.time, .sil, .chr]
  | .ppsInEdge => [.time]
  | .ppsOutStart => [.time]
  | .ppsOutEnd => [.time]
  | .portMode .. => [.ports, .net, .sec, .route, .agent, .twin, .fw, .sil, .ants, .chr, .out]
  | .lossOfLink .. => [.ports, .net, .sec, .route, .agent, .twin, .sil, .ants, .chr, .out]
  | .laneFail .. => [.ports, .net, .sec, .route, .agent, .twin, .fw, .sil, .ants, .cocoon, .chr, .out]
  | .laneMapReceive .. => [.ports, .net, .sec, .route, .agent, .twin, .sil, .ants, .chr, .out]
  | .berWindowEnd .. => [.ports, .net, .sec, .route, .agent, .twin, .fw, .sil, .ants, .cocoon, .chr, .out]
  | .identSend .. => [.out]
  | .identReceive .. => [.ports, .route, .agent, .twin, .fw, .sil, .chr, .out]
  | .identTimeout .. => [.ports, .net, .sec, .twin, .ants]
  | .qualPhase1End .. => [.ports, .out]
  | .qualPhase2End .. => [.ports, .agent, .twin, .fw, .sil, .chr, .out, .free]
  | .qualReportReceive .. => [.ports, .agent, .twin, .fw, .sil, .chr, .out]
  | .peerSilent .. => [.ports, .twin, .fw, .sil, .chr]
  | .frozenSetReceive .. => [.ports, .net, .sec, .route, .agent, .sil, .chr, .out]
  | .frozenSetStop .. => [.ports, .net, .sec, .twin, .ants]
  | .serviceFrameReceive .. => [.fw, .out]
  | .bulkDatagramReceive .. => [.pool, .sec, .mem, .fw, .out]
  | .bulkMgmtDatagram .. => [.pool, .sec, .mem, .fw, .out]
  | .bulkAckTimer .. => [.fw, .out]
  | .bulkResendTimeout .. => [.fw, .out]
  | .flitReceive .. => [.ports, .net, .sec, .out]
  | .packetForward .. => [.ports, .net, .sec, .out]
  | .packetDeliver .. => [.ports, .eps, .net, .sec, .out]
  | .creditWaitEscape .. => [.ports, .net, .sec, .out]
  | .creditWaitDrop .. => [.net, .out]
  | .creditAuditSend .. => [.out]
  | .creditAuditReceive .. => [.ports, .net, .sec, .out]
  | .edgeIngress .. => [.ports, .eps, .net, .sec, .out]
  | .ackSend .. => [.ports, .net, .sec, .out]
  | .ackReceive .. => [.ports, .eps, .net, .que, .pool, .sec, .mem, .out]
  | .resendTimeout .. => [.ports, .net, .sec, .out]
  | .resendLimit .. => [.ports, .net, .que, .pool, .dma, .coll, .sec, .mem, .out]
  | .linkLossReceive .. => [.route, .agent, .twin, .sil, .ants, .chr, .out]
  | .tableWriteReceive .. => [.ports, .route, .agent, .twin, .sil, .ants, .chr, .out]
  | .tableAckReceive .. => [.agent, .mgr, .twin, .sil, .ants, .chr, .out, .free]
  | .stopReceive .. => [.ports, .route, .agent, .twin, .sil, .ants, .chr, .out]
  | .drainStopBoundary => []
  | .drainCountZero => [.route, .agent, .out]
  | .drainTimeout => [.net, .route, .agent, .out]
  | .drainZeroReceive .. => [.agent, .mgr, .twin, .sil, .ants, .chr, .out]
  | .swapBroadcast => [.agent, .mgr, .out]
  | .swapReceive .. => [.ports, .agent, .twin, .sil, .ants, .chr, .out]
  | .swapApply => [.ports, .eps, .net, .hawk, .sec, .route, .mgr, .twin, .fw, .ants, .out]
  | .swapMissed => [.ports, .eps, .net, .sec, .route, .mgr, .sil, .chr, .out]
  | .setRole .. => [.twin, .fw]
  | .mgmtRepeat .. => [.agent, .out]
  | .nbrReportRepeat .. => [.ports, .out]
  | .nbrReportReceive .. => [.agent, .mgr, .twin, .sil, .ants, .chr, .out]
  | .nbrVerdictReceive .. => [.ports, .route, .agent, .twin, .fw, .sil, .ants, .chr, .out]
  | .mapLoad .. => [.map, .twin, .fw, .cocoon]
  | .adoptNeighbour .. => [.agent, .map, .mgr, .twin, .fw, .sil, .ants, .cocoon, .chr, .out]
  | .mapUpdateReceive .. => [.ports, .net, .sec, .route, .agent, .map, .twin, .sil, .ants, .cocoon, .chr, .out]
  | .agentStatusSend => [.agent, .out]
  | .agentStatusReceive .. => [.hawk, .agent, .mgr, .twin, .sil, .ants, .chr, .out]
  | .switchSilent .. => [.mgr, .sil, .chr]
  | .faultReceive .. => [.hawk, .agent, .mgr, .twin, .sil, .ants, .chr, .out]
  | .routeRecomputeDone .. => [.hawk, .agent, .mgr, .twin, .fw, .ants, .out]
  | .sliceTableReceive .. => [.ports, .ctxs, .sec, .agent, .twin, .sil, .ants, .chr, .out]
  | .sliceCreate .. => [.agent, .mgr, .twin, .fw, .out]
  | .sliceMembers .. => [.agent, .mgr, .twin, .fw, .out]
  | .sliceQuiesce .. => [.agent, .mgr, .twin, .fw, .out]
  | .quiesceBoundary .. => [.que, .dma, .coll]
  | .sliceQuiesced .. => [.mgr, .twin, .fw]
  | .quiesceTimeout .. => [.mgr, .twin, .fw]
  | .sliceResume .. => [.agent, .mgr, .twin, .fw, .out]
  | .sliceSeal .. => [.agent, .mgr, .twin, .fw, .out, .free]
  | .sealBoundary .. => [.sec, .free]
  | .sliceDestroy .. => [.agent, .mgr, .twin, .fw, .out]
  | .switchIn .. => [.mgr, .twin, .fw]
  | .switchOut .. => [.mgr, .twin, .fw]
  | .planExport .. => [.mgr, .twin, .fw, .out]
  | .planPrepare .. => [.mgr, .twin, .fw]
  | .planApplied .. => [.mgr, .twin, .fw]
  | .planCancel .. => [.mgr, .twin, .fw]
  | .routeStatus .. => [.twin, .fw]
  | .epDiscoverSend .. => [.eps, .out]
  | .epIdentityReceive .. => [.eps]
  | .epHeartbeatReceive .. => [.eps, .agent, .out]
  | .endpointSilent .. => [.eps, .agent, .out]
  | .epochAckReceive .. => [.eps]
  | .heartbeatReceive .. => [.agent, .twin, .fw, .sil, .ants, .chr, .out]
  | .fenceOnSilence => [.twin, .sil, .ants, .chr]
  | .managerListenEnd => [.agent, .twin, .out]
  | .startProbeEnd => [.time, .agent, .mgr, .twin, .fw, .sil, .chr, .out, .free]
  | .epochProbeReceive .. => [.agent, .twin, .sil, .ants, .chr, .out]
  | .epochReplyReceive .. => [.hawk, .agent, .mgr, .twin, .fw, .sil, .ants, .chr, .out]
  | .stateDeltaReceive .. => [.time, .agent, .mgr, .twin, .fw, .sil, .ants, .chr, .out]
  | .snapshotReceive .. => [.time, .agent, .mgr, .twin, .fw, .sil, .ants, .chr, .out]
  | .snapshotStart => [.twin, .free]
  | .snapReqReceive .. => [.agent, .twin, .sil, .ants, .chr, .out, .free]
  | .shadowUnsync => [.agent, .twin, .ants, .out]
  | .deltaAckReceive .. => [.agent, .twin, .fw, .sil, .ants, .chr, .out]
  | .deltaAckTimeout => [.twin, .fw, .ants]
  | .takeover => [.time, .agent, .mgr, .twin, .sil, .ants, .chr, .out]
  | .takeoverReceive .. => [.ports, .agent, .twin, .sil, .ants, .chr, .out]
  | .fencedProbe => [.agent, .twin, .out]
  | .reclaimDecide => [.time, .agent, .mgr, .twin, .sil, .ants, .chr, .out]
  | .holdLeftZero => [.agent, .twin, .out]
  | .takebackReceive .. => [.agent, .twin, .sil, .ants, .chr, .out]
  | .takebackTimeout => [.twin]
  | .takebackHandover => [.time, .agent, .twin, .out]
  | .takebackComplete => [.time, .agent, .mgr, .twin, .sil, .ants, .chr, .out]
  | .revertCtl .. => [.twin, .fw]
  | .ctxCreate .. => [.ctxs, .pool, .twin, .fw, .free]
  | .ctxBind .. => [.ctxs, .twin, .fw]
  | .ctxUnbind .. => [.ctxs, .twin, .fw]
  | .ctxReset .. => [.ctxs, .twin, .fw]
  | .ctxDestroy .. => [.ctxs, .twin, .fw]
  | .contextResetBoundary .. => [.eps, .ctxs, .net, .que, .pool, .dma, .coll, .hawk, .sec, .mem, .twin, .fw, .sil, .ants, .power, .chr,
      .out]
  | .contextResetRelease .. => [.time, .ports, .eps, .ctxs, .net, .que, .pool, .dma, .coll, .hawk, .sec, .mem, .route, .agent, .map,
      .mgr, .twin, .fw, .sil, .ants, .ins, .power, .spares, .chr, .out]
  | .queue .. => [.que, .mem, .twin, .fw]
  | .channel .. => [.twin, .fw]
  | .pageGrant .. => [.ctxs, .pool, .twin, .fw, .free]
  | .grantZerofillDone .. => [.ctxs, .pool, .mem, .twin, .fw]
  | .pageUngrant .. => [.ctxs, .pool, .twin, .fw]
  | .frameScrubDone .. => [.pool, .mem]
  | .skipGroup .. => [.coll, .twin, .fw, .free]
  | .dbSubmit .. => [.que]
  | .dbCqHead .. => []
  | .dbResume .. => [.que]
  | .commandStart .. => [.que, .mem]
  | .lapReread .. => [.que, .mem]
  | .lapTimeout .. => [.que, .mem]
  | .nop .. => [.que]
  | .coll .. => [.ports, .net, .que, .pool, .coll, .sec, .mem, .out]
  | .skip .. => [.ports, .net, .que, .pool, .coll, .sec, .mem, .out]
  | .poolRead .. => [.ports, .net, .que, .sec, .out]
  | .poolWrite .. => [.ports, .net, .que, .sec, .out]
  | .dma .. => [.ports, .net, .que, .dma, .sec, .out]
  | .op .. => [.que]
  | .wait .. => [.que]
  | .signal .. => [.ctxs, .que]
  | .fence .. => [.que]
  | .fenceComplete .. => [.que, .dma]
  | .commandComplete .. => [.ports, .ctxs, .net, .que, .pool, .hawk, .sec, .mem, .out]
  | .grantReceive .. => [.ports, .net, .que, .coll, .sec, .out]
  | .grantRequestReceive .. => [.ports, .net, .coll, .sec, .out]
  | .grantRefuseReceive .. => [.ports, .net, .que, .coll, .sec, .out]
  | .grantRepeat .. => [.ports, .net, .sec, .out]
  | .slotAssign .. => [.ports, .net, .que, .coll, .sec, .mem, .out]
  | .collUpReceive .. => [.ports, .net, .que, .pool, .coll, .sec, .mem, .out]
  | .chunkReduceComplete .. => [.ports, .net, .que, .coll, .sec, .mem, .out]
  | .collDownReceive .. => [.ports, .net, .que, .pool, .coll, .sec, .mem, .out]
  | .nodeSlotsObtained .. => [.que, .coll]
  | .spill .. => [.que, .coll]
  | .spillGiveUp .. => [.ports, .net, .que, .coll, .sec, .out]
  | .chunkSlip .. => [.que, .coll]
  | .chunkAbort .. => [.ports, .net, .que, .pool, .coll, .sec, .mem, .out]
  | .resultTimeout .. => [.ports, .net, .que, .pool, .coll, .sec, .mem, .out]
  | .skipperReceive .. => [.ports, .net, .que, .pool, .coll, .sec, .mem, .out]
  | .skipperRepeat .. => [.ports, .net, .sec, .out]
  | .bqLoad .. => [.agent, .mgr, .twin, .fw, .out, .free]
  | .bqLoadCheck .. => [.ports, .hawk, .sec, .agent, .mgr, .twin, .fw, .sil, .ants, .chr, .out, .free]
  | .bqLoadTimeout .. => [.agent, .mgr, .twin, .fw, .out, .free]
  | .bqCommitReceive .. => [.ports, .hawk, .agent, .twin, .sil, .ants, .chr, .out]
  | .bqStart .. => [.hawk]
  | .stepRun .. => [.ports, .net, .que, .pool, .hawk, .sec, .mem, .out]
  | .stepComplete .. => [.ctxs, .que, .hawk, .mem]
  | .opStepStart .. => [.ports, .net, .que, .pool, .hawk, .sec, .mem, .out]
  | .opNoFit .. => [.que]
  | .bqUnload .. => [.agent, .mgr, .twin, .fw, .out, .free]
  | .bqUnloadBoundary .. => [.que, .coll, .hawk]
  | .bqUnloadRelease .. => [.hawk, .agent, .mgr, .twin, .fw, .out, .free]
  | .bqStatus .. => [.twin, .fw]
  | .tileReload .. => [.hawk]
  | .poolWriteRequest .. => [.ports, .net, .pool, .sec, .mem, .out]
  | .poolReadRequest .. => [.ports, .net, .sec, .out]
  | .readRespReceive .. => [.ports, .net, .que, .dma, .sec, .out, .free]
  | .windowRequest .. => [.ports, .eps, .net, .sec, .out]
  | .refusalMarkerSend .. => [.ports, .eps, .net, .sec, .out]
  | .windowEntryFree .. => [.ports, .eps, .net, .sec, .out]
  | .eccCorrected .. => [.pool]
  | .eccUncorrectable .. => [.pool, .mem, .sil, .chr]
  | .retireCopyDone .. => [.ctxs, .pool, .mem, .sil, .cocoon, .chr]
  | .retireThreshold .. => [.twin, .fw]
  | .atlBufferGrant .. => [.ports, .net, .que, .dma, .sec, .out]
  | .descriptorFinish .. => [.ports, .ctxs, .net, .que, .dma, .sec, .mem, .out]
  | .descriptorRefused .. => [.ports, .net, .que, .dma, .sec, .out]
  | .atlStop .. => [.que, .dma, .out]
  | .atsGo .. => [.dma, .out]
  | .atsStop .. => [.dma, .mem, .out]
  | .atsFence .. => [.dma, .mem, .out]
  | .atsChannelServe => [.pool, .dma, .mem, .ants, .out]
  | .atsRingRoom .. => [.pool, .dma, .mem, .ants, .out]
  | .atsChLockRead .. => [.out]
  | .atsChLockRelease .. => [.out]
  | .hostResponseReceive .. => [.pool, .dma, .mem, .ants, .out]
  | .hostTimeout .. => [.dma, .mem, .ants, .out]
  | .attest .. => [.sec, .twin, .fw, .cocoon, .free]
  | .certChain .. => [.twin, .fw]
  | .measureRead .. => [.twin, .fw]
  | .keyDeliver .. => [.sec, .twin, .fw, .free]
  | .kemKeyExpire .. => [.sec]
  | .sealIntervalEnd .. => [.sec]
  | .sealSetSend .. => [.sec, .out]
  | .sealSetReceive .. => [.ports, .net, .sec, .route, .agent, .twin, .sil, .ants, .ins, .chr, .out]
  | .sealSetTimeout .. => [.ports, .net, .sec, .route, .agent, .twin, .sil, .ants, .chr, .out]
  | .antSignalDetect .. => [.dma, .mem, .ants, .out]
  | .antFecAlign .. => [.dma, .mem, .ants, .out]
  | .antTrainTimeout .. => [.dma, .mem, .ants, .out]
  | .antLoss .. => [.dma, .mem, .ants, .out]
  | .antInitSend .. => [.ants, .power, .out]
  | .antInitReceive .. => [.dma, .mem, .ants, .power, .out]
  | .antRead .. => [.ants, .out, .free]
  | .antWrite .. => [.time, .ports, .eps, .ctxs, .net, .que, .pool, .dma, .coll, .hawk, .sec, .mem, .route, .agent, .map, .mgr, .twin,
      .fw, .sil, .ants, .ins, .power, .spares, .chr, .out, .free]
  | .antMbxSend .. => [.ants, .out]
  | .antLinkAck .. => [.ants, .out]
  | .antLinkNak .. => [.dma, .mem, .ants, .out]
  | .antReplayTimeout .. => [.dma, .mem, .ants, .out]
  | .antLinkAckSend .. => [.ants, .out]
  | .antRetrain .. => [.dma, .mem, .ants, .out]
  | .eventFrameSend .. => [.ants, .out]
  | .ownerRestart .. => [.dma, .twin, .fw, .ants]
  | .ctlSemRead .. => [.out]
  | .ctlSemRelease .. => [.out]
  | .mbxLockRead .. => [.out]
  | .mbxLockRelease .. => [.out]
  | .mbxPost .. => [.ants, .out]
  | .mbxAcknowledge .. => [.ants, .out]
  | .doorbellFrameSend .. => [.ants, .out]
  | .fwCommandAccept .. => [.sec, .fw, .ants]
  | .resultPost .. => [.mem, .fw, .ants, .out]
  | .fwStage .. => [.twin, .fw]
  | .fwBroadcast .. => [.agent, .twin, .fw, .out]
  | .fwBroadcastTimeout => [.twin, .fw, .free]
  | .fwOfferReceive .. => [.ports, .agent, .twin, .fw, .sil, .ants, .chr, .out]
  | .fwPieceReceive .. => [.ports, .agent, .twin, .fw, .sil, .ants, .chr, .out]
  | .fwNeedReceive .. => [.agent, .twin, .fw, .sil, .ants, .chr, .out]
  | .fwResultReceive .. => [.agent, .twin, .fw, .sil, .ants, .chr, .out, .free]
  | .fwStatus .. => [.twin, .fw]
  | .fwRestart .. => [.dma, .twin, .fw, .ants]
  | .portQualify .. => [.ports, .net, .sec, .route, .agent, .twin, .fw, .sil, .ants, .chr, .out]
  | .portReset .. => [.ports, .net, .sec, .route, .agent, .twin, .fw, .sil, .ants, .chr, .out]
  | .portQuarantine .. => [.ports, .route, .agent, .twin, .fw, .sil, .chr, .out]
  | .serviceCfg .. => [.twin, .fw]
  | .sessionOpen .. => [.twin, .fw]
  | .sessionClose .. => [.twin, .fw]
  | .resetWarm .. => [.time, .ports, .eps, .ctxs, .net, .que, .pool, .dma, .coll, .hawk, .sec, .mem, .route, .agent, .map, .mgr, .twin,
      .fw, .sil, .ants, .ins, .power, .spares, .chr, .out]
  | .resetCompute .. => [.eps, .ctxs, .net, .que, .pool, .dma, .coll, .hawk, .sec, .mem, .twin, .fw, .sil, .ants, .power, .chr, .out]
  | .resetRole .. => [.mgr, .twin, .fw]
  | .computeResetBoundary => [.eps, .ctxs, .net, .que, .pool, .dma, .coll, .hawk, .sec, .mem, .twin, .fw, .sil, .ants, .power, .chr,
      .out]
  | .computeResetReady => [.coll, .power]
  | .managerWatchdog => [.mgr, .twin]
  | .powerActive .. => [.twin, .fw]
  | .powerDoze .. => [.twin, .fw]
  | .powerSleep .. => [.time, .ports, .eps, .ctxs, .net, .que, .pool, .dma, .coll, .hawk, .sec, .mem, .route, .agent, .map, .mgr, .twin,
      .fw, .sil, .ants, .ins, .power, .spares, .chr, .out]
  | .powerDeep .. => [.time, .ports, .eps, .ctxs, .net, .que, .pool, .dma, .coll, .hawk, .sec, .mem, .route, .agent, .map, .mgr, .twin,
      .fw, .sil, .ants, .ins, .power, .spares, .chr, .out]
  | .forwardOnlyEnter .. => [.twin, .fw, .sil, .ants, .power, .chr]
  | .forwardOnlyLeave .. => [.dma, .agent, .twin, .fw, .sil, .ants, .power, .chr, .out]
  | .fwdOnlyContextReset => [.eps, .ctxs, .net, .que, .pool, .dma, .coll, .hawk, .sec, .mem, .agent, .twin, .fw, .power, .out]
  | .fwdOnlyHalt => [.coll, .mgr, .power]
  | .escalation .. => [.twin, .fw]
  | .counters .. => [.twin, .fw]
  | .comparatorFire .. => [.twin, .sil, .ants, .power, .chr]
  | .comparatorClear .. => []
  | .hardwareTrip => [.time, .ports, .eps, .ctxs, .net, .que, .pool, .dma, .coll, .hawk, .sec, .mem, .route, .agent, .map, .mgr, .twin,
      .fw, .sil, .ants, .ins, .power, .spares, .cocoon, .chr, .out]
  | .powerMeasure .. => [.power]
  | .powerLimit => [.twin, .sil, .ants, .power, .chr]
  | .firmwareWatchdogLimit .. => [.twin, .sil, .ants, .power, .chr]
  | .unitFailed .. => [.ctxs, .que, .coll, .hawk, .mem, .sil, .spares, .chr]
  | .defectCommit => [.spares, .cocoon]
  | .spareTakeover => [.ports, .net, .hawk, .sec, .route, .agent, .twin, .sil, .ants, .power, .spares, .chr, .out]
  | .essentialUnitFail .. => [.ports, .net, .sec, .route, .agent, .twin, .sil, .ants, .power, .chr, .out]
  | .defectRead .. => [.twin, .fw]
  | .spareStatus .. => [.twin, .fw]
  | .wingStatus .. => [.twin, .fw]
  | .persistWrite => [.sil, .cocoon]
  | .silCursorWrite .. => [.out]
  | .silWindow7AutoRead .. => [.out]
  | .silClear .. => [.twin, .fw, .sil, .chr]
  | .silConfig .. => [.pool, .twin, .fw, .sil, .free]
  | .freezePin => [.chr]
  | .chrFreeze .. => [.chr]
  | .chrArm .. => [.twin, .fw, .chr]
  | .freezeDelayEnd => [.sil, .power, .chr, .out]
  | .chrStart .. => [.chr, .out, .free]
  | .chrNext .. => [.out]
  | .chrRelease .. => [.time, .ports, .eps, .ctxs, .net, .que, .pool, .dma, .coll, .hawk, .sec, .mem, .route, .agent, .map, .mgr, .twin,
      .fw, .sil, .ants, .ins, .power, .spares, .chr, .out]
  | .readoutHalfReady .. => [.mem, .chr]
  | .readoutHang .. => [.sil, .chr]
  | .acdSliceClear .. => [.out]
  | .registerWrite .. => [.time, .ports, .eps, .ctxs, .net, .que, .pool, .dma, .coll, .hawk, .sec, .mem, .route, .agent, .map, .mgr,
      .twin, .fw, .sil, .ants, .ins, .power, .spares, .chr, .out, .free]
  | .porAssert .. => [.time, .ports, .eps, .ctxs, .net, .que, .pool, .dma, .coll, .hawk, .sec, .mem, .route, .agent, .map, .mgr, .twin,
      .fw, .sil, .ants, .ins, .power, .spares, .cocoon, .pins, .chr, .out, .free]
  | .resetRelease .. => [.ins, .power, .pins]
  | .warmAssert => [.time, .ports, .eps, .ctxs, .net, .que, .pool, .dma, .coll, .hawk, .sec, .mem, .route, .agent, .map, .mgr, .twin,
      .fw, .sil, .ants, .ins, .power, .spares, .chr, .out]
  | .warmRelease .. => [.pool, .mem, .sil, .ins, .power, .pins]
  | .vinLoss => [.time, .ports, .eps, .ctxs, .net, .que, .pool, .dma, .coll, .hawk, .sec, .mem, .route, .agent, .map, .mgr, .twin, .fw,
      .sil, .ants, .ins, .power, .spares, .cocoon, .pins, .chr, .out, .free]
  | .sysclkLoss => [.time, .ports, .eps, .ctxs, .net, .que, .pool, .dma, .coll, .hawk, .sec, .mem, .route, .agent, .map, .mgr, .twin,
      .fw, .sil, .ants, .ins, .power, .spares, .cocoon, .pins, .chr, .out, .free]
  | .srefclkLoss .. => [.ports, .net, .dma, .sec, .mem, .route, .agent, .twin, .sil, .ants, .power, .chr, .out]
  | .debugExtest .. => [.time, .ports, .eps, .ctxs, .net, .que, .pool, .dma, .coll, .hawk, .sec, .mem, .route, .agent, .map, .mgr,
      .twin, .fw, .sil, .ants, .ins, .power, .spares, .cocoon, .pins, .chr, .out, .free]
  | .stage1Done .. => [.sil, .ins, .cocoon, .chr]
  | .stage2Done .. => [.sec, .sil, .ins, .power, .spares, .chr]
  | .insGoFirmware .. => [.sil, .ins, .chr, .out]
  | .stage3Done .. => [.sec, .fw, .sil, .ins, .chr]
  | .insGoStartTest .. => [.ins, .out]
  | .stage4Done .. => [.sil, .ins, .spares, .cocoon, .chr]
  | .insGoHbm .. => [.ins, .spares, .out]
  | .stage5Done .. => [.pool, .mem, .sil, .ins, .power, .cocoon, .chr]
  | .insGoPorts .. => [.ports, .sil, .ins, .chr, .out]
  | .stage6End => [.sil, .chr]
  | .insGoRole .. => [.ins, .out]
  | .insGoTime .. => [.twin, .ins, .out]
  | .stage7Done => [.sil, .ins, .chr]
  | .imagoCheck .. => [.pool, .agent, .sil, .ins, .chr, .out, .free]
  | .instarStageTimeout => [.sil, .ins, .chr]
  | .laneLock .. => [.ports, .agent, .twin, .fw, .out]
  | .sysclkReturn .. => [.ins, .power, .pins]
  | .srefclkReturn .. => [.power]

/-- The registers that a command may change, each at any index. -/
def Instr.regs (c : Instr) : List RegName :=
  match c with
  | .wingbeatTick => [.FT_WB_NUM, .XBR_WAITS, .XBR_HDR_ERR, .EDG_DROPS, .TWN_HEARTBEAT, .TWN_SYNC, .TWN_REVERT, .ACD_SLOTS,
      .SEC_SEAL_EVENTS]
  | .budgetOverrun .. => [.FT_OVERRUN, .QUE_CQ_INDEX, .ACD_SLOTS, .HWK_CORE_STATUS, .HWK_CORE_COUNTS, .HWK_WING_STATUS, .HWK_REPORTS,
      .HWK_BQ_STATUS, .HWK_BQ_START]
  | .wbLength .. => []
  | .wbChangeReceive .. => [.FT_STATUS, .FT_WB_CTL, .MGR_ROLE, .TWN_STATUS, .TWN_AGENT, .TWN_EVENTS, .ANT_COUNTS, .SIL_STATUS,
      .SIL_COUNTS, .CHR_STATUS, .CHR_ARM]
  | .wbChangeDecide => []
  | .wbChangeQuery => []
  | .wbChangeApply => [.FT_WB_CTL, .FT_WB_BASE_FTU, .FT_WB_BASE_NUM, .FT_WB_NUM, .SIL_STATUS, .SIL_COUNTS, .CHR_STATUS, .CHR_ARM]
  | .wbBaseReceive .. => [.FT_STATUS, .FT_WB_CTL, .FT_WB_BASE_FTU, .FT_WB_BASE_NUM, .FT_WB_NUM, .MGR_ROLE, .TWN_STATUS, .TWN_AGENT,
      .TWN_EVENTS, .ANT_COUNTS, .SIL_STATUS, .SIL_COUNTS, .CHR_STATUS, .CHR_ARM]
  | .timeSetSend .. => []
  | .timeSetReceive .. => [.FT_COUNT, .FT_STATUS, .FT_COAST, .SIL_STATUS, .SIL_COUNTS, .CHR_STATUS, .CHR_ARM]
  | .lossOfUpstream => [.FT_STATUS, .FT_COAST, .SIL_STATUS, .SIL_COUNTS, .CHR_STATUS, .CHR_ARM]
  | .ppsInEdge => [.FT_PPS_CTL, .FT_PPS_CAPTURE]
  | .ppsOutStart => []
  | .ppsOutEnd => []
  | .portMode .. => [.PRT_CTL, .PRT_STATUS, .PRT_PEER_ID, .PRT_PEER_SERIAL, .PRT_PEER_DEVICE, .PRT_QUAL_RESULT, .PRT_FEC_COUNT,
      .TWN_STATUS, .TWN_SYNC, .TWN_EVENTS, .TWN_PORT_STATUS, .ANT_COUNTS, .RST_COUNTS, .SIL_STATUS, .SIL_COUNTS, .CHR_STATUS, .CHR_ARM]
  | .lossOfLink .. => [.PRT_STATUS, .PRT_EVENTS, .TWN_STATUS, .TWN_SYNC, .TWN_EVENTS, .TWN_PORT_STATUS, .ANT_COUNTS, .INS_FAST,
      .SIL_STATUS, .SIL_COUNTS, .CHR_STATUS, .CHR_ARM]
  | .laneFail .. => [.PRT_STATUS, .PRT_QUAL_RESULT, .PRT_EVENTS, .TWN_STATUS, .TWN_SYNC, .TWN_EVENTS, .TWN_PORT_STATUS, .ANT_COUNTS,
      .INS_FAST, .SPR_STATUS, .SPR_EVENTS, .SIL_STATUS, .SIL_COUNTS, .CHR_STATUS, .CHR_ARM]
  | .laneMapReceive .. => [.PRT_STATUS, .PRT_EVENTS, .TWN_STATUS, .TWN_SYNC, .TWN_EVENTS, .TWN_PORT_STATUS, .ANT_COUNTS, .INS_FAST,
      .SIL_STATUS, .SIL_COUNTS, .CHR_STATUS, .CHR_ARM]
  | .berWindowEnd .. => [.PRT_STATUS, .PRT_QUAL_RESULT, .PRT_FEC_COUNT, .PRT_EVENTS, .TWN_STATUS, .TWN_SYNC, .TWN_EVENTS,
      .TWN_PORT_STATUS, .ANT_COUNTS, .INS_FAST, .SPR_STATUS, .SPR_EVENTS, .SIL_STATUS, .SIL_COUNTS, .CHR_STATUS, .CHR_ARM]
  | .identSend .. => []
  | .identReceive .. => [.PRT_STATUS, .PRT_PEER_ID, .PRT_PEER_SERIAL, .PRT_PEER_DEVICE, .PRT_QUAL_RESULT, .TWN_PORT_STATUS, .SIL_STATUS,
      .SIL_COUNTS, .CHR_STATUS, .CHR_ARM]
  | .identTimeout .. => [.PRT_STATUS, .TWN_STATUS, .TWN_SYNC, .TWN_EVENTS, .TWN_PORT_STATUS, .ANT_COUNTS]
  | .qualPhase1End .. => []
  | .qualPhase2End .. => [.PRT_STATUS, .PRT_QUAL_RESULT, .TWN_PORT_STATUS, .INS_FAST, .SIL_STATUS, .SIL_COUNTS, .CHR_STATUS, .CHR_ARM]
  | .qualReportReceive .. => [.PRT_STATUS, .PRT_QUAL_RESULT, .TWN_PORT_STATUS, .INS_FAST, .SIL_STATUS, .SIL_COUNTS, .CHR_STATUS,
      .CHR_ARM]
  | .peerSilent .. => [.PRT_STATUS, .PRT_QUAL_RESULT, .TWN_PORT_STATUS, .INS_FAST, .SIL_STATUS, .SIL_COUNTS, .CHR_STATUS, .CHR_ARM]
  | .frozenSetReceive .. => [.PRT_STATUS, .SIL_STATUS, .SIL_COUNTS, .CHR_STATUS, .CHR_ARM]
  | .frozenSetStop .. => [.PRT_STATUS, .TWN_STATUS, .TWN_SYNC, .TWN_EVENTS, .TWN_PORT_STATUS, .ANT_COUNTS]
  | .serviceFrameReceive .. => []
  | .bulkDatagramReceive .. => [.SEC_SEAL_EVENTS]
  | .bulkMgmtDatagram .. => [.SEC_SEAL_EVENTS]
  | .bulkAckTimer .. => []
  | .bulkResendTimeout .. => []
  | .flitReceive .. => [.PRT_EVENTS, .XBR_WAITS]
  | .packetForward .. => [.PRT_EVENTS, .XBR_HDR_ERR, .SEC_SEAL_EVENTS]
  | .packetDeliver .. => [.XBR_HDR_ERR, .EDG_DROPS, .EDG_E2E, .QUE_DROPS]
  | .creditWaitEscape .. => [.XBR_WAITS]
  | .creditWaitDrop .. => [.XBR_WAITS]
  | .creditAuditSend .. => []
  | .creditAuditReceive .. => []
  | .edgeIngress .. => [.PRT_EVENTS, .XBR_WAITS, .XBR_HDR_ERR, .EDG_DROPS, .SEC_SEAL_EVENTS]
  | .ackSend .. => [.XBR_HDR_ERR, .EDG_DROPS]
  | .ackReceive .. => [.XBR_HDR_ERR, .EDG_DROPS]
  | .resendTimeout .. => [.XBR_HDR_ERR, .EDG_DROPS, .EDG_E2E]
  | .resendLimit .. => [.XBR_HDR_ERR, .EDG_DROPS, .ACD_EVENTS, .ATL_CH_STATUS]
  | .linkLossReceive .. => [.FT_STATUS, .MGR_ROLE, .TWN_STATUS, .TWN_EVENTS, .ANT_COUNTS, .SIL_STATUS, .SIL_COUNTS, .CHR_STATUS,
      .CHR_ARM]
  | .tableWriteReceive .. => [.FT_STATUS, .EDG_CTL, .MGR_ROLE, .TWN_STATUS, .TWN_AGENT, .TWN_EVENTS, .ANT_COUNTS, .SIL_STATUS,
      .SIL_COUNTS, .CHR_STATUS, .CHR_ARM]
  | .tableAckReceive .. => [.FT_STATUS, .MGR_ROLE, .TWN_STATUS, .TWN_EVENTS, .ANT_COUNTS, .SIL_STATUS, .SIL_COUNTS, .CHR_STATUS,
      .CHR_ARM]
  | .stopReceive .. => [.FT_STATUS, .EDG_CTL, .EDG_SWAP_AT, .MGR_ROLE, .TWN_STATUS, .TWN_AGENT, .TWN_EVENTS, .ANT_COUNTS, .SIL_STATUS,
      .SIL_COUNTS, .CHR_STATUS, .CHR_ARM]
  | .drainStopBoundary => [.XBR_INFLIGHT]
  | .drainCountZero => [.XBR_INFLIGHT]
  | .drainTimeout => [.XBR_WAITS, .XBR_INFLIGHT]
  | .drainZeroReceive .. => [.FT_STATUS, .MGR_ROLE, .TWN_STATUS, .TWN_EVENTS, .ANT_COUNTS, .SIL_STATUS, .SIL_COUNTS, .CHR_STATUS,
      .CHR_ARM]
  | .swapBroadcast => []
  | .swapReceive .. => [.FT_STATUS, .EDG_CTL, .EDG_SWAP_AT, .MGR_ROLE, .TWN_STATUS, .TWN_AGENT, .TWN_EVENTS, .ANT_COUNTS, .SIL_STATUS,
      .SIL_COUNTS, .CHR_STATUS, .CHR_ARM]
  | .swapApply => [.XBR_WAITS, .XBR_HDR_ERR, .XBR_INFLIGHT, .EDG_CTL, .EDG_SWAP_AT, .EDG_DROPS, .MGR_ROUTE, .MGR_FAILURES,
      .HWK_BQ_STATUS, .SEC_SEAL_EVENTS, .ANT_COUNTS]
  | .swapMissed => [.XBR_WAITS, .XBR_HDR_ERR, .XBR_INFLIGHT, .EDG_CTL, .EDG_SWAP_AT, .EDG_DROPS, .SEC_SEAL_EVENTS, .SIL_STATUS,
      .SIL_COUNTS, .CHR_STATUS, .CHR_ARM]
  | .setRole .. => [.PRT_STATUS, .MGR_ROLE, .TWN_PORT_STATUS]
  | .mgmtRepeat .. => []
  | .nbrReportRepeat .. => []
  | .nbrReportReceive .. => [.FT_STATUS, .MGR_ROLE, .MGR_NBR, .TWN_STATUS, .TWN_EVENTS, .ANT_COUNTS, .SIL_STATUS, .SIL_COUNTS,
      .CHR_STATUS, .CHR_ARM]
  | .nbrVerdictReceive .. => [.FT_STATUS, .PRT_STATUS, .PRT_QUAL_RESULT, .MGR_ROLE, .TWN_STATUS, .TWN_AGENT, .TWN_EVENTS,
      .TWN_PORT_STATUS, .ANT_COUNTS, .INS_FAST, .SIL_STATUS, .SIL_COUNTS, .CHR_STATUS, .CHR_ARM]
  | .mapLoad .. => [.MGR_MAP]
  | .adoptNeighbour .. => [.MGR_MAP, .MGR_NBR, .ANT_COUNTS, .SIL_STATUS, .SIL_COUNTS, .CHR_STATUS, .CHR_ARM]
  | .mapUpdateReceive .. => [.FT_STATUS, .PRT_CTL, .PRT_STATUS, .PRT_PEER_ID, .PRT_PEER_SERIAL, .PRT_PEER_DEVICE, .PRT_QUAL_RESULT,
      .PRT_FEC_COUNT, .MGR_ROLE, .MGR_MAP, .TWN_STATUS, .TWN_SYNC, .TWN_AGENT, .TWN_EVENTS, .TWN_PORT_STATUS, .ANT_COUNTS, .RST_COUNTS,
      .SIL_STATUS, .SIL_COUNTS, .CHR_STATUS, .CHR_ARM]
  | .agentStatusSend => []
  | .agentStatusReceive .. => [.FT_STATUS, .MGR_ROLE, .MGR_NBR, .MGR_FAILURES, .TWN_STATUS, .TWN_EVENTS, .HWK_BQ_STATUS, .ANT_COUNTS,
      .SIL_STATUS, .SIL_COUNTS, .CHR_STATUS, .CHR_ARM]
  | .switchSilent .. => [.MGR_FAILURES, .SIL_STATUS, .SIL_COUNTS, .CHR_STATUS, .CHR_ARM]
  | .faultReceive .. => [.FT_STATUS, .MGR_ROLE, .MGR_NBR, .MGR_FAILURES, .TWN_STATUS, .TWN_EVENTS, .HWK_BQ_STATUS, .ANT_COUNTS,
      .SIL_STATUS, .SIL_COUNTS, .CHR_STATUS, .CHR_ARM]
  | .routeRecomputeDone .. => [.MGR_ROUTE, .MGR_FAILURES, .HWK_BQ_STATUS, .ANT_COUNTS]
  | .sliceTableReceive .. => [.FT_STATUS, .MGR_ROLE, .TWN_STATUS, .TWN_AGENT, .TWN_EVENTS, .SEC_STATUS, .SEC_SLICE_STATUS, .ANT_COUNTS,
      .SIL_STATUS, .SIL_COUNTS, .CHR_STATUS, .CHR_ARM]
  | .sliceCreate .. => []
  | .sliceMembers .. => []
  | .sliceQuiesce .. => []
  | .quiesceBoundary .. => [.ATL_CH_STATUS, .ATL_EVENTS]
  | .sliceQuiesced .. => []
  | .quiesceTimeout .. => []
  | .sliceResume .. => []
  | .sliceSeal .. => []
  | .sealBoundary .. => [.QUE_CTX_STATUS, .SEC_STATUS, .SEC_SLICE_STATUS]
  | .sliceDestroy .. => []
  | .switchIn .. => []
  | .switchOut .. => []
  | .planExport .. => []
  | .planPrepare .. => [.MGR_PLAN]
  | .planApplied .. => [.MGR_PLAN]
  | .planCancel .. => [.MGR_PLAN]
  | .routeStatus .. => []
  | .epDiscoverSend .. => []
  | .epIdentityReceive .. => []
  | .epHeartbeatReceive .. => []
  | .endpointSilent .. => []
  | .epochAckReceive .. => []
  | .heartbeatReceive .. => [.FT_STATUS, .MGR_ROLE, .TWN_STATUS, .TWN_HEARTBEAT, .TWN_EVENTS, .ANT_COUNTS, .SIL_STATUS, .SIL_COUNTS,
      .CHR_STATUS, .CHR_ARM]
  | .fenceOnSilence => [.FT_STATUS, .MGR_ROLE, .TWN_STATUS, .TWN_EVENTS, .ANT_COUNTS, .SIL_STATUS, .SIL_COUNTS, .CHR_STATUS, .CHR_ARM]
  | .managerListenEnd => [.MGR_ROLE, .TWN_STATUS]
  | .startProbeEnd => [.FT_COUNT, .FT_STATUS, .FT_WB_CTL, .FT_WB_BASE_FTU, .FT_WB_BASE_NUM, .FT_WB_NUM, .FT_COAST, .MGR_ROLE,
      .TWN_STATUS, .TWN_AGENT, .SIL_STATUS, .SIL_COUNTS, .CHR_STATUS, .CHR_ARM]
  | .epochProbeReceive .. => [.FT_STATUS, .MGR_ROLE, .TWN_STATUS, .TWN_EVENTS, .ANT_COUNTS, .SIL_STATUS, .SIL_COUNTS, .CHR_STATUS,
      .CHR_ARM]
  | .epochReplyReceive .. => [.FT_STATUS, .MGR_ROLE, .MGR_ROUTE, .MGR_NBR, .MGR_FAILURES, .TWN_STATUS, .TWN_EVENTS, .HWK_BQ_STATUS,
      .ANT_COUNTS, .SIL_STATUS, .SIL_COUNTS, .CHR_STATUS, .CHR_ARM]
  | .stateDeltaReceive .. => [.FT_STATUS, .MGR_ROLE, .TWN_STATUS, .TWN_SYNC, .TWN_REVERT, .TWN_EVENTS, .ANT_COUNTS, .SIL_STATUS,
      .SIL_COUNTS, .CHR_STATUS, .CHR_ARM]
  | .snapshotReceive .. => [.FT_STATUS, .MGR_ROLE, .TWN_STATUS, .TWN_SYNC, .TWN_REVERT, .TWN_EVENTS, .ANT_COUNTS, .SIL_STATUS,
      .SIL_COUNTS, .CHR_STATUS, .CHR_ARM]
  | .snapshotStart => [.TWN_SYNC]
  | .snapReqReceive .. => [.FT_STATUS, .MGR_ROLE, .TWN_STATUS, .TWN_SYNC, .TWN_EVENTS, .ANT_COUNTS, .SIL_STATUS, .SIL_COUNTS,
      .CHR_STATUS, .CHR_ARM]
  | .shadowUnsync => [.TWN_STATUS, .TWN_SYNC, .TWN_EVENTS, .ANT_COUNTS]
  | .deltaAckReceive .. => [.FT_STATUS, .MGR_ROLE, .TWN_STATUS, .TWN_EVENTS, .ANT_COUNTS, .SIL_STATUS, .SIL_COUNTS, .CHR_STATUS,
      .CHR_ARM]
  | .deltaAckTimeout => [.ANT_COUNTS]
  | .takeover => [.FT_STATUS, .FT_COAST, .MGR_ROLE, .TWN_STATUS, .TWN_AGENT, .TWN_EVENTS, .ANT_COUNTS, .SIL_STATUS, .SIL_COUNTS,
      .CHR_STATUS, .CHR_ARM]
  | .takeoverReceive .. => [.FT_STATUS, .MGR_ROLE, .TWN_STATUS, .TWN_AGENT, .TWN_EVENTS, .ANT_COUNTS, .SIL_STATUS, .SIL_COUNTS,
      .CHR_STATUS, .CHR_ARM]
  | .fencedProbe => []
  | .reclaimDecide => [.FT_STATUS, .FT_COAST, .MGR_ROLE, .TWN_STATUS, .TWN_AGENT, .TWN_EVENTS, .ANT_COUNTS, .SIL_STATUS, .SIL_COUNTS,
      .CHR_STATUS, .CHR_ARM]
  | .holdLeftZero => []
  | .takebackReceive .. => [.FT_STATUS, .MGR_ROLE, .TWN_STATUS, .TWN_EVENTS, .ANT_COUNTS, .SIL_STATUS, .SIL_COUNTS, .CHR_STATUS,
      .CHR_ARM]
  | .takebackTimeout => [.TWN_REVERT]
  | .takebackHandover => [.FT_STATUS, .MGR_ROLE, .TWN_STATUS, .TWN_SYNC]
  | .takebackComplete => [.FT_STATUS, .FT_COAST, .MGR_ROLE, .TWN_STATUS, .TWN_REVERT, .TWN_AGENT, .TWN_EVENTS, .ANT_COUNTS, .SIL_STATUS,
      .SIL_COUNTS, .CHR_STATUS, .CHR_ARM]
  | .revertCtl .. => [.TWN_STATUS, .TWN_REVERT]
  | .ctxCreate .. => [.QUE_CTX_STATUS]
  | .ctxBind .. => []
  | .ctxUnbind .. => []
  | .ctxReset .. => [.QUE_CTX_STATUS]
  | .ctxDestroy .. => [.QUE_CTX_STATUS]
  | .contextResetBoundary .. => [.FT_STATUS, .MGR_ROLE, .TWN_STATUS, .TWN_EVENTS, .QUE_CFG, .QUE_RING_BASE, .QUE_CQ_BASE, .QUE_INDEX,
      .QUE_CQ_INDEX, .QUE_CTX_STATUS, .QUE_DROPS, .ACD_SLOTS, .HWK_CORE_STATUS, .HWK_CORE_COUNTS, .HWK_WING_STATUS, .HWK_REPORTS,
      .HWK_BQ_STATUS, .HWK_BQ_START, .HBM_POOL, .ATL_CH_STATUS, .ANT_COUNTS, .PWR_STATUS, .SIL_STATUS, .SIL_COUNTS, .CHR_STATUS,
      .CHR_ARM]
  | .contextResetRelease .. => RegName.list
  | .queue .. => [.QUE_CFG, .QUE_RING_BASE, .QUE_CQ_BASE, .QUE_INDEX, .QUE_CQ_INDEX]
  | .channel .. => [.ATL_CH_STATUS]
  | .pageGrant .. => [.HBM_POOL]
  | .grantZerofillDone .. => []
  | .pageUngrant .. => [.HBM_POOL]
  | .frameScrubDone .. => [.HBM_POOL]
  | .skipGroup .. => [.SKP_GROUP_STATUS]
  | .dbSubmit .. => [.QUE_INDEX, .QUE_DROPS]
  | .dbCqHead .. => [.QUE_CQ_INDEX, .QUE_DROPS]
  | .dbResume .. => [.QUE_CFG, .QUE_INDEX, .QUE_DROPS]
  | .commandStart .. => [.QUE_INDEX]
  | .lapReread .. => [.QUE_INDEX]
  | .lapTimeout .. => [.QUE_INDEX]
  | .nop .. => []
  | .coll .. => [.XBR_HDR_ERR, .EDG_DROPS, .ACD_SLOTS, .ACD_SLOWEST, .ACD_LATE_HIST, .SKP_GROUP_STATUS, .SKP_EVENTS]
  | .skip .. => [.XBR_HDR_ERR, .EDG_DROPS, .SKP_GROUP_STATUS, .SKP_EVENTS]
  | .poolRead .. => [.XBR_HDR_ERR, .EDG_DROPS]
  | .poolWrite .. => [.XBR_HDR_ERR, .EDG_DROPS]
  | .dma .. => [.XBR_HDR_ERR, .EDG_DROPS, .ATL_CH_STATUS, .ATL_EVENTS]
  | .op .. => []
  | .wait .. => []
  | .signal .. => []
  | .fence .. => []
  | .fenceComplete .. => []
  | .commandComplete .. => [.XBR_HDR_ERR, .EDG_DROPS, .QUE_CQ_INDEX, .QUE_DROPS, .HWK_CORE_STATUS, .HWK_CORE_COUNTS]
  | .grantReceive .. => [.XBR_HDR_ERR, .EDG_DROPS]
  | .grantRequestReceive .. => [.XBR_HDR_ERR, .EDG_DROPS, .ACD_SLOTS]
  | .grantRefuseReceive .. => [.XBR_HDR_ERR, .EDG_DROPS, .ACD_SLOTS]
  | .grantRepeat .. => [.XBR_HDR_ERR, .EDG_DROPS]
  | .slotAssign .. => [.XBR_HDR_ERR, .EDG_DROPS]
  | .collUpReceive .. => [.XBR_HDR_ERR, .EDG_DROPS, .QUE_DROPS, .ACD_EVENTS, .ACD_CHECK, .ACD_SLOWEST, .ACD_LATE_HIST,
      .SKP_GROUP_STATUS, .SKP_EVENTS]
  | .chunkReduceComplete .. => [.XBR_HDR_ERR, .EDG_DROPS, .ACD_CHECK]
  | .collDownReceive .. => [.XBR_HDR_ERR, .EDG_DROPS, .EDG_E2E, .HBM_ECC, .HBM_ACCESS_ERR]
  | .nodeSlotsObtained .. => [.ACD_SLOTS, .ACD_EVENTS]
  | .spill .. => [.ACD_SLOTS, .ACD_EVENTS]
  | .spillGiveUp .. => [.XBR_HDR_ERR, .EDG_DROPS, .ACD_SLOTS]
  | .chunkSlip .. => [.ACD_EVENTS]
  | .chunkAbort .. => [.XBR_HDR_ERR, .EDG_DROPS, .ACD_EVENTS, .SKP_GROUP_STATUS, .SKP_EVENTS]
  | .resultTimeout .. => [.XBR_HDR_ERR, .EDG_DROPS, .ACD_EVENTS]
  | .skipperReceive .. => [.XBR_HDR_ERR, .EDG_DROPS, .SKP_GROUP_STATUS, .SKP_EVENTS]
  | .skipperRepeat .. => [.XBR_HDR_ERR, .EDG_DROPS]
  | .bqLoad .. => []
  | .bqLoadCheck .. => [.FT_STATUS, .MGR_ROLE, .TWN_STATUS, .TWN_AGENT, .TWN_EVENTS, .HWK_LOAD_RESULT, .HWK_LOAD_AMOUNT,
      .SEC_SEAL_EVENTS, .ANT_COUNTS, .SIL_STATUS, .SIL_COUNTS, .CHR_STATUS, .CHR_ARM]
  | .bqLoadTimeout .. => []
  | .bqCommitReceive .. => [.FT_STATUS, .MGR_ROLE, .TWN_STATUS, .TWN_AGENT, .TWN_EVENTS, .ACD_SLOTS, .HWK_WING_STATUS, .HWK_BQ_STATUS,
      .HWK_BQ_START, .ANT_COUNTS, .SIL_STATUS, .SIL_COUNTS, .CHR_STATUS, .CHR_ARM]
  | .bqStart .. => [.ACD_SLOTS, .HWK_WING_STATUS, .HWK_BQ_STATUS, .HWK_BQ_START]
  | .stepRun .. => [.XBR_HDR_ERR, .EDG_DROPS, .HWK_CORE_STATUS, .HWK_CORE_COUNTS, .HWK_BQ_STATUS]
  | .stepComplete .. => [.QUE_CQ_INDEX, .HWK_CORE_STATUS, .HWK_CORE_COUNTS, .HWK_REPORTS]
  | .opStepStart .. => [.XBR_HDR_ERR, .EDG_DROPS, .HWK_CORE_STATUS, .HWK_CORE_COUNTS, .HWK_BQ_STATUS]
  | .opNoFit .. => []
  | .bqUnload .. => []
  | .bqUnloadBoundary .. => [.ACD_SLOTS, .HWK_WING_STATUS, .HWK_BQ_STATUS, .HWK_BQ_START]
  | .bqUnloadRelease .. => [.ACD_SLOTS, .HWK_WING_STATUS, .HWK_BQ_STATUS, .HWK_BQ_START]
  | .bqStatus .. => []
  | .tileReload .. => []
  | .poolWriteRequest .. => [.XBR_HDR_ERR, .EDG_DROPS, .EDG_E2E, .HBM_ECC, .HBM_ACCESS_ERR]
  | .poolReadRequest .. => [.XBR_HDR_ERR, .EDG_DROPS, .HBM_ECC, .HBM_ACCESS_ERR]
  | .readRespReceive .. => [.XBR_HDR_ERR, .EDG_DROPS, .ATL_CH_STATUS]
  | .windowRequest .. => [.XBR_HDR_ERR, .EDG_DROPS]
  | .refusalMarkerSend .. => []
  | .windowEntryFree .. => [.XBR_HDR_ERR, .EDG_DROPS]
  | .eccCorrected .. => [.HBM_ECC, .HBM_RETIRE]
  | .eccUncorrectable .. => [.HBM_ECC, .HBM_RETIRE, .SIL_STATUS, .SIL_COUNTS, .CHR_STATUS, .CHR_ARM]
  | .retireCopyDone .. => [.HBM_STACK_STATUS, .HBM_RETIRE, .INS_FAST, .SPR_STATUS, .SPR_EVENTS, .SIL_STATUS, .SIL_COUNTS, .CHR_STATUS,
      .CHR_ARM]
  | .retireThreshold .. => [.HBM_RETIRE]
  | .atlBufferGrant .. => [.XBR_HDR_ERR, .EDG_DROPS, .ATL_CH_STATUS, .ATL_EVENTS]
  | .descriptorFinish .. => [.XBR_HDR_ERR, .EDG_DROPS, .ATL_CH_STATUS, .ATL_EVENTS]
  | .descriptorRefused .. => [.XBR_HDR_ERR, .EDG_DROPS, .ATL_CH_STATUS, .ATL_EVENTS]
  | .atlStop .. => [.ATL_CH_SEL, .ATL_CH_STATUS, .ATL_EVENTS]
  | .atsGo .. => [.ATS_CH_STATUS]
  | .atsStop .. => [.ATS_CH_LOCK, .ATS_CH_STATUS, .ATS_CQ_INDEX]
  | .atsFence .. => [.ATS_CQ_INDEX]
  | .atsChannelServe => [.ATS_CH_LOCK, .ATS_CH_STATUS, .ATS_CQ_INDEX, .DB_IN, .DB_OUT]
  | .atsRingRoom .. => [.ATS_CH_LOCK, .ATS_CH_STATUS, .ATS_CQ_INDEX, .DB_IN, .DB_OUT]
  | .atsChLockRead .. => [.ATS_CH_LOCK]
  | .atsChLockRelease .. => [.ATS_CH_LOCK]
  | .hostResponseReceive .. => [.ATS_CH_LOCK, .ATS_CH_STATUS, .ATS_CQ_INDEX, .DB_IN, .DB_OUT, .ANT_COUNTS]
  | .hostTimeout .. => [.ATS_CH_LOCK, .ATS_CH_STATUS, .ATS_CQ_INDEX, .CTL_SEM, .CTL_EPOCHS, .MBX_DATA, .MBX_STATUS, .MBX_ACK, .MBX_LOCK,
      .DB_IN, .DB_OUT, .ANT_STATUS, .ANT_COUNTS, .SIL_CURSOR]
  | .attest .. => [.SEC_STATUS, .SEC_XMSS_INDEX, .SEC_XMSS_RESERVED]
  | .certChain .. => []
  | .measureRead .. => []
  | .keyDeliver .. => [.QUE_CTX_STATUS, .SEC_STATUS, .SEC_SLICE_STATUS]
  | .kemKeyExpire .. => []
  | .sealIntervalEnd .. => []
  | .sealSetSend .. => []
  | .sealSetReceive .. => [.PRT_STATUS, .PRT_EVENTS, .XBR_HDR_ERR, .EDG_DROPS, .EDG_E2E, .TWN_STATUS, .TWN_SYNC, .TWN_EVENTS,
      .TWN_PORT_STATUS, .QUE_DROPS, .SEC_SEAL_EVENTS, .ANT_COUNTS, .INS_FAST, .SIL_STATUS, .SIL_COUNTS, .CHR_STATUS, .CHR_ARM]
  | .sealSetTimeout .. => [.PRT_STATUS, .PRT_EVENTS, .TWN_STATUS, .TWN_SYNC, .TWN_EVENTS, .TWN_PORT_STATUS, .SEC_SEAL_EVENTS,
      .ANT_COUNTS, .INS_FAST, .SIL_STATUS, .SIL_COUNTS, .CHR_STATUS, .CHR_ARM]
  | .antSignalDetect .. => [.ATS_CH_LOCK, .ATS_CH_STATUS, .ATS_CQ_INDEX, .CTL_SEM, .CTL_EPOCHS, .MBX_DATA, .MBX_STATUS, .MBX_ACK,
      .MBX_LOCK, .DB_IN, .DB_OUT, .ANT_STATUS, .ANT_COUNTS, .SIL_CURSOR]
  | .antFecAlign .. => [.ATS_CH_LOCK, .ATS_CH_STATUS, .ATS_CQ_INDEX, .CTL_SEM, .CTL_EPOCHS, .MBX_DATA, .MBX_STATUS, .MBX_ACK, .MBX_LOCK,
      .DB_IN, .DB_OUT, .ANT_STATUS, .ANT_COUNTS, .SIL_CURSOR]
  | .antTrainTimeout .. => [.ATS_CH_LOCK, .ATS_CH_STATUS, .ATS_CQ_INDEX, .CTL_SEM, .CTL_EPOCHS, .MBX_DATA, .MBX_STATUS, .MBX_ACK,
      .MBX_LOCK, .DB_IN, .DB_OUT, .ANT_STATUS, .ANT_COUNTS, .SIL_CURSOR]
  | .antLoss .. => [.ATS_CH_LOCK, .ATS_CH_STATUS, .ATS_CQ_INDEX, .CTL_SEM, .CTL_EPOCHS, .MBX_DATA, .MBX_STATUS, .MBX_ACK, .MBX_LOCK,
      .DB_IN, .DB_OUT, .ANT_STATUS, .ANT_COUNTS, .SIL_CURSOR]
  | .antInitSend .. => [.ANT_STATUS]
  | .antInitReceive .. => [.ATS_CH_LOCK, .ATS_CH_STATUS, .ATS_CQ_INDEX, .CTL_SEM, .CTL_EPOCHS, .MBX_DATA, .MBX_STATUS, .MBX_ACK,
      .MBX_LOCK, .DB_IN, .DB_OUT, .ANT_STATUS, .ANT_COUNTS, .SIL_CURSOR]
  | .antRead .. => [.HBM_ECC, .ATS_CH_LOCK, .CTL_SEM, .MBX_LOCK, .ANT_COUNTS, .SIL_CURSOR, .SIL_WINDOW]
  | .antWrite .. => RegName.list
  | .antMbxSend .. => [.CTL_EPOCHS, .MBX_DATA, .MBX_STATUS, .MBX_ACK, .DB_IN, .DB_OUT, .ANT_COUNTS]
  | .antLinkAck .. => [.ANT_COUNTS]
  | .antLinkNak .. => [.ATS_CH_LOCK, .ATS_CH_STATUS, .ATS_CQ_INDEX, .CTL_SEM, .CTL_EPOCHS, .MBX_DATA, .MBX_STATUS, .MBX_ACK, .MBX_LOCK,
      .DB_IN, .DB_OUT, .ANT_STATUS, .ANT_COUNTS, .SIL_CURSOR]
  | .antReplayTimeout .. => [.ATS_CH_LOCK, .ATS_CH_STATUS, .ATS_CQ_INDEX, .CTL_SEM, .CTL_EPOCHS, .MBX_DATA, .MBX_STATUS, .MBX_ACK,
      .MBX_LOCK, .DB_IN, .DB_OUT, .ANT_STATUS, .ANT_COUNTS, .SIL_CURSOR]
  | .antLinkAckSend .. => []
  | .antRetrain .. => [.ATS_CH_LOCK, .ATS_CH_STATUS, .ATS_CQ_INDEX, .CTL_SEM, .CTL_EPOCHS, .MBX_DATA, .MBX_STATUS, .MBX_ACK, .MBX_LOCK,
      .DB_IN, .DB_OUT, .ANT_STATUS, .ANT_COUNTS, .SIL_CURSOR]
  | .eventFrameSend .. => []
  | .ownerRestart .. => [.ATS_CH_LOCK, .CTL_SEM, .CTL_EPOCHS, .MBX_DATA, .MBX_STATUS, .MBX_ACK, .MBX_LOCK, .DB_IN, .DB_OUT, .SIL_CURSOR]
  | .ctlSemRead .. => [.CTL_SEM]
  | .ctlSemRelease .. => [.CTL_SEM]
  | .mbxLockRead .. => [.MBX_LOCK]
  | .mbxLockRelease .. => [.MBX_LOCK]
  | .mbxPost .. => [.CTL_EPOCHS, .MBX_DATA, .MBX_STATUS, .MBX_ACK, .DB_IN, .DB_OUT]
  | .mbxAcknowledge .. => [.MBX_STATUS, .MBX_ACK, .DB_IN, .DB_OUT]
  | .doorbellFrameSend .. => []
  | .fwCommandAccept .. => [.SEC_SEAL_EVENTS, .MBX_STATUS, .MBX_ACK, .DB_IN, .DB_OUT]
  | .resultPost .. => [.CTL_EPOCHS, .MBX_DATA, .MBX_STATUS, .MBX_ACK, .DB_IN, .DB_OUT]
  | .fwStage .. => []
  | .fwBroadcast .. => []
  | .fwBroadcastTimeout => []
  | .fwOfferReceive .. => [.FT_STATUS, .MGR_ROLE, .TWN_STATUS, .TWN_AGENT, .TWN_EVENTS, .ANT_COUNTS, .SIL_STATUS, .SIL_COUNTS,
      .CHR_STATUS, .CHR_ARM]
  | .fwPieceReceive .. => [.FT_STATUS, .MGR_ROLE, .TWN_STATUS, .TWN_AGENT, .TWN_EVENTS, .ANT_COUNTS, .SIL_STATUS, .SIL_COUNTS,
      .CHR_STATUS, .CHR_ARM]
  | .fwNeedReceive .. => [.FT_STATUS, .MGR_ROLE, .TWN_STATUS, .TWN_EVENTS, .ANT_COUNTS, .SIL_STATUS, .SIL_COUNTS, .CHR_STATUS, .CHR_ARM]
  | .fwResultReceive .. => [.FT_STATUS, .MGR_ROLE, .TWN_STATUS, .TWN_EVENTS, .ANT_COUNTS, .SIL_STATUS, .SIL_COUNTS, .CHR_STATUS,
      .CHR_ARM]
  | .fwStatus .. => []
  | .fwRestart .. => [.ATS_CH_LOCK, .CTL_SEM, .CTL_EPOCHS, .MBX_DATA, .MBX_STATUS, .MBX_ACK, .MBX_LOCK, .DB_IN, .DB_OUT, .SIL_CURSOR]
  | .portQualify .. => [.PRT_CTL, .PRT_STATUS, .PRT_PEER_ID, .PRT_PEER_SERIAL, .PRT_PEER_DEVICE, .PRT_QUAL_RESULT, .PRT_FEC_COUNT,
      .TWN_STATUS, .TWN_SYNC, .TWN_EVENTS, .TWN_PORT_STATUS, .ANT_COUNTS, .RST_COUNTS, .SIL_STATUS, .SIL_COUNTS, .CHR_STATUS, .CHR_ARM]
  | .portReset .. => [.PRT_STATUS, .PRT_PEER_ID, .PRT_PEER_SERIAL, .PRT_PEER_DEVICE, .PRT_QUAL_RESULT, .PRT_FEC_COUNT, .TWN_STATUS,
      .TWN_SYNC, .TWN_EVENTS, .TWN_PORT_STATUS, .ANT_COUNTS, .RST_COUNTS, .SIL_STATUS, .SIL_COUNTS, .CHR_STATUS, .CHR_ARM]
  | .portQuarantine .. => [.PRT_STATUS, .TWN_PORT_STATUS, .SIL_STATUS, .SIL_COUNTS, .CHR_STATUS, .CHR_ARM]
  | .serviceCfg .. => []
  | .sessionOpen .. => []
  | .sessionClose .. => []
  | .resetWarm .. => RegName.list
  | .resetCompute .. => [.FT_STATUS, .MGR_ROLE, .TWN_STATUS, .TWN_EVENTS, .QUE_CFG, .QUE_RING_BASE, .QUE_CQ_BASE, .QUE_INDEX,
      .QUE_CQ_INDEX, .QUE_DOORBELL, .QUE_CTX_STATUS, .QUE_DROPS, .ACD_SLOTS, .ACD_SLOWEST, .ACD_LATE_HIST, .HWK_CORE_STATUS,
      .HWK_WING_STATUS, .HWK_BQ_STATUS, .HWK_BQ_START, .HBM_POOL, .ATL_CH_STATUS, .ATS_CH_CTL, .ANT_COUNTS, .RST_CAUSE, .RST_COUNTS,
      .PWR_STATUS, .SIL_STATUS, .SIL_COUNTS, .CHR_CTL, .CHR_STATUS, .CHR_ARM]
  | .resetRole .. => [.FT_STATUS, .MGR_ROLE, .MGR_ROUTE, .MGR_PLAN, .MGR_NBR, .MGR_FAILURES, .TWN_STATUS, .TWN_HEARTBEAT, .TWN_SYNC,
      .TWN_REVERT, .QUE_DOORBELL, .ATS_CH_CTL, .RST_CAUSE, .RST_COUNTS, .CHR_CTL]
  | .computeResetBoundary => [.FT_STATUS, .MGR_ROLE, .TWN_STATUS, .TWN_EVENTS, .QUE_CFG, .QUE_RING_BASE, .QUE_CQ_BASE, .QUE_INDEX,
      .QUE_CQ_INDEX, .QUE_DOORBELL, .QUE_CTX_STATUS, .QUE_DROPS, .ACD_SLOTS, .ACD_SLOWEST, .ACD_LATE_HIST, .HWK_CORE_STATUS,
      .HWK_WING_STATUS, .HWK_BQ_STATUS, .HWK_BQ_START, .HBM_POOL, .ATL_CH_STATUS, .ATS_CH_CTL, .ANT_COUNTS, .RST_CAUSE, .RST_COUNTS,
      .PWR_STATUS, .SIL_STATUS, .SIL_COUNTS, .CHR_CTL, .CHR_STATUS, .CHR_ARM]
  | .computeResetReady => [.ACD_SLOTS, .HWK_CORE_STATUS, .HWK_WING_STATUS, .SPR_FREE, .WST_STATUS]
  | .managerWatchdog => [.FT_STATUS, .MGR_ROLE, .MGR_ROUTE, .MGR_PLAN, .MGR_NBR, .MGR_FAILURES, .TWN_STATUS, .TWN_HEARTBEAT, .TWN_SYNC,
      .TWN_REVERT, .QUE_DOORBELL, .ATS_CH_CTL, .RST_CAUSE, .RST_COUNTS, .CHR_CTL]
  | .powerActive .. => [.PWR_STATUS, .AON_CMP_CTL]
  | .powerDoze .. => [.PWR_STATUS, .AON_CMP_CTL]
  | .powerSleep .. => RegName.list
  | .powerDeep .. => RegName.list
  | .forwardOnlyEnter .. => [.FT_STATUS, .MGR_ROLE, .TWN_STATUS, .TWN_EVENTS, .ANT_COUNTS, .PWR_STATUS, .SIL_STATUS, .SIL_COUNTS,
      .CHR_STATUS, .CHR_ARM]
  | .forwardOnlyLeave .. => [.ATS_CH_LOCK, .CTL_SEM, .CTL_EPOCHS, .MBX_DATA, .MBX_STATUS, .MBX_ACK, .MBX_LOCK, .DB_IN, .DB_OUT,
      .PWR_STATUS, .SIL_STATUS, .SIL_COUNTS, .SIL_CURSOR, .CHR_STATUS, .CHR_ARM]
  | .fwdOnlyContextReset => [.QUE_CFG, .QUE_RING_BASE, .QUE_CQ_BASE, .QUE_INDEX, .QUE_CQ_INDEX, .QUE_DOORBELL, .QUE_CTX_STATUS,
      .QUE_DROPS, .ACD_SLOTS, .ACD_SLOWEST, .ACD_LATE_HIST, .HWK_CORE_STATUS, .HWK_WING_STATUS, .HWK_BQ_STATUS, .HWK_BQ_START,
      .HBM_POOL, .ATL_CH_STATUS, .ATS_CH_CTL, .CHR_CTL]
  | .fwdOnlyHalt => [.MGR_ROUTE, .MGR_PLAN, .MGR_NBR, .ACD_SLOTS]
  | .escalation .. => [.RST_ESC_LIMITS]
  | .counters .. => []
  | .comparatorFire .. => [.FT_STATUS, .MGR_ROLE, .TWN_STATUS, .TWN_EVENTS, .ANT_COUNTS, .PWR_STATUS, .AON_CMP_EVENTS, .SIL_STATUS,
      .SIL_COUNTS, .CHR_STATUS, .CHR_ARM]
  | .comparatorClear .. => [.AON_CMP_EVENTS]
  | .hardwareTrip => RegName.list
  | .powerMeasure .. => [.PWR_MEASURE]
  | .powerLimit => [.FT_STATUS, .MGR_ROLE, .TWN_STATUS, .TWN_EVENTS, .ANT_COUNTS, .PWR_STATUS, .SIL_STATUS, .SIL_COUNTS, .CHR_STATUS,
      .CHR_ARM]
  | .firmwareWatchdogLimit .. => [.FT_STATUS, .MGR_ROLE, .TWN_STATUS, .TWN_EVENTS, .ANT_COUNTS, .PWR_STATUS, .SIL_STATUS, .SIL_COUNTS,
      .CHR_STATUS, .CHR_ARM]
  | .unitFailed .. => [.QUE_CQ_INDEX, .HWK_CORE_STATUS, .HWK_CORE_COUNTS, .HWK_REPORTS, .SIL_STATUS, .SIL_COUNTS, .CHR_STATUS, .CHR_ARM]
  | .defectCommit => [.INS_FAST, .SPR_STATUS, .SPR_MAP, .SPR_EVENTS]
  | .spareTakeover => [.FT_STATUS, .PRT_STATUS, .PRT_EVENTS, .MGR_ROLE, .TWN_STATUS, .TWN_SYNC, .TWN_EVENTS, .TWN_PORT_STATUS,
      .ACD_SLOTS, .HWK_CORE_STATUS, .HWK_WING_STATUS, .HWK_BQ_STATUS, .ANT_COUNTS, .INS_FAST, .PWR_STATUS, .SPR_MAP, .SPR_FREE,
      .SPR_EVENTS, .SIL_STATUS, .SIL_COUNTS, .CHR_STATUS, .CHR_ARM, .WST_STATUS]
  | .essentialUnitFail .. => [.FT_STATUS, .PRT_CTL, .PRT_STATUS, .MGR_ROLE, .TWN_STATUS, .TWN_SYNC, .TWN_EVENTS, .TWN_PORT_STATUS,
      .ANT_COUNTS, .PWR_STATUS, .SIL_STATUS, .SIL_COUNTS, .CHR_STATUS, .CHR_ARM]
  | .defectRead .. => []
  | .spareStatus .. => []
  | .wingStatus .. => []
  | .persistWrite => [.SIL_CFG, .SIL_COUNTS]
  | .silCursorWrite .. => [.SIL_CURSOR, .SIL_WINDOW]
  | .silWindow7AutoRead .. => [.SIL_CURSOR, .SIL_WINDOW]
  | .silClear .. => [.SIL_STATUS, .SIL_COUNTS, .CHR_STATUS, .CHR_ARM]
  | .silConfig .. => [.HBM_POOL, .SIL_STATUS, .SIL_CFG, .SIL_COUNTS]
  | .freezePin => [.CHR_STATUS, .CHR_ARM]
  | .chrFreeze .. => [.CHR_STATUS, .CHR_ARM]
  | .chrArm .. => [.CHR_ARM]
  | .freezeDelayEnd => [.SIL_STATUS, .SIL_COUNTS, .CHR_STATUS, .CHR_FREEZE_FTU, .CHR_ARM]
  | .chrStart .. => [.CHR_STATUS]
  | .chrNext .. => [.CHR_HALF]
  | .chrRelease .. => RegName.list
  | .readoutHalfReady .. => [.CHR_STATUS, .CHR_HALF]
  | .readoutHang .. => [.SIL_STATUS, .SIL_COUNTS, .CHR_STATUS, .CHR_ARM]
  | .acdSliceClear .. => [.ACD_SLICE_SEL, .ACD_SLOWEST, .ACD_LATE_HIST]
  | .registerWrite .. => RegName.list
  | .porAssert .. => RegName.list
  | .resetRelease .. => [.MGR_ROLE, .SEC_STATUS, .RST_CAUSE]
  | .warmAssert => RegName.list
  | .warmRelease .. => [.MGR_ROLE, .SEC_STATUS, .INS_STATUS, .RST_CAUSE, .RST_COUNTS, .PWR_STATUS, .SIL_STATUS, .SIL_CFG]
  | .vinLoss => RegName.list
  | .sysclkLoss => RegName.list
  | .srefclkLoss .. => [.PRT_STATUS, .PRT_EVENTS, .TWN_STATUS, .TWN_SYNC, .TWN_EVENTS, .TWN_PORT_STATUS, .ATS_CH_LOCK, .ATS_CH_STATUS,
      .ATS_CQ_INDEX, .CTL_SEM, .CTL_EPOCHS, .MBX_DATA, .MBX_STATUS, .MBX_ACK, .MBX_LOCK, .DB_IN, .DB_OUT, .ANT_STATUS, .ANT_COUNTS,
      .INS_FAST, .SIL_STATUS, .SIL_COUNTS, .SIL_CURSOR, .CHR_STATUS, .CHR_ARM]
  | .debugExtest .. => RegName.list
  | .stage1Done .. => [.HBM_RETIRE, .SEC_STATUS, .SEC_DEVICE_ID, .SEC_XMSS_INDEX, .SEC_XMSS_RESERVED, .INS_STATUS, .INS_LIFE, .INS_FAST,
      .SPR_STATUS, .SIL_STATUS, .SIL_CFG, .SIL_COUNTS, .CHR_STATUS, .CHR_ARM]
  | .stage2Done .. => [.SEC_STATUS, .INS_STATUS, .SIL_STATUS, .SIL_COUNTS, .CHR_STATUS, .CHR_ARM]
  | .insGoFirmware .. => [.INS_CTL, .INS_STATUS, .SIL_STATUS, .SIL_COUNTS, .CHR_STATUS, .CHR_ARM]
  | .stage3Done .. => [.SEC_STATUS, .INS_STATUS, .INS_IMAGE, .SIL_STATUS, .SIL_COUNTS, .CHR_STATUS, .CHR_ARM, .WST_STATUS]
  | .insGoStartTest .. => [.INS_CTL, .INS_STATUS, .WST_STATUS]
  | .stage4Done .. => [.ACD_SLOTS, .HWK_CORE_STATUS, .HWK_WING_STATUS, .INS_STATUS, .INS_TEST, .INS_FAST, .SPR_STATUS, .SPR_MAP,
      .SPR_FREE, .SPR_EVENTS, .SIL_STATUS, .SIL_COUNTS, .CHR_STATUS, .CHR_ARM, .WST_STATUS, .WST_TEST]
  | .insGoHbm .. => [.ACD_SLOTS, .HWK_CORE_STATUS, .HWK_WING_STATUS, .INS_CTL, .INS_STATUS, .SPR_MAP, .SPR_FREE, .WST_STATUS]
  | .stage5Done .. => [.HBM_STACK_STATUS, .HBM_RETIRE, .INS_STATUS, .INS_TEST, .INS_FAST, .RST_CAUSE, .SPR_STATUS, .SPR_EVENTS,
      .SIL_STATUS, .SIL_CFG, .SIL_COUNTS, .CHR_STATUS, .CHR_ARM]
  | .insGoPorts .. => [.PRT_CTL, .PRT_STATUS, .TWN_PORT_STATUS, .INS_CTL, .INS_STATUS, .INS_PORTS, .SIL_STATUS, .SIL_COUNTS,
      .CHR_STATUS, .CHR_ARM]
  | .stage6End => [.INS_STATUS, .INS_PORTS, .SIL_STATUS, .SIL_COUNTS, .CHR_STATUS, .CHR_ARM]
  | .insGoRole .. => [.INS_CTL, .INS_STATUS]
  | .insGoTime .. => [.FT_STATUS, .TWN_STATUS, .INS_CTL]
  | .stage7Done => [.INS_STATUS, .SIL_STATUS, .SIL_COUNTS, .CHR_STATUS, .CHR_ARM]
  | .imagoCheck .. => [.HBM_POOL, .INS_STATUS, .SIL_STATUS, .SIL_CFG, .SIL_COUNTS, .CHR_STATUS, .CHR_ARM]
  | .instarStageTimeout => [.INS_STATUS, .SIL_STATUS, .SIL_COUNTS, .CHR_STATUS, .CHR_ARM]
  | .laneLock .. => [.PRT_STATUS, .TWN_PORT_STATUS]
  | .sysclkReturn .. => [.MGR_ROLE, .SEC_STATUS, .RST_CAUSE]
  | .srefclkReturn .. => []

end Sys2Proof
end

