-- ==== Sys2Proof/Certificates/Slice0/Obligations.lean ====
section
/-! DEFINITION. Sys2Proof/Certificates/Slice0/Obligations.lean: the statements about the part. -/

open Sys2Proof Sys2Proof.Machine

/-- Wingbeats, base pairs and length changes (R27, R28, R34): each command of this family completes: from the states named here it
answers a next state, with the effect written here. The tick of wingbeat n + 1 comes when the counter has reached its start; WB_LENGTH
broadcasts a change with a boundary at least 256 wingbeats ahead (how far beyond is a free value, log entry 7); the Monarch decides at
m - 128, an undecided agent asks at m - 16, and at m a committed agent takes the new base pair and length. -/
def Obligations.wingbeatsAndLengthChangesComplete : Prop :=
  (∀ s : State, s.running = true → s.time.based = true → 0 ≤ (s.ftu - s.tickFtu (s.wb + 1)).toInt →
    exec .wingbeatTick s = .next (s.tick (s.wb + 1))) ∧
  (∀ (s : State) (r : FwRef) (len : Fin 4), s.manages → s.anyBouquet = false →
    ∃ (v : Nat) (t : State), exec (.wbLength r len) s = .next t
      ∧ t.time.change = some ⟨s.wb + 256#48 + BitVec.ofNat 48 (v % 2 ^ 32), len, [], none, r⟩
      ∧ t.out = s.out ++ [.mgmt 0xFFFF s.mgrEpoch s.agent.nextSeq
          (.wbChange (.change (s.wb + 256#48 + BitVec.ofNat 48 (v % 2 ^ 32)) len))]) ∧
  (∀ (s : State) (h : MsgHdr) (m : Wb) (len : Fin 4), s.hears h →
    exec (.wbChangeReceive h (.change m len)) s
      = .next (((s.noteSeen h).agentChange (.change m len)).sendMgmt 0xFFFE (.wbChange (.ack m)))) ∧
  (∀ (s : State) (h : MsgHdr) (m : Wb), s.managerHears h →
    exec (.wbChangeReceive h (.ack m)) s = .next ((s.noteSeen h).noteChangeAck h.src m)) ∧
  (∀ (s : State) (c : MonChange), s.running = true → s.time.change = some c → s.isActive = true → c.decision = none →
    s.reached (c.m - 128#48) = true → (∀ a ∈ s.agents, c.acks.any (fun b => b.val == a) = true) →
    exec .wbChangeDecide s
      = .next ((({ s with time := { s.time with change := some { c with decision := some true } } }).sendMgmt 0xFFFF
          (.wbChange (.commit c.m))).finishFw c.ref ACK_OK (c.m.toNat % 2 ^ 32))) ∧
  (∀ s : State, s.running = true → s.flag F.FT_WB_CTL_PENDING = true → s.time.decision = none →
    s.reached (s.changeAt - 16#48) = true →
    exec .wbChangeQuery s = .next (s.askMgmt 0xFFFE (.wbChange (.query s.changeAt)))) ∧
  (∀ s : State, s.running = true → s.flag F.FT_WB_CTL_PENDING = true → s.reached s.changeAt = true →
    s.time.decision = some true →
    exec .wbChangeApply s
      = .next (s.clearChange.setBase (s.tickFtu s.changeAt) s.changeAt (s.fld F.FT_WB_CTL_PENDING_LENGTH))) ∧
  (∀ (s : State) (h : MsgHdr) (b : WbBase), s.hears h → s.fld F.FT_STATUS_STATE ≠ TS_LOCKED →
    ∃ t, exec (.wbBaseReceive h b) s = .next t ∧ t.time.based = true ∧ t.time.stale = false) ∧
  (∀ (s : State) (wing : Wing) (x : StepRun) (p : BqPart) (st : BqStep) (n : BqNode), s.running = true →
    s.hawk.runs = [x] → s.coll.nodes = [] → s.stepNode x = some (p, st, n) → n.wing = wing.val → x.wb ≠ s.wb → x.op = none →
    s.stepStatus x ≠ ST_FAULT_UNIT → s.fresh.2.resetNow n.ctx = false →
    ∃ v : Nat, exec (.budgetOverrun wing) s
      = .next (((s.fresh.2.endStep x ST_OVERRUN (v % (x.extent + 1))).bump (overrunFld wing.val)).stopIn x.handle n.ctx))

/-- The TIME exchange and the PPS signals (R38 to R40, R43): each command of this family completes: from the states named here it
answers a next state, with the effect written here. -/
def Obligations.fabricTimeCommandsComplete : Prop :=
  (∀ (s : State) (l : Link), s.running = true → s.trained l.val = true →
    exec (.timeSetSend l) s = .next (s.timeSet l)) ∧
  (∀ (s : State) (l : Link) (t : TimeSet), s.running = true → t.checkOk = true → s.trained l.val = true →
    (s.port l.val).time.sent = [] → s.steersTo l.val = false →
    ∃ u, exec (.timeSetReceive l t) s = .next u ∧ u = s.modPort l.val fun p =>
      { p with time := { p.time with last := some (t.seq, s.ftu) } }) ∧
  (∀ s : State, s.running = true → s.upstreamLost = true → s.fld F.FT_STATUS_STATE = TS_ACQUIRE →
    upstreamLink (s.fld F.FT_STATUS_ALTERNATE) = none →
    ∃ t : State, exec .lossOfUpstream s = .next (t.sillage 0x01 0x02 1 []) ∧ t.time.lastSet = s.ftu
      ∧ t.regs = ((s.setFld F.FT_STATUS_UPSTREAM 0 (s.fld F.FT_STATUS_ALTERNATE)).setFld F.FT_STATUS_ALTERNATE 0 0xFF).regs) ∧
  (∀ s : State, s.running = true → s.canonical → s.fld F.FT_STATUS_STATE ≠ TS_ROOT →
    ∃ t, exec .ppsInEdge s = .next t ∧ t.reg .FT_PPS_CAPTURE = s.ftu) ∧
  (∀ s : State, s.running = true → s.flag F.FT_PPS_CTL_OUT_EN = true →
    s.ftu.toNat % 1600000000 = s.fld F.FT_PPS_CTL_PHASE →
    ∃ t, exec .ppsOutStart s = .next t ∧ t.time.ppsOut = some s.ftu) ∧
  (∀ (s : State) (b : Ftu), s.running = true → s.time.ppsOut = some b → 160000000 ≤ (s.ftu - b).toNat →
    ∃ t, exec .ppsOutEnd s = .next t ∧ t.time.ppsOut = none)

/-- Firmware commands on ports (R47, R52, R54, R58): each completes, with its effect on the port and its result. -/
def Obligations.portCommandsComplete : Prop :=
  (∀ (s : State) (r : FwRef) (port : Port) (mode : Fin 4), s.running = true →
    (mode.val = PM_SERVICE → servicePort port.val = true) → s.portBusy port.val = false →
    exec (.portMode r port mode) s
      = .next (((s.setFld F.PRT_CTL_MODE port.val mode.val).portReset port.val).finishFw r ACK_OK 0)) ∧
  (∀ (s : State) (r : FwRef) (port : Port) (time : Fin 1024), s.running = true → 1 ≤ time.val → time.val ≤ 600 →
    s.portBusy port.val = false →
    exec (.portQualify r port time) s
      = .next (((s.setFld F.PRT_CTL_QUAL_TIME port.val time.val).portReset port.val).modPort port.val fun p =>
          { p with qualRef := some r })) ∧
  (∀ (s : State) (r : FwRef) (port : Port), s.running = true →
    exec (.portReset r port false) s
      = .next ((s.portReset port.val).finishFw r ACK_OK ((s.portReset port.val).linkState port.val))) ∧
  (∀ (s : State) (r : FwRef) (port : Port), s.running = true →
    exec (.portReset r port true) s
      = .next ((s.portReset twinLink).finishFw r ACK_OK ((s.portReset twinLink).linkState twinLink))) ∧
  (∀ (s : State) (r : FwRef) (port : Port), s.running = true →
    exec (.portQuarantine r port) s = .next ((s.quarantine port.val 0x05).finishFw r ACK_OK 0))

/-- Lanes and links (R49 to R51, R53, R60, R61): each command of this family completes: from the states named here it answers a next
state, with the effect written here. -/
def Obligations.laneAndLinkEventsComplete : Prop :=
  (∀ (s : State) (l : Link), s.running = true → PS_TRAINING < s.linkState l.val → l.val ≠ twinLink →
    exec (.lossOfLink l) s
      = .next ((((((s.dropLink l.val PS_DOWN).modPort l.val fun p => { p with retrain := true }).bump
          F.PRT_EVENTS_LOSSES l.val).announceLoss l.val).sillage 0x02 0x01 1 []).unclean)) ∧
  (∀ (s : State) (l : Link) (lane : Fin 8), s.running = true → s.linkState l.val = PS_UP → l.val < 128 →
    (s.pairsOk l.val).contains (lane.val / 2) = true → s.linkMode l.val = PM_FABRIC → s.linkWidth l.val = 8 →
    exec (.laneFail l lane) s
      = .next (((s.appendDefect 0x08 l.val 6 lane.val).modPort l.val fun p => { p with failed := p.failed ++ [lane.val] }).narrow
          l ((s.pairsOk l.val).filter (· != lane.val / 2)))) ∧
  (∀ (s : State) (port : Port) (pairs : List (Fin 4)) (kept : List Nat), s.running = true →
    kept = (List.range 4).filter (fun q => pairs.any fun x => x.val == q) → kept.length = 3 →
    PS_TRAINING ≤ s.linkState port.val → s.linkWidth port.val = 6 → s.pairsOk port.val = kept →
    (s.port port.val).narrowing = true →
    exec (.laneMapReceive port pairs true) s = .next (s.narrowed port.val)) ∧
  (∀ (s : State) (port : Port) (errs : List Nat) (bits corrected unc : Nat), s.running = true →
    s.linkState port.val = PS_UP → (∀ k < 8, errs.getD k 0 * 10000 ≤ bits) →
    exec (.berWindowEnd port errs bits corrected unc) s
      = .next ((s.bump F.PRT_FEC_COUNT_CORRECTED port.val corrected).bump F.PRT_FEC_COUNT_UNCORRECTABLE port.val unc)) ∧
  (∀ (s : State) (l : Link), s.running = true → l.val < 128 → s.linkState l.val = PS_DOWN →
    s.linkMode l.val = PM_FABRIC → s.dead l.val = false →
    ∃ t : State, exec (.laneLock l []) s = .next (t.setLinkState l.val PS_TRAINING)
      ∧ t = ((s.setFld F.PRT_STATUS_PAIRS_OK l.val 15).setLinkWidth l.val 8).modPort l.val fun p => { p with failed := [] }) ∧
  (∀ (s : State) (port : Port), s.running = true → s.linkState port.val = PS_UP →
    ∃ t : State, exec (.frozenSetReceive port) s = .next ((t.sealClear port.val).announceLoss port.val)
      ∧ t.regs = (s.setFld F.PRT_STATUS_STATE port.val PS_FROZEN_PEER).regs
      ∧ t.net.waiting = s.net.waiting.filter fun w => w.out.val != port.val) ∧
  (∀ (s : State) (port : Port), s.running = true → s.linkState port.val = PS_FROZEN_PEER →
    exec (.frozenSetStop port) s
      = .next ((s.dropLink port.val PS_DOWN).modPort port.val fun p => { p with lastQual := none, retrain := false }))

/-- The identity exchange and qualification (R53, R54, R58, R59): each command of this family completes: from the states named here it
answers a next state, with the effect written here. -/
def Obligations.identityAndQualificationComplete : Prop :=
  (∀ (s : State) (l : Link), s.running = true → s.linkState l.val = PS_TRAINING → s.linkMode l.val ≠ PM_SERVICE →
    ∃ id, exec (.identSend l) s = .next (s.emit (.ident l id)) ∧ id.ack = (s.port l.val).peer.isSome
      ∧ id.endpoint = false ∧ id.efpMajor = 3 ∧ id.checkOk = true ∧ id.deviceId = s.reg .SEC_DEVICE_ID) ∧
  (∀ (s : State) (l : Link) (id : Ident), s.running = true → id.checkOk = true → s.linkState l.val = PS_TRAINING →
    s.linkMode l.val ≠ PM_SERVICE → l.val ≠ twinLink →
    exec (.identReceive l id) s = .next (((s.notePeer l.val id).identState l id).sendReport l.val)) ∧
  (∀ (s : State) (l : Link), s.running = true → s.linkState l.val = PS_TRAINING →
    exec (.identTimeout l) s = .next (s.dropLink l.val PS_DOWN)) ∧
  (∀ (s : State) (l : Link) (errs : List Nat) (bits : Nat), s.running = true → s.linkState l.val = PS_QUALIFYING →
    (s.port l.val).phase = 1 →
    exec (.qualPhase1End l errs bits) s
      = .next ((s.modPort l.val fun p => { p with phase := 2, worst := ((worstLane errs).2, bits, (worstLane errs).1) }).emit
          (.qualPhase l 2))) ∧
  (∀ (s : State) (l : Link) (counts : List Nat) (unc total : Nat), s.running = true → s.linkState l.val = PS_QUALIFYING →
    (s.port l.val).phase = 2 →
    ∃ t : State, exec (.qualPhase2End l counts unc total) s = .next (t.qualJudge l)
      ∧ (.qualReport l (qualVerdict (s.port l.val).worst.1 (s.port l.val).worst.2.1 counts unc total == 0)
          (s.port l.val).worst.1 (s.port l.val).worst.2.1) ∈ t.out) ∧
  (∀ (s : State) (l : Link) (pass : Bool), s.running = true → s.linkState l.val = PS_QUALIFYING →
    exec (.qualReportReceive l pass) s = .next ((s.modPort l.val fun p => { p with peerPass := some pass }).qualJudge l)) ∧
  (∀ (s : State) (l : Link), s.running = true → s.linkState l.val = PS_QUALIFYING → (s.port l.val).peerPass = none →
    exec (.peerSilent l) s = .next (s.qualFail l.val QC_PEER_SILENT))
/-- Flits, packets and credits (R68, R76, R77, R79, R82, R89): each command of this family completes: from the states named here it
answers a next state, with the effect written here. A slot with a good CHECK returns its credits and its flit is taken; a packet whose
header checks goes to the crossbar; one that reached its delivery code is handed to its unit; a header that waits over two wingbeats
moves to VC7 from VC1 to VC6 and is dropped from VC0 and VC7. -/
def Obligations.flitsAndPacketsComplete : Prop :=
  (∀ (s : State) (l : Link) (word : BitVec 32) (flit : List Byte), s.running = true → s.linkState l.val = PS_UP →
    (s.port l.val).narrowing = false → slotCheck word flit = true → word.toNat / 8 % 4 ≠ 0 →
    exec (.flitReceive l word flit) s
      = .next ((s.addCredits l (word.toNat / 2 ^ 9 % 8) (word.toNat / 2 ^ 12 % 16)).takeFlit l (word.toNat % 8)
          (word.toNat / 8 % 4))) ∧
  (∀ (s u : State) (l : Link) (p : Packet), s.running = true → s.linkMode l.val = PM_FABRIC → l.val < 128 →
    u = s.freeBuffers l p.vc.val (p.payFlits.val + 2) → statePasses (u.linkState l.val) p = true → hdrCrcOf p = p.hdrCrc →
    u.noKey p.slice.val = false →
    exec (.packetForward l p) s = .next ((u.sealArrive l.val p).switchPacket (wingOf l.val) p)) ∧
  (∀ (s : State) (src : Fin 256) (u : Fin 256) (p : Packet), s.running = true → p.dstChip.val = s.chip →
    s.bindCheck (.unit u) p = .checkEpoch → p.epoch.val = s.ctxEpoch p.ctx.val → s.sealDeps p = [] →
    exec (.packetDeliver src (.unit u) p) s = .next (s.consume (deliveryWing src.val (.unit u)) u.val p)) ∧
  (∀ (s : State) (out : Link) (vc : Fin 8) (w : Waiting), s.running = true → s.waitedOver out vc.val = some w →
    w.headed = false → 1 ≤ vc.val → vc.val ≤ 6 →
    ∃ t : State, exec (.creditWaitEscape out vc) s = .next ((t.bump F.XBR_WAITS_ESCAPES (outWing out)).serve out 7)
      ∧ t.net.waiting = dropFirst s.net.waiting w ++ [{ w with pkt := { w.pkt with vc := 7 }, since := s.ftu }]
      ∧ t.regs = s.regs ∧ t.out = s.out) ∧
  (∀ (s : State) (out : Link) (vc : Fin 8) (w : Waiting), s.running = true → s.waitedOver out vc.val = some w →
    w.headed = false → vc.val = 0 ∨ vc.val = 7 →
    ∃ t : State, exec (.creditWaitDrop out vc) s = .next (t.bump F.XBR_WAITS_WAIT_DROPS (outWing out))
      ∧ t.net.waiting = dropFirst s.net.waiting w ∧ t.regs = s.regs ∧ t.out = s.out) ∧
  (∀ (s : State) (l : Link), s.running = true → s.linkState l.val = PS_UP →
    exec (.creditAuditSend l) s = .next (s.emit (.linkMgmt l (.creditAudit (s.port l.val).rxFree)))) ∧
  (∀ (s : State) (l : Link) (free : List Nat), s.running = true → s.linkState l.val = PS_UP →
    exec (.creditAuditReceive l free) s
      = .next ((List.range 8).foldl (fun t vc => t.addCredits l vc (free.getD vc 0 - (t.port l.val).txCredits.getD vc 0)) s)) ∧
  (∀ (s : State) (port : Port) (p : Packet), s.running = true → s.fld F.PRT_CTL_MODE port.val = PM_EDGE →
    statePasses (s.linkState port.val) p = true →
    exec (.edgeIngress port p) s
      = .next ((s.freeBuffers (Fin.ofNat 129 port.val) p.vc.val (p.payFlits.val + 2)).ingress port p))

/-- Acknowledgement and resend (R87, R88): the destination sends the ACK it owes; an ACK frees the copies it covers; a copy that is
due is resent on the current path up to four times, and given up two wingbeats after the fourth. -/
def Obligations.acksAndResendsComplete : Prop :=
  (∀ (s : State) (unit : Fin 256) (chip : Chip) (peer : Fin 256) (ctx : Ctx) (epoch : Fin 256), s.running = true →
    (s.receivedOf ⟨unit.val, chip.val, peer.val, ctx.val, epoch.val⟩).owed = true →
    exec (.ackSend unit chip peer ctx epoch) s
      = .next (s.ackStream ⟨unit.val, chip.val, peer.val, ctx.val, epoch.val⟩ (s.streamSlice ctx.val))) ∧
  (∀ (s : State) (unit : Fin 256) (p : Packet) (c : Copy), s.running = true → s.net.copies = [c] →
    c.key = receivedKey unit.val p → ackCovers (BitVec.ofNat 32 p.arg.toNat) (ofLe (p.payload.take 64)) c.pkt.seq = true →
    c.cmd = none → c.pkt.kind.val ≠ 0x03 → s.net.backlog = [] →
    ∃ t, exec (.ackReceive unit p) s = .next t ∧ t.net.copies = []) ∧
  (∀ (s : State) (unit : Fin 256) (chip : Chip) (peer : Fin 256) (ctx : Ctx) (seq : BitVec 32) (c : Copy), s.running = true →
    s.copyOf unit.val chip.val peer.val ctx.val seq = some c → s.copyDue c = true → c.resends < 4 →
    ∃ t : State, exec (.resendTimeout unit chip peer ctx seq) s
        = .next ((t.bump F.EDG_E2E_RESENDS (sourceWing unit.val c.pkt.path)).transmit unit.val c.pkt)
      ∧ t.net.copies = s.net.copies.map (fun q => if q = c then { c with sentAt := s.wb, resends := c.resends + 1 } else q)
      ∧ t.regs = s.regs) ∧
  (∀ (s : State) (unit : Fin 256) (chip : Chip) (peer : Fin 256) (ctx : Ctx) (seq : BitVec 32) (c : Copy) (g : Tag),
    s.running = true → s.copyOf unit.val chip.val peer.val ctx.val seq = some c → s.copyDue c = true → c.resends = 4 →
    c.cmd = some g → g.queue < 16384 →
    ∃ t : State, exec (.resendLimit unit chip peer ctx seq) s = .next ((t.tagFail g ST_CHECK_FAIL).pump)
      ∧ t.net.copies = s.net.copies.filter (fun q => q != c) ∧ t.regs = s.regs)

/-- Banks, drain and swap at the agent (R91, R93 to R95): each command of this family completes: from the states named here it answers
a next state, with the effect written here. -/
def Obligations.routeChangesCompleteAtTheAgent : Prop :=
  (∀ (s : State) (h : MsgHdr) (chip : Chip) (port : Fin 256), s.hearsAgent h →
    exec (.linkLossReceive h chip port 0) s = .next ((s.noteSeen h).linkLost chip.val port.val)) ∧
  (∀ (s : State) (h : MsgHdr) (bank : Bank), s.hears h → firstRefused bank s.chip = none →
    ((s.noteSeen h).writeInactive bank).chip = s.chip →
    exec (.tableWriteReceive h bank) s
      = .next (((s.noteSeen h).writeInactive bank).sendMgmt 0xFFFE (.tableAck none))) ∧
  (∀ (s : State) (h : MsgHdr) (slices : List Slice) (b : Wb), s.hears h →
    ∃ t : State, exec (.stopReceive h slices b) s
        = .next ((t.setEdg F.EDG_CTL_DRAIN 2).setEdg F.EDG_SWAP_AT_WINGBEAT b.toNat)
      ∧ t.route.stop = some (slices.map (fun (x : Slice) => x.val), b) ∧ t.route.zeroed = false ∧ t.regs = s.regs) ∧
  (∀ s : State, s.running = true → s.draining = true → s.fld F.EDG_CTL_DRAIN = 2 →
    exec .drainStopBoundary s = .next s.showInflight) ∧
  (∀ s : State, s.running = true → s.draining = true → s.fld F.EDG_CTL_DRAIN = 2 → s.inflightAll = 0 →
    exec .drainCountZero s = .next s.showInflight.reportZero) ∧
  (∀ (s : State) (sl : List Nat) (b : Wb), s.running = true → s.route.stop = some (sl, b) → s.reached (b + 64#48) = true →
    s.fld F.EDG_CTL_DRAIN = 2 → s.route.zeroed = false →
    ∃ t : State, exec .drainTimeout s = .next t.showInflight.reportZero
      ∧ t.net.waiting = s.net.waiting.filter (fun x => !sl.contains x.pkt.slice.val)) ∧
  (∀ (s : State) (h : MsgHdr) (k : Wb), s.hears h →
    exec (.swapReceive h k) s
      = .next (((s.noteSeen h).setEdg F.EDG_CTL_DRAIN 3).setEdg F.EDG_SWAP_AT_WINGBEAT k.toNat)) ∧
  (∀ s : State, s.running = true → s.fld F.EDG_CTL_DRAIN = 3 →
    s.reached (BitVec.ofNat 48 (s.fld F.EDG_SWAP_AT_WINGBEAT)) = true →
    exec .swapApply s = .next s.activate.endDrain.releaseHeld.mgrSwapped) ∧
  (∀ (s : State) (sl : List Nat) (b : Wb), s.running = true → s.route.stop = some (sl, b) → s.fld F.EDG_CTL_DRAIN = 2 →
    s.reached (b + 256#48) = true → (s.endDrain.releaseHeld.sillage 0x03 0x02 2 []).mgr.drain = none →
    exec .swapMissed s = .next (s.endDrain.releaseHeld.sillage 0x03 0x02 2 []))

/-- Routes at the Monarch (R94, R99, R108, R114, R115): each command of this family completes: from the states named here it answers a
next state, with the effect written here. -/
def Obligations.routeChangesCompleteAtTheMonarch : Prop :=
  (∀ (s : State) (h : MsgHdr) (d : MgrDrain) (n : Nat), s.managerHears h → s.mgr.drain = some d → d.phase = 0 →
    exec (.tableAckReceive h (some n)) s
      = .next ((fun t : State => { t with mgr := { t.mgr with drain := none, recompute := some d.refs } }) (s.noteSeen h))) ∧
  (∀ (s : State) (h : MsgHdr) (d : MgrDrain), s.managerHears h → s.mgr.drain = some d →
    ∃ t, exec (.drainZeroReceive h) s = .next t ∧ t.mgr.drain = some { d with zeros := d.zeros ++ [h.src.val] }
      ∧ t.regs = s.regs) ∧
  (∀ (s : State) (d : MgrDrain), s.running = true → s.isActive = true → s.mgr.drain = some d → d.phase = 1 →
    s.agents.all (fun a => d.zeros.contains a) = true →
    ∃ t : State, exec .swapBroadcast s = .next (t.sendMgmt 0xFFFF (.swap (s.wb + 2#48)))
      ∧ t.mgr.drain = some { d with phase := 2, swapAt := s.wb + 2#48 }) ∧
  (∀ (s : State) (banks : List (Chip × Bank)) (refs : List FwRef), s.running = true → s.isActive = true →
    s.mgr.recompute = some refs → s.mgr.drain = none → banks.all (fun q => s.bankPromises q.1.val q.2) = true →
    (banks.map fun q => (q.1.val, q.2)).filter (fun q => s.lastBank q.1 != q.2) = [] →
    ∃ t : State, exec (.routeRecomputeDone banks [] 0) s = .next ((t.finishRoutes refs).raiseFailures)
      ∧ t.mgr.recompute = none) ∧
  (∀ (s : State) (h : MsgHdr) (chip : Chip) (port : Port) (cause : Fin 2) (m : InstMap), s.managerHears h → s.map = some m →
    exec (.faultReceive h (.loss chip port cause)) s
      = .next ((s.noteSeen h).linkFailed m chip.val port.val cause.val)) ∧
  (∀ (s : State) (h : MsgHdr) (version mapSeq : Nat), s.managerHears h →
    ∃ t : State, exec (.agentStatusReceive h version mapSeq []) s = .next t ∧ t.mgr.statuses.any (fun q => q.chip == h.src.val) = true) ∧
  (∀ (s : State) (chip : Chip) (q : StatusRec), s.running = true → s.isActive = true →
    s.mgr.statuses.find? (fun q => q.chip == chip.val) = some q → s.reached (q.heard + 384#48) = true →
    exec (.switchSilent chip) s = .next (s.switchFailed chip.val)) ∧
  (∀ s : State, s.running = true → s.time.based = true → s.wb.toNat % 128 = 0 →
    exec .agentStatusSend s = .next s.sendStatus) ∧
  (∀ (s : State) (r : FwRef), s.manages →
    exec (.routeStatus r) s
      = .next (s.finishFw r ACK_OK 32 (leBytes 4 (s.fld F.MGR_ROUTE_ROUTE_VERSION) ++ leBytes 4 (s.fld F.MGR_ROUTE_SHARED)
          ++ leBytes 4 s.noPathEntries ++ leBytes 4 (s.fld F.MGR_ROUTE_COMPUTE_TIME) ++ leBytes 4 s.mgr.drains
          ++ List.replicate 12 0)))

/-- The map, the role and the neighbours (R96, R100, R102 to R105): each command of this family completes: from the states named here
it answers a next state, with the effect written here. -/
def Obligations.mapAndNeighboursComplete : Prop :=
  (∀ (s : State) (r : FwRef) (m : InstMap), s.running = true → mapFormOk m = true →
    exec (.mapLoad r m) s
      = .next (if s.mapAccepted m then (s.takeMap m).finishFw r ACK_OK m.mapSeq.toNat else s.finishFw r ACK_DENIED 0)) ∧
  (∀ (s : State) (r : FwRef), s.running = true → s.canonical → s.ins.roleOpen = true → strapRole (s.fld F.MGR_ROLE_STRAP) = strapRole 0 →
    ((s.map.bind fun m => mapChip m s.chip).map fun c => c.role.val) = some (strapRole 0) →
    ∃ t, exec (.setRole r 0) s = .next t ∧ t.fw.last = some ⟨r, ACK_OK, 0, []⟩ ∧ t.flag F.MGR_ROLE_CONFIRMED = true
      ∧ t.fld F.MGR_ROLE_ROLE = strapRole 0) ∧
  (∀ (s : State) (q dst : Nat) (m : Mgmt) (sent : Wb), s.running = true →
    s.agent.awaiting.find? (fun a => a.1 == q) = some (q, dst, m, sent) → s.reached (sent + 4#48) = true →
    ∃ t : State, exec (.mgmtRepeat q) s = .next (t.emit (.mgmt dst s.mgrEpoch q m)) ∧ t.out = s.out ∧ t.regs = s.regs) ∧
  (∀ (s : State) (port : Port) (b : Wb) (q st : Nat) (id : Ident), s.running = true →
    (s.port port.val).report = some (b, q, st) → (s.port port.val).peer = some id → s.reached (b + 1024#48) = true →
    exec (.nbrReportRepeat port) s
      = .next ((s.modPort port.val fun p => { p with report := some (s.wb, q, st) }).emit
          (.mgmt 0xFFFE s.mgrEpoch q (.nbrReport port.val st id)))) ∧
  (∀ (s : State) (h : MsgHdr) (port : Port) (id : Ident), s.managerHears h →
    exec (.nbrReportReceive h port 7 id) s
      = .next (((s.noteSeen h).judgeReport h.src.val port.val PS_UP id).sendVerdict h.src.val port.val)) ∧
  (∀ (s : State) (h : MsgHdr) (port : Port), s.hears h → s.linkState port.val = PS_UP →
    exec (.nbrVerdictReceive h port false) s
      = .next ((((s.noteSeen h).modPort port.val fun p => { p with nbr := some false, report := none }).unclean).quarantine
          port.val 0x03)) ∧
  (∀ (s : State) (r : FwRef) (m o : InstMap), s.manages → mapFormOk m = true → s.map = some o → sameButPorts o m = true →
    exec (.adoptNeighbour r m) s
      = .next (if s.mapAccepted m then (((s.takeMap m).sendMgmt 0xFFFF (.mapUpdate m)).judgeAll).finishFw r ACK_OK m.mapSeq.toNat
          else s.finishFw r ACK_DENIED 0)) ∧
  (∀ (s : State) (h : MsgHdr) (m : InstMap), s.hears h → mapFormOk m = true → s.agent.pieces.2 = [] →
    ∀ t : State, t = { s.noteSeen h with agent := { (s.noteSeen h).agent with pieces := (m.mapSeq.toNat, [0]) } } →
      exec (.mapUpdateReceive h 0 1 m) s = .next (if t.mapAccepted m then (t.takeMap m).applyModes m else t))

/-- Slices, switches and plans at the Monarch (R109 to R111, R117 to R119): each command of this family completes: from the states
named here it answers a next state, with the effect written here. -/
def Obligations.slicesAndPlansComplete : Prop :=
  (∀ (s : State) (r : FwRef) (slice : Fin 65536) (members : List Member), s.manages → 1 ≤ slice.val → slice.val ≤ 1023 →
    s.sliceRec slice.val = none → s.membersOk 0 members = true → s.compatOk false members = true →
    exec (.sliceCreate r slice 0 members) s
      = .next (((s.putSlice ⟨slice.val, false, members, .fresh, 0, none, none, false, none⟩).sendSlice
          ⟨slice.val, false, members, .fresh, 0, none, none, false, none⟩).finishFw r ACK_OK 0)) ∧
  (∀ (s : State) (r : FwRef) (slice : Fin 65536) (members : List Member) (x : SliceRec), s.manages →
    s.sliceRec slice.val = some x → x.isSealed = false → s.membersOk 0 members = true → x.compat = false → x.phase = .quiesced →
    s.sliceBouquet slice.val = false → s.compatOk false members = true →
    exec (.sliceMembers r slice 0 members true) s
      = .next (((s.putSlice { x with members := members }).sendSlice { x with members := members }).finishFw r ACK_OK 0)) ∧
  (∀ (s : State) (r : FwRef) (slice ahead : Fin 1024) (x : SliceRec), s.manages → s.sliceRec slice.val = some x →
    2 ≤ ahead.val → x.phase = .running →
    ∃ y : SliceRec, exec (.sliceQuiesce r slice ahead) s = .next ((s.putSlice y).sendSlice y) ∧ y.phase = .quiescing
      ∧ y.quiesceAt = s.wb + BitVec.ofNat 48 ahead.val ∧ y.ref = some r ∧ y.members = x.members) ∧
  (∀ (s : State) (slice : Slice) (x : SliceRec) (r : FwRef), s.running = true → s.isActive = true →
    s.sliceRec slice.val = some x → x.phase = .quiescing → s.reached x.quiesceAt = true → s.sliceBusy slice.val = false →
    x.ref = some r →
    exec (.sliceQuiesced slice) s
      = .next ((s.putSlice { x with phase := .quiesced, ref := none }).finishFw r ACK_OK (x.quiesceAt.toNat % 2 ^ 32))) ∧
  (∀ (s : State) (slice : Slice) (x : SliceRec) (r : FwRef), s.running = true → s.isActive = true →
    s.sliceRec slice.val = some x → x.phase = .quiescing → s.reached (x.quiesceAt + 64#48) = true → x.ref = some r →
    exec (.quiesceTimeout slice) s
      = .next ((s.putSlice { x with phase := .stopped, ref := none }).finishFw r ACK_TIMEOUT 0)) ∧
  (∀ (s : State) (r : FwRef) (slice ahead : Fin 1024) (x : SliceRec), s.manages → s.sliceRec slice.val = some x →
    2 ≤ ahead.val → x.phase = .quiesced →
    ∃ y : SliceRec, exec (.sliceResume r slice ahead) s
        = .next (((s.putSlice y).sendSlice y).finishFw r ACK_OK ((s.wb + BitVec.ofNat 48 ahead.val).toNat % 2 ^ 32))
      ∧ y.phase = .running ∧ y.resumeAt = some (s.wb + BitVec.ofNat 48 ahead.val)) ∧
  (∀ (s : State) (r : FwRef) (slice : Slice) (x : SliceRec), s.manages → s.sliceRec slice.val = some x →
    s.sliceBouquet slice.val = false →
    ∃ t : State, exec (.sliceDestroy r slice) s
        = .next ((t.sendMgmt 0xFFFF (.sliceTable ⟨slice, rankRows x.members, none, none, none, true⟩)).finishFw r ACK_OK 0)
      ∧ t.mgr.slices = s.mgr.slices.filter (fun y => y.num != slice.val) ∧ t.regs = s.regs) ∧
  (∀ (s : State) (h : MsgHdr) (e : SliceEntry), s.hears h → (s.noteSeen h).forwardOnly = false → e.gone = true →
    exec (.sliceTableReceive h e) s = .next ((s.noteSeen h).forgetSlice e.slice.val)) ∧
  (∀ (s : State) (r : FwRef) (chip : Chip) (m : InstMap), s.manages → s.map = some m → s.mgr.service.contains chip.val = false →
    (mapChip m chip.val).isSome = true → s.allMatched m chip.val = true →
    ∃ t : State, exec (.switchIn r chip) s = .next (t.needRecompute [r]) ∧ t.mgr.service = s.mgr.service ++ [chip.val]) ∧
  (∀ (s : State) (r : FwRef) (chip : Chip), s.manages → s.chipBouquet chip.val = false → s.mgr.service.contains chip.val = true →
    ∃ t : State, exec (.switchOut r chip false) s = .next (t.needRecompute [r])
      ∧ t.mgr.service = s.mgr.service.filter (· != chip.val)) ∧
  (∀ (s : State) (r : FwRef) (owner : Fin 4) (p : Plan) (dest : Word) (room : Nat), s.manages → p.shape = 1 →
    p.mapSeq.toNat = s.fld F.MGR_MAP_MAP_SEQ → (planBytes p).length ≤ room →
    ∃ t : State, exec (.planExport r owner 1 p.x p.y p.z dest room (some p)) s
        = .next ((t.emit (.hostWrite owner.val dest.toNat (planBytes p))).finishFw r ACK_OK p.id.toNat) ∧ t.out = s.out) ∧
  (∀ (s : State) (r : FwRef) (id : BitVec 32), s.manages → s.mgr.prepared = none →
    exec (.planPrepare r id) s = .next (s.preparePlan r id)) ∧
  (∀ (s : State) (r : FwRef) (p : Plan), s.manages → s.mgr.prepared = some p →
    ∃ t : State, exec (.planApplied r p.id) s
        = .next ((((t.setFld F.MGR_PLAN_PREPARED 0 0).setFld F.MGR_PLAN_APPLIED 0 p.id.toNat).needRecompute [r]).nextPrepare)
      ∧ t.mgr.prepared = none ∧ t.mgr.applied = some p) ∧
  (∀ (s : State) (r : FwRef) (p : Plan), s.manages → s.mgr.prepared = some p →
    ∃ t : State, exec (.planCancel r p.id) s
        = .next (((t.setFld F.MGR_PLAN_PREPARED 0 0).needRecompute [r]).nextPrepare) ∧ t.mgr.prepared = none)

/-- Endpoints and the agent (R120, R121): each command of this family completes: from the states named here it answers a next state,
with the effect written here. -/
def Obligations.endpointMessagesComplete : Prop :=
  (∀ (s : State) (port : Port), s.running = true → s.fld F.PRT_CTL_MODE port.val = PM_EDGE → s.linkState port.val = PS_UP →
    ∃ (t : State) (m : Mgmt), exec (.epDiscoverSend port) s = .next t
      ∧ m = .epDiscover s.chip port.val (s.fld F.FT_WB_CTL_LENGTH) (s.fld F.FT_STATUS_DEPTH) (s.reg .FT_WB_BASE_FTU)
          (BitVec.ofNat 48 (s.fld F.FT_WB_BASE_NUM_BASE_NUM))
      ∧ t.out = s.out ++ [.linkMgmt (Fin.ofNat 129 port.val) m] ∧ t.regs = s.regs) ∧
  (∀ (s : State) (port : Port) (device : Word) (window : Nat) (features : BitVec 32), s.running = true →
    s.fld F.PRT_CTL_MODE port.val = PM_EDGE → s.linkState port.val = PS_UP → window ≤ 2 ^ 40 →
    exec (.epIdentityReceive port device window features) s
      = .next (s.modEp port.val fun e => { e with ident := some (device, window, features), discover := none })) ∧
  (∀ (s : State) (port : Port), s.running = true → s.fld F.PRT_CTL_MODE port.val = PM_EDGE → s.linkState port.val = PS_UP →
    (s.ep port.val).lastBeat = none → (s.ep port.val).silent = false →
    beatValid s.wb s.wb = true →
    exec (.epHeartbeatReceive port s.wb) s
      = .next (s.modEp port.val fun e => { e with lastBeat := some s.wb, beats := 1, run := 1 })) ∧
  (∀ (s : State) (port : Port) (b : Wb), s.running = true → s.fld F.PRT_CTL_MODE port.val = PM_EDGE →
    s.linkState port.val = PS_UP → (s.ep port.val).lastBeat = some b → s.reached (b + 4#48) = true →
    exec (.endpointSilent port) s = .next (s.epSilent port.val)) ∧
  (∀ (s : State) (port : Port) (ctx : Ctx) (epoch : Fin 256), s.running = true →
    exec (.epochAckReceive port ctx epoch) s
      = .next (s.modEp port.val fun e => { e with notices := e.notices.filter fun q => !(q.1 == ctx.val && q.2 == epoch.val) }))
/-- Start, heartbeats and fencing of the twin managers (R124, R125, R131, R133, R135): each command of this family completes: from the
states named here it answers a next state, with the effect written here. -/
def Obligations.twinStartAndFencingComplete : Prop :=
  (∀ (s : State) (h : MsgHdr) (twin : Bool) (b : Beat), s.running = true → s.isManagerChip = true → s.peerChip = some h.src.val →
    h.epoch ≤ s.fld F.TWN_STATUS_EPOCH → (s.noteBeat h.epoch twin b).mgrState ≠ MS_ACTIVE →
    exec (.heartbeatReceive h twin b) s
      = .next ((s.noteBeat h.epoch twin b).askOnBeat (b.state.val == MS_ACTIVE && !s.twin.heardActive))) ∧
  (∀ s : State, s.running = true → s.isActive = true → s.hasStandby = true →
    s.fld F.TWN_HEARTBEAT_SILENT_TWIN = 2 → s.fld F.TWN_HEARTBEAT_SILENT_FABRIC = 2 →
    s.fld F.TWN_STATUS_PEER_STATE = MS_SHADOW → s.flag F.TWN_STATUS_PEER_SYNCED = true →
    exec .fenceOnSilence s = .next s.fence) ∧
  (∀ (s : State) (b : Ftu), s.running = true → s.twin.startAt = some b → s.mgrState = MS_STARTING → s.twin.probeFtu = none →
    ms1 ≤ (s.ftu - b).toNat → s.twin.heardActive = false → s.fld F.MGR_ROLE_ROLE = 2 →
    exec .managerListenEnd s = .next s.enterShadow) ∧
  (∀ (s : State) (b : Ftu), s.running = true → s.twin.startAt = some b → s.mgrState = MS_STARTING → s.twin.probeFtu = none →
    ms1 ≤ (s.ftu - b).toNat → s.twin.heardActive = false → s.fld F.MGR_ROLE_ROLE = 1 →
    exec .managerListenEnd s
      = .next ((s.modTwin fun x => { x with probeFtu := some s.ftu, replies := [] }).probe s.mapChips)) ∧
  (∀ (s : State) (b : Ftu), s.running = true → s.twin.probeFtu = some b → s.mgrState = MS_STARTING → ms1 ≤ (s.ftu - b).toNat →
    s.twin.replies = [] →
    ∀ u : State, u = (s.enterActive (s.fld F.TWN_STATUS_EPOCH + 1)).interruptMgr → u.inStage7 = false →
      exec .startProbeEnd s = .next { u with mgr := { u.mgr with recompute := some (u.mgr.recompute.getD []) } }) ∧
  (∀ (s : State) (h : MsgHdr), s.hearsAgent h →
    exec (.epochProbeReceive h) s
      = .next ((s.noteSeen h).sendMgmt h.src.val (.epochReply (s.fld F.TWN_AGENT_HIGHEST_EPOCH)
          (s.fld F.TWN_AGENT_MANAGER_CHIP) (s.fld F.EDG_CTL_ROUTE_VERSION) (s.fld F.MGR_MAP_MAP_SEQ)
          ((List.range 128).map fun i => (s.linkState i, s.linkWidth i))))) ∧
  (∀ (s : State) (h : MsgHdr) (highest mgrChip version mapSeq : Nat), s.hearsAgent h → s.isManagerChip = true →
    s.isActive = false →
    ∃ t, exec (.epochReplyReceive h highest mgrChip version mapSeq []) s = .next t
      ∧ t.twin.replies = (s.twin.replies.filter fun q => q.1 != h.src.val) ++ [(h.src.val, highest)]
      ∧ t.twin.heardEpoch = max s.twin.heardEpoch highest ∧ t.regs = s.regs) ∧
  (∀ (s : State) (f : Wb), s.running = true → s.twin.fencedAt = some f → s.twin.probeAt = none → s.reached (f + 2#48) = true →
    s.mgrState = MS_FENCED → s.forwardOnly = false →
    exec .fencedProbe s
      = .next ((s.modTwin fun t => { t with probeAt := some s.wb, replies := [] }).probe s.mgr.service)) ∧
  (∀ (s : State) (p : Wb), s.running = true → s.twin.probeAt = some p → s.reached (p + 2#48) = true → s.mgrState = MS_FENCED →
    s.forwardOnly = false → s.twin.heardEpoch ≤ s.fld F.TWN_STATUS_EPOCH →
    s.mgr.service.length < 2 * s.twin.replies.length → s.twin.heardActive = false →
    exec .reclaimDecide s = .next (s.takeOver (s.fld F.TWN_STATUS_EPOCH + 2)))

/-- The state copy and the takeover (R127, R128, R130, R134): each command of this family completes: from the states named here it
answers a next state, with the effect written here. -/
def Obligations.stateCopyAndTakeoverComplete : Prop :=
  (∀ (s u : State) (h : MsgHdr) (forWb : Wb) (recs : MgrRecords), s.running = true → h.epoch ≤ s.fld F.TWN_STATUS_EPOCH →
    s.mgrState = MS_SHADOW → (s.modTwin fun t => { t with fmtBad := false }).deltaPiece forWb 0 1 = (u, true) →
    exec (.stateDeltaReceive h forWb 0 1 true recs) s = .next (u.applyDelta forWb recs)) ∧
  (∀ (s : State) (h : MsgHdr) (forWb : Wb) (recs : MgrRecords), s.running = true → h.epoch ≤ s.fld F.TWN_STATUS_EPOCH →
    s.mgrState = MS_SHADOW → s.twin.snap = none →
    exec (.snapshotReceive h forWb 0 1 true recs) s
      = .next ((s.modTwin fun t => { t with fmtBad := false, snap := some (forWb, 1, [0], s.wb) }).applySnapshot forWb recs)) ∧
  (∀ s : State, s.running = true → s.isActive = true → s.hasStandby = true → s.wb.toNat % 4096 = 0 →
    exec .snapshotStart s = .next s.startSnapshot) ∧
  (∀ (s : State) (h : MsgHdr), s.managerHears h → s.hasStandby = true →
    exec (.snapReqReceive h) s = .next (s.noteSeen h).startSnapshot) ∧
  (∀ s : State, s.running = true → s.mgrState = MS_SHADOW → s.twin.gap = true →
    exec .shadowUnsync s = .next (s.unsync false).askSnapshot) ∧
  (∀ (s : State) (h : MsgHdr) (forWb : Wb), s.managerHears h →
    exec (.deltaAckReceive h forWb) s
      = .next (((s.noteSeen h).modTwin fun t => { t with ackAt := s.wb }).releaseWaits fun w => wbGe forWb w)) ∧
  (∀ s : State, s.running = true → s.isActive = true → s.hasStandby = true → s.reached (s.twin.ackAt + 3#48) = true →
    exec .deltaAckTimeout s = .next s.peerLost) ∧
  (∀ s : State, s.running = true → s.mgrState = MS_SHADOW → 2 ≤ s.twin.activeSilent → s.twin.syncedAt = true →
    exec .takeover s = .next (s.takeOver (s.fld F.TWN_STATUS_EPOCH + 1))) ∧
  (∀ (s : State) (h : MsgHdr) (epoch : Nat) (chip : Chip) (fromWb : Wb), s.hears h → s.mgrState = MS_SHADOW →
    exec (.takeoverReceive h epoch chip fromWb) s = .next ((s.noteSeen h).setFld F.TWN_STATUS_EPOCH 0 epoch))

/-- Takeback and REVERT_CTL (R137, R138): each command of this family completes: from the states named here it answers a next state,
with the effect written here. -/
def Obligations.takebackCommandsComplete : Prop :=
  (∀ (s : State) (c : Nat), s.running = true → s.peerChip = some c → s.mgrState = MS_SHADOW → s.fld F.MGR_ROLE_ROLE = 1 →
    s.fld F.TWN_REVERT_HOLD_LEFT = 0 → s.twin.takeback = none →
    exec .holdLeftZero s
      = .next ((s.modTwin fun x => { x with takeback := some (s.wb + 2#48, false) }).sendMgmt
          c (.takeback (s.wb + 2#48) false))) ∧
  (∀ (s : State) (h : MsgHdr) (t : Wb), s.running = true → h.epoch ≤ s.fld F.TWN_STATUS_EPOCH → s.isManagerChip = true →
    s.peerChip = some h.src.val → s.mgrState = MS_ACTIVE → s.reached t = false →
    exec (.takebackReceive h t false) s
      = .next ((s.modTwin fun x => { x with takeback := some (t, true) }).sendMgmt h.src.val (.takeback t true))) ∧
  (∀ (s : State) (t : Wb), s.running = true → s.twin.takeback = some (t, false) → s.mgrState = MS_SHADOW → s.reached t = true →
    exec .takebackTimeout s
      = .next ((s.modTwin fun x => { x with takeback := none }).setFld
          F.TWN_REVERT_HOLD_LEFT 0 125000)) ∧
  (∀ (s : State) (t : Wb) (c : Nat), s.running = true → s.twin.takeback = some (t, true) → s.peerChip = some c →
    s.mgrState = MS_ACTIVE → s.reached t = true →
    ∃ u : State, exec .takebackHandover s
        = .next (u.modTwin fun x => { x with based := true, chain := some (t - 1#48, t - 1#48, s.records), syncedAt := true })
      ∧ u = ((((s.sendMgmt c (.stateDelta (t - 1#48) s.records)).enterShadow.startCoast).setFld F.TWN_SYNC_DELTA_WB 0
          (t - 1#48).toNat).setFld F.TWN_STATUS_SYNCED 0 1)) ∧
  (∀ (s : State) (t : Wb), s.running = true → s.twin.takeback = some (t, true) → s.mgrState = MS_SHADOW →
    s.fld F.MGR_ROLE_ROLE = 1 → s.reached (t + 1#48) = true →
    wbGe (BitVec.ofNat 48 (s.fld F.TWN_SYNC_DELTA_WB)) (t - 1#48) = true →
    exec .takebackComplete s
      = .next ((((s.takeOver (s.fld F.TWN_STATUS_EPOCH + 1)).bump F.TWN_EVENTS_REVERSIONS).event EVT_REVERTED []).setFld
          F.TWN_REVERT_HOLD_LEFT 0 125000)) ∧
  (∀ (s : State) (r : FwRef), s.manages →
    ∃ (t : State) (left : Nat), exec (.revertCtl r true) s = .next (t.finishFw r ACK_OK left)
      ∧ t.regs = (s.setFld F.TWN_STATUS_REVERT_HOLD 0 1).regs)

/-- Contexts, queues, channels and pages (R111, R140, R143, R160, R162, R253, R254, R271): each command of this family completes: from
the states named here it answers a next state, with the effect written here. -/
def Obligations.contextsQueuesAndPagesComplete : Prop :=
  (∀ (s : State) (r : FwRef) (slice ctx : Fin 65536) (events : Nat), s.running = true → s.flag F.INS_STATUS_IMAGO = true →
    slice.val ≤ 1023 → ctx.val ≤ 4095 → (s.sliceEntry slice.val).isSome = true → s.isSealed slice.val = false →
    s.counterSum + events ≤ 65536 → s.ctxState ctx.val = 0 →
    exec (.ctxCreate r slice ctx events 0 false) s
      = .next ((s.makeCtx ctx.val slice.val events false).finishFw r ACK_OK (s.ctxEpoch ctx.val * 2 ^ 16 + ctx.val))) ∧
  (∀ (s : State) (r : FwRef) (ctx : Ctx) (port : Port) (rank : Rank) (wr ww : Bool), s.running = true → s.ctxState ctx.val ≠ 0 →
    ((s.ctx ctx.val).ranks[rank.val]?).bind rankEntry = some (s.chip, port.val) → s.isSealed (s.ctxSlice ctx.val) = false →
    (s.ep port.val).ident.isSome = true → s.notInService = false →
    exec (.ctxBind r ctx port rank wr ww) s
      = .next ((s.modCtx ctx.val fun x => { x with
          bindings := (x.bindings.filter fun q => q.port != port.val) ++ [⟨port.val, rank.val, wr, ww⟩] }).finishFw r ACK_OK 0)) ∧
  (∀ (s : State) (r : FwRef) (ctx : Ctx) (port : Port), s.running = true → (s.binding ctx.val port.val).isSome = true →
    s.isSealed (s.ctxSlice ctx.val) = false →
    exec (.ctxUnbind r ctx port) s
      = .next ((s.modCtx ctx.val fun x => { x with bindings := x.bindings.filter fun q => q.port != port.val }).finishFw
          r ACK_OK 0)) ∧
  (∀ (s : State) (r : FwRef) (ctx : Ctx), s.running = true → s.ctxState ctx.val = 1 → (s.ctx ctx.val).destroys = false →
    exec (.ctxReset r ctx) s
      = .next ((s.askReset ctx.val false).finishFw r ACK_OK ((s.ctxEpoch ctx.val + 1) % 256))) ∧
  (∀ (s : State) (r : FwRef) (ctx : Ctx), s.running = true → s.ctxState ctx.val = 1 → s.ctxBouquet ctx.val = false →
    exec (.ctxDestroy r ctx) s = .next ((s.askReset ctx.val true).finishFw r ACK_OK 0)) ∧
  (∀ (s : State) (ctx : Ctx) (b : Wb), s.running = true → (s.ctx ctx.val).resetAt = some b → s.reached b = true →
    (s.ctx ctx.val).destroys = false →
    exec (.contextResetBoundary ctx) s = .next ((s.resetCtx ctx.val b).countReset ctx.val)) ∧
  (∀ (s : State) (ctx : Ctx) (b : Wb), s.running = true → (s.ctx ctx.val).releaseAt = some b → s.reached b = true →
    exec (.contextResetRelease ctx) s = .next (s.releaseCtx ctx.val).tryLow) ∧
  (∀ (s : State) (r : FwRef) (queue ctx : Fin 65536) (k j : Fin 256) (ring cq : Word), s.running = true → queue.val ≤ 16383 →
    ctx.val ≤ 4095 → s.fld F.QUE_CFG_STATE queue.val = 0 → 4 ≤ k.val → k.val ≤ 16 → 4 ≤ j.val → j.val ≤ 16 →
    s.ctxState ctx.val = 1 → s.areaOk ctx.val ring.toNat (k.val + 7) = true → s.areaOk ctx.val cq.toNat (j.val + 5) = true →
    ∃ t : State, exec (.queue r queue ctx 0 k j ring cq) s
        = .next ((t.ctxWrite ctx.val (ring.toNat + 2 ^ k.val * 64) (List.replicate (2 ^ k.val * 64) 0)).finishFw r ACK_OK 0)
      ∧ t.mem = s.mem) ∧
  (∀ (s : State) (r : FwRef) (wing : Wing) (chan : Fin 256) (ctx : Ctx), s.running = true →
    s.fld F.ATL_CH_STATUS_STATE (chanIx wing.val chan.val) = 0 → s.ctxState ctx.val ≠ 0 →
    exec (.channel r wing chan ctx false) s
      = .next (((s.setFld F.ATL_CH_STATUS_STATE (chanIx wing.val chan.val) 1).setFld F.ATL_CH_STATUS_CONTEXT
          (chanIx wing.val chan.val) ctx.val).finishFw r ACK_OK 0)) ∧
  (∀ (s : State) (r : FwRef) (ctx : Fin 65536) (perm : Fin 256), s.running = true → s.flag F.INS_STATUS_IMAGO = true →
    ctx.val ≤ 4095 → perm.val ≤ 15 → s.ctxState ctx.val = 1 → (s.ctx ctx.val).pages = [] → (s.ctx ctx.val).grants = [] →
    s.isSealed (s.ctxSlice ctx.val) = false → (∀ w < 4, pagesOnWing 0 1 w ≤ s.freeFrames w) →
    exec (.pageGrant r ctx perm 1 0 false) s
      = .next (((takeFrames perm.val 0 1 ([], s)).2.modCtx ctx.val fun x => { x with
          grants := x.grants ++ [⟨(takeFrames perm.val 0 1 ([], s)).1, r⟩] }).showPool)) ∧
  (∀ (s : State) (ctx : Ctx) (g : Grant) (rest : List Grant), s.running = true → (s.ctx ctx.val).grants = g :: rest →
    exec (.grantZerofillDone ctx) s
      = .next (((g.pages.foldl (fun a p => a.zeroFrame p.frame) s).modCtx ctx.val fun x => { x with
          pages := x.pages ++ g.pages, grants := rest }).finishFw g.ref ACK_OK 0)) ∧
  (∀ (s : State) (r : FwRef) (ctx : Fin 65536) (p : Page), s.running = true → ctx.val ≤ 4095 → p.page < 2 ^ 26 →
    (s.ctx ctx.val).pages = [p] →
    exec (.pageUngrant r ctx 1 (BitVec.ofNat 64 p.page)) s
      = .next ((((s.modCtx ctx.val fun x => { x with pages := x.pages.filter fun q =>
          !(decide (p.page ≤ q.page) && decide (q.page < p.page + 1)) }).releaseFrame p.frame).showPool).finishFw r ACK_OK 0)) ∧
  (∀ (s : State) (wing : Wing) (f : Nat), s.running = true →
    s.pool.scrub.find? (fun f => wingOfFrame f == wing.val && s.flag F.INS_STATUS_IMAGO && !s.power.refresh) = some f →
    f < 884736 →
    ∃ t : State, exec (.frameScrubDone wing) s = .next t.showPool ∧ t.pool.scrub = (s.zeroFrame f).pool.scrub.erase f
      ∧ t.pool.used = (s.zeroFrame f).pool.used.erase f ∧ t.mem = (s.zeroFrame f).mem) ∧
  (∀ (s : State) (slice : Slice) (c : Nat) (r : RunCmd), s.running = true → s.sliceHeld slice.val = true →
    s.contexts.filter (fun c => s.ctxSlice c == slice.val) = [c] → s.que.runs = [r] → r.ctx = c → r.queue < 16384 →
    s.dma.chains = [] → s.coll.nodes = [] →
    exec (.quiesceBoundary slice) s = .next { s with que := { s.que with runs := [{ r with stop := true }] } })

/-- Doorbells, slots and queue commands (R146, R147, R149, R150, R256, R279): each command of this family completes: from the states
named here it answers a next state, with the effect written here. -/
def Obligations.queueCommandsComplete : Prop :=
  (∀ (s : State) (src : DbSource) (queue : Queue) (index : BitVec 32), s.running = true → s.dbBound src queue.val = true →
    0 < serialDiff index.toNat (s.tail queue.val) → serialDiff index.toNat (s.head queue.val) ≤ 2 ^ s.ringLog queue.val →
    ∃ t, exec (.dbSubmit src queue index) s = .next t ∧ t.regs = (s.setFld F.QUE_INDEX_TAIL queue.val index.toNat).regs
      ∧ t.que.laps = s.que.laps ++ [⟨queue.val, index.toNat, 64⟩]) ∧
  (∀ (s : State) (src : DbSource) (queue : Queue) (index : BitVec 32), s.running = true → s.dbBound src queue.val = true →
    0 ≤ serialDiff index.toNat (s.cqHead queue.val) → 0 ≤ serialDiff (s.cqTail queue.val) index.toNat →
    exec (.dbCqHead src queue index) s = .next (s.setFld F.QUE_CQ_INDEX_CQ_HEAD queue.val index.toNat)) ∧
  (∀ (s : State) (src : DbSource) (queue : Queue) (index : BitVec 32), s.running = true → s.dbBound src queue.val = true →
    s.fld F.QUE_CFG_STATE queue.val = 2 → s.ctxState (s.queueCtx queue.val) = 1 →
    0 ≤ serialDiff index.toNat (s.head queue.val) → 0 ≤ serialDiff (s.tail queue.val) index.toNat →
    exec (.dbResume src queue index) s
      = .next (((s.setFld F.QUE_INDEX_HEAD queue.val index.toNat).setFld F.QUE_CFG_STATE queue.val 1).trimCovers queue.val)) ∧
  (∀ (s : State) (queue : Queue) (slot : List Byte), s.running = true → slot = s.headSlot queue.val →
    s.mayStart queue.val = true → s.headFault queue.val = none → slotLap slot = s.headLap queue.val →
    s.slotRefusal (s.queueCtx queue.val) queue.val slot = none →
    (List.range (slotWaits slot)).all (fun i => s.waitMet (s.queueCtx queue.val) (slotWait slot i)) = true →
    exec (.commandStart queue) s = .next (s.startCmd queue.val slot (slotOpcode slot) none)
      ∧ exec (.lapReread queue) s = .next (s.startCmd queue.val slot (slotOpcode slot) none)) ∧
  (∀ (s : State) (queue : Queue) (l : Cover), s.running = true →
    s.que.laps.find? (fun l => l.queue == queue.val && decide (0 < serialDiff l.tail (s.head queue.val))) = some l →
    s.mayStart queue.val = true → l.left = 0 → s.headFault queue.val = none →
    slotLap (s.headSlot queue.val) ≠ s.headLap queue.val →
    exec (.lapTimeout queue) s
      = .next (s.startCmd queue.val (List.replicate 64 0) 0 (some ST_REFUSED_FORMAT))) ∧
  (∀ (s : State) (queue : Queue) (index : BitVec 32) (r : RunCmd), s.running = true →
    s.fresh? queue.val index.toNat 0x00 = some r →
    exec (.nop queue index) s = .next (s.endCmd queue.val index.toNat ST_OK 1)) ∧
  (∀ (s : State) (queue : Queue) (index : BitVec 32) (r : RunCmd), s.running = true →
    s.fresh? queue.val index.toNat 0x30 = some r →
    exec (.wait queue index) s = .next (s.endCmd queue.val index.toNat ST_OK 1)) ∧
  (∀ (s : State) (queue : Queue) (index : BitVec 32) (r : RunCmd), s.running = true →
    s.fresh? queue.val index.toNat 0x31 = some r →
    exec (.signal queue index) s
      = .next ((s.addCounter r.ctx (slotNum r.slot 32 2) (slotNum r.slot 36 4)).endCmd queue.val index.toNat ST_OK 1)) ∧
  (∀ (s : State) (queue : Queue) (index : BitVec 32) (r : RunCmd), s.running = true →
    s.fresh? queue.val index.toNat 0x32 = some r →
    ∃ n : Nat, exec (.fence queue index) s
      = .next (s.modRun queue.val index.toNat fun r => { r with begun := true, issued := n })) ∧
  (∀ (s : State) (queue : Queue) (index : BitVec 32) (r : RunCmd), s.running = true → s.run queue.val index.toNat = some r →
    r.opcode = 0x32 → r.begun = true → r.ended = none → slotByte r.slot 32 = 0 →
    (s.runsOf queue.val).any (fun x => decide (serialDiff x.index index.toNat < 0)) = false →
    s.queueOpen queue.val index.toNat = false →
    exec (.fenceComplete queue index) s = .next (s.endCmd queue.val index.toNat ST_OK 1)) ∧
  (∀ (s : State) (queue : Queue) (index : BitVec 32) (r : RunCmd), s.running = true → s.run queue.val index.toNat = some r →
    r.opcode = 0x10 → moveOk r = true → exec (.poolRead queue index) s = .next (s.moveOn r)) ∧
  (∀ (s : State) (queue : Queue) (index : BitVec 32) (r : RunCmd), s.running = true → s.run queue.val index.toNat = some r →
    r.opcode = 0x11 → moveOk r = true → exec (.poolWrite queue index) s = .next (s.moveOn r))

/-- Collectives (R171, R185, R193 to R196, R198, R200 to R202): each command of this family completes: from the states named here it
answers a next state, with the effect written here. -/
def Obligations.collectivesComplete : Prop :=
  (∀ (s u : State) (node : NodeId) (n0 n : CollNode) (k : Nat), s.running = true → s.nodeOf node = some n0 →
    isExchangeNode n0 = false → u = (n0.chunks.foldl (fun (t : State) c => t.serveTree n0 c.num) s).releaseItems n0 →
    n = u.nodeNow n0 → n = u.nodeNow n → nodeActive n = true → n.cut = none → n.asked = [] → isExchangeNode n = false →
    (ownSlots n).find? (fun k => !slotBusy n k) = some k → n.next.1 < itemLimit u n →
    exec (.slotAssign node) s = .next (u.assignTree n k)) ∧
  (∀ (s : State) (queue : Queue) (index : BitVec 32) (remote : List RemoteRead) (r : RunCmd) (d : List Byte) (rank : Nat),
      s.running = true → s.sweepNodes.fresh? queue.val index.toNat 0x01 = some r →
    s.sweepNodes.readAt r.ctx (slotNum r.slot 32 8) 64 remote = some (.ok d) → s.sweepNodes.rankOf r.ctx = some rank →
    exec (.coll queue index remote) s = .next (s.sweepNodes.startColl r rank d (s.sweepNodes.attachOf r d) remote)) ∧
  (∀ (s : State) (unit : Fin 256) (p : Packet) (addr len : Nat) (fmt : Fin 256), s.running = true → p.kind.val = 0x12 →
    p.chunk.toNat % 16 = 0 → 0x89 ≤ unit.val → hChip p.arg.toNat ≠ s.chip →
    exec (.grantReceive unit p addr len fmt) s = .next (s.contributeAway unit.val addr len fmt.val p)) ∧
  (∀ (s u : State) (unit : Fin 256) (p : Packet) (addr len : Nat) (fmt : Fin 256) (n : CollNode), s.running = true →
    p.kind.val = 0x12 → p.chunk.toNat % 16 = 0 → unit.val < 0x89 → p.chunk.getLsbD 7 = false →
    s.coll.nodes.find? (fun n => (n.slice == p.slice.val && 0x81 + n.wing == unit.val && n.num % 65536 == hTag p.arg.toNat) &&
      n.parent == some (hChip p.arg.toNat, hWing p.arg.toNat)) = some n →
    u = s.chunkUpd n 0xFFFF (p.chunk.toNat / 256) (fun c => { c with grant := some p.arg.toNat }) →
    exec (.grantReceive unit p addr len fmt) s = .next (u.sendPartial (u.nodeNow n) (p.chunk.toNat / 256))) ∧
  (∀ (s u : State) (unit : Fin 256) (p : Packet) (desc : List Byte) (count : Nat) (n : CollNode) (i : CollIn) (f : CollFeed),
      s.running = true → u = s.sweepNodes → p.kind.val = 0x12 → p.chunk.toNat % 16 = 1 → u.collMembers p.slice.val ≠ [] →
    u.coll.nodes.find? (fun n => n.slice == p.slice.val && n.num == p.arg.toNat % 2 ^ 32 && 0x81 + n.wing == unit.val && n.ins.any
      fun i => i.node == some (p.srcChip.val, p.srcUnit.val - 0x81)) = some n → n.phase ≠ .gaveUp → isExchangeNode n = false →
    n.ins.find? (fun i => i.node == some (p.srcChip.val, p.srcUnit.val - 0x81)) = some i →
    n.feeds.find? (fun f => f.input == i.rank && f.chunk == p.chunk.toNat / 256 && f.pkts == []) = some f →
    exec (.grantRequestReceive unit p desc count) s = .next (u.grantInput n i (p.chunk.toNat / 256) f.slot false)) ∧
  (∀ (s : State) (unit : Fin 256) (p : Packet) (n : CollNode), s.running = true → p.kind.val = 0x12 → p.chunk.toNat % 16 = 2 →
    s.coll.nodes.find? (fun n => n.slice == p.slice.val && n.num == p.arg.toNat % 2 ^ 32 && 0x81 + n.wing == unit.val && n.parent
      == some (p.srcChip.val, p.srcUnit.val - 0x81)) = some n → exec (.grantRefuseReceive unit p) s = .next (s.giveUp n)) ∧
  (∀ (s : State) (node : NodeId) (n : CollNode), s.running = true → s.nodeOf node = some n → nodeActive n = true → n.cut = none →
    n.feeds = [] → dFixed n.desc = false → n.outs = [] →
    exec (.grantRepeat node) s = .next ((n.chunks.filter fun c => c.acc.isSome && c.grant.isNone && c.abort.isNone).foldl (fun (t :
      State) c => t.askParent n c.num) s)) ∧
  (∀ (s : State) (unit : Fin 256) (p : Packet) (tags : List (Nat × Nat)) (n : CollNode) (f : CollFeed) (i : CollIn), s.running =
      true → p.kind.val = 0x10 → s.staleSlot unit.val p = false →
    s.coll.nodes.find? (fun n => 0x81 + n.wing == unit.val && n.slots.contains (hSlot p.arg.toNat) && (n.phase == .spilled) ==
      hSpilled p.arg.toNat) = some n → hChip p.arg.toNat = s.chip → hTag p.arg.toNat = n.num % 65536 → p.slice.val = n.slice →
    n.cut = none → p.chunk.getLsbD 7 = false →
    n.feeds.find? (fun f => f.slot == hSlot p.arg.toNat && f.chunk == p.chunk.toNat / 256 && f.codes == false) = some f →
    f.codes = false → granteeOf s n p f.input = some i → exec (.collUpReceive unit p tags) s = .next (s.takeData n f i p tags)) ∧
  (∀ (s : State) (node : NodeId) (chunk : BitVec 32) (n : CollNode) (c : CollChunk), s.running = true → s.nodeOf node = some n →
    nodeChunk n 0xFFFF chunk.toNat = some c → isExchangeNode n = false →
    (n.ins.all fun i => c.parts.any fun q => q.input == i.rank) = true → n.bad = [] → c.out = none → c.abort = none →
    c.undelivered = false → dFixed n.desc = false → n.isRoot = true → (produce n c (reduceParts n c)).2 = 0 →
    exec (.chunkReduceComplete node chunk .passed) s = .next ((s.chunkUpd n 0xFFFF c.num fun x =>
      { x with out := some ([], 0), result := some (produce n c (reduceParts n c)).1 }).serveTree n c.num)) ∧
  (∀ (s : State) (unit : Fin 256) (p : Packet), s.running = true → p.kind.val = 0x11 → 0x89 ≤ unit.val →
    exec (.collDownReceive unit p) s = .next (s.sinkResult (unit.val - 0x89) p)) ∧
  (∀ (s : State) (node : NodeId) (n : CollNode), s.running = true → s.sweepNodes.nodeOf node = some n → isWaiting n = true →
    exec (.nodeSlotsObtained node) s = .next (s.sweepNodes.takeSlots n)) ∧
  (∀ (s u : State) (node : NodeId) (n : CollNode) (k : Nat), s.running = true → s.sweepNodes.nodeOf node = some n →
    n.phase = .waiting k → 4 ≤ k → u = s.sweepNodes.takeSlots n → isWaiting (u.nodeNow n) = true →
    exec (.spill node) s = .next ((u.modNode n fun x => { x with phase := .spillWaiting 0 }).takeSpill
      { n with phase := .spillWaiting 0 })) ∧
  (∀ (s : State) (node : NodeId) (n : CollNode) (k : Nat), s.running = true → s.nodeOf node = some n → n.phase = .spillWaiting k →
    dSlip n.desc ≤ k → exec (.spillGiveUp node) s = .next (s.giveUp n)) ∧
  (∀ (s : State) (slice : Slice) (num : BitVec 32) (height : Fin 3) (dst : Rank) (chunk : BitVec 32) (n : CollNode) (c :
      CollChunk), s.running = true → s.collNode slice.val num.toNat height.val = some n → nodeChunk n dst.val chunk.toNat = some c →
    1 ≤ c.late → c.slipped = false → c.abort = none → n.cut = none → c.result = none → c.out = none → lacksInput s n c = true →
    exec (.chunkSlip (.coll slice num height) dst chunk) s = .next (n.members.foldl (fun (t : State) m => t.modRun m.queue m.index
      fun r => { r with slipped := true }) ((s.chunkUpd n dst.val c.num fun x => { x with slipped := true }).bump
      F.ACD_EVENTS_SLIPS n.wing))) ∧
  (∀ (s : State) (slice : Slice) (num : BitVec 32) (height : Fin 3) (dst : Rank) (chunk : BitVec 32) (n : CollNode) (c :
      CollChunk), s.running = true → s.collNode slice.val num.toNat height.val = some n → nodeChunk n dst.val chunk.toNat = some c →
    dSlip n.desc + n.height + 1 ≤ c.late → c.abort = none → n.cut = none → c.result = none → c.out = none →
    lacksInput s n c = true →
    exec (.chunkAbort (.coll slice num height) dst chunk) s = .next (if isExchangeNode n then s.abortExchange n c else s.abortNode
      n c.num (missingBits n c))) ∧
  (∀ (s : State) (node : NodeId) (chunk : BitVec 32) (n : CollNode) (c : CollChunk), s.running = true → s.nodeOf node = some n →
    nodeChunk n 0xFFFF chunk.toNat = some c → c.sent = true → c.result = none → n.isRoot = false →
    dSlip n.desc + 2 * n.top + 10 ≤ c.since → c.abort = none →
    exec (.resultTimeout node chunk) s = .next ((s.countAborts n c.num).abortDown n c.num 0)) ∧
  (∀ (s : State) (unit : Fin 256) (p : Packet) (tags : List (Nat × Nat)), s.running = true → p.kind.val = 0x10 →
    s.staleSlot unit.val p = true →
    exec (.collUpReceive unit p tags) s = .next (s.bump F.QUE_DROPS_STALE_SLOT (unit.val - 0x81)))

/-- Skipper groups (R207, R208): each command of this family completes: from the states
named here it answers a next state, with the effect written here. -/
def Obligations.skipperGroupsComplete : Prop :=
  (∀ (s : State) (r : FwRef) (group slice : Fin 65536) (slip : Fin 256), s.manages → s.collMembers slice.val ≠ [] →
    group.val ≤ 4095 → s.skpGroup group.val = none → s.coll.groups.length < 4096 →
    ∃ x : SkpGroup, exec (.skipGroup r group slice slip 0 []) s
        = .next ((({ s with coll := { s.coll with groups := s.coll.groups ++ [x] } }).showGroup group.val).finishFw r ACK_OK group.val)
      ∧ x.num = group.val ∧ x.slice = slice.val ∧ x.ranks = (s.collMembers slice.val).map (·.1)
      ∧ x.limit = if slip.val = 0 then 16 else slip.val) ∧
  (∀ (s : State) (queue : Queue) (index : BitVec 32) (remote : List RemoteRead) (r : RunCmd) (rank : Nat) (x : SkpGroup)
    (bs : List Byte), s.running = true → s.fresh? queue.val index.toNat 0x02 = some r → skipOk r.slot = true →
    s.rankOf r.ctx = some rank → s.skpGroup (slotNum r.slot 32 2) = some x → x.ranks.contains rank = true →
    slotByte r.slot 34 ≠ 0 → s.readAt r.ctx (slotNum r.slot 40 8) (slotByte r.slot 35 * 8) remote = some (.ok bs) →
    exec (.skip queue index remote) s
      = .next (((s.nextGen (slotNum r.slot 32 2) rank).2.modRun queue.val index.toNat fun r => { r with begun := true }).contribute
          (slotNum r.slot 32 2) ⟨rank, (s.nextGen (slotNum r.slot 32 2) rank).1, queue.val, index.toNat, r.ctx,
            slotNum r.slot 48 8, none⟩ (slotByte r.slot 34) (slotByte r.slot 35) (slotByte r.slot 36)
          ((List.range (slotByte r.slot 35)).map fun k => ofLe ((bs.drop (8 * k)).take 8)))) ∧
  (∀ (s : State) (unit : Fin 256) (p : Packet) (g : SkpGroup) (n : SkpNode), s.running = true → p.kind.val = 0x20 →
    s.skpGroup (p.arg.toNat % 4096) = some g → p.arg.toNat.testBit 19 = true → p.arg.toNat.testBit 20 = false →
    g.nodes.find? (fun n => 0x81 + n.wing == unit.val && n.parent == some (p.srcChip.val, p.srcUnit.val - 0x81)) = some n →
    exec (.skipperReceive unit p) s
      = .next (s.skpResult (p.arg.toNat % 4096) n.height (p.arg.toNat / 2 ^ 32)
          ((List.range (p.arg.toNat / 2 ^ 16 % 8)).map fun k => ofLe ((p.payload.drop (8 * k)).take 8)) none)) ∧
  (∀ (s : State) (group : Fin 4096) (height : Fin 3) (gen : BitVec 32) (g : SkpGroup) (n : SkpNode) (x : SkpGen)
    (parent : Nat × Nat), s.running = true → s.skpGroup group.val = some g → skpNode g height.val = some n →
    skpGen n gen.toNat = some x → n.parent = some parent → x.up = true → x.result = none →
    exec (.skipperRepeat group height gen) s
      = .next (s.sendSkp g n.wing parent x false (skpUp n x).2 (skpUp n x).1))

/-- Bouquets at the manager and at the chips (R239, R241, R245): each command of this family completes: from the states named here it
answers a next state, with the effect written here. -/
def Obligations.bouquetLoadsComplete : Prop :=
  (∀ (s : State) (r : FwRef) (slice : Fin 65536) (image : List Byte), s.manages → 0 < slice.val → slice.val ≤ 1023 →
    headerOk image = true →
    ∃ l : MgrLoad, exec (.bqLoad r slice image) s = .next
      ({ s with mgr := { s.mgr with loads := s.mgr.loads ++ [l], loadSeq := s.mgr.loadSeq + 1 } }).startLoads ∧ l.id =
      s.mgr.loadSeq ∧ l.slice = slice.val ∧ l.image = image ∧ l.bq = some (readBq image) ∧ l.chips = bqChips (readBq image) ∧ l.ref
      = r ∧ l.handle = 0) ∧
  (∀ (s : State) (h : MsgHdr) (load : Nat) (slice : Slice) (bytes : List Byte), s.hears h →
    ((s.noteSeen h).hawk.parts.any fun b => b.load == load) = false →
    exec (.bqLoadCheck h (.image load slice bytes)) s = .next (((s.noteSeen h).loadImage load slice.val bytes).answerLoad load)) ∧
  (∀ (s : State) (load : Nat) (l : MgrLoad) (t : Ftu), s.running = true →
    s.mgr.loads.find? (fun l => l.id == load && l.handle == 0) = some l → l.sentAt = some t → s.isActive = true →
    1600000000 ≤ (s.ftu - t).toNat →
    exec (.bqLoadTimeout load) s = .next (s.decideLoad
      { l with answers := l.answers ++ ((l.chips.filter fun c => !l.answers.any fun a => a.1 == c).map (fun c => (c, some ⟨ST_REFUSED_STATE, 0, c, 0, 0xFFFF, 0, 0⟩))) }))
      ∧
  (∀ (s : State) (h : MsgHdr) (load : Nat) (handle : BitVec 32) (start : Wb) (remote : List RemoteRead) (b : BqPart), s.hears h →
    (s.noteSeen h).hawk.parts.find? (fun b => b.load == load && b.handle == 0) = some b →
    exec (.bqCommitReceive h load (some (handle, start)) remote) s = .next ((((s.noteSeen h).modPart (fun x => x.load == load) fun
      x => { x with handle := handle.toNat, start := start, state := 1 }).readTiles b remote).showParts)) ∧
  (∀ (s : State) (handle : BitVec 32) (remote : List RemoteRead) (b : BqPart), s.running = true → s.partOf handle.toNat = some b →
    b.state = 1 → s.reached b.start = true →
    exec (.bqStart handle remote) s = .next ((s.readTiles b remote).modPart (fun x => x.load == b.load) fun x =>
      { x with state := 2 }).showParts) ∧
  (∀ (s : State) (r : FwRef) (handle : BitVec 32) (l : MgrLoad), s.manages →
    s.mgr.loads.find? (fun l => l.handle == handle.toNat && l.handle != 0) = some l → l.unloadAt = none → l.want = none →
    exec (.bqUnload r handle) s = .next (s.modLoad l.id fun x => { x with want := some r }).startLoads) ∧
  (∀ (s : State) (r : FwRef) (handle : BitVec 32) (l : MgrLoad), s.manages → handle ≠ 0 →
    s.mgr.loads.find? (fun l => l.handle == handle.toNat) = some l →
    exec (.bqStatus r handle) s = .next (s.finishFw r ACK_OK 0 (leBytes 1 (s.loadState l) ++ leBytes 1 (bit l.degraded) ++ leBytes
      2 l.slice ++ leBytes 2 ((l.bq.map (·.period)).getD 0) ++ leBytes 2 0 ++ leBytes 8 l.start.toNat ++ loadBlock acceptedLoad
      l.start.toNat))) ∧
  (∀ (s u : State) (handle : BitVec 32) (at' : Wb) (b : BqPart), s.running = true →
    s.hawk.parts.find? (fun b => b.handle == handle.toNat && b.handle != 0) = some b → b.unloadAt = none → s.reached at' = true →
    u = (s.modPart (fun x => x.load == b.load) fun x =>
      { x with state := if x.state = 0 then 0 else 4, unloadAt := some at' }).stopOps handle.toNat →
    exec (.bqUnloadBoundary handle at') s = .next ((u.coll.nodes.filter fun n => (n.sched.map (·.1)) == some handle.toNat).foldl
      State.stopColl u).showParts) ∧
  (∀ (s : State) (handle : BitVec 32) (b : BqPart) (at' : Wb), s.running = true → s.hawk.parts = [b] → b.handle = handle.toNat →
    handle ≠ 0 → b.unloadAt = some at' → s.reached (at' + 2#48) = true → s.mgr.loads = [] →
    exec (.bqUnloadRelease handle) s = .next ({ s with hawk := { s.hawk with parts := [] } }).showParts)

/-- Steps of a bouquet and OP commands (R157, R242, R244, R247):
each command of this family completes: from the states named here it answers a next state, with the effect written here. -/
def Obligations.stepsAndOpsComplete : Prop :=
  (∀ (s : State) (handle : BitVec 32) (step : Nat) (remote : List RemoteRead) (b : BqPart) (st : BqStep) (n : BqNode), s.running =
      true → s.partOf handle.toNat = some b → b.bq.steps[step]? = some st → b.bq.nodes[st.node]? = some n → n.chip = s.chip →
    n.typ ≠ 0x01 → st.auto = true → s.stepDue b st = true → s.ctxSteps b n.ctx = true → b.ran.contains (step, s.wb) = false →
    exec (.stepRun handle step remote) s = .next (s.beginStep b step st n n.param ((s.wb - b.start).toNat / max 1 b.bq.period % 2 ^
      32) none remote)) ∧
  (∀ (s : State) (handle : BitVec 32) (step : Nat) (x : StepRun), s.running = true →
    s.hawk.runs.find? (fun x => x.handle == handle.toNat && x.step == step && x.op.isNone) = some x →
    s.quiet x.tag.1 x.tag.2 = true → exec (.stepComplete handle step) s = .next (s.endStep x (s.stepStatus x) x.extent)) ∧
  (∀ (s : State) (queue : Queue) (index : BitVec 32) (remote : List RemoteRead) (r : RunCmd) (b : BqPart) (st : BqStep) (n :
      BqNode), s.running = true → s.fresh? queue.val index.toNat 0x20 = some r → s.opStep r.slot = some (b, st, n) → b.state = 2 →
    st.opAllowed = true → n.typ ≠ 0x01 → n.chip = s.chip → r.ctx = n.ctx → slotNum r.slot 40 8 = 0 →
    exec (.op queue index remote) s = .next (s.modRun queue.val index.toNat fun r =>
      { r with begun := true, pos := s.wb.toNat, slot := r.slot ++ ([] : List Byte) })) ∧
  (∀ (s : State) (queue : Queue) (index : BitVec 32) (remote : List RemoteRead) (r : RunCmd) (b : BqPart) (st : BqStep) (n :
      BqNode), s.running = true → s.opWaits queue.val index.toNat = some r → s.opStep r.slot = some (b, st, n) →
    1 ≤ (s.wb - BitVec.ofNat 48 r.pos).toNat → (s.wb - BitVec.ofNat 48 r.pos).toNat ≤ 64 → b.state = 2 → s.power.pace = 0 →
    (nodeCores n).all (fun c => s.coreFree n.wing c) = true → r.slot.length ≤ 64 →
    exec (.opStepStart queue index remote) s = .next (s.beginStep b (slotNum r.slot 36 2) st n n.param (index.toNat % 2 ^ 32) (some
      (queue.val, index.toNat)) remote)) ∧
  (∀ (s : State) (queue : Queue) (index : BitVec 32) (r : RunCmd), s.running = true → s.opWaits queue.val index.toNat = some r →
    64 ≤ (s.wb - BitVec.ofNat 48 r.pos).toNat →
    exec (.opNoFit queue index) s = .next (s.endCmd queue.val index.toNat ST_REFUSED_FIT 0)) ∧
  (∀ (s : State) (handle : BitVec 32) (node core : Nat) (remote : List RemoteRead) (b : BqPart) (n : BqNode), s.running = true →
    s.partOf handle.toNat = some b → b.bq.nodes[node]? = some n → b.stale.contains (node, core) = true →
    s.coreAbsent n.wing core = false → s.coreFree n.wing core = true → s.power.pace = 0 → n.typ ≠ 0x15 →
    exec (.tileReload handle node core remote) s = .next (s.modPart (fun x => x.load == b.load) fun x =>
      { x with stale := x.stale.erase (node, core) })) ∧
  (∀ (s u : State) (queue : Queue) (index : BitVec 32) (r : RunCmd) (st : Nat), s.running = true →
    u = s.settleOp queue.val index.toNat → u.run queue.val index.toNat = some r → u.finalStatus r = some st → u.heldBy r = false →
    exec (.commandComplete queue index) s = .next ((u.settleDispatch r).complete r st))

/-- Resets of the compute part, and firmware's role resets (R353 to R355, R360): each command of this family completes: from the
states named here it answers a next state, with the effect written here. -/
def Obligations.warmComputeAndRoleResetsComplete : Prop :=
  (∀ (s : State) (r : FwRef), s.running = true → s.time.based = true → s.power.computeAt = none →
    exec (.resetCompute r) s
      = .next { s with power := { s.power with
          computeRefs := s.power.computeRefs ++ [r], computeAt := some (s.wb + 1#48) } }) ∧
  (∀ (s : State) (b : Wb), s.running = true → s.power.computeAt = some b → s.reached b = true →
    exec .computeResetBoundary s = .next (s.computeNow b)) ∧
  (∀ (s : State) (b : Wb), s.running = true → s.power.computeReady = some b → s.reached b = true →
    exec .computeResetReady s
      = .next ({ s with power := { s.power with computeReady := none } }).freeHeld.showSpares) ∧
  (∀ (s : State) (r : FwRef), s.running = true → exec (.resetWarm r) s = .next (s.warmNow 3)) ∧
  (∀ (s : State) (r : FwRef), s.running = true → s.isManagerChip = true →
    exec (.resetRole r) s = .next ((s.roleNow 3).finishFw r ACK_OK 0)) ∧
  (∀ s : State, s.running = true → s.isManagerChip = true → exec .managerWatchdog s = .next (s.roleNow 6)) ∧
  (∀ (s : State) (r : FwRef) (ctxResets ctxWindow chipResets chipWindow computeResets computeWindow : Fin 65536),
    s.running = true → s.canonical → 2 ≤ ctxResets.val → ctxResets.val ≤ 64 → 1 ≤ ctxWindow.val → ctxWindow.val ≤ 600 →
    4 ≤ chipResets.val → chipResets.val ≤ 256 → 10 ≤ chipWindow.val → chipWindow.val ≤ 3600 →
    2 ≤ computeResets.val → computeResets.val ≤ 16 → 60 ≤ computeWindow.val →
    ∃ t : State, exec (.escalation r ctxResets ctxWindow chipResets chipWindow computeResets computeWindow) s
        = .next (t.finishFw r ACK_OK 0)
      ∧ t.fld F.RST_ESC_LIMITS_CTX_RESETS = ctxResets.val ∧ t.fld F.RST_ESC_LIMITS_CTX_WINDOW = ctxWindow.val
      ∧ t.fld F.RST_ESC_LIMITS_CHIP_RESETS = chipResets.val ∧ t.fld F.RST_ESC_LIMITS_CHIP_WINDOW = chipWindow.val
      ∧ t.fld F.RST_ESC_LIMITS_COMPUTE_RESETS = computeResets.val ∧ t.fld F.RST_ESC_LIMITS_COMPUTE_WINDOW = computeWindow.val
      ∧ t.mem = s.mem ∧ t.out = s.out)

/-- The pool, its window and its frames (R255, R257, R258, R265, R266, R416): each command of this family completes: from the states
named here it answers a next state, with the effect written here. -/
def Obligations.poolCommandsComplete : Prop :=
  (∀ (s : State) (wing : Wing) (p : Packet), s.running = true → p.kind.val = 0x01 →
    exec (.poolWriteRequest wing p) s = .next (s.sinkWrite wing.val p)) ∧
  (∀ (s u : State) (wing : Wing) (p : Packet) (data : List Byte) (secs : List Nat), s.running = true → p.kind.val = 0x02 →
    s.judgeRead p = (ST_OK, data, secs, none) → u = (s.countFaults secs).markBad p none →
    exec (.poolReadRequest wing p) s
      = .next (u.source (0x89 + wing.val) (u.replyPacket (0x89 + wing.val) ST_OK p data))) ∧
  (∀ (s : State) (unit : Fin 256) (p : Packet) (r : PendingRead), s.running = true → s.readFor unit.val p = some r →
    exec (.readRespReceive unit p) s
      = .next (({ s with net := { s.net with reads := s.net.reads.erase r } }).readDone r (p.arg.toNat / 2 ^ 32 % 256)
          p.payload)) ∧
  (∀ (s : State) (port : Port) (p : Packet), s.running = true → p.kind.val = 0x01 ∨ p.kind.val = 0x02 →
    isWindow p.arg.toNat = true → exec (.windowRequest port p) s = .next (s.windowRequest port p)) ∧
  (∀ (s : State) (port : Port) (p : Packet), s.running = true →
    (s.ep port.val).waiting.find? (fun p => s.winRoom port.val p) = some p →
    exec (.windowEntryFree port) s
      = .next ((s.modEp port.val fun e => { e with waiting := e.waiting.erase p }).windowRequest port p)) ∧
  (∀ (s : State) (port : Port) (x : WinRefused), s.running = true →
    (s.ep port.val).refused.find? (fun x => x.acked && !x.sent && s.winRoom port.val { x.pkt with kind := 0x01 }) = some x →
    ∃ m : Packet, exec (.refusalMarkerSend port) s
        = .next ((s.modEp port.val fun e => { e with
            refused := e.refused.map fun y => if y = x then { y with sent := true } else y
            streams := noteStream e.streams x.pkt }).toEndpoint port m)
      ∧ m.refused = true ∧ m.payload = [] ∧ m.payFlits = 0 ∧ m.arg = x.pkt.arg) ∧
  (∀ (s : State) (frame : Nat), s.running = true → frameExists frame = true →
    s.fld F.HBM_RETIRE_THRESHOLD (wingOfFrame frame) = 1024 → Store.get (fun _ => 0) s.pool.corrected frame = 0 →
    exec (.eccCorrected frame) s
      = .next { s.bump F.HBM_ECC_CORRECTED (stackOf frame) with pool := { s.pool with
          corrected := Store.set (fun _ => 0) s.pool.corrected frame 1 } }) ∧
  (∀ (s : State) (frame : Nat) (sector : Fin 4096) (data : List Byte), s.running = true → frameExists frame = true →
    s.pool.poison.contains (frame * 4096 + sector.val) = false →
    ∃ u : State, exec (.eccUncorrectable frame sector data) s = .next ((u.sillage 0x09 0x02 2 []).queueRetire frame)
      ∧ u.pool.poison = s.pool.poison ++ [frame * 4096 + sector.val]
      ∧ u.mem = (s.writeMem ((frame * 4096 + sector.val) * 512) (data.take 512)).mem
      ∧ u.regs = (s.bump F.HBM_ECC_UNCORRECTABLE (stackOf frame)).regs) ∧
  (∀ (s : State) (wing : Wing) (f : Nat), s.running = true →
    s.pool.retire.find? (fun f => wingOfFrame f == wing.val) = some f →
    512 ≤ Store.get (fun _ => 0) s.pool.reserve (stackOf f) →
    exec (.retireCopyDone wing) s
      = .next (({ s with pool := { s.pool with retire := s.pool.retire.erase f } }).showRetire wing.val)) ∧
  (∀ (s : State) (r : FwRef) (n : Fin 2048), s.running = true → s.canonical → 8 ≤ n.val → n.val ≤ 1024 →
    ∃ t : State, exec (.retireThreshold r n) s = .next (t.finishFw r ACK_OK 0)
      ∧ (∀ w < 4, t.fld F.HBM_RETIRE_THRESHOLD w = n.val) ∧ t.mem = s.mem ∧ t.out = s.out)

/-- Atomizer-L and Atomizer-S (R9, R271, R272, R274, R277, R279, R280, R315): each command of this family completes: from the states
named here it answers a next state, with the effect written here. -/
def Obligations.atomizerCommandsComplete : Prop :=
  (∀ (s : State) (queue : Queue) (index : BitVec 32) (remote : List RemoteRead) (r : RunCmd), s.running = true →
    s.fresh? queue.val index.toNat 0x12 = some r →
    ∃ (u : State) (x : ChainL), exec (.dma queue index remote) s
        = .next (u.goOnL (chanIx (queue.val / 4096) (slotNum r.slot 40 2)) remote)
      ∧ u.dma.chains = s.dma.chains ++ [x] ∧ x.queue = queue.val ∧ x.index = index.toNat
      ∧ x.at' = some (slotNum r.slot 32 8) ∧ x.live = false ∧ u.regs = s.regs ∧ u.mem = s.mem) ∧
  (∀ (s : State) (wing : Wing) (chan : Fin 256) (remote : List RemoteRead), s.running = true → s.bufferedOn wing.val < 64 →
    s.dma.ready.find? (fun c => c / 256 == wing.val) = some (chanIx wing.val chan.val) →
    exec (.atlBufferGrant wing chan remote) s
      = .next (({ s.setFld F.ATL_CH_STATUS_STATE (chanIx wing.val chan.val) AL_RUNNING with dma := { s.dma with
          ready := s.dma.ready.erase (chanIx wing.val chan.val)
          buffered := s.dma.buffered ++ [chanIx wing.val chan.val] } }).stepL (chanIx wing.val chan.val) remote)) ∧
  (∀ (s u : State) (wing : Wing) (chan : Fin 256) (remote : List RemoteRead) (x : ChainL) (d : Desc) (r : RunCmd) (st : Nat),
    s.running = true → u = s.driveL (chanIx wing.val chan.val) → u.liveChain (chanIx wing.val chan.val) = some x →
    x.desc = some d → u.run x.queue x.index = some r → d.rows ≤ x.row → u.writesWait (chanIx wing.val chan.val) = false →
    r.fails.find? (fun f => f.1 == x.finished) = some (x.finished, st) →
    exec (.descriptorFinish wing chan remote) s
      = .next ((u.leaveL x st).goOnL (chanIx wing.val chan.val) remote)) ∧
  (∀ (s u : State) (wing : Wing) (chan : Fin 256) (remote : List RemoteRead) (x : ChainL) (d : Desc) (r : RunCmd),
    s.running = true → u = s.driveL (chanIx wing.val chan.val) → u.liveChain (chanIx wing.val chan.val) = some x →
    x.desc = some d → u.run x.queue x.index = some r → d.rows ≤ x.row → u.writesWait (chanIx wing.val chan.val) = false →
    r.fails = [] → d.eventEn = false → d.next = 0 →
    exec (.descriptorFinish wing chan remote) s
      = .next ((((((u.setFld F.ATL_CH_STATUS_DESC_DONE (chanIx wing.val chan.val) (x.finished + 1)).bump
          F.ATL_EVENTS_DESCRIPTORS wing.val).progress x.queue x.index fun r => { r with extent := x.finished + 1 }).modChain
          (chanIx wing.val chan.val) fun x => { x with
            desc := none, started := false, row := 0, finished := x.finished + 1, at' := none }).goOnL
          (chanIx wing.val chan.val) remote))) ∧
  (∀ (s : State) (wing : Wing) (chan : Fin 256) (remote : List RemoteRead) (x : ChainL) (st : Nat), s.running = true →
    s.liveChain (chanIx wing.val chan.val) = some x → x.refused = some st →
    exec (.descriptorRefused wing chan remote) s
      = .next (((s.leaveL x st).bump F.ATL_EVENTS_REFUSED wing.val).goOnL (chanIx wing.val chan.val) remote)) ∧
  (∀ (s : State) (owner : Owner) (wing : Wing) (chan : Fin 256), s.accessRuns owner.val →
    exec (.atlStop owner wing chan) s
      = .next (((s.setFld F.ATL_CH_SEL_CHANNEL wing.val chan.val).stopChan (chanIx wing.val chan.val)).emit
          (.access owner.val ST_OK 0))) ∧
  (∀ (s : State) (owner : Owner) (chan : Fin 16), s.accessRuns owner.val → owner.val ≠ 0 → s.chSOwner chan.val = owner.val →
    s.chSState chan.val = AS_IDLE →
    ∃ t : State, exec (.atsGo owner chan) s = .next (t.emit (.access owner.val ST_OK 0))
      ∧ t.regs = ((s.setFld F.ATS_CH_STATUS_DESC_DONE chan.val 0).setFld F.ATS_CH_STATUS_STATE chan.val AS_WAIT_ENGINE).regs
      ∧ (t.chS chan.val).at' = some (s.fld F.ATS_CH_DESC_ADDRESS chan.val) ∧ t.out = s.out) ∧
  (∀ (s : State) (owner : Owner) (chan : Fin 16), s.accessRuns owner.val → owner.val ≠ 0 → s.chSOwner chan.val = owner.val →
    s.chSState chan.val ≠ AS_IDLE → (s.chS chan.val).started = false →
    exec (.atsStop owner chan) s = .next ((s.endS chan.val ST_ABORT_STOP).emit (.access owner.val ST_OK 0))) ∧
  (∀ (s u : State) (owner : Owner) (chan : Fin 16), s.accessRuns owner.val → owner.val ≠ 0 → s.chSOwner chan.val = owner.val →
    u = s.modChS chan.val (fun c => { c with fences := c.fences ++ [c.serial] }) →
    exec (.atsFence owner chan) s
      = .next ((u.settleS chan.val (u.chS chan.val).fences.length).emit (.access owner.val ST_OK 0))) ∧
  (∀ s : State, s.running = true → s.forwardOnly = false → exec .atsChannelServe s = .next s.serveS) ∧
  (∀ (s : State) (chan : Fin 16) (n : Nat), s.running = true → s.chSState chan.val = AS_WAIT_RING → s.ringRoom chan.val = true →
    s.dma.serving = some n →
    exec (.atsRingRoom chan) s = .next (s.setFld F.ATS_CH_STATUS_STATE chan.val AS_WAIT_ENGINE)) ∧
  (∀ (s : State) (owner : Owner) (chan : Fin 16), s.accessRuns owner.val → s.fld F.ATS_CH_LOCK_OWNER chan.val = 0 →
    exec (.atsChLockRead owner chan) s
      = .next ((s.setFld F.ATS_CH_LOCK_OWNER chan.val owner.val).emit (.access owner.val ST_OK 0))) ∧
  (∀ (s : State) (owner : Owner) (chan : Fin 16) (value : Word), s.accessRuns owner.val → chan.val < 12 →
    s.fld F.ATS_CH_LOCK_OWNER chan.val = getBits value F.ATS_CH_LOCK_OWNER.lo F.ATS_CH_LOCK_OWNER.width →
    exec (.atsChLockRelease owner chan value) s
      = .next ((s.setFld F.ATS_CH_LOCK_OWNER chan.val 0).emit (.access owner.val ST_OK 0))) ∧
  (∀ (s : State) (port : Antenna) (f : AntFrame), s.running = true → s.antTakes port.val f →
    exec (.hostResponseReceive port true f) s = .next ((s.antTaken port.val f).hostAnswer port.val f))

/-- Measurement, reports, keys and seals (R291, R292, R297, R301, R302): each command of this family completes: from the states named
here it answers a next state, with the effect written here. -/
def Obligations.securityCommandsComplete : Prop :=
  (∀ (s : State) (r : FwRef) (first : Fin 65536), s.running = true → first.val ≤ s.sec.log.length →
    exec (.measureRead r first) s
      = .next (s.finishFw r ACK_OK (s.sec.log.drop first.val).length ((s.sec.log.drop first.val).flatMap fun e =>
          leBytes 1 e.1 ++ List.replicate 7 0 ++ digestBytes e.2.1 ++ leBytes 8 e.2.2))) ∧
  (∀ (s : State) (r : FwRef) (slice : Slice) (nonce : List Byte), s.running = true → nonce.length = 32 →
    s.flag F.SEC_STATUS_XMSS_EXHAUSTED = false → s.fld F.SEC_XMSS_INDEX_NEXT_INDEX < 2 ^ 40 →
    ∃ (t : State) (report : List Byte), exec (.attest r slice nonce) s = .next (t.finishFw r ACK_OK report.length report)
      ∧ report.take (s.fresh.2.reportBody slice.val nonce s.fresh.1).length
          = s.fresh.2.reportBody slice.val nonce s.fresh.1) ∧
  (∀ (s : State) (r : FwRef), s.running = true →
    exec (.certChain r) s
      = .next (s.finishFw r ACK_OK ((Config.identityCert ++ Config.variantCert ++ Config.signingCert).length % 2 ^ 32)
          (Config.identityCert ++ Config.variantCert ++ Config.signingCert))) ∧
  (∀ (s : State) (slice : Slice), s.running = true →
    exec (.kemKeyExpire slice) s
      = .next (s.modSec fun x => { x with kems := x.kems.filter fun k =>
          !(k.slice == slice.val && decide (60 * ppsPeriod ≤ (s.ftu - k.at').toNat)) })) ∧
  (∀ (s : State) (r : FwRef) (slice : Slice) (ct iv wrapped policy : List Byte) (k : KemKey),
    s.running = true → s.canonical → ct.length = 1568 → iv.length = 12 → wrapped.length = 48 →
    policyMembers policy = some (s.slicePlaces slice.val) → (s.sliceEntry slice.val).bind (·.sealAt) = none →
    s.isSealed slice.val = false → s.openOrQuiesced slice.val = true → s.fld F.SEC_SLICE_STATUS_STATE slice.val = 0 →
    s.sec.kems.find? (fun k => k.slice == slice.val) = some k →
    ∃ t : State, exec (.keyDeliver r slice ct iv wrapped policy) s = .next t
      ∧ (Config.gcmOpen (kdf (kdf (Config.kemOpen k.key ct) "TENANT" (digestBytes k.digest)) "WRAP" (s.chipSlice slice.val)) iv
          (s.chipSlice slice.val) wrapped = none →
        t = (s.modSec fun x => { x with kems := x.kems.filter fun y => y != k }).finishFw r ACK_DENIED 0)
      ∧ ∀ srk : List Byte, Config.gcmOpen (kdf (kdf (Config.kemOpen k.key ct) "TENANT" (digestBytes k.digest)) "WRAP"
            (s.chipSlice slice.val)) iv (s.chipSlice slice.val) wrapped = some srk →
          t.fld F.SEC_SLICE_STATUS_STATE slice.val = 1 ∧ k ∉ t.sec.kems ∧
          ∃ x ∈ t.sec.slices, x.num = slice.val ∧ x.srk = srk ∧ x.policy = Config.shake256 policy) ∧
  (∀ (s : State) (r : FwRef) (slice : Slice) (reports : List SealReport) (x : SliceRec), s.manages →
    s.sliceRec slice.val = some x → x.isSealed = false → x.sealAt = none → x.compat = false → x.phase = .running →
    s.allKeyed reports = true → (∀ q ∈ reports, q.linksOk = true) →
    ∃ (v : Nat) (z : Wb), z = s.wb + 2#48 + BitVec.ofNat 48 (v % 2 ^ 32) ∧
      exec (.sliceSeal r slice true reports) s
        = .next ((((s.fresh.2.putSlice { x with sealAt := some z, isSealed := true }).sendSliceAll
            { x with sealAt := some z, isSealed := true }).finishFw r ACK_OK (z.toNat % 2 ^ 32)))) ∧
  (∀ (s : State) (slice : Slice) (z : Wb), s.running = true → (s.sliceEntry slice.val).bind (·.sealAt) = some z →
    s.reached z = true → s.fld F.SEC_SLICE_STATUS_STATE slice.val = 1 →
    exec (.sealBoundary slice) s = .next (s.enterSealed slice.val)) ∧
  (∀ (s : State) (l : Link), s.running = true → s.linkState l.val = PS_UP → s.interval ≠ 0 → s.sec.outs = [] →
    exec (.sealIntervalEnd l) s
      = .next (s.modSec fun x => { x with outs := [⟨l.val, s.interval - 1, [], [], true, false⟩] })) ∧
  (∀ (s : State) (l : Link) (o : SealOut), s.running = true → s.sec.outs.find? (fun o => o.link == l.val && o.ended) = some o →
    o.deps = [] →
    exec (.sealSetSend l) s
      = .next ((s.modSec fun x => { x with outs := x.outs.filter fun y => y != o }).emit (.sealSet l {
          fail := o.fail, empty := o.pkts.isEmpty, checkOk := true, interval := BitVec.ofNat 32 o.num
          tag := (s.modSec fun x => { x with outs := x.outs.filter fun y => y != o }).sealTag l.val o.num false o.pkts }))) ∧
  (∀ (s : State) (l : Link) (t : SealSet) (r : SealIn), s.running = true → t.checkOk = true → s.linkState l.val = PS_UP →
    s.sec.ins.find? (fun r => r.link == l.val && r.num == s.setInterval t.interval) = some r → t.fail = false →
    t.empty = false → t.tag = s.sealTag l.val (s.setInterval t.interval) true r.pkts →
    exec (.sealSetReceive l t) s = .next (s.sealVerified r)) ∧
  (∀ (s : State) (l : Link) (r : SealIn), s.running = true →
    s.sec.ins.find? (fun r => r.link == l.val && decide ((r.num + 1) * 1024 + 2048 ≤ s.ftu.toNat)) = some r →
    exec (.sealSetTimeout l) s = .next (s.sealFailed l.val (some r) r.num))

/-- The antenna ports and their frames (R308, R309, R311 to R313, R315, R316, R320, R325): each command of this family completes: from
the states named here it answers a next state, with the effect written here. -/
def Obligations.antennaCommandsComplete : Prop :=
  (∀ (s : State) (port : Antenna), s.antLive → s.antState port.val = AN_DOWN → s.power.refsLost.contains 0 = false →
    exec (.antSignalDetect port) s = .next (s.antGo port.val AN_TRAINING)) ∧
  (∀ (s : State) (port : Antenna), s.antLive → s.antState port.val = AN_TRAINING →
    exec (.antFecAlign port) s = .next ((s.antGo port.val AN_INIT).setFld F.ANT_STATUS_LANES port.val 15)) ∧
  (∀ (s : State) (port : Antenna), s.antLive → s.antState port.val = AN_TRAINING ∨ s.antState port.val = AN_INIT →
    usFtu 100000 ≤ s.since (s.ant port.val).since →
    exec (.antTrainTimeout port) s = .next ((s.antGo port.val AN_DOWN).setFld F.ANT_STATUS_LANES port.val 0)) ∧
  (∀ (s : State) (port : Antenna) (lanes : Fin 16), s.antLive → lanes.val ≠ 15 → s.antState port.val ≠ AN_DOWN →
    exec (.antLoss port lanes) s = .next ((s.antGo port.val AN_DOWN).setFld F.ANT_STATUS_LANES port.val lanes.val)) ∧
  (∀ (s : State) (owner : Owner) (port : Antenna), s.accessRuns owner.val →
    exec (.antRetrain owner port) s = .next ((s.antRetrain port.val).emit (.access owner.val ST_OK 0))) ∧
  (∀ (s : State) (port : Antenna), s.antLive → s.antState port.val = AN_INIT →
    exec (.antInitSend port) s
      = .next (((s.antEmit port.val { antFrame 0x30 with
          flags := if (s.ant port.val).gotInit then 1 else 0, len := 16, data := s.initData port.val }).modAnt port.val
          fun q => { q with sentAck := q.sentAck || q.gotInit }).antCheckUp port.val)) ∧
  (∀ (s : State) (port : Antenna) (ack : Bool) (maxOut : Fin 256), s.antLive → s.antState port.val = AN_INIT → 16 ≤ maxOut.val →
    exec (.antInitReceive port true ack 1 1 maxOut) s
      = .next ((s.modAnt port.val fun q => { q with
          gotInit := true, gotAck := q.gotAck || ack, maxOut := maxOut.val }).antCheckUp port.val)) ∧
  (∀ (s : State) (port : Antenna) (ack : Fin 65536), s.antLive → s.antState port.val = AN_UP →
    exec (.antLinkAck port true ack) s = .next (s.antAcked port.val ack)) ∧
  (∀ (s : State) (port : Antenna) (ack : Fin 65536), s.antLive → s.antState port.val = AN_UP →
    exec (.antLinkNak port true ack) s = .next ((s.antAcked port.val ack).antReplay port.val)) ∧
  (∀ (s : State) (port : Antenna), s.antLive → s.antState port.val = AN_UP → (s.ant port.val).unacked ≠ [] →
    usFtu 20 ≤ s.since (s.ant port.val).progress → exec (.antReplayTimeout port) s = .next (s.antReplay port.val)) ∧
  (∀ (s : State) (port : Antenna), s.antLive → s.antState port.val = AN_UP → (s.ant port.val).owed = true →
    exec (.antLinkAckSend port) s = .next (s.antEmit port.val (antFrame 0x31))) ∧
  (∀ (s : State) (port : Antenna), s.running = true → s.antState port.val = AN_UP →
    (s.ant port.val).hosts.any (fun h => decide (usFtu 1000 ≤ s.since h.sentAt)) = true →
    exec (.hostTimeout port) s = .next (s.antRetrain port.val)) ∧
  (∀ (s : State) (port : Antenna) (e : EvtRec), s.running = true → s.antState port.val = AN_UP →
    s.flag F.ANT_CTL_EVT_EN port.val = true → (s.ant port.val).unacked = [] → (s.ant port.val).waiting = [] →
    (s.ant port.val).events = [e] →
    exec (.eventFrameSend port) s
      = .next (s.antQueue port.val { antFrame 0x20 with len := (eventBytes e).length, data := eventBytes e } [e.seq])) ∧
  (∀ (s : State) (port : Antenna), s.running = true → (s.ant port.val).bell = true → s.antState port.val = AN_UP →
    exec (.doorbellFrameSend port) s = .next (s.sendBell port.val)) ∧
  (∀ (s u : State) (port : Antenna) (bad : Fin 65) (f : AntFrame), s.antLive → s.antTakes port.val f →
    u = s.antTaken port.val f → u.antOutstanding port.val < 64 → requestFormOk f = true → f.data = [] →
    exec (.antRead port true false bad f) s
      = .next (((u.countEcc f.addr.toNat bad.val).busRead (port.val + 1) f.addr.toNat f.len).1.antReply port.val f
          ((u.countEcc f.addr.toNat bad.val).busRead (port.val + 1) f.addr.toNat f.len).2.1
          ((u.countEcc f.addr.toNat bad.val).busRead (port.val + 1) f.addr.toNat f.len).2.2)) ∧
  (∀ (s u : State) (port : Antenna) (took : Bool) (f : AntFrame), s.antLive → s.antTakes port.val f →
    u = s.antTaken port.val f → u.antOutstanding port.val < 64 → requestFormOk f = true → f.data.length = f.len →
    exec (.antWrite port true false took f) s
      = .next ((u.busWrite (port.val + 1) f.addr.toNat f.data).1.antReply port.val f
          (u.busWrite (port.val + 1) f.addr.toNat f.data).2 [])) ∧
  (∀ (s u : State) (port : Antenna) (f : AntFrame), s.antLive → s.antTakes port.val f → u = s.antTaken port.val f →
    u.antOutstanding port.val < 64 → requestFormOk f = true → f.addr.toNat < 64 → f.len = 8 → f.data.length = 8 →
    u.power.frozen = false →
    exec (.antMbxSend port true f) s
      = .next ((u.mbxSend (port.val + 1) f.addr.toNat (wordOfBytes f.data)).1.antReply port.val f
          (u.mbxSend (port.val + 1) f.addr.toNat (wordOfBytes f.data)).2 []))

/-- Semaphores, mailboxes and the firmware's commands (R9, R318, R320, R321, R331, R335 to R337): each command of this family
completes: from the states named here it answers a next state, with the effect written here. -/
def Obligations.mailboxAndFirmwareCommandsComplete : Prop :=
  (∀ (s : State) (owner : Owner), s.accessRuns owner.val →
    exec (.ctlSemRead owner) s
      = .next ((if s.fld F.CTL_SEM_OWNER = 0 then s.setFld F.CTL_SEM_OWNER 0 owner.val else s).emit
          (.access owner.val ST_OK (BitVec.ofNat 64 (s.fld F.CTL_SEM_OWNER))))) ∧
  (∀ (s : State) (owner : Owner) (value : Word), s.accessRuns owner.val →
    s.fld F.CTL_SEM_OWNER = getBits value F.CTL_SEM_OWNER.lo F.CTL_SEM_OWNER.width →
    exec (.ctlSemRelease owner value) s = .next ((s.setFld F.CTL_SEM_OWNER 0 0).emit (.access owner.val ST_OK 0))) ∧
  (∀ (s : State) (owner : Owner) (n : Mailbox), s.accessRuns owner.val →
    exec (.mbxLockRead owner n) s
      = .next ((if s.fld F.MBX_LOCK_OWNER n.val = 0 then s.setFld F.MBX_LOCK_OWNER n.val owner.val else s).emit
          (.access owner.val ST_OK (BitVec.ofNat 64 (s.fld F.MBX_LOCK_OWNER n.val))))) ∧
  (∀ (s : State) (owner : Owner) (n : Mailbox) (value : Word), s.accessRuns owner.val →
    s.fld F.MBX_LOCK_OWNER n.val = getBits value F.MBX_LOCK_OWNER.lo F.MBX_LOCK_OWNER.width →
    exec (.mbxLockRelease owner n value) s = .next ((s.setFld F.MBX_LOCK_OWNER n.val 0).emit (.access owner.val ST_OK 0))) ∧
  (∀ (s : State) (owner : Owner) (n : Mailbox) (word : Word) (dest : Owner), s.accessRuns owner.val →
    exec (.mbxPost owner n word dest) s
      = .next ((s.mbxWrite owner.val n.val dest.val word).1.emit
          (.access owner.val (s.mbxWrite owner.val n.val dest.val word).2.1 (s.mbxWrite owner.val n.val dest.val word).2.2))) ∧
  (∀ (s : State) (owner : Owner) (n : Mailbox) (code : Fin 256), s.accessRuns owner.val →
    exec (.mbxAcknowledge owner n code) s
      = .next ((s.mbxAnswer owner.val n.val code.val).1.emit
          (.access owner.val (s.mbxAnswer owner.val n.val code.val).2.1 (s.mbxAnswer owner.val n.val code.val).2.2))) ∧
  (∀ s : State, s.running = true → exec (.ownerRestart 4) s = .next (s.ownerRestart 4)) ∧
  (∀ (s : State) (mbx : Fin 32) (fetched : List Byte) (b : List Byte), s.running = true → s.flag F.MBX_STATUS_FULL mbx.val = true →
    s.fld F.MBX_STATUS_SENDER mbx.val = 1 → s.postBlock 1 (s.reg .MBX_DATA mbx.val) fetched = some b →
    exec (.fwCommandAccept mbx fetched) s
      = .next ((s.takeCommand ⟨.owners, mbx.val, 1, s.reg .MBX_DATA mbx.val, wordForm (s.reg .MBX_DATA mbx.val), b⟩).1.mbxAck
          mbx.val (s.takeCommand ⟨.owners, mbx.val, 1, s.reg .MBX_DATA mbx.val, wordForm (s.reg .MBX_DATA mbx.val), b⟩).2)) ∧
  (∀ (s : State) (r : FwRef) (cls : Fin 256) (image : FwImage), s.running = true → cls.val ≤ 2 → s.bcastOf cls.val = false →
    image.verdict = 0 → image.cls.val = cls.val →
    exec (.fwStage r cls image) s
      = .next ((s.stage cls.val image.build.toNat image.bytes).finishFw r ACK_OK image.build.toNat)) ∧
  (∀ (s : State) (r : FwRef) (cls : Fin 4) (build : Nat) (digest : BitVec 256), s.manages →
    s.fw.staged.find? (fun x => x.1 == cls.val) = some (cls.val, build, digest) → s.fw.bcast = none →
    exec (.fwBroadcast r cls) s
      = .next (({ s with fw := { s.fw with bcast := some ({
          ref := r, cls := cls.val, build := build, results := [(s.chip, 0, build)], progress := s.ftu, next := 0 } : Bcast) } }).sendMgmt
          0xFFFF (.fwOffer cls.val build (s.bcastBytes cls.val).length (piecesOf (s.bcastBytes cls.val).length) digest))) ∧
  (∀ (s : State) (b : Bcast), s.running = true → s.fw.bcast = some b → usFtu 1000000 ≤ s.since b.progress →
    exec .fwBroadcastTimeout s = .next (s.endBcast b ACK_TIMEOUT)) ∧
  (∀ (s : State) (h : MsgHdr) (cls : Fin 256) (build : BitVec 32) (bytes pieces : Nat) (digest : BitVec 256), s.hears h →
    exec (.fwOfferReceive h cls build bytes pieces digest) s
      = .next { s.noteSeen h with fw := { (s.noteSeen h).fw with
          incoming := ((s.noteSeen h).fw.incoming.filter fun x => x.cls != cls.val)
            ++ [⟨cls.val, build.toNat, bytes, pieces, digest, []⟩] } }) ∧
  (∀ (s : State) (h : MsgHdr) (piece : Nat) (build : BitVec 32) (data : List Byte) (verdict : Fin 5), s.hears h →
    exec (.fwPieceReceive h piece build data verdict) s
      = .next ((s.noteSeen h).takePiece piece build.toNat data verdict.val)) ∧
  (∀ (s : State) (h : MsgHdr) (build : BitVec 32) (first count : Nat) (b : Bcast), s.managerHears h →
    (s.noteSeen h).fw.bcast = some b → b.build = build.toNat → count = 0 →
    exec (.fwNeedReceive h build first count) s
      = .next { s.noteSeen h with fw := { (s.noteSeen h).fw with bcast := some { b with progress := (s.noteSeen h).ftu } } }) ∧
  (∀ (s : State) (h : MsgHdr) (build : BitVec 32) (result : Fin 256) (b : Bcast), s.managerHears h →
    (s.noteSeen h).fw.bcast = some b → b.build = build.toNat →
    (s.noteSeen h).mgr.service.all (fun c => ((b.results.filter fun x => x.1 != h.src.val)
      ++ [(h.src.val, result.val, build.toNat)]).any fun x => x.1 == c) = false →
    exec (.fwResultReceive h build result) s
      = .next { s.noteSeen h with fw := { (s.noteSeen h).fw with bcast := some { b with
          results := (b.results.filter fun x => x.1 != h.src.val) ++ [(h.src.val, result.val, build.toNat)]
          progress := (s.noteSeen h).ftu } } }) ∧
  (∀ (s : State) (r : FwRef), s.running = true →
    ∃ block : List Byte, exec (.fwStatus r) s = .next (s.finishFw r ACK_OK 32 block) ∧ block.length = 32) ∧
  (∀ (s : State) (r : FwRef), s.running = true → s.isActive = false →
    exec (.fwRestart r) s = .next ((s.fwRestart (some r)).finishFw r ACK_OK 0)) ∧
  (∀ (s : State) (r : FwRef) (group : Fin 256) (l : List Nat), s.running = true → s.counterGroup group.val = some l →
    exec (.counters r group) s = .next (s.finishFw r ACK_OK (8 * l.length) (l.flatMap (leBytes 8))))

/-- SERVICE ports, sessions, results and the Sillage (R62, R64, R65, R329, R383 to R386): each command of this family completes: from
the states named here it answers a next state, with the effect written here. -/
def Obligations.serviceAndSillageComplete : Prop :=
  (∀ (s : State) (port : Port) (d : BulkDgram) (tagOk : Bool), s.running = true → s.servicePort port.val = true →
    (d.opcode.val ≠ BK_MGMT → exec (.bulkDatagramReceive port d tagOk) s = .next (s.bulkIn port.val d tagOk))
    ∧ (d.opcode.val = BK_MGMT → exec (.bulkMgmtDatagram port d tagOk) s = .next (s.bulkIn port.val d tagOk))) ∧
  (∀ (s : State) (port : Port) (session : BitVec 32) (x : BulkSession), s.running = true →
    s.session port.val session.toNat = some x → x.ackAt.isSome = true →
    exec (.bulkAckTimer port session) s = .next (s.bulkAck x)) ∧
  (∀ (s : State) (port : Port) (session : BitVec 32) (x : BulkSession) (d : BulkDgram) (rest : List BulkDgram),
    s.running = true → s.session port.val session.toNat = some x → x.unacked = d :: rest →
    usFtu 100 ≤ s.since x.lastAck → exec (.bulkResendTimeout port session) s = .next (s.bulkResend x d.seq)) ∧
  (∀ (s : State) (port : Port) (f : EthFrame) (c : SvcCfg), s.running = true → s.svc port.val = some c →
    s.servicePort port.val = true → f.kind = .echo → svcAccepts c f = true → f.dst = c.ipv6 →
    exec (.serviceFrameReceive port f) s
      = .next (s.emit (.ethernet port.val { kind := .echoReply, len := f.len, fcsOk := true, vlan := f.vlan, dst := f.dst }))) ∧
  (∀ (s : State) (r : FwRef) (port prio : Fin 256) (vlan : Fin 65536) (ipv6 : BitVec 128), s.running = true → port.val < 128 →
    prio.val ≤ 7 → vlan.val ≤ 4095 → s.fld F.PRT_CTL_MODE port.val = PM_SERVICE → s.svc port.val = none →
    exec (.serviceCfg r port prio vlan ipv6) s
      = .next (({ s with fw := { s.fw with services := (s.fw.services.filter fun (x : SvcCfg) => x.port != port.val)
          ++ [(⟨port.val, prio.val, vlan.val, ipv6, []⟩ : SvcCfg)] } }).finishFw r ACK_OK 0)) ∧
  (∀ (s : State) (r : FwRef) (port flags : Fin 256) (ctx : Fin 65536) (session : BitVec 32) (peer : BitVec 128)
    (key : List Byte) (tenant : Bool), s.running = true → port.val < 128 → s.fld F.PRT_CTL_MODE port.val = PM_SERVICE →
    flags.val ≤ 1 → ctx.val < 4096 → s.ctxState ctx.val ≠ 0 → s.session port.val session.toNat = none →
    s.isSealed (s.ctxSlice ctx.val) = false → (s.fw.sessions.filter fun x => x.port == port.val).length < 256 →
    ∃ x : BulkSession, exec (.sessionOpen r port flags ctx session peer key tenant) s
        = .next (({ s with fw := { s.fw with sessions := s.fw.sessions ++ [x] } }).finishFw r ACK_OK 0)
      ∧ x.port = port.val ∧ x.num = session.toNat ∧ x.ctx = ctx.val ∧ x.peer = peer ∧ x.mgmt = (flags.val == 1)
      ∧ x.rxNext = 0 ∧ x.txNext = 0 ∧ x.unacked = []) ∧
  (∀ (s : State) (r : FwRef) (port : Fin 256) (session : BitVec 32), s.running = true →
    (s.session port.val session.toNat).isSome = true →
    exec (.sessionClose r port session) s
      = .next (({ s with fw := { s.fw with sessions := s.fw.sessions.filter fun x =>
          !(x.port == port.val && x.num == session.toNat) } }).finishFw r ACK_OK 0)) ∧
  (∀ (s : State) (r : FwRef) (e : JournalEntry), s.running = true → s.entryOf r = some e → s.fw.ready.contains r = true →
    s.firstReady e = true → r.space = .owners → e.mbx < 32 → s.flag F.MBX_STATUS_FULL (e.mbx + 32) = false →
    exec (.resultPost r) s
      = .next (((s.writeResult e).mbxPost 3 (e.mbx + 32) e.owner (resultWord e)).posted r)) ∧
  (∀ (s : State) (x : SilRec) (rest : List SilRec), s.running = true → s.sil.toPersist = x :: rest →
    exec .persistWrite s = .next (s.persistNext x)) ∧
  (∀ (s : State) (owner : Owner) (value : Word), s.accessRuns owner.val →
    exec (.silCursorWrite owner value) s = .next ((s.writeCursor owner.val value).emit (.access owner.val ST_OK 0))) ∧
  (∀ (s : State) (owner : Owner), s.accessRuns owner.val →
    exec (.silWindow7AutoRead owner) s
      = .next ((s.readWindow7 owner.val).1.emit (.access owner.val (s.readWindow7 owner.val).2.1 (s.readWindow7 owner.val).2.2))) ∧
  (∀ (s : State) (r : FwRef) (e : JournalEntry), s.running = true → s.entryOf r = some e → e.owner ≠ 4 → e.owner ≠ 0 →
    s.fld F.CTL_SEM_OWNER = e.owner →
    exec (.silClear r) s
      = .next ((({ s with sil := { s.sil with ring := [], overflow := [], begun := false } }).silOldest.sillage 0x10 0x02 0
          [s.sil.ring.length + s.sil.overflow.length]).finishFw r ACK_OK (s.sil.ring.length + s.sil.overflow.length))) ∧
  (∀ (s t : State) (r : FwRef) (frames : Fin 65536) (minSeverity : Fin 256), s.running = true → frames.val ≤ 512 →
    minSeverity.val ≤ 2 → s.resizeRegion frames.val = some t →
    exec (.silConfig r frames minSeverity) s = .next ((t.setFld F.SIL_CFG_MIN_SEVERITY 0 minSeverity.val).finishFw r ACK_OK 0))

/-- Failed units and spares (R368, R375, R378, R379, R414): each command of this family completes: from the states named here it
answers a next state, with the effect written here. -/
def Obligations.sparesComplete : Prop :=
  (∀ (s : State) (kind : Fin 16) (wing : Wing) (logical : Fin 2048) (cause : Fin 256) (row : BitVec 32), s.running = true →
    s.canFail kind.val wing.val logical.val = true → kind.val ≠ 1 → kind.val ≠ 3 →
    ∃ u : State, exec (.unitFailed kind wing logical cause row) s = .next (u.sillage 0x0F 0x01 2 [])
      ∧ u.spares.waiting = (s.unitWorkEnds kind.val wing.val logical.val).spares.waiting
          ++ [({ kind := kind.val, wing := wing.val, logical := logical.val,
                 detected := (s.unitWorkEnds kind.val wing.val logical.val).wb } : UnitFail)]
      ∧ u.regs = (s.unitWorkEnds kind.val wing.val logical.val).regs) ∧
  (∀ s : State, s.running = true → s.time.based = false →
    exec .spareTakeover s
      = .next ((failOrder s.spares.waiting).foldl State.takeover { s with spares := { s.spares with waiting := [] } }).showSpares) ∧
  (∀ (s u : State) (k w cause unit : Nat) (rest : List (Nat × Nat × Nat × Nat)), s.running = true →
    s.spares.uncommitted = (k, w, cause, unit) :: rest →
    u = ({ s with spares := { s.spares with uncommitted := rest } }).appendDefect k w cause unit →
    exec .defectCommit s
      = .next { u with cocoon := { u.cocoon with
          spareMap := ((failOrder u.spares.waiting).foldl State.mapTakeover u).allMaps
          spareUse := ((failOrder u.spares.waiting).foldl State.mapTakeover u).spares.use' } }) ∧
  (∀ (s : State) (wing : Wing), s.running = true → exec (.essentialUnitFail 7 wing) s = .next s.sparesCause) ∧
  (∀ (s : State) (wing : Wing), s.running = true → s.flag F.INS_STATUS_IMAGO = true →
    exec (.essentialUnitFail 0x0A wing) s
      = .next ((List.range 32).foldl (fun (t : State) p => t.disablePort (wing.val * 32 + p)) s).sparesCause) ∧
  (∀ (s : State) (r : FwRef) (first : BitVec 32), s.running = true → first.toNat ≤ s.cocoon.defects.length →
    exec (.defectRead r first) s
      = .next (s.finishFw r ACK_OK (s.cocoon.defects.drop first.toNat).length
          ((s.cocoon.defects.drop first.toNat).flatMap defectBytes))) ∧
  (∀ (s : State) (r : FwRef), s.running = true →
    (∃ block : List Byte, exec (.spareStatus r) s = .next (s.finishFw r ACK_OK 96 block) ∧ block.length = 96)
    ∧ (∃ block : List Byte, exec (.wingStatus r) s = .next (s.finishFw r ACK_OK 32 block) ∧ block.length = 32))

/-- Power states, comparators and forward-only (R361 to R363, R365, R366, R368 to R371): each command of this family completes: from
the states named here it answers a next state, with the effect written here. -/
def Obligations.powerCommandsComplete : Prop :=
  (∀ (s : State) (r : FwRef) (mask : Fin 256), s.running = true →
    exec (.powerActive r mask) s = .next (((s.wakeMask mask.val).setFld F.PWR_STATUS_STATE 0 0).finishFw r ACK_OK 0)
    ∧ exec (.powerDoze r mask) s = .next (((s.wakeMask mask.val).setFld F.PWR_STATUS_STATE 0 1).finishFw r ACK_OK 0)) ∧
  (∀ (s u : State) (r : FwRef) (mask : Fin 256), s.running = true → (s.contexts.any fun c => s.ctxState c == 1) = false →
    s.isActive = false → u = s.wakeMask mask.val →
    exec (.powerSleep r mask) s = .next ({ u with power := { u.power with sleepWant := some (2, r) } }).tryLow
    ∧ exec (.powerDeep r mask) s = .next ({ u with power := { u.power with sleepWant := some (3, r) } }).tryLow) ∧
  (∀ (s u : State) (n : Fin 8), s.aonLive = true → s.flag F.AON_CMP_CTL_ENABLE n.val = true →
    (s.fld F.AON_CMP_EVENTS_ACTIVE).testBit n.val = false → s.cmpTrue n.val = true →
    u = s.setFld F.AON_CMP_EVENTS_ACTIVE 0 (s.fld F.AON_CMP_EVENTS_ACTIVE ||| 2 ^ n.val) →
    exec (.comparatorFire n) s
      = .next ((u.setFld F.AON_CMP_EVENTS_FIRED 0 (u.fld F.AON_CMP_EVENTS_FIRED ||| 2 ^ n.val)).cmpActions n.val)) ∧
  (∀ (s : State) (n : Fin 8), s.aonLive = true → 4 ≤ n.val → (s.fld F.AON_CMP_EVENTS_ACTIVE).testBit n.val = true →
    exec (.comparatorClear n) s
      = .next (s.setFld F.AON_CMP_EVENTS_ACTIVE 0 (s.fld F.AON_CMP_EVENTS_ACTIVE - 2 ^ n.val))) ∧
  (∀ s : State, s.aonLive = true → exec .hardwareTrip s = .next s.trip) ∧
  (∀ (s : State) (r : FwRef), s.running = true → s.flag F.INS_STATUS_IMAGO = true →
    exec (.forwardOnlyEnter r) s = .next ((s.foCause FO_COMMAND).finishFw r ACK_OK 0)) ∧
  (∀ (s : State) (n : Wb), s.running = true → s.power.foAt = some n → s.power.foReset = false → s.reached (n + 1#48) = true →
    s.boundPorts = [] →
    ∃ u : State, exec .fwdOnlyContextReset s
        = .next { u with power := { u.power with foReset := true } }
      ∧ u = (s.resetAll (n + 1#48)).sendMgmt 0xFFFE (.fault .chip 0)) ∧
  (∀ (s u : State) (n : Wb), s.running = true → s.power.foAt = some n → s.power.foReset = true → s.reached (n + 3#48) = true →
    u = ({ s with power := { s.power with foAt := none, halted := true, refresh := true } }).freeHeld → u.isManagerChip = false →
    exec .fwdOnlyHalt s = .next u) ∧
  (∀ (s : State) (r : FwRef), s.running = true → s.forwardOnly = true →
    (∀ b < 7, (s.fld F.PWR_STATUS_FO_CAUSES).testBit b = true → s.causeGone b = true) →
    exec (.forwardOnlyLeave r) s = .next ((s.leaveForwardOnly r).finishFw r ACK_OK 0)) ∧
  (∀ (s : State) (watts vin temp : Fin 65536), s.running = true → vin.val ≤ 60000 →
    ∃ u : State, exec (.powerMeasure watts vin temp) s = .next (u.showPower watts.val vin.val temp.val)
      ∧ u.power.pace = paceStep s.power.pace watts.val (powerLimit Config.variant.val) ∧ u.regs = s.regs ∧ u.mem = s.mem
      ∧ u.out = s.out) ∧
  (∀ (s : State) (t : Ftu), s.running = true → s.power.overSince = some t → usFtu 10000 ≤ s.since t →
    exec .powerLimit s = .next ((s.sillage 0x0E 0x05 2 []).foCause FO_POWER)) ∧
  (∀ s : State, s.running = true → exec (.firmwareWatchdogLimit true) s = .next (s.foCause FO_FIRMWARE))

/-- Resets, clocks and EXTEST (R342, R349, R351, R353, R396, R397, R399, R403): each command of this family completes: from the states
named here it answers a next state, with the effect written here. -/
def Obligations.resetAndClockEventsComplete : Prop :=
  (∀ s : State, s.power.aonOn = false →
    exec (.porAssert true) s = .next (s.porNow { porPower s.power 0 with lowSeen := false, rstLow := false })) ∧
  (∀ s : State, s.power.aonOn = true → s.power.porHeld = false →
    exec (.porAssert false) s = .next (s.porNow { porPower s.power 1 with lowSeen := true, rstLow := true })) ∧
  (∀ (s : State) (x : Straps), s.power.rstLow = true →
    exec (.resetRelease true x) s = .next (({ s with power := { s.power with rstLow := false } }).releasePor x)) ∧
  (∀ s : State, s.power.aonOn = true → s.power.porHeld = false → exec .warmAssert s = .next (s.warmNow 2)) ∧
  (∀ (s : State) (busOk : Bool) (x : Straps), s.power.aonOn = true → s.power.porHeld = false → s.power.inReset = true →
    exec (.warmRelease busOk x) s = .next (s.comeWarm 2 s.power.source busOk x)) ∧
  (∀ s : State, s.power.aonOn = true →
    exec .vinLoss s
      = .next (s.porNow { porPower s.power 0 with aonOn := false, lowSeen := false, rstLow := false, extest := false })) ∧
  (∀ s : State, s.power.aonOn = true → exec .sysclkLoss s = .next (s.holdPor { s.power with sysLost := true } 0)) ∧
  (∀ (s : State) (x : Straps),
    exec (.sysclkReturn x) s = .next (({ s with power := { s.power with sysLost := false } }).releasePor x)) ∧
  (∀ (s : State) (x : Straps), s.power.aonOn = true →
    exec (.debugExtest true x) s = .next (s.holdPor { s.power with extest := true } 1)
    ∧ exec (.debugExtest false x) s = .next (({ s with power := { s.power with extest := false } }).releasePor x)) ∧
  (∀ (s u : State) (k : Fin 8), k ≠ 0 →
    u = { s with power := { s.power with refsLost := k :: s.power.refsLost.filter fun j => j != k } } → u.running = true →
    exec (.srefclkLoss k) s = .next ((refLinks k.val).foldl State.lossOfLink u)) ∧
  (∀ (s : State) (k : Fin 8),
    exec (.srefclkReturn k) s
      = .next { s with power := { s.power with refsLost := s.power.refsLost.filter fun j => j != k } })

/-- Start-up (R340, R342 to R348): each command of this family completes: from the states named here it answers a next state, with the
effect written here. -/
def Obligations.instarStagesComplete : Prop :=
  (∀ (s : State) (deviceId : Word), s.running = true → s.stageRuns 1 = true →
    ∃ t : State, exec (.stage1Done true true deviceId []) s = .next (t.stageDone.beginStage 2 false)
      ∧ t.out = s.out ∧ t.mem = s.mem) ∧
  (∀ (s : State) (rows : Nat), s.running = true → s.stageRuns 2 = true → s.ins.warm = false → rows ≤ 256 →
    ∃ t : State, exec (.stage2Done true rows) s = .next t.stageDone
      ∧ t.spares.use'.sramRows = 256 - rows ∧ t.ins.loadOpen = true ∧ t.mem = s.mem) ∧
  (∀ (s : State) (owner : Owner) (value : Word), s.accessRuns owner.val → getBits value 0 1 = 1 →
    (getBits value 1 3 = 3 → s.goOk 3 = true →
      exec (.insGoFirmware owner value) s = .next ((s.storeInsCtl value).goFirmware.emit (.access owner.val ST_OK 0)))
    ∧ (getBits value 1 3 = 4 → s.goOk 4 = true →
      exec (.insGoStartTest owner value) s = .next ((s.storeInsCtl value).goStartTest.emit (.access owner.val ST_OK 0)))
    ∧ (getBits value 1 3 = 5 → s.goOk 5 = true →
      exec (.insGoHbm owner value) s = .next ((s.storeInsCtl value).goHbm.emit (.access owner.val ST_OK 0)))
    ∧ (getBits value 1 3 = 6 → s.goOk 6 = true →
      exec (.insGoPorts owner value) s = .next ((s.storeInsCtl value).goPorts.emit (.access owner.val ST_OK 0)))
    ∧ (getBits value 1 3 = 7 → getBits value 7 1 = 0 → s.goOk 7 = true →
      exec (.insGoRole owner value) s = .next ((s.storeInsCtl value).goRole.emit (.access owner.val ST_OK 0)))
    ∧ (getBits value 1 3 = 7 → getBits value 7 1 = 1 → s.stageRuns 7 = true → s.ins.timeOpen = false →
      exec (.insGoTime owner value) s = .next ((s.storeInsCtl value).goTime.emit (.access owner.val ST_OK 0)))) ∧
  (∀ (s : State) (build : BitVec 32) (b : Nat) (digest : BitVec 256), s.running = true → s.stageRuns 3 = true →
    s.ins.image = some (b, digest) →
    exec (.stage3Done 0 build) s
      = .next (s.startImage (if s.flag F.INS_CTL_SOURCE then b else build.toNat) digest).stageDone) ∧
  (∀ (s u : State) (t : StartTest), s.running = true → s.stageRuns 4 = true → s.startTest t (!s.ins.warm) = (u, none) →
    ∃ v : State, v = { u with cocoon := { u.cocoon with lastFull := u.cocoon.hours } }
      ∧ exec (.stage4Done t) s
        = .next (((v.setFld F.INS_FAST_LAST_FULL 0 v.cocoon.hours).setFld F.INS_FAST_CLEAN 0 1).stageDone)) ∧
  (∀ s : State, s.running = true → s.stageRuns 5 = true → s.flag F.RST_CAUSE_POOL_HELD = true →
    exec (.stage5Done true none []) s = .next s.poolReady.stageDone) ∧
  (∀ s : State, s.running = true → s.stageRuns 6 = true → s.limit6 ≤ s.since s.ins.stageAt →
    exec .stage6End s = .next s.countPorts.stageDone) ∧
  (∀ s : State, s.running = true → s.stageRuns 7 = true → s.ins.timeOpen = true → s.hasTime = true → s.time.based = true →
    exec .stage7Done s = .next (s.stageDone.beginStage 8 true)) ∧
  (∀ s : State, s.running = true → s.stageRuns 8 = true → s.imagoFail true = none →
    exec (.imagoCheck true) s = .next s.imago) ∧
  (∀ (s : State) (ms : Nat), s.running = true → stageLimit s.insStage = some ms → s.insState = IS_RUNNING →
    usFtu (ms * 1000) ≤ s.since s.ins.stageAt → s.insStage ≠ 7 →
    exec .instarStageTimeout s = .next (({ s with ins := { s.ins with roleOpen := false } }).stageFailed FC_TIMEOUT 0))

/-- Freeze and readout (R387 to R391, R393): each command of this family completes: from the states named here it answers a next
state, with the effect written here. -/
def Obligations.chrysalisCommandsComplete : Prop :=
  (∀ s : State, s.freezable = true → exec .freezePin s = .next (s.chrTrigger 0)) ∧
  (∀ (s : State) (r : FwRef), s.running = true → exec (.chrFreeze r) s = .next (s.chrTrigger 1)) ∧
  (∀ (s : State) (r : FwRef) (flags cmpMask source code severity : Fin 256) (delay : BitVec 32), s.running = true →
    flags.val ≤ 3 → delay.toNat ≤ 16000000 →
    ∃ t : State, exec (.chrArm r flags cmpMask source code severity delay) s = .next (t.finishFw r ACK_OK 0)
      ∧ t.regs = (s.setReg .CHR_ARM 0 (BitVec.ofNat 64 ((delay.toNat + 1023) / 1024 * 2 ^ 40 + cmpMask.val * 2 ^ 32
          + source.val * 2 ^ 24 + code.val * 2 ^ 16 + severity.val * 2 ^ 8 + flags.val))).regs
      ∧ t.chr.delay = delay.toNat) ∧
  (∀ (s : State) (t : Ftu), s.freezable = true → s.chr.trigAt = some t → s.chr.delay ≤ s.since t →
    exec .freezeDelayEnd s = .next s.freezeNow) ∧
  (∀ (s : State) (owner : Owner), s.reaches owner.val = true → s.asleep = false → s.fld F.CHR_STATUS_STATE = CS_FROZEN →
    exec (.chrStart owner) s = .next (s.startDump.emit (.access owner.val ST_OK 0))) ∧
  (∀ (s : State) (half : Fin 2) (sec : DumpSec), s.power.frozen = true → s.fld F.CHR_STATUS_STATE = CS_READOUT →
    s.fld (halfLen half.val) = 0 → s.chr.whole = false →
    exec (.readoutHalfReady half [sec] false) s = .next ((s.addSec sec false).fillHalf half.val)) ∧
  (∀ (s : State) (sec : DumpSec), s.power.frozen = true → s.fld F.CHR_STATUS_STATE = CS_READOUT → s.chr.whole = false →
    sec.kind = 2 →
    exec (.readoutHang sec) s
      = .next (((s.addSec sec true).bump F.CHR_STATUS_HUNG_COUNT).sillage 0x10 0x11 2 [sec.die, sec.unit, sec.index])) ∧
  (∀ (s : State) (owner : Owner) (half : Fin 2), s.reaches owner.val = true → s.asleep = false →
    exec (.chrNext owner half) s = .next ((s.setFld (halfLen half.val) 0 0).emit (.access owner.val ST_OK 0))) ∧
  (∀ (s : State) (owner : Owner), s.reaches owner.val = true → s.asleep = false → s.power.frozen = true →
    exec (.chrRelease owner) s = .next ((s.warmNow 3).emit (.access owner.val ST_OK 0)))

/-- Register writes (R9, R203): each command of this family completes: from the states named here it answers a next state, with the
effect written here. -/
def Obligations.registerWritesComplete : Prop :=
  (∀ (s : State) (owner : Owner) (addr value : Word), s.reaches owner.val = true →
    exec (.registerWrite owner addr value) s
      = .next ((s.busWrite owner.val addr.toNat (leBytes 8 value.toNat)).1.emit
          (.access owner.val (s.busWrite owner.val addr.toNat (leBytes 8 value.toNat)).2 0))) ∧
  (∀ (s : State) (owner : Owner) (slice : Slice), s.accessRuns owner.val →
    exec (.acdSliceClear owner slice) s
      = .next (((s.setFld F.ACD_SLICE_SEL_SLICE 0 slice.val).clearSlice slice.val).emit (.access owner.val ST_OK 0)))
/-- One step takes the command at the front of the queue and runs it on the state with the queue's rest. -/
def Obligations.stepRunsTheFrontCommand : Prop :=
  ∀ (s : State) (c : Instr) (rest : List Instr), step { s with pending := c :: rest } = exec c { s with pending := rest }

/-- The model's choice (log entry 5): on an empty queue one unit of fabric time passes. The counter advances by 1 where the always-on
domain runs and no POR is held, and nothing else moves but the operating hours; elsewhere nothing moves. -/
def Obligations.idleStepCountsOneUnitOfTime : Prop :=
  (∀ s : State, s.pending = [] → s.power.aonOn = true → s.power.porHeld = false → s.canonical →
    ∃ t : State, step s = .next t ∧ t.ftu = s.ftu + 1
      ∧ t = { s with regs := t.regs, cocoon := { s.cocoon with hours := t.cocoon.hours } }
      ∧ (∀ (r : RegName) (i : Nat), r ≠ .FT_COUNT → r ≠ .INS_LIFE → t.reg r i = s.reg r i)
      ∧ ((s.ftu + 1).toNat % hourFtu ≠ 0 → t.cocoon = s.cocoon)) ∧
  (∀ s : State, s.pending = [] → s.power.aonOn = false ∨ s.power.porHeld = true → step s = .next s)

/-- Right after POR with RESET_N low the part does not run, no command waits and nothing has been sent, every register holds its POR
value, no memory is listed, and the state is in canonical form. Among the values that the spec gives: a wingbeat of 8 µs (R26), the
limits of Table 18.4 (R360), HEAD and TAIL 0 (R144). -/
def Obligations.resetIsThePartInPor : Prop :=
  State.reset.running = false ∧ State.reset.power.inReset = true ∧ State.reset.pending = [] ∧ State.reset.out = []
  ∧ State.reset.mem = [] ∧ (∀ (r : RegName) (i : Nat), State.reset.reg r i = r.por i)
  ∧ State.reset.lenFtu = 12800
  ∧ State.reset.fld F.RST_ESC_LIMITS_CTX_RESETS = 8 ∧ State.reset.fld F.RST_ESC_LIMITS_CTX_WINDOW = 10
  ∧ State.reset.fld F.RST_ESC_LIMITS_CHIP_RESETS = 16 ∧ State.reset.fld F.RST_ESC_LIMITS_CHIP_WINDOW = 60
  ∧ State.reset.fld F.RST_ESC_LIMITS_COMPUTE_RESETS = 3 ∧ State.reset.fld F.RST_ESC_LIMITS_COMPUTE_WINDOW = 600
  ∧ (∀ q : Nat, State.reset.head q = 0 ∧ State.reset.tail q = 0) ∧ State.reset.canonical

/-- Above 60 V on VIN the spec gives the part no behaviour (R397), and the running part stops there by name. -/
def Obligations.vinAboveRangeStopsThePart : Prop :=
  ∀ (s : State) (watts vin temp : Fin 65536), s.running = true → 60000 < vin.val →
    exec (.powerMeasure watts vin temp) s = .fault .vinAboveRange

/-- No other command, and no other supply, ever stops the part: every command has a next state in every state. -/
def Obligations.everyOtherCommandGoesOn : Prop :=
  ∀ (c : Instr) (s : State), (∀ watts vin temp : Fin 65536, c = .powerMeasure watts vin temp → s.running = true → vin.val ≤ 60000) →
    ∃ t : State, exec c s = .next t

/-- R360: ESCALATION sets the six limits where each lies within its bounds of Table 18.4. A value outside its bounds returns
ACK_BAD_ARGUMENT, and none of the limits changes. At POR the limits stand at their defaults. -/
def Obligations.escalationSetsAllLimitsOrNone : Prop :=
  (∀ (s : State) (r : FwRef) (a b c d e f : Fin 65536), s.running = true → s.canonical →
    2 ≤ a.val ∧ a.val ≤ 64 → 1 ≤ b.val ∧ b.val ≤ 600 → 4 ≤ c.val ∧ c.val ≤ 256 → 10 ≤ d.val ∧ d.val ≤ 3600 →
    2 ≤ e.val ∧ e.val ≤ 16 → 60 ≤ f.val ∧ f.val ≤ 86400 →
    ∃ t : State, exec (.escalation r a b c d e f) s = .next t ∧ t.fw.last = some ⟨r, ACK_OK, 0, []⟩
      ∧ t.fld F.RST_ESC_LIMITS_CTX_RESETS = a.val ∧ t.fld F.RST_ESC_LIMITS_CTX_WINDOW = b.val
      ∧ t.fld F.RST_ESC_LIMITS_CHIP_RESETS = c.val ∧ t.fld F.RST_ESC_LIMITS_CHIP_WINDOW = d.val
      ∧ t.fld F.RST_ESC_LIMITS_COMPUTE_RESETS = e.val ∧ t.fld F.RST_ESC_LIMITS_COMPUTE_WINDOW = f.val
      ∧ (∀ (x : RegName) (i : Nat), x ≠ .RST_ESC_LIMITS → t.reg x i = s.reg x i)
      ∧ t = { s with regs := t.regs, fw := t.fw, twin := t.twin }) ∧
  (∀ (s : State) (r : FwRef) (a b c d e f : Fin 65536), s.running = true →
    ¬ ((2 ≤ a.val ∧ a.val ≤ 64) ∧ (1 ≤ b.val ∧ b.val ≤ 600) ∧ (4 ≤ c.val ∧ c.val ≤ 256) ∧ (10 ≤ d.val ∧ d.val ≤ 3600)
      ∧ (2 ≤ e.val ∧ e.val ≤ 16) ∧ (60 ≤ f.val ∧ f.val ≤ 86400)) →
    ∃ t : State, exec (.escalation r a b c d e f) s = .next t ∧ t.fw.last = some ⟨r, ACK_BAD_ARGUMENT, 0, []⟩
      ∧ t = { s with fw := t.fw, twin := t.twin }) ∧
  (State.reset.fld F.RST_ESC_LIMITS_CTX_RESETS = 8 ∧ State.reset.fld F.RST_ESC_LIMITS_CTX_WINDOW = 10
  ∧ State.reset.fld F.RST_ESC_LIMITS_CHIP_RESETS = 16 ∧ State.reset.fld F.RST_ESC_LIMITS_CHIP_WINDOW = 60
  ∧ State.reset.fld F.RST_ESC_LIMITS_COMPUTE_RESETS = 3 ∧ State.reset.fld F.RST_ESC_LIMITS_COMPUTE_WINDOW = 600)

/-- SIL_CLEAR by the holder of CTL_SEM discards every record of the ring and of the overflow region, the CLEARED record alone can
follow, and SEQ goes on (R385). Where the accept rate and the severity filter let that record in, it holds the number discarded, and a
cursor written to the position of a discarded record shows GONE. -/
def Obligations.silClearDiscardsEveryRecord : Prop :=
  (∀ (s : State) (r : FwRef) (e : JournalEntry), s.running = true → s.canonical → s.entryOf r = some e → e.owner ≠ 0 → e.owner ≠ 4 →
    s.fld F.CTL_SEM_OWNER = e.owner →
    ∃ t : State, exec (.silClear r) s = .next t ∧ t.sil.overflow = [] ∧ (∀ x ∈ t.sil.ring, x.source = 0x10 ∧ x.code = 0x02)
      ∧ t.sil.ring.length ≤ 1 ∧ t.fld F.SIL_STATUS_NEXT_SEQ = (s.fld F.SIL_STATUS_NEXT_SEQ + 1) % 2 ^ 32
      ∧ t.cocoon.persistent = s.cocoon.persistent
      ∧ t.fw.last = some ⟨r, ACK_OK, s.sil.ring.length + s.sil.overflow.length, []⟩) ∧
  (∀ (s : State) (r : FwRef) (e : JournalEntry), s.running = true → s.canonical → s.entryOf r = some e → e.owner ≠ 0 → e.owner ≠ 4 →
    s.fld F.CTL_SEM_OWNER = e.owner → s.fld F.SIL_CFG_MIN_SEVERITY = 0 → s.sil.rate.2 < 16 →
    ∃ (t : State) (x : SilRec), exec (.silClear r) s = .next t ∧ t.sil.ring = [x]
      ∧ x.params = [s.sil.ring.length + s.sil.overflow.length] ∧ x.seq = s.fld F.SIL_STATUS_NEXT_SEQ
      ∧ ∀ (owner : Owner) (v : Word), t.reaches owner.val = true → getBits v 32 1 = 0 → getBits v 0 32 < x.seq →
        ∃ u : State, exec (.silCursorWrite owner v) t = .next u ∧ u.flag F.SIL_CURSOR_GONE owner.val = true)

/-- R146: a doorbell of each operation is checked in order. A queue that does not exist, a wrong or unbound context, an old epoch or a
sealed slice is counted in DB_NOT_BOUND; an index out of range, a queue that cannot resume, or a reserved OP in DB_BAD_INDEX; each
drops the doorbell and changes nothing else. A SUBMIT or CQ_HEAD of the value already held changes nothing. -/
def Obligations.doorbellChecksAndDuplicates : Prop :=
  (∀ (s : State) (src : DbSource) (q : Queue) (i : BitVec 32), s.running = true →
    (s.fld F.QUE_CFG_STATE q.val = 0 ∨
      match src with
      | .endpoint chip port ctx epoch => chip.val ≠ s.chip ∨ ctx.val ≠ s.fld F.QUE_CFG_CONTEXT q.val
          ∨ s.binding ctx.val port.val = none ∨ epoch.val ≠ s.ctxEpoch ctx.val
      | .controlNode => s.isSealed (s.ctxSlice (s.fld F.QUE_CFG_CONTEXT q.val)) = true) →
    exec (.dbSubmit src q i) s = .next (s.bump F.QUE_DROPS_DB_NOT_BOUND (q.val / 4096))
    ∧ exec (.dbCqHead src q i) s = .next (s.bump F.QUE_DROPS_DB_NOT_BOUND (q.val / 4096))
    ∧ exec (.dbResume src q i) s = .next (s.bump F.QUE_DROPS_DB_NOT_BOUND (q.val / 4096))) ∧
  (∀ (s : State) (src : DbSource) (q : Queue) (i : BitVec 32), s.running = true → s.dbBound src q.val = true →
    ((i - BitVec.ofNat 32 (s.tail q.val)).toInt < 0 ∨ 2 ^ s.ringLog q.val < (i - BitVec.ofNat 32 (s.head q.val)).toInt →
      exec (.dbSubmit src q i) s = .next (s.bump F.QUE_DROPS_DB_BAD_INDEX (q.val / 4096)))
    ∧ ((i - BitVec.ofNat 32 (s.cqHead q.val)).toInt < 0 ∨ (BitVec.ofNat 32 (s.cqTail q.val) - i).toInt < 0 →
      exec (.dbCqHead src q i) s = .next (s.bump F.QUE_DROPS_DB_BAD_INDEX (q.val / 4096)))
    ∧ (s.fld F.QUE_CFG_STATE q.val ≠ 2 ∨ s.ctxState (s.fld F.QUE_CFG_CONTEXT q.val) ≠ 1
        ∨ (i - BitVec.ofNat 32 (s.head q.val)).toInt < 0 ∨ (BitVec.ofNat 32 (s.tail q.val) - i).toInt < 0 →
      exec (.dbResume src q i) s = .next (s.bump F.QUE_DROPS_DB_BAD_INDEX (q.val / 4096)))) ∧
  (∀ (s : State) (src : DbSource) (q : Queue), s.running = true → s.dbBound src q.val = true →
    (BitVec.ofNat 32 (s.tail q.val) - BitVec.ofNat 32 (s.head q.val)).toInt ≤ 2 ^ s.ringLog q.val →
    exec (.dbSubmit src q (BitVec.ofNat 32 (s.tail q.val))) s = .next s) ∧
  (∀ (s : State) (src : DbSource) (q : Queue), s.running = true → s.canonical → s.dbBound src q.val = true →
    0 ≤ (BitVec.ofNat 32 (s.cqTail q.val) - BitVec.ofNat 32 (s.cqHead q.val)).toInt →
    exec (.dbCqHead src q (BitVec.ofNat 32 (s.cqHead q.val))) s = .next s) ∧
  (∀ (s : State) (owner q : Nat) (v : Word), getBits v 46 2 = 3 →
    (s.dbBound .controlNode q = true →
      s.writeReg owner .QUE_DOORBELL q v = (s.bump F.QUE_DROPS_DB_BAD_INDEX (q / 4096), ST_OK, 0))
    ∧ (s.dbBound .controlNode q = false →
      s.writeReg owner .QUE_DOORBELL q v = (s.bump F.QUE_DROPS_DB_NOT_BOUND (q / 4096), ST_OK, 0))) ∧
  (∀ (s : State) (wing u : Nat) (p : Packet), p.truncated = false → e2eCrcOf p = p.e2eCrc → p.kind = 0x04 → getBits p.arg 46 2 = 3 →
    p.ackSoon = false → arrivalOf (s.receivedOf (receivedKey u p)) p.seq = .fresh →
    (s.dbBound (.endpoint p.srcChip (Fin.ofNat 128 p.srcUnit.val) p.ctx p.epoch) (getBits p.arg 32 14) = true →
      s.consume wing u p = (s.setReceived (noteReceived (s.receivedOf (receivedKey u p)) p.seq)).bump F.QUE_DROPS_DB_BAD_INDEX
        (getBits p.arg 32 14 / 4096))
    ∧ (s.dbBound (.endpoint p.srcChip (Fin.ofNat 128 p.srcUnit.val) p.ctx p.epoch) (getBits p.arg 32 14) = false →
      s.consume wing u p = (s.setReceived (noteReceived (s.receivedOf (receivedKey u p)) p.seq)).bump F.QUE_DROPS_DB_NOT_BOUND
        (getBits p.arg 32 14 / 4096)))

/-- A message of the manager that an agent has acted on in the last 4,096 wingbeats is not acted on again (R100): nothing changes, but
that a message with an answer is answered again. A message of an old epoch, or of another chip in the same epoch, is dropped and
counted (R130). The commands named are those that only a manager sends. -/
def Obligations.managerMessagesActOnce : Prop :=
  (∀ (c : Instr) (h : MsgHdr) (s : State), c.managerMsg = some h → s.running = true → s.flag F.MGR_ROLE_ACTIVE = false →
    h.epoch = s.fld F.TWN_AGENT_HIGHEST_EPOCH → h.src.val = s.fld F.TWN_AGENT_MANAGER_CHIP → s.isRepeat h = true →
    ∃ t : State, exec c s = .next t
      ∧ t = { s with out := t.out, agent := { s.agent with nextSeq := t.agent.nextSeq } }
      ∧ (h.bcast = true ∨ c.managerAsks = false → t = s)) ∧
  (∀ (c : Instr) (h : MsgHdr) (s : State), c.managerMsg = some h → s.running = true → s.flag F.MGR_ROLE_ACTIVE = false →
    h.epoch < s.fld F.TWN_AGENT_HIGHEST_EPOCH ∨
      (h.epoch = s.fld F.TWN_AGENT_HIGHEST_EPOCH ∧ h.src.val ≠ s.fld F.TWN_AGENT_MANAGER_CHIP) →
    exec c s = .next (s.bump F.TWN_EVENTS_STALE_DROPS))

/-- An ACTIVE manager that hears a higher epoch, from a manager or from an agent, fences itself (R131): it is FENCED and no longer
ACTIVE, clears ROOT and LOCKED, counts the fence, and acts on the message only as the agent that it then is. -/
def Obligations.higherEpochFencesTheManager : Prop :=
  ∀ (s : State) (h : MsgHdr) (m : Wb), s.running = true → s.canonical → s.flag F.MGR_ROLE_ACTIVE = true →
    s.fld F.TWN_STATUS_EPOCH < h.epoch →
    exec (.wbChangeReceive h (.ack m)) s = .next s.fence
    ∧ s.fence.flag F.MGR_ROLE_ACTIVE = false ∧ s.fence.fld F.TWN_STATUS_STATE = MS_FENCED
    ∧ s.fence.fld F.FT_STATUS_STATE = TS_ACQUIRE ∧ s.fence.twin.fencedAt = some s.wb
    ∧ s.fence.fld F.TWN_EVENTS_FENCES = min (s.fld F.TWN_EVENTS_FENCES + 1) (2 ^ F.TWN_EVENTS_FENCES.width - 1)
    ∧ s.fence.mgr = s.mgr ∧ s.fence.route = s.route ∧ s.fence.mem = s.mem ∧ s.fence.ctxs = s.ctxs

/-- Commands of scope MGR (R330): on a chip without a confirmed manager role each ends with ACK_NOT_MANAGER, on one that is not ACTIVE
with ACK_STATE; neither does anything else. -/
def Obligations.managerCommandsNeedTheActiveManager : Prop :=
  ∀ (c : Instr) (r : FwRef) (s : State), c.managerCommand = some r → s.running = true →
    (s.isManagerChip = false → exec c s = .next (s.finishFw r 0x11 0)) ∧
    (s.isManagerChip = true → s.isActive = false → exec c s = .next (s.finishFw r ACK_STATE 0))

/-- While the clocks of the running part stand (in reset, in SLEEP or DEEP, or in a freeze), an event of the running part finds
nothing to act on (R351, R363, R388; log entry 6). The commands named act through the running part alone. -/
def Obligations.stoppedPartKeepsItsState : Prop :=
  ∀ (c : Instr) (s : State), c.needsClocks = true → s.running = false → exec c s = .next s
/-- R168: integer SUM wraps modulo 2^64 and is saturated once to the output format; MIN and MAX compare as signed, or as unsigned for
UINT64; AND, OR and XOR act on the raw bits. All are associative and commutative, so that neither the order of the inputs nor the
shape of the tree shows in the result. `bound` is the range of the partial values of the operation. -/
def Obligations.integerReductionsDoNotDependOnOrder : Prop :=
  ∀ (op code : Nat), isInt code = true → op ∈ [RO_SUM, RO_MIN, RO_MAX, RO_AND, RO_OR, RO_XOR] →
    ∀ bound : Nat, bound = 2 ^ (if op = RO_SUM then 64 else elemBits code) →
    (∀ a b : Nat, a < bound → b < bound →
      combine op code a b < bound
      ∧ (op = RO_SUM → combine op code a b = (a + b) % 2 ^ 64)
      ∧ (op = RO_MIN → intVal code (combine op code a b) = min (intVal code a) (intVal code b))
      ∧ (op = RO_MAX → intVal code (combine op code a b) = max (intVal code a) (intVal code b))
      ∧ (op = RO_AND → combine op code a b = a &&& b) ∧ (op = RO_OR → combine op code a b = a ||| b)
      ∧ (op = RO_XOR → combine op code a b = a ^^^ b)
      ∧ combine op code a b = combine op code b a
      ∧ ∀ c : Nat, c < bound → combine op code (combine op code a b) c = combine op code a (combine op code b c)) ∧
    (∀ (x y : Nat) (l m : List Nat), (∀ z ∈ x :: l, z < bound) → (x :: l).Perm (y :: m) →
      l.foldl (combine op code) x = m.foldl (combine op code) y) ∧
    (∀ (outF : Nat) (v : Int), isInt outF = true →
      saturate outF v < 2 ^ elemBits outF
      ∧ intVal outF (saturate outF v)
        = if outF = 0x14 then min (max v 0) (2 ^ 64 - 1)
          else min (max v (-(2 ^ (elemBits outF - 1)))) (2 ^ (elemBits outF - 1) - 1))

/-- Floating-point MIN and MAX follow one total order in which −Inf is lowest, −0 lies below +0, and +Inf is highest; any NaN makes
the result the canonical NaN; and the order of the inputs does not matter (R169). -/
def Obligations.floatMinMaxFollowOneOrder : Prop :=
  (∀ (up : Bool) (a b c : Nat), a < 2 ^ 32 → b < 2 ^ 32 → c < 2 ^ 32 →
    (f32Nan a = true ∨ f32Nan b = true → minmaxF32 up a b = canonNan)
    ∧ (f32Nan a = false → f32Nan b = false → (minmaxF32 up a b = a ∨ minmaxF32 up a b = b)
        ∧ f32Key (minmaxF32 up a b) = if up then max (f32Key a) (f32Key b) else min (f32Key a) (f32Key b))
    ∧ minmaxF32 up a b = minmaxF32 up b a
    ∧ minmaxF32 up (minmaxF32 up a b) c = minmaxF32 up a (minmaxF32 up b c)) ∧
  (∀ a b : Nat, a < 2 ^ 32 → b < 2 ^ 32 → f32Key a = f32Key b → a = b) ∧
  (∀ a : Nat, a < 2 ^ 32 → f32Nan a = false → f32Key 0xFF800000 ≤ f32Key a ∧ f32Key a ≤ f32Key 0x7F800000
    ∧ (a < 0x7F800000 → f32Key 0 ≤ f32Key a) ∧ (0x80000000 ≤ a → f32Key a ≤ f32Key 0x80000000)) ∧
  f32Key 0x80000000 < f32Key 0

/-- ARGMIN and ARGMAX take the better value, and of equal values the pair with the smaller index; a NaN wins over every number, and
among NaNs the smaller index; the index is carried unchanged, and the order of the inputs does not matter (R170). The pairs are
contributions as a node holds them: a NaN value is the canonical one. -/
def Obligations.argReductionsPreferTheSmallerIndex : Prop :=
  ∀ (code : Nat) (up : Bool) (a b c : Nat), code = 0x20 ∨ code = 0x21 → a < 2 ^ 64 → b < 2 ^ 64 → c < 2 ^ 64 →
    (∀ x ∈ [a, b, c], code = 0x20 → f32Nan (x % 2 ^ 32) = true → x % 2 ^ 32 = canonNan) →
    (argBest code up a b = a ∨ argBest code up a b = b)
    ∧ (a % 2 ^ 32 = b % 2 ^ 32 → argBest code up a b / 2 ^ 32 = min (a / 2 ^ 32) (b / 2 ^ 32))
    ∧ (code = 0x20 → f32Nan (a % 2 ^ 32) = true → f32Nan (b % 2 ^ 32) = false → argBest code up a b = a)
    ∧ (code = 0x20 → f32Nan (a % 2 ^ 32) = false → f32Nan (b % 2 ^ 32) = false → f32Key (a % 2 ^ 32) < f32Key (b % 2 ^ 32) →
        argBest code up a b = if up then b else a)
    ∧ (code = 0x21 → toSigned 32 (a % 2 ^ 32) < toSigned 32 (b % 2 ^ 32) → argBest code up a b = if up then b else a)
    ∧ argBest code up a b = argBest code up b a
    ∧ argBest code up (argBest code up a b) c = argBest code up a (argBest code up b c)

/-- The decoding of an FP32 value is exact (R167): rounding the decoded number back to FP32 gives the same 32 bits, for subnormals,
zeros and infinities of both signs too; and every NaN gives the canonical one (R173). -/
def Obligations.fp32DecodingIsExact : Prop :=
  ∀ w : Nat, w < 2 ^ 32 → toF32 (ofF32 w) = if f32Nan w then canonNan else w

/-- Element codes of every format of Table 8.2 lie in the stream as R166 packs them: packing and unpacking agree, for the formats of 4
and 6 bits too, wherever the elements fill whole bytes. -/
def Obligations.elementPackingRoundTrips : Prop :=
  ∀ (code : Nat) (xs : List Nat), fmtKnown code = true → (xs.length * elemBits code) % 8 = 0 → (∀ x ∈ xs, x < 2 ^ elemBits code) →
    elems code xs.length (packElems code xs) = xs ∧ (packElems code xs).length = xs.length * elemBits code / 8

/-- A fixed-accord contribution that the final code covers is a signed integer of at most 2^46 in magnitude, and lies within half a
quantum 2^(e − 45) of the member's value (R177); a block with an element that the code does not cover is sent as the marker in every
element (R179). The value of an FP32 number in units of 2^−149 is `m * 2 ^ (e + 149)`. -/
def Obligations.fixedContributionsAreWithinHalfAQuantum : Prop :=
  (∀ (w code : Nat) (neg : Bool) (m : Nat) (e : Int), w < 2 ^ 32 → 1 ≤ code → code ≤ 254 → uncoveredBy code w = false →
    ofF32 w = .num neg m e →
    (toSigned 64 (toFixed w code)).natAbs ≤ 2 ^ 46 ∧ toFixed w code < 2 ^ 64
    ∧ 2 * (((if neg then -1 else 1) * (m * 2 ^ (e + 149).toNat : Int)) * 2 ^ 45 - toSigned 64 (toFixed w code) * 2 ^ (code + 22)).natAbs
        ≤ 2 ^ (code + 22)) ∧
  (∀ (code : Nat) (xs : List Nat), (∃ x ∈ xs, uncoveredBy code x = true) →
    fixBlock code xs = (List.replicate xs.length marker, true))

/-- Fixed-accord sums do not depend on the order of the inputs or on the shape of the tree (R177, R179): for up to 65,536
contributions of at most 2^46 in magnitude, or marked, every order of adding gives the same partial sum, and a marked block stays
marked. -/
def Obligations.fixedAccordSumsDoNotDependOnOrder : Prop :=
  ∀ n : Nat, ∀ ok : List Nat → Prop,
    (∀ b : List Nat, ok b ↔ b.length = n ∧ ∀ v ∈ b, v < 2 ^ 64 ∧ (v = marker ∨ (toSigned 64 v).natAbs ≤ 2 ^ 46)) →
    (∀ (x y : List Nat) (l m : List (List Nat)), (∀ b ∈ x :: l, ok b) → l.length < 65536 → (x :: l).Perm (y :: m) →
      l.foldl fixAdd x = m.foldl fixAdd y) ∧
    (∀ (x y : List Nat) (l m : List (List Nat)), (∀ b ∈ x :: l ++ y :: m, ok b) → l.length + m.length + 2 ≤ 65536 →
      fixAdd (l.foldl fixAdd x) (m.foldl fixAdd y) = (l ++ y :: m).foldl fixAdd x)

/-- R180: the residue of a chunk of integers is the sum, modulo 2^61 − 1, of each integer taken as a value in [0, p) times 2^(i mod
61); and it is linear: the residue of a sum of chunks is the sum of their residues. -/
def Obligations.residueIsLinear : Prop :=
  (∀ q : List Nat, marker ∉ q →
    residueOf q = (((List.range q.length).map fun i => ((toSigned 64 (q.getD i 0)) % (resP : Int)).toNat * 2 ^ (i % 61)).sum) % resP) ∧
  (∀ a b : List Nat, a.length = b.length →
    (∀ v ∈ a ++ b, v < 2 ^ 64 ∧ (toSigned 64 v).natAbs ≤ 2 ^ 61) →
    residueOf (List.zipWith (fun x y => (x + y) % 2 ^ 64) a b) = (residueOf a + residueOf b) % resP)
/-- The frame of every command: where `exec` answers a next state, each part of the state that `Instr.parts` does not name for the
command, each register that `Instr.regs` does not name for it (at every index), and the queue of waiting commands are what they were.
Log entries and streams that many commands share (`out`, `fw`, `twin`, `sil`, `chr`) are named for each command that reaches them. -/
def Obligations.everyCommandKeepsTheRest : Prop :=
  ∀ (c : Instr) (s t : State), exec c s = .next t →
    (∀ p : Part, p ∉ c.parts → p.same s t)
    ∧ (∀ r : RegName, r ∉ c.regs → ∀ i : Nat, t.reg r i = s.reg r i)
    ∧ t.pending = s.pending

/-- Every step keeps the canonical form: from any state whose register file, ports, endpoints, contexts, Antenna ports and memory list
rising keys and nothing that reads as unlisted, the next state has that form, so that equal contents stay equal data. -/
def Obligations.everyStepKeepsCanonicalForm : Prop :=
  ∀ s t : State, s.canonical → step s = .next t → t.canonical

/-- R389: a freeze ends only by a reset, or by a trip. Whatever command takes a frozen part out of its freeze leaves it in reset or,
by a trip, in DEEP; the dump and Thorax SRAM are lost with it. CHR_CTL RELEASE and WARM_N start a WARM reset, RESET_N a POR, and the
trip enters DEEP. A freeze does not clear CLEAN (R349). -/
def Obligations.aFreezeEndsOnlyByResetOrTrip : Prop :=
  (∀ (c : Instr) (s t : State), s.canonical → s.power.frozen = true → exec c s = .next t → t.power.frozen = false →
    (t.power.inReset = true ∨ (t.power.tripped = true ∧ t.fld F.PWR_STATUS_STATE = 3))
    ∧ t.chr = ChrSt.init ∧ ∀ a : Nat, sramBase ≤ a → t.byteAt a = 0) ∧
  (∀ (owner : Owner) (s : State), s.power.frozen = true → s.reaches owner.val = true → s.asleep = false →
    ∃ t : State, exec (.chrRelease owner) s = .next t ∧ t.power.frozen = false ∧ t.power.inReset = true ∧ t.power.porHeld = false) ∧
  (∀ s : State, s.power.frozen = true → s.power.aonOn = true → s.power.porHeld = false →
    ∃ t : State, exec .warmAssert s = .next t ∧ t.power.frozen = false ∧ t.power.inReset = true ∧ t.power.porHeld = false) ∧
  (∀ s : State, s.power.frozen = true → s.power.aonOn = true → s.power.porHeld = false →
    ∃ t : State, exec (.porAssert false) s = .next t ∧ t.power.frozen = false ∧ t.power.inReset = true ∧ t.power.porHeld = true) ∧
  (∀ s t : State, s.power.frozen = true → exec .hardwareTrip s = .next t → t ≠ s →
    t.power.frozen = false ∧ t.power.tripped = true) ∧
  (∀ (c : Instr) (s t : State), s.power.frozen = false → exec c s = .next t → t.power.frozen = true →
    t.fld F.INS_FAST_CLEAN = s.fld F.INS_FAST_CLEAN)

/-- A WRITE that reaches a Nectar controller changes the bytes it names and no other: applied, the granules stand at the physical
address that the page of the target context gives (R250, R256), and every other byte of memory reads as before; refused (R252, R256,
R258), repeated (R87) or of another kind, no byte changes. -/
def Obligations.poolWritesLandInTheirBytesOnly : Prop :=
  ∀ (wing : Wing) (p : Packet) (s t : State), exec (.poolWriteRequest wing p) s = .next t →
    (∀ a : Nat, (∀ b : Nat, s.judgeWrite p = .ok b → a < b ∨ b + p.payFlits.val * 64 ≤ a) → t.byteAt a = s.byteAt a)
    ∧ (∀ b : Nat, s.canonical → s.running = true → p.kind.val = 0x01 → s.isRefused (0x89 + wing.val) p = false →
        arrivalOf (s.receivedOf (receivedKey (0x89 + wing.val) p)) p.seq = .fresh → s.judgeWrite p = .ok b →
        ∀ i x : Nat, i < p.payFlits.val * 64 → p.payload[i]? = some x → t.byteAt (b + i) = x)
    ∧ (∀ st : Nat, s.judgeWrite p = .error st → t.mem = s.mem)
    ∧ (s.isRefused (0x89 + wing.val) p = true ∨ p.kind.val ≠ 0x01
        ∨ arrivalOf (s.receivedOf (receivedKey (0x89 + wing.val) p)) p.seq ≠ .fresh → t.mem = s.mem)

/-- What the part writes for a context lands in pages that the context maps, and nowhere else: a byte of memory that no byte of the
written range maps to reads as before; and where every byte of the range is mapped, to addresses of its own, the range then reads as
written (R251, R254). -/
def Obligations.contextWritesStayInMappedPages : Prop :=
  ∀ (s : State) (c off : Nat) (bs : List Byte),
    (∀ a : Nat, (∀ i : Nat, i < bs.length → s.phys c (off + i) ≠ some a) → (s.ctxWrite c off bs).byteAt a = s.byteAt a)
    ∧ (∀ i : Nat, (s.ctxWrite c off bs).phys c (off + i) = s.phys c (off + i))
    ∧ (s.canonical →
        (∀ i j : Nat, i < bs.length → j < bs.length → s.phys c (off + i) = s.phys c (off + j) → i = j) →
        (∀ i : Nat, i < bs.length → (s.phys c (off + i)).isSome = true) →
        (s.ctxWrite c off bs).ctxRead c off bs.length = bs)
end

