-- ==== Sys2Proof/Laws/Store.lean ====
section
/-! SUPPORT. Sys2Proof/Laws/Store.lean: a store reads back what was written, and every operation keeps its canonical form. -/

namespace Sys2Proof.Machine

theorem Store.get_of_above {α : Type} (d : Nat → α) (st : Store α) (k : Nat) (h : Store.above k st = true) :
    Store.get d st k = d k := by
  induction st with
  | nil => rfl
  | cons p t ih =>
    obtain ⟨j, v⟩ := p
    simp only [Store.above, List.all_cons, Bool.and_eq_true, decide_eq_true_eq] at h
    have hne : j ≠ k := by omega
    simp only [Store.get, if_neg hne]
    exact ih (by simpa [Store.above] using h.2)

theorem Store.above_mono {α : Type} {j k : Nat} {st : Store α} (hjk : j ≤ k) (h : Store.above k st = true) :
    Store.above j st = true := by
  simp only [Store.above, List.all_eq_true, decide_eq_true_eq] at *
  intro p hp
  have := h p hp
  omega

theorem Store.above_cons {α : Type} (k j : Nat) (v : α) (t : Store α) :
    Store.above k ((j, v) :: t) = (decide (k < j) && Store.above k t) := rfl

theorem Store.above_set {α : Type} [DecidableEq α] (d : Nat → α) (st : Store α) (j k : Nat) (v : α) (hj : j < k)
    (h : Store.above j st = true) : Store.above j (Store.set d st k v) = true := by
  induction st with
  | nil =>
    by_cases hv : v = d k
    · simp [Store.set, hv, Store.above]
    · simp [Store.set, hv, Store.above, hj]
  | cons p t ih =>
    obtain ⟨i, w⟩ := p
    simp only [Store.above_cons, Bool.and_eq_true, decide_eq_true_eq] at h
    unfold Store.set
    split
    · split <;> simp [Store.above_cons, h, hj]
    · split
      · split <;> simp [Store.above_cons, h, hj]
      · simp [Store.above_cons, h, ih h.2]

/-- Writing keeps the canonical form. -/
theorem Store.wf_set {α : Type} [DecidableEq α] (d : Nat → α) (st : Store α) (k : Nat) (v : α)
    (h : Store.wf d st = true) : Store.wf d (Store.set d st k v) = true := by
  induction st with
  | nil =>
    by_cases hv : v = d k
    · simp [Store.set, hv, Store.wf]
    · simp [Store.set, hv, Store.wf, Store.above]
  | cons p t ih =>
    obtain ⟨j, w⟩ := p
    simp only [Store.wf, Bool.and_eq_true, decide_eq_true_eq] at h
    obtain ⟨⟨ha, hne⟩, ht⟩ := h
    unfold Store.set
    split
    · rename_i hkj
      have hk : Store.above k t = true := Store.above_mono (Nat.le_of_lt hkj) ha
      split
      · simp [Store.wf, ha, hne, ht]
      · rename_i hv
        have hk' : Store.above k ((j, w) :: t) = true := by
          simp only [Store.above, List.all_cons, Bool.and_eq_true, decide_eq_true_eq]
          exact ⟨hkj, by simpa [Store.above] using hk⟩
        simp [Store.wf, hk', hv, ha, hne, ht]
    · split
      · rename_i hkj
        split
        · exact ht
        · rename_i hv
          simp [Store.wf, hkj, ha, hkj ▸ hv, ht]
      · rename_i h1 h2
        have := Store.above_set d t j k v (by omega) ha
        simp [Store.wf, this, hne, ih ht]

/-- A write reads back. -/
theorem Store.get_set_same {α : Type} [DecidableEq α] (d : Nat → α) (st : Store α) (k : Nat) (v : α)
    (h : Store.wf d st = true) : Store.get d (Store.set d st k v) k = v := by
  induction st with
  | nil => by_cases hv : v = d k <;> simp [Store.set, Store.get, hv]
  | cons p t ih =>
    obtain ⟨j, w⟩ := p
    simp only [Store.wf, Bool.and_eq_true, decide_eq_true_eq] at h
    obtain ⟨⟨ha, hne⟩, ht⟩ := h
    unfold Store.set
    split
    · rename_i hkj
      have hjk : j ≠ k := by omega
      split
      · rename_i hv
        simp only [Store.get, if_neg hjk]
        rw [Store.get_of_above d t k (Store.above_mono (Nat.le_of_lt hkj) ha), hv]
      · simp [Store.get]
    · split
      · rename_i hkj
        split
        · rename_i hv
          rw [hkj, Store.get_of_above d t j ha, ← hkj, hv]
        · simp [Store.get]
      · rename_i h1 h2
        simp [Store.get, Ne.symm h2, ih ht]

/-- A write leaves every other key alone; this needs no canonical form. -/
theorem Store.get_set_other {α : Type} [DecidableEq α] (d : Nat → α) (st : Store α) (k i : Nat) (v : α) (hik : i ≠ k) :
    Store.get d (Store.set d st k v) i = Store.get d st i := by
  induction st with
  | nil => by_cases hv : v = d k <;> simp [Store.set, Store.get, hv, Ne.symm hik]
  | cons p t ih =>
    obtain ⟨j, w⟩ := p
    unfold Store.set
    split
    · split
      · rfl
      · simp [Store.get, Ne.symm hik]
    · split
      · rename_i hkj
        subst hkj
        split <;> simp [Store.get, Ne.symm hik]
      · simp only [Store.get, ih]

theorem Store.above_dropIf {α : Type} (p : Nat → Bool) (st : Store α) (k : Nat) (h : Store.above k st = true) :
    Store.above k (Store.dropIf p st) = true := by
  simp only [Store.above, Store.dropIf, List.all_eq_true, List.mem_filter, decide_eq_true_eq] at *
  intro q hq
  exact h q hq.1

/-- Dropping keys keeps the canonical form. -/
theorem Store.wf_dropIf {α : Type} [DecidableEq α] (d : Nat → α) (p : Nat → Bool) (st : Store α)
    (h : Store.wf d st = true) : Store.wf d (Store.dropIf p st) = true := by
  induction st with
  | nil => rfl
  | cons q t ih =>
    obtain ⟨j, w⟩ := q
    simp only [Store.wf, Bool.and_eq_true, decide_eq_true_eq] at h
    obtain ⟨⟨ha, hne⟩, ht⟩ := h
    by_cases hp : p j = true
    · simpa [Store.dropIf, hp] using ih ht
    · have := Store.above_dropIf p t j ha
      simp only [Store.dropIf] at this ih ⊢
      simp only [List.filter, hp, Bool.not_false, Store.wf, Bool.and_eq_true, decide_eq_true_eq]
      exact ⟨⟨this, hne⟩, ih ht⟩

/-- A dropped key reads as unlisted; every other key reads as before. -/
theorem Store.get_dropIf {α : Type} (d : Nat → α) (p : Nat → Bool) (st : Store α) (k : Nat) :
    Store.get d (Store.dropIf p st) k = if p k then d k else Store.get d st k := by
  induction st with
  | nil => simp [Store.dropIf, Store.get]
  | cons q t ih =>
    obtain ⟨j, w⟩ := q
    simp only [Store.dropIf] at ih ⊢
    by_cases hjk : j = k
    · subst hjk
      by_cases hp : p j = true <;> simp_all [Store.get]
    · by_cases hp : p j = true <;> simp_all [Store.get]

/-- Two canonical stores that read alike everywhere are equal. -/
theorem Store.eq_of_get {α : Type} [DecidableEq α] (d : Nat → α) (a b : Store α) (ha : Store.wf d a = true)
    (hb : Store.wf d b = true) (h : ∀ k, Store.get d a k = Store.get d b k) : a = b := by
  induction a generalizing b with
  | nil =>
    cases b with
    | nil => rfl
    | cons q t =>
      obtain ⟨j, w⟩ := q
      have := h j
      simp_all [Store.wf, Store.get]
  | cons p s ih =>
    obtain ⟨i, v⟩ := p
    simp only [Store.wf, Bool.and_eq_true, decide_eq_true_eq] at ha
    obtain ⟨⟨hai, hav⟩, has⟩ := ha
    cases b with
    | nil =>
      have := h i
      simp_all [Store.get]
    | cons q t =>
      obtain ⟨j, w⟩ := q
      simp only [Store.wf, Bool.and_eq_true, decide_eq_true_eq] at hb
      obtain ⟨⟨hbj, hbw⟩, hbt⟩ := hb
      have hij : i = j := by
        rcases Nat.lt_trichotomy i j with hlt | heq | hgt
        · have hi := h i
          rw [show Store.get d ((i, v) :: s) i = v by simp [Store.get]] at hi
          have hne : j ≠ i := by omega
          simp only [Store.get, if_neg hne] at hi
          rw [Store.get_of_above d t i (Store.above_mono (Nat.le_of_lt hlt) hbj)] at hi
          exact absurd hi hav
        · exact heq
        · have hj := h j
          rw [show Store.get d ((j, w) :: t) j = w by simp [Store.get]] at hj
          have hne : i ≠ j := by omega
          simp only [Store.get, if_neg hne] at hj
          rw [Store.get_of_above d s j (Store.above_mono (Nat.le_of_lt hgt) hai)] at hj
          exact absurd hj.symm hbw
      subst hij
      have hvw : v = w := by simpa [Store.get] using h i
      subst hvw
      congr 1
      refine ih t has hbt fun k => ?_
      by_cases hk : k = i
      · subst hk
        rw [Store.get_of_above d s k hai, Store.get_of_above d t k hbj]
      · have hk' := h k
        simpa [Store.get, Ne.symm hk] using hk'

end Sys2Proof.Machine
end

