-- ==== Sys2Proof/Laws/Fields.lean ====
section
/-! SUPPORT. Sys2Proof/Laws/Fields.lean: the register file and its fields: a field reads back what was written, and nothing else
changes. -/

namespace Sys2Proof.Machine

theorem testBit_fieldMask (lo len i : Nat) (hi : i < 64) :
    (fieldMask lo len).getLsbD i = (decide (lo ≤ i) && decide (i < lo + len)) := by
  simp only [fieldMask, BitVec.getLsbD_shiftLeft, BitVec.getLsbD_ofNat, hi, decide_true, Bool.true_and]
  by_cases h : i < lo
  · simp [h, Nat.not_le.mpr h]
  · have h' : lo ≤ i := Nat.le_of_not_lt h
    simp only [h, decide_false, Bool.not_false, Bool.true_and, h', decide_true, Nat.testBit_two_pow_sub_one]
    have : i - lo < 64 := by omega
    simp only [this, decide_true, Bool.true_and]
    congr 1
    apply propext
    omega

/-- Bit `i` of a word with a field replaced. -/
theorem getLsbD_putBits (w : Word) (lo len v i : Nat) (hi : i < 64) :
    (putBits w lo len v).getLsbD i =
      if lo ≤ i ∧ i < lo + len then v.testBit (i - lo) else w.getLsbD i := by
  simp only [putBits, BitVec.getLsbD_or, BitVec.getLsbD_and, BitVec.getLsbD_not, hi, decide_true, Bool.true_and,
    testBit_fieldMask lo len i hi, BitVec.getLsbD_shiftLeft, BitVec.getLsbD_ofNat]
  by_cases h1 : lo ≤ i
  · have h3 : i - lo < 64 := by omega
    by_cases h2 : i < lo + len
    · have h4 : i - lo < len := by omega
      simp [h1, h2, h3, Nat.not_lt.mpr h1, Nat.testBit_mod_two_pow, h4]
    · have h4 : ¬ i - lo < len := by omega
      simp [h1, h2, h3, Nat.not_lt.mpr h1, Nat.testBit_mod_two_pow, h4]
  · simp [h1, Nat.lt_of_not_le h1]

/-- Bit `j` of a field's value. -/
theorem testBit_getBits (w : Word) (lo len j : Nat) :
    (getBits w lo len).testBit j = (decide (j < len) && w.getLsbD (lo + j)) := by
  simp [getBits, Nat.testBit_mod_two_pow, BitVec.getLsbD]

/-- A field reads back the low bits written to it. -/
theorem getBits_putBits_same (w : Word) (lo len v : Nat) (h : lo + len ≤ 64) :
    getBits (putBits w lo len v) lo len = v % 2 ^ len := by
  apply Nat.eq_of_testBit_eq
  intro j
  rw [testBit_getBits, Nat.testBit_mod_two_pow]
  by_cases hj : j < len
  · rw [getLsbD_putBits _ _ _ _ _ (by omega)]
    simp [hj]
  · simp [hj]

/-- A field apart from the one written keeps its value. -/
theorem getBits_putBits_apart (w : Word) (lo len lo' len' v : Nat) (h : lo' + len' ≤ 64)
    (hd : lo + len ≤ lo' ∨ lo' + len' ≤ lo) : getBits (putBits w lo len v) lo' len' = getBits w lo' len' := by
  apply Nat.eq_of_testBit_eq
  intro j
  rw [testBit_getBits, testBit_getBits]
  by_cases hj : j < len'
  · rw [getLsbD_putBits _ _ _ _ _ (by omega), if_neg (by omega)]
  · simp [hj]

theorem RegName.code_lt (r : RegName) : r.code < 256 := by cases r <;> decide

theorem RegName.code_inj {a b : RegName} (h : a.code = b.code) : a = b := by
  have ha : RegName.ofNat a.code = a := by cases a <;> rfl
  have hb : RegName.ofNat b.code = b := by cases b <;> rfl
  rw [← ha, ← hb, h]

theorem RegName.ofNat_code (r : RegName) : RegName.ofNat r.code = r := by cases r <;> rfl

/-- Every register and index has its own key. -/
theorem regKey_inj {a b : RegName} {i j : Nat} : regKey a i = regKey b j ↔ a = b ∧ i = j := by
  constructor
  · intro h
    have ha := a.code_lt
    have hb := b.code_lt
    unfold regKey at h
    refine ⟨RegName.code_inj (by omega), by omega⟩
  · rintro ⟨rfl, rfl⟩
    rfl

/-- A register reads back what was written to it. -/
theorem reg_setReg_same (s : State) (r : RegName) (i : Nat) (v : Word) (h : Store.wf regDefault s.regs = true) :
    (s.setReg r i v).reg r i = v := Store.get_set_same _ _ _ _ h

/-- A write leaves every other register alone. -/
theorem reg_setReg_other (s : State) (r q : RegName) (i j : Nat) (v : Word) (h : q ≠ r ∨ j ≠ i) :
    (s.setReg r i v).reg q j = s.reg q j := by
  refine Store.get_set_other _ _ _ _ _ ?_
  rw [Ne, regKey_inj]
  rcases h with h | h <;> simp [h]

/-- A field reads back the low bits written to it. -/
theorem fld_setFld_same (s : State) (f : Fld) (i v : Nat) (h : Store.wf regDefault s.regs = true)
    (hf : f.lo + f.width ≤ 64) : (s.setFld f i v).fld f i = v % 2 ^ f.width := by
  unfold State.fld State.setFld
  rw [reg_setReg_same _ _ _ _ h, getBits_putBits_same _ _ _ _ hf]

/-- A write to a field of another register, or at another index, leaves the field alone. -/
theorem fld_setFld_other (s : State) (f g : Fld) (i j v : Nat) (h : g.reg ≠ f.reg ∨ j ≠ i) :
    (s.setFld f i v).fld g j = s.fld g j := by
  unfold State.fld State.setFld
  rw [reg_setReg_other _ _ _ _ _ _ h]

/-- A write to a field leaves the fields apart from it alone. -/
theorem fld_setFld_apart (s : State) (f g : Fld) (i j v : Nat) (h : Store.wf regDefault s.regs = true)
    (hg : g.lo + g.width ≤ 64) (hd : f.lo + f.width ≤ g.lo ∨ g.lo + g.width ≤ f.lo) :
    (s.setFld f i v).fld g j = s.fld g j := by
  by_cases hr : g.reg = f.reg ∧ j = i
  · obtain ⟨hr, rfl⟩ := hr
    unfold State.fld State.setFld
    rw [hr, reg_setReg_same _ _ _ _ h, getBits_putBits_apart _ _ _ _ _ _ hg hd]
  · exact fld_setFld_other s f g i j v (by by_cases h1 : g.reg = f.reg <;> simp_all)

/-- Writing a field leaves every other register alone. -/
theorem reg_setFld_other (s : State) (f : Fld) (q : RegName) (i j v : Nat) (h : q ≠ f.reg ∨ j ≠ i) :
    (s.setFld f i v).reg q j = s.reg q j := reg_setReg_other _ _ _ _ _ _ h

/-- A register back to POR reads its POR value; every other reads as before. -/
theorem reg_resetRegs (s : State) (p : RegName → Nat → Bool) (r : RegName) (i : Nat) :
    (s.resetRegs p).reg r i = if p r i then r.por i else s.reg r i := by
  have h1 : regKey r i % 256 = r.code := by have := r.code_lt; unfold regKey; omega
  have h2 : regKey r i / 256 = i := by have := r.code_lt; unfold regKey; omega
  unfold State.reg State.resetRegs
  rw [Store.get_dropIf, h1, h2, RegName.ofNat_code]
  simp only [regDefault, h1, h2, RegName.ofNat_code]

theorem wf_setReg {s : State} (r : RegName) (i : Nat) (v : Word) (h : Store.wf regDefault s.regs = true) :
    Store.wf regDefault (s.setReg r i v).regs = true := Store.wf_set _ _ _ _ h

theorem wf_setFld {s : State} (f : Fld) (i v : Nat) (h : Store.wf regDefault s.regs = true) :
    Store.wf regDefault (s.setFld f i v).regs = true := wf_setReg _ _ _ h

theorem wf_bump {s : State} (f : Fld) (i n : Nat) (h : Store.wf regDefault s.regs = true) :
    Store.wf regDefault (s.bump f i n).regs = true := wf_setFld _ _ _ h

theorem wf_resetRegs {s : State} (p : RegName → Nat → Bool) (h : Store.wf regDefault s.regs = true) :
    Store.wf regDefault (s.resetRegs p).regs = true := by
  exact Store.wf_dropIf regDefault (fun k => p (RegName.ofNat (k % 256)) (k / 256)) s.regs h

end Sys2Proof.Machine
end

