-- ==== Sys2Proof/Laws/State.lean ====
section
/-! SUPPORT. Sys2Proof/Laws/State.lean: what each elementary update of the state changes and what it leaves alone, one lemma per
field, so that no proof unfolds a record update. -/

namespace Sys2Proof.Machine

/-! ### `State.setReg` -/

@[simp] theorem State.setReg_regs (s : State) (r : RegName) (i : Nat) (v : Word) : (s.setReg r i v).regs = Store.set regDefault s.regs (regKey r i) v := rfl
@[simp] theorem State.setReg_time (s : State) (r : RegName) (i : Nat) (v : Word) : (s.setReg r i v).time = s.time := rfl
@[simp] theorem State.setReg_ports (s : State) (r : RegName) (i : Nat) (v : Word) : (s.setReg r i v).ports = s.ports := rfl
@[simp] theorem State.setReg_eps (s : State) (r : RegName) (i : Nat) (v : Word) : (s.setReg r i v).eps = s.eps := rfl
@[simp] theorem State.setReg_ctxs (s : State) (r : RegName) (i : Nat) (v : Word) : (s.setReg r i v).ctxs = s.ctxs := rfl
@[simp] theorem State.setReg_net (s : State) (r : RegName) (i : Nat) (v : Word) : (s.setReg r i v).net = s.net := rfl
@[simp] theorem State.setReg_que (s : State) (r : RegName) (i : Nat) (v : Word) : (s.setReg r i v).que = s.que := rfl
@[simp] theorem State.setReg_pool (s : State) (r : RegName) (i : Nat) (v : Word) : (s.setReg r i v).pool = s.pool := rfl
@[simp] theorem State.setReg_dma (s : State) (r : RegName) (i : Nat) (v : Word) : (s.setReg r i v).dma = s.dma := rfl
@[simp] theorem State.setReg_coll (s : State) (r : RegName) (i : Nat) (v : Word) : (s.setReg r i v).coll = s.coll := rfl
@[simp] theorem State.setReg_hawk (s : State) (r : RegName) (i : Nat) (v : Word) : (s.setReg r i v).hawk = s.hawk := rfl
@[simp] theorem State.setReg_sec (s : State) (r : RegName) (i : Nat) (v : Word) : (s.setReg r i v).sec = s.sec := rfl
@[simp] theorem State.setReg_mem (s : State) (r : RegName) (i : Nat) (v : Word) : (s.setReg r i v).mem = s.mem := rfl
@[simp] theorem State.setReg_route (s : State) (r : RegName) (i : Nat) (v : Word) : (s.setReg r i v).route = s.route := rfl
@[simp] theorem State.setReg_agent (s : State) (r : RegName) (i : Nat) (v : Word) : (s.setReg r i v).agent = s.agent := rfl
@[simp] theorem State.setReg_map (s : State) (r : RegName) (i : Nat) (v : Word) : (s.setReg r i v).map = s.map := rfl
@[simp] theorem State.setReg_mgr (s : State) (r : RegName) (i : Nat) (v : Word) : (s.setReg r i v).mgr = s.mgr := rfl
@[simp] theorem State.setReg_twin (s : State) (r : RegName) (i : Nat) (v : Word) : (s.setReg r i v).twin = s.twin := rfl
@[simp] theorem State.setReg_fw (s : State) (r : RegName) (i : Nat) (v : Word) : (s.setReg r i v).fw = s.fw := rfl
@[simp] theorem State.setReg_sil (s : State) (r : RegName) (i : Nat) (v : Word) : (s.setReg r i v).sil = s.sil := rfl
@[simp] theorem State.setReg_ants (s : State) (r : RegName) (i : Nat) (v : Word) : (s.setReg r i v).ants = s.ants := rfl
@[simp] theorem State.setReg_ins (s : State) (r : RegName) (i : Nat) (v : Word) : (s.setReg r i v).ins = s.ins := rfl
@[simp] theorem State.setReg_power (s : State) (r : RegName) (i : Nat) (v : Word) : (s.setReg r i v).power = s.power := rfl
@[simp] theorem State.setReg_spares (s : State) (r : RegName) (i : Nat) (v : Word) : (s.setReg r i v).spares = s.spares := rfl
@[simp] theorem State.setReg_cocoon (s : State) (r : RegName) (i : Nat) (v : Word) : (s.setReg r i v).cocoon = s.cocoon := rfl
@[simp] theorem State.setReg_pins (s : State) (r : RegName) (i : Nat) (v : Word) : (s.setReg r i v).pins = s.pins := rfl
@[simp] theorem State.setReg_chr (s : State) (r : RegName) (i : Nat) (v : Word) : (s.setReg r i v).chr = s.chr := rfl
@[simp] theorem State.setReg_out (s : State) (r : RegName) (i : Nat) (v : Word) : (s.setReg r i v).out = s.out := rfl
@[simp] theorem State.setReg_free (s : State) (r : RegName) (i : Nat) (v : Word) : (s.setReg r i v).free = s.free := rfl
@[simp] theorem State.setReg_pending (s : State) (r : RegName) (i : Nat) (v : Word) : (s.setReg r i v).pending = s.pending := rfl
@[simp] theorem State.setReg_agents (s : State) (r : RegName) (i : Nat) (v : Word) : (s.setReg r i v).agents = s.agents := rfl
@[simp] theorem State.setReg_port (s : State) (r : RegName) (i : Nat) (v : Word) (k : Nat) : (s.setReg r i v).port k = s.port k := rfl
@[simp] theorem State.setReg_ep (s : State) (r : RegName) (i : Nat) (v : Word) (k : Nat) : (s.setReg r i v).ep k = s.ep k := rfl
@[simp] theorem State.setReg_ctx (s : State) (r : RegName) (i : Nat) (v : Word) (k : Nat) : (s.setReg r i v).ctx k = s.ctx k := rfl
@[simp] theorem State.setReg_ant (s : State) (r : RegName) (i : Nat) (v : Word) (k : Nat) : (s.setReg r i v).ant k = s.ant k := rfl

/-! ### `State.setFld` -/

@[simp] theorem State.setFld_time (s : State) (f : Fld) (i v : Nat) : (s.setFld f i v).time = s.time := rfl
@[simp] theorem State.setFld_ports (s : State) (f : Fld) (i v : Nat) : (s.setFld f i v).ports = s.ports := rfl
@[simp] theorem State.setFld_eps (s : State) (f : Fld) (i v : Nat) : (s.setFld f i v).eps = s.eps := rfl
@[simp] theorem State.setFld_ctxs (s : State) (f : Fld) (i v : Nat) : (s.setFld f i v).ctxs = s.ctxs := rfl
@[simp] theorem State.setFld_net (s : State) (f : Fld) (i v : Nat) : (s.setFld f i v).net = s.net := rfl
@[simp] theorem State.setFld_que (s : State) (f : Fld) (i v : Nat) : (s.setFld f i v).que = s.que := rfl
@[simp] theorem State.setFld_pool (s : State) (f : Fld) (i v : Nat) : (s.setFld f i v).pool = s.pool := rfl
@[simp] theorem State.setFld_dma (s : State) (f : Fld) (i v : Nat) : (s.setFld f i v).dma = s.dma := rfl
@[simp] theorem State.setFld_coll (s : State) (f : Fld) (i v : Nat) : (s.setFld f i v).coll = s.coll := rfl
@[simp] theorem State.setFld_hawk (s : State) (f : Fld) (i v : Nat) : (s.setFld f i v).hawk = s.hawk := rfl
@[simp] theorem State.setFld_sec (s : State) (f : Fld) (i v : Nat) : (s.setFld f i v).sec = s.sec := rfl
@[simp] theorem State.setFld_mem (s : State) (f : Fld) (i v : Nat) : (s.setFld f i v).mem = s.mem := rfl
@[simp] theorem State.setFld_route (s : State) (f : Fld) (i v : Nat) : (s.setFld f i v).route = s.route := rfl
@[simp] theorem State.setFld_agent (s : State) (f : Fld) (i v : Nat) : (s.setFld f i v).agent = s.agent := rfl
@[simp] theorem State.setFld_map (s : State) (f : Fld) (i v : Nat) : (s.setFld f i v).map = s.map := rfl
@[simp] theorem State.setFld_mgr (s : State) (f : Fld) (i v : Nat) : (s.setFld f i v).mgr = s.mgr := rfl
@[simp] theorem State.setFld_twin (s : State) (f : Fld) (i v : Nat) : (s.setFld f i v).twin = s.twin := rfl
@[simp] theorem State.setFld_fw (s : State) (f : Fld) (i v : Nat) : (s.setFld f i v).fw = s.fw := rfl
@[simp] theorem State.setFld_sil (s : State) (f : Fld) (i v : Nat) : (s.setFld f i v).sil = s.sil := rfl
@[simp] theorem State.setFld_ants (s : State) (f : Fld) (i v : Nat) : (s.setFld f i v).ants = s.ants := rfl
@[simp] theorem State.setFld_ins (s : State) (f : Fld) (i v : Nat) : (s.setFld f i v).ins = s.ins := rfl
@[simp] theorem State.setFld_power (s : State) (f : Fld) (i v : Nat) : (s.setFld f i v).power = s.power := rfl
@[simp] theorem State.setFld_spares (s : State) (f : Fld) (i v : Nat) : (s.setFld f i v).spares = s.spares := rfl
@[simp] theorem State.setFld_cocoon (s : State) (f : Fld) (i v : Nat) : (s.setFld f i v).cocoon = s.cocoon := rfl
@[simp] theorem State.setFld_pins (s : State) (f : Fld) (i v : Nat) : (s.setFld f i v).pins = s.pins := rfl
@[simp] theorem State.setFld_chr (s : State) (f : Fld) (i v : Nat) : (s.setFld f i v).chr = s.chr := rfl
@[simp] theorem State.setFld_out (s : State) (f : Fld) (i v : Nat) : (s.setFld f i v).out = s.out := rfl
@[simp] theorem State.setFld_free (s : State) (f : Fld) (i v : Nat) : (s.setFld f i v).free = s.free := rfl
@[simp] theorem State.setFld_pending (s : State) (f : Fld) (i v : Nat) : (s.setFld f i v).pending = s.pending := rfl
@[simp] theorem State.setFld_agents (s : State) (f : Fld) (i v : Nat) : (s.setFld f i v).agents = s.agents := rfl
@[simp] theorem State.setFld_port (s : State) (f : Fld) (i v : Nat) (k : Nat) : (s.setFld f i v).port k = s.port k := rfl
@[simp] theorem State.setFld_ep (s : State) (f : Fld) (i v : Nat) (k : Nat) : (s.setFld f i v).ep k = s.ep k := rfl
@[simp] theorem State.setFld_ctx (s : State) (f : Fld) (i v : Nat) (k : Nat) : (s.setFld f i v).ctx k = s.ctx k := rfl
@[simp] theorem State.setFld_ant (s : State) (f : Fld) (i v : Nat) (k : Nat) : (s.setFld f i v).ant k = s.ant k := rfl

/-! ### `State.bump` -/

@[simp] theorem State.bump_time (s : State) (f : Fld) (i n : Nat) : (s.bump f i n).time = s.time := rfl
@[simp] theorem State.bump_ports (s : State) (f : Fld) (i n : Nat) : (s.bump f i n).ports = s.ports := rfl
@[simp] theorem State.bump_eps (s : State) (f : Fld) (i n : Nat) : (s.bump f i n).eps = s.eps := rfl
@[simp] theorem State.bump_ctxs (s : State) (f : Fld) (i n : Nat) : (s.bump f i n).ctxs = s.ctxs := rfl
@[simp] theorem State.bump_net (s : State) (f : Fld) (i n : Nat) : (s.bump f i n).net = s.net := rfl
@[simp] theorem State.bump_que (s : State) (f : Fld) (i n : Nat) : (s.bump f i n).que = s.que := rfl
@[simp] theorem State.bump_pool (s : State) (f : Fld) (i n : Nat) : (s.bump f i n).pool = s.pool := rfl
@[simp] theorem State.bump_dma (s : State) (f : Fld) (i n : Nat) : (s.bump f i n).dma = s.dma := rfl
@[simp] theorem State.bump_coll (s : State) (f : Fld) (i n : Nat) : (s.bump f i n).coll = s.coll := rfl
@[simp] theorem State.bump_hawk (s : State) (f : Fld) (i n : Nat) : (s.bump f i n).hawk = s.hawk := rfl
@[simp] theorem State.bump_sec (s : State) (f : Fld) (i n : Nat) : (s.bump f i n).sec = s.sec := rfl
@[simp] theorem State.bump_mem (s : State) (f : Fld) (i n : Nat) : (s.bump f i n).mem = s.mem := rfl
@[simp] theorem State.bump_route (s : State) (f : Fld) (i n : Nat) : (s.bump f i n).route = s.route := rfl
@[simp] theorem State.bump_agent (s : State) (f : Fld) (i n : Nat) : (s.bump f i n).agent = s.agent := rfl
@[simp] theorem State.bump_map (s : State) (f : Fld) (i n : Nat) : (s.bump f i n).map = s.map := rfl
@[simp] theorem State.bump_mgr (s : State) (f : Fld) (i n : Nat) : (s.bump f i n).mgr = s.mgr := rfl
@[simp] theorem State.bump_twin (s : State) (f : Fld) (i n : Nat) : (s.bump f i n).twin = s.twin := rfl
@[simp] theorem State.bump_fw (s : State) (f : Fld) (i n : Nat) : (s.bump f i n).fw = s.fw := rfl
@[simp] theorem State.bump_sil (s : State) (f : Fld) (i n : Nat) : (s.bump f i n).sil = s.sil := rfl
@[simp] theorem State.bump_ants (s : State) (f : Fld) (i n : Nat) : (s.bump f i n).ants = s.ants := rfl
@[simp] theorem State.bump_ins (s : State) (f : Fld) (i n : Nat) : (s.bump f i n).ins = s.ins := rfl
@[simp] theorem State.bump_power (s : State) (f : Fld) (i n : Nat) : (s.bump f i n).power = s.power := rfl
@[simp] theorem State.bump_spares (s : State) (f : Fld) (i n : Nat) : (s.bump f i n).spares = s.spares := rfl
@[simp] theorem State.bump_cocoon (s : State) (f : Fld) (i n : Nat) : (s.bump f i n).cocoon = s.cocoon := rfl
@[simp] theorem State.bump_pins (s : State) (f : Fld) (i n : Nat) : (s.bump f i n).pins = s.pins := rfl
@[simp] theorem State.bump_chr (s : State) (f : Fld) (i n : Nat) : (s.bump f i n).chr = s.chr := rfl
@[simp] theorem State.bump_out (s : State) (f : Fld) (i n : Nat) : (s.bump f i n).out = s.out := rfl
@[simp] theorem State.bump_free (s : State) (f : Fld) (i n : Nat) : (s.bump f i n).free = s.free := rfl
@[simp] theorem State.bump_pending (s : State) (f : Fld) (i n : Nat) : (s.bump f i n).pending = s.pending := rfl
@[simp] theorem State.bump_agents (s : State) (f : Fld) (i n : Nat) : (s.bump f i n).agents = s.agents := rfl
@[simp] theorem State.bump_port (s : State) (f : Fld) (i n : Nat) (k : Nat) : (s.bump f i n).port k = s.port k := rfl
@[simp] theorem State.bump_ep (s : State) (f : Fld) (i n : Nat) (k : Nat) : (s.bump f i n).ep k = s.ep k := rfl
@[simp] theorem State.bump_ctx (s : State) (f : Fld) (i n : Nat) (k : Nat) : (s.bump f i n).ctx k = s.ctx k := rfl
@[simp] theorem State.bump_ant (s : State) (f : Fld) (i n : Nat) (k : Nat) : (s.bump f i n).ant k = s.ant k := rfl

/-! ### `State.resetRegs` -/

@[simp] theorem State.resetRegs_time (s : State) (p : RegName → Nat → Bool) : (s.resetRegs p).time = s.time := rfl
@[simp] theorem State.resetRegs_ports (s : State) (p : RegName → Nat → Bool) : (s.resetRegs p).ports = s.ports := rfl
@[simp] theorem State.resetRegs_eps (s : State) (p : RegName → Nat → Bool) : (s.resetRegs p).eps = s.eps := rfl
@[simp] theorem State.resetRegs_ctxs (s : State) (p : RegName → Nat → Bool) : (s.resetRegs p).ctxs = s.ctxs := rfl
@[simp] theorem State.resetRegs_net (s : State) (p : RegName → Nat → Bool) : (s.resetRegs p).net = s.net := rfl
@[simp] theorem State.resetRegs_que (s : State) (p : RegName → Nat → Bool) : (s.resetRegs p).que = s.que := rfl
@[simp] theorem State.resetRegs_pool (s : State) (p : RegName → Nat → Bool) : (s.resetRegs p).pool = s.pool := rfl
@[simp] theorem State.resetRegs_dma (s : State) (p : RegName → Nat → Bool) : (s.resetRegs p).dma = s.dma := rfl
@[simp] theorem State.resetRegs_coll (s : State) (p : RegName → Nat → Bool) : (s.resetRegs p).coll = s.coll := rfl
@[simp] theorem State.resetRegs_hawk (s : State) (p : RegName → Nat → Bool) : (s.resetRegs p).hawk = s.hawk := rfl
@[simp] theorem State.resetRegs_sec (s : State) (p : RegName → Nat → Bool) : (s.resetRegs p).sec = s.sec := rfl
@[simp] theorem State.resetRegs_mem (s : State) (p : RegName → Nat → Bool) : (s.resetRegs p).mem = s.mem := rfl
@[simp] theorem State.resetRegs_route (s : State) (p : RegName → Nat → Bool) : (s.resetRegs p).route = s.route := rfl
@[simp] theorem State.resetRegs_agent (s : State) (p : RegName → Nat → Bool) : (s.resetRegs p).agent = s.agent := rfl
@[simp] theorem State.resetRegs_map (s : State) (p : RegName → Nat → Bool) : (s.resetRegs p).map = s.map := rfl
@[simp] theorem State.resetRegs_mgr (s : State) (p : RegName → Nat → Bool) : (s.resetRegs p).mgr = s.mgr := rfl
@[simp] theorem State.resetRegs_twin (s : State) (p : RegName → Nat → Bool) : (s.resetRegs p).twin = s.twin := rfl
@[simp] theorem State.resetRegs_fw (s : State) (p : RegName → Nat → Bool) : (s.resetRegs p).fw = s.fw := rfl
@[simp] theorem State.resetRegs_sil (s : State) (p : RegName → Nat → Bool) : (s.resetRegs p).sil = s.sil := rfl
@[simp] theorem State.resetRegs_ants (s : State) (p : RegName → Nat → Bool) : (s.resetRegs p).ants = s.ants := rfl
@[simp] theorem State.resetRegs_ins (s : State) (p : RegName → Nat → Bool) : (s.resetRegs p).ins = s.ins := rfl
@[simp] theorem State.resetRegs_power (s : State) (p : RegName → Nat → Bool) : (s.resetRegs p).power = s.power := rfl
@[simp] theorem State.resetRegs_spares (s : State) (p : RegName → Nat → Bool) : (s.resetRegs p).spares = s.spares := rfl
@[simp] theorem State.resetRegs_cocoon (s : State) (p : RegName → Nat → Bool) : (s.resetRegs p).cocoon = s.cocoon := rfl
@[simp] theorem State.resetRegs_pins (s : State) (p : RegName → Nat → Bool) : (s.resetRegs p).pins = s.pins := rfl
@[simp] theorem State.resetRegs_chr (s : State) (p : RegName → Nat → Bool) : (s.resetRegs p).chr = s.chr := rfl
@[simp] theorem State.resetRegs_out (s : State) (p : RegName → Nat → Bool) : (s.resetRegs p).out = s.out := rfl
@[simp] theorem State.resetRegs_free (s : State) (p : RegName → Nat → Bool) : (s.resetRegs p).free = s.free := rfl
@[simp] theorem State.resetRegs_pending (s : State) (p : RegName → Nat → Bool) : (s.resetRegs p).pending = s.pending := rfl
@[simp] theorem State.resetRegs_agents (s : State) (p : RegName → Nat → Bool) : (s.resetRegs p).agents = s.agents := rfl
@[simp] theorem State.resetRegs_port (s : State) (p : RegName → Nat → Bool) (k : Nat) : (s.resetRegs p).port k = s.port k := rfl
@[simp] theorem State.resetRegs_ep (s : State) (p : RegName → Nat → Bool) (k : Nat) : (s.resetRegs p).ep k = s.ep k := rfl
@[simp] theorem State.resetRegs_ctx (s : State) (p : RegName → Nat → Bool) (k : Nat) : (s.resetRegs p).ctx k = s.ctx k := rfl
@[simp] theorem State.resetRegs_ant (s : State) (p : RegName → Nat → Bool) (k : Nat) : (s.resetRegs p).ant k = s.ant k := rfl

/-! ### `State.setPort` -/

@[simp] theorem State.setPort_regs (s : State) (l : Nat) (p : PortSt) : (s.setPort l p).regs = s.regs := rfl
@[simp] theorem State.setPort_time (s : State) (l : Nat) (p : PortSt) : (s.setPort l p).time = s.time := rfl
@[simp] theorem State.setPort_ports (s : State) (l : Nat) (p : PortSt) : (s.setPort l p).ports = Store.set (fun _ => PortSt.init) s.ports l p := rfl
@[simp] theorem State.setPort_eps (s : State) (l : Nat) (p : PortSt) : (s.setPort l p).eps = s.eps := rfl
@[simp] theorem State.setPort_ctxs (s : State) (l : Nat) (p : PortSt) : (s.setPort l p).ctxs = s.ctxs := rfl
@[simp] theorem State.setPort_net (s : State) (l : Nat) (p : PortSt) : (s.setPort l p).net = s.net := rfl
@[simp] theorem State.setPort_que (s : State) (l : Nat) (p : PortSt) : (s.setPort l p).que = s.que := rfl
@[simp] theorem State.setPort_pool (s : State) (l : Nat) (p : PortSt) : (s.setPort l p).pool = s.pool := rfl
@[simp] theorem State.setPort_dma (s : State) (l : Nat) (p : PortSt) : (s.setPort l p).dma = s.dma := rfl
@[simp] theorem State.setPort_coll (s : State) (l : Nat) (p : PortSt) : (s.setPort l p).coll = s.coll := rfl
@[simp] theorem State.setPort_hawk (s : State) (l : Nat) (p : PortSt) : (s.setPort l p).hawk = s.hawk := rfl
@[simp] theorem State.setPort_sec (s : State) (l : Nat) (p : PortSt) : (s.setPort l p).sec = s.sec := rfl
@[simp] theorem State.setPort_mem (s : State) (l : Nat) (p : PortSt) : (s.setPort l p).mem = s.mem := rfl
@[simp] theorem State.setPort_route (s : State) (l : Nat) (p : PortSt) : (s.setPort l p).route = s.route := rfl
@[simp] theorem State.setPort_agent (s : State) (l : Nat) (p : PortSt) : (s.setPort l p).agent = s.agent := rfl
@[simp] theorem State.setPort_map (s : State) (l : Nat) (p : PortSt) : (s.setPort l p).map = s.map := rfl
@[simp] theorem State.setPort_mgr (s : State) (l : Nat) (p : PortSt) : (s.setPort l p).mgr = s.mgr := rfl
@[simp] theorem State.setPort_twin (s : State) (l : Nat) (p : PortSt) : (s.setPort l p).twin = s.twin := rfl
@[simp] theorem State.setPort_fw (s : State) (l : Nat) (p : PortSt) : (s.setPort l p).fw = s.fw := rfl
@[simp] theorem State.setPort_sil (s : State) (l : Nat) (p : PortSt) : (s.setPort l p).sil = s.sil := rfl
@[simp] theorem State.setPort_ants (s : State) (l : Nat) (p : PortSt) : (s.setPort l p).ants = s.ants := rfl
@[simp] theorem State.setPort_ins (s : State) (l : Nat) (p : PortSt) : (s.setPort l p).ins = s.ins := rfl
@[simp] theorem State.setPort_power (s : State) (l : Nat) (p : PortSt) : (s.setPort l p).power = s.power := rfl
@[simp] theorem State.setPort_spares (s : State) (l : Nat) (p : PortSt) : (s.setPort l p).spares = s.spares := rfl
@[simp] theorem State.setPort_cocoon (s : State) (l : Nat) (p : PortSt) : (s.setPort l p).cocoon = s.cocoon := rfl
@[simp] theorem State.setPort_pins (s : State) (l : Nat) (p : PortSt) : (s.setPort l p).pins = s.pins := rfl
@[simp] theorem State.setPort_chr (s : State) (l : Nat) (p : PortSt) : (s.setPort l p).chr = s.chr := rfl
@[simp] theorem State.setPort_out (s : State) (l : Nat) (p : PortSt) : (s.setPort l p).out = s.out := rfl
@[simp] theorem State.setPort_free (s : State) (l : Nat) (p : PortSt) : (s.setPort l p).free = s.free := rfl
@[simp] theorem State.setPort_pending (s : State) (l : Nat) (p : PortSt) : (s.setPort l p).pending = s.pending := rfl
@[simp] theorem State.setPort_reg (s : State) (l : Nat) (p : PortSt) (rn : RegName) (j : Nat) : (s.setPort l p).reg rn j = s.reg rn j := rfl
@[simp] theorem State.setPort_fld (s : State) (l : Nat) (p : PortSt) (g : Fld) (j : Nat) : (s.setPort l p).fld g j = s.fld g j := rfl
@[simp] theorem State.setPort_flag (s : State) (l : Nat) (p : PortSt) (g : Fld) (j : Nat) : (s.setPort l p).flag g j = s.flag g j := rfl
@[simp] theorem State.setPort_ftu (s : State) (l : Nat) (p : PortSt) : (s.setPort l p).ftu = s.ftu := rfl
@[simp] theorem State.setPort_running (s : State) (l : Nat) (p : PortSt) : (s.setPort l p).running = s.running := rfl
@[simp] theorem State.setPort_isActive (s : State) (l : Nat) (p : PortSt) : (s.setPort l p).isActive = s.isActive := rfl
@[simp] theorem State.setPort_chip (s : State) (l : Nat) (p : PortSt) : (s.setPort l p).chip = s.chip := rfl
@[simp] theorem State.setPort_wb (s : State) (l : Nat) (p : PortSt) : (s.setPort l p).wb = s.wb := rfl
@[simp] theorem State.setPort_mgrState (s : State) (l : Nat) (p : PortSt) : (s.setPort l p).mgrState = s.mgrState := rfl
@[simp] theorem State.setPort_reached (s : State) (l : Nat) (p : PortSt) (b : Wb) : (s.setPort l p).reached b = s.reached b := rfl
@[simp] theorem State.setPort_linkState (s : State) (l : Nat) (p : PortSt) (k : Nat) : (s.setPort l p).linkState k = s.linkState k := rfl
@[simp] theorem State.setPort_agents (s : State) (l : Nat) (p : PortSt) : (s.setPort l p).agents = s.agents := rfl
@[simp] theorem State.setPort_ep (s : State) (l : Nat) (p : PortSt) (k : Nat) : (s.setPort l p).ep k = s.ep k := rfl
@[simp] theorem State.setPort_ctx (s : State) (l : Nat) (p : PortSt) (k : Nat) : (s.setPort l p).ctx k = s.ctx k := rfl
@[simp] theorem State.setPort_ant (s : State) (l : Nat) (p : PortSt) (k : Nat) : (s.setPort l p).ant k = s.ant k := rfl

/-! ### `State.modPort` -/

@[simp] theorem State.modPort_regs (s : State) (l : Nat) (f : PortSt → PortSt) : (s.modPort l f).regs = s.regs := rfl
@[simp] theorem State.modPort_time (s : State) (l : Nat) (f : PortSt → PortSt) : (s.modPort l f).time = s.time := rfl
@[simp] theorem State.modPort_ports (s : State) (l : Nat) (f : PortSt → PortSt) : (s.modPort l f).ports = Store.set (fun _ => PortSt.init) s.ports l (f (s.port l)) := rfl
@[simp] theorem State.modPort_eps (s : State) (l : Nat) (f : PortSt → PortSt) : (s.modPort l f).eps = s.eps := rfl
@[simp] theorem State.modPort_ctxs (s : State) (l : Nat) (f : PortSt → PortSt) : (s.modPort l f).ctxs = s.ctxs := rfl
@[simp] theorem State.modPort_net (s : State) (l : Nat) (f : PortSt → PortSt) : (s.modPort l f).net = s.net := rfl
@[simp] theorem State.modPort_que (s : State) (l : Nat) (f : PortSt → PortSt) : (s.modPort l f).que = s.que := rfl
@[simp] theorem State.modPort_pool (s : State) (l : Nat) (f : PortSt → PortSt) : (s.modPort l f).pool = s.pool := rfl
@[simp] theorem State.modPort_dma (s : State) (l : Nat) (f : PortSt → PortSt) : (s.modPort l f).dma = s.dma := rfl
@[simp] theorem State.modPort_coll (s : State) (l : Nat) (f : PortSt → PortSt) : (s.modPort l f).coll = s.coll := rfl
@[simp] theorem State.modPort_hawk (s : State) (l : Nat) (f : PortSt → PortSt) : (s.modPort l f).hawk = s.hawk := rfl
@[simp] theorem State.modPort_sec (s : State) (l : Nat) (f : PortSt → PortSt) : (s.modPort l f).sec = s.sec := rfl
@[simp] theorem State.modPort_mem (s : State) (l : Nat) (f : PortSt → PortSt) : (s.modPort l f).mem = s.mem := rfl
@[simp] theorem State.modPort_route (s : State) (l : Nat) (f : PortSt → PortSt) : (s.modPort l f).route = s.route := rfl
@[simp] theorem State.modPort_agent (s : State) (l : Nat) (f : PortSt → PortSt) : (s.modPort l f).agent = s.agent := rfl
@[simp] theorem State.modPort_map (s : State) (l : Nat) (f : PortSt → PortSt) : (s.modPort l f).map = s.map := rfl
@[simp] theorem State.modPort_mgr (s : State) (l : Nat) (f : PortSt → PortSt) : (s.modPort l f).mgr = s.mgr := rfl
@[simp] theorem State.modPort_twin (s : State) (l : Nat) (f : PortSt → PortSt) : (s.modPort l f).twin = s.twin := rfl
@[simp] theorem State.modPort_fw (s : State) (l : Nat) (f : PortSt → PortSt) : (s.modPort l f).fw = s.fw := rfl
@[simp] theorem State.modPort_sil (s : State) (l : Nat) (f : PortSt → PortSt) : (s.modPort l f).sil = s.sil := rfl
@[simp] theorem State.modPort_ants (s : State) (l : Nat) (f : PortSt → PortSt) : (s.modPort l f).ants = s.ants := rfl
@[simp] theorem State.modPort_ins (s : State) (l : Nat) (f : PortSt → PortSt) : (s.modPort l f).ins = s.ins := rfl
@[simp] theorem State.modPort_power (s : State) (l : Nat) (f : PortSt → PortSt) : (s.modPort l f).power = s.power := rfl
@[simp] theorem State.modPort_spares (s : State) (l : Nat) (f : PortSt → PortSt) : (s.modPort l f).spares = s.spares := rfl
@[simp] theorem State.modPort_cocoon (s : State) (l : Nat) (f : PortSt → PortSt) : (s.modPort l f).cocoon = s.cocoon := rfl
@[simp] theorem State.modPort_pins (s : State) (l : Nat) (f : PortSt → PortSt) : (s.modPort l f).pins = s.pins := rfl
@[simp] theorem State.modPort_chr (s : State) (l : Nat) (f : PortSt → PortSt) : (s.modPort l f).chr = s.chr := rfl
@[simp] theorem State.modPort_out (s : State) (l : Nat) (f : PortSt → PortSt) : (s.modPort l f).out = s.out := rfl
@[simp] theorem State.modPort_free (s : State) (l : Nat) (f : PortSt → PortSt) : (s.modPort l f).free = s.free := rfl
@[simp] theorem State.modPort_pending (s : State) (l : Nat) (f : PortSt → PortSt) : (s.modPort l f).pending = s.pending := rfl
@[simp] theorem State.modPort_reg (s : State) (l : Nat) (f : PortSt → PortSt) (rn : RegName) (j : Nat) : (s.modPort l f).reg rn j = s.reg rn j := rfl
@[simp] theorem State.modPort_fld (s : State) (l : Nat) (f : PortSt → PortSt) (g : Fld) (j : Nat) : (s.modPort l f).fld g j = s.fld g j := rfl
@[simp] theorem State.modPort_flag (s : State) (l : Nat) (f : PortSt → PortSt) (g : Fld) (j : Nat) : (s.modPort l f).flag g j = s.flag g j := rfl
@[simp] theorem State.modPort_ftu (s : State) (l : Nat) (f : PortSt → PortSt) : (s.modPort l f).ftu = s.ftu := rfl
@[simp] theorem State.modPort_running (s : State) (l : Nat) (f : PortSt → PortSt) : (s.modPort l f).running = s.running := rfl
@[simp] theorem State.modPort_isActive (s : State) (l : Nat) (f : PortSt → PortSt) : (s.modPort l f).isActive = s.isActive := rfl
@[simp] theorem State.modPort_chip (s : State) (l : Nat) (f : PortSt → PortSt) : (s.modPort l f).chip = s.chip := rfl
@[simp] theorem State.modPort_wb (s : State) (l : Nat) (f : PortSt → PortSt) : (s.modPort l f).wb = s.wb := rfl
@[simp] theorem State.modPort_mgrState (s : State) (l : Nat) (f : PortSt → PortSt) : (s.modPort l f).mgrState = s.mgrState := rfl
@[simp] theorem State.modPort_reached (s : State) (l : Nat) (f : PortSt → PortSt) (b : Wb) : (s.modPort l f).reached b = s.reached b := rfl
@[simp] theorem State.modPort_linkState (s : State) (l : Nat) (f : PortSt → PortSt) (k : Nat) : (s.modPort l f).linkState k = s.linkState k := rfl
@[simp] theorem State.modPort_agents (s : State) (l : Nat) (f : PortSt → PortSt) : (s.modPort l f).agents = s.agents := rfl
@[simp] theorem State.modPort_ep (s : State) (l : Nat) (f : PortSt → PortSt) (k : Nat) : (s.modPort l f).ep k = s.ep k := rfl
@[simp] theorem State.modPort_ctx (s : State) (l : Nat) (f : PortSt → PortSt) (k : Nat) : (s.modPort l f).ctx k = s.ctx k := rfl
@[simp] theorem State.modPort_ant (s : State) (l : Nat) (f : PortSt → PortSt) (k : Nat) : (s.modPort l f).ant k = s.ant k := rfl

/-! ### `State.setEp` -/

@[simp] theorem State.setEp_regs (s : State) (p : Nat) (v : EpSt) : (s.setEp p v).regs = s.regs := rfl
@[simp] theorem State.setEp_time (s : State) (p : Nat) (v : EpSt) : (s.setEp p v).time = s.time := rfl
@[simp] theorem State.setEp_ports (s : State) (p : Nat) (v : EpSt) : (s.setEp p v).ports = s.ports := rfl
@[simp] theorem State.setEp_eps (s : State) (p : Nat) (v : EpSt) : (s.setEp p v).eps = Store.set (fun _ => EpSt.init) s.eps p v := rfl
@[simp] theorem State.setEp_ctxs (s : State) (p : Nat) (v : EpSt) : (s.setEp p v).ctxs = s.ctxs := rfl
@[simp] theorem State.setEp_net (s : State) (p : Nat) (v : EpSt) : (s.setEp p v).net = s.net := rfl
@[simp] theorem State.setEp_que (s : State) (p : Nat) (v : EpSt) : (s.setEp p v).que = s.que := rfl
@[simp] theorem State.setEp_pool (s : State) (p : Nat) (v : EpSt) : (s.setEp p v).pool = s.pool := rfl
@[simp] theorem State.setEp_dma (s : State) (p : Nat) (v : EpSt) : (s.setEp p v).dma = s.dma := rfl
@[simp] theorem State.setEp_coll (s : State) (p : Nat) (v : EpSt) : (s.setEp p v).coll = s.coll := rfl
@[simp] theorem State.setEp_hawk (s : State) (p : Nat) (v : EpSt) : (s.setEp p v).hawk = s.hawk := rfl
@[simp] theorem State.setEp_sec (s : State) (p : Nat) (v : EpSt) : (s.setEp p v).sec = s.sec := rfl
@[simp] theorem State.setEp_mem (s : State) (p : Nat) (v : EpSt) : (s.setEp p v).mem = s.mem := rfl
@[simp] theorem State.setEp_route (s : State) (p : Nat) (v : EpSt) : (s.setEp p v).route = s.route := rfl
@[simp] theorem State.setEp_agent (s : State) (p : Nat) (v : EpSt) : (s.setEp p v).agent = s.agent := rfl
@[simp] theorem State.setEp_map (s : State) (p : Nat) (v : EpSt) : (s.setEp p v).map = s.map := rfl
@[simp] theorem State.setEp_mgr (s : State) (p : Nat) (v : EpSt) : (s.setEp p v).mgr = s.mgr := rfl
@[simp] theorem State.setEp_twin (s : State) (p : Nat) (v : EpSt) : (s.setEp p v).twin = s.twin := rfl
@[simp] theorem State.setEp_fw (s : State) (p : Nat) (v : EpSt) : (s.setEp p v).fw = s.fw := rfl
@[simp] theorem State.setEp_sil (s : State) (p : Nat) (v : EpSt) : (s.setEp p v).sil = s.sil := rfl
@[simp] theorem State.setEp_ants (s : State) (p : Nat) (v : EpSt) : (s.setEp p v).ants = s.ants := rfl
@[simp] theorem State.setEp_ins (s : State) (p : Nat) (v : EpSt) : (s.setEp p v).ins = s.ins := rfl
@[simp] theorem State.setEp_power (s : State) (p : Nat) (v : EpSt) : (s.setEp p v).power = s.power := rfl
@[simp] theorem State.setEp_spares (s : State) (p : Nat) (v : EpSt) : (s.setEp p v).spares = s.spares := rfl
@[simp] theorem State.setEp_cocoon (s : State) (p : Nat) (v : EpSt) : (s.setEp p v).cocoon = s.cocoon := rfl
@[simp] theorem State.setEp_pins (s : State) (p : Nat) (v : EpSt) : (s.setEp p v).pins = s.pins := rfl
@[simp] theorem State.setEp_chr (s : State) (p : Nat) (v : EpSt) : (s.setEp p v).chr = s.chr := rfl
@[simp] theorem State.setEp_out (s : State) (p : Nat) (v : EpSt) : (s.setEp p v).out = s.out := rfl
@[simp] theorem State.setEp_free (s : State) (p : Nat) (v : EpSt) : (s.setEp p v).free = s.free := rfl
@[simp] theorem State.setEp_pending (s : State) (p : Nat) (v : EpSt) : (s.setEp p v).pending = s.pending := rfl
@[simp] theorem State.setEp_reg (s : State) (p : Nat) (v : EpSt) (rn : RegName) (j : Nat) : (s.setEp p v).reg rn j = s.reg rn j := rfl
@[simp] theorem State.setEp_fld (s : State) (p : Nat) (v : EpSt) (g : Fld) (j : Nat) : (s.setEp p v).fld g j = s.fld g j := rfl
@[simp] theorem State.setEp_flag (s : State) (p : Nat) (v : EpSt) (g : Fld) (j : Nat) : (s.setEp p v).flag g j = s.flag g j := rfl
@[simp] theorem State.setEp_ftu (s : State) (p : Nat) (v : EpSt) : (s.setEp p v).ftu = s.ftu := rfl
@[simp] theorem State.setEp_running (s : State) (p : Nat) (v : EpSt) : (s.setEp p v).running = s.running := rfl
@[simp] theorem State.setEp_isActive (s : State) (p : Nat) (v : EpSt) : (s.setEp p v).isActive = s.isActive := rfl
@[simp] theorem State.setEp_chip (s : State) (p : Nat) (v : EpSt) : (s.setEp p v).chip = s.chip := rfl
@[simp] theorem State.setEp_wb (s : State) (p : Nat) (v : EpSt) : (s.setEp p v).wb = s.wb := rfl
@[simp] theorem State.setEp_mgrState (s : State) (p : Nat) (v : EpSt) : (s.setEp p v).mgrState = s.mgrState := rfl
@[simp] theorem State.setEp_reached (s : State) (p : Nat) (v : EpSt) (b : Wb) : (s.setEp p v).reached b = s.reached b := rfl
@[simp] theorem State.setEp_linkState (s : State) (p : Nat) (v : EpSt) (k : Nat) : (s.setEp p v).linkState k = s.linkState k := rfl
@[simp] theorem State.setEp_agents (s : State) (p : Nat) (v : EpSt) : (s.setEp p v).agents = s.agents := rfl
@[simp] theorem State.setEp_port (s : State) (p : Nat) (v : EpSt) (k : Nat) : (s.setEp p v).port k = s.port k := rfl
@[simp] theorem State.setEp_ctx (s : State) (p : Nat) (v : EpSt) (k : Nat) : (s.setEp p v).ctx k = s.ctx k := rfl
@[simp] theorem State.setEp_ant (s : State) (p : Nat) (v : EpSt) (k : Nat) : (s.setEp p v).ant k = s.ant k := rfl

/-! ### `State.modEp` -/

@[simp] theorem State.modEp_regs (s : State) (p : Nat) (f : EpSt → EpSt) : (s.modEp p f).regs = s.regs := rfl
@[simp] theorem State.modEp_time (s : State) (p : Nat) (f : EpSt → EpSt) : (s.modEp p f).time = s.time := rfl
@[simp] theorem State.modEp_ports (s : State) (p : Nat) (f : EpSt → EpSt) : (s.modEp p f).ports = s.ports := rfl
@[simp] theorem State.modEp_eps (s : State) (p : Nat) (f : EpSt → EpSt) : (s.modEp p f).eps = Store.set (fun _ => EpSt.init) s.eps p (f (s.ep p)) := rfl
@[simp] theorem State.modEp_ctxs (s : State) (p : Nat) (f : EpSt → EpSt) : (s.modEp p f).ctxs = s.ctxs := rfl
@[simp] theorem State.modEp_net (s : State) (p : Nat) (f : EpSt → EpSt) : (s.modEp p f).net = s.net := rfl
@[simp] theorem State.modEp_que (s : State) (p : Nat) (f : EpSt → EpSt) : (s.modEp p f).que = s.que := rfl
@[simp] theorem State.modEp_pool (s : State) (p : Nat) (f : EpSt → EpSt) : (s.modEp p f).pool = s.pool := rfl
@[simp] theorem State.modEp_dma (s : State) (p : Nat) (f : EpSt → EpSt) : (s.modEp p f).dma = s.dma := rfl
@[simp] theorem State.modEp_coll (s : State) (p : Nat) (f : EpSt → EpSt) : (s.modEp p f).coll = s.coll := rfl
@[simp] theorem State.modEp_hawk (s : State) (p : Nat) (f : EpSt → EpSt) : (s.modEp p f).hawk = s.hawk := rfl
@[simp] theorem State.modEp_sec (s : State) (p : Nat) (f : EpSt → EpSt) : (s.modEp p f).sec = s.sec := rfl
@[simp] theorem State.modEp_mem (s : State) (p : Nat) (f : EpSt → EpSt) : (s.modEp p f).mem = s.mem := rfl
@[simp] theorem State.modEp_route (s : State) (p : Nat) (f : EpSt → EpSt) : (s.modEp p f).route = s.route := rfl
@[simp] theorem State.modEp_agent (s : State) (p : Nat) (f : EpSt → EpSt) : (s.modEp p f).agent = s.agent := rfl
@[simp] theorem State.modEp_map (s : State) (p : Nat) (f : EpSt → EpSt) : (s.modEp p f).map = s.map := rfl
@[simp] theorem State.modEp_mgr (s : State) (p : Nat) (f : EpSt → EpSt) : (s.modEp p f).mgr = s.mgr := rfl
@[simp] theorem State.modEp_twin (s : State) (p : Nat) (f : EpSt → EpSt) : (s.modEp p f).twin = s.twin := rfl
@[simp] theorem State.modEp_fw (s : State) (p : Nat) (f : EpSt → EpSt) : (s.modEp p f).fw = s.fw := rfl
@[simp] theorem State.modEp_sil (s : State) (p : Nat) (f : EpSt → EpSt) : (s.modEp p f).sil = s.sil := rfl
@[simp] theorem State.modEp_ants (s : State) (p : Nat) (f : EpSt → EpSt) : (s.modEp p f).ants = s.ants := rfl
@[simp] theorem State.modEp_ins (s : State) (p : Nat) (f : EpSt → EpSt) : (s.modEp p f).ins = s.ins := rfl
@[simp] theorem State.modEp_power (s : State) (p : Nat) (f : EpSt → EpSt) : (s.modEp p f).power = s.power := rfl
@[simp] theorem State.modEp_spares (s : State) (p : Nat) (f : EpSt → EpSt) : (s.modEp p f).spares = s.spares := rfl
@[simp] theorem State.modEp_cocoon (s : State) (p : Nat) (f : EpSt → EpSt) : (s.modEp p f).cocoon = s.cocoon := rfl
@[simp] theorem State.modEp_pins (s : State) (p : Nat) (f : EpSt → EpSt) : (s.modEp p f).pins = s.pins := rfl
@[simp] theorem State.modEp_chr (s : State) (p : Nat) (f : EpSt → EpSt) : (s.modEp p f).chr = s.chr := rfl
@[simp] theorem State.modEp_out (s : State) (p : Nat) (f : EpSt → EpSt) : (s.modEp p f).out = s.out := rfl
@[simp] theorem State.modEp_free (s : State) (p : Nat) (f : EpSt → EpSt) : (s.modEp p f).free = s.free := rfl
@[simp] theorem State.modEp_pending (s : State) (p : Nat) (f : EpSt → EpSt) : (s.modEp p f).pending = s.pending := rfl
@[simp] theorem State.modEp_reg (s : State) (p : Nat) (f : EpSt → EpSt) (rn : RegName) (j : Nat) : (s.modEp p f).reg rn j = s.reg rn j := rfl
@[simp] theorem State.modEp_fld (s : State) (p : Nat) (f : EpSt → EpSt) (g : Fld) (j : Nat) : (s.modEp p f).fld g j = s.fld g j := rfl
@[simp] theorem State.modEp_flag (s : State) (p : Nat) (f : EpSt → EpSt) (g : Fld) (j : Nat) : (s.modEp p f).flag g j = s.flag g j := rfl
@[simp] theorem State.modEp_ftu (s : State) (p : Nat) (f : EpSt → EpSt) : (s.modEp p f).ftu = s.ftu := rfl
@[simp] theorem State.modEp_running (s : State) (p : Nat) (f : EpSt → EpSt) : (s.modEp p f).running = s.running := rfl
@[simp] theorem State.modEp_isActive (s : State) (p : Nat) (f : EpSt → EpSt) : (s.modEp p f).isActive = s.isActive := rfl
@[simp] theorem State.modEp_chip (s : State) (p : Nat) (f : EpSt → EpSt) : (s.modEp p f).chip = s.chip := rfl
@[simp] theorem State.modEp_wb (s : State) (p : Nat) (f : EpSt → EpSt) : (s.modEp p f).wb = s.wb := rfl
@[simp] theorem State.modEp_mgrState (s : State) (p : Nat) (f : EpSt → EpSt) : (s.modEp p f).mgrState = s.mgrState := rfl
@[simp] theorem State.modEp_reached (s : State) (p : Nat) (f : EpSt → EpSt) (b : Wb) : (s.modEp p f).reached b = s.reached b := rfl
@[simp] theorem State.modEp_linkState (s : State) (p : Nat) (f : EpSt → EpSt) (k : Nat) : (s.modEp p f).linkState k = s.linkState k := rfl
@[simp] theorem State.modEp_agents (s : State) (p : Nat) (f : EpSt → EpSt) : (s.modEp p f).agents = s.agents := rfl
@[simp] theorem State.modEp_port (s : State) (p : Nat) (f : EpSt → EpSt) (k : Nat) : (s.modEp p f).port k = s.port k := rfl
@[simp] theorem State.modEp_ctx (s : State) (p : Nat) (f : EpSt → EpSt) (k : Nat) : (s.modEp p f).ctx k = s.ctx k := rfl
@[simp] theorem State.modEp_ant (s : State) (p : Nat) (f : EpSt → EpSt) (k : Nat) : (s.modEp p f).ant k = s.ant k := rfl

/-! ### `State.setCtx` -/

@[simp] theorem State.setCtx_regs (s : State) (c : Nat) (v : CtxSt) : (s.setCtx c v).regs = s.regs := rfl
@[simp] theorem State.setCtx_time (s : State) (c : Nat) (v : CtxSt) : (s.setCtx c v).time = s.time := rfl
@[simp] theorem State.setCtx_ports (s : State) (c : Nat) (v : CtxSt) : (s.setCtx c v).ports = s.ports := rfl
@[simp] theorem State.setCtx_eps (s : State) (c : Nat) (v : CtxSt) : (s.setCtx c v).eps = s.eps := rfl
@[simp] theorem State.setCtx_ctxs (s : State) (c : Nat) (v : CtxSt) : (s.setCtx c v).ctxs = Store.set (fun _ => CtxSt.init) s.ctxs c v := rfl
@[simp] theorem State.setCtx_net (s : State) (c : Nat) (v : CtxSt) : (s.setCtx c v).net = s.net := rfl
@[simp] theorem State.setCtx_que (s : State) (c : Nat) (v : CtxSt) : (s.setCtx c v).que = s.que := rfl
@[simp] theorem State.setCtx_pool (s : State) (c : Nat) (v : CtxSt) : (s.setCtx c v).pool = s.pool := rfl
@[simp] theorem State.setCtx_dma (s : State) (c : Nat) (v : CtxSt) : (s.setCtx c v).dma = s.dma := rfl
@[simp] theorem State.setCtx_coll (s : State) (c : Nat) (v : CtxSt) : (s.setCtx c v).coll = s.coll := rfl
@[simp] theorem State.setCtx_hawk (s : State) (c : Nat) (v : CtxSt) : (s.setCtx c v).hawk = s.hawk := rfl
@[simp] theorem State.setCtx_sec (s : State) (c : Nat) (v : CtxSt) : (s.setCtx c v).sec = s.sec := rfl
@[simp] theorem State.setCtx_mem (s : State) (c : Nat) (v : CtxSt) : (s.setCtx c v).mem = s.mem := rfl
@[simp] theorem State.setCtx_route (s : State) (c : Nat) (v : CtxSt) : (s.setCtx c v).route = s.route := rfl
@[simp] theorem State.setCtx_agent (s : State) (c : Nat) (v : CtxSt) : (s.setCtx c v).agent = s.agent := rfl
@[simp] theorem State.setCtx_map (s : State) (c : Nat) (v : CtxSt) : (s.setCtx c v).map = s.map := rfl
@[simp] theorem State.setCtx_mgr (s : State) (c : Nat) (v : CtxSt) : (s.setCtx c v).mgr = s.mgr := rfl
@[simp] theorem State.setCtx_twin (s : State) (c : Nat) (v : CtxSt) : (s.setCtx c v).twin = s.twin := rfl
@[simp] theorem State.setCtx_fw (s : State) (c : Nat) (v : CtxSt) : (s.setCtx c v).fw = s.fw := rfl
@[simp] theorem State.setCtx_sil (s : State) (c : Nat) (v : CtxSt) : (s.setCtx c v).sil = s.sil := rfl
@[simp] theorem State.setCtx_ants (s : State) (c : Nat) (v : CtxSt) : (s.setCtx c v).ants = s.ants := rfl
@[simp] theorem State.setCtx_ins (s : State) (c : Nat) (v : CtxSt) : (s.setCtx c v).ins = s.ins := rfl
@[simp] theorem State.setCtx_power (s : State) (c : Nat) (v : CtxSt) : (s.setCtx c v).power = s.power := rfl
@[simp] theorem State.setCtx_spares (s : State) (c : Nat) (v : CtxSt) : (s.setCtx c v).spares = s.spares := rfl
@[simp] theorem State.setCtx_cocoon (s : State) (c : Nat) (v : CtxSt) : (s.setCtx c v).cocoon = s.cocoon := rfl
@[simp] theorem State.setCtx_pins (s : State) (c : Nat) (v : CtxSt) : (s.setCtx c v).pins = s.pins := rfl
@[simp] theorem State.setCtx_chr (s : State) (c : Nat) (v : CtxSt) : (s.setCtx c v).chr = s.chr := rfl
@[simp] theorem State.setCtx_out (s : State) (c : Nat) (v : CtxSt) : (s.setCtx c v).out = s.out := rfl
@[simp] theorem State.setCtx_free (s : State) (c : Nat) (v : CtxSt) : (s.setCtx c v).free = s.free := rfl
@[simp] theorem State.setCtx_pending (s : State) (c : Nat) (v : CtxSt) : (s.setCtx c v).pending = s.pending := rfl
@[simp] theorem State.setCtx_reg (s : State) (c : Nat) (v : CtxSt) (rn : RegName) (j : Nat) : (s.setCtx c v).reg rn j = s.reg rn j := rfl
@[simp] theorem State.setCtx_fld (s : State) (c : Nat) (v : CtxSt) (g : Fld) (j : Nat) : (s.setCtx c v).fld g j = s.fld g j := rfl
@[simp] theorem State.setCtx_flag (s : State) (c : Nat) (v : CtxSt) (g : Fld) (j : Nat) : (s.setCtx c v).flag g j = s.flag g j := rfl
@[simp] theorem State.setCtx_ftu (s : State) (c : Nat) (v : CtxSt) : (s.setCtx c v).ftu = s.ftu := rfl
@[simp] theorem State.setCtx_running (s : State) (c : Nat) (v : CtxSt) : (s.setCtx c v).running = s.running := rfl
@[simp] theorem State.setCtx_isActive (s : State) (c : Nat) (v : CtxSt) : (s.setCtx c v).isActive = s.isActive := rfl
@[simp] theorem State.setCtx_chip (s : State) (c : Nat) (v : CtxSt) : (s.setCtx c v).chip = s.chip := rfl
@[simp] theorem State.setCtx_wb (s : State) (c : Nat) (v : CtxSt) : (s.setCtx c v).wb = s.wb := rfl
@[simp] theorem State.setCtx_mgrState (s : State) (c : Nat) (v : CtxSt) : (s.setCtx c v).mgrState = s.mgrState := rfl
@[simp] theorem State.setCtx_reached (s : State) (c : Nat) (v : CtxSt) (b : Wb) : (s.setCtx c v).reached b = s.reached b := rfl
@[simp] theorem State.setCtx_linkState (s : State) (c : Nat) (v : CtxSt) (k : Nat) : (s.setCtx c v).linkState k = s.linkState k := rfl
@[simp] theorem State.setCtx_agents (s : State) (c : Nat) (v : CtxSt) : (s.setCtx c v).agents = s.agents := rfl
@[simp] theorem State.setCtx_port (s : State) (c : Nat) (v : CtxSt) (k : Nat) : (s.setCtx c v).port k = s.port k := rfl
@[simp] theorem State.setCtx_ep (s : State) (c : Nat) (v : CtxSt) (k : Nat) : (s.setCtx c v).ep k = s.ep k := rfl
@[simp] theorem State.setCtx_ant (s : State) (c : Nat) (v : CtxSt) (k : Nat) : (s.setCtx c v).ant k = s.ant k := rfl

/-! ### `State.modCtx` -/

@[simp] theorem State.modCtx_regs (s : State) (c : Nat) (f : CtxSt → CtxSt) : (s.modCtx c f).regs = s.regs := rfl
@[simp] theorem State.modCtx_time (s : State) (c : Nat) (f : CtxSt → CtxSt) : (s.modCtx c f).time = s.time := rfl
@[simp] theorem State.modCtx_ports (s : State) (c : Nat) (f : CtxSt → CtxSt) : (s.modCtx c f).ports = s.ports := rfl
@[simp] theorem State.modCtx_eps (s : State) (c : Nat) (f : CtxSt → CtxSt) : (s.modCtx c f).eps = s.eps := rfl
@[simp] theorem State.modCtx_ctxs (s : State) (c : Nat) (f : CtxSt → CtxSt) : (s.modCtx c f).ctxs = Store.set (fun _ => CtxSt.init) s.ctxs c (f (s.ctx c)) := rfl
@[simp] theorem State.modCtx_net (s : State) (c : Nat) (f : CtxSt → CtxSt) : (s.modCtx c f).net = s.net := rfl
@[simp] theorem State.modCtx_que (s : State) (c : Nat) (f : CtxSt → CtxSt) : (s.modCtx c f).que = s.que := rfl
@[simp] theorem State.modCtx_pool (s : State) (c : Nat) (f : CtxSt → CtxSt) : (s.modCtx c f).pool = s.pool := rfl
@[simp] theorem State.modCtx_dma (s : State) (c : Nat) (f : CtxSt → CtxSt) : (s.modCtx c f).dma = s.dma := rfl
@[simp] theorem State.modCtx_coll (s : State) (c : Nat) (f : CtxSt → CtxSt) : (s.modCtx c f).coll = s.coll := rfl
@[simp] theorem State.modCtx_hawk (s : State) (c : Nat) (f : CtxSt → CtxSt) : (s.modCtx c f).hawk = s.hawk := rfl
@[simp] theorem State.modCtx_sec (s : State) (c : Nat) (f : CtxSt → CtxSt) : (s.modCtx c f).sec = s.sec := rfl
@[simp] theorem State.modCtx_mem (s : State) (c : Nat) (f : CtxSt → CtxSt) : (s.modCtx c f).mem = s.mem := rfl
@[simp] theorem State.modCtx_route (s : State) (c : Nat) (f : CtxSt → CtxSt) : (s.modCtx c f).route = s.route := rfl
@[simp] theorem State.modCtx_agent (s : State) (c : Nat) (f : CtxSt → CtxSt) : (s.modCtx c f).agent = s.agent := rfl
@[simp] theorem State.modCtx_map (s : State) (c : Nat) (f : CtxSt → CtxSt) : (s.modCtx c f).map = s.map := rfl
@[simp] theorem State.modCtx_mgr (s : State) (c : Nat) (f : CtxSt → CtxSt) : (s.modCtx c f).mgr = s.mgr := rfl
@[simp] theorem State.modCtx_twin (s : State) (c : Nat) (f : CtxSt → CtxSt) : (s.modCtx c f).twin = s.twin := rfl
@[simp] theorem State.modCtx_fw (s : State) (c : Nat) (f : CtxSt → CtxSt) : (s.modCtx c f).fw = s.fw := rfl
@[simp] theorem State.modCtx_sil (s : State) (c : Nat) (f : CtxSt → CtxSt) : (s.modCtx c f).sil = s.sil := rfl
@[simp] theorem State.modCtx_ants (s : State) (c : Nat) (f : CtxSt → CtxSt) : (s.modCtx c f).ants = s.ants := rfl
@[simp] theorem State.modCtx_ins (s : State) (c : Nat) (f : CtxSt → CtxSt) : (s.modCtx c f).ins = s.ins := rfl
@[simp] theorem State.modCtx_power (s : State) (c : Nat) (f : CtxSt → CtxSt) : (s.modCtx c f).power = s.power := rfl
@[simp] theorem State.modCtx_spares (s : State) (c : Nat) (f : CtxSt → CtxSt) : (s.modCtx c f).spares = s.spares := rfl
@[simp] theorem State.modCtx_cocoon (s : State) (c : Nat) (f : CtxSt → CtxSt) : (s.modCtx c f).cocoon = s.cocoon := rfl
@[simp] theorem State.modCtx_pins (s : State) (c : Nat) (f : CtxSt → CtxSt) : (s.modCtx c f).pins = s.pins := rfl
@[simp] theorem State.modCtx_chr (s : State) (c : Nat) (f : CtxSt → CtxSt) : (s.modCtx c f).chr = s.chr := rfl
@[simp] theorem State.modCtx_out (s : State) (c : Nat) (f : CtxSt → CtxSt) : (s.modCtx c f).out = s.out := rfl
@[simp] theorem State.modCtx_free (s : State) (c : Nat) (f : CtxSt → CtxSt) : (s.modCtx c f).free = s.free := rfl
@[simp] theorem State.modCtx_pending (s : State) (c : Nat) (f : CtxSt → CtxSt) : (s.modCtx c f).pending = s.pending := rfl
@[simp] theorem State.modCtx_reg (s : State) (c : Nat) (f : CtxSt → CtxSt) (rn : RegName) (j : Nat) : (s.modCtx c f).reg rn j = s.reg rn j := rfl
@[simp] theorem State.modCtx_fld (s : State) (c : Nat) (f : CtxSt → CtxSt) (g : Fld) (j : Nat) : (s.modCtx c f).fld g j = s.fld g j := rfl
@[simp] theorem State.modCtx_flag (s : State) (c : Nat) (f : CtxSt → CtxSt) (g : Fld) (j : Nat) : (s.modCtx c f).flag g j = s.flag g j := rfl
@[simp] theorem State.modCtx_ftu (s : State) (c : Nat) (f : CtxSt → CtxSt) : (s.modCtx c f).ftu = s.ftu := rfl
@[simp] theorem State.modCtx_running (s : State) (c : Nat) (f : CtxSt → CtxSt) : (s.modCtx c f).running = s.running := rfl
@[simp] theorem State.modCtx_isActive (s : State) (c : Nat) (f : CtxSt → CtxSt) : (s.modCtx c f).isActive = s.isActive := rfl
@[simp] theorem State.modCtx_chip (s : State) (c : Nat) (f : CtxSt → CtxSt) : (s.modCtx c f).chip = s.chip := rfl
@[simp] theorem State.modCtx_wb (s : State) (c : Nat) (f : CtxSt → CtxSt) : (s.modCtx c f).wb = s.wb := rfl
@[simp] theorem State.modCtx_mgrState (s : State) (c : Nat) (f : CtxSt → CtxSt) : (s.modCtx c f).mgrState = s.mgrState := rfl
@[simp] theorem State.modCtx_reached (s : State) (c : Nat) (f : CtxSt → CtxSt) (b : Wb) : (s.modCtx c f).reached b = s.reached b := rfl
@[simp] theorem State.modCtx_linkState (s : State) (c : Nat) (f : CtxSt → CtxSt) (k : Nat) : (s.modCtx c f).linkState k = s.linkState k := rfl
@[simp] theorem State.modCtx_agents (s : State) (c : Nat) (f : CtxSt → CtxSt) : (s.modCtx c f).agents = s.agents := rfl
@[simp] theorem State.modCtx_port (s : State) (c : Nat) (f : CtxSt → CtxSt) (k : Nat) : (s.modCtx c f).port k = s.port k := rfl
@[simp] theorem State.modCtx_ep (s : State) (c : Nat) (f : CtxSt → CtxSt) (k : Nat) : (s.modCtx c f).ep k = s.ep k := rfl
@[simp] theorem State.modCtx_ant (s : State) (c : Nat) (f : CtxSt → CtxSt) (k : Nat) : (s.modCtx c f).ant k = s.ant k := rfl

/-! ### `State.setAnt` -/

@[simp] theorem State.setAnt_regs (s : State) (a : Nat) (v : AntSt) : (s.setAnt a v).regs = s.regs := rfl
@[simp] theorem State.setAnt_time (s : State) (a : Nat) (v : AntSt) : (s.setAnt a v).time = s.time := rfl
@[simp] theorem State.setAnt_ports (s : State) (a : Nat) (v : AntSt) : (s.setAnt a v).ports = s.ports := rfl
@[simp] theorem State.setAnt_eps (s : State) (a : Nat) (v : AntSt) : (s.setAnt a v).eps = s.eps := rfl
@[simp] theorem State.setAnt_ctxs (s : State) (a : Nat) (v : AntSt) : (s.setAnt a v).ctxs = s.ctxs := rfl
@[simp] theorem State.setAnt_net (s : State) (a : Nat) (v : AntSt) : (s.setAnt a v).net = s.net := rfl
@[simp] theorem State.setAnt_que (s : State) (a : Nat) (v : AntSt) : (s.setAnt a v).que = s.que := rfl
@[simp] theorem State.setAnt_pool (s : State) (a : Nat) (v : AntSt) : (s.setAnt a v).pool = s.pool := rfl
@[simp] theorem State.setAnt_dma (s : State) (a : Nat) (v : AntSt) : (s.setAnt a v).dma = s.dma := rfl
@[simp] theorem State.setAnt_coll (s : State) (a : Nat) (v : AntSt) : (s.setAnt a v).coll = s.coll := rfl
@[simp] theorem State.setAnt_hawk (s : State) (a : Nat) (v : AntSt) : (s.setAnt a v).hawk = s.hawk := rfl
@[simp] theorem State.setAnt_sec (s : State) (a : Nat) (v : AntSt) : (s.setAnt a v).sec = s.sec := rfl
@[simp] theorem State.setAnt_mem (s : State) (a : Nat) (v : AntSt) : (s.setAnt a v).mem = s.mem := rfl
@[simp] theorem State.setAnt_route (s : State) (a : Nat) (v : AntSt) : (s.setAnt a v).route = s.route := rfl
@[simp] theorem State.setAnt_agent (s : State) (a : Nat) (v : AntSt) : (s.setAnt a v).agent = s.agent := rfl
@[simp] theorem State.setAnt_map (s : State) (a : Nat) (v : AntSt) : (s.setAnt a v).map = s.map := rfl
@[simp] theorem State.setAnt_mgr (s : State) (a : Nat) (v : AntSt) : (s.setAnt a v).mgr = s.mgr := rfl
@[simp] theorem State.setAnt_twin (s : State) (a : Nat) (v : AntSt) : (s.setAnt a v).twin = s.twin := rfl
@[simp] theorem State.setAnt_fw (s : State) (a : Nat) (v : AntSt) : (s.setAnt a v).fw = s.fw := rfl
@[simp] theorem State.setAnt_sil (s : State) (a : Nat) (v : AntSt) : (s.setAnt a v).sil = s.sil := rfl
@[simp] theorem State.setAnt_ants (s : State) (a : Nat) (v : AntSt) : (s.setAnt a v).ants = Store.set (fun _ => AntSt.init) s.ants a v := rfl
@[simp] theorem State.setAnt_ins (s : State) (a : Nat) (v : AntSt) : (s.setAnt a v).ins = s.ins := rfl
@[simp] theorem State.setAnt_power (s : State) (a : Nat) (v : AntSt) : (s.setAnt a v).power = s.power := rfl
@[simp] theorem State.setAnt_spares (s : State) (a : Nat) (v : AntSt) : (s.setAnt a v).spares = s.spares := rfl
@[simp] theorem State.setAnt_cocoon (s : State) (a : Nat) (v : AntSt) : (s.setAnt a v).cocoon = s.cocoon := rfl
@[simp] theorem State.setAnt_pins (s : State) (a : Nat) (v : AntSt) : (s.setAnt a v).pins = s.pins := rfl
@[simp] theorem State.setAnt_chr (s : State) (a : Nat) (v : AntSt) : (s.setAnt a v).chr = s.chr := rfl
@[simp] theorem State.setAnt_out (s : State) (a : Nat) (v : AntSt) : (s.setAnt a v).out = s.out := rfl
@[simp] theorem State.setAnt_free (s : State) (a : Nat) (v : AntSt) : (s.setAnt a v).free = s.free := rfl
@[simp] theorem State.setAnt_pending (s : State) (a : Nat) (v : AntSt) : (s.setAnt a v).pending = s.pending := rfl
@[simp] theorem State.setAnt_reg (s : State) (a : Nat) (v : AntSt) (rn : RegName) (j : Nat) : (s.setAnt a v).reg rn j = s.reg rn j := rfl
@[simp] theorem State.setAnt_fld (s : State) (a : Nat) (v : AntSt) (g : Fld) (j : Nat) : (s.setAnt a v).fld g j = s.fld g j := rfl
@[simp] theorem State.setAnt_flag (s : State) (a : Nat) (v : AntSt) (g : Fld) (j : Nat) : (s.setAnt a v).flag g j = s.flag g j := rfl
@[simp] theorem State.setAnt_ftu (s : State) (a : Nat) (v : AntSt) : (s.setAnt a v).ftu = s.ftu := rfl
@[simp] theorem State.setAnt_running (s : State) (a : Nat) (v : AntSt) : (s.setAnt a v).running = s.running := rfl
@[simp] theorem State.setAnt_isActive (s : State) (a : Nat) (v : AntSt) : (s.setAnt a v).isActive = s.isActive := rfl
@[simp] theorem State.setAnt_chip (s : State) (a : Nat) (v : AntSt) : (s.setAnt a v).chip = s.chip := rfl
@[simp] theorem State.setAnt_wb (s : State) (a : Nat) (v : AntSt) : (s.setAnt a v).wb = s.wb := rfl
@[simp] theorem State.setAnt_mgrState (s : State) (a : Nat) (v : AntSt) : (s.setAnt a v).mgrState = s.mgrState := rfl
@[simp] theorem State.setAnt_reached (s : State) (a : Nat) (v : AntSt) (b : Wb) : (s.setAnt a v).reached b = s.reached b := rfl
@[simp] theorem State.setAnt_linkState (s : State) (a : Nat) (v : AntSt) (k : Nat) : (s.setAnt a v).linkState k = s.linkState k := rfl
@[simp] theorem State.setAnt_agents (s : State) (a : Nat) (v : AntSt) : (s.setAnt a v).agents = s.agents := rfl
@[simp] theorem State.setAnt_port (s : State) (a : Nat) (v : AntSt) (k : Nat) : (s.setAnt a v).port k = s.port k := rfl
@[simp] theorem State.setAnt_ep (s : State) (a : Nat) (v : AntSt) (k : Nat) : (s.setAnt a v).ep k = s.ep k := rfl
@[simp] theorem State.setAnt_ctx (s : State) (a : Nat) (v : AntSt) (k : Nat) : (s.setAnt a v).ctx k = s.ctx k := rfl

/-! ### `State.modAnt` -/

@[simp] theorem State.modAnt_regs (s : State) (a : Nat) (f : AntSt → AntSt) : (s.modAnt a f).regs = s.regs := rfl
@[simp] theorem State.modAnt_time (s : State) (a : Nat) (f : AntSt → AntSt) : (s.modAnt a f).time = s.time := rfl
@[simp] theorem State.modAnt_ports (s : State) (a : Nat) (f : AntSt → AntSt) : (s.modAnt a f).ports = s.ports := rfl
@[simp] theorem State.modAnt_eps (s : State) (a : Nat) (f : AntSt → AntSt) : (s.modAnt a f).eps = s.eps := rfl
@[simp] theorem State.modAnt_ctxs (s : State) (a : Nat) (f : AntSt → AntSt) : (s.modAnt a f).ctxs = s.ctxs := rfl
@[simp] theorem State.modAnt_net (s : State) (a : Nat) (f : AntSt → AntSt) : (s.modAnt a f).net = s.net := rfl
@[simp] theorem State.modAnt_que (s : State) (a : Nat) (f : AntSt → AntSt) : (s.modAnt a f).que = s.que := rfl
@[simp] theorem State.modAnt_pool (s : State) (a : Nat) (f : AntSt → AntSt) : (s.modAnt a f).pool = s.pool := rfl
@[simp] theorem State.modAnt_dma (s : State) (a : Nat) (f : AntSt → AntSt) : (s.modAnt a f).dma = s.dma := rfl
@[simp] theorem State.modAnt_coll (s : State) (a : Nat) (f : AntSt → AntSt) : (s.modAnt a f).coll = s.coll := rfl
@[simp] theorem State.modAnt_hawk (s : State) (a : Nat) (f : AntSt → AntSt) : (s.modAnt a f).hawk = s.hawk := rfl
@[simp] theorem State.modAnt_sec (s : State) (a : Nat) (f : AntSt → AntSt) : (s.modAnt a f).sec = s.sec := rfl
@[simp] theorem State.modAnt_mem (s : State) (a : Nat) (f : AntSt → AntSt) : (s.modAnt a f).mem = s.mem := rfl
@[simp] theorem State.modAnt_route (s : State) (a : Nat) (f : AntSt → AntSt) : (s.modAnt a f).route = s.route := rfl
@[simp] theorem State.modAnt_agent (s : State) (a : Nat) (f : AntSt → AntSt) : (s.modAnt a f).agent = s.agent := rfl
@[simp] theorem State.modAnt_map (s : State) (a : Nat) (f : AntSt → AntSt) : (s.modAnt a f).map = s.map := rfl
@[simp] theorem State.modAnt_mgr (s : State) (a : Nat) (f : AntSt → AntSt) : (s.modAnt a f).mgr = s.mgr := rfl
@[simp] theorem State.modAnt_twin (s : State) (a : Nat) (f : AntSt → AntSt) : (s.modAnt a f).twin = s.twin := rfl
@[simp] theorem State.modAnt_fw (s : State) (a : Nat) (f : AntSt → AntSt) : (s.modAnt a f).fw = s.fw := rfl
@[simp] theorem State.modAnt_sil (s : State) (a : Nat) (f : AntSt → AntSt) : (s.modAnt a f).sil = s.sil := rfl
@[simp] theorem State.modAnt_ants (s : State) (a : Nat) (f : AntSt → AntSt) : (s.modAnt a f).ants = Store.set (fun _ => AntSt.init) s.ants a (f (s.ant a)) := rfl
@[simp] theorem State.modAnt_ins (s : State) (a : Nat) (f : AntSt → AntSt) : (s.modAnt a f).ins = s.ins := rfl
@[simp] theorem State.modAnt_power (s : State) (a : Nat) (f : AntSt → AntSt) : (s.modAnt a f).power = s.power := rfl
@[simp] theorem State.modAnt_spares (s : State) (a : Nat) (f : AntSt → AntSt) : (s.modAnt a f).spares = s.spares := rfl
@[simp] theorem State.modAnt_cocoon (s : State) (a : Nat) (f : AntSt → AntSt) : (s.modAnt a f).cocoon = s.cocoon := rfl
@[simp] theorem State.modAnt_pins (s : State) (a : Nat) (f : AntSt → AntSt) : (s.modAnt a f).pins = s.pins := rfl
@[simp] theorem State.modAnt_chr (s : State) (a : Nat) (f : AntSt → AntSt) : (s.modAnt a f).chr = s.chr := rfl
@[simp] theorem State.modAnt_out (s : State) (a : Nat) (f : AntSt → AntSt) : (s.modAnt a f).out = s.out := rfl
@[simp] theorem State.modAnt_free (s : State) (a : Nat) (f : AntSt → AntSt) : (s.modAnt a f).free = s.free := rfl
@[simp] theorem State.modAnt_pending (s : State) (a : Nat) (f : AntSt → AntSt) : (s.modAnt a f).pending = s.pending := rfl
@[simp] theorem State.modAnt_reg (s : State) (a : Nat) (f : AntSt → AntSt) (rn : RegName) (j : Nat) : (s.modAnt a f).reg rn j = s.reg rn j := rfl
@[simp] theorem State.modAnt_fld (s : State) (a : Nat) (f : AntSt → AntSt) (g : Fld) (j : Nat) : (s.modAnt a f).fld g j = s.fld g j := rfl
@[simp] theorem State.modAnt_flag (s : State) (a : Nat) (f : AntSt → AntSt) (g : Fld) (j : Nat) : (s.modAnt a f).flag g j = s.flag g j := rfl
@[simp] theorem State.modAnt_ftu (s : State) (a : Nat) (f : AntSt → AntSt) : (s.modAnt a f).ftu = s.ftu := rfl
@[simp] theorem State.modAnt_running (s : State) (a : Nat) (f : AntSt → AntSt) : (s.modAnt a f).running = s.running := rfl
@[simp] theorem State.modAnt_isActive (s : State) (a : Nat) (f : AntSt → AntSt) : (s.modAnt a f).isActive = s.isActive := rfl
@[simp] theorem State.modAnt_chip (s : State) (a : Nat) (f : AntSt → AntSt) : (s.modAnt a f).chip = s.chip := rfl
@[simp] theorem State.modAnt_wb (s : State) (a : Nat) (f : AntSt → AntSt) : (s.modAnt a f).wb = s.wb := rfl
@[simp] theorem State.modAnt_mgrState (s : State) (a : Nat) (f : AntSt → AntSt) : (s.modAnt a f).mgrState = s.mgrState := rfl
@[simp] theorem State.modAnt_reached (s : State) (a : Nat) (f : AntSt → AntSt) (b : Wb) : (s.modAnt a f).reached b = s.reached b := rfl
@[simp] theorem State.modAnt_linkState (s : State) (a : Nat) (f : AntSt → AntSt) (k : Nat) : (s.modAnt a f).linkState k = s.linkState k := rfl
@[simp] theorem State.modAnt_agents (s : State) (a : Nat) (f : AntSt → AntSt) : (s.modAnt a f).agents = s.agents := rfl
@[simp] theorem State.modAnt_port (s : State) (a : Nat) (f : AntSt → AntSt) (k : Nat) : (s.modAnt a f).port k = s.port k := rfl
@[simp] theorem State.modAnt_ep (s : State) (a : Nat) (f : AntSt → AntSt) (k : Nat) : (s.modAnt a f).ep k = s.ep k := rfl
@[simp] theorem State.modAnt_ctx (s : State) (a : Nat) (f : AntSt → AntSt) (k : Nat) : (s.modAnt a f).ctx k = s.ctx k := rfl

/-! ### `State.modSec` -/

@[simp] theorem State.modSec_regs (s : State) (f : SecSt → SecSt) : (s.modSec f).regs = s.regs := rfl
@[simp] theorem State.modSec_time (s : State) (f : SecSt → SecSt) : (s.modSec f).time = s.time := rfl
@[simp] theorem State.modSec_ports (s : State) (f : SecSt → SecSt) : (s.modSec f).ports = s.ports := rfl
@[simp] theorem State.modSec_eps (s : State) (f : SecSt → SecSt) : (s.modSec f).eps = s.eps := rfl
@[simp] theorem State.modSec_ctxs (s : State) (f : SecSt → SecSt) : (s.modSec f).ctxs = s.ctxs := rfl
@[simp] theorem State.modSec_net (s : State) (f : SecSt → SecSt) : (s.modSec f).net = s.net := rfl
@[simp] theorem State.modSec_que (s : State) (f : SecSt → SecSt) : (s.modSec f).que = s.que := rfl
@[simp] theorem State.modSec_pool (s : State) (f : SecSt → SecSt) : (s.modSec f).pool = s.pool := rfl
@[simp] theorem State.modSec_dma (s : State) (f : SecSt → SecSt) : (s.modSec f).dma = s.dma := rfl
@[simp] theorem State.modSec_coll (s : State) (f : SecSt → SecSt) : (s.modSec f).coll = s.coll := rfl
@[simp] theorem State.modSec_hawk (s : State) (f : SecSt → SecSt) : (s.modSec f).hawk = s.hawk := rfl
@[simp] theorem State.modSec_sec (s : State) (f : SecSt → SecSt) : (s.modSec f).sec = f s.sec := rfl
@[simp] theorem State.modSec_mem (s : State) (f : SecSt → SecSt) : (s.modSec f).mem = s.mem := rfl
@[simp] theorem State.modSec_route (s : State) (f : SecSt → SecSt) : (s.modSec f).route = s.route := rfl
@[simp] theorem State.modSec_agent (s : State) (f : SecSt → SecSt) : (s.modSec f).agent = s.agent := rfl
@[simp] theorem State.modSec_map (s : State) (f : SecSt → SecSt) : (s.modSec f).map = s.map := rfl
@[simp] theorem State.modSec_mgr (s : State) (f : SecSt → SecSt) : (s.modSec f).mgr = s.mgr := rfl
@[simp] theorem State.modSec_twin (s : State) (f : SecSt → SecSt) : (s.modSec f).twin = s.twin := rfl
@[simp] theorem State.modSec_fw (s : State) (f : SecSt → SecSt) : (s.modSec f).fw = s.fw := rfl
@[simp] theorem State.modSec_sil (s : State) (f : SecSt → SecSt) : (s.modSec f).sil = s.sil := rfl
@[simp] theorem State.modSec_ants (s : State) (f : SecSt → SecSt) : (s.modSec f).ants = s.ants := rfl
@[simp] theorem State.modSec_ins (s : State) (f : SecSt → SecSt) : (s.modSec f).ins = s.ins := rfl
@[simp] theorem State.modSec_power (s : State) (f : SecSt → SecSt) : (s.modSec f).power = s.power := rfl
@[simp] theorem State.modSec_spares (s : State) (f : SecSt → SecSt) : (s.modSec f).spares = s.spares := rfl
@[simp] theorem State.modSec_cocoon (s : State) (f : SecSt → SecSt) : (s.modSec f).cocoon = s.cocoon := rfl
@[simp] theorem State.modSec_pins (s : State) (f : SecSt → SecSt) : (s.modSec f).pins = s.pins := rfl
@[simp] theorem State.modSec_chr (s : State) (f : SecSt → SecSt) : (s.modSec f).chr = s.chr := rfl
@[simp] theorem State.modSec_out (s : State) (f : SecSt → SecSt) : (s.modSec f).out = s.out := rfl
@[simp] theorem State.modSec_free (s : State) (f : SecSt → SecSt) : (s.modSec f).free = s.free := rfl
@[simp] theorem State.modSec_pending (s : State) (f : SecSt → SecSt) : (s.modSec f).pending = s.pending := rfl
@[simp] theorem State.modSec_reg (s : State) (f : SecSt → SecSt) (rn : RegName) (j : Nat) : (s.modSec f).reg rn j = s.reg rn j := rfl
@[simp] theorem State.modSec_fld (s : State) (f : SecSt → SecSt) (g : Fld) (j : Nat) : (s.modSec f).fld g j = s.fld g j := rfl
@[simp] theorem State.modSec_flag (s : State) (f : SecSt → SecSt) (g : Fld) (j : Nat) : (s.modSec f).flag g j = s.flag g j := rfl
@[simp] theorem State.modSec_ftu (s : State) (f : SecSt → SecSt) : (s.modSec f).ftu = s.ftu := rfl
@[simp] theorem State.modSec_running (s : State) (f : SecSt → SecSt) : (s.modSec f).running = s.running := rfl
@[simp] theorem State.modSec_isActive (s : State) (f : SecSt → SecSt) : (s.modSec f).isActive = s.isActive := rfl
@[simp] theorem State.modSec_chip (s : State) (f : SecSt → SecSt) : (s.modSec f).chip = s.chip := rfl
@[simp] theorem State.modSec_wb (s : State) (f : SecSt → SecSt) : (s.modSec f).wb = s.wb := rfl
@[simp] theorem State.modSec_mgrState (s : State) (f : SecSt → SecSt) : (s.modSec f).mgrState = s.mgrState := rfl
@[simp] theorem State.modSec_reached (s : State) (f : SecSt → SecSt) (b : Wb) : (s.modSec f).reached b = s.reached b := rfl
@[simp] theorem State.modSec_linkState (s : State) (f : SecSt → SecSt) (k : Nat) : (s.modSec f).linkState k = s.linkState k := rfl
@[simp] theorem State.modSec_agents (s : State) (f : SecSt → SecSt) : (s.modSec f).agents = s.agents := rfl
@[simp] theorem State.modSec_port (s : State) (f : SecSt → SecSt) (k : Nat) : (s.modSec f).port k = s.port k := rfl
@[simp] theorem State.modSec_ep (s : State) (f : SecSt → SecSt) (k : Nat) : (s.modSec f).ep k = s.ep k := rfl
@[simp] theorem State.modSec_ctx (s : State) (f : SecSt → SecSt) (k : Nat) : (s.modSec f).ctx k = s.ctx k := rfl
@[simp] theorem State.modSec_ant (s : State) (f : SecSt → SecSt) (k : Nat) : (s.modSec f).ant k = s.ant k := rfl

/-! ### `State.modTwin` -/

@[simp] theorem State.modTwin_regs (s : State) (f : TwinSt → TwinSt) : (s.modTwin f).regs = s.regs := rfl
@[simp] theorem State.modTwin_time (s : State) (f : TwinSt → TwinSt) : (s.modTwin f).time = s.time := rfl
@[simp] theorem State.modTwin_ports (s : State) (f : TwinSt → TwinSt) : (s.modTwin f).ports = s.ports := rfl
@[simp] theorem State.modTwin_eps (s : State) (f : TwinSt → TwinSt) : (s.modTwin f).eps = s.eps := rfl
@[simp] theorem State.modTwin_ctxs (s : State) (f : TwinSt → TwinSt) : (s.modTwin f).ctxs = s.ctxs := rfl
@[simp] theorem State.modTwin_net (s : State) (f : TwinSt → TwinSt) : (s.modTwin f).net = s.net := rfl
@[simp] theorem State.modTwin_que (s : State) (f : TwinSt → TwinSt) : (s.modTwin f).que = s.que := rfl
@[simp] theorem State.modTwin_pool (s : State) (f : TwinSt → TwinSt) : (s.modTwin f).pool = s.pool := rfl
@[simp] theorem State.modTwin_dma (s : State) (f : TwinSt → TwinSt) : (s.modTwin f).dma = s.dma := rfl
@[simp] theorem State.modTwin_coll (s : State) (f : TwinSt → TwinSt) : (s.modTwin f).coll = s.coll := rfl
@[simp] theorem State.modTwin_hawk (s : State) (f : TwinSt → TwinSt) : (s.modTwin f).hawk = s.hawk := rfl
@[simp] theorem State.modTwin_sec (s : State) (f : TwinSt → TwinSt) : (s.modTwin f).sec = s.sec := rfl
@[simp] theorem State.modTwin_mem (s : State) (f : TwinSt → TwinSt) : (s.modTwin f).mem = s.mem := rfl
@[simp] theorem State.modTwin_route (s : State) (f : TwinSt → TwinSt) : (s.modTwin f).route = s.route := rfl
@[simp] theorem State.modTwin_agent (s : State) (f : TwinSt → TwinSt) : (s.modTwin f).agent = s.agent := rfl
@[simp] theorem State.modTwin_map (s : State) (f : TwinSt → TwinSt) : (s.modTwin f).map = s.map := rfl
@[simp] theorem State.modTwin_mgr (s : State) (f : TwinSt → TwinSt) : (s.modTwin f).mgr = s.mgr := rfl
@[simp] theorem State.modTwin_twin (s : State) (f : TwinSt → TwinSt) : (s.modTwin f).twin = f s.twin := rfl
@[simp] theorem State.modTwin_fw (s : State) (f : TwinSt → TwinSt) : (s.modTwin f).fw = s.fw := rfl
@[simp] theorem State.modTwin_sil (s : State) (f : TwinSt → TwinSt) : (s.modTwin f).sil = s.sil := rfl
@[simp] theorem State.modTwin_ants (s : State) (f : TwinSt → TwinSt) : (s.modTwin f).ants = s.ants := rfl
@[simp] theorem State.modTwin_ins (s : State) (f : TwinSt → TwinSt) : (s.modTwin f).ins = s.ins := rfl
@[simp] theorem State.modTwin_power (s : State) (f : TwinSt → TwinSt) : (s.modTwin f).power = s.power := rfl
@[simp] theorem State.modTwin_spares (s : State) (f : TwinSt → TwinSt) : (s.modTwin f).spares = s.spares := rfl
@[simp] theorem State.modTwin_cocoon (s : State) (f : TwinSt → TwinSt) : (s.modTwin f).cocoon = s.cocoon := rfl
@[simp] theorem State.modTwin_pins (s : State) (f : TwinSt → TwinSt) : (s.modTwin f).pins = s.pins := rfl
@[simp] theorem State.modTwin_chr (s : State) (f : TwinSt → TwinSt) : (s.modTwin f).chr = s.chr := rfl
@[simp] theorem State.modTwin_out (s : State) (f : TwinSt → TwinSt) : (s.modTwin f).out = s.out := rfl
@[simp] theorem State.modTwin_free (s : State) (f : TwinSt → TwinSt) : (s.modTwin f).free = s.free := rfl
@[simp] theorem State.modTwin_pending (s : State) (f : TwinSt → TwinSt) : (s.modTwin f).pending = s.pending := rfl
@[simp] theorem State.modTwin_reg (s : State) (f : TwinSt → TwinSt) (rn : RegName) (j : Nat) : (s.modTwin f).reg rn j = s.reg rn j := rfl
@[simp] theorem State.modTwin_fld (s : State) (f : TwinSt → TwinSt) (g : Fld) (j : Nat) : (s.modTwin f).fld g j = s.fld g j := rfl
@[simp] theorem State.modTwin_flag (s : State) (f : TwinSt → TwinSt) (g : Fld) (j : Nat) : (s.modTwin f).flag g j = s.flag g j := rfl
@[simp] theorem State.modTwin_ftu (s : State) (f : TwinSt → TwinSt) : (s.modTwin f).ftu = s.ftu := rfl
@[simp] theorem State.modTwin_running (s : State) (f : TwinSt → TwinSt) : (s.modTwin f).running = s.running := rfl
@[simp] theorem State.modTwin_isActive (s : State) (f : TwinSt → TwinSt) : (s.modTwin f).isActive = s.isActive := rfl
@[simp] theorem State.modTwin_chip (s : State) (f : TwinSt → TwinSt) : (s.modTwin f).chip = s.chip := rfl
@[simp] theorem State.modTwin_wb (s : State) (f : TwinSt → TwinSt) : (s.modTwin f).wb = s.wb := rfl
@[simp] theorem State.modTwin_mgrState (s : State) (f : TwinSt → TwinSt) : (s.modTwin f).mgrState = s.mgrState := rfl
@[simp] theorem State.modTwin_reached (s : State) (f : TwinSt → TwinSt) (b : Wb) : (s.modTwin f).reached b = s.reached b := rfl
@[simp] theorem State.modTwin_linkState (s : State) (f : TwinSt → TwinSt) (k : Nat) : (s.modTwin f).linkState k = s.linkState k := rfl
@[simp] theorem State.modTwin_agents (s : State) (f : TwinSt → TwinSt) : (s.modTwin f).agents = s.agents := rfl
@[simp] theorem State.modTwin_port (s : State) (f : TwinSt → TwinSt) (k : Nat) : (s.modTwin f).port k = s.port k := rfl
@[simp] theorem State.modTwin_ep (s : State) (f : TwinSt → TwinSt) (k : Nat) : (s.modTwin f).ep k = s.ep k := rfl
@[simp] theorem State.modTwin_ctx (s : State) (f : TwinSt → TwinSt) (k : Nat) : (s.modTwin f).ctx k = s.ctx k := rfl
@[simp] theorem State.modTwin_ant (s : State) (f : TwinSt → TwinSt) (k : Nat) : (s.modTwin f).ant k = s.ant k := rfl

/-! ### `State.emit` -/

@[simp] theorem State.emit_regs (s : State) (m : OutMsg) : (s.emit m).regs = s.regs := rfl
@[simp] theorem State.emit_time (s : State) (m : OutMsg) : (s.emit m).time = s.time := rfl
@[simp] theorem State.emit_ports (s : State) (m : OutMsg) : (s.emit m).ports = s.ports := rfl
@[simp] theorem State.emit_eps (s : State) (m : OutMsg) : (s.emit m).eps = s.eps := rfl
@[simp] theorem State.emit_ctxs (s : State) (m : OutMsg) : (s.emit m).ctxs = s.ctxs := rfl
@[simp] theorem State.emit_net (s : State) (m : OutMsg) : (s.emit m).net = s.net := rfl
@[simp] theorem State.emit_que (s : State) (m : OutMsg) : (s.emit m).que = s.que := rfl
@[simp] theorem State.emit_pool (s : State) (m : OutMsg) : (s.emit m).pool = s.pool := rfl
@[simp] theorem State.emit_dma (s : State) (m : OutMsg) : (s.emit m).dma = s.dma := rfl
@[simp] theorem State.emit_coll (s : State) (m : OutMsg) : (s.emit m).coll = s.coll := rfl
@[simp] theorem State.emit_hawk (s : State) (m : OutMsg) : (s.emit m).hawk = s.hawk := rfl
@[simp] theorem State.emit_sec (s : State) (m : OutMsg) : (s.emit m).sec = s.sec := rfl
@[simp] theorem State.emit_mem (s : State) (m : OutMsg) : (s.emit m).mem = s.mem := rfl
@[simp] theorem State.emit_route (s : State) (m : OutMsg) : (s.emit m).route = s.route := rfl
@[simp] theorem State.emit_agent (s : State) (m : OutMsg) : (s.emit m).agent = s.agent := rfl
@[simp] theorem State.emit_map (s : State) (m : OutMsg) : (s.emit m).map = s.map := rfl
@[simp] theorem State.emit_mgr (s : State) (m : OutMsg) : (s.emit m).mgr = s.mgr := rfl
@[simp] theorem State.emit_twin (s : State) (m : OutMsg) : (s.emit m).twin = s.twin := rfl
@[simp] theorem State.emit_fw (s : State) (m : OutMsg) : (s.emit m).fw = s.fw := rfl
@[simp] theorem State.emit_sil (s : State) (m : OutMsg) : (s.emit m).sil = s.sil := rfl
@[simp] theorem State.emit_ants (s : State) (m : OutMsg) : (s.emit m).ants = s.ants := rfl
@[simp] theorem State.emit_ins (s : State) (m : OutMsg) : (s.emit m).ins = s.ins := rfl
@[simp] theorem State.emit_power (s : State) (m : OutMsg) : (s.emit m).power = s.power := rfl
@[simp] theorem State.emit_spares (s : State) (m : OutMsg) : (s.emit m).spares = s.spares := rfl
@[simp] theorem State.emit_cocoon (s : State) (m : OutMsg) : (s.emit m).cocoon = s.cocoon := rfl
@[simp] theorem State.emit_pins (s : State) (m : OutMsg) : (s.emit m).pins = s.pins := rfl
@[simp] theorem State.emit_chr (s : State) (m : OutMsg) : (s.emit m).chr = s.chr := rfl
@[simp] theorem State.emit_out (s : State) (m : OutMsg) : (s.emit m).out = s.out ++ [m] := rfl
@[simp] theorem State.emit_free (s : State) (m : OutMsg) : (s.emit m).free = s.free := rfl
@[simp] theorem State.emit_pending (s : State) (m : OutMsg) : (s.emit m).pending = s.pending := rfl
@[simp] theorem State.emit_reg (s : State) (m : OutMsg) (rn : RegName) (j : Nat) : (s.emit m).reg rn j = s.reg rn j := rfl
@[simp] theorem State.emit_fld (s : State) (m : OutMsg) (g : Fld) (j : Nat) : (s.emit m).fld g j = s.fld g j := rfl
@[simp] theorem State.emit_flag (s : State) (m : OutMsg) (g : Fld) (j : Nat) : (s.emit m).flag g j = s.flag g j := rfl
@[simp] theorem State.emit_ftu (s : State) (m : OutMsg) : (s.emit m).ftu = s.ftu := rfl
@[simp] theorem State.emit_running (s : State) (m : OutMsg) : (s.emit m).running = s.running := rfl
@[simp] theorem State.emit_isActive (s : State) (m : OutMsg) : (s.emit m).isActive = s.isActive := rfl
@[simp] theorem State.emit_chip (s : State) (m : OutMsg) : (s.emit m).chip = s.chip := rfl
@[simp] theorem State.emit_wb (s : State) (m : OutMsg) : (s.emit m).wb = s.wb := rfl
@[simp] theorem State.emit_mgrState (s : State) (m : OutMsg) : (s.emit m).mgrState = s.mgrState := rfl
@[simp] theorem State.emit_reached (s : State) (m : OutMsg) (b : Wb) : (s.emit m).reached b = s.reached b := rfl
@[simp] theorem State.emit_linkState (s : State) (m : OutMsg) (k : Nat) : (s.emit m).linkState k = s.linkState k := rfl
@[simp] theorem State.emit_agents (s : State) (m : OutMsg) : (s.emit m).agents = s.agents := rfl
@[simp] theorem State.emit_port (s : State) (m : OutMsg) (k : Nat) : (s.emit m).port k = s.port k := rfl
@[simp] theorem State.emit_ep (s : State) (m : OutMsg) (k : Nat) : (s.emit m).ep k = s.ep k := rfl
@[simp] theorem State.emit_ctx (s : State) (m : OutMsg) (k : Nat) : (s.emit m).ctx k = s.ctx k := rfl
@[simp] theorem State.emit_ant (s : State) (m : OutMsg) (k : Nat) : (s.emit m).ant k = s.ant k := rfl

/-! ### `State.emits` -/

@[simp] theorem State.emits_regs (s : State) (ms : List OutMsg) : (s.emits ms).regs = s.regs := rfl
@[simp] theorem State.emits_time (s : State) (ms : List OutMsg) : (s.emits ms).time = s.time := rfl
@[simp] theorem State.emits_ports (s : State) (ms : List OutMsg) : (s.emits ms).ports = s.ports := rfl
@[simp] theorem State.emits_eps (s : State) (ms : List OutMsg) : (s.emits ms).eps = s.eps := rfl
@[simp] theorem State.emits_ctxs (s : State) (ms : List OutMsg) : (s.emits ms).ctxs = s.ctxs := rfl
@[simp] theorem State.emits_net (s : State) (ms : List OutMsg) : (s.emits ms).net = s.net := rfl
@[simp] theorem State.emits_que (s : State) (ms : List OutMsg) : (s.emits ms).que = s.que := rfl
@[simp] theorem State.emits_pool (s : State) (ms : List OutMsg) : (s.emits ms).pool = s.pool := rfl
@[simp] theorem State.emits_dma (s : State) (ms : List OutMsg) : (s.emits ms).dma = s.dma := rfl
@[simp] theorem State.emits_coll (s : State) (ms : List OutMsg) : (s.emits ms).coll = s.coll := rfl
@[simp] theorem State.emits_hawk (s : State) (ms : List OutMsg) : (s.emits ms).hawk = s.hawk := rfl
@[simp] theorem State.emits_sec (s : State) (ms : List OutMsg) : (s.emits ms).sec = s.sec := rfl
@[simp] theorem State.emits_mem (s : State) (ms : List OutMsg) : (s.emits ms).mem = s.mem := rfl
@[simp] theorem State.emits_route (s : State) (ms : List OutMsg) : (s.emits ms).route = s.route := rfl
@[simp] theorem State.emits_agent (s : State) (ms : List OutMsg) : (s.emits ms).agent = s.agent := rfl
@[simp] theorem State.emits_map (s : State) (ms : List OutMsg) : (s.emits ms).map = s.map := rfl
@[simp] theorem State.emits_mgr (s : State) (ms : List OutMsg) : (s.emits ms).mgr = s.mgr := rfl
@[simp] theorem State.emits_twin (s : State) (ms : List OutMsg) : (s.emits ms).twin = s.twin := rfl
@[simp] theorem State.emits_fw (s : State) (ms : List OutMsg) : (s.emits ms).fw = s.fw := rfl
@[simp] theorem State.emits_sil (s : State) (ms : List OutMsg) : (s.emits ms).sil = s.sil := rfl
@[simp] theorem State.emits_ants (s : State) (ms : List OutMsg) : (s.emits ms).ants = s.ants := rfl
@[simp] theorem State.emits_ins (s : State) (ms : List OutMsg) : (s.emits ms).ins = s.ins := rfl
@[simp] theorem State.emits_power (s : State) (ms : List OutMsg) : (s.emits ms).power = s.power := rfl
@[simp] theorem State.emits_spares (s : State) (ms : List OutMsg) : (s.emits ms).spares = s.spares := rfl
@[simp] theorem State.emits_cocoon (s : State) (ms : List OutMsg) : (s.emits ms).cocoon = s.cocoon := rfl
@[simp] theorem State.emits_pins (s : State) (ms : List OutMsg) : (s.emits ms).pins = s.pins := rfl
@[simp] theorem State.emits_chr (s : State) (ms : List OutMsg) : (s.emits ms).chr = s.chr := rfl
@[simp] theorem State.emits_out (s : State) (ms : List OutMsg) : (s.emits ms).out = s.out ++ ms := rfl
@[simp] theorem State.emits_free (s : State) (ms : List OutMsg) : (s.emits ms).free = s.free := rfl
@[simp] theorem State.emits_pending (s : State) (ms : List OutMsg) : (s.emits ms).pending = s.pending := rfl
@[simp] theorem State.emits_reg (s : State) (ms : List OutMsg) (rn : RegName) (j : Nat) : (s.emits ms).reg rn j = s.reg rn j := rfl
@[simp] theorem State.emits_fld (s : State) (ms : List OutMsg) (g : Fld) (j : Nat) : (s.emits ms).fld g j = s.fld g j := rfl
@[simp] theorem State.emits_flag (s : State) (ms : List OutMsg) (g : Fld) (j : Nat) : (s.emits ms).flag g j = s.flag g j := rfl
@[simp] theorem State.emits_ftu (s : State) (ms : List OutMsg) : (s.emits ms).ftu = s.ftu := rfl
@[simp] theorem State.emits_running (s : State) (ms : List OutMsg) : (s.emits ms).running = s.running := rfl
@[simp] theorem State.emits_isActive (s : State) (ms : List OutMsg) : (s.emits ms).isActive = s.isActive := rfl
@[simp] theorem State.emits_chip (s : State) (ms : List OutMsg) : (s.emits ms).chip = s.chip := rfl
@[simp] theorem State.emits_wb (s : State) (ms : List OutMsg) : (s.emits ms).wb = s.wb := rfl
@[simp] theorem State.emits_mgrState (s : State) (ms : List OutMsg) : (s.emits ms).mgrState = s.mgrState := rfl
@[simp] theorem State.emits_reached (s : State) (ms : List OutMsg) (b : Wb) : (s.emits ms).reached b = s.reached b := rfl
@[simp] theorem State.emits_linkState (s : State) (ms : List OutMsg) (k : Nat) : (s.emits ms).linkState k = s.linkState k := rfl
@[simp] theorem State.emits_agents (s : State) (ms : List OutMsg) : (s.emits ms).agents = s.agents := rfl
@[simp] theorem State.emits_port (s : State) (ms : List OutMsg) (k : Nat) : (s.emits ms).port k = s.port k := rfl
@[simp] theorem State.emits_ep (s : State) (ms : List OutMsg) (k : Nat) : (s.emits ms).ep k = s.ep k := rfl
@[simp] theorem State.emits_ctx (s : State) (ms : List OutMsg) (k : Nat) : (s.emits ms).ctx k = s.ctx k := rfl
@[simp] theorem State.emits_ant (s : State) (ms : List OutMsg) (k : Nat) : (s.emits ms).ant k = s.ant k := rfl

/-! ### `State.sendMgmt` -/

@[simp] theorem State.sendMgmt_regs (s : State) (dst : Nat) (m : Mgmt) : (s.sendMgmt dst m).regs = s.regs := rfl
@[simp] theorem State.sendMgmt_time (s : State) (dst : Nat) (m : Mgmt) : (s.sendMgmt dst m).time = s.time := rfl
@[simp] theorem State.sendMgmt_ports (s : State) (dst : Nat) (m : Mgmt) : (s.sendMgmt dst m).ports = s.ports := rfl
@[simp] theorem State.sendMgmt_eps (s : State) (dst : Nat) (m : Mgmt) : (s.sendMgmt dst m).eps = s.eps := rfl
@[simp] theorem State.sendMgmt_ctxs (s : State) (dst : Nat) (m : Mgmt) : (s.sendMgmt dst m).ctxs = s.ctxs := rfl
@[simp] theorem State.sendMgmt_net (s : State) (dst : Nat) (m : Mgmt) : (s.sendMgmt dst m).net = s.net := rfl
@[simp] theorem State.sendMgmt_que (s : State) (dst : Nat) (m : Mgmt) : (s.sendMgmt dst m).que = s.que := rfl
@[simp] theorem State.sendMgmt_pool (s : State) (dst : Nat) (m : Mgmt) : (s.sendMgmt dst m).pool = s.pool := rfl
@[simp] theorem State.sendMgmt_dma (s : State) (dst : Nat) (m : Mgmt) : (s.sendMgmt dst m).dma = s.dma := rfl
@[simp] theorem State.sendMgmt_coll (s : State) (dst : Nat) (m : Mgmt) : (s.sendMgmt dst m).coll = s.coll := rfl
@[simp] theorem State.sendMgmt_hawk (s : State) (dst : Nat) (m : Mgmt) : (s.sendMgmt dst m).hawk = s.hawk := rfl
@[simp] theorem State.sendMgmt_sec (s : State) (dst : Nat) (m : Mgmt) : (s.sendMgmt dst m).sec = s.sec := rfl
@[simp] theorem State.sendMgmt_mem (s : State) (dst : Nat) (m : Mgmt) : (s.sendMgmt dst m).mem = s.mem := rfl
@[simp] theorem State.sendMgmt_route (s : State) (dst : Nat) (m : Mgmt) : (s.sendMgmt dst m).route = s.route := rfl
@[simp] theorem State.sendMgmt_map (s : State) (dst : Nat) (m : Mgmt) : (s.sendMgmt dst m).map = s.map := rfl
@[simp] theorem State.sendMgmt_mgr (s : State) (dst : Nat) (m : Mgmt) : (s.sendMgmt dst m).mgr = s.mgr := rfl
@[simp] theorem State.sendMgmt_twin (s : State) (dst : Nat) (m : Mgmt) : (s.sendMgmt dst m).twin = s.twin := rfl
@[simp] theorem State.sendMgmt_fw (s : State) (dst : Nat) (m : Mgmt) : (s.sendMgmt dst m).fw = s.fw := rfl
@[simp] theorem State.sendMgmt_sil (s : State) (dst : Nat) (m : Mgmt) : (s.sendMgmt dst m).sil = s.sil := rfl
@[simp] theorem State.sendMgmt_ants (s : State) (dst : Nat) (m : Mgmt) : (s.sendMgmt dst m).ants = s.ants := rfl
@[simp] theorem State.sendMgmt_ins (s : State) (dst : Nat) (m : Mgmt) : (s.sendMgmt dst m).ins = s.ins := rfl
@[simp] theorem State.sendMgmt_power (s : State) (dst : Nat) (m : Mgmt) : (s.sendMgmt dst m).power = s.power := rfl
@[simp] theorem State.sendMgmt_spares (s : State) (dst : Nat) (m : Mgmt) : (s.sendMgmt dst m).spares = s.spares := rfl
@[simp] theorem State.sendMgmt_cocoon (s : State) (dst : Nat) (m : Mgmt) : (s.sendMgmt dst m).cocoon = s.cocoon := rfl
@[simp] theorem State.sendMgmt_pins (s : State) (dst : Nat) (m : Mgmt) : (s.sendMgmt dst m).pins = s.pins := rfl
@[simp] theorem State.sendMgmt_chr (s : State) (dst : Nat) (m : Mgmt) : (s.sendMgmt dst m).chr = s.chr := rfl
@[simp] theorem State.sendMgmt_out (s : State) (dst : Nat) (m : Mgmt) : (s.sendMgmt dst m).out = s.out ++ [.mgmt dst s.mgrEpoch s.agent.nextSeq m] := rfl
@[simp] theorem State.sendMgmt_free (s : State) (dst : Nat) (m : Mgmt) : (s.sendMgmt dst m).free = s.free := rfl
@[simp] theorem State.sendMgmt_pending (s : State) (dst : Nat) (m : Mgmt) : (s.sendMgmt dst m).pending = s.pending := rfl
@[simp] theorem State.sendMgmt_reg (s : State) (dst : Nat) (m : Mgmt) (rn : RegName) (j : Nat) : (s.sendMgmt dst m).reg rn j = s.reg rn j := rfl
@[simp] theorem State.sendMgmt_fld (s : State) (dst : Nat) (m : Mgmt) (g : Fld) (j : Nat) : (s.sendMgmt dst m).fld g j = s.fld g j := rfl
@[simp] theorem State.sendMgmt_flag (s : State) (dst : Nat) (m : Mgmt) (g : Fld) (j : Nat) : (s.sendMgmt dst m).flag g j = s.flag g j := rfl
@[simp] theorem State.sendMgmt_ftu (s : State) (dst : Nat) (m : Mgmt) : (s.sendMgmt dst m).ftu = s.ftu := rfl
@[simp] theorem State.sendMgmt_running (s : State) (dst : Nat) (m : Mgmt) : (s.sendMgmt dst m).running = s.running := rfl
@[simp] theorem State.sendMgmt_isActive (s : State) (dst : Nat) (m : Mgmt) : (s.sendMgmt dst m).isActive = s.isActive := rfl
@[simp] theorem State.sendMgmt_chip (s : State) (dst : Nat) (m : Mgmt) : (s.sendMgmt dst m).chip = s.chip := rfl
@[simp] theorem State.sendMgmt_wb (s : State) (dst : Nat) (m : Mgmt) : (s.sendMgmt dst m).wb = s.wb := rfl
@[simp] theorem State.sendMgmt_mgrState (s : State) (dst : Nat) (m : Mgmt) : (s.sendMgmt dst m).mgrState = s.mgrState := rfl
@[simp] theorem State.sendMgmt_reached (s : State) (dst : Nat) (m : Mgmt) (b : Wb) : (s.sendMgmt dst m).reached b = s.reached b := rfl
@[simp] theorem State.sendMgmt_linkState (s : State) (dst : Nat) (m : Mgmt) (k : Nat) : (s.sendMgmt dst m).linkState k = s.linkState k := rfl
@[simp] theorem State.sendMgmt_agents (s : State) (dst : Nat) (m : Mgmt) : (s.sendMgmt dst m).agents = s.agents := rfl
@[simp] theorem State.sendMgmt_port (s : State) (dst : Nat) (m : Mgmt) (k : Nat) : (s.sendMgmt dst m).port k = s.port k := rfl
@[simp] theorem State.sendMgmt_ep (s : State) (dst : Nat) (m : Mgmt) (k : Nat) : (s.sendMgmt dst m).ep k = s.ep k := rfl
@[simp] theorem State.sendMgmt_ctx (s : State) (dst : Nat) (m : Mgmt) (k : Nat) : (s.sendMgmt dst m).ctx k = s.ctx k := rfl
@[simp] theorem State.sendMgmt_ant (s : State) (dst : Nat) (m : Mgmt) (k : Nat) : (s.sendMgmt dst m).ant k = s.ant k := rfl

/-! ### `State.noteSeen` -/

@[simp] theorem State.noteSeen_regs (s : State) (h : MsgHdr) : (s.noteSeen h).regs = s.regs := rfl
@[simp] theorem State.noteSeen_time (s : State) (h : MsgHdr) : (s.noteSeen h).time = s.time := rfl
@[simp] theorem State.noteSeen_ports (s : State) (h : MsgHdr) : (s.noteSeen h).ports = s.ports := rfl
@[simp] theorem State.noteSeen_eps (s : State) (h : MsgHdr) : (s.noteSeen h).eps = s.eps := rfl
@[simp] theorem State.noteSeen_ctxs (s : State) (h : MsgHdr) : (s.noteSeen h).ctxs = s.ctxs := rfl
@[simp] theorem State.noteSeen_net (s : State) (h : MsgHdr) : (s.noteSeen h).net = s.net := rfl
@[simp] theorem State.noteSeen_que (s : State) (h : MsgHdr) : (s.noteSeen h).que = s.que := rfl
@[simp] theorem State.noteSeen_pool (s : State) (h : MsgHdr) : (s.noteSeen h).pool = s.pool := rfl
@[simp] theorem State.noteSeen_dma (s : State) (h : MsgHdr) : (s.noteSeen h).dma = s.dma := rfl
@[simp] theorem State.noteSeen_coll (s : State) (h : MsgHdr) : (s.noteSeen h).coll = s.coll := rfl
@[simp] theorem State.noteSeen_hawk (s : State) (h : MsgHdr) : (s.noteSeen h).hawk = s.hawk := rfl
@[simp] theorem State.noteSeen_sec (s : State) (h : MsgHdr) : (s.noteSeen h).sec = s.sec := rfl
@[simp] theorem State.noteSeen_mem (s : State) (h : MsgHdr) : (s.noteSeen h).mem = s.mem := rfl
@[simp] theorem State.noteSeen_route (s : State) (h : MsgHdr) : (s.noteSeen h).route = s.route := rfl
@[simp] theorem State.noteSeen_map (s : State) (h : MsgHdr) : (s.noteSeen h).map = s.map := rfl
@[simp] theorem State.noteSeen_mgr (s : State) (h : MsgHdr) : (s.noteSeen h).mgr = s.mgr := rfl
@[simp] theorem State.noteSeen_twin (s : State) (h : MsgHdr) : (s.noteSeen h).twin = s.twin := rfl
@[simp] theorem State.noteSeen_fw (s : State) (h : MsgHdr) : (s.noteSeen h).fw = s.fw := rfl
@[simp] theorem State.noteSeen_sil (s : State) (h : MsgHdr) : (s.noteSeen h).sil = s.sil := rfl
@[simp] theorem State.noteSeen_ants (s : State) (h : MsgHdr) : (s.noteSeen h).ants = s.ants := rfl
@[simp] theorem State.noteSeen_ins (s : State) (h : MsgHdr) : (s.noteSeen h).ins = s.ins := rfl
@[simp] theorem State.noteSeen_power (s : State) (h : MsgHdr) : (s.noteSeen h).power = s.power := rfl
@[simp] theorem State.noteSeen_spares (s : State) (h : MsgHdr) : (s.noteSeen h).spares = s.spares := rfl
@[simp] theorem State.noteSeen_cocoon (s : State) (h : MsgHdr) : (s.noteSeen h).cocoon = s.cocoon := rfl
@[simp] theorem State.noteSeen_pins (s : State) (h : MsgHdr) : (s.noteSeen h).pins = s.pins := rfl
@[simp] theorem State.noteSeen_chr (s : State) (h : MsgHdr) : (s.noteSeen h).chr = s.chr := rfl
@[simp] theorem State.noteSeen_out (s : State) (h : MsgHdr) : (s.noteSeen h).out = s.out := rfl
@[simp] theorem State.noteSeen_free (s : State) (h : MsgHdr) : (s.noteSeen h).free = s.free := rfl
@[simp] theorem State.noteSeen_pending (s : State) (h : MsgHdr) : (s.noteSeen h).pending = s.pending := rfl
@[simp] theorem State.noteSeen_reg (s : State) (h : MsgHdr) (rn : RegName) (j : Nat) : (s.noteSeen h).reg rn j = s.reg rn j := rfl
@[simp] theorem State.noteSeen_fld (s : State) (h : MsgHdr) (g : Fld) (j : Nat) : (s.noteSeen h).fld g j = s.fld g j := rfl
@[simp] theorem State.noteSeen_flag (s : State) (h : MsgHdr) (g : Fld) (j : Nat) : (s.noteSeen h).flag g j = s.flag g j := rfl
@[simp] theorem State.noteSeen_ftu (s : State) (h : MsgHdr) : (s.noteSeen h).ftu = s.ftu := rfl
@[simp] theorem State.noteSeen_running (s : State) (h : MsgHdr) : (s.noteSeen h).running = s.running := rfl
@[simp] theorem State.noteSeen_isActive (s : State) (h : MsgHdr) : (s.noteSeen h).isActive = s.isActive := rfl
@[simp] theorem State.noteSeen_chip (s : State) (h : MsgHdr) : (s.noteSeen h).chip = s.chip := rfl
@[simp] theorem State.noteSeen_wb (s : State) (h : MsgHdr) : (s.noteSeen h).wb = s.wb := rfl
@[simp] theorem State.noteSeen_mgrState (s : State) (h : MsgHdr) : (s.noteSeen h).mgrState = s.mgrState := rfl
@[simp] theorem State.noteSeen_reached (s : State) (h : MsgHdr) (b : Wb) : (s.noteSeen h).reached b = s.reached b := rfl
@[simp] theorem State.noteSeen_linkState (s : State) (h : MsgHdr) (k : Nat) : (s.noteSeen h).linkState k = s.linkState k := rfl
@[simp] theorem State.noteSeen_agents (s : State) (h : MsgHdr) : (s.noteSeen h).agents = s.agents := rfl
@[simp] theorem State.noteSeen_port (s : State) (h : MsgHdr) (k : Nat) : (s.noteSeen h).port k = s.port k := rfl
@[simp] theorem State.noteSeen_ep (s : State) (h : MsgHdr) (k : Nat) : (s.noteSeen h).ep k = s.ep k := rfl
@[simp] theorem State.noteSeen_ctx (s : State) (h : MsgHdr) (k : Nat) : (s.noteSeen h).ctx k = s.ctx k := rfl
@[simp] theorem State.noteSeen_ant (s : State) (h : MsgHdr) (k : Nat) : (s.noteSeen h).ant k = s.ant k := rfl

/-! ### `State.finishFw` -/

@[simp] theorem State.finishFw_regs (s : State) (r : FwRef) (code value : Nat) (block : List Byte) : (s.finishFw r code value block).regs = s.regs := rfl
@[simp] theorem State.finishFw_time (s : State) (r : FwRef) (code value : Nat) (block : List Byte) : (s.finishFw r code value block).time = s.time := rfl
@[simp] theorem State.finishFw_ports (s : State) (r : FwRef) (code value : Nat) (block : List Byte) : (s.finishFw r code value block).ports = s.ports := rfl
@[simp] theorem State.finishFw_eps (s : State) (r : FwRef) (code value : Nat) (block : List Byte) : (s.finishFw r code value block).eps = s.eps := rfl
@[simp] theorem State.finishFw_ctxs (s : State) (r : FwRef) (code value : Nat) (block : List Byte) : (s.finishFw r code value block).ctxs = s.ctxs := rfl
@[simp] theorem State.finishFw_net (s : State) (r : FwRef) (code value : Nat) (block : List Byte) : (s.finishFw r code value block).net = s.net := rfl
@[simp] theorem State.finishFw_que (s : State) (r : FwRef) (code value : Nat) (block : List Byte) : (s.finishFw r code value block).que = s.que := rfl
@[simp] theorem State.finishFw_pool (s : State) (r : FwRef) (code value : Nat) (block : List Byte) : (s.finishFw r code value block).pool = s.pool := rfl
@[simp] theorem State.finishFw_dma (s : State) (r : FwRef) (code value : Nat) (block : List Byte) : (s.finishFw r code value block).dma = s.dma := rfl
@[simp] theorem State.finishFw_coll (s : State) (r : FwRef) (code value : Nat) (block : List Byte) : (s.finishFw r code value block).coll = s.coll := rfl
@[simp] theorem State.finishFw_hawk (s : State) (r : FwRef) (code value : Nat) (block : List Byte) : (s.finishFw r code value block).hawk = s.hawk := rfl
@[simp] theorem State.finishFw_sec (s : State) (r : FwRef) (code value : Nat) (block : List Byte) : (s.finishFw r code value block).sec = s.sec := rfl
@[simp] theorem State.finishFw_mem (s : State) (r : FwRef) (code value : Nat) (block : List Byte) : (s.finishFw r code value block).mem = s.mem := rfl
@[simp] theorem State.finishFw_route (s : State) (r : FwRef) (code value : Nat) (block : List Byte) : (s.finishFw r code value block).route = s.route := rfl
@[simp] theorem State.finishFw_agent (s : State) (r : FwRef) (code value : Nat) (block : List Byte) : (s.finishFw r code value block).agent = s.agent := rfl
@[simp] theorem State.finishFw_map (s : State) (r : FwRef) (code value : Nat) (block : List Byte) : (s.finishFw r code value block).map = s.map := rfl
@[simp] theorem State.finishFw_mgr (s : State) (r : FwRef) (code value : Nat) (block : List Byte) : (s.finishFw r code value block).mgr = s.mgr := rfl
@[simp] theorem State.finishFw_sil (s : State) (r : FwRef) (code value : Nat) (block : List Byte) : (s.finishFw r code value block).sil = s.sil := rfl
@[simp] theorem State.finishFw_ants (s : State) (r : FwRef) (code value : Nat) (block : List Byte) : (s.finishFw r code value block).ants = s.ants := rfl
@[simp] theorem State.finishFw_ins (s : State) (r : FwRef) (code value : Nat) (block : List Byte) : (s.finishFw r code value block).ins = s.ins := rfl
@[simp] theorem State.finishFw_power (s : State) (r : FwRef) (code value : Nat) (block : List Byte) : (s.finishFw r code value block).power = s.power := rfl
@[simp] theorem State.finishFw_spares (s : State) (r : FwRef) (code value : Nat) (block : List Byte) : (s.finishFw r code value block).spares = s.spares := rfl
@[simp] theorem State.finishFw_cocoon (s : State) (r : FwRef) (code value : Nat) (block : List Byte) : (s.finishFw r code value block).cocoon = s.cocoon := rfl
@[simp] theorem State.finishFw_pins (s : State) (r : FwRef) (code value : Nat) (block : List Byte) : (s.finishFw r code value block).pins = s.pins := rfl
@[simp] theorem State.finishFw_chr (s : State) (r : FwRef) (code value : Nat) (block : List Byte) : (s.finishFw r code value block).chr = s.chr := rfl
@[simp] theorem State.finishFw_out (s : State) (r : FwRef) (code value : Nat) (block : List Byte) : (s.finishFw r code value block).out = s.out := rfl
@[simp] theorem State.finishFw_free (s : State) (r : FwRef) (code value : Nat) (block : List Byte) : (s.finishFw r code value block).free = s.free := rfl
@[simp] theorem State.finishFw_pending (s : State) (r : FwRef) (code value : Nat) (block : List Byte) : (s.finishFw r code value block).pending = s.pending := rfl
@[simp] theorem State.finishFw_reg (s : State) (r : FwRef) (code value : Nat) (block : List Byte) (rn : RegName) (j : Nat) : (s.finishFw r code value block).reg rn j = s.reg rn j := rfl
@[simp] theorem State.finishFw_fld (s : State) (r : FwRef) (code value : Nat) (block : List Byte) (g : Fld) (j : Nat) : (s.finishFw r code value block).fld g j = s.fld g j := rfl
@[simp] theorem State.finishFw_flag (s : State) (r : FwRef) (code value : Nat) (block : List Byte) (g : Fld) (j : Nat) : (s.finishFw r code value block).flag g j = s.flag g j := rfl
@[simp] theorem State.finishFw_ftu (s : State) (r : FwRef) (code value : Nat) (block : List Byte) : (s.finishFw r code value block).ftu = s.ftu := rfl
@[simp] theorem State.finishFw_running (s : State) (r : FwRef) (code value : Nat) (block : List Byte) : (s.finishFw r code value block).running = s.running := rfl
@[simp] theorem State.finishFw_isActive (s : State) (r : FwRef) (code value : Nat) (block : List Byte) : (s.finishFw r code value block).isActive = s.isActive := rfl
@[simp] theorem State.finishFw_chip (s : State) (r : FwRef) (code value : Nat) (block : List Byte) : (s.finishFw r code value block).chip = s.chip := rfl
@[simp] theorem State.finishFw_wb (s : State) (r : FwRef) (code value : Nat) (block : List Byte) : (s.finishFw r code value block).wb = s.wb := rfl
@[simp] theorem State.finishFw_mgrState (s : State) (r : FwRef) (code value : Nat) (block : List Byte) : (s.finishFw r code value block).mgrState = s.mgrState := rfl
@[simp] theorem State.finishFw_reached (s : State) (r : FwRef) (code value : Nat) (block : List Byte) (b : Wb) : (s.finishFw r code value block).reached b = s.reached b := rfl
@[simp] theorem State.finishFw_linkState (s : State) (r : FwRef) (code value : Nat) (block : List Byte) (k : Nat) : (s.finishFw r code value block).linkState k = s.linkState k := rfl
@[simp] theorem State.finishFw_agents (s : State) (r : FwRef) (code value : Nat) (block : List Byte) : (s.finishFw r code value block).agents = s.agents := rfl
@[simp] theorem State.finishFw_port (s : State) (r : FwRef) (code value : Nat) (block : List Byte) (k : Nat) : (s.finishFw r code value block).port k = s.port k := rfl
@[simp] theorem State.finishFw_ep (s : State) (r : FwRef) (code value : Nat) (block : List Byte) (k : Nat) : (s.finishFw r code value block).ep k = s.ep k := rfl
@[simp] theorem State.finishFw_ctx (s : State) (r : FwRef) (code value : Nat) (block : List Byte) (k : Nat) : (s.finishFw r code value block).ctx k = s.ctx k := rfl
@[simp] theorem State.finishFw_ant (s : State) (r : FwRef) (code value : Nat) (block : List Byte) (k : Nat) : (s.finishFw r code value block).ant k = s.ant k := rfl

/-! ### `State.modRun` -/

@[simp] theorem State.modRun_regs (s : State) (q i : Nat) (f : RunCmd → RunCmd) : (s.modRun q i f).regs = s.regs := rfl
@[simp] theorem State.modRun_time (s : State) (q i : Nat) (f : RunCmd → RunCmd) : (s.modRun q i f).time = s.time := rfl
@[simp] theorem State.modRun_ports (s : State) (q i : Nat) (f : RunCmd → RunCmd) : (s.modRun q i f).ports = s.ports := rfl
@[simp] theorem State.modRun_eps (s : State) (q i : Nat) (f : RunCmd → RunCmd) : (s.modRun q i f).eps = s.eps := rfl
@[simp] theorem State.modRun_ctxs (s : State) (q i : Nat) (f : RunCmd → RunCmd) : (s.modRun q i f).ctxs = s.ctxs := rfl
@[simp] theorem State.modRun_net (s : State) (q i : Nat) (f : RunCmd → RunCmd) : (s.modRun q i f).net = s.net := rfl
@[simp] theorem State.modRun_pool (s : State) (q i : Nat) (f : RunCmd → RunCmd) : (s.modRun q i f).pool = s.pool := rfl
@[simp] theorem State.modRun_dma (s : State) (q i : Nat) (f : RunCmd → RunCmd) : (s.modRun q i f).dma = s.dma := rfl
@[simp] theorem State.modRun_coll (s : State) (q i : Nat) (f : RunCmd → RunCmd) : (s.modRun q i f).coll = s.coll := rfl
@[simp] theorem State.modRun_hawk (s : State) (q i : Nat) (f : RunCmd → RunCmd) : (s.modRun q i f).hawk = s.hawk := rfl
@[simp] theorem State.modRun_sec (s : State) (q i : Nat) (f : RunCmd → RunCmd) : (s.modRun q i f).sec = s.sec := rfl
@[simp] theorem State.modRun_mem (s : State) (q i : Nat) (f : RunCmd → RunCmd) : (s.modRun q i f).mem = s.mem := rfl
@[simp] theorem State.modRun_route (s : State) (q i : Nat) (f : RunCmd → RunCmd) : (s.modRun q i f).route = s.route := rfl
@[simp] theorem State.modRun_agent (s : State) (q i : Nat) (f : RunCmd → RunCmd) : (s.modRun q i f).agent = s.agent := rfl
@[simp] theorem State.modRun_map (s : State) (q i : Nat) (f : RunCmd → RunCmd) : (s.modRun q i f).map = s.map := rfl
@[simp] theorem State.modRun_mgr (s : State) (q i : Nat) (f : RunCmd → RunCmd) : (s.modRun q i f).mgr = s.mgr := rfl
@[simp] theorem State.modRun_twin (s : State) (q i : Nat) (f : RunCmd → RunCmd) : (s.modRun q i f).twin = s.twin := rfl
@[simp] theorem State.modRun_fw (s : State) (q i : Nat) (f : RunCmd → RunCmd) : (s.modRun q i f).fw = s.fw := rfl
@[simp] theorem State.modRun_sil (s : State) (q i : Nat) (f : RunCmd → RunCmd) : (s.modRun q i f).sil = s.sil := rfl
@[simp] theorem State.modRun_ants (s : State) (q i : Nat) (f : RunCmd → RunCmd) : (s.modRun q i f).ants = s.ants := rfl
@[simp] theorem State.modRun_ins (s : State) (q i : Nat) (f : RunCmd → RunCmd) : (s.modRun q i f).ins = s.ins := rfl
@[simp] theorem State.modRun_power (s : State) (q i : Nat) (f : RunCmd → RunCmd) : (s.modRun q i f).power = s.power := rfl
@[simp] theorem State.modRun_spares (s : State) (q i : Nat) (f : RunCmd → RunCmd) : (s.modRun q i f).spares = s.spares := rfl
@[simp] theorem State.modRun_cocoon (s : State) (q i : Nat) (f : RunCmd → RunCmd) : (s.modRun q i f).cocoon = s.cocoon := rfl
@[simp] theorem State.modRun_pins (s : State) (q i : Nat) (f : RunCmd → RunCmd) : (s.modRun q i f).pins = s.pins := rfl
@[simp] theorem State.modRun_chr (s : State) (q i : Nat) (f : RunCmd → RunCmd) : (s.modRun q i f).chr = s.chr := rfl
@[simp] theorem State.modRun_out (s : State) (q i : Nat) (f : RunCmd → RunCmd) : (s.modRun q i f).out = s.out := rfl
@[simp] theorem State.modRun_free (s : State) (q i : Nat) (f : RunCmd → RunCmd) : (s.modRun q i f).free = s.free := rfl
@[simp] theorem State.modRun_pending (s : State) (q i : Nat) (f : RunCmd → RunCmd) : (s.modRun q i f).pending = s.pending := rfl
@[simp] theorem State.modRun_reg (s : State) (q i : Nat) (f : RunCmd → RunCmd) (rn : RegName) (j : Nat) : (s.modRun q i f).reg rn j = s.reg rn j := rfl
@[simp] theorem State.modRun_fld (s : State) (q i : Nat) (f : RunCmd → RunCmd) (g : Fld) (j : Nat) : (s.modRun q i f).fld g j = s.fld g j := rfl
@[simp] theorem State.modRun_flag (s : State) (q i : Nat) (f : RunCmd → RunCmd) (g : Fld) (j : Nat) : (s.modRun q i f).flag g j = s.flag g j := rfl
@[simp] theorem State.modRun_ftu (s : State) (q i : Nat) (f : RunCmd → RunCmd) : (s.modRun q i f).ftu = s.ftu := rfl
@[simp] theorem State.modRun_running (s : State) (q i : Nat) (f : RunCmd → RunCmd) : (s.modRun q i f).running = s.running := rfl
@[simp] theorem State.modRun_isActive (s : State) (q i : Nat) (f : RunCmd → RunCmd) : (s.modRun q i f).isActive = s.isActive := rfl
@[simp] theorem State.modRun_chip (s : State) (q i : Nat) (f : RunCmd → RunCmd) : (s.modRun q i f).chip = s.chip := rfl
@[simp] theorem State.modRun_wb (s : State) (q i : Nat) (f : RunCmd → RunCmd) : (s.modRun q i f).wb = s.wb := rfl
@[simp] theorem State.modRun_mgrState (s : State) (q i : Nat) (f : RunCmd → RunCmd) : (s.modRun q i f).mgrState = s.mgrState := rfl
@[simp] theorem State.modRun_reached (s : State) (q i : Nat) (f : RunCmd → RunCmd) (b : Wb) : (s.modRun q i f).reached b = s.reached b := rfl
@[simp] theorem State.modRun_linkState (s : State) (q i : Nat) (f : RunCmd → RunCmd) (k : Nat) : (s.modRun q i f).linkState k = s.linkState k := rfl
@[simp] theorem State.modRun_agents (s : State) (q i : Nat) (f : RunCmd → RunCmd) : (s.modRun q i f).agents = s.agents := rfl
@[simp] theorem State.modRun_port (s : State) (q i : Nat) (f : RunCmd → RunCmd) (k : Nat) : (s.modRun q i f).port k = s.port k := rfl
@[simp] theorem State.modRun_ep (s : State) (q i : Nat) (f : RunCmd → RunCmd) (k : Nat) : (s.modRun q i f).ep k = s.ep k := rfl
@[simp] theorem State.modRun_ctx (s : State) (q i : Nat) (f : RunCmd → RunCmd) (k : Nat) : (s.modRun q i f).ctx k = s.ctx k := rfl
@[simp] theorem State.modRun_ant (s : State) (q i : Nat) (f : RunCmd → RunCmd) (k : Nat) : (s.modRun q i f).ant k = s.ant k := rfl

/-! ### `State.endCmd` -/

@[simp] theorem State.endCmd_regs (s : State) (q i st extent : Nat) : (s.endCmd q i st extent).regs = s.regs := rfl
@[simp] theorem State.endCmd_time (s : State) (q i st extent : Nat) : (s.endCmd q i st extent).time = s.time := rfl
@[simp] theorem State.endCmd_ports (s : State) (q i st extent : Nat) : (s.endCmd q i st extent).ports = s.ports := rfl
@[simp] theorem State.endCmd_eps (s : State) (q i st extent : Nat) : (s.endCmd q i st extent).eps = s.eps := rfl
@[simp] theorem State.endCmd_ctxs (s : State) (q i st extent : Nat) : (s.endCmd q i st extent).ctxs = s.ctxs := rfl
@[simp] theorem State.endCmd_net (s : State) (q i st extent : Nat) : (s.endCmd q i st extent).net = s.net := rfl
@[simp] theorem State.endCmd_pool (s : State) (q i st extent : Nat) : (s.endCmd q i st extent).pool = s.pool := rfl
@[simp] theorem State.endCmd_dma (s : State) (q i st extent : Nat) : (s.endCmd q i st extent).dma = s.dma := rfl
@[simp] theorem State.endCmd_coll (s : State) (q i st extent : Nat) : (s.endCmd q i st extent).coll = s.coll := rfl
@[simp] theorem State.endCmd_hawk (s : State) (q i st extent : Nat) : (s.endCmd q i st extent).hawk = s.hawk := rfl
@[simp] theorem State.endCmd_sec (s : State) (q i st extent : Nat) : (s.endCmd q i st extent).sec = s.sec := rfl
@[simp] theorem State.endCmd_mem (s : State) (q i st extent : Nat) : (s.endCmd q i st extent).mem = s.mem := rfl
@[simp] theorem State.endCmd_route (s : State) (q i st extent : Nat) : (s.endCmd q i st extent).route = s.route := rfl
@[simp] theorem State.endCmd_agent (s : State) (q i st extent : Nat) : (s.endCmd q i st extent).agent = s.agent := rfl
@[simp] theorem State.endCmd_map (s : State) (q i st extent : Nat) : (s.endCmd q i st extent).map = s.map := rfl
@[simp] theorem State.endCmd_mgr (s : State) (q i st extent : Nat) : (s.endCmd q i st extent).mgr = s.mgr := rfl
@[simp] theorem State.endCmd_twin (s : State) (q i st extent : Nat) : (s.endCmd q i st extent).twin = s.twin := rfl
@[simp] theorem State.endCmd_fw (s : State) (q i st extent : Nat) : (s.endCmd q i st extent).fw = s.fw := rfl
@[simp] theorem State.endCmd_sil (s : State) (q i st extent : Nat) : (s.endCmd q i st extent).sil = s.sil := rfl
@[simp] theorem State.endCmd_ants (s : State) (q i st extent : Nat) : (s.endCmd q i st extent).ants = s.ants := rfl
@[simp] theorem State.endCmd_ins (s : State) (q i st extent : Nat) : (s.endCmd q i st extent).ins = s.ins := rfl
@[simp] theorem State.endCmd_power (s : State) (q i st extent : Nat) : (s.endCmd q i st extent).power = s.power := rfl
@[simp] theorem State.endCmd_spares (s : State) (q i st extent : Nat) : (s.endCmd q i st extent).spares = s.spares := rfl
@[simp] theorem State.endCmd_cocoon (s : State) (q i st extent : Nat) : (s.endCmd q i st extent).cocoon = s.cocoon := rfl
@[simp] theorem State.endCmd_pins (s : State) (q i st extent : Nat) : (s.endCmd q i st extent).pins = s.pins := rfl
@[simp] theorem State.endCmd_chr (s : State) (q i st extent : Nat) : (s.endCmd q i st extent).chr = s.chr := rfl
@[simp] theorem State.endCmd_out (s : State) (q i st extent : Nat) : (s.endCmd q i st extent).out = s.out := rfl
@[simp] theorem State.endCmd_free (s : State) (q i st extent : Nat) : (s.endCmd q i st extent).free = s.free := rfl
@[simp] theorem State.endCmd_pending (s : State) (q i st extent : Nat) : (s.endCmd q i st extent).pending = s.pending := rfl
@[simp] theorem State.endCmd_reg (s : State) (q i st extent : Nat) (rn : RegName) (j : Nat) : (s.endCmd q i st extent).reg rn j = s.reg rn j := rfl
@[simp] theorem State.endCmd_fld (s : State) (q i st extent : Nat) (g : Fld) (j : Nat) : (s.endCmd q i st extent).fld g j = s.fld g j := rfl
@[simp] theorem State.endCmd_flag (s : State) (q i st extent : Nat) (g : Fld) (j : Nat) : (s.endCmd q i st extent).flag g j = s.flag g j := rfl
@[simp] theorem State.endCmd_ftu (s : State) (q i st extent : Nat) : (s.endCmd q i st extent).ftu = s.ftu := rfl
@[simp] theorem State.endCmd_running (s : State) (q i st extent : Nat) : (s.endCmd q i st extent).running = s.running := rfl
@[simp] theorem State.endCmd_isActive (s : State) (q i st extent : Nat) : (s.endCmd q i st extent).isActive = s.isActive := rfl
@[simp] theorem State.endCmd_chip (s : State) (q i st extent : Nat) : (s.endCmd q i st extent).chip = s.chip := rfl
@[simp] theorem State.endCmd_wb (s : State) (q i st extent : Nat) : (s.endCmd q i st extent).wb = s.wb := rfl
@[simp] theorem State.endCmd_mgrState (s : State) (q i st extent : Nat) : (s.endCmd q i st extent).mgrState = s.mgrState := rfl
@[simp] theorem State.endCmd_reached (s : State) (q i st extent : Nat) (b : Wb) : (s.endCmd q i st extent).reached b = s.reached b := rfl
@[simp] theorem State.endCmd_linkState (s : State) (q i st extent : Nat) (k : Nat) : (s.endCmd q i st extent).linkState k = s.linkState k := rfl
@[simp] theorem State.endCmd_agents (s : State) (q i st extent : Nat) : (s.endCmd q i st extent).agents = s.agents := rfl
@[simp] theorem State.endCmd_port (s : State) (q i st extent : Nat) (k : Nat) : (s.endCmd q i st extent).port k = s.port k := rfl
@[simp] theorem State.endCmd_ep (s : State) (q i st extent : Nat) (k : Nat) : (s.endCmd q i st extent).ep k = s.ep k := rfl
@[simp] theorem State.endCmd_ctx (s : State) (q i st extent : Nat) (k : Nat) : (s.endCmd q i st extent).ctx k = s.ctx k := rfl
@[simp] theorem State.endCmd_ant (s : State) (q i st extent : Nat) (k : Nat) : (s.endCmd q i st extent).ant k = s.ant k := rfl

/-! ### `State.modChain` -/

@[simp] theorem State.modChain_regs (s : State) (ch : Nat) (f : ChainL → ChainL) : (s.modChain ch f).regs = s.regs := rfl
@[simp] theorem State.modChain_time (s : State) (ch : Nat) (f : ChainL → ChainL) : (s.modChain ch f).time = s.time := rfl
@[simp] theorem State.modChain_ports (s : State) (ch : Nat) (f : ChainL → ChainL) : (s.modChain ch f).ports = s.ports := rfl
@[simp] theorem State.modChain_eps (s : State) (ch : Nat) (f : ChainL → ChainL) : (s.modChain ch f).eps = s.eps := rfl
@[simp] theorem State.modChain_ctxs (s : State) (ch : Nat) (f : ChainL → ChainL) : (s.modChain ch f).ctxs = s.ctxs := rfl
@[simp] theorem State.modChain_net (s : State) (ch : Nat) (f : ChainL → ChainL) : (s.modChain ch f).net = s.net := rfl
@[simp] theorem State.modChain_que (s : State) (ch : Nat) (f : ChainL → ChainL) : (s.modChain ch f).que = s.que := rfl
@[simp] theorem State.modChain_pool (s : State) (ch : Nat) (f : ChainL → ChainL) : (s.modChain ch f).pool = s.pool := rfl
@[simp] theorem State.modChain_coll (s : State) (ch : Nat) (f : ChainL → ChainL) : (s.modChain ch f).coll = s.coll := rfl
@[simp] theorem State.modChain_hawk (s : State) (ch : Nat) (f : ChainL → ChainL) : (s.modChain ch f).hawk = s.hawk := rfl
@[simp] theorem State.modChain_sec (s : State) (ch : Nat) (f : ChainL → ChainL) : (s.modChain ch f).sec = s.sec := rfl
@[simp] theorem State.modChain_mem (s : State) (ch : Nat) (f : ChainL → ChainL) : (s.modChain ch f).mem = s.mem := rfl
@[simp] theorem State.modChain_route (s : State) (ch : Nat) (f : ChainL → ChainL) : (s.modChain ch f).route = s.route := rfl
@[simp] theorem State.modChain_agent (s : State) (ch : Nat) (f : ChainL → ChainL) : (s.modChain ch f).agent = s.agent := rfl
@[simp] theorem State.modChain_map (s : State) (ch : Nat) (f : ChainL → ChainL) : (s.modChain ch f).map = s.map := rfl
@[simp] theorem State.modChain_mgr (s : State) (ch : Nat) (f : ChainL → ChainL) : (s.modChain ch f).mgr = s.mgr := rfl
@[simp] theorem State.modChain_twin (s : State) (ch : Nat) (f : ChainL → ChainL) : (s.modChain ch f).twin = s.twin := rfl
@[simp] theorem State.modChain_fw (s : State) (ch : Nat) (f : ChainL → ChainL) : (s.modChain ch f).fw = s.fw := rfl
@[simp] theorem State.modChain_sil (s : State) (ch : Nat) (f : ChainL → ChainL) : (s.modChain ch f).sil = s.sil := rfl
@[simp] theorem State.modChain_ants (s : State) (ch : Nat) (f : ChainL → ChainL) : (s.modChain ch f).ants = s.ants := rfl
@[simp] theorem State.modChain_ins (s : State) (ch : Nat) (f : ChainL → ChainL) : (s.modChain ch f).ins = s.ins := rfl
@[simp] theorem State.modChain_power (s : State) (ch : Nat) (f : ChainL → ChainL) : (s.modChain ch f).power = s.power := rfl
@[simp] theorem State.modChain_spares (s : State) (ch : Nat) (f : ChainL → ChainL) : (s.modChain ch f).spares = s.spares := rfl
@[simp] theorem State.modChain_cocoon (s : State) (ch : Nat) (f : ChainL → ChainL) : (s.modChain ch f).cocoon = s.cocoon := rfl
@[simp] theorem State.modChain_pins (s : State) (ch : Nat) (f : ChainL → ChainL) : (s.modChain ch f).pins = s.pins := rfl
@[simp] theorem State.modChain_chr (s : State) (ch : Nat) (f : ChainL → ChainL) : (s.modChain ch f).chr = s.chr := rfl
@[simp] theorem State.modChain_out (s : State) (ch : Nat) (f : ChainL → ChainL) : (s.modChain ch f).out = s.out := rfl
@[simp] theorem State.modChain_free (s : State) (ch : Nat) (f : ChainL → ChainL) : (s.modChain ch f).free = s.free := rfl
@[simp] theorem State.modChain_pending (s : State) (ch : Nat) (f : ChainL → ChainL) : (s.modChain ch f).pending = s.pending := rfl
@[simp] theorem State.modChain_reg (s : State) (ch : Nat) (f : ChainL → ChainL) (rn : RegName) (j : Nat) : (s.modChain ch f).reg rn j = s.reg rn j := rfl
@[simp] theorem State.modChain_fld (s : State) (ch : Nat) (f : ChainL → ChainL) (g : Fld) (j : Nat) : (s.modChain ch f).fld g j = s.fld g j := rfl
@[simp] theorem State.modChain_flag (s : State) (ch : Nat) (f : ChainL → ChainL) (g : Fld) (j : Nat) : (s.modChain ch f).flag g j = s.flag g j := rfl
@[simp] theorem State.modChain_ftu (s : State) (ch : Nat) (f : ChainL → ChainL) : (s.modChain ch f).ftu = s.ftu := rfl
@[simp] theorem State.modChain_running (s : State) (ch : Nat) (f : ChainL → ChainL) : (s.modChain ch f).running = s.running := rfl
@[simp] theorem State.modChain_isActive (s : State) (ch : Nat) (f : ChainL → ChainL) : (s.modChain ch f).isActive = s.isActive := rfl
@[simp] theorem State.modChain_chip (s : State) (ch : Nat) (f : ChainL → ChainL) : (s.modChain ch f).chip = s.chip := rfl
@[simp] theorem State.modChain_wb (s : State) (ch : Nat) (f : ChainL → ChainL) : (s.modChain ch f).wb = s.wb := rfl
@[simp] theorem State.modChain_mgrState (s : State) (ch : Nat) (f : ChainL → ChainL) : (s.modChain ch f).mgrState = s.mgrState := rfl
@[simp] theorem State.modChain_reached (s : State) (ch : Nat) (f : ChainL → ChainL) (b : Wb) : (s.modChain ch f).reached b = s.reached b := rfl
@[simp] theorem State.modChain_linkState (s : State) (ch : Nat) (f : ChainL → ChainL) (k : Nat) : (s.modChain ch f).linkState k = s.linkState k := rfl
@[simp] theorem State.modChain_agents (s : State) (ch : Nat) (f : ChainL → ChainL) : (s.modChain ch f).agents = s.agents := rfl
@[simp] theorem State.modChain_port (s : State) (ch : Nat) (f : ChainL → ChainL) (k : Nat) : (s.modChain ch f).port k = s.port k := rfl
@[simp] theorem State.modChain_ep (s : State) (ch : Nat) (f : ChainL → ChainL) (k : Nat) : (s.modChain ch f).ep k = s.ep k := rfl
@[simp] theorem State.modChain_ctx (s : State) (ch : Nat) (f : ChainL → ChainL) (k : Nat) : (s.modChain ch f).ctx k = s.ctx k := rfl
@[simp] theorem State.modChain_ant (s : State) (ch : Nat) (f : ChainL → ChainL) (k : Nat) : (s.modChain ch f).ant k = s.ant k := rfl

/-! ### `State.modNode` -/

@[simp] theorem State.modNode_regs (s : State) (n : CollNode) (f : CollNode → CollNode) : (s.modNode n f).regs = s.regs := rfl
@[simp] theorem State.modNode_time (s : State) (n : CollNode) (f : CollNode → CollNode) : (s.modNode n f).time = s.time := rfl
@[simp] theorem State.modNode_ports (s : State) (n : CollNode) (f : CollNode → CollNode) : (s.modNode n f).ports = s.ports := rfl
@[simp] theorem State.modNode_eps (s : State) (n : CollNode) (f : CollNode → CollNode) : (s.modNode n f).eps = s.eps := rfl
@[simp] theorem State.modNode_ctxs (s : State) (n : CollNode) (f : CollNode → CollNode) : (s.modNode n f).ctxs = s.ctxs := rfl
@[simp] theorem State.modNode_net (s : State) (n : CollNode) (f : CollNode → CollNode) : (s.modNode n f).net = s.net := rfl
@[simp] theorem State.modNode_que (s : State) (n : CollNode) (f : CollNode → CollNode) : (s.modNode n f).que = s.que := rfl
@[simp] theorem State.modNode_pool (s : State) (n : CollNode) (f : CollNode → CollNode) : (s.modNode n f).pool = s.pool := rfl
@[simp] theorem State.modNode_dma (s : State) (n : CollNode) (f : CollNode → CollNode) : (s.modNode n f).dma = s.dma := rfl
@[simp] theorem State.modNode_hawk (s : State) (n : CollNode) (f : CollNode → CollNode) : (s.modNode n f).hawk = s.hawk := rfl
@[simp] theorem State.modNode_sec (s : State) (n : CollNode) (f : CollNode → CollNode) : (s.modNode n f).sec = s.sec := rfl
@[simp] theorem State.modNode_mem (s : State) (n : CollNode) (f : CollNode → CollNode) : (s.modNode n f).mem = s.mem := rfl
@[simp] theorem State.modNode_route (s : State) (n : CollNode) (f : CollNode → CollNode) : (s.modNode n f).route = s.route := rfl
@[simp] theorem State.modNode_agent (s : State) (n : CollNode) (f : CollNode → CollNode) : (s.modNode n f).agent = s.agent := rfl
@[simp] theorem State.modNode_map (s : State) (n : CollNode) (f : CollNode → CollNode) : (s.modNode n f).map = s.map := rfl
@[simp] theorem State.modNode_mgr (s : State) (n : CollNode) (f : CollNode → CollNode) : (s.modNode n f).mgr = s.mgr := rfl
@[simp] theorem State.modNode_twin (s : State) (n : CollNode) (f : CollNode → CollNode) : (s.modNode n f).twin = s.twin := rfl
@[simp] theorem State.modNode_fw (s : State) (n : CollNode) (f : CollNode → CollNode) : (s.modNode n f).fw = s.fw := rfl
@[simp] theorem State.modNode_sil (s : State) (n : CollNode) (f : CollNode → CollNode) : (s.modNode n f).sil = s.sil := rfl
@[simp] theorem State.modNode_ants (s : State) (n : CollNode) (f : CollNode → CollNode) : (s.modNode n f).ants = s.ants := rfl
@[simp] theorem State.modNode_ins (s : State) (n : CollNode) (f : CollNode → CollNode) : (s.modNode n f).ins = s.ins := rfl
@[simp] theorem State.modNode_power (s : State) (n : CollNode) (f : CollNode → CollNode) : (s.modNode n f).power = s.power := rfl
@[simp] theorem State.modNode_spares (s : State) (n : CollNode) (f : CollNode → CollNode) : (s.modNode n f).spares = s.spares := rfl
@[simp] theorem State.modNode_cocoon (s : State) (n : CollNode) (f : CollNode → CollNode) : (s.modNode n f).cocoon = s.cocoon := rfl
@[simp] theorem State.modNode_pins (s : State) (n : CollNode) (f : CollNode → CollNode) : (s.modNode n f).pins = s.pins := rfl
@[simp] theorem State.modNode_chr (s : State) (n : CollNode) (f : CollNode → CollNode) : (s.modNode n f).chr = s.chr := rfl
@[simp] theorem State.modNode_out (s : State) (n : CollNode) (f : CollNode → CollNode) : (s.modNode n f).out = s.out := rfl
@[simp] theorem State.modNode_free (s : State) (n : CollNode) (f : CollNode → CollNode) : (s.modNode n f).free = s.free := rfl
@[simp] theorem State.modNode_pending (s : State) (n : CollNode) (f : CollNode → CollNode) : (s.modNode n f).pending = s.pending := rfl
@[simp] theorem State.modNode_reg (s : State) (n : CollNode) (f : CollNode → CollNode) (rn : RegName) (j : Nat) : (s.modNode n f).reg rn j = s.reg rn j := rfl
@[simp] theorem State.modNode_fld (s : State) (n : CollNode) (f : CollNode → CollNode) (g : Fld) (j : Nat) : (s.modNode n f).fld g j = s.fld g j := rfl
@[simp] theorem State.modNode_flag (s : State) (n : CollNode) (f : CollNode → CollNode) (g : Fld) (j : Nat) : (s.modNode n f).flag g j = s.flag g j := rfl
@[simp] theorem State.modNode_ftu (s : State) (n : CollNode) (f : CollNode → CollNode) : (s.modNode n f).ftu = s.ftu := rfl
@[simp] theorem State.modNode_running (s : State) (n : CollNode) (f : CollNode → CollNode) : (s.modNode n f).running = s.running := rfl
@[simp] theorem State.modNode_isActive (s : State) (n : CollNode) (f : CollNode → CollNode) : (s.modNode n f).isActive = s.isActive := rfl
@[simp] theorem State.modNode_chip (s : State) (n : CollNode) (f : CollNode → CollNode) : (s.modNode n f).chip = s.chip := rfl
@[simp] theorem State.modNode_wb (s : State) (n : CollNode) (f : CollNode → CollNode) : (s.modNode n f).wb = s.wb := rfl
@[simp] theorem State.modNode_mgrState (s : State) (n : CollNode) (f : CollNode → CollNode) : (s.modNode n f).mgrState = s.mgrState := rfl
@[simp] theorem State.modNode_reached (s : State) (n : CollNode) (f : CollNode → CollNode) (b : Wb) : (s.modNode n f).reached b = s.reached b := rfl
@[simp] theorem State.modNode_linkState (s : State) (n : CollNode) (f : CollNode → CollNode) (k : Nat) : (s.modNode n f).linkState k = s.linkState k := rfl
@[simp] theorem State.modNode_agents (s : State) (n : CollNode) (f : CollNode → CollNode) : (s.modNode n f).agents = s.agents := rfl
@[simp] theorem State.modNode_port (s : State) (n : CollNode) (f : CollNode → CollNode) (k : Nat) : (s.modNode n f).port k = s.port k := rfl
@[simp] theorem State.modNode_ep (s : State) (n : CollNode) (f : CollNode → CollNode) (k : Nat) : (s.modNode n f).ep k = s.ep k := rfl
@[simp] theorem State.modNode_ctx (s : State) (n : CollNode) (f : CollNode → CollNode) (k : Nat) : (s.modNode n f).ctx k = s.ctx k := rfl
@[simp] theorem State.modNode_ant (s : State) (n : CollNode) (f : CollNode → CollNode) (k : Nat) : (s.modNode n f).ant k = s.ant k := rfl

/-! ### `State.modPart` -/

@[simp] theorem State.modPart_regs (s : State) (p : BqPart → Bool) (f : BqPart → BqPart) : (s.modPart p f).regs = s.regs := rfl
@[simp] theorem State.modPart_time (s : State) (p : BqPart → Bool) (f : BqPart → BqPart) : (s.modPart p f).time = s.time := rfl
@[simp] theorem State.modPart_ports (s : State) (p : BqPart → Bool) (f : BqPart → BqPart) : (s.modPart p f).ports = s.ports := rfl
@[simp] theorem State.modPart_eps (s : State) (p : BqPart → Bool) (f : BqPart → BqPart) : (s.modPart p f).eps = s.eps := rfl
@[simp] theorem State.modPart_ctxs (s : State) (p : BqPart → Bool) (f : BqPart → BqPart) : (s.modPart p f).ctxs = s.ctxs := rfl
@[simp] theorem State.modPart_net (s : State) (p : BqPart → Bool) (f : BqPart → BqPart) : (s.modPart p f).net = s.net := rfl
@[simp] theorem State.modPart_que (s : State) (p : BqPart → Bool) (f : BqPart → BqPart) : (s.modPart p f).que = s.que := rfl
@[simp] theorem State.modPart_pool (s : State) (p : BqPart → Bool) (f : BqPart → BqPart) : (s.modPart p f).pool = s.pool := rfl
@[simp] theorem State.modPart_dma (s : State) (p : BqPart → Bool) (f : BqPart → BqPart) : (s.modPart p f).dma = s.dma := rfl
@[simp] theorem State.modPart_coll (s : State) (p : BqPart → Bool) (f : BqPart → BqPart) : (s.modPart p f).coll = s.coll := rfl
@[simp] theorem State.modPart_sec (s : State) (p : BqPart → Bool) (f : BqPart → BqPart) : (s.modPart p f).sec = s.sec := rfl
@[simp] theorem State.modPart_mem (s : State) (p : BqPart → Bool) (f : BqPart → BqPart) : (s.modPart p f).mem = s.mem := rfl
@[simp] theorem State.modPart_route (s : State) (p : BqPart → Bool) (f : BqPart → BqPart) : (s.modPart p f).route = s.route := rfl
@[simp] theorem State.modPart_agent (s : State) (p : BqPart → Bool) (f : BqPart → BqPart) : (s.modPart p f).agent = s.agent := rfl
@[simp] theorem State.modPart_map (s : State) (p : BqPart → Bool) (f : BqPart → BqPart) : (s.modPart p f).map = s.map := rfl
@[simp] theorem State.modPart_mgr (s : State) (p : BqPart → Bool) (f : BqPart → BqPart) : (s.modPart p f).mgr = s.mgr := rfl
@[simp] theorem State.modPart_twin (s : State) (p : BqPart → Bool) (f : BqPart → BqPart) : (s.modPart p f).twin = s.twin := rfl
@[simp] theorem State.modPart_fw (s : State) (p : BqPart → Bool) (f : BqPart → BqPart) : (s.modPart p f).fw = s.fw := rfl
@[simp] theorem State.modPart_sil (s : State) (p : BqPart → Bool) (f : BqPart → BqPart) : (s.modPart p f).sil = s.sil := rfl
@[simp] theorem State.modPart_ants (s : State) (p : BqPart → Bool) (f : BqPart → BqPart) : (s.modPart p f).ants = s.ants := rfl
@[simp] theorem State.modPart_ins (s : State) (p : BqPart → Bool) (f : BqPart → BqPart) : (s.modPart p f).ins = s.ins := rfl
@[simp] theorem State.modPart_power (s : State) (p : BqPart → Bool) (f : BqPart → BqPart) : (s.modPart p f).power = s.power := rfl
@[simp] theorem State.modPart_spares (s : State) (p : BqPart → Bool) (f : BqPart → BqPart) : (s.modPart p f).spares = s.spares := rfl
@[simp] theorem State.modPart_cocoon (s : State) (p : BqPart → Bool) (f : BqPart → BqPart) : (s.modPart p f).cocoon = s.cocoon := rfl
@[simp] theorem State.modPart_pins (s : State) (p : BqPart → Bool) (f : BqPart → BqPart) : (s.modPart p f).pins = s.pins := rfl
@[simp] theorem State.modPart_chr (s : State) (p : BqPart → Bool) (f : BqPart → BqPart) : (s.modPart p f).chr = s.chr := rfl
@[simp] theorem State.modPart_out (s : State) (p : BqPart → Bool) (f : BqPart → BqPart) : (s.modPart p f).out = s.out := rfl
@[simp] theorem State.modPart_free (s : State) (p : BqPart → Bool) (f : BqPart → BqPart) : (s.modPart p f).free = s.free := rfl
@[simp] theorem State.modPart_pending (s : State) (p : BqPart → Bool) (f : BqPart → BqPart) : (s.modPart p f).pending = s.pending := rfl
@[simp] theorem State.modPart_reg (s : State) (p : BqPart → Bool) (f : BqPart → BqPart) (rn : RegName) (j : Nat) : (s.modPart p f).reg rn j = s.reg rn j := rfl
@[simp] theorem State.modPart_fld (s : State) (p : BqPart → Bool) (f : BqPart → BqPart) (g : Fld) (j : Nat) : (s.modPart p f).fld g j = s.fld g j := rfl
@[simp] theorem State.modPart_flag (s : State) (p : BqPart → Bool) (f : BqPart → BqPart) (g : Fld) (j : Nat) : (s.modPart p f).flag g j = s.flag g j := rfl
@[simp] theorem State.modPart_ftu (s : State) (p : BqPart → Bool) (f : BqPart → BqPart) : (s.modPart p f).ftu = s.ftu := rfl
@[simp] theorem State.modPart_running (s : State) (p : BqPart → Bool) (f : BqPart → BqPart) : (s.modPart p f).running = s.running := rfl
@[simp] theorem State.modPart_isActive (s : State) (p : BqPart → Bool) (f : BqPart → BqPart) : (s.modPart p f).isActive = s.isActive := rfl
@[simp] theorem State.modPart_chip (s : State) (p : BqPart → Bool) (f : BqPart → BqPart) : (s.modPart p f).chip = s.chip := rfl
@[simp] theorem State.modPart_wb (s : State) (p : BqPart → Bool) (f : BqPart → BqPart) : (s.modPart p f).wb = s.wb := rfl
@[simp] theorem State.modPart_mgrState (s : State) (p : BqPart → Bool) (f : BqPart → BqPart) : (s.modPart p f).mgrState = s.mgrState := rfl
@[simp] theorem State.modPart_reached (s : State) (p : BqPart → Bool) (f : BqPart → BqPart) (b : Wb) : (s.modPart p f).reached b = s.reached b := rfl
@[simp] theorem State.modPart_linkState (s : State) (p : BqPart → Bool) (f : BqPart → BqPart) (k : Nat) : (s.modPart p f).linkState k = s.linkState k := rfl
@[simp] theorem State.modPart_agents (s : State) (p : BqPart → Bool) (f : BqPart → BqPart) : (s.modPart p f).agents = s.agents := rfl
@[simp] theorem State.modPart_port (s : State) (p : BqPart → Bool) (f : BqPart → BqPart) (k : Nat) : (s.modPart p f).port k = s.port k := rfl
@[simp] theorem State.modPart_ep (s : State) (p : BqPart → Bool) (f : BqPart → BqPart) (k : Nat) : (s.modPart p f).ep k = s.ep k := rfl
@[simp] theorem State.modPart_ctx (s : State) (p : BqPart → Bool) (f : BqPart → BqPart) (k : Nat) : (s.modPart p f).ctx k = s.ctx k := rfl
@[simp] theorem State.modPart_ant (s : State) (p : BqPart → Bool) (f : BqPart → BqPart) (k : Nat) : (s.modPart p f).ant k = s.ant k := rfl

/-! ### `State.modLoad` -/

@[simp] theorem State.modLoad_regs (s : State) (id : Nat) (f : MgrLoad → MgrLoad) : (s.modLoad id f).regs = s.regs := rfl
@[simp] theorem State.modLoad_time (s : State) (id : Nat) (f : MgrLoad → MgrLoad) : (s.modLoad id f).time = s.time := rfl
@[simp] theorem State.modLoad_ports (s : State) (id : Nat) (f : MgrLoad → MgrLoad) : (s.modLoad id f).ports = s.ports := rfl
@[simp] theorem State.modLoad_eps (s : State) (id : Nat) (f : MgrLoad → MgrLoad) : (s.modLoad id f).eps = s.eps := rfl
@[simp] theorem State.modLoad_ctxs (s : State) (id : Nat) (f : MgrLoad → MgrLoad) : (s.modLoad id f).ctxs = s.ctxs := rfl
@[simp] theorem State.modLoad_net (s : State) (id : Nat) (f : MgrLoad → MgrLoad) : (s.modLoad id f).net = s.net := rfl
@[simp] theorem State.modLoad_que (s : State) (id : Nat) (f : MgrLoad → MgrLoad) : (s.modLoad id f).que = s.que := rfl
@[simp] theorem State.modLoad_pool (s : State) (id : Nat) (f : MgrLoad → MgrLoad) : (s.modLoad id f).pool = s.pool := rfl
@[simp] theorem State.modLoad_dma (s : State) (id : Nat) (f : MgrLoad → MgrLoad) : (s.modLoad id f).dma = s.dma := rfl
@[simp] theorem State.modLoad_coll (s : State) (id : Nat) (f : MgrLoad → MgrLoad) : (s.modLoad id f).coll = s.coll := rfl
@[simp] theorem State.modLoad_hawk (s : State) (id : Nat) (f : MgrLoad → MgrLoad) : (s.modLoad id f).hawk = s.hawk := rfl
@[simp] theorem State.modLoad_sec (s : State) (id : Nat) (f : MgrLoad → MgrLoad) : (s.modLoad id f).sec = s.sec := rfl
@[simp] theorem State.modLoad_mem (s : State) (id : Nat) (f : MgrLoad → MgrLoad) : (s.modLoad id f).mem = s.mem := rfl
@[simp] theorem State.modLoad_route (s : State) (id : Nat) (f : MgrLoad → MgrLoad) : (s.modLoad id f).route = s.route := rfl
@[simp] theorem State.modLoad_agent (s : State) (id : Nat) (f : MgrLoad → MgrLoad) : (s.modLoad id f).agent = s.agent := rfl
@[simp] theorem State.modLoad_map (s : State) (id : Nat) (f : MgrLoad → MgrLoad) : (s.modLoad id f).map = s.map := rfl
@[simp] theorem State.modLoad_twin (s : State) (id : Nat) (f : MgrLoad → MgrLoad) : (s.modLoad id f).twin = s.twin := rfl
@[simp] theorem State.modLoad_fw (s : State) (id : Nat) (f : MgrLoad → MgrLoad) : (s.modLoad id f).fw = s.fw := rfl
@[simp] theorem State.modLoad_sil (s : State) (id : Nat) (f : MgrLoad → MgrLoad) : (s.modLoad id f).sil = s.sil := rfl
@[simp] theorem State.modLoad_ants (s : State) (id : Nat) (f : MgrLoad → MgrLoad) : (s.modLoad id f).ants = s.ants := rfl
@[simp] theorem State.modLoad_ins (s : State) (id : Nat) (f : MgrLoad → MgrLoad) : (s.modLoad id f).ins = s.ins := rfl
@[simp] theorem State.modLoad_power (s : State) (id : Nat) (f : MgrLoad → MgrLoad) : (s.modLoad id f).power = s.power := rfl
@[simp] theorem State.modLoad_spares (s : State) (id : Nat) (f : MgrLoad → MgrLoad) : (s.modLoad id f).spares = s.spares := rfl
@[simp] theorem State.modLoad_cocoon (s : State) (id : Nat) (f : MgrLoad → MgrLoad) : (s.modLoad id f).cocoon = s.cocoon := rfl
@[simp] theorem State.modLoad_pins (s : State) (id : Nat) (f : MgrLoad → MgrLoad) : (s.modLoad id f).pins = s.pins := rfl
@[simp] theorem State.modLoad_chr (s : State) (id : Nat) (f : MgrLoad → MgrLoad) : (s.modLoad id f).chr = s.chr := rfl
@[simp] theorem State.modLoad_out (s : State) (id : Nat) (f : MgrLoad → MgrLoad) : (s.modLoad id f).out = s.out := rfl
@[simp] theorem State.modLoad_free (s : State) (id : Nat) (f : MgrLoad → MgrLoad) : (s.modLoad id f).free = s.free := rfl
@[simp] theorem State.modLoad_pending (s : State) (id : Nat) (f : MgrLoad → MgrLoad) : (s.modLoad id f).pending = s.pending := rfl
@[simp] theorem State.modLoad_reg (s : State) (id : Nat) (f : MgrLoad → MgrLoad) (rn : RegName) (j : Nat) : (s.modLoad id f).reg rn j = s.reg rn j := rfl
@[simp] theorem State.modLoad_fld (s : State) (id : Nat) (f : MgrLoad → MgrLoad) (g : Fld) (j : Nat) : (s.modLoad id f).fld g j = s.fld g j := rfl
@[simp] theorem State.modLoad_flag (s : State) (id : Nat) (f : MgrLoad → MgrLoad) (g : Fld) (j : Nat) : (s.modLoad id f).flag g j = s.flag g j := rfl
@[simp] theorem State.modLoad_ftu (s : State) (id : Nat) (f : MgrLoad → MgrLoad) : (s.modLoad id f).ftu = s.ftu := rfl
@[simp] theorem State.modLoad_running (s : State) (id : Nat) (f : MgrLoad → MgrLoad) : (s.modLoad id f).running = s.running := rfl
@[simp] theorem State.modLoad_isActive (s : State) (id : Nat) (f : MgrLoad → MgrLoad) : (s.modLoad id f).isActive = s.isActive := rfl
@[simp] theorem State.modLoad_chip (s : State) (id : Nat) (f : MgrLoad → MgrLoad) : (s.modLoad id f).chip = s.chip := rfl
@[simp] theorem State.modLoad_wb (s : State) (id : Nat) (f : MgrLoad → MgrLoad) : (s.modLoad id f).wb = s.wb := rfl
@[simp] theorem State.modLoad_mgrState (s : State) (id : Nat) (f : MgrLoad → MgrLoad) : (s.modLoad id f).mgrState = s.mgrState := rfl
@[simp] theorem State.modLoad_reached (s : State) (id : Nat) (f : MgrLoad → MgrLoad) (b : Wb) : (s.modLoad id f).reached b = s.reached b := rfl
@[simp] theorem State.modLoad_linkState (s : State) (id : Nat) (f : MgrLoad → MgrLoad) (k : Nat) : (s.modLoad id f).linkState k = s.linkState k := rfl
@[simp] theorem State.modLoad_port (s : State) (id : Nat) (f : MgrLoad → MgrLoad) (k : Nat) : (s.modLoad id f).port k = s.port k := rfl
@[simp] theorem State.modLoad_ep (s : State) (id : Nat) (f : MgrLoad → MgrLoad) (k : Nat) : (s.modLoad id f).ep k = s.ep k := rfl
@[simp] theorem State.modLoad_ctx (s : State) (id : Nat) (f : MgrLoad → MgrLoad) (k : Nat) : (s.modLoad id f).ctx k = s.ctx k := rfl
@[simp] theorem State.modLoad_ant (s : State) (id : Nat) (f : MgrLoad → MgrLoad) (k : Nat) : (s.modLoad id f).ant k = s.ant k := rfl

/-! ### `State.putSlice` -/

@[simp] theorem State.putSlice_regs (s : State) (x : SliceRec) : (s.putSlice x).regs = s.regs := rfl
@[simp] theorem State.putSlice_time (s : State) (x : SliceRec) : (s.putSlice x).time = s.time := rfl
@[simp] theorem State.putSlice_ports (s : State) (x : SliceRec) : (s.putSlice x).ports = s.ports := rfl
@[simp] theorem State.putSlice_eps (s : State) (x : SliceRec) : (s.putSlice x).eps = s.eps := rfl
@[simp] theorem State.putSlice_ctxs (s : State) (x : SliceRec) : (s.putSlice x).ctxs = s.ctxs := rfl
@[simp] theorem State.putSlice_net (s : State) (x : SliceRec) : (s.putSlice x).net = s.net := rfl
@[simp] theorem State.putSlice_que (s : State) (x : SliceRec) : (s.putSlice x).que = s.que := rfl
@[simp] theorem State.putSlice_pool (s : State) (x : SliceRec) : (s.putSlice x).pool = s.pool := rfl
@[simp] theorem State.putSlice_dma (s : State) (x : SliceRec) : (s.putSlice x).dma = s.dma := rfl
@[simp] theorem State.putSlice_coll (s : State) (x : SliceRec) : (s.putSlice x).coll = s.coll := rfl
@[simp] theorem State.putSlice_hawk (s : State) (x : SliceRec) : (s.putSlice x).hawk = s.hawk := rfl
@[simp] theorem State.putSlice_sec (s : State) (x : SliceRec) : (s.putSlice x).sec = s.sec := rfl
@[simp] theorem State.putSlice_mem (s : State) (x : SliceRec) : (s.putSlice x).mem = s.mem := rfl
@[simp] theorem State.putSlice_route (s : State) (x : SliceRec) : (s.putSlice x).route = s.route := rfl
@[simp] theorem State.putSlice_agent (s : State) (x : SliceRec) : (s.putSlice x).agent = s.agent := rfl
@[simp] theorem State.putSlice_map (s : State) (x : SliceRec) : (s.putSlice x).map = s.map := rfl
@[simp] theorem State.putSlice_twin (s : State) (x : SliceRec) : (s.putSlice x).twin = s.twin := rfl
@[simp] theorem State.putSlice_fw (s : State) (x : SliceRec) : (s.putSlice x).fw = s.fw := rfl
@[simp] theorem State.putSlice_sil (s : State) (x : SliceRec) : (s.putSlice x).sil = s.sil := rfl
@[simp] theorem State.putSlice_ants (s : State) (x : SliceRec) : (s.putSlice x).ants = s.ants := rfl
@[simp] theorem State.putSlice_ins (s : State) (x : SliceRec) : (s.putSlice x).ins = s.ins := rfl
@[simp] theorem State.putSlice_power (s : State) (x : SliceRec) : (s.putSlice x).power = s.power := rfl
@[simp] theorem State.putSlice_spares (s : State) (x : SliceRec) : (s.putSlice x).spares = s.spares := rfl
@[simp] theorem State.putSlice_cocoon (s : State) (x : SliceRec) : (s.putSlice x).cocoon = s.cocoon := rfl
@[simp] theorem State.putSlice_pins (s : State) (x : SliceRec) : (s.putSlice x).pins = s.pins := rfl
@[simp] theorem State.putSlice_chr (s : State) (x : SliceRec) : (s.putSlice x).chr = s.chr := rfl
@[simp] theorem State.putSlice_out (s : State) (x : SliceRec) : (s.putSlice x).out = s.out := rfl
@[simp] theorem State.putSlice_free (s : State) (x : SliceRec) : (s.putSlice x).free = s.free := rfl
@[simp] theorem State.putSlice_pending (s : State) (x : SliceRec) : (s.putSlice x).pending = s.pending := rfl
@[simp] theorem State.putSlice_reg (s : State) (x : SliceRec) (rn : RegName) (j : Nat) : (s.putSlice x).reg rn j = s.reg rn j := rfl
@[simp] theorem State.putSlice_fld (s : State) (x : SliceRec) (g : Fld) (j : Nat) : (s.putSlice x).fld g j = s.fld g j := rfl
@[simp] theorem State.putSlice_flag (s : State) (x : SliceRec) (g : Fld) (j : Nat) : (s.putSlice x).flag g j = s.flag g j := rfl
@[simp] theorem State.putSlice_ftu (s : State) (x : SliceRec) : (s.putSlice x).ftu = s.ftu := rfl
@[simp] theorem State.putSlice_running (s : State) (x : SliceRec) : (s.putSlice x).running = s.running := rfl
@[simp] theorem State.putSlice_isActive (s : State) (x : SliceRec) : (s.putSlice x).isActive = s.isActive := rfl
@[simp] theorem State.putSlice_chip (s : State) (x : SliceRec) : (s.putSlice x).chip = s.chip := rfl
@[simp] theorem State.putSlice_wb (s : State) (x : SliceRec) : (s.putSlice x).wb = s.wb := rfl
@[simp] theorem State.putSlice_mgrState (s : State) (x : SliceRec) : (s.putSlice x).mgrState = s.mgrState := rfl
@[simp] theorem State.putSlice_reached (s : State) (x : SliceRec) (b : Wb) : (s.putSlice x).reached b = s.reached b := rfl
@[simp] theorem State.putSlice_linkState (s : State) (x : SliceRec) (k : Nat) : (s.putSlice x).linkState k = s.linkState k := rfl
@[simp] theorem State.putSlice_port (s : State) (x : SliceRec) (k : Nat) : (s.putSlice x).port k = s.port k := rfl
@[simp] theorem State.putSlice_ep (s : State) (x : SliceRec) (k : Nat) : (s.putSlice x).ep k = s.ep k := rfl
@[simp] theorem State.putSlice_ctx (s : State) (x : SliceRec) (k : Nat) : (s.putSlice x).ctx k = s.ctx k := rfl
@[simp] theorem State.putSlice_ant (s : State) (x : SliceRec) (k : Nat) : (s.putSlice x).ant k = s.ant k := rfl

/-! ### `State.writeMem` -/

@[simp] theorem State.writeMem_regs (s : State) (a : Nat) (bs : List Byte) : (s.writeMem a bs).regs = s.regs := rfl
@[simp] theorem State.writeMem_time (s : State) (a : Nat) (bs : List Byte) : (s.writeMem a bs).time = s.time := rfl
@[simp] theorem State.writeMem_ports (s : State) (a : Nat) (bs : List Byte) : (s.writeMem a bs).ports = s.ports := rfl
@[simp] theorem State.writeMem_eps (s : State) (a : Nat) (bs : List Byte) : (s.writeMem a bs).eps = s.eps := rfl
@[simp] theorem State.writeMem_ctxs (s : State) (a : Nat) (bs : List Byte) : (s.writeMem a bs).ctxs = s.ctxs := rfl
@[simp] theorem State.writeMem_net (s : State) (a : Nat) (bs : List Byte) : (s.writeMem a bs).net = s.net := rfl
@[simp] theorem State.writeMem_que (s : State) (a : Nat) (bs : List Byte) : (s.writeMem a bs).que = s.que := rfl
@[simp] theorem State.writeMem_pool (s : State) (a : Nat) (bs : List Byte) : (s.writeMem a bs).pool = s.pool := rfl
@[simp] theorem State.writeMem_dma (s : State) (a : Nat) (bs : List Byte) : (s.writeMem a bs).dma = s.dma := rfl
@[simp] theorem State.writeMem_coll (s : State) (a : Nat) (bs : List Byte) : (s.writeMem a bs).coll = s.coll := rfl
@[simp] theorem State.writeMem_hawk (s : State) (a : Nat) (bs : List Byte) : (s.writeMem a bs).hawk = s.hawk := rfl
@[simp] theorem State.writeMem_sec (s : State) (a : Nat) (bs : List Byte) : (s.writeMem a bs).sec = s.sec := rfl
@[simp] theorem State.writeMem_mem (s : State) (a : Nat) (bs : List Byte) : (s.writeMem a bs).mem = writeBytes s.mem a bs := rfl
@[simp] theorem State.writeMem_route (s : State) (a : Nat) (bs : List Byte) : (s.writeMem a bs).route = s.route := rfl
@[simp] theorem State.writeMem_agent (s : State) (a : Nat) (bs : List Byte) : (s.writeMem a bs).agent = s.agent := rfl
@[simp] theorem State.writeMem_map (s : State) (a : Nat) (bs : List Byte) : (s.writeMem a bs).map = s.map := rfl
@[simp] theorem State.writeMem_mgr (s : State) (a : Nat) (bs : List Byte) : (s.writeMem a bs).mgr = s.mgr := rfl
@[simp] theorem State.writeMem_twin (s : State) (a : Nat) (bs : List Byte) : (s.writeMem a bs).twin = s.twin := rfl
@[simp] theorem State.writeMem_fw (s : State) (a : Nat) (bs : List Byte) : (s.writeMem a bs).fw = s.fw := rfl
@[simp] theorem State.writeMem_sil (s : State) (a : Nat) (bs : List Byte) : (s.writeMem a bs).sil = s.sil := rfl
@[simp] theorem State.writeMem_ants (s : State) (a : Nat) (bs : List Byte) : (s.writeMem a bs).ants = s.ants := rfl
@[simp] theorem State.writeMem_ins (s : State) (a : Nat) (bs : List Byte) : (s.writeMem a bs).ins = s.ins := rfl
@[simp] theorem State.writeMem_power (s : State) (a : Nat) (bs : List Byte) : (s.writeMem a bs).power = s.power := rfl
@[simp] theorem State.writeMem_spares (s : State) (a : Nat) (bs : List Byte) : (s.writeMem a bs).spares = s.spares := rfl
@[simp] theorem State.writeMem_cocoon (s : State) (a : Nat) (bs : List Byte) : (s.writeMem a bs).cocoon = s.cocoon := rfl
@[simp] theorem State.writeMem_pins (s : State) (a : Nat) (bs : List Byte) : (s.writeMem a bs).pins = s.pins := rfl
@[simp] theorem State.writeMem_chr (s : State) (a : Nat) (bs : List Byte) : (s.writeMem a bs).chr = s.chr := rfl
@[simp] theorem State.writeMem_out (s : State) (a : Nat) (bs : List Byte) : (s.writeMem a bs).out = s.out := rfl
@[simp] theorem State.writeMem_free (s : State) (a : Nat) (bs : List Byte) : (s.writeMem a bs).free = s.free := rfl
@[simp] theorem State.writeMem_pending (s : State) (a : Nat) (bs : List Byte) : (s.writeMem a bs).pending = s.pending := rfl
@[simp] theorem State.writeMem_reg (s : State) (a : Nat) (bs : List Byte) (rn : RegName) (j : Nat) : (s.writeMem a bs).reg rn j = s.reg rn j := rfl
@[simp] theorem State.writeMem_fld (s : State) (a : Nat) (bs : List Byte) (g : Fld) (j : Nat) : (s.writeMem a bs).fld g j = s.fld g j := rfl
@[simp] theorem State.writeMem_flag (s : State) (a : Nat) (bs : List Byte) (g : Fld) (j : Nat) : (s.writeMem a bs).flag g j = s.flag g j := rfl
@[simp] theorem State.writeMem_ftu (s : State) (a : Nat) (bs : List Byte) : (s.writeMem a bs).ftu = s.ftu := rfl
@[simp] theorem State.writeMem_running (s : State) (a : Nat) (bs : List Byte) : (s.writeMem a bs).running = s.running := rfl
@[simp] theorem State.writeMem_isActive (s : State) (a : Nat) (bs : List Byte) : (s.writeMem a bs).isActive = s.isActive := rfl
@[simp] theorem State.writeMem_chip (s : State) (a : Nat) (bs : List Byte) : (s.writeMem a bs).chip = s.chip := rfl
@[simp] theorem State.writeMem_wb (s : State) (a : Nat) (bs : List Byte) : (s.writeMem a bs).wb = s.wb := rfl
@[simp] theorem State.writeMem_mgrState (s : State) (a : Nat) (bs : List Byte) : (s.writeMem a bs).mgrState = s.mgrState := rfl
@[simp] theorem State.writeMem_reached (s : State) (a : Nat) (bs : List Byte) (b : Wb) : (s.writeMem a bs).reached b = s.reached b := rfl
@[simp] theorem State.writeMem_linkState (s : State) (a : Nat) (bs : List Byte) (k : Nat) : (s.writeMem a bs).linkState k = s.linkState k := rfl
@[simp] theorem State.writeMem_agents (s : State) (a : Nat) (bs : List Byte) : (s.writeMem a bs).agents = s.agents := rfl
@[simp] theorem State.writeMem_port (s : State) (a : Nat) (bs : List Byte) (k : Nat) : (s.writeMem a bs).port k = s.port k := rfl
@[simp] theorem State.writeMem_ep (s : State) (a : Nat) (bs : List Byte) (k : Nat) : (s.writeMem a bs).ep k = s.ep k := rfl
@[simp] theorem State.writeMem_ctx (s : State) (a : Nat) (bs : List Byte) (k : Nat) : (s.writeMem a bs).ctx k = s.ctx k := rfl
@[simp] theorem State.writeMem_ant (s : State) (a : Nat) (bs : List Byte) (k : Nat) : (s.writeMem a bs).ant k = s.ant k := rfl

/-! ### `State.clearMem` -/

@[simp] theorem State.clearMem_regs (s : State) (a n : Nat) : (s.clearMem a n).regs = s.regs := rfl
@[simp] theorem State.clearMem_time (s : State) (a n : Nat) : (s.clearMem a n).time = s.time := rfl
@[simp] theorem State.clearMem_ports (s : State) (a n : Nat) : (s.clearMem a n).ports = s.ports := rfl
@[simp] theorem State.clearMem_eps (s : State) (a n : Nat) : (s.clearMem a n).eps = s.eps := rfl
@[simp] theorem State.clearMem_ctxs (s : State) (a n : Nat) : (s.clearMem a n).ctxs = s.ctxs := rfl
@[simp] theorem State.clearMem_net (s : State) (a n : Nat) : (s.clearMem a n).net = s.net := rfl
@[simp] theorem State.clearMem_que (s : State) (a n : Nat) : (s.clearMem a n).que = s.que := rfl
@[simp] theorem State.clearMem_pool (s : State) (a n : Nat) : (s.clearMem a n).pool = s.pool := rfl
@[simp] theorem State.clearMem_dma (s : State) (a n : Nat) : (s.clearMem a n).dma = s.dma := rfl
@[simp] theorem State.clearMem_coll (s : State) (a n : Nat) : (s.clearMem a n).coll = s.coll := rfl
@[simp] theorem State.clearMem_hawk (s : State) (a n : Nat) : (s.clearMem a n).hawk = s.hawk := rfl
@[simp] theorem State.clearMem_sec (s : State) (a n : Nat) : (s.clearMem a n).sec = s.sec := rfl
@[simp] theorem State.clearMem_route (s : State) (a n : Nat) : (s.clearMem a n).route = s.route := rfl
@[simp] theorem State.clearMem_agent (s : State) (a n : Nat) : (s.clearMem a n).agent = s.agent := rfl
@[simp] theorem State.clearMem_map (s : State) (a n : Nat) : (s.clearMem a n).map = s.map := rfl
@[simp] theorem State.clearMem_mgr (s : State) (a n : Nat) : (s.clearMem a n).mgr = s.mgr := rfl
@[simp] theorem State.clearMem_twin (s : State) (a n : Nat) : (s.clearMem a n).twin = s.twin := rfl
@[simp] theorem State.clearMem_fw (s : State) (a n : Nat) : (s.clearMem a n).fw = s.fw := rfl
@[simp] theorem State.clearMem_sil (s : State) (a n : Nat) : (s.clearMem a n).sil = s.sil := rfl
@[simp] theorem State.clearMem_ants (s : State) (a n : Nat) : (s.clearMem a n).ants = s.ants := rfl
@[simp] theorem State.clearMem_ins (s : State) (a n : Nat) : (s.clearMem a n).ins = s.ins := rfl
@[simp] theorem State.clearMem_power (s : State) (a n : Nat) : (s.clearMem a n).power = s.power := rfl
@[simp] theorem State.clearMem_spares (s : State) (a n : Nat) : (s.clearMem a n).spares = s.spares := rfl
@[simp] theorem State.clearMem_cocoon (s : State) (a n : Nat) : (s.clearMem a n).cocoon = s.cocoon := rfl
@[simp] theorem State.clearMem_pins (s : State) (a n : Nat) : (s.clearMem a n).pins = s.pins := rfl
@[simp] theorem State.clearMem_chr (s : State) (a n : Nat) : (s.clearMem a n).chr = s.chr := rfl
@[simp] theorem State.clearMem_out (s : State) (a n : Nat) : (s.clearMem a n).out = s.out := rfl
@[simp] theorem State.clearMem_free (s : State) (a n : Nat) : (s.clearMem a n).free = s.free := rfl
@[simp] theorem State.clearMem_pending (s : State) (a n : Nat) : (s.clearMem a n).pending = s.pending := rfl
@[simp] theorem State.clearMem_reg (s : State) (a n : Nat) (rn : RegName) (j : Nat) : (s.clearMem a n).reg rn j = s.reg rn j := rfl
@[simp] theorem State.clearMem_fld (s : State) (a n : Nat) (g : Fld) (j : Nat) : (s.clearMem a n).fld g j = s.fld g j := rfl
@[simp] theorem State.clearMem_flag (s : State) (a n : Nat) (g : Fld) (j : Nat) : (s.clearMem a n).flag g j = s.flag g j := rfl
@[simp] theorem State.clearMem_ftu (s : State) (a n : Nat) : (s.clearMem a n).ftu = s.ftu := rfl
@[simp] theorem State.clearMem_running (s : State) (a n : Nat) : (s.clearMem a n).running = s.running := rfl
@[simp] theorem State.clearMem_isActive (s : State) (a n : Nat) : (s.clearMem a n).isActive = s.isActive := rfl
@[simp] theorem State.clearMem_chip (s : State) (a n : Nat) : (s.clearMem a n).chip = s.chip := rfl
@[simp] theorem State.clearMem_wb (s : State) (a n : Nat) : (s.clearMem a n).wb = s.wb := rfl
@[simp] theorem State.clearMem_mgrState (s : State) (a n : Nat) : (s.clearMem a n).mgrState = s.mgrState := rfl
@[simp] theorem State.clearMem_reached (s : State) (a n : Nat) (b : Wb) : (s.clearMem a n).reached b = s.reached b := rfl
@[simp] theorem State.clearMem_linkState (s : State) (a n : Nat) (k : Nat) : (s.clearMem a n).linkState k = s.linkState k := rfl
@[simp] theorem State.clearMem_agents (s : State) (a n : Nat) : (s.clearMem a n).agents = s.agents := rfl
@[simp] theorem State.clearMem_port (s : State) (a n : Nat) (k : Nat) : (s.clearMem a n).port k = s.port k := rfl
@[simp] theorem State.clearMem_ep (s : State) (a n : Nat) (k : Nat) : (s.clearMem a n).ep k = s.ep k := rfl
@[simp] theorem State.clearMem_ctx (s : State) (a n : Nat) (k : Nat) : (s.clearMem a n).ctx k = s.ctx k := rfl
@[simp] theorem State.clearMem_ant (s : State) (a n : Nat) (k : Nat) : (s.clearMem a n).ant k = s.ant k := rfl

/-! ### `State.fresh` -/

@[simp] theorem State.fresh_regs (s : State) : s.fresh.2.regs = s.regs := rfl
@[simp] theorem State.fresh_time (s : State) : s.fresh.2.time = s.time := rfl
@[simp] theorem State.fresh_ports (s : State) : s.fresh.2.ports = s.ports := rfl
@[simp] theorem State.fresh_eps (s : State) : s.fresh.2.eps = s.eps := rfl
@[simp] theorem State.fresh_ctxs (s : State) : s.fresh.2.ctxs = s.ctxs := rfl
@[simp] theorem State.fresh_net (s : State) : s.fresh.2.net = s.net := rfl
@[simp] theorem State.fresh_que (s : State) : s.fresh.2.que = s.que := rfl
@[simp] theorem State.fresh_pool (s : State) : s.fresh.2.pool = s.pool := rfl
@[simp] theorem State.fresh_dma (s : State) : s.fresh.2.dma = s.dma := rfl
@[simp] theorem State.fresh_coll (s : State) : s.fresh.2.coll = s.coll := rfl
@[simp] theorem State.fresh_hawk (s : State) : s.fresh.2.hawk = s.hawk := rfl
@[simp] theorem State.fresh_sec (s : State) : s.fresh.2.sec = s.sec := rfl
@[simp] theorem State.fresh_mem (s : State) : s.fresh.2.mem = s.mem := rfl
@[simp] theorem State.fresh_route (s : State) : s.fresh.2.route = s.route := rfl
@[simp] theorem State.fresh_agent (s : State) : s.fresh.2.agent = s.agent := rfl
@[simp] theorem State.fresh_map (s : State) : s.fresh.2.map = s.map := rfl
@[simp] theorem State.fresh_mgr (s : State) : s.fresh.2.mgr = s.mgr := rfl
@[simp] theorem State.fresh_twin (s : State) : s.fresh.2.twin = s.twin := rfl
@[simp] theorem State.fresh_fw (s : State) : s.fresh.2.fw = s.fw := rfl
@[simp] theorem State.fresh_sil (s : State) : s.fresh.2.sil = s.sil := rfl
@[simp] theorem State.fresh_ants (s : State) : s.fresh.2.ants = s.ants := rfl
@[simp] theorem State.fresh_ins (s : State) : s.fresh.2.ins = s.ins := rfl
@[simp] theorem State.fresh_power (s : State) : s.fresh.2.power = s.power := rfl
@[simp] theorem State.fresh_spares (s : State) : s.fresh.2.spares = s.spares := rfl
@[simp] theorem State.fresh_cocoon (s : State) : s.fresh.2.cocoon = s.cocoon := rfl
@[simp] theorem State.fresh_pins (s : State) : s.fresh.2.pins = s.pins := rfl
@[simp] theorem State.fresh_chr (s : State) : s.fresh.2.chr = s.chr := rfl
@[simp] theorem State.fresh_out (s : State) : s.fresh.2.out = s.out := rfl
@[simp] theorem State.fresh_free (s : State) : s.fresh.2.free = s.free + 1 := rfl
@[simp] theorem State.fresh_pending (s : State) : s.fresh.2.pending = s.pending := rfl

end Sys2Proof.Machine
end

