-- ==== Sys2Proof/Laws/Ops.lean ====
section
/-! SUPPORT. Sys2Proof/Laws/Ops.lean: the shared operations, each said once: when an event acts, when a message of the manager or of an
agent is acted on, and what a register access or a tracked frame answers. -/

namespace Sys2Proof.Machine

/-! ### Events and accesses -/

theorem act_running {s : State} (h : s.running = true) (f : State → State) : act s f = .next (f s) := by simp [act, h]

theorem act_stopped {s : State} (h : s.running = false) (f : State → State) : act s f = .next s := by simp [act, h]

theorem act_next {s t : State} {f : State → State} (h : act s f = .next t) : t = f s ∧ s.running = true ∨ t = s ∧ s.running = false := by
  unfold act at h
  cases hr : s.running <;> simp [hr] at h <;> simp [h]

theorem actAnt_live {s : State} (h : s.antLive) (f : State → State) : actAnt s f = .next (f s) := by
  simp [actAnt, h.1, h.2.1, h.2.2]

theorem accessBy_runs {s : State} {owner : Nat} (h : s.accessRuns owner) (f : State → State × Nat × Word) (stop : State → Nat × Word) :
    accessBy owner s f stop = .next ((f s).1.emit (.access owner (f s).2.1 (f s).2.2)) := by
  simp [accessBy, h.1, h.2]

theorem accessBy_unreached {s : State} {owner : Nat} (h : s.reaches owner = false) (f : State → State × Nat × Word)
    (stop : State → Nat × Word) : accessBy owner s f stop = .next s := by simp [accessBy, h]

theorem mgrCommand_manages {s : State} (h : s.manages) (r : FwRef) (f : State → State) : s.mgrCommand r f = f s := by
  simp [State.mgrCommand, h.2.1, h.2.2]

/-! ### Every gated effect has a next state -/

theorem act_goes (s : State) (f : State → State) : ∃ t, act s f = .next t := ⟨_, rfl⟩

theorem actAnt_goes (s : State) (f : State → State) : ∃ t, actAnt s f = .next t := ⟨_, rfl⟩

theorem accessBy_goes (owner : Nat) (s : State) (f : State → State × Nat × Word) (stop : State → Nat × Word) :
    ∃ t, accessBy owner s f stop = .next t := by
  unfold accessBy
  (repeat' split) <;> exact ⟨_, rfl⟩

theorem chrAccess_goes (owner : Nat) (s : State) (f : State → State × Nat) : ∃ t, chrAccess owner s f = .next t := by
  unfold chrAccess
  (repeat' split) <;> exact ⟨_, rfl⟩

/-! ### Messages (R98, R100, R130) -/

theorem fromManager_hears {s : State} {h : MsgHdr} (H : s.hears h) (f a : State → State) :
    s.fromManager h f a = a (f (s.noteSeen h)) := by
  obtain ⟨_, h2, h3, h4, h5, h6⟩ := H
  simp [State.fromManager, State.fenceOn, h2, State.mgrAccepts, h3, h4, State.raiseEpoch, h5, State.relay, h6]

theorem fromAgent_hears {s : State} {h : MsgHdr} (H : s.hearsAgent h) (f a : State → State) :
    s.fromAgent h f a = a (f (s.noteSeen h)) := by
  obtain ⟨_, h2, h5, h6⟩ := H
  simp [State.fromAgent, State.fenceOn, Nat.not_lt.mpr h2, State.relay, h5, h6]

theorem atManager_hears {s : State} {h : MsgHdr} (H : s.managerHears h) (f a : State → State) :
    s.atManager h f a = a (f (s.noteSeen h)) := by
  have h2 := H.1.2.1
  have h3 := H.2
  simp only [State.atManager, State.fenceOn, Nat.not_lt.mpr h2, and_false, if_false, h3, if_true]
  exact fromAgent_hears H.1 f a

/-! ### Tracked frames (R310, R312) -/

theorem antReceive_takes {s : State} {a : Nat} {f : AntFrame} (h : s.antTakes a f) (eff : State → State) :
    s.antReceive a true f eff = eff (s.antTaken a f) := by
  unfold State.antReceive
  simp only [h.1, ne_eq, not_true_eq_false, if_false, Bool.true_eq_false]
  rw [if_pos h.2]

end Sys2Proof.Machine
end

