-- ==== Sys2Proof/Laws/Keeps.lean ====
section
/-! SUPPORT. Sys2Proof/Laws/Keeps.lean: what an operation leaves alone: the registers and the parts of the state that are not in its
mask, the queue, and the canonical form. -/

namespace Sys2Proof.Machine

/-- From `s` to `t` nothing changes but what the mask `m` names: bit `r.code` stands for the registers `r`, bits 300 up for the other
parts of the state. The queue is the same, and the canonical form is kept. -/
structure Keeps (m : Nat) (s t : State) : Prop where
  wf : s.canonical → t.canonical
  pending : t.pending = s.pending
  regs : ∀ (r : RegName) (i : Nat), m.testBit r.code = false → t.reg r i = s.reg r i
  time : m.testBit 300 = false → t.time = s.time
  ports : m.testBit 301 = false → t.ports = s.ports
  eps : m.testBit 302 = false → t.eps = s.eps
  ctxs : m.testBit 303 = false → t.ctxs = s.ctxs
  net : m.testBit 304 = false → t.net = s.net
  que : m.testBit 305 = false → t.que = s.que
  pool : m.testBit 306 = false → t.pool = s.pool
  dma : m.testBit 307 = false → t.dma = s.dma
  coll : m.testBit 308 = false → t.coll = s.coll
  hawk : m.testBit 309 = false → t.hawk = s.hawk
  sec : m.testBit 310 = false → t.sec = s.sec
  mem : m.testBit 311 = false → t.mem = s.mem
  route : m.testBit 312 = false → t.route = s.route
  agent : m.testBit 313 = false → t.agent = s.agent
  map : m.testBit 314 = false → t.map = s.map
  mgr : m.testBit 315 = false → t.mgr = s.mgr
  twin : m.testBit 316 = false → t.twin = s.twin
  fw : m.testBit 317 = false → t.fw = s.fw
  sil : m.testBit 318 = false → t.sil = s.sil
  ants : m.testBit 319 = false → t.ants = s.ants
  ins : m.testBit 320 = false → t.ins = s.ins
  power : m.testBit 321 = false → t.power = s.power
  spares : m.testBit 322 = false → t.spares = s.spares
  cocoon : m.testBit 323 = false → t.cocoon = s.cocoon
  pins : m.testBit 324 = false → t.pins = s.pins
  chr : m.testBit 325 = false → t.chr = s.chr
  out : m.testBit 326 = false → t.out = s.out
  free : m.testBit 327 = false → t.free = s.free

/-- Every bit of `a` is in `m`. -/
def sub (a m : Nat) : Bool := a &&& m == a

theorem sub_bit {a m : Nat} (h : sub a m = true) {k : Nat} (hk : m.testBit k = false) : a.testBit k = false := by
  have h1 : a &&& m = a := by simpa [sub] using h
  rw [← h1, Nat.testBit_and, hk, Bool.and_false]

theorem Keeps.refl {m : Nat} (s : State) : Keeps m s s := by
  constructor <;> intros <;> first | assumption | rfl

theorem Keeps.ident {m : Nat} (s : State) : Keeps m s (id s) := Keeps.refl s

/-- The mask may grow along a chain of operations. -/
theorem Keeps.trans {a m : Nat} {u s t : State} (h : Keeps a s t) (hs : sub a m = true) (g : Keeps m u s) : Keeps m u t where
  wf := fun c => h.wf (g.wf c)
  pending := h.pending.trans g.pending
  regs := fun r i k => (h.regs r i (sub_bit hs k)).trans (g.regs r i k)
  time := fun k => (h.time (sub_bit hs k)).trans (g.time k)
  ports := fun k => (h.ports (sub_bit hs k)).trans (g.ports k)
  eps := fun k => (h.eps (sub_bit hs k)).trans (g.eps k)
  ctxs := fun k => (h.ctxs (sub_bit hs k)).trans (g.ctxs k)
  net := fun k => (h.net (sub_bit hs k)).trans (g.net k)
  que := fun k => (h.que (sub_bit hs k)).trans (g.que k)
  pool := fun k => (h.pool (sub_bit hs k)).trans (g.pool k)
  dma := fun k => (h.dma (sub_bit hs k)).trans (g.dma k)
  coll := fun k => (h.coll (sub_bit hs k)).trans (g.coll k)
  hawk := fun k => (h.hawk (sub_bit hs k)).trans (g.hawk k)
  sec := fun k => (h.sec (sub_bit hs k)).trans (g.sec k)
  mem := fun k => (h.mem (sub_bit hs k)).trans (g.mem k)
  route := fun k => (h.route (sub_bit hs k)).trans (g.route k)
  agent := fun k => (h.agent (sub_bit hs k)).trans (g.agent k)
  map := fun k => (h.map (sub_bit hs k)).trans (g.map k)
  mgr := fun k => (h.mgr (sub_bit hs k)).trans (g.mgr k)
  twin := fun k => (h.twin (sub_bit hs k)).trans (g.twin k)
  fw := fun k => (h.fw (sub_bit hs k)).trans (g.fw k)
  sil := fun k => (h.sil (sub_bit hs k)).trans (g.sil k)
  ants := fun k => (h.ants (sub_bit hs k)).trans (g.ants k)
  ins := fun k => (h.ins (sub_bit hs k)).trans (g.ins k)
  power := fun k => (h.power (sub_bit hs k)).trans (g.power k)
  spares := fun k => (h.spares (sub_bit hs k)).trans (g.spares k)
  cocoon := fun k => (h.cocoon (sub_bit hs k)).trans (g.cocoon k)
  pins := fun k => (h.pins (sub_bit hs k)).trans (g.pins k)
  chr := fun k => (h.chr (sub_bit hs k)).trans (g.chr k)
  out := fun k => (h.out (sub_bit hs k)).trans (g.out k)
  free := fun k => (h.free (sub_bit hs k)).trans (g.free k)

theorem Keeps.ite {m : Nat} {u a b : State} {c : Prop} [Decidable c] (h : c → Keeps m u a) (g : ¬c → Keeps m u b) :
    Keeps m u (if c then a else b) := by
  split
  · exact h ‹_›
  · exact g ‹_›

theorem Keeps.dite {m : Nat} {u : State} {c : Prop} [Decidable c] {a : c → State} {b : ¬c → State} (h : ∀ k, Keeps m u (a k))
    (g : ∀ k, Keeps m u (b k)) : Keeps m u (if k : c then a k else b k) := by
  split
  · exact h _
  · exact g _

theorem Keeps.foldl {α : Type} {m : Nat} {u s : State} {f : State → α → State} (l : List α) (g : Keeps m u s)
    (h : ∀ t x, Keeps m t (f t x)) : Keeps m u (l.foldl f s) := by
  induction l generalizing s with
  | nil => exact g
  | cons x l ih =>
    exact ih (Keeps.trans (h s x) (by simp [sub]) g)

theorem Keeps.foldlMem {α : Type} {m : Nat} {u s : State} {f : State → α → State} (l : List α) (g : Keeps m u s)
    (h : ∀ t x, x ∈ l → Keeps m t (f t x)) : Keeps m u (l.foldl f s) := by
  induction l generalizing s with
  | nil => exact g
  | cons x l ih =>
    exact ih (Keeps.trans (h s x (.head l)) (by simp [sub]) g) fun t y hy => h t y (.tail x hy)

/-- A record update of parts that are not stores: every other part stands as it was. -/
theorem Keeps.upd {m : Nat} {u s : State}
    {regs : Store Word} {time : TimeSt} {ports : Store PortSt} {eps : Store EpSt} {ctxs : Store CtxSt} {net : NetSt} {que : QueSt} {pool : PoolSt} {dma : DmaSt} {coll : CollSt} {hawk : HawkSt} {sec : SecSt} {mem : List Host.Cell} {route : RouteSt} {agent : AgentSt} {map : Option InstMap} {mgr : MgrSt} {twin : TwinSt} {fw : FwSt} {sil : SilSt} {ants : Store AntSt} {ins : InsSt} {power : PowerSt} {spares : SpareSt} {cocoon : CocoonSt} {pins : PinsSt} {chr : ChrSt} {out : List OutMsg} {free : Nat} {pending : List Instr}
    (hp : pending = s.pending) (g : Keeps m u s) (h1 : regs = s.regs)
    (h2 : m.testBit 301 = true ∧ (Store.wf (fun _ => PortSt.init) s.ports = true → Store.wf (fun _ => PortSt.init) ports = true) ∨ ports = s.ports)
    (h3 : m.testBit 302 = true ∧ (Store.wf (fun _ => EpSt.init) s.eps = true → Store.wf (fun _ => EpSt.init) eps = true) ∨ eps = s.eps)
    (h4 : m.testBit 303 = true ∧ (Store.wf (fun _ => CtxSt.init) s.ctxs = true → Store.wf (fun _ => CtxSt.init) ctxs = true) ∨ ctxs = s.ctxs)
    (h5 : m.testBit 319 = true ∧ (Store.wf (fun _ => AntSt.init) s.ants = true → Store.wf (fun _ => AntSt.init) ants = true) ∨ ants = s.ants)
    (h6 : m.testBit 311 = true ∧ (Store.wf memDefault s.mem = true → Store.wf memDefault mem = true) ∨ mem = s.mem)
    (_time : m.testBit 300 = true ∨ time = s.time)
    (_net : m.testBit 304 = true ∨ net = s.net)
    (_que : m.testBit 305 = true ∨ que = s.que)
    (_pool : m.testBit 306 = true ∨ pool = s.pool)
    (_dma : m.testBit 307 = true ∨ dma = s.dma)
    (_coll : m.testBit 308 = true ∨ coll = s.coll)
    (_hawk : m.testBit 309 = true ∨ hawk = s.hawk)
    (_sec : m.testBit 310 = true ∨ sec = s.sec)
    (_route : m.testBit 312 = true ∨ route = s.route)
    (_agent : m.testBit 313 = true ∨ agent = s.agent)
    (_map : m.testBit 314 = true ∨ map = s.map)
    (_mgr : m.testBit 315 = true ∨ mgr = s.mgr)
    (_twin : m.testBit 316 = true ∨ twin = s.twin)
    (_fw : m.testBit 317 = true ∨ fw = s.fw)
    (_sil : m.testBit 318 = true ∨ sil = s.sil)
    (_ins : m.testBit 320 = true ∨ ins = s.ins)
    (_power : m.testBit 321 = true ∨ power = s.power)
    (_spares : m.testBit 322 = true ∨ spares = s.spares)
    (_cocoon : m.testBit 323 = true ∨ cocoon = s.cocoon)
    (_pins : m.testBit 324 = true ∨ pins = s.pins)
    (_chr : m.testBit 325 = true ∨ chr = s.chr)
    (_out : m.testBit 326 = true ∨ out = s.out)
    (_free : m.testBit 327 = true ∨ free = s.free)
    : Keeps m u ⟨regs, time, ports, eps, ctxs, net, que, pool, dma, coll, hawk, sec, mem, route, agent, map, mgr, twin, fw, sil, ants, ins, power, spares, cocoon, pins, chr, out, free, pending⟩ where

  wf := fun c => by
    have c' := g.wf c
    subst h1
    exact ⟨c'.1, h2.elim (fun h => h.2 c'.2.1) (fun h => h ▸ c'.2.1), h3.elim (fun h => h.2 c'.2.2.1) (fun h => h ▸ c'.2.2.1),
      h4.elim (fun h => h.2 c'.2.2.2.1) (fun h => h ▸ c'.2.2.2.1), h5.elim (fun h => h.2 c'.2.2.2.2.1) (fun h => h ▸ c'.2.2.2.2.1),
      h6.elim (fun h => h.2 c'.2.2.2.2.2) (fun h => h ▸ c'.2.2.2.2.2)⟩
  pending := hp.trans g.pending
  regs := fun r i k => by
    have e := g.regs r i k
    subst h1
    exact e
  time := fun k => (_time.resolve_left (by simp [k])).trans (g.time k)
  ports := fun k => (h2.resolve_left (by simp [k])).trans (g.ports k)
  eps := fun k => (h3.resolve_left (by simp [k])).trans (g.eps k)
  ctxs := fun k => (h4.resolve_left (by simp [k])).trans (g.ctxs k)
  net := fun k => (_net.resolve_left (by simp [k])).trans (g.net k)
  que := fun k => (_que.resolve_left (by simp [k])).trans (g.que k)
  pool := fun k => (_pool.resolve_left (by simp [k])).trans (g.pool k)
  dma := fun k => (_dma.resolve_left (by simp [k])).trans (g.dma k)
  coll := fun k => (_coll.resolve_left (by simp [k])).trans (g.coll k)
  hawk := fun k => (_hawk.resolve_left (by simp [k])).trans (g.hawk k)
  sec := fun k => (_sec.resolve_left (by simp [k])).trans (g.sec k)
  mem := fun k => (h6.resolve_left (by simp [k])).trans (g.mem k)
  route := fun k => (_route.resolve_left (by simp [k])).trans (g.route k)
  agent := fun k => (_agent.resolve_left (by simp [k])).trans (g.agent k)
  map := fun k => (_map.resolve_left (by simp [k])).trans (g.map k)
  mgr := fun k => (_mgr.resolve_left (by simp [k])).trans (g.mgr k)
  twin := fun k => (_twin.resolve_left (by simp [k])).trans (g.twin k)
  fw := fun k => (_fw.resolve_left (by simp [k])).trans (g.fw k)
  sil := fun k => (_sil.resolve_left (by simp [k])).trans (g.sil k)
  ants := fun k => (h5.resolve_left (by simp [k])).trans (g.ants k)
  ins := fun k => (_ins.resolve_left (by simp [k])).trans (g.ins k)
  power := fun k => (_power.resolve_left (by simp [k])).trans (g.power k)
  spares := fun k => (_spares.resolve_left (by simp [k])).trans (g.spares k)
  cocoon := fun k => (_cocoon.resolve_left (by simp [k])).trans (g.cocoon k)
  pins := fun k => (_pins.resolve_left (by simp [k])).trans (g.pins k)
  chr := fun k => (_chr.resolve_left (by simp [k])).trans (g.chr k)
  out := fun k => (_out.resolve_left (by simp [k])).trans (g.out k)
  free := fun k => (_free.resolve_left (by simp [k])).trans (g.free k)

/-! ### The elementary updates -/

theorem State.setReg_keeps {m : Nat} (s : State) (r : RegName) (i : Nat) (v : Word) (h : m.testBit r.code = true) :
    Keeps m s (s.setReg r i v) := by
  have hr : ∀ (q : RegName) (j : Nat), m.testBit q.code = false → (s.setReg r i v).reg q j = s.reg q j := by
    intro q j k
    refine reg_setReg_other s r q i j v (.inl ?_)
    rintro rfl
    rw [h] at k
    cases k
  constructor
  case wf => exact fun c => ⟨wf_setReg _ _ _ c.1, c.2⟩
  case regs => exact hr
  all_goals intros; rfl

theorem State.setFld_keeps {m : Nat} (s : State) (f : Fld) (i v : Nat) (h : m.testBit f.reg.code = true) :
    Keeps m s (s.setFld f i v) := State.setReg_keeps s f.reg i _ h

theorem State.bump_keeps {m : Nat} (s : State) (f : Fld) (i n : Nat) (h : m.testBit f.reg.code = true) :
    Keeps m s (s.bump f i n) := State.setFld_keeps s f i _ h

theorem State.resetRegs_keeps {m : Nat} (s : State) (p : RegName → Nat → Bool) (h : ∀ r i, p r i = true → m.testBit r.code = true) :
    Keeps m s (s.resetRegs p) := by
  have hr : ∀ (q : RegName) (j : Nat), m.testBit q.code = false → (s.resetRegs p).reg q j = s.reg q j := by
    intro q j k
    rw [reg_resetRegs, if_neg]
    intro c
    rw [h q j c] at k
    cases k
  constructor
  case wf => exact fun c => ⟨wf_resetRegs _ c.1, c.2⟩
  case regs => exact hr
  all_goals intros; rfl

theorem Store.wf_nil {α : Type} [DecidableEq α] (d : Nat → α) : Store.wf d [] = true := rfl

theorem Store.wf_mapFilter {α : Type} [DecidableEq α] (v : α) (g : α → α) (l : Store α) (h : Store.wf (fun _ => v) l = true) :
    Store.wf (fun _ => v) ((l.map fun q => (q.1, g q.2)).filter fun q => decide (q.2 ≠ v)) = true := by
  induction l with
  | nil => rfl
  | cons q t ih =>
    obtain ⟨k, p⟩ := q
    simp only [Store.wf, Bool.and_eq_true, decide_eq_true_eq] at h
    rw [List.map_cons, List.filter_cons]
    split
    case isTrue hq =>
      simp only [Store.wf, Bool.and_eq_true, decide_eq_true_eq]
      refine ⟨⟨?_, of_decide_eq_true hq⟩, ih h.2⟩
      have h1 := h.1.1
      simp only [Store.above, List.all_eq_true, decide_eq_true_eq] at h1 ⊢
      intro x hx
      obtain ⟨y, hy, rfl⟩ := List.mem_map.mp (List.mem_filter.mp hx).1
      exact h1 y hy
    case isFalse => exact ih h.2

theorem RegName.code_bit (r : RegName) : Nat.testBit (2 ^ 135 - 1) r.code = true := by cases r <;> rfl

theorem wf_writeBytes (m : List Host.Cell) (a : Nat) (bs : List Byte) (h : Store.wf memDefault m = true) :
    Store.wf memDefault (writeBytes m a bs) = true := by
  induction bs generalizing m a with
  | nil => exact h
  | cons b t ih => exact ih _ _ (Store.wf_set _ _ _ _ h)

theorem State.setPort_keeps (s : State) (l : Nat) (p : PortSt) : Keeps 4074071952668972172536891376818756322102936787331872501272280898708762599526673412366794752 s (s.setPort l p) := by
  exact Keeps.upd (s := s) rfl (Keeps.refl s) rfl (.inl ⟨rfl, Store.wf_set _ _ _ _⟩) (.inr rfl) (.inr rfl) (.inr rfl) (.inr rfl) (.inr rfl) (.inr rfl) (.inr rfl) (.inr rfl) (.inr rfl) (.inr rfl) (.inr rfl) (.inr rfl) (.inr rfl) (.inr rfl) (.inr rfl) (.inr rfl) (.inr rfl) (.inr rfl) (.inr rfl) (.inr rfl) (.inr rfl) (.inr rfl) (.inr rfl) (.inr rfl) (.inr rfl) (.inr rfl) (.inr rfl)

theorem State.modPort_keeps (s : State) (l : Nat) (f : PortSt → PortSt) : Keeps 4074071952668972172536891376818756322102936787331872501272280898708762599526673412366794752 s (s.modPort l f) := by
  exact State.setPort_keeps s l _

theorem State.setEp_keeps (s : State) (l : Nat) (p : EpSt) : Keeps 8148143905337944345073782753637512644205873574663745002544561797417525199053346824733589504 s (s.setEp l p) := by
  exact Keeps.upd (s := s) rfl (Keeps.refl s) rfl (.inr rfl) (.inl ⟨rfl, Store.wf_set _ _ _ _⟩) (.inr rfl) (.inr rfl) (.inr rfl) (.inr rfl) (.inr rfl) (.inr rfl) (.inr rfl) (.inr rfl) (.inr rfl) (.inr rfl) (.inr rfl) (.inr rfl) (.inr rfl) (.inr rfl) (.inr rfl) (.inr rfl) (.inr rfl) (.inr rfl) (.inr rfl) (.inr rfl) (.inr rfl) (.inr rfl) (.inr rfl) (.inr rfl) (.inr rfl) (.inr rfl)

theorem State.modEp_keeps (s : State) (l : Nat) (f : EpSt → EpSt) : Keeps 8148143905337944345073782753637512644205873574663745002544561797417525199053346824733589504 s (s.modEp l f) := by
  exact State.setEp_keeps s l _

theorem State.setCtx_keeps (s : State) (l : Nat) (p : CtxSt) : Keeps 16296287810675888690147565507275025288411747149327490005089123594835050398106693649467179008 s (s.setCtx l p) := by
  exact Keeps.upd (s := s) rfl (Keeps.refl s) rfl (.inr rfl) (.inr rfl) (.inl ⟨rfl, Store.wf_set _ _ _ _⟩) (.inr rfl) (.inr rfl) (.inr rfl) (.inr rfl) (.inr rfl) (.inr rfl) (.inr rfl) (.inr rfl) (.inr rfl) (.inr rfl) (.inr rfl) (.inr rfl) (.inr rfl) (.inr rfl) (.inr rfl) (.inr rfl) (.inr rfl) (.inr rfl) (.inr rfl) (.inr rfl) (.inr rfl) (.inr rfl) (.inr rfl) (.inr rfl) (.inr rfl)

theorem State.modCtx_keeps (s : State) (l : Nat) (f : CtxSt → CtxSt) : Keeps 16296287810675888690147565507275025288411747149327490005089123594835050398106693649467179008 s (s.modCtx l f) := by
  exact State.setCtx_keeps s l _

theorem State.setAnt_keeps (s : State) (l : Nat) (p : AntSt) : Keeps 1067993517960455041197510853084776057301352261178326384973520803911109862890320275011481043468288 s (s.setAnt l p) := by
  exact Keeps.upd (s := s) rfl (Keeps.refl s) rfl (.inr rfl) (.inr rfl) (.inr rfl) (.inl ⟨rfl, Store.wf_set _ _ _ _⟩) (.inr rfl) (.inr rfl) (.inr rfl) (.inr rfl) (.inr rfl) (.inr rfl) (.inr rfl) (.inr rfl) (.inr rfl) (.inr rfl) (.inr rfl) (.inr rfl) (.inr rfl) (.inr rfl) (.inr rfl) (.inr rfl) (.inr rfl) (.inr rfl) (.inr rfl) (.inr rfl) (.inr rfl) (.inr rfl) (.inr rfl) (.inr rfl)

theorem State.modAnt_keeps (s : State) (l : Nat) (f : AntSt → AntSt) : Keeps 1067993517960455041197510853084776057301352261178326384973520803911109862890320275011481043468288 s (s.modAnt l f) := by
  exact State.setAnt_keeps s l _

theorem State.writeMem_keeps (s : State) (a : Nat) (bs : List Byte) : Keeps 4171849679533027504677776769862406473833407270227837441302815640277772901915313574263597826048 s (s.writeMem a bs) := by
  exact Keeps.upd (s := s) rfl (Keeps.refl s) rfl (.inr rfl) (.inr rfl) (.inr rfl) (.inr rfl) (.inl ⟨rfl, wf_writeBytes _ _ _⟩) (.inr rfl) (.inr rfl) (.inr rfl) (.inr rfl) (.inr rfl) (.inr rfl) (.inr rfl) (.inr rfl) (.inr rfl) (.inr rfl) (.inr rfl) (.inr rfl) (.inr rfl) (.inr rfl) (.inr rfl) (.inr rfl) (.inr rfl) (.inr rfl) (.inr rfl) (.inr rfl) (.inr rfl) (.inr rfl) (.inr rfl)

theorem State.clearMem_keeps (s : State) (a n : Nat) : Keeps 4171849679533027504677776769862406473833407270227837441302815640277772901915313574263597826048 s (s.clearMem a n) := by
  exact Keeps.upd (s := s) rfl (Keeps.refl s) rfl (.inr rfl) (.inr rfl) (.inr rfl) (.inr rfl) (.inl ⟨rfl, Store.wf_dropIf _ _ _⟩) (.inr rfl) (.inr rfl) (.inr rfl) (.inr rfl) (.inr rfl) (.inr rfl) (.inr rfl) (.inr rfl) (.inr rfl) (.inr rfl) (.inr rfl) (.inr rfl) (.inr rfl) (.inr rfl) (.inr rfl) (.inr rfl) (.inr rfl) (.inr rfl) (.inr rfl) (.inr rfl) (.inr rfl) (.inr rfl) (.inr rfl)

theorem sub_self (a : Nat) : sub a a = true := by simp [sub]

theorem sub_left {a b m : Nat} (h : sub b m = true) (g : sub a b = true) : sub a m = true := by
  have h1 : b &&& m = b := by simpa [sub] using h
  have g1 : a &&& b = a := by simpa [sub] using g
  have e : a &&& m = a := by rw [← g1, Nat.and_assoc, h1]
  simp [sub, e]

theorem sub_testBit {b m k : Nat} (h : sub b m = true) (g : b.testBit k = true) : m.testBit k = true := by
  cases hk : m.testBit k with
  | true => rfl
  | false => rw [sub_bit h hk] at g; cases g


theorem all_bit {m : Nat} (h : sub (2 ^ 135 - 1) m = true) (r : RegName) : m.testBit r.code = true := sub_testBit h r.code_bit


theorem Keeps.foldlFst {α β : Type} {m : Nat} {u : State} {f : State × β → α → State × β} (l : List α) {a : State × β}
    (g : Keeps m u a.1) (h : ∀ b x, Keeps m b.1 (f b x).1) : Keeps m u (l.foldl f a).1 := by
  induction l generalizing a with
  | nil => exact g
  | cons x l ih => exact ih (Keeps.trans (h a x) (sub_self _) g)

theorem Keeps.fst {α : Type} {m : Nat} {s t : State} {x : α} {p : State × α} (k : Keeps m s p.1) (h : p = (t, x)) : Keeps m s t := by
  subst h
  exact k

theorem Keeps.snd {α : Type} {m : Nat} {s t : State} {x : α} {p : α × State} (k : Keeps m s p.2) (h : p = (x, t)) : Keeps m s t := by
  subst h
  exact k


/-- The effect of an event of the running part. -/
theorem act_keeps {m : Nat} {s t : State} {f : State → State} (h : act s f = .next t) (g : Keeps m s (f s)) : Keeps m s t := by
  obtain ⟨rfl, -⟩ | ⟨rfl, -⟩ := act_next h
  · exact g
  · exact Keeps.refl _


theorem Keeps.ite1 {α : Type} {m : Nat} {u : State} {a b : State × α} {c : Prop} [Decidable c] (h : c → Keeps m u a.1)
    (g : ¬c → Keeps m u b.1) : Keeps m u (if c then a else b).1 := by
  split
  · exact h ‹_›
  · exact g ‹_›

theorem Keeps.ite2 {α : Type} {m : Nat} {u : State} {a b : α × State} {c : Prop} [Decidable c] (h : c → Keeps m u a.2)
    (g : ¬c → Keeps m u b.2) : Keeps m u (if c then a else b).2 := by
  split
  · exact h ‹_›
  · exact g ‹_›

/-- The same for an operation that may answer nothing. -/
def KeepsO (m : Nat) (u : State) (o : Option State) : Prop := ∀ t, o = some t → Keeps m u t

theorem KeepsO.absent {m : Nat} {u : State} : KeepsO m u none := fun _ e => absurd e (by simp)

theorem KeepsO.get {m : Nat} {u t : State} {o : Option State} (h : KeepsO m u o) (e : o = some t) : Keeps m u t := h t e

theorem KeepsO.given {m : Nat} {u t : State} (h : Keeps m u t) : KeepsO m u (some t) := by
  intro r e
  exact Option.some.inj e ▸ h

theorem KeepsO.ite {m : Nat} {u : State} {a b : Option State} {c : Prop} [Decidable c] (h : c → KeepsO m u a)
    (g : ¬c → KeepsO m u b) : KeepsO m u (if c then a else b) := by
  split
  · exact h ‹_›
  · exact g ‹_›

theorem KeepsO.trans {a m : Nat} {u s : State} {o : Option State} (h : KeepsO a s o) (hs : sub a m = true) (g : Keeps m u s) :
    KeepsO m u o := fun t e => (h t e).trans hs g

theorem KeepsO.map {m : Nat} {u : State} {o : Option State} {f : State → State} (h : KeepsO m u o)
    (g : ∀ t, Keeps m t (f t)) : KeepsO m u (o.map f) := by
  intro r e
  cases o with
  | none => exact absurd e (by simp)
  | some t => exact Option.some.inj e ▸ (g t).trans (by simp [sub]) (h t rfl)

theorem KeepsO.mapped {α : Type} {m : Nat} {u : State} {o : Option α} {f : α → State} (g : ∀ x, Keeps m u (f x)) :
    KeepsO m u (o.map f) := by
  intro r e
  cases o with
  | none => exact absurd e (by simp)
  | some x => exact Option.some.inj e ▸ g x

theorem KeepsO.cut {m : Nat} {u y : State} {o : Option State} (h : Keeps m u y) (g : Keeps m u y → KeepsO m u o) : KeepsO m u o := g h

theorem Keeps.cut {m : Nat} {u y t : State} (h : Keeps m u y) (g : Keeps m u y → Keeps m u t) : Keeps m u t := g h

end Sys2Proof.Machine
end

