-- ==== Sys2Proof/Laws/KeepsOps.lean ====
section
/-! SUPPORT. Sys2Proof/Laws/KeepsOps.lean: what each operation of Machine/Ops.lean leaves alone. -/

namespace Sys2Proof.Machine

theorem State.when_keeps {m : Nat} (s : State) (c : Bool) {f : State → State} (h : Keeps m s (f s)) : Keeps m s (State.when s c f) := by
  unfold State.when
  exact Keeps.ite (fun _ => h) (fun _ => Keeps.refl s)

theorem State.fresh_keeps (s : State) : Keeps 0x8000000000000000000000000000000000000000000000000000000000000000000000000000000000 s (State.fresh s).2 := by
  unfold State.fresh
  repeat' first
    | with_reducible exact .refl _
    | with_reducible assumption
    | exact rfl
    | with_reducible intro _
    | with_reducible refine .ite ?_ ?_
    | with_reducible refine .ite2 ?_ ?_
    | split
    | with_reducible apply Keeps.upd rfl
    | exact Or.inl rfl
    | exact Or.inr rfl

theorem State.setLinkState_keeps (s : State) (l : Nat) (v : Nat) : Keeps 0x2000000800 s (State.setLinkState s l v) := by
  unfold State.setLinkState
  repeat' first
    | with_reducible exact .refl _
    | with_reducible assumption
    | exact rfl
    | with_reducible intro _
    | with_reducible refine .ite ?_ ?_
    | with_reducible refine (State.setFld_keeps _ _ _ _ ?_).trans (sub_self _) ?_
    | split

theorem State.setLinkWidth_keeps (s : State) (l : Nat) (v : Nat) : Keeps 0x2000000800 s (State.setLinkWidth s l v) := by
  unfold State.setLinkWidth
  repeat' first
    | with_reducible exact .refl _
    | with_reducible assumption
    | exact rfl
    | with_reducible intro _
    | with_reducible refine .ite ?_ ?_
    | with_reducible refine (State.setFld_keeps _ _ _ _ ?_).trans (sub_self _) ?_
    | split

theorem State.emit_keeps (s : State) (m : OutMsg) : Keeps 0x4000000000000000000000000000000000000000000000000000000000000000000000000000000000 s (State.emit s m) := by
  unfold State.emit
  repeat' first
    | with_reducible exact .refl _
    | with_reducible assumption
    | exact rfl
    | with_reducible intro _
    | with_reducible refine .ite ?_ ?_
    | split
    | with_reducible apply Keeps.upd rfl
    | exact Or.inl rfl
    | exact Or.inr rfl

theorem State.emits_keeps (s : State) (ms : List OutMsg) : Keeps 0x4000000000000000000000000000000000000000000000000000000000000000000000000000000000 s (State.emits s ms) := by
  unfold State.emits
  repeat' first
    | with_reducible exact .refl _
    | with_reducible assumption
    | exact rfl
    | with_reducible intro _
    | with_reducible refine .ite ?_ ?_
    | split
    | with_reducible apply Keeps.upd rfl
    | exact Or.inl rfl
    | exact Or.inr rfl

theorem State.silOldest_keeps (s : State) : Keeps 0x8000000000000000000000000000000 s (State.silOldest s) := by
  unfold State.silOldest
  repeat' first
    | with_reducible exact .refl _
    | with_reducible assumption
    | (extract_lets +onlyGivenNames y_; refine Keeps.cut (y := y_) ?_ ?_; rotate_left; clear_value y_; intro _; rotate_left; dsimp -iota only [y_]; clear y_)
    | exact rfl
    | with_reducible intro _
    | with_reducible refine .ite ?_ ?_
    | with_reducible refine (State.setFld_keeps _ _ _ _ ?_).trans (sub_self _) ?_
    | split
    | dsimp -iota only

theorem State.silPush_keeps (s : State) (r : SilRec) : Keeps 0x40000000000000000000000000000000000000000000000020000000000000000000000000000000 s (State.silPush s r) := by
  unfold State.silPush
  repeat' first
    | with_reducible exact .refl _
    | with_reducible assumption
    | exact rfl
    | with_reducible intro _
    | with_reducible refine .ite ?_ ?_
    | with_reducible refine (State.bump_keeps _ _ _ _ ?_).trans (sub_self _) ?_
    | split
    | with_reducible apply Keeps.upd rfl
    | exact Or.inl rfl
    | exact Or.inr rfl

theorem State.chrTrigger_keeps (s : State) (cause : Nat) : Keeps 0x2000000000000000000000000000000000000000000000000a00000000000000000000000000000000 s (State.chrTrigger s cause) := by
  unfold State.chrTrigger
  repeat' first
    | with_reducible exact .refl _
    | with_reducible assumption
    | (extract_lets +onlyGivenNames y_; refine Keeps.cut (y := y_) ?_ ?_; rotate_left; clear_value y_; intro _; rotate_left; dsimp -iota only [y_]; clear y_)
    | exact rfl
    | with_reducible intro _
    | with_reducible refine .ite ?_ ?_
    | with_reducible refine (State.setFld_keeps _ _ _ _ ?_).trans (sub_self _) ?_
    | split
    | dsimp -iota only
    | with_reducible apply Keeps.upd rfl
    | exact Or.inl rfl
    | exact Or.inr rfl

theorem State.chrMatch_keeps (s : State) (source code severity : Nat) : Keeps 0x2000000000000000000000000000000000000000000000000a00000000000000000000000000000000 s (State.chrMatch s source code severity) := by
  unfold State.chrMatch
  repeat' first
    | with_reducible exact .refl _
    | with_reducible assumption
    | (extract_lets +onlyGivenNames y_; refine Keeps.cut (y := y_) ?_ ?_; rotate_left; clear_value y_; intro _; rotate_left; dsimp -iota only [y_]; clear y_)
    | exact rfl
    | with_reducible intro _
    | with_reducible refine .ite ?_ ?_
    | with_reducible refine (State.chrTrigger_keeps _ _).trans ?_ ?_
    | split
    | dsimp -iota only

theorem State.unclean_keeps (s : State) : Keeps 0x1000000000000000000000000000 s (State.unclean s) := by
  unfold State.unclean
  repeat' first
    | with_reducible exact .refl _
    | with_reducible assumption
    | exact rfl
    | with_reducible intro _
    | with_reducible refine .ite ?_ ?_
    | with_reducible refine (State.setFld_keeps _ _ _ _ ?_).trans (sub_self _) ?_
    | split

theorem State.silStore_keeps (s : State) (source code severity : Nat) (slice : Nat) (ctx : Option Nat) (isSealed : Bool) (params : List Nat) : Keeps 0x40000000000000000000000000000000000000000000000028000000000000000000000000000000 s (State.silStore s source code severity slice ctx isSealed params) := by
  unfold State.silStore
  repeat' first
    | with_reducible exact .refl _
    | with_reducible assumption
    | (extract_lets +onlyGivenNames y_; refine Keeps.cut (y := y_) ?_ ?_; rotate_left; clear_value y_; intro _; rotate_left; dsimp -iota only [y_]; clear y_)
    | exact rfl
    | with_reducible intro _
    | with_reducible refine .ite ?_ ?_
    | with_reducible refine (State.silPush_keeps _ _).trans ?_ ?_
    | with_reducible refine (State.silOldest_keeps _).trans ?_ ?_
    | with_reducible refine (State.setFld_keeps _ _ _ _ ?_).trans (sub_self _) ?_
    | with_reducible refine (State.bump_keeps _ _ _ _ ?_).trans (sub_self _) ?_
    | split
    | dsimp -iota only
    | with_reducible apply Keeps.upd rfl
    | exact Or.inl rfl
    | exact Or.inr rfl

theorem State.silRec_keeps (s : State) (source code severity slice : Nat) (ctx : Option Nat) (isSealed : Bool) (params : List Nat) : Keeps 0x2040000000000000000000000000000000000000000000000a28000000000000000000000000000000 s (State.silRec s source code severity slice ctx isSealed params) := by
  unfold State.silRec
  repeat' first
    | with_reducible exact .refl _
    | with_reducible assumption
    | (extract_lets +onlyGivenNames y_; refine Keeps.cut (y := y_) ?_ ?_; rotate_left; clear_value y_; intro _; rotate_left; dsimp -iota only [y_]; clear y_)
    | exact rfl
    | with_reducible intro _
    | with_reducible refine .ite ?_ ?_
    | with_reducible refine (State.silStore_keeps _ _ _ _ _ _ _ _).trans ?_ ?_
    | with_reducible refine (State.chrMatch_keeps _ _ _ _).trans ?_ ?_
    | split
    | dsimp -iota only
    | with_reducible apply Keeps.upd rfl
    | exact Or.inl rfl
    | exact Or.inr rfl

theorem State.sillage_keeps (s : State) (source code severity : Nat) (params : List Nat) : Keeps 0x2040000000000000000000000000000000000000000000000a28000000000000000000000000000000 s (State.sillage s source code severity params) := by
  unfold State.sillage
  repeat' first
    | with_reducible exact .refl _
    | with_reducible assumption
    | exact rfl
    | with_reducible intro _
    | with_reducible refine .ite ?_ ?_
    | with_reducible refine (State.silRec_keeps _ _ _ _ _ _ _ _).trans ?_ ?_
    | split

theorem State.queueEvent_keeps (s : State) (a : Nat) (code : Nat) (args : List (Nat × Nat)) : Keeps 0x80000000000000000000000000000000000000000000000000000010000000000000000000000000 s (State.queueEvent s a code args) := by
  unfold State.queueEvent
  repeat' first
    | with_reducible exact .refl _
    | with_reducible assumption
    | (extract_lets +onlyGivenNames y_; refine Keeps.cut (y := y_) ?_ ?_; rotate_left; clear_value y_; intro _; rotate_left; dsimp -iota only [y_]; clear y_)
    | exact rfl
    | with_reducible intro _
    | with_reducible refine .ite ?_ ?_
    | with_reducible refine (State.setAnt_keeps _ _ _).trans ?_ ?_
    | with_reducible refine (State.bump_keeps _ _ _ _ ?_).trans (sub_self _) ?_
    | split
    | dsimp -iota only

theorem State.event_keeps (s : State) (code : Nat) (args : List (Nat × Nat)) : Keeps 0x80000000000000000000000000000000000000000000000000000010000000000000000000000000 s (State.event s code args) := by
  unfold State.event
  repeat' first
    | with_reducible exact .refl _
    | with_reducible assumption
    | exact rfl
    | with_reducible intro _
    | with_reducible refine .ite ?_ ?_
    | with_reducible refine (State.queueEvent_keeps _ _ _ _).trans ?_ ?_
    | split

theorem State.sendMgmt_keeps (s : State) (dst : Nat) (m : Mgmt) : Keeps 0x4002000000000000000000000000000000000000000000000000000000000000000000000000000000 s (State.sendMgmt s dst m) := by
  unfold State.sendMgmt
  repeat' first
    | with_reducible exact .refl _
    | with_reducible assumption
    | exact rfl
    | with_reducible intro _
    | with_reducible refine .ite ?_ ?_
    | split
    | with_reducible apply Keeps.upd rfl
    | exact Or.inl rfl
    | exact Or.inr rfl

theorem State.askMgmt_keeps (s : State) (dst : Nat) (m : Mgmt) : Keeps 0x4002000000000000000000000000000000000000000000000000000000000000000000000000000000 s (State.askMgmt s dst m) := by
  unfold State.askMgmt
  repeat' first
    | with_reducible exact .refl _
    | with_reducible assumption
    | (extract_lets +onlyGivenNames y_; refine Keeps.cut (y := y_) ?_ ?_; rotate_left; clear_value y_; intro _; rotate_left; dsimp -iota only [y_]; clear y_)
    | exact rfl
    | with_reducible intro _
    | with_reducible refine .ite ?_ ?_
    | with_reducible refine (State.sendMgmt_keeps _ _ _).trans ?_ ?_
    | split
    | dsimp -iota only
    | with_reducible apply Keeps.upd rfl
    | exact Or.inl rfl
    | exact Or.inr rfl

theorem State.answered_keeps (s : State) (p : Nat → Mgmt → Bool) : Keeps 0x2000000000000000000000000000000000000000000000000000000000000000000000000000000 s (State.answered s p) := by
  unfold State.answered
  repeat' first
    | with_reducible exact .refl _
    | with_reducible assumption
    | exact rfl
    | with_reducible intro _
    | with_reducible refine .ite ?_ ?_
    | split
    | with_reducible apply Keeps.upd rfl
    | exact Or.inl rfl
    | exact Or.inr rfl

theorem State.noteSeen_keeps (s : State) (h : MsgHdr) : Keeps 0x2000000000000000000000000000000000000000000000000000000000000000000000000000000 s (State.noteSeen s h) := by
  unfold State.noteSeen
  repeat' first
    | with_reducible exact .refl _
    | with_reducible assumption
    | exact rfl
    | with_reducible intro _
    | with_reducible refine .ite ?_ ?_
    | split
    | with_reducible apply Keeps.upd rfl
    | exact Or.inl rfl
    | exact Or.inr rfl

theorem State.sendReport_keeps (s : State) (l : Nat) : Keeps 0x4002002000000000000000000000000000000000000000000000000000000000000000000000000000 s (State.sendReport s l) := by
  unfold State.sendReport
  repeat' first
    | with_reducible exact .refl _
    | with_reducible assumption
    | exact rfl
    | with_reducible intro _
    | with_reducible refine .ite ?_ ?_
    | with_reducible refine (State.sendMgmt_keeps _ _ _).trans ?_ ?_
    | with_reducible refine (State.modPort_keeps _ _ _).trans ?_ ?_
    | split

theorem State.repeatReport_keeps (s : State) (l : Nat) : Keeps 0x4000002000000000000000000000000000000000000000000000000000000000000000000000000000 s (State.repeatReport s l) := by
  unfold State.repeatReport
  repeat' first
    | with_reducible exact .refl _
    | with_reducible assumption
    | exact rfl
    | with_reducible intro _
    | with_reducible refine .ite ?_ ?_
    | with_reducible refine (State.emit_keeps _ _).trans ?_ ?_
    | with_reducible refine (State.modPort_keeps _ _ _).trans ?_ ?_
    | split

theorem State.raiseEpoch_keeps (s : State) (h : MsgHdr) : Keeps 0x4000002000000000000000000000000000000000000000000000000000000000000000000800000000 s (State.raiseEpoch s h) := by
  unfold State.raiseEpoch
  repeat' first
    | with_reducible exact .refl _
    | with_reducible assumption
    | (extract_lets +onlyGivenNames y_; refine Keeps.cut (y := y_) ?_ ?_; rotate_left; clear_value y_; intro _; rotate_left; dsimp -iota only [y_]; clear y_)
    | exact rfl
    | with_reducible intro _
    | with_reducible refine .ite ?_ ?_
    | with_reducible refine (State.repeatReport_keeps _ _).trans ?_ ?_
    | with_reducible refine (State.setFld_keeps _ _ _ _ ?_).trans (sub_self _) ?_
    | with_reducible refine .foldl _ ?_ ?_
    | split
    | dsimp -iota only

theorem State.relay_keeps (s : State) (h : MsgHdr) : Keeps 0x4000000000000000000000000000000000000000000000000000000000000000000000000000000000 s (State.relay s h) := by
  unfold State.relay
  repeat' first
    | with_reducible exact .refl _
    | with_reducible assumption
    | exact rfl
    | with_reducible intro _
    | with_reducible refine .ite ?_ ?_
    | with_reducible refine (State.emit_keeps _ _).trans ?_ ?_
    | split

theorem State.fence_keeps (s : State) : Keeps 0x20d0000000000000000000000000000000000000000000000a28000010000000000000001082000002 s (State.fence s) := by
  unfold State.fence
  repeat' first
    | with_reducible exact .refl _
    | with_reducible assumption
    | (extract_lets +onlyGivenNames y_; refine Keeps.cut (y := y_) ?_ ?_; rotate_left; clear_value y_; intro _; rotate_left; dsimp -iota only [y_]; clear y_)
    | exact rfl
    | with_reducible intro _
    | with_reducible refine .ite ?_ ?_
    | with_reducible refine (State.event_keeps _ _ _).trans ?_ ?_
    | with_reducible refine (State.sillage_keeps _ _ _ _ _).trans ?_ ?_
    | with_reducible refine (State.setFld_keeps _ _ _ _ ?_).trans (sub_self _) ?_
    | with_reducible refine (State.bump_keeps _ _ _ _ ?_).trans (sub_self _) ?_
    | split
    | dsimp -iota only
    | with_reducible apply Keeps.upd rfl
    | exact Or.inl rfl
    | exact Or.inr rfl

theorem State.fenceOn_keeps (s : State) (epoch : Nat) : Keeps 0x20d0000000000000000000000000000000000000000000000a28000010000000000000001082000002 s (State.fenceOn s epoch) := by
  unfold State.fenceOn
  repeat' first
    | with_reducible exact .refl _
    | with_reducible assumption
    | exact rfl
    | with_reducible intro _
    | with_reducible refine .ite ?_ ?_
    | with_reducible refine (State.fence_keeps _).trans ?_ ?_
    | split

theorem State.fromManager_keeps {m : Nat} (s : State) (h : MsgHdr) (f answer : State → State) (hm : sub 0x60d2002000000000000000000000000000000000000000000a28000010000000000000001882000002 m = true) (hf : ∀ t, Keeps m t (f t)) (ha : ∀ t, Keeps m t (answer t)) : Keeps m s (s.fromManager h f answer) := by
  unfold State.fromManager
  refine Keeps.ite (fun _ => Keeps.ite (fun _ => Keeps.ite (fun _ => ?_) (fun _ => ?_)) (fun _ => ?_)) (fun _ => ?_)
  · exact (State.raiseEpoch_keeps _ _).trans (sub_left hm (by rfl)) ((State.fenceOn_keeps _ _).trans (sub_left hm (by rfl)) (.refl s))
  · exact (ha _).trans (sub_self _) ((State.raiseEpoch_keeps _ _).trans (sub_left hm (by rfl)) ((State.fenceOn_keeps _ _).trans (sub_left hm (by rfl)) (.refl s)))
  · exact (ha _).trans (sub_self _) ((hf _).trans (sub_self _) ((State.relay_keeps _ _).trans (sub_left hm (by rfl))
      ((State.noteSeen_keeps _ _).trans (sub_left hm (by rfl)) ((State.raiseEpoch_keeps _ _).trans (sub_left hm (by rfl))
        ((State.fenceOn_keeps _ _).trans (sub_left hm (by rfl)) (.refl s))))))
  · exact (State.bump_keeps _ F.TWN_EVENTS_STALE_DROPS 0 1 (sub_testBit hm (by rfl))).trans (sub_self _) ((State.fenceOn_keeps _ _).trans (sub_left hm (by rfl)) (.refl s))

theorem State.fromAgent_keeps {m : Nat} (s : State) (h : MsgHdr) (f answer : State → State) (hm : sub 0x60d2000000000000000000000000000000000000000000000a28000010000000000000001082000002 m = true) (hf : ∀ t, Keeps m t (f t)) (ha : ∀ t, Keeps m t (answer t)) : Keeps m s (s.fromAgent h f answer) := by
  unfold State.fromAgent
  refine Keeps.ite (fun _ => Keeps.ite (fun _ => ?_) (fun _ => ?_)) (fun _ => ?_)
  · exact (State.fenceOn_keeps _ _).trans (sub_left hm (by rfl)) (.refl s)
  · exact (ha _).trans (sub_self _) ((State.fenceOn_keeps _ _).trans (sub_left hm (by rfl)) (.refl s))
  · exact (ha _).trans (sub_self _) ((hf _).trans (sub_self _) ((State.relay_keeps _ _).trans (sub_left hm (by rfl))
      ((State.noteSeen_keeps _ _).trans (sub_left hm (by rfl)) ((State.fenceOn_keeps _ _).trans (sub_left hm (by rfl)) (.refl s)))))

theorem State.atManager_keeps {m : Nat} (s : State) (h : MsgHdr) (f answer : State → State) (hm : sub 0x60d2000000000000000000000000000000000000000000000a28000010000000000000001082000002 m = true) (hf : ∀ t, Keeps m t (f t)) (ha : ∀ t, Keeps m t (answer t)) : Keeps m s (s.atManager h f answer) := by
  unfold State.atManager
  refine Keeps.ite (fun _ => ?_) (fun _ => ?_)
  · exact State.fromAgent_keeps s h f answer hm hf ha
  · exact (State.fenceOn_keeps _ _).trans (sub_left hm (by rfl)) (.refl s)

theorem State.modTwin_keeps (s : State) (f : TwinSt → TwinSt) : Keeps 0x10000000000000000000000000000000000000000000000000000000000000000000000000000000 s (State.modTwin s f) := by
  unfold State.modTwin
  repeat' first
    | with_reducible exact .refl _
    | with_reducible assumption
    | exact rfl
    | with_reducible intro _
    | with_reducible refine .ite ?_ ?_
    | split
    | with_reducible apply Keeps.upd rfl
    | exact Or.inl rfl
    | exact Or.inr rfl

theorem State.askSnapshot_keeps (s : State) : Keeps 0x4002000000000000000000000000000000000000000000000000000000000000000000000000000000 s (State.askSnapshot s) := by
  unfold State.askSnapshot
  repeat' first
    | with_reducible exact .refl _
    | with_reducible assumption
    | exact rfl
    | with_reducible intro _
    | with_reducible refine .ite ?_ ?_
    | with_reducible refine (State.askMgmt_keeps _ _ _).trans ?_ ?_
    | split

theorem State.unsync_keeps (s : State) (clean : Bool) : Keeps 0x90000000000000000000000000000000000000000000000000000010000000000000001280000000 s (State.unsync s clean) := by
  unfold State.unsync
  repeat' first
    | with_reducible exact .refl _
    | with_reducible assumption
    | (extract_lets +onlyGivenNames y_; refine Keeps.cut (y := y_) ?_ ?_; rotate_left; clear_value y_; intro _; rotate_left; dsimp -iota only [y_]; clear y_)
    | exact rfl
    | with_reducible intro _
    | with_reducible refine .ite ?_ ?_
    | with_reducible refine (State.modTwin_keeps _ _).trans ?_ ?_
    | with_reducible refine (State.event_keeps _ _ _).trans ?_ ?_
    | with_reducible refine (State.setFld_keeps _ _ _ _ ?_).trans (sub_self _) ?_
    | with_reducible refine (State.bump_keeps _ _ _ _ ?_).trans (sub_self _) ?_
    | split
    | dsimp -iota only

theorem State.finishFw_keeps (s : State) (r : FwRef) (code value : Nat) (block : List Byte) : Keeps 0x30000000000000000000000000000000000000000000000000000000000000000000000000000000 s (State.finishFw s r code value block) := by
  unfold State.finishFw
  repeat' first
    | with_reducible exact .refl _
    | with_reducible assumption
    | (extract_lets +onlyGivenNames y_; refine Keeps.cut (y := y_) ?_ ?_; rotate_left; clear_value y_; intro _; rotate_left; dsimp -iota only [y_]; clear y_)
    | exact rfl
    | with_reducible intro _
    | with_reducible refine .ite ?_ ?_
    | split
    | dsimp -iota only
    | with_reducible apply Keeps.upd rfl
    | exact Or.inl rfl
    | exact Or.inr rfl

theorem State.degradePart_keeps (s : State) (handle : Nat) : Keeps 0x200000000000000000000000000000000000000000000000000000000000002000000000000000 s (State.degradePart s handle) := by
  unfold State.degradePart
  repeat' first
    | with_reducible exact .refl _
    | with_reducible assumption
    | (extract_lets +onlyGivenNames y_; refine Keeps.cut (y := y_) ?_ ?_; rotate_left; clear_value y_; intro _; rotate_left; dsimp -iota only [y_]; clear y_)
    | exact rfl
    | with_reducible intro _
    | with_reducible refine .ite ?_ ?_
    | with_reducible refine (State.setFld_keeps _ _ _ _ ?_).trans (sub_self _) ?_
    | with_reducible refine .foldl _ ?_ ?_
    | split
    | dsimp -iota only
    | with_reducible apply Keeps.upd rfl
    | exact Or.inl rfl
    | exact Or.inr rfl

theorem State.degradeIf_keeps (s : State) (p : MgrLoad → Bool) : Keeps 0x88200000000000000000000000000000000000000000000000000010000000002000000040000000 s (State.degradeIf s p) := by
  unfold State.degradeIf
  repeat' first
    | with_reducible exact .refl _
    | with_reducible assumption
    | (extract_lets +onlyGivenNames y_; refine Keeps.cut (y := y_) ?_ ?_; rotate_left; clear_value y_; intro _; rotate_left; dsimp -iota only [y_]; clear y_)
    | exact rfl
    | with_reducible intro _
    | with_reducible refine .ite ?_ ?_
    | with_reducible refine (State.degradePart_keeps _ _).trans ?_ ?_
    | with_reducible refine (State.event_keeps _ _ _).trans ?_ ?_
    | with_reducible refine (State.bump_keeps _ _ _ _ ?_).trans (sub_self _) ?_
    | with_reducible refine .foldl _ ?_ ?_
    | split
    | dsimp -iota only
    | with_reducible apply Keeps.upd rfl
    | exact Or.inl rfl
    | exact Or.inr rfl

theorem State.degrade_keeps (s : State) : Keeps 0x88200000000000000000000000000000000000000000000000000010000000002000000040000000 s (State.degrade s) := by
  unfold State.degrade
  repeat' first
    | with_reducible exact .refl _
    | with_reducible assumption
    | exact rfl
    | with_reducible intro _
    | with_reducible refine .ite ?_ ?_
    | with_reducible refine (State.degradeIf_keeps _ _).trans ?_ ?_
    | split

theorem State.modRun_keeps (s : State) (q i : Nat) (f : RunCmd → RunCmd) : Keeps 0x20000000000000000000000000000000000000000000000000000000000000000000000000000 s (State.modRun s q i f) := by
  unfold State.modRun
  repeat' first
    | with_reducible exact .refl _
    | with_reducible assumption
    | exact rfl
    | with_reducible intro _
    | with_reducible refine .ite ?_ ?_
    | split
    | with_reducible apply Keeps.upd rfl
    | exact Or.inl rfl
    | exact Or.inr rfl

theorem State.cmdFail_keeps (s : State) (q i off status : Nat) : Keeps 0x20000000000000000000000000000000000000000000000000000000000000000000000000000 s (State.cmdFail s q i off status) := by
  unfold State.cmdFail
  repeat' first
    | with_reducible exact .refl _
    | with_reducible assumption
    | exact rfl
    | with_reducible intro _
    | with_reducible refine .ite ?_ ?_
    | with_reducible refine (State.modRun_keeps _ _ _ _).trans ?_ ?_
    | split

theorem State.mgrCommand_keeps {m : Nat} (s : State) (r : FwRef) (f : State → State) (hm : sub 0x30000000000000000000000000000000000000000000000000000000000000000000000000000000 m = true) (hf : Keeps m s (f s)) : Keeps m s (s.mgrCommand r f) := by
  unfold State.mgrCommand
  refine Keeps.ite (fun _ => ?_) (fun _ => Keeps.ite (fun _ => ?_) (fun _ => hf))
  · exact (State.finishFw_keeps _ _ _ _ _).trans (sub_left hm (by rfl)) (.refl s)
  · exact (State.finishFw_keeps _ _ _ _ _).trans (sub_left hm (by rfl)) (.refl s)

theorem State.linkLost_keeps (s : State) (chip port : Nat) : Keeps 0x2041000000000000000000000000000000000000000000000a28000000000000000000000000000000 s (State.linkLost s chip port) := by
  unfold State.linkLost
  repeat' first
    | with_reducible exact .refl _
    | with_reducible assumption
    | (extract_lets +onlyGivenNames y_; refine Keeps.cut (y := y_) ?_ ?_; rotate_left; clear_value y_; intro _; rotate_left; dsimp -iota only [y_]; clear y_)
    | exact rfl
    | with_reducible intro _
    | with_reducible refine .ite ?_ ?_
    | with_reducible refine (State.sillage_keeps _ _ _ _ _).trans ?_ ?_
    | split
    | dsimp -iota only
    | with_reducible apply Keeps.upd rfl
    | exact Or.inl rfl
    | exact Or.inr rfl

theorem State.appendDefect_keeps (s : State) (kind place cause unit : Nat) : Keeps 0x800000000000000000000000000000000000000000000000004401000000000000000000000000000 s (State.appendDefect s kind place cause unit) := by
  unfold State.appendDefect
  repeat' first
    | with_reducible exact .refl _
    | with_reducible assumption
    | (extract_lets +onlyGivenNames y_; refine Keeps.cut (y := y_) ?_ ?_; rotate_left; clear_value y_; intro _; rotate_left; dsimp -iota only [y_]; clear y_)
    | exact rfl
    | with_reducible intro _
    | with_reducible refine .ite ?_ ?_
    | with_reducible refine (State.unclean_keeps _).trans ?_ ?_
    | with_reducible refine (State.setFld_keeps _ _ _ _ ?_).trans (sub_self _) ?_
    | with_reducible refine (State.bump_keeps _ _ _ _ ?_).trans (sub_self _) ?_
    | split
    | dsimp -iota only
    | with_reducible apply Keeps.upd rfl
    | exact Or.inl rfl
    | exact Or.inr rfl

end Sys2Proof.Machine
end

