-- ==== Sys2Proof/Laws/KeepsTime.lean ====
section
/-! SUPPORT. Sys2Proof/Laws/KeepsTime.lean: what each operation of Machine/Time.lean leaves alone. -/

namespace Sys2Proof.Machine

theorem State.setBase_keeps (s : State) (ftu : Ftu) (num : Wb) (len : Nat) : Keeps 0x100000000000000000000000000000000000000000000000000000000000000000000000003c s (State.setBase s ftu num len) := by
  unfold State.setBase
  repeat' first
    | with_reducible exact .refl _
    | with_reducible assumption
    | (extract_lets +onlyGivenNames y_; refine Keeps.cut (y := y_) ?_ ?_; rotate_left; clear_value y_; intro _; rotate_left; dsimp -iota only [y_]; clear y_)
    | exact rfl
    | with_reducible intro _
    | with_reducible refine .ite ?_ ?_
    | with_reducible refine (State.setFld_keeps _ _ _ _ ?_).trans (sub_self _) ?_
    | with_reducible refine (State.setReg_keeps _ _ _ _ ?_).trans (sub_self _) ?_
    | split
    | dsimp -iota only
    | with_reducible apply Keeps.upd rfl
    | exact Or.inl rfl
    | exact Or.inr rfl

theorem State.clearChange_keeps (s : State) : Keeps 0x1000000000000000000000000000000000000000000000000000000000000000000000000004 s (State.clearChange s) := by
  unfold State.clearChange
  repeat' first
    | with_reducible exact .refl _
    | with_reducible assumption
    | (extract_lets +onlyGivenNames y_; refine Keeps.cut (y := y_) ?_ ?_; rotate_left; clear_value y_; intro _; rotate_left; dsimp -iota only [y_]; clear y_)
    | exact rfl
    | with_reducible intro _
    | with_reducible refine .ite ?_ ?_
    | with_reducible refine (State.setFld_keeps _ _ _ _ ?_).trans (sub_self _) ?_
    | split
    | dsimp -iota only
    | with_reducible apply Keeps.upd rfl
    | exact Or.inl rfl
    | exact Or.inr rfl

theorem State.agentChange_keeps (s : State) (c : WbChange) : Keeps 0x2001000000000000000000000000000000000000000000000000000000000000000000000000004 s (State.agentChange s c) := by
  unfold State.agentChange
  repeat' first
    | with_reducible exact .refl _
    | with_reducible assumption
    | (extract_lets +onlyGivenNames y_; refine Keeps.cut (y := y_) ?_ ?_; rotate_left; clear_value y_; intro _; rotate_left; dsimp -iota only [y_]; clear y_)
    | exact rfl
    | with_reducible intro _
    | with_reducible refine .ite ?_ ?_
    | with_reducible refine (State.clearChange_keeps _).trans ?_ ?_
    | with_reducible refine (State.answered_keeps _ _).trans ?_ ?_
    | with_reducible refine (State.setFld_keeps _ _ _ _ ?_).trans (sub_self _) ?_
    | split
    | dsimp -iota only
    | with_reducible apply Keeps.upd rfl
    | exact Or.inl rfl
    | exact Or.inr rfl

theorem State.agentChangeAnswer_keeps (s : State) (c : WbChange) : Keeps 0x4002000000000000000000000000000000000000000000000000000000000000000000000000000000 s (State.agentChangeAnswer s c) := by
  unfold State.agentChangeAnswer
  repeat' first
    | with_reducible exact .refl _
    | with_reducible assumption
    | exact rfl
    | with_reducible intro _
    | with_reducible refine .ite ?_ ?_
    | with_reducible refine (State.sendMgmt_keeps _ _ _).trans ?_ ?_
    | split

theorem State.noteChangeAck_keeps (s : State) (src : Chip) (m : Wb) : Keeps 0x1000000000000000000000000000000000000000000000000000000000000000000000000000 s (State.noteChangeAck s src m) := by
  unfold State.noteChangeAck
  repeat' first
    | with_reducible exact .refl _
    | with_reducible assumption
    | exact rfl
    | with_reducible intro _
    | with_reducible refine .ite ?_ ?_
    | split
    | with_reducible apply Keeps.upd rfl
    | exact Or.inl rfl
    | exact Or.inr rfl

theorem State.answerChangeQuery_keeps (s : State) (src : Chip) (m : Wb) : Keeps 0x4002000000000000000000000000000000000000000000000000000000000000000000000000000000 s (State.answerChangeQuery s src m) := by
  unfold State.answerChangeQuery
  repeat' first
    | with_reducible exact .refl _
    | with_reducible assumption
    | exact rfl
    | with_reducible intro _
    | with_reducible refine .ite ?_ ?_
    | with_reducible refine (State.sendMgmt_keeps _ _ _).trans ?_ ?_
    | split

theorem execWbChangeReceive_keeps (h : MsgHdr) (c : WbChange) (s : State) {z_ : State} (h_ : execWbChangeReceive h c s = .next z_) : Keeps 0x60d2003000000000000000000000000000000000000000000a28000010000000000000001882000006 s z_ := by
  unfold execWbChangeReceive at h_
  refine act_keeps h_ ?_
  repeat' first
    | with_reducible exact .refl _
    | with_reducible assumption
    | exact rfl
    | with_reducible intro _
    | with_reducible refine .ite ?_ ?_
    | with_reducible refine (State.answerChangeQuery_keeps _ _ _).trans ?_ ?_
    | with_reducible refine (State.noteChangeAck_keeps _ _ _).trans ?_ ?_
    | with_reducible refine (State.agentChangeAnswer_keeps _ _).trans ?_ ?_
    | with_reducible refine (State.agentChange_keeps _ _).trans ?_ ?_
    | with_reducible refine (State.atManager_keeps _ _ _ _ ?_ ?_ ?_).trans (sub_self _) ?_
    | with_reducible refine (State.fromManager_keeps _ _ _ _ ?_ ?_ ?_).trans (sub_self _) ?_
    | with_reducible exact .ident _
    | split

theorem execWbChangeDecide_keeps (s : State) {z_ : State} (h_ : execWbChangeDecide s = .next z_) : Keeps 0x4032001000000000000000000000000000000000000000000000000000000000000000000000000000 s z_ := by
  unfold execWbChangeDecide at h_
  refine act_keeps h_ ?_
  repeat' first
    | with_reducible exact .refl _
    | with_reducible assumption
    | (extract_lets +onlyGivenNames y_; refine Keeps.cut (y := y_) ?_ ?_; rotate_left; clear_value y_; intro _; rotate_left; dsimp -iota only [y_]; clear y_)
    | exact rfl
    | with_reducible intro _
    | with_reducible refine .ite ?_ ?_
    | with_reducible refine (State.finishFw_keeps _ _ _ _ _).trans ?_ ?_
    | with_reducible refine (State.sendMgmt_keeps _ _ _).trans ?_ ?_
    | split
    | dsimp -iota only
    | with_reducible apply Keeps.upd rfl
    | exact Or.inl rfl
    | exact Or.inr rfl

theorem execWbChangeQuery_keeps (s : State) {z_ : State} (h_ : execWbChangeQuery s = .next z_) : Keeps 0x4002000000000000000000000000000000000000000000000000000000000000000000000000000000 s z_ := by
  unfold execWbChangeQuery at h_
  refine act_keeps h_ ?_
  repeat' first
    | with_reducible exact .refl _
    | with_reducible assumption
    | exact rfl
    | with_reducible intro _
    | with_reducible refine .ite ?_ ?_
    | with_reducible refine (State.askMgmt_keeps _ _ _).trans ?_ ?_
    | split

theorem execWbChangeApply_keeps (s : State) {z_ : State} (h_ : execWbChangeApply s = .next z_) : Keeps 0x2040001000000000000000000000000000000000000000000a2800000000000000000000000000003c s z_ := by
  unfold execWbChangeApply at h_
  refine act_keeps h_ ?_
  repeat' first
    | with_reducible exact .refl _
    | with_reducible assumption
    | (extract_lets +onlyGivenNames y_; refine Keeps.cut (y := y_) ?_ ?_; rotate_left; clear_value y_; intro _; rotate_left; dsimp -iota only [y_]; clear y_)
    | exact rfl
    | with_reducible intro _
    | with_reducible refine .ite ?_ ?_
    | with_reducible refine (State.clearChange_keeps _).trans ?_ ?_
    | with_reducible refine (State.setBase_keeps _ _ _ _).trans ?_ ?_
    | with_reducible refine (State.sillage_keeps _ _ _ _ _).trans ?_ ?_
    | split
    | dsimp -iota only
    | with_reducible apply Keeps.upd rfl
    | exact Or.inl rfl
    | exact Or.inr rfl

theorem execWbLength_keeps (r : FwRef) (len : Fin 4) (s : State) {z_ : State} (h_ : execWbLength r len s = .next z_) : Keeps 0xc032001000000000000000000000000000000000000000000000000000000000000000000000000000 s z_ := by
  unfold execWbLength at h_
  refine act_keeps h_ ?_
  repeat' first
    | with_reducible exact .refl _
    | with_reducible assumption
    | (extract_lets +onlyGivenNames y_; refine Keeps.cut (y := y_) ?_ ?_; rotate_left; clear_value y_; intro _; rotate_left; dsimp -iota only [y_]; clear y_)
    | exact rfl
    | with_reducible intro _
    | with_reducible refine .ite ?_ ?_
    | with_reducible refine (State.mgrCommand_keeps _ _ _ ?_ ?_).trans (sub_self _) ?_
    | with_reducible refine (State.finishFw_keeps _ _ _ _ _).trans ?_ ?_
    | with_reducible refine (State.sendMgmt_keeps _ _ _).trans ?_ ?_
    | with_reducible refine (State.fresh_keeps _).trans ?_ ?_
    | with_reducible refine (Keeps.snd (State.fresh_keeps _) ‹_›).trans ?_ ?_
    | split
    | dsimp -iota only
    | with_reducible apply Keeps.upd rfl
    | exact Or.inl rfl
    | exact Or.inr rfl

theorem State.endCoast_keeps (s : State) : Keeps 0x1000000000000000000000000000000000000000000000000000000000000000000000000200 s (State.endCoast s) := by
  unfold State.endCoast
  repeat' first
    | with_reducible exact .refl _
    | with_reducible assumption
    | (extract_lets +onlyGivenNames y_; refine Keeps.cut (y := y_) ?_ ?_; rotate_left; clear_value y_; intro _; rotate_left; dsimp -iota only [y_]; clear y_)
    | exact rfl
    | with_reducible intro _
    | with_reducible refine .ite ?_ ?_
    | with_reducible refine (State.setFld_keeps _ _ _ _ ?_).trans (sub_self _) ?_
    | split
    | dsimp -iota only
    | with_reducible apply Keeps.upd rfl
    | exact Or.inl rfl
    | exact Or.inr rfl

theorem State.startCoast_keeps (s : State) : Keeps 0x1000000000000000000000000000000000000000000000000000000000000000000000000002 s (State.startCoast s) := by
  unfold State.startCoast
  repeat' first
    | with_reducible exact .refl _
    | with_reducible assumption
    | (extract_lets +onlyGivenNames y_; refine Keeps.cut (y := y_) ?_ ?_; rotate_left; clear_value y_; intro _; rotate_left; dsimp -iota only [y_]; clear y_)
    | exact rfl
    | with_reducible intro _
    | with_reducible refine .ite ?_ ?_
    | with_reducible refine (State.setFld_keeps _ _ _ _ ?_).trans (sub_self _) ?_
    | split
    | dsimp -iota only
    | with_reducible apply Keeps.upd rfl
    | exact Or.inl rfl
    | exact Or.inr rfl

theorem execWbBaseReceive_keeps (h : MsgHdr) (b : WbBase) (s : State) {z_ : State} (h_ : execWbBaseReceive h b s = .next z_) : Keeps 0x60d2003000000000000000000000000000000000000000000a2800001000000000000000188200003e s z_ := by
  unfold execWbBaseReceive at h_
  refine act_keeps h_ ?_
  repeat' first
    | with_reducible exact .refl _
    | with_reducible assumption
    | (extract_lets +onlyGivenNames y_; refine Keeps.cut (y := y_) ?_ ?_; rotate_left; clear_value y_; intro _; rotate_left; dsimp -iota only [y_]; clear y_)
    | exact rfl
    | with_reducible intro _
    | with_reducible refine .ite ?_ ?_
    | with_reducible refine (State.startCoast_keeps _).trans ?_ ?_
    | with_reducible refine (State.setBase_keeps _ _ _ _).trans ?_ ?_
    | with_reducible refine (State.fromManager_keeps _ _ _ _ ?_ ?_ ?_).trans (sub_self _) ?_
    | with_reducible refine (State.sillage_keeps _ _ _ _ _).trans ?_ ?_
    | with_reducible refine (State.setFld_keeps _ _ _ _ ?_).trans (sub_self _) ?_
    | with_reducible exact .ident _
    | split
    | dsimp -iota only
    | with_reducible apply Keeps.upd rfl
    | exact Or.inl rfl
    | exact Or.inr rfl

theorem State.timeSet_keeps (s : State) (l : Link) : Keeps 0x4000002000000000000000000000000000000000000000000000000000000000000000000000000000 s (State.timeSet s l) := by
  unfold State.timeSet
  repeat' first
    | with_reducible exact .refl _
    | with_reducible assumption
    | (extract_lets +onlyGivenNames y_; refine Keeps.cut (y := y_) ?_ ?_; rotate_left; clear_value y_; intro _; rotate_left; dsimp -iota only [y_]; clear y_)
    | exact rfl
    | with_reducible intro _
    | with_reducible refine .ite ?_ ?_
    | with_reducible refine (State.emit_keeps _ _).trans ?_ ?_
    | with_reducible refine (State.modPort_keeps _ _ _).trans ?_ ?_
    | split
    | dsimp -iota only

theorem execTimeSetSend_keeps (l : Link) (s : State) {z_ : State} (h_ : execTimeSetSend l s = .next z_) : Keeps 0x4000002000000000000000000000000000000000000000000000000000000000000000000000000000 s z_ := by
  unfold execTimeSetSend at h_
  obtain rfl := Host.Outcome.next.inj h_
  repeat' first
    | with_reducible exact .refl _
    | with_reducible assumption
    | exact rfl
    | with_reducible intro _
    | with_reducible refine .ite ?_ ?_
    | with_reducible refine (State.timeSet_keeps _ _).trans ?_ ?_
    | with_reducible refine (State.emit_keeps _ _).trans ?_ ?_
    | split

theorem State.acquired_keeps (s : State) (offset : Option Int) : Keeps 0x2040000000000000000000000000000000000000000000000a28000000000000000000000000000003 s (State.acquired s offset) := by
  unfold State.acquired
  repeat' first
    | with_reducible exact .refl _
    | with_reducible assumption
    | (extract_lets +onlyGivenNames y_; refine Keeps.cut (y := y_) ?_ ?_; rotate_left; clear_value y_; intro _; rotate_left; dsimp -iota only [y_]; clear y_)
    | exact rfl
    | with_reducible intro _
    | with_reducible refine .ite ?_ ?_
    | with_reducible refine (State.sillage_keeps _ _ _ _ _).trans ?_ ?_
    | with_reducible refine (State.setFld_keeps _ _ _ _ ?_).trans (sub_self _) ?_
    | with_reducible refine (State.setReg_keeps _ _ _ _ ?_).trans (sub_self _) ?_
    | split
    | dsimp -iota only

theorem State.followUpstream_keeps (s : State) (offset : Option Int) : Keeps 0x2040001000000000000000000000000000000000000000000a28000000000000000000000000000203 s (State.followUpstream s offset) := by
  unfold State.followUpstream
  repeat' first
    | with_reducible exact .refl _
    | with_reducible assumption
    | (extract_lets +onlyGivenNames y_; refine Keeps.cut (y := y_) ?_ ?_; rotate_left; clear_value y_; intro _; rotate_left; dsimp -iota only [y_]; clear y_)
    | exact rfl
    | with_reducible intro _
    | with_reducible refine .ite ?_ ?_
    | with_reducible refine (State.acquired_keeps _ _).trans ?_ ?_
    | with_reducible refine (State.endCoast_keeps _).trans ?_ ?_
    | with_reducible refine (State.setFld_keeps _ _ _ _ ?_).trans (sub_self _) ?_
    | split
    | dsimp -iota only
    | with_reducible apply Keeps.upd rfl
    | exact Or.inl rfl
    | exact Or.inr rfl

theorem execTimeSetReceive_keeps (l : Link) (t : TimeSet) (s : State) {z_ : State} (h_ : execTimeSetReceive l t s = .next z_) : Keeps 0x2040003000000000000000000000000000000000000000000a28000000000000000000000000000203 s z_ := by
  unfold execTimeSetReceive at h_
  refine act_keeps h_ ?_
  repeat' first
    | with_reducible exact .refl _
    | with_reducible assumption
    | (extract_lets +onlyGivenNames y_; refine Keeps.cut (y := y_) ?_ ?_; rotate_left; clear_value y_; intro _; rotate_left; dsimp -iota only [y_]; clear y_)
    | exact rfl
    | with_reducible intro _
    | with_reducible refine .ite ?_ ?_
    | with_reducible refine (State.followUpstream_keeps _ _).trans ?_ ?_
    | with_reducible refine (State.modPort_keeps _ _ _).trans ?_ ?_
    | split
    | dsimp -iota only

theorem execLossOfUpstream_keeps (s : State) {z_ : State} (h_ : execLossOfUpstream s = .next z_) : Keeps 0x2040001000000000000000000000000000000000000000000a28000000000000000000000000000202 s z_ := by
  unfold execLossOfUpstream at h_
  refine act_keeps h_ ?_
  repeat' first
    | with_reducible exact .refl _
    | with_reducible assumption
    | (extract_lets +onlyGivenNames y_; refine Keeps.cut (y := y_) ?_ ?_; rotate_left; clear_value y_; intro _; rotate_left; dsimp -iota only [y_]; clear y_)
    | exact rfl
    | with_reducible intro _
    | with_reducible refine .ite ?_ ?_
    | with_reducible refine (State.startCoast_keeps _).trans ?_ ?_
    | with_reducible refine (State.sillage_keeps _ _ _ _ _).trans ?_ ?_
    | with_reducible refine (State.setFld_keeps _ _ _ _ ?_).trans (sub_self _) ?_
    | with_reducible refine (State.bump_keeps _ _ _ _ ?_).trans (sub_self _) ?_
    | split
    | dsimp -iota only
    | with_reducible apply Keeps.upd rfl
    | exact Or.inl rfl
    | exact Or.inr rfl

theorem execPpsInEdge_keeps (s : State) {z_ : State} (h_ : execPpsInEdge s = .next z_) : Keeps 0x10000000000000000000000000000000000000000000000000000000000000000000000000c0 s z_ := by
  unfold execPpsInEdge at h_
  refine act_keeps h_ ?_
  repeat' first
    | with_reducible exact .refl _
    | with_reducible assumption
    | (extract_lets +onlyGivenNames y_; refine Keeps.cut (y := y_) ?_ ?_; rotate_left; clear_value y_; intro _; rotate_left; dsimp -iota only [y_]; clear y_)
    | exact rfl
    | with_reducible intro _
    | with_reducible refine .ite ?_ ?_
    | with_reducible refine (State.setFld_keeps _ _ _ _ ?_).trans (sub_self _) ?_
    | with_reducible refine (State.setReg_keeps _ _ _ _ ?_).trans (sub_self _) ?_
    | split
    | dsimp -iota only
    | with_reducible apply Keeps.upd rfl
    | exact Or.inl rfl
    | exact Or.inr rfl

theorem execPpsOutStart_keeps (s : State) {z_ : State} (h_ : execPpsOutStart s = .next z_) : Keeps 0x1000000000000000000000000000000000000000000000000000000000000000000000000000 s z_ := by
  unfold execPpsOutStart at h_
  refine act_keeps h_ ?_
  repeat' first
    | with_reducible exact .refl _
    | with_reducible assumption
    | exact rfl
    | with_reducible intro _
    | with_reducible refine .ite ?_ ?_
    | split
    | with_reducible apply Keeps.upd rfl
    | exact Or.inl rfl
    | exact Or.inr rfl

theorem execPpsOutEnd_keeps (s : State) {z_ : State} (h_ : execPpsOutEnd s = .next z_) : Keeps 0x1000000000000000000000000000000000000000000000000000000000000000000000000000 s z_ := by
  unfold execPpsOutEnd at h_
  refine act_keeps h_ ?_
  repeat' first
    | with_reducible exact .refl _
    | with_reducible assumption
    | exact rfl
    | with_reducible intro _
    | with_reducible refine .ite ?_ ?_
    | split
    | with_reducible apply Keeps.upd rfl
    | exact Or.inl rfl
    | exact Or.inr rfl

end Sys2Proof.Machine
end

