-- ==== Sys2Proof/Laws/KeepsNet.lean ====
section
/-! SUPPORT. Sys2Proof/Laws/KeepsNet.lean: what each operation of Machine/Net.lean leaves alone. -/

namespace Sys2Proof.Machine

theorem State.sealArrive_keeps (s : State) (l : Nat) (p : Packet) : Keeps 0x400000000000000000000000000000000000000000000000000000000000000000000000000000 s (State.sealArrive s l p) := by
  unfold State.sealArrive
  repeat' first
    | with_reducible exact .refl _
    | with_reducible assumption
    | (extract_lets +onlyGivenNames y_; refine Keeps.cut (y := y_) ?_ ?_; rotate_left; clear_value y_; intro _; rotate_left; dsimp -iota only [y_]; clear y_)
    | exact rfl
    | with_reducible intro _
    | with_reducible refine .ite ?_ ?_
    | split
    | dsimp -iota only
    | with_reducible apply Keeps.upd rfl
    | exact Or.inl rfl
    | exact Or.inr rfl

theorem State.sealLeave_keeps (s : State) (l : Nat) (p : Packet) : Keeps 0x400000000000000000000000000000000000000000000000000000000000000000000000000000 s (State.sealLeave s l p) := by
  unfold State.sealLeave
  repeat' first
    | with_reducible exact .refl _
    | with_reducible assumption
    | (extract_lets +onlyGivenNames y_; refine Keeps.cut (y := y_) ?_ ?_; rotate_left; clear_value y_; intro _; rotate_left; dsimp -iota only [y_]; clear y_)
    | exact rfl
    | with_reducible intro _
    | with_reducible refine .ite ?_ ?_
    | split
    | dsimp -iota only
    | with_reducible apply Keeps.upd rfl
    | exact Or.inl rfl
    | exact Or.inr rfl

theorem State.sealDrop_keeps (s : State) (r : SealIn) : Keeps 0x400000000000000000000000000000000000000000000000000000000000000000000000000000 s (State.sealDrop s r) := by
  unfold State.sealDrop
  repeat' first
    | with_reducible exact .refl _
    | with_reducible assumption
    | exact rfl
    | with_reducible intro _
    | with_reducible refine .ite ?_ ?_
    | split
    | with_reducible apply Keeps.upd rfl
    | exact Or.inl rfl
    | exact Or.inr rfl

theorem State.sealClear_keeps (s : State) (l : Nat) : Keeps 0x400000000000000000000000000000000000000000000000000000000000000000000000000000 s (State.sealClear s l) := by
  unfold State.sealClear
  repeat' first
    | with_reducible exact .refl _
    | with_reducible assumption
    | (extract_lets +onlyGivenNames y_; refine Keeps.cut (y := y_) ?_ ?_; rotate_left; clear_value y_; intro _; rotate_left; dsimp -iota only [y_]; clear y_)
    | exact rfl
    | with_reducible intro _
    | with_reducible refine .ite ?_ ?_
    | with_reducible refine (State.sealDrop_keeps _ _).trans ?_ ?_
    | with_reducible refine .foldl _ ?_ ?_
    | split
    | dsimp -iota only
    | with_reducible apply Keeps.upd rfl
    | exact Or.inl rfl
    | exact Or.inr rfl

theorem State.serve_keeps (s : State) (out : Link) (vc : Nat) : Keeps 0x4000412000000000000000000000000000000000000000000000000000000000000000000000000000 s (State.serve s out vc) := by
  unfold State.serve
  repeat' first
    | with_reducible exact .refl _
    | with_reducible assumption
    | (extract_lets +onlyGivenNames y_; refine Keeps.cut (y := y_) ?_ ?_; rotate_left; clear_value y_; intro _; rotate_left; dsimp -iota only [y_]; clear y_)
    | exact rfl
    | with_reducible intro _
    | with_reducible refine .ite ?_ ?_
    | with_reducible refine (State.sealLeave_keeps _ _ _).trans ?_ ?_
    | with_reducible refine (State.emits_keeps _ _).trans ?_ ?_
    | with_reducible refine (State.modPort_keeps _ _ _).trans ?_ ?_
    | with_reducible refine .foldl _ ?_ ?_
    | split
    | dsimp -iota only
    | with_reducible apply Keeps.upd rfl
    | exact Or.inl rfl
    | exact Or.inr rfl

theorem State.output_keeps (s : State) (out : Link) (p : Packet) : Keeps 0x4000412000000000000000000000000000000000000000000000000000000000000000000000000000 s (State.output s out p) := by
  unfold State.output
  repeat' first
    | with_reducible exact .refl _
    | with_reducible assumption
    | (extract_lets +onlyGivenNames y_; refine Keeps.cut (y := y_) ?_ ?_; rotate_left; clear_value y_; intro _; rotate_left; dsimp -iota only [y_]; clear y_)
    | exact rfl
    | with_reducible intro _
    | with_reducible refine .ite ?_ ?_
    | with_reducible refine (State.serve_keeps _ _ _).trans ?_ ?_
    | split
    | dsimp -iota only
    | with_reducible apply Keeps.upd rfl
    | exact Or.inl rfl
    | exact Or.inr rfl

theorem State.switchPacket_keeps (s : State) (wing : Nat) (p : Packet) : Keeps 0x4000412000000000000000000000000000000000000000000000000000000000000000000000080000 s (State.switchPacket s wing p) := by
  unfold State.switchPacket
  repeat' first
    | with_reducible exact .refl _
    | with_reducible assumption
    | (extract_lets +onlyGivenNames y_; refine Keeps.cut (y := y_) ?_ ?_; rotate_left; clear_value y_; intro _; rotate_left; dsimp -iota only [y_]; clear y_)
    | exact rfl
    | with_reducible intro _
    | with_reducible refine .ite ?_ ?_
    | with_reducible refine .dite ?_ ?_
    | with_reducible refine (State.output_keeps _ _ _).trans ?_ ?_
    | with_reducible refine (State.emit_keeps _ _).trans ?_ ?_
    | with_reducible refine (State.bump_keeps _ _ _ _ ?_).trans (sub_self _) ?_
    | split
    | dsimp -iota only

theorem State.transmit_keeps (s : State) (unit : Nat) (p : Packet) : Keeps 0x4000412000000000000000000000000000000000000000000000000000000000000000000000880000 s (State.transmit s unit p) := by
  unfold State.transmit
  repeat' first
    | with_reducible exact .refl _
    | with_reducible assumption
    | (extract_lets +onlyGivenNames y_; refine Keeps.cut (y := y_) ?_ ?_; rotate_left; clear_value y_; intro _; rotate_left; dsimp -iota only [y_]; clear y_)
    | exact rfl
    | with_reducible intro _
    | with_reducible refine .ite ?_ ?_
    | with_reducible refine (State.switchPacket_keeps _ _ _).trans ?_ ?_
    | with_reducible refine (State.bump_keeps _ _ _ _ ?_).trans (sub_self _) ?_
    | split
    | dsimp -iota only

theorem State.startPacket_keeps (s : State) (unit : Nat) (p : Packet) (cmd : Option Tag) : Keeps 0x4000412000000000000000000000000000000000000000000000000000000000000000000000880000 s (State.startPacket s unit p cmd) := by
  unfold State.startPacket
  repeat' first
    | with_reducible exact .refl _
    | with_reducible assumption
    | (extract_lets +onlyGivenNames y_; refine Keeps.cut (y := y_) ?_ ?_; rotate_left; clear_value y_; intro _; rotate_left; dsimp -iota only [y_]; clear y_)
    | exact rfl
    | with_reducible intro _
    | with_reducible refine .ite ?_ ?_
    | with_reducible refine (State.transmit_keeps _ _ _).trans ?_ ?_
    | split
    | dsimp -iota only
    | with_reducible apply Keeps.upd rfl
    | exact Or.inl rfl
    | exact Or.inr rfl

theorem State.source_keeps (s : State) (unit : Nat) (p : Packet) (cmd : Option Tag) : Keeps 0x4000412000000000000000000000000000000000000000000000000000000000000000000000880000 s (State.source s unit p cmd) := by
  unfold State.source
  repeat' first
    | with_reducible exact .refl _
    | with_reducible assumption
    | (extract_lets +onlyGivenNames y_; refine Keeps.cut (y := y_) ?_ ?_; rotate_left; clear_value y_; intro _; rotate_left; dsimp -iota only [y_]; clear y_)
    | exact rfl
    | with_reducible intro _
    | with_reducible refine .ite ?_ ?_
    | with_reducible refine (State.startPacket_keeps _ _ _ _).trans ?_ ?_
    | split
    | dsimp -iota only
    | with_reducible apply Keeps.upd rfl
    | exact Or.inl rfl
    | exact Or.inr rfl

theorem State.pump_keeps (s : State) : Keeps 0x4000412000000000000000000000000000000000000000000000000000000000000000000000880000 s (State.pump s) := by
  unfold State.pump
  repeat' first
    | with_reducible exact .refl _
    | with_reducible assumption
    | exact rfl
    | with_reducible intro _
    | with_reducible refine .ite ?_ ?_
    | with_reducible refine (State.source_keeps _ _ _ _).trans ?_ ?_
    | with_reducible refine .foldl _ ?_ ?_
    | split
    | with_reducible apply Keeps.upd rfl
    | exact Or.inl rfl
    | exact Or.inr rfl

theorem State.setReceived_keeps (s : State) (r : Received) : Keeps 0x10000000000000000000000000000000000000000000000000000000000000000000000000000 s (State.setReceived s r) := by
  unfold State.setReceived
  repeat' first
    | with_reducible exact .refl _
    | with_reducible assumption
    | exact rfl
    | with_reducible intro _
    | with_reducible refine .ite ?_ ?_
    | split
    | with_reducible apply Keeps.upd rfl
    | exact Or.inl rfl
    | exact Or.inr rfl

theorem State.ackStream_keeps (s : State) (k : StreamKey) (slice : Nat) : Keeps 0x4000412000000000000000000000000000000000000000000000000000000000000000000000880000 s (State.ackStream s k slice) := by
  unfold State.ackStream
  repeat' first
    | with_reducible exact .refl _
    | with_reducible assumption
    | (extract_lets +onlyGivenNames y_; refine Keeps.cut (y := y_) ?_ ?_; rotate_left; clear_value y_; intro _; rotate_left; dsimp -iota only [y_]; clear y_)
    | exact rfl
    | with_reducible intro _
    | with_reducible refine .ite ?_ ?_
    | with_reducible refine (State.setReceived_keeps _ _).trans ?_ ?_
    | with_reducible refine (State.transmit_keeps _ _ _).trans ?_ ?_
    | split
    | dsimp -iota only

end Sys2Proof.Machine
end

