-- ==== Sys2Proof/Laws/KeepsPorts.lean ====
section
/-! SUPPORT. Sys2Proof/Laws/KeepsPorts.lean: what each operation of Machine/Ports.lean leaves alone. -/

namespace Sys2Proof.Machine

theorem State.setCause_keeps (s : State) (l : Nat) (c : Nat) : Keeps 0x2000000800 s (State.setCause s l c) := by
  unfold State.setCause
  repeat' first
    | with_reducible exact .refl _
    | with_reducible assumption
    | exact rfl
    | with_reducible intro _
    | with_reducible refine .ite ?_ ?_
    | with_reducible refine (State.setFld_keeps _ _ _ _ ?_).trans (sub_self _) ?_
    | split

theorem State.setReason_keeps (s : State) (l : Nat) (c : Nat) : Keeps 0x800 s (State.setReason s l c) := by
  unfold State.setReason
  repeat' first
    | with_reducible exact .refl _
    | with_reducible assumption
    | exact rfl
    | with_reducible intro _
    | with_reducible refine .ite ?_ ?_
    | with_reducible refine (State.setFld_keeps _ _ _ _ ?_).trans (sub_self _) ?_
    | split

theorem State.outcome_keeps (s : State) (l : Nat) : Keeps 0x30002000000000000000000000000000000000000000000000000000000000000000000000000000 s (State.outcome s l) := by
  unfold State.outcome
  repeat' first
    | with_reducible exact .refl _
    | with_reducible assumption
    | exact rfl
    | with_reducible intro _
    | with_reducible refine .ite ?_ ?_
    | with_reducible refine (State.finishFw_keeps _ _ _ _ _).trans ?_ ?_
    | with_reducible refine (State.modPort_keeps _ _ _).trans ?_ ?_
    | split

theorem State.enterUp_keeps (s : State) (l : Link) : Keeps 0x4032002000000000000000000000000000000000000000000000000000000000000000002000000800 s (State.enterUp s l) := by
  unfold State.enterUp
  repeat' first
    | with_reducible exact .refl _
    | with_reducible assumption
    | (extract_lets +onlyGivenNames y_; refine Keeps.cut (y := y_) ?_ ?_; rotate_left; clear_value y_; intro _; rotate_left; dsimp -iota only [y_]; clear y_)
    | exact rfl
    | with_reducible intro _
    | with_reducible refine .ite ?_ ?_
    | with_reducible refine (State.outcome_keeps _ _).trans ?_ ?_
    | with_reducible refine (State.askSnapshot_keeps _).trans ?_ ?_
    | with_reducible refine (State.emits_keeps _ _).trans ?_ ?_
    | with_reducible refine (State.setLinkState_keeps _ _ _).trans ?_ ?_
    | with_reducible refine (State.modPort_keeps _ _ _).trans ?_ ?_
    | split
    | dsimp -iota only

theorem State.announceLoss_keeps (s : State) (l : Nat) : Keeps 0x6043000000000000000000000000000000000000000000000a28000000000000000000000000000000 s (State.announceLoss s l) := by
  unfold State.announceLoss
  repeat' first
    | with_reducible exact .refl _
    | with_reducible assumption
    | exact rfl
    | with_reducible intro _
    | with_reducible refine .ite ?_ ?_
    | with_reducible refine (State.linkLost_keeps _ _ _).trans ?_ ?_
    | with_reducible refine (State.sendMgmt_keeps _ _ _).trans ?_ ?_
    | split

theorem State.dropLink_keeps (s : State) (l : Nat) (tgt : Nat) : Keeps 0x90412000000000000000000000000000000000000000000000000010000000000000003280000800 s (State.dropLink s l tgt) := by
  unfold State.dropLink
  repeat' first
    | with_reducible exact .refl _
    | with_reducible assumption
    | (extract_lets +onlyGivenNames y_; refine Keeps.cut (y := y_) ?_ ?_; rotate_left; clear_value y_; intro _; rotate_left; dsimp -iota only [y_]; clear y_)
    | exact rfl
    | with_reducible intro _
    | with_reducible refine .ite ?_ ?_
    | with_reducible refine (State.sealClear_keeps _ _).trans ?_ ?_
    | with_reducible refine (State.unsync_keeps _ _).trans ?_ ?_
    | with_reducible refine (State.setLinkWidth_keeps _ _ _).trans ?_ ?_
    | with_reducible refine (State.setLinkState_keeps _ _ _).trans ?_ ?_
    | with_reducible refine (State.modPort_keeps _ _ _).trans ?_ ?_
    | with_reducible refine (State.setFld_keeps _ _ _ _ ?_).trans (sub_self _) ?_
    | split
    | dsimp -iota only
    | with_reducible apply Keeps.upd rfl
    | exact Or.inl rfl
    | exact Or.inr rfl

theorem State.lossOfLink_keeps (s : State) (l : Nat) : Keeps 0x60d3412000000000000000000000000000000000000000000a28001010000000000000003280020800 s (State.lossOfLink s l) := by
  unfold State.lossOfLink
  repeat' first
    | with_reducible exact .refl _
    | with_reducible assumption
    | (extract_lets +onlyGivenNames y_; refine Keeps.cut (y := y_) ?_ ?_; rotate_left; clear_value y_; intro _; rotate_left; dsimp -iota only [y_]; clear y_)
    | exact rfl
    | with_reducible intro _
    | with_reducible refine .ite ?_ ?_
    | with_reducible refine (State.dropLink_keeps _ _ _).trans ?_ ?_
    | with_reducible refine (State.announceLoss_keeps _ _).trans ?_ ?_
    | with_reducible refine (State.sillage_keeps _ _ _ _ _).trans ?_ ?_
    | with_reducible refine (State.unclean_keeps _).trans ?_ ?_
    | with_reducible refine (State.modPort_keeps _ _ _).trans ?_ ?_
    | with_reducible refine (State.bump_keeps _ _ _ _ ?_).trans (sub_self _) ?_
    | split
    | dsimp -iota only

theorem execLossOfLink_keeps (l : Link) (s : State) {z_ : State} (h_ : execLossOfLink l s = .next z_) : Keeps 0x60d3412000000000000000000000000000000000000000000a28001010000000000000003280020800 s z_ := by
  unfold execLossOfLink at h_
  refine act_keeps h_ ?_
  repeat' first
    | with_reducible exact .refl _
    | with_reducible assumption
    | exact rfl
    | with_reducible intro _
    | with_reducible refine .ite ?_ ?_
    | with_reducible refine (State.lossOfLink_keeps _ _).trans ?_ ?_
    | split

theorem State.portReset_keeps (s : State) (l : Nat) : Keeps 0x60d3412000000000000000000000000000000000000000000a2800401000000000000000328001f800 s (State.portReset s l) := by
  unfold State.portReset
  repeat' first
    | with_reducible exact .refl _
    | with_reducible assumption
    | (extract_lets +onlyGivenNames y_; refine Keeps.cut (y := y_) ?_ ?_; rotate_left; clear_value y_; intro _; rotate_left; dsimp -iota only [y_]; clear y_)
    | exact rfl
    | with_reducible intro _
    | with_reducible refine .ite ?_ ?_
    | with_reducible refine (State.dropLink_keeps _ _ _).trans ?_ ?_
    | with_reducible refine (State.announceLoss_keeps _ _).trans ?_ ?_
    | with_reducible refine (State.setLinkState_keeps _ _ _).trans ?_ ?_
    | with_reducible refine (State.setPort_keeps _ _ _).trans ?_ ?_
    | with_reducible refine (State.setReg_keeps _ _ _ _ ?_).trans (sub_self _) ?_
    | with_reducible refine (State.bump_keeps _ _ _ _ ?_).trans (sub_self _) ?_
    | with_reducible refine .foldlMem _ ?_ ?_
    | exact (by decide : ∀ r ∈ portRegs, Nat.testBit 0x60d3412000000000000000000000000000000000000000000a2800401000000000000000328001f800 r.code = true) _ ‹_›
    | split
    | dsimp -iota only

theorem execPortMode_keeps (r : FwRef) (port : Port) (mode : Fin 4) (s : State) {z_ : State} (h_ : execPortMode r port mode s = .next z_) : Keeps 0x60f3412000000000000000000000000000000000000000000a2800401000000000000000328001fc00 s z_ := by
  unfold execPortMode at h_
  refine act_keeps h_ ?_
  repeat' first
    | with_reducible exact .refl _
    | with_reducible assumption
    | exact rfl
    | with_reducible intro _
    | with_reducible refine .ite ?_ ?_
    | with_reducible refine (State.portReset_keeps _ _).trans ?_ ?_
    | with_reducible refine (State.finishFw_keeps _ _ _ _ _).trans ?_ ?_
    | with_reducible refine (State.setFld_keeps _ _ _ _ ?_).trans (sub_self _) ?_
    | split

theorem execPortQualify_keeps (r : FwRef) (port : Port) (time : Fin 1024) (s : State) {z_ : State} (h_ : execPortQualify r port time s = .next z_) : Keeps 0x60f3412000000000000000000000000000000000000000000a2800401000000000000000328001fc00 s z_ := by
  unfold execPortQualify at h_
  refine act_keeps h_ ?_
  repeat' first
    | with_reducible exact .refl _
    | with_reducible assumption
    | (extract_lets +onlyGivenNames y_; refine Keeps.cut (y := y_) ?_ ?_; rotate_left; clear_value y_; intro _; rotate_left; dsimp -iota only [y_]; clear y_)
    | exact rfl
    | with_reducible intro _
    | with_reducible refine .ite ?_ ?_
    | with_reducible refine (State.portReset_keeps _ _).trans ?_ ?_
    | with_reducible refine (State.finishFw_keeps _ _ _ _ _).trans ?_ ?_
    | with_reducible refine (State.modPort_keeps _ _ _).trans ?_ ?_
    | with_reducible refine (State.setFld_keeps _ _ _ _ ?_).trans (sub_self _) ?_
    | split
    | dsimp -iota only

theorem execPortReset_keeps (r : FwRef) (port : Port) (twin : Bool) (s : State) {z_ : State} (h_ : execPortReset r port twin s = .next z_) : Keeps 0x60f3412000000000000000000000000000000000000000000a2800401000000000000000328001f800 s z_ := by
  unfold execPortReset at h_
  refine act_keeps h_ ?_
  repeat' first
    | with_reducible exact .refl _
    | with_reducible assumption
    | (extract_lets +onlyGivenNames y_; refine Keeps.cut (y := y_) ?_ ?_; rotate_left; clear_value y_; intro _; rotate_left; dsimp -iota only [y_]; clear y_)
    | exact rfl
    | with_reducible intro _
    | with_reducible refine .ite ?_ ?_
    | with_reducible refine (State.portReset_keeps _ _).trans ?_ ?_
    | with_reducible refine (State.finishFw_keeps _ _ _ _ _).trans ?_ ?_
    | split
    | dsimp -iota only

theorem State.quarantine_keeps (s : State) (l : Nat) (reason : Nat) : Keeps 0x6073002000000000000000000000000000000000000000000a28000000000000000000002000000800 s (State.quarantine s l reason) := by
  unfold State.quarantine
  repeat' first
    | with_reducible exact .refl _
    | with_reducible assumption
    | (extract_lets +onlyGivenNames y_; refine Keeps.cut (y := y_) ?_ ?_; rotate_left; clear_value y_; intro _; rotate_left; dsimp -iota only [y_]; clear y_)
    | exact rfl
    | with_reducible intro _
    | with_reducible refine .ite ?_ ?_
    | with_reducible refine (State.announceLoss_keeps _ _).trans ?_ ?_
    | with_reducible refine (State.outcome_keeps _ _).trans ?_ ?_
    | with_reducible refine (State.setReason_keeps _ _ _).trans ?_ ?_
    | with_reducible refine (State.setLinkState_keeps _ _ _).trans ?_ ?_
    | with_reducible refine (State.modPort_keeps _ _ _).trans ?_ ?_
    | split
    | dsimp -iota only

theorem execPortQuarantine_keeps (r : FwRef) (port : Port) (s : State) {z_ : State} (h_ : execPortQuarantine r port s = .next z_) : Keeps 0x6073002000000000000000000000000000000000000000000a28000000000000000000002000000800 s z_ := by
  unfold execPortQuarantine at h_
  refine act_keeps h_ ?_
  repeat' first
    | with_reducible exact .refl _
    | with_reducible assumption
    | exact rfl
    | with_reducible intro _
    | with_reducible refine .ite ?_ ?_
    | with_reducible refine (State.quarantine_keeps _ _ _).trans ?_ ?_
    | with_reducible refine (State.finishFw_keeps _ _ _ _ _).trans ?_ ?_
    | split

theorem execLaneLock_keeps (l : Link) (bad : List (Fin 8)) (s : State) {z_ : State} (h_ : execLaneLock l bad s = .next z_) : Keeps 0x4032002000000000000000000000000000000000000000000000000000000000000000002000000800 s z_ := by
  unfold execLaneLock at h_
  refine act_keeps h_ ?_
  repeat' first
    | with_reducible exact .refl _
    | with_reducible assumption
    | (extract_lets +onlyGivenNames y_; refine Keeps.cut (y := y_) ?_ ?_; rotate_left; clear_value y_; intro _; rotate_left; dsimp -iota only [y_]; clear y_)
    | exact rfl
    | with_reducible intro _
    | with_reducible refine .ite ?_ ?_
    | with_reducible refine (State.enterUp_keeps _ _).trans ?_ ?_
    | with_reducible refine (State.setLinkWidth_keeps _ _ _).trans ?_ ?_
    | with_reducible refine (State.setLinkState_keeps _ _ _).trans ?_ ?_
    | with_reducible refine (State.modPort_keeps _ _ _).trans ?_ ?_
    | with_reducible refine (State.setFld_keeps _ _ _ _ ?_).trans (sub_self _) ?_
    | split
    | dsimp -iota only

theorem State.qualFail_keeps (s : State) (l : Nat) (c : Nat) : Keeps 0x2070002000000000000000000000000000000000000000000a28001000000000000000002000008800 s (State.qualFail s l c) := by
  unfold State.qualFail
  repeat' first
    | with_reducible exact .refl _
    | with_reducible assumption
    | (extract_lets +onlyGivenNames y_; refine Keeps.cut (y := y_) ?_ ?_; rotate_left; clear_value y_; intro _; rotate_left; dsimp -iota only [y_]; clear y_)
    | exact rfl
    | with_reducible intro _
    | with_reducible refine .ite ?_ ?_
    | with_reducible refine (State.outcome_keeps _ _).trans ?_ ?_
    | with_reducible refine (State.setCause_keeps _ _ _).trans ?_ ?_
    | with_reducible refine (State.sillage_keeps _ _ _ _ _).trans ?_ ?_
    | with_reducible refine (State.unclean_keeps _).trans ?_ ?_
    | with_reducible refine (State.setLinkState_keeps _ _ _).trans ?_ ?_
    | with_reducible refine (State.modPort_keeps _ _ _).trans ?_ ?_
    | with_reducible refine (State.setFld_keeps _ _ _ _ ?_).trans (sub_self _) ?_
    | split
    | dsimp -iota only

theorem State.narrow_keeps (s : State) (l : Link) (kept : List Nat) : Keeps 0x4000002000000000000000000000000000000000000000000000000000000000000000002000020800 s (State.narrow s l kept) := by
  unfold State.narrow
  repeat' first
    | with_reducible exact .refl _
    | with_reducible assumption
    | (extract_lets +onlyGivenNames y_; refine Keeps.cut (y := y_) ?_ ?_; rotate_left; clear_value y_; intro _; rotate_left; dsimp -iota only [y_]; clear y_)
    | exact rfl
    | with_reducible intro _
    | with_reducible refine .ite ?_ ?_
    | with_reducible refine (State.emit_keeps _ _).trans ?_ ?_
    | with_reducible refine (State.setLinkWidth_keeps _ _ _).trans ?_ ?_
    | with_reducible refine (State.modPort_keeps _ _ _).trans ?_ ?_
    | with_reducible refine (State.setFld_keeps _ _ _ _ ?_).trans (sub_self _) ?_
    | with_reducible refine (State.bump_keeps _ _ _ _ ?_).trans (sub_self _) ?_
    | split
    | dsimp -iota only

theorem State.laneFail_keeps (s : State) (l : Link) (lane : Nat) : Keeps 0x68f3412000000000000000000000000000000000000000000a2c401010000000000000003280028800 s (State.laneFail s l lane) := by
  unfold State.laneFail
  repeat' first
    | with_reducible exact .refl _
    | with_reducible assumption
    | (extract_lets +onlyGivenNames y_; refine Keeps.cut (y := y_) ?_ ?_; rotate_left; clear_value y_; intro _; rotate_left; dsimp -iota only [y_]; clear y_)
    | exact rfl
    | with_reducible intro _
    | with_reducible refine .ite ?_ ?_
    | with_reducible refine (State.narrow_keeps _ _ _).trans ?_ ?_
    | with_reducible refine (State.qualFail_keeps _ _ _).trans ?_ ?_
    | with_reducible refine (State.lossOfLink_keeps _ _).trans ?_ ?_
    | with_reducible refine (State.appendDefect_keeps _ _ _ _ _).trans ?_ ?_
    | with_reducible refine (State.modPort_keeps _ _ _).trans ?_ ?_
    | split
    | dsimp -iota only

theorem execLaneFail_keeps (l : Link) (lane : Fin 8) (s : State) {z_ : State} (h_ : execLaneFail l lane s = .next z_) : Keeps 0x68f3412000000000000000000000000000000000000000000a2c401010000000000000003280028800 s z_ := by
  unfold execLaneFail at h_
  refine act_keeps h_ ?_
  repeat' first
    | with_reducible exact .refl _
    | with_reducible assumption
    | exact rfl
    | with_reducible intro _
    | with_reducible refine .ite ?_ ?_
    | with_reducible refine (State.laneFail_keeps _ _ _).trans ?_ ?_
    | split

theorem State.narrowed_keeps (s : State) (l : Nat) : Keeps 0x6042412000000000000000000000000000000000000000000a28001000000000000000000000000000 s (State.narrowed s l) := by
  unfold State.narrowed
  repeat' first
    | with_reducible exact .refl _
    | with_reducible assumption
    | (extract_lets +onlyGivenNames y_; refine Keeps.cut (y := y_) ?_ ?_; rotate_left; clear_value y_; intro _; rotate_left; dsimp -iota only [y_]; clear y_)
    | exact rfl
    | with_reducible intro _
    | with_reducible refine .ite ?_ ?_
    | with_reducible refine (State.serve_keeps _ _ _).trans ?_ ?_
    | with_reducible refine (State.sendMgmt_keeps _ _ _).trans ?_ ?_
    | with_reducible refine (State.sillage_keeps _ _ _ _ _).trans ?_ ?_
    | with_reducible refine (State.unclean_keeps _).trans ?_ ?_
    | with_reducible refine (State.modPort_keeps _ _ _).trans ?_ ?_
    | with_reducible refine .foldl _ ?_ ?_
    | split
    | dsimp -iota only

theorem execLaneMapReceive_keeps (port : Port) (pairs : List (Fin 4)) (echo : Bool) (s : State) {z_ : State} (h_ : execLaneMapReceive port pairs echo s = .next z_) : Keeps 0x60d3412000000000000000000000000000000000000000000a28001010000000000000003280020800 s z_ := by
  unfold execLaneMapReceive at h_
  refine act_keeps h_ ?_
  repeat' first
    | with_reducible exact .refl _
    | with_reducible assumption
    | (extract_lets +onlyGivenNames y_; refine Keeps.cut (y := y_) ?_ ?_; rotate_left; clear_value y_; intro _; rotate_left; dsimp -iota only [y_]; clear y_)
    | exact rfl
    | with_reducible intro _
    | with_reducible refine .ite ?_ ?_
    | with_reducible refine (State.narrowed_keeps _ _).trans ?_ ?_
    | with_reducible refine (State.narrow_keeps _ _ _).trans ?_ ?_
    | with_reducible refine (State.lossOfLink_keeps _ _).trans ?_ ?_
    | with_reducible refine (State.emit_keeps _ _).trans ?_ ?_
    | split
    | dsimp -iota only

theorem execBerWindowEnd_keeps (port : Port) (errs : List Nat) (bits corrected uncorrectable : Nat) (s : State) {z_ : State} (h_ : execBerWindowEnd port errs bits corrected uncorrectable s = .next z_) : Keeps 0x68f3412000000000000000000000000000000000000000000a2c401010000000000000003280038800 s z_ := by
  unfold execBerWindowEnd at h_
  refine act_keeps h_ ?_
  repeat' first
    | with_reducible exact .refl _
    | with_reducible assumption
    | (extract_lets +onlyGivenNames y_; refine Keeps.cut (y := y_) ?_ ?_; rotate_left; clear_value y_; intro _; rotate_left; dsimp -iota only [y_]; clear y_)
    | exact rfl
    | with_reducible intro _
    | with_reducible refine .ite ?_ ?_
    | with_reducible refine (State.laneFail_keeps _ _ _).trans ?_ ?_
    | with_reducible refine (State.bump_keeps _ _ _ _ ?_).trans (sub_self _) ?_
    | with_reducible refine .foldl _ ?_ ?_
    | split
    | dsimp -iota only

theorem execIdentSend_keeps (l : Link) (s : State) {z_ : State} (h_ : execIdentSend l s = .next z_) : Keeps 0x4000000000000000000000000000000000000000000000000000000000000000000000000000000000 s z_ := by
  unfold execIdentSend at h_
  refine act_keeps h_ ?_
  repeat' first
    | with_reducible exact .refl _
    | with_reducible assumption
    | exact rfl
    | with_reducible intro _
    | with_reducible refine .ite ?_ ?_
    | with_reducible refine (State.emit_keeps _ _).trans ?_ ?_
    | split

theorem State.startQual_keeps (s : State) (l : Link) : Keeps 0x4000002000000000000000000000000000000000000000000000000000000000000000002000008800 s (State.startQual s l) := by
  unfold State.startQual
  repeat' first
    | with_reducible exact .refl _
    | with_reducible assumption
    | (extract_lets +onlyGivenNames y_; refine Keeps.cut (y := y_) ?_ ?_; rotate_left; clear_value y_; intro _; rotate_left; dsimp -iota only [y_]; clear y_)
    | exact rfl
    | with_reducible intro _
    | with_reducible refine .ite ?_ ?_
    | with_reducible refine (State.setReason_keeps _ _ _).trans ?_ ?_
    | with_reducible refine (State.emit_keeps _ _).trans ?_ ?_
    | with_reducible refine (State.setLinkState_keeps _ _ _).trans ?_ ?_
    | with_reducible refine (State.modPort_keeps _ _ _).trans ?_ ?_
    | with_reducible refine (State.setFld_keeps _ _ _ _ ?_).trans (sub_self _) ?_
    | split
    | dsimp -iota only

theorem State.identFrom4_keeps (s : State) (l : Link) (id : Ident) : Keeps 0x4032002000000000000000000000000000000000000000000000000000000000000000002000008800 s (State.identFrom4 s l id) := by
  unfold State.identFrom4
  repeat' first
    | with_reducible exact .refl _
    | with_reducible assumption
    | exact rfl
    | with_reducible intro _
    | with_reducible refine .ite ?_ ?_
    | with_reducible refine (State.startQual_keeps _ _).trans ?_ ?_
    | with_reducible refine (State.enterUp_keeps _ _).trans ?_ ?_
    | with_reducible refine (State.outcome_keeps _ _).trans ?_ ?_
    | with_reducible refine (State.setReason_keeps _ _ _).trans ?_ ?_
    | with_reducible refine (State.setLinkState_keeps _ _ _).trans ?_ ?_
    | split

theorem State.identState_keeps (s : State) (l : Link) (id : Ident) : Keeps 0x6073002000000000000000000000000000000000000000000a28000000000000000000002000008800 s (State.identState s l id) := by
  unfold State.identState
  repeat' first
    | with_reducible exact .refl _
    | with_reducible assumption
    | exact rfl
    | with_reducible intro _
    | with_reducible refine .ite ?_ ?_
    | with_reducible refine (State.identFrom4_keeps _ _ _).trans ?_ ?_
    | with_reducible refine (State.quarantine_keeps _ _ _).trans ?_ ?_
    | split

theorem State.notePeer_keeps (s : State) (l : Nat) (id : Ident) : Keeps 0x2000000000000000000000000000000000000000000000000000000000000000000000007800 s (State.notePeer s l id) := by
  unfold State.notePeer
  repeat' first
    | with_reducible exact .refl _
    | with_reducible assumption
    | (extract_lets +onlyGivenNames y_; refine Keeps.cut (y := y_) ?_ ?_; rotate_left; clear_value y_; intro _; rotate_left; dsimp -iota only [y_]; clear y_)
    | exact rfl
    | with_reducible intro _
    | with_reducible refine .ite ?_ ?_
    | with_reducible refine (State.modPort_keeps _ _ _).trans ?_ ?_
    | with_reducible refine (State.setFld_keeps _ _ _ _ ?_).trans (sub_self _) ?_
    | with_reducible refine (State.setReg_keeps _ _ _ _ ?_).trans (sub_self _) ?_
    | split
    | dsimp -iota only

theorem execIdentReceive_keeps (l : Link) (id : Ident) (s : State) {z_ : State} (h_ : execIdentReceive l id s = .next z_) : Keeps 0x6073002000000000000000000000000000000000000000000a2800000000000000000000200000f800 s z_ := by
  unfold execIdentReceive at h_
  refine act_keeps h_ ?_
  repeat' first
    | with_reducible exact .refl _
    | with_reducible assumption
    | (extract_lets +onlyGivenNames y_; refine Keeps.cut (y := y_) ?_ ?_; rotate_left; clear_value y_; intro _; rotate_left; dsimp -iota only [y_]; clear y_)
    | exact rfl
    | with_reducible intro _
    | with_reducible refine .ite ?_ ?_
    | with_reducible refine (State.notePeer_keeps _ _ _).trans ?_ ?_
    | with_reducible refine (State.identState_keeps _ _ _).trans ?_ ?_
    | with_reducible refine (State.sendReport_keeps _ _).trans ?_ ?_
    | split
    | dsimp -iota only

theorem execIdentTimeout_keeps (l : Link) (s : State) {z_ : State} (h_ : execIdentTimeout l s = .next z_) : Keeps 0x90412000000000000000000000000000000000000000000000000010000000000000003280000800 s z_ := by
  unfold execIdentTimeout at h_
  refine act_keeps h_ ?_
  repeat' first
    | with_reducible exact .refl _
    | with_reducible assumption
    | exact rfl
    | with_reducible intro _
    | with_reducible refine .ite ?_ ?_
    | with_reducible refine (State.dropLink_keeps _ _ _).trans ?_ ?_
    | split

theorem execQualPhase1End_keeps (l : Link) (errs : List Nat) (bits : Nat) (s : State) {z_ : State} (h_ : execQualPhase1End l errs bits s = .next z_) : Keeps 0x4000002000000000000000000000000000000000000000000000000000000000000000000000000000 s z_ := by
  unfold execQualPhase1End at h_
  refine act_keeps h_ ?_
  repeat' first
    | with_reducible exact .refl _
    | with_reducible assumption
    | (extract_lets +onlyGivenNames y_; refine Keeps.cut (y := y_) ?_ ?_; rotate_left; clear_value y_; intro _; rotate_left; dsimp -iota only [y_]; clear y_)
    | exact rfl
    | with_reducible intro _
    | with_reducible refine .ite ?_ ?_
    | with_reducible refine (State.emit_keeps _ _).trans ?_ ?_
    | with_reducible refine (State.modPort_keeps _ _ _).trans ?_ ?_
    | split
    | dsimp -iota only

theorem State.qualJudge_keeps (s : State) (l : Link) : Keeps 0x6072002000000000000000000000000000000000000000000a28001000000000000000002000008800 s (State.qualJudge s l) := by
  unfold State.qualJudge
  repeat' first
    | with_reducible exact .refl _
    | with_reducible assumption
    | (extract_lets +onlyGivenNames y_; refine Keeps.cut (y := y_) ?_ ?_; rotate_left; clear_value y_; intro _; rotate_left; dsimp -iota only [y_]; clear y_)
    | exact rfl
    | with_reducible intro _
    | with_reducible refine .ite ?_ ?_
    | with_reducible refine (State.qualFail_keeps _ _ _).trans ?_ ?_
    | with_reducible refine (State.enterUp_keeps _ _).trans ?_ ?_
    | with_reducible refine (State.setCause_keeps _ _ _).trans ?_ ?_
    | with_reducible refine (State.modPort_keeps _ _ _).trans ?_ ?_
    | with_reducible refine (State.setFld_keeps _ _ _ _ ?_).trans (sub_self _) ?_
    | split
    | dsimp -iota only

theorem State.qualDigits_keeps (s : State) (l : Nat) : Keeps 0x8000000000000000000000000000000000000000000000000000000000000000000000000000008000 s (State.qualDigits s l) := by
  unfold State.qualDigits
  repeat' first
    | with_reducible exact .refl _
    | with_reducible assumption
    | (extract_lets +onlyGivenNames y_; refine Keeps.cut (y := y_) ?_ ?_; rotate_left; clear_value y_; intro _; rotate_left; dsimp -iota only [y_]; clear y_)
    | exact rfl
    | with_reducible intro _
    | with_reducible refine .ite ?_ ?_
    | with_reducible refine (State.fresh_keeps _).trans ?_ ?_
    | with_reducible refine (Keeps.snd (State.fresh_keeps _) ‹_›).trans ?_ ?_
    | with_reducible refine (State.setFld_keeps _ _ _ _ ?_).trans (sub_self _) ?_
    | split
    | dsimp -iota only

theorem execQualPhase2End_keeps (l : Link) (counts : List Nat) (unc total : Nat) (s : State) {z_ : State} (h_ : execQualPhase2End l counts unc total s = .next z_) : Keeps 0xe072002000000000000000000000000000000000000000000a28001000000000000000002000008800 s z_ := by
  unfold execQualPhase2End at h_
  refine act_keeps h_ ?_
  repeat' first
    | with_reducible exact .refl _
    | with_reducible assumption
    | (extract_lets +onlyGivenNames y_; refine Keeps.cut (y := y_) ?_ ?_; rotate_left; clear_value y_; intro _; rotate_left; dsimp -iota only [y_]; clear y_)
    | exact rfl
    | with_reducible intro _
    | with_reducible refine .ite ?_ ?_
    | with_reducible refine (State.qualDigits_keeps _ _).trans ?_ ?_
    | with_reducible refine (State.qualJudge_keeps _ _).trans ?_ ?_
    | with_reducible refine (State.emit_keeps _ _).trans ?_ ?_
    | with_reducible refine (State.modPort_keeps _ _ _).trans ?_ ?_
    | split
    | dsimp -iota only

theorem execQualReportReceive_keeps (l : Link) (pass : Bool) (s : State) {z_ : State} (h_ : execQualReportReceive l pass s = .next z_) : Keeps 0x6072002000000000000000000000000000000000000000000a28001000000000000000002000008800 s z_ := by
  unfold execQualReportReceive at h_
  refine act_keeps h_ ?_
  repeat' first
    | with_reducible exact .refl _
    | with_reducible assumption
    | exact rfl
    | with_reducible intro _
    | with_reducible refine .ite ?_ ?_
    | with_reducible refine (State.qualJudge_keeps _ _).trans ?_ ?_
    | with_reducible refine (State.modPort_keeps _ _ _).trans ?_ ?_
    | split

theorem execPeerSilent_keeps (l : Link) (s : State) {z_ : State} (h_ : execPeerSilent l s = .next z_) : Keeps 0x2070002000000000000000000000000000000000000000000a28001000000000000000002000008800 s z_ := by
  unfold execPeerSilent at h_
  refine act_keeps h_ ?_
  repeat' first
    | with_reducible exact .refl _
    | with_reducible assumption
    | exact rfl
    | with_reducible intro _
    | with_reducible refine .ite ?_ ?_
    | with_reducible refine (State.qualFail_keeps _ _ _).trans ?_ ?_
    | split

theorem execFrozenSetReceive_keeps (port : Port) (s : State) {z_ : State} (h_ : execFrozenSetReceive port s = .next z_) : Keeps 0x6043412000000000000000000000000000000000000000000a28000000000000000000000000000800 s z_ := by
  unfold execFrozenSetReceive at h_
  refine act_keeps h_ ?_
  repeat' first
    | with_reducible exact .refl _
    | with_reducible assumption
    | (extract_lets +onlyGivenNames y_; refine Keeps.cut (y := y_) ?_ ?_; rotate_left; clear_value y_; intro _; rotate_left; dsimp -iota only [y_]; clear y_)
    | exact rfl
    | with_reducible intro _
    | with_reducible refine .ite ?_ ?_
    | with_reducible refine (State.announceLoss_keeps _ _).trans ?_ ?_
    | with_reducible refine (State.sealClear_keeps _ _).trans ?_ ?_
    | with_reducible refine (State.modPort_keeps _ _ _).trans ?_ ?_
    | with_reducible refine (State.setFld_keeps _ _ _ _ ?_).trans (sub_self _) ?_
    | split
    | dsimp -iota only
    | with_reducible apply Keeps.upd rfl
    | exact Or.inl rfl
    | exact Or.inr rfl

theorem execFrozenSetStop_keeps (port : Port) (s : State) {z_ : State} (h_ : execFrozenSetStop port s = .next z_) : Keeps 0x90412000000000000000000000000000000000000000000000000010000000000000003280000800 s z_ := by
  unfold execFrozenSetStop at h_
  refine act_keeps h_ ?_
  repeat' first
    | with_reducible exact .refl _
    | with_reducible assumption
    | exact rfl
    | with_reducible intro _
    | with_reducible refine .ite ?_ ?_
    | with_reducible refine (State.dropLink_keeps _ _ _).trans ?_ ?_
    | with_reducible refine (State.modPort_keeps _ _ _).trans ?_ ?_
    | split

end Sys2Proof.Machine
end

