-- ==== Sys2Proof/Laws/KeepsMemory.lean ====
section
/-! SUPPORT. Sys2Proof/Laws/KeepsMemory.lean: what each operation of Machine/Memory.lean leaves alone. -/

namespace Sys2Proof.Machine

theorem State.ctxWrite_keeps (s : State) (c off : Nat) (bs : List Byte) : Keeps 0x800000000000000000000000000000000000000000000000000000000000000000000000000000 s (s.ctxWrite c off bs) := by
  induction bs generalizing s off with
  | nil => exact .refl s
  | cons b t ih =>
    refine (ih _ _).trans rfl ?_
    split
    · exact (State.writeMem_keeps _ _ _).trans rfl (.refl s)
    · exact .refl s

theorem State.showPool_keeps (s : State) : Keeps 0x200000000000000000 s (State.showPool s) := by
  unfold State.showPool
  repeat' first
    | with_reducible exact .refl _
    | with_reducible assumption
    | exact rfl
    | with_reducible intro _
    | with_reducible refine .ite ?_ ?_
    | with_reducible refine (State.setFld_keeps _ _ _ _ ?_).trans (sub_self _) ?_
    | with_reducible refine .foldl _ ?_ ?_
    | split

theorem State.takeFrame_keeps (s : State) (w : Nat) : Keeps 0x8000040000000000000000000000000000000000000000000000000000000000000000000000000000 s (State.takeFrame s w).2 := by
  unfold State.takeFrame
  repeat' first
    | with_reducible exact .refl _
    | with_reducible assumption
    | (extract_lets +onlyGivenNames y_; refine Keeps.cut (y := y_) ?_ ?_; rotate_left; clear_value y_; intro _; rotate_left; dsimp -iota only [y_]; clear y_)
    | exact rfl
    | with_reducible intro _
    | with_reducible refine .ite ?_ ?_
    | with_reducible refine .ite2 ?_ ?_
    | with_reducible refine (State.fresh_keeps _).trans ?_ ?_
    | with_reducible refine (Keeps.snd (State.fresh_keeps _) ‹_›).trans ?_ ?_
    | split
    | dsimp -iota only
    | with_reducible apply Keeps.upd rfl
    | exact Or.inl rfl
    | exact Or.inr rfl

theorem State.releaseFrame_keeps (s : State) (f : Nat) : Keeps 0x40000000000000000000000000000000000000000000000000000000000000000000000000000 s (State.releaseFrame s f) := by
  unfold State.releaseFrame
  repeat' first
    | with_reducible exact .refl _
    | with_reducible assumption
    | exact rfl
    | with_reducible intro _
    | with_reducible refine .ite ?_ ?_
    | split
    | with_reducible apply Keeps.upd rfl
    | exact Or.inl rfl
    | exact Or.inr rfl

theorem State.zeroFrame_keeps (s : State) (f : Nat) : Keeps 0x840000000000000000000000000000000000000000000000000000000000000000000000000000 s (State.zeroFrame s f) := by
  unfold State.zeroFrame
  repeat' first
    | with_reducible exact .refl _
    | with_reducible assumption
    | (extract_lets +onlyGivenNames y_; refine Keeps.cut (y := y_) ?_ ?_; rotate_left; clear_value y_; intro _; rotate_left; dsimp -iota only [y_]; clear y_)
    | exact rfl
    | with_reducible intro _
    | with_reducible refine .ite ?_ ?_
    | with_reducible refine (State.clearMem_keeps _ _ _).trans ?_ ?_
    | split
    | dsimp -iota only
    | with_reducible apply Keeps.upd rfl
    | exact Or.inl rfl
    | exact Or.inr rfl

theorem State.writeLedger_keeps (s : State) (r : RunCmd) (state status flags : Nat) : Keeps 0x800000000000000000000000000000000000000000000000000000000000000000000000000000 s (State.writeLedger s r state status flags) := by
  unfold State.writeLedger
  repeat' first
    | with_reducible exact .refl _
    | with_reducible assumption
    | exact rfl
    | with_reducible intro _
    | with_reducible refine .ite ?_ ?_
    | with_reducible refine (State.ctxWrite_keeps _ _ _ _).trans ?_ ?_
    | split

theorem State.progress_keeps (s : State) (q i : Nat) (f : RunCmd → RunCmd) : Keeps 0x820000000000000000000000000000000000000000000000000000000000000000000000000000 s (State.progress s q i f) := by
  unfold State.progress
  repeat' first
    | with_reducible exact .refl _
    | with_reducible assumption
    | (extract_lets +onlyGivenNames y_; refine Keeps.cut (y := y_) ?_ ?_; rotate_left; clear_value y_; intro _; rotate_left; dsimp -iota only [y_]; clear y_)
    | exact rfl
    | with_reducible intro _
    | with_reducible refine .ite ?_ ?_
    | with_reducible refine (State.writeLedger_keeps _ _ _ _ _).trans ?_ ?_
    | with_reducible refine (State.modRun_keeps _ _ _ _).trans ?_ ?_
    | split
    | dsimp -iota only

theorem State.collLanded_keeps (s : State) (q i off len : Nat) : Keeps 0x820000000000000000000000000000000000000000000000000000000000000000000000000000 s (State.collLanded s q i off len) := by
  unfold State.collLanded
  repeat' first
    | with_reducible exact .refl _
    | with_reducible assumption
    | (extract_lets +onlyGivenNames y_; refine Keeps.cut (y := y_) ?_ ?_; rotate_left; clear_value y_; intro _; rotate_left; dsimp -iota only [y_]; clear y_)
    | exact rfl
    | with_reducible intro _
    | with_reducible refine .ite ?_ ?_
    | with_reducible refine (State.progress_keeps _ _ _ _).trans ?_ ?_
    | with_reducible refine (State.modRun_keeps _ _ _ _).trans ?_ ?_
    | split
    | dsimp -iota only

theorem State.tagLanded_keeps (s : State) (t : Tag) : Keeps 0x820000000000000000000000000000000000000000000000000000000000000000000000000000 s (State.tagLanded s t) := by
  unfold State.tagLanded
  repeat' first
    | with_reducible exact .refl _
    | with_reducible assumption
    | (extract_lets +onlyGivenNames y_; refine Keeps.cut (y := y_) ?_ ?_; rotate_left; clear_value y_; intro _; rotate_left; dsimp -iota only [y_]; clear y_)
    | exact rfl
    | with_reducible intro _
    | with_reducible refine .ite ?_ ?_
    | with_reducible refine (State.collLanded_keeps _ _ _ _ _).trans ?_ ?_
    | with_reducible refine (State.progress_keeps _ _ _ _).trans ?_ ?_
    | with_reducible refine (State.modRun_keeps _ _ _ _).trans ?_ ?_
    | split
    | dsimp -iota only

theorem State.tagFail_keeps (s : State) (t : Tag) (status : Nat) : Keeps 0xa0000000000000000000000000000000000000000000000000000000001000000000000000000 s (State.tagFail s t status) := by
  unfold State.tagFail
  repeat' first
    | with_reducible exact .refl _
    | with_reducible assumption
    | (extract_lets +onlyGivenNames y_; refine Keeps.cut (y := y_) ?_ ?_; rotate_left; clear_value y_; intro _; rotate_left; dsimp -iota only [y_]; clear y_)
    | exact rfl
    | with_reducible intro _
    | with_reducible refine .ite ?_ ?_
    | with_reducible refine (State.cmdFail_keeps _ _ _ _ _).trans ?_ ?_
    | with_reducible refine (State.setFld_keeps _ _ _ _ ?_).trans (sub_self _) ?_
    | split
    | dsimp -iota only
    | with_reducible apply Keeps.upd rfl
    | exact Or.inl rfl
    | exact Or.inr rfl

theorem State.readReq_keeps (s : State) (unit c epoch addr n : Nat) (cmd : Option Tag) : Keeps 0x4000412000000000000000000000000000000000000000000000000000000000000000000000880000 s (State.readReq s unit c epoch addr n cmd) := by
  unfold State.readReq
  repeat' first
    | with_reducible exact .refl _
    | with_reducible assumption
    | (extract_lets +onlyGivenNames y_; refine Keeps.cut (y := y_) ?_ ?_; rotate_left; clear_value y_; intro _; rotate_left; dsimp -iota only [y_]; clear y_)
    | exact rfl
    | with_reducible intro _
    | with_reducible refine .ite ?_ ?_
    | with_reducible refine (State.source_keeps _ _ _ _).trans ?_ ?_
    | split
    | dsimp -iota only
    | with_reducible apply Keeps.upd rfl
    | exact Or.inl rfl
    | exact Or.inr rfl

theorem State.writeReq_keeps (s : State) (unit c epoch addr : Nat) (bytes : List Byte) (cmd : Option Tag) : Keeps 0x4000412000000000000000000000000000000000000000000000000000000000000000000000880000 s (State.writeReq s unit c epoch addr bytes cmd) := by
  unfold State.writeReq
  repeat' first
    | with_reducible exact .refl _
    | with_reducible assumption
    | exact rfl
    | with_reducible intro _
    | with_reducible refine .ite ?_ ?_
    | with_reducible refine (State.source_keeps _ _ _ _).trans ?_ ?_
    | split

end Sys2Proof.Machine
end

