-- ==== Sys2Proof/Laws/KeepsFrames.lean ====
section
/-! SUPPORT. Sys2Proof/Laws/KeepsFrames.lean: what each operation of Machine/Frames.lean leaves alone. -/

namespace Sys2Proof.Machine

theorem actAnt_keeps {m : Nat} {s t : State} {f : State → State} (h : actAnt s f = .next t) (g : Keeps m s (f s)) : Keeps m s t := by
  obtain rfl := Host.Outcome.next.inj h
  split
  · exact g
  · exact .refl s

theorem State.antEmit_keeps (s : State) (a : Nat) (f : AntFrame) : Keeps 0x4080000000000000000000000000000000000000000000000000000000000000000000000000000000 s (State.antEmit s a f) := by
  unfold State.antEmit
  repeat' first
    | with_reducible exact .refl _
    | with_reducible assumption
    | exact rfl
    | with_reducible intro _
    | with_reducible refine .ite ?_ ?_
    | with_reducible refine (State.modAnt_keeps _ _ _).trans ?_ ?_
    | with_reducible refine (State.emit_keeps _ _).trans ?_ ?_
    | split

theorem State.antPump_keeps (s : State) (a fuel : Nat) : Keeps 0x4080000000000000000000000000000000000000000000000000000000000000000000000000000000 s (s.antPump a fuel) := by
  induction fuel generalizing s with
  | zero => exact .refl _
  | succ n_ ih =>
    unfold State.antPump
    repeat' first
      | with_reducible exact .refl _
      | exact rfl
      | intro _
      | with_reducible refine .ite ?_ ?_
      | with_reducible refine (ih _).trans (sub_self _) ?_
      | with_reducible refine (State.setAnt_keeps _ _ _).trans ?_ ?_
      | with_reducible refine (State.antEmit_keeps _ _ _).trans ?_ ?_
      | split
      | dsimp only

theorem State.antQueue_keeps (s : State) (a : Nat) (f : AntFrame) (events : List Nat) : Keeps 0x4080000000000000000000000000000000000000000000000000000000000000000000000000000000 s (State.antQueue s a f events) := by
  unfold State.antQueue
  repeat' first
    | with_reducible exact .refl _
    | with_reducible assumption
    | (extract_lets +onlyGivenNames y_; refine Keeps.cut (y := y_) ?_ ?_; rotate_left; clear_value y_; intro _; rotate_left; dsimp -iota only [y_]; clear y_)
    | exact rfl
    | with_reducible intro _
    | with_reducible refine .ite ?_ ?_
    | with_reducible refine (State.antPump_keeps _ _ _).trans ?_ ?_
    | with_reducible refine (State.modAnt_keeps _ _ _).trans ?_ ?_
    | split
    | dsimp -iota only

theorem State.antAcked_keeps (s : State) (a : Nat) (ack : Fin 65536) : Keeps 0x4080000000000000000000000000000000000000000000000000000000000000000000000000000000 s (State.antAcked s a ack) := by
  unfold State.antAcked
  repeat' first
    | with_reducible exact .refl _
    | with_reducible assumption
    | (extract_lets +onlyGivenNames y_; refine Keeps.cut (y := y_) ?_ ?_; rotate_left; clear_value y_; intro _; rotate_left; dsimp -iota only [y_]; clear y_)
    | exact rfl
    | with_reducible intro _
    | with_reducible refine .ite ?_ ?_
    | with_reducible refine (State.antPump_keeps _ _ _).trans ?_ ?_
    | with_reducible refine (State.setAnt_keeps _ _ _).trans ?_ ?_
    | split
    | dsimp -iota only

theorem State.antNak_keeps (s : State) (a : Nat) : Keeps 0x4080000000000000000000000000000000000000000000000000000000000000000000000000000000 s (State.antNak s a) := by
  unfold State.antNak
  repeat' first
    | with_reducible exact .refl _
    | with_reducible assumption
    | (extract_lets +onlyGivenNames y_; refine Keeps.cut (y := y_) ?_ ?_; rotate_left; clear_value y_; intro _; rotate_left; dsimp -iota only [y_]; clear y_)
    | exact rfl
    | with_reducible intro _
    | with_reducible refine .ite ?_ ?_
    | with_reducible refine (State.antEmit_keeps _ _ _).trans ?_ ?_
    | with_reducible refine (State.modAnt_keeps _ _ _).trans ?_ ?_
    | split
    | dsimp -iota only

theorem State.antReceive_keeps {m : Nat} (s : State) (a : Nat) (good : Bool) (f : AntFrame) (eff : State → State) (hm : sub 0x4080000000000000000000000000000000000000000000000000000010000000000000000000000000 m = true) (he : ∀ t, Keeps m t (eff t)) : Keeps m s (s.antReceive a good f eff) := by
  unfold State.antReceive
  repeat' first
    | with_reducible exact .refl _
    | exact sub_self _
    | exact sub_left hm rfl
    | exact sub_testBit hm rfl
    | intro _
    | with_reducible refine .ite ?_ ?_
    | with_reducible refine (he _).trans ?_ ?_
    | with_reducible refine (State.setAnt_keeps _ _ _).trans ?_ ?_
    | with_reducible refine (State.antAcked_keeps _ _ _).trans ?_ ?_
    | with_reducible refine (State.antNak_keeps _ _).trans ?_ ?_
    | with_reducible refine (State.bump_keeps _ _ _ _ ?_).trans (sub_self _) ?_
    | dsimp only

theorem State.antReply_keeps (s : State) (a : Nat) (req : AntFrame) (status : Nat) (data : List Byte) : Keeps 0x4080000000000000000000000000000000000000000000000000000000000000000000000000000000 s (State.antReply s a req status data) := by
  unfold State.antReply
  repeat' first
    | with_reducible exact .refl _
    | with_reducible assumption
    | exact rfl
    | with_reducible intro _
    | with_reducible refine .ite ?_ ?_
    | with_reducible refine (State.antQueue_keeps _ _ _ _).trans ?_ ?_
    | split

theorem State.dbDue_keeps (s : State) (old : State) (owner : Nat) : Keeps 0x80000000000000000000000000000000000000000000000000000000000000000000000000000000 s (State.dbDue s old owner) := by
  unfold State.dbDue
  repeat' first
    | with_reducible exact .refl _
    | with_reducible assumption
    | exact rfl
    | with_reducible intro _
    | with_reducible refine .ite ?_ ?_
    | with_reducible refine (State.modAnt_keeps _ _ _).trans ?_ ?_
    | split

theorem State.ring_keeps (s : State) (owner bitNo : Nat) : Keeps 0x80000000000000000000000000000000000000000000000000000001400000000000000000000000 s (State.ring s owner bitNo) := by
  unfold State.ring
  repeat' first
    | with_reducible exact .refl _
    | with_reducible assumption
    | exact rfl
    | with_reducible intro _
    | with_reducible refine .ite ?_ ?_
    | with_reducible refine (State.dbDue_keeps _ _ _).trans ?_ ?_
    | with_reducible refine (State.setFld_keeps _ _ _ _ ?_).trans (sub_self _) ?_
    | split

theorem State.sendBell_keeps (s : State) (a : Nat) : Keeps 0x4080000000000000000000000000000000000000000000000000000000000000000000000000000000 s (State.sendBell s a) := by
  unfold State.sendBell
  repeat' first
    | with_reducible exact .refl _
    | with_reducible assumption
    | exact rfl
    | with_reducible intro _
    | with_reducible refine .ite ?_ ?_
    | with_reducible refine (State.antQueue_keeps _ _ _ _).trans ?_ ?_
    | with_reducible refine (State.modAnt_keeps _ _ _).trans ?_ ?_
    | split

theorem accessBy_keeps {m owner : Nat} {s t : State} {f : State → State × Nat × Word} {g : State → Nat × Word}
    (h : accessBy owner s f g = .next t) (hm : sub 0x4000000000000000000000000000000000000000000000000000000000000000000000000000000000 m = true) (k : Keeps m s (f s).1) : Keeps m s t := by
  unfold accessBy at h
  split at h
  · obtain rfl := Host.Outcome.next.inj h
    exact .refl s
  · split at h
    · obtain rfl := Host.Outcome.next.inj h
      exact (State.emit_keeps _ _).trans (sub_left hm rfl) k
    · obtain rfl := Host.Outcome.next.inj h
      exact (State.emit_keeps _ _).trans (sub_left hm rfl) (.refl s)

theorem State.claim_keeps {m : Nat} (s : State) (f : Fld) (i owner : Nat) (h : m.testBit f.reg.code = true) :
    Keeps m s (s.claim f i owner).1 := Keeps.ite (fun _ => State.setFld_keeps s f i owner h) (fun _ => .refl s)

theorem State.release_keeps {m : Nat} (s : State) (f : Fld) (i : Nat) (v : Word) (h : m.testBit f.reg.code = true) :
    Keeps m s (s.release f i v).1 := Keeps.ite (fun _ => State.setFld_keeps s f i 0 h) (fun _ => .refl s)

end Sys2Proof.Machine
end

