-- ==== Sys2Proof/Laws/KeepsMailbox.lean ====
section
/-! SUPPORT. Sys2Proof/Laws/KeepsMailbox.lean: what each operation of Machine/Mailbox.lean leaves alone. -/

namespace Sys2Proof.Machine

theorem ownerEpoch_reg (o : Nat) : (ownerEpoch o).reg = .CTL_EPOCHS := by
  unfold ownerEpoch
  repeat' first | rfl | split

theorem State.mbxPost_keeps (s : State) (owner n dest : Nat) (word : Word) : Keeps 0x800000000000000000000000000000000000000000000000000000015e0000000000000000000000 s (State.mbxPost s owner n dest word) := by
  unfold State.mbxPost
  repeat' first
    | with_reducible exact .refl _
    | with_reducible assumption
    | (extract_lets +onlyGivenNames y_; refine Keeps.cut (y := y_) ?_ ?_; rotate_left; clear_value y_; intro _; rotate_left; dsimp -iota only [y_]; clear y_)
    | exact rfl
    | with_reducible intro _
    | with_reducible refine .ite ?_ ?_
    | with_reducible refine (State.ring_keeps _ _ _).trans ?_ ?_
    | with_reducible refine (State.setFld_keeps _ _ _ _ ?_).trans (sub_self _) ?_
    | with_reducible refine (State.setReg_keeps _ _ _ _ ?_).trans (sub_self _) ?_
    | (rw [ownerEpoch_reg]; exact rfl)
    | split
    | dsimp -iota only

theorem State.mbxWrite_keeps (s : State) (owner n dest : Nat) (word : Word) : Keeps 0x800000000000000000000000000000000000000000000000000000015e0000000000000000000000 s (State.mbxWrite s owner n dest word).1 := by
  unfold State.mbxWrite
  repeat' first
    | with_reducible exact .refl _
    | with_reducible assumption
    | exact rfl
    | with_reducible intro _
    | with_reducible refine .ite ?_ ?_
    | with_reducible refine .ite1 ?_ ?_
    | with_reducible refine (State.mbxPost_keeps _ _ _ _ _).trans ?_ ?_
    | split

theorem State.mbxSend_keeps (s : State) (owner n : Nat) (word : Word) : Keeps 0x800000000000000000000000000000000000000000000000000000015e0000000000000000000000 s (State.mbxSend s owner n word).1 := by
  unfold State.mbxSend
  repeat' first
    | with_reducible exact .refl _
    | with_reducible assumption
    | (extract_lets +onlyGivenNames y_; refine Keeps.cut (y := y_) ?_ ?_; rotate_left; clear_value y_; intro _; rotate_left; dsimp -iota only [y_]; clear y_)
    | exact rfl
    | with_reducible intro _
    | with_reducible refine .ite ?_ ?_
    | with_reducible refine .ite1 ?_ ?_
    | with_reducible refine (State.mbxPost_keeps _ _ _ _ _).trans ?_ ?_
    | split
    | dsimp -iota only

theorem State.mbxAck_keeps (s : State) (n code : Nat) : Keeps 0x80000000000000000000000000000000000000000000000000000001580000000000000000000000 s (State.mbxAck s n code) := by
  unfold State.mbxAck
  repeat' first
    | with_reducible exact .refl _
    | with_reducible assumption
    | (extract_lets +onlyGivenNames y_; refine Keeps.cut (y := y_) ?_ ?_; rotate_left; clear_value y_; intro _; rotate_left; dsimp -iota only [y_]; clear y_)
    | exact rfl
    | with_reducible intro _
    | with_reducible refine .ite ?_ ?_
    | with_reducible refine (State.ring_keeps _ _ _).trans ?_ ?_
    | with_reducible refine (State.setFld_keeps _ _ _ _ ?_).trans (sub_self _) ?_
    | split
    | dsimp -iota only

theorem State.mbxAnswer_keeps (s : State) (owner n code : Nat) : Keeps 0x80000000000000000000000000000000000000000000000000000001580000000000000000000000 s (State.mbxAnswer s owner n code).1 := by
  unfold State.mbxAnswer
  repeat' first
    | with_reducible exact .refl _
    | with_reducible assumption
    | exact rfl
    | with_reducible intro _
    | with_reducible refine .ite ?_ ?_
    | with_reducible refine .ite1 ?_ ?_
    | with_reducible refine (State.mbxAck_keeps _ _ _).trans ?_ ?_
    | split

theorem execCtlSemRead_keeps (owner : Owner) (s : State) {z_ : State} (h_ : execCtlSemRead owner s = .next z_) : Keeps 0x4000000000000000000000000000000000000000000000000000000000010000000000000000000000 s z_ := by
  unfold execCtlSemRead at h_
  refine accessBy_keeps h_ rfl ?_
  repeat' first
    | with_reducible exact .refl _
    | with_reducible assumption
    | exact rfl
    | with_reducible intro _
    | with_reducible refine .ite ?_ ?_
    | with_reducible refine (State.claim_keeps _ _ _ _ ?_).trans (sub_self _) ?_
    | with_reducible refine (Keeps.fst (State.claim_keeps _ _ _ _ ?_) ‹_›).trans (sub_self _) ?_
    | split

theorem execCtlSemRelease_keeps (owner : Owner) (value : Word) (s : State) {z_ : State} (h_ : execCtlSemRelease owner value s = .next z_) : Keeps 0x4000000000000000000000000000000000000000000000000000000000010000000000000000000000 s z_ := by
  unfold execCtlSemRelease at h_
  refine accessBy_keeps h_ rfl ?_
  repeat' first
    | with_reducible exact .refl _
    | with_reducible assumption
    | exact rfl
    | with_reducible intro _
    | with_reducible refine .ite ?_ ?_
    | with_reducible refine (State.release_keeps _ _ _ _ ?_).trans (sub_self _) ?_
    | with_reducible refine (Keeps.fst (State.release_keeps _ _ _ _ ?_) ‹_›).trans (sub_self _) ?_
    | split

theorem execMbxLockRead_keeps (owner : Owner) (n : Mailbox) (s : State) {z_ : State} (h_ : execMbxLockRead owner n s = .next z_) : Keeps 0x4000000000000000000000000000000000000000000000000000000000200000000000000000000000 s z_ := by
  unfold execMbxLockRead at h_
  refine accessBy_keeps h_ rfl ?_
  repeat' first
    | with_reducible exact .refl _
    | with_reducible assumption
    | exact rfl
    | with_reducible intro _
    | with_reducible refine .ite ?_ ?_
    | with_reducible refine (State.claim_keeps _ _ _ _ ?_).trans (sub_self _) ?_
    | with_reducible refine (Keeps.fst (State.claim_keeps _ _ _ _ ?_) ‹_›).trans (sub_self _) ?_
    | split

theorem execMbxLockRelease_keeps (owner : Owner) (n : Mailbox) (value : Word) (s : State) {z_ : State} (h_ : execMbxLockRelease owner n value s = .next z_) : Keeps 0x4000000000000000000000000000000000000000000000000000000000200000000000000000000000 s z_ := by
  unfold execMbxLockRelease at h_
  refine accessBy_keeps h_ rfl ?_
  repeat' first
    | with_reducible exact .refl _
    | with_reducible assumption
    | exact rfl
    | with_reducible intro _
    | with_reducible refine .ite ?_ ?_
    | with_reducible refine (State.release_keeps _ _ _ _ ?_).trans (sub_self _) ?_
    | with_reducible refine (Keeps.fst (State.release_keeps _ _ _ _ ?_) ‹_›).trans (sub_self _) ?_
    | split

theorem execMbxPost_keeps (owner : Owner) (n : Mailbox) (word : Word) (dest : Owner) (s : State) {z_ : State} (h_ : execMbxPost owner n word dest s = .next z_) : Keeps 0x40800000000000000000000000000000000000000000000000000000015e0000000000000000000000 s z_ := by
  unfold execMbxPost at h_
  refine accessBy_keeps h_ rfl ?_
  repeat' first
    | with_reducible exact .refl _
    | with_reducible assumption
    | exact rfl
    | with_reducible intro _
    | with_reducible refine .ite ?_ ?_
    | with_reducible refine (State.mbxWrite_keeps _ _ _ _ _).trans ?_ ?_
    | with_reducible refine (Keeps.fst (State.mbxWrite_keeps _ _ _ _ _) ‹_›).trans ?_ ?_
    | split

theorem execMbxAcknowledge_keeps (owner : Owner) (n : Mailbox) (code : Fin 256) (s : State) {z_ : State} (h_ : execMbxAcknowledge owner n code s = .next z_) : Keeps 0x4080000000000000000000000000000000000000000000000000000001580000000000000000000000 s z_ := by
  unfold execMbxAcknowledge at h_
  refine accessBy_keeps h_ rfl ?_
  repeat' first
    | with_reducible exact .refl _
    | with_reducible assumption
    | exact rfl
    | with_reducible intro _
    | with_reducible refine .ite ?_ ?_
    | with_reducible refine (State.mbxAnswer_keeps _ _ _ _).trans ?_ ?_
    | with_reducible refine (Keeps.fst (State.mbxAnswer_keeps _ _ _ _) ‹_›).trans ?_ ?_
    | split

theorem execDoorbellFrameSend_keeps (port : Antenna) (s : State) {z_ : State} (h_ : execDoorbellFrameSend port s = .next z_) : Keeps 0x4080000000000000000000000000000000000000000000000000000000000000000000000000000000 s z_ := by
  unfold execDoorbellFrameSend at h_
  refine act_keeps h_ ?_
  repeat' first
    | with_reducible exact .refl _
    | with_reducible assumption
    | exact rfl
    | with_reducible intro _
    | with_reducible refine .ite ?_ ?_
    | with_reducible refine (State.sendBell_keeps _ _).trans ?_ ?_
    | split

theorem State.mbxReset_keeps (s : State) (n : Nat) : Keeps 0x800000000000000000000000000000000000000000000000000000015c0000000000000000000000 s (State.mbxReset s n) := by
  unfold State.mbxReset
  repeat' first
    | with_reducible exact .refl _
    | with_reducible assumption
    | exact rfl
    | with_reducible intro _
    | with_reducible refine .ite ?_ ?_
    | with_reducible refine (State.mbxAck_keeps _ _ _).trans ?_ ?_
    | with_reducible refine (State.setReg_keeps _ _ _ _ ?_).trans (sub_self _) ?_
    | split

theorem State.dropChanLock_keeps (s : State) (owner n : Nat) : Keeps 0x80000000000000000000000000000000000000000000000000000000004000000000000000000 s (State.dropChanLock s owner n) := by
  unfold State.dropChanLock
  repeat' first
    | with_reducible exact .refl _
    | with_reducible assumption
    | (extract_lets +onlyGivenNames y_; refine Keeps.cut (y := y_) ?_ ?_; rotate_left; clear_value y_; intro _; rotate_left; dsimp -iota only [y_]; clear y_)
    | exact rfl
    | with_reducible intro _
    | with_reducible refine .ite ?_ ?_
    | with_reducible refine (State.setFld_keeps _ _ _ _ ?_).trans (sub_self _) ?_
    | split
    | dsimp -iota only
    | with_reducible apply Keeps.upd rfl
    | exact Or.inl rfl
    | exact Or.inr rfl

theorem State.ownerRestart_keeps (s : State) (owner : Nat) : Keeps 0x800800000000000000000000000000000000000000000000400000017f0004000000000000000000 s (State.ownerRestart s owner) := by
  unfold State.ownerRestart
  repeat' first
    | with_reducible exact .refl _
    | with_reducible assumption
    | (extract_lets +onlyGivenNames y_; refine Keeps.cut (y := y_) ?_ ?_; rotate_left; clear_value y_; intro _; rotate_left; dsimp -iota only [y_]; clear y_)
    | exact rfl
    | with_reducible intro _
    | with_reducible refine .ite ?_ ?_
    | with_reducible refine (State.dropChanLock_keeps _ _ _).trans ?_ ?_
    | with_reducible refine (State.mbxReset_keeps _ _).trans ?_ ?_
    | with_reducible refine (State.setFld_keeps _ _ _ _ ?_).trans (sub_self _) ?_
    | with_reducible refine (State.setReg_keeps _ _ _ _ ?_).trans (sub_self _) ?_
    | with_reducible refine .foldl _ ?_ ?_
    | (rw [ownerEpoch_reg]; exact rfl)
    | split
    | dsimp -iota only

theorem State.fwRestart_keeps (s : State) (but : Option FwRef) : Keeps 0xb00800000000000000000000000000000000000000000000400000017f0004000000000000000000 s (State.fwRestart s but) := by
  unfold State.fwRestart
  repeat' first
    | with_reducible exact .refl _
    | with_reducible assumption
    | (extract_lets +onlyGivenNames y_; refine Keeps.cut (y := y_) ?_ ?_; rotate_left; clear_value y_; intro _; rotate_left; dsimp -iota only [y_]; clear y_)
    | exact rfl
    | with_reducible intro _
    | with_reducible refine .ite ?_ ?_
    | with_reducible refine (State.ownerRestart_keeps _ _).trans ?_ ?_
    | with_reducible refine (State.finishFw_keeps _ _ _ _ _).trans ?_ ?_
    | with_reducible refine .foldl _ ?_ ?_
    | split
    | dsimp -iota only

theorem execOwnerRestart_keeps (owner : Owner) (s : State) {z_ : State} (h_ : execOwnerRestart owner s = .next z_) : Keeps 0xb00800000000000000000000000000000000000000000000400000017f0004000000000000000000 s z_ := by
  unfold execOwnerRestart at h_
  refine act_keeps h_ ?_
  repeat' first
    | with_reducible exact .refl _
    | with_reducible assumption
    | exact rfl
    | with_reducible intro _
    | with_reducible refine .ite ?_ ?_
    | with_reducible refine (State.fwRestart_keeps _ _).trans ?_ ?_
    | with_reducible refine (State.ownerRestart_keeps _ _).trans ?_ ?_
    | split
    | with_reducible apply Keeps.upd rfl
    | exact Or.inl rfl
    | exact Or.inr rfl

end Sys2Proof.Machine
end

