-- ==== Sys2Proof/Laws/KeepsPackets.lean ====
section
/-! SUPPORT. Sys2Proof/Laws/KeepsPackets.lean: what each operation of Machine/Packets.lean leaves alone. -/

namespace Sys2Proof.Machine

theorem State.truncation_keeps (s : State) (l : Nat) : Keeps 0x40000 s (State.truncation s l) := by
  unfold State.truncation
  repeat' first
    | with_reducible exact .refl _
    | with_reducible assumption
    | exact rfl
    | with_reducible intro _
    | with_reducible refine .ite ?_ ?_
    | with_reducible refine (State.bump_keeps _ _ _ _ ?_).trans (sub_self _) ?_
    | split

theorem State.portDrop_keeps (s : State) (l : Nat) : Keeps 0x20000 s (State.portDrop s l) := by
  unfold State.portDrop
  repeat' first
    | with_reducible exact .refl _
    | with_reducible assumption
    | exact rfl
    | with_reducible intro _
    | with_reducible refine .ite ?_ ?_
    | with_reducible refine (State.bump_keeps _ _ _ _ ?_).trans (sub_self _) ?_
    | split

theorem State.setVcIn_keeps (s : State) (l vc : Nat) (v : VcIn) : Keeps 0x2000000000000000000000000000000000000000000000000000000000000000000000000000 s (State.setVcIn s l vc v) := by
  unfold State.setVcIn
  repeat' first
    | with_reducible exact .refl _
    | with_reducible assumption
    | exact rfl
    | with_reducible intro _
    | with_reducible refine .ite ?_ ?_
    | with_reducible refine (State.modPort_keeps _ _ _).trans ?_ ?_
    | split

theorem State.truncate_keeps (s : State) (l : Link) (vc : Nat) (v : VcIn) : Keeps 0x4000002000000000000000000000000000000000000000000000000000000000000000000000040000 s (State.truncate s l vc v) := by
  unfold State.truncate
  repeat' first
    | with_reducible exact .refl _
    | with_reducible assumption
    | exact rfl
    | with_reducible intro _
    | with_reducible refine .ite ?_ ?_
    | with_reducible refine (State.setVcIn_keeps _ _ _ _).trans ?_ ?_
    | with_reducible refine (State.truncation_keeps _ _).trans ?_ ?_
    | with_reducible refine (State.emit_keeps _ _).trans ?_ ?_
    | split

theorem State.badSlot_keeps (s : State) (l : Link) : Keeps 0x4000002000000000000000000000000000000000000000000000000000000000000000000000060000 s (State.badSlot s l) := by
  unfold State.badSlot
  repeat' first
    | with_reducible exact .refl _
    | with_reducible assumption
    | exact rfl
    | with_reducible intro _
    | with_reducible refine .ite ?_ ?_
    | with_reducible refine (State.truncate_keeps _ _ _ _).trans ?_ ?_
    | with_reducible refine (State.portDrop_keeps _ _).trans ?_ ?_
    | with_reducible refine .foldl _ ?_ ?_
    | split

theorem State.freeBuffers_keeps (s : State) (l : Link) (vc n : Nat) : Keeps 0x4000002000000000000000000000000000000000000000000000000000000000000000000000000000 s (State.freeBuffers s l vc n) := by
  unfold State.freeBuffers
  repeat' first
    | with_reducible exact .refl _
    | with_reducible assumption
    | (extract_lets +onlyGivenNames y_; refine Keeps.cut (y := y_) ?_ ?_; rotate_left; clear_value y_; intro _; rotate_left; dsimp -iota only [y_]; clear y_)
    | exact rfl
    | with_reducible intro _
    | with_reducible refine .ite ?_ ?_
    | with_reducible refine (State.emit_keeps _ _).trans ?_ ?_
    | with_reducible refine (State.modPort_keeps _ _ _).trans ?_ ?_
    | split
    | dsimp -iota only

theorem State.frameFlit_keeps (s : State) (l : Link) (vc kind : Nat) : Keeps 0x4000002000000000000000000000000000000000000000000000000000000000000000000000040000 s (State.frameFlit s l vc kind) := by
  unfold State.frameFlit
  repeat' first
    | with_reducible exact .refl _
    | with_reducible assumption
    | exact rfl
    | with_reducible intro _
    | with_reducible refine .ite ?_ ?_
    | with_reducible refine (State.freeBuffers_keeps _ _ _ _).trans ?_ ?_
    | with_reducible refine (State.truncate_keeps _ _ _ _).trans ?_ ?_
    | with_reducible refine (State.setVcIn_keeps _ _ _ _).trans ?_ ?_
    | with_reducible refine (State.truncation_keeps _ _).trans ?_ ?_
    | split

theorem State.takeFlit_keeps (s : State) (l : Link) (vc kind : Nat) : Keeps 0x4000002000000000000000000000000000000000000000000000000000000000000000000000060000 s (State.takeFlit s l vc kind) := by
  unfold State.takeFlit
  repeat' first
    | with_reducible exact .refl _
    | with_reducible assumption
    | (extract_lets +onlyGivenNames y_; refine Keeps.cut (y := y_) ?_ ?_; rotate_left; clear_value y_; intro _; rotate_left; dsimp -iota only [y_]; clear y_)
    | exact rfl
    | with_reducible intro _
    | with_reducible refine .ite ?_ ?_
    | with_reducible refine (State.frameFlit_keeps _ _ _ _).trans ?_ ?_
    | with_reducible refine (State.truncate_keeps _ _ _ _).trans ?_ ?_
    | with_reducible refine (State.portDrop_keeps _ _).trans ?_ ?_
    | with_reducible refine (State.modPort_keeps _ _ _).trans ?_ ?_
    | split
    | dsimp -iota only

theorem State.addCredits_keeps (s : State) (l : Link) (vc n : Nat) : Keeps 0x4000412000000000000000000000000000000000000000000000000000000000000000000000000000 s (State.addCredits s l vc n) := by
  unfold State.addCredits
  repeat' first
    | with_reducible exact .refl _
    | with_reducible assumption
    | exact rfl
    | with_reducible intro _
    | with_reducible refine .ite ?_ ?_
    | with_reducible refine (State.serve_keeps _ _ _).trans ?_ ?_
    | with_reducible refine (State.modPort_keeps _ _ _).trans ?_ ?_
    | split

theorem execFlitReceive_keeps (l : Link) (word : BitVec 32) (flit : List Byte) (s : State) {z_ : State} (h_ : execFlitReceive l word flit s = .next z_) : Keeps 0x4000412000000000000000000000000000000000000000000000000000000000000000000000060000 s z_ := by
  unfold execFlitReceive at h_
  refine act_keeps h_ ?_
  repeat' first
    | with_reducible exact .refl _
    | with_reducible assumption
    | (extract_lets +onlyGivenNames y_; refine Keeps.cut (y := y_) ?_ ?_; rotate_left; clear_value y_; intro _; rotate_left; dsimp -iota only [y_]; clear y_)
    | exact rfl
    | with_reducible intro _
    | with_reducible refine .ite ?_ ?_
    | with_reducible refine (State.addCredits_keeps _ _ _ _).trans ?_ ?_
    | with_reducible refine (State.takeFlit_keeps _ _ _ _).trans ?_ ?_
    | with_reducible refine (State.badSlot_keeps _ _).trans ?_ ?_
    | split
    | dsimp -iota only

theorem execPacketForward_keeps (l : Link) (p : Packet) (s : State) {z_ : State} (h_ : execPacketForward l p s = .next z_) : Keeps 0x40004120000000000000000000000000000000000000000000000000000080000000000000000a0000 s z_ := by
  unfold execPacketForward at h_
  refine act_keeps h_ ?_
  repeat' first
    | with_reducible exact .refl _
    | with_reducible assumption
    | (extract_lets +onlyGivenNames y_; refine Keeps.cut (y := y_) ?_ ?_; rotate_left; clear_value y_; intro _; rotate_left; dsimp -iota only [y_]; clear y_)
    | exact rfl
    | with_reducible intro _
    | with_reducible refine .ite ?_ ?_
    | with_reducible refine (State.freeBuffers_keeps _ _ _ _).trans ?_ ?_
    | with_reducible refine (State.portDrop_keeps _ _).trans ?_ ?_
    | with_reducible refine (State.switchPacket_keeps _ _ _).trans ?_ ?_
    | with_reducible refine (State.sealArrive_keeps _ _ _).trans ?_ ?_
    | with_reducible refine (State.bump_keeps _ _ _ _ ?_).trans (sub_self _) ?_
    | split
    | dsimp -iota only

theorem State.doorbell_keeps {m : Nat} (s : State) (src : DbSource) (q : Nat) (ok : Bool) (f : State → State) (hm : sub 0x400000000000 m = true) (hf : Keeps m s (f s)) : Keeps m s (s.doorbell src q ok f) := by
  unfold State.doorbell
  exact .ite (fun _ => State.bump_keeps _ _ _ _ (sub_testBit hm rfl)) fun _ => .ite (fun _ => State.bump_keeps _ _ _ _ (sub_testBit hm rfl)) fun _ => hf

theorem State.reservedDoorbell_keeps (s : State) (p : Packet) : Keeps 0x400000000000 s (State.reservedDoorbell s p) := by
  unfold State.reservedDoorbell
  repeat' first
    | with_reducible exact .refl _
    | with_reducible assumption
    | exact rfl
    | with_reducible intro _
    | with_reducible refine .ite ?_ ?_
    | with_reducible refine (State.doorbell_keeps _ _ _ _ _ ?_ ?_).trans (sub_self _) ?_
    | with_reducible exact .ident _
    | split

theorem State.consume_keeps (s : State) (wing : Nat) (u : Nat) (p : Packet) : Keeps 0x4000412000000000000000000000000000000000000000000000000000000000000000400001880000 s (State.consume s wing u p) := by
  unfold State.consume
  repeat' first
    | with_reducible exact .refl _
    | with_reducible assumption
    | (extract_lets +onlyGivenNames y_; refine Keeps.cut (y := y_) ?_ ?_; rotate_left; clear_value y_; intro _; rotate_left; dsimp -iota only [y_]; clear y_)
    | exact rfl
    | with_reducible intro _
    | with_reducible refine .ite ?_ ?_
    | with_reducible refine (State.reservedDoorbell_keeps _ _).trans ?_ ?_
    | with_reducible refine (State.ackStream_keeps _ _ _).trans ?_ ?_
    | with_reducible refine (State.setReceived_keeps _ _).trans ?_ ?_
    | with_reducible refine (State.emit_keeps _ _).trans ?_ ?_
    | with_reducible refine (State.bump_keeps _ _ _ _ ?_).trans (sub_self _) ?_
    | split
    | dsimp -iota only

theorem State.holdSealed_keeps (s : State) (u : Nat) (p : Packet) : Keeps 0x400000000000000000000000000000000000000000000000000000000000000000000000000000 s (State.holdSealed s u p) := by
  unfold State.holdSealed
  repeat' first
    | with_reducible exact .refl _
    | with_reducible assumption
    | exact rfl
    | with_reducible intro _
    | with_reducible refine .ite ?_ ?_
    | split
    | with_reducible apply Keeps.upd rfl
    | exact Or.inl rfl
    | exact Or.inr rfl

theorem State.toEndpoint_keeps (s : State) (port : Port) (p : Packet) : Keeps 0x4000416000000000000000000000000000000000000000000000000000000000000000000000000000 s (State.toEndpoint s port p) := by
  unfold State.toEndpoint
  repeat' first
    | with_reducible exact .refl _
    | with_reducible assumption
    | (extract_lets +onlyGivenNames y_; refine Keeps.cut (y := y_) ?_ ?_; rotate_left; clear_value y_; intro _; rotate_left; dsimp -iota only [y_]; clear y_)
    | exact rfl
    | with_reducible intro _
    | with_reducible refine .ite ?_ ?_
    | with_reducible refine (State.output_keeps _ _ _).trans ?_ ?_
    | with_reducible refine (State.modEp_keeps _ _ _).trans ?_ ?_
    | split
    | dsimp -iota only

theorem execPacketDeliver_keeps (src : Fin 256) (d : Delivery) (p : Packet) (s : State) {z_ : State} (h_ : execPacketDeliver src d p s = .next z_) : Keeps 0x4000416000000000000000000000000000000000000000000000000000000000000000400001880000 s z_ := by
  unfold execPacketDeliver at h_
  refine act_keeps h_ ?_
  repeat' first
    | with_reducible exact .refl _
    | with_reducible assumption
    | (extract_lets +onlyGivenNames y_; refine Keeps.cut (y := y_) ?_ ?_; rotate_left; clear_value y_; intro _; rotate_left; dsimp -iota only [y_]; clear y_)
    | exact rfl
    | with_reducible intro _
    | with_reducible refine .ite ?_ ?_
    | with_reducible refine (State.toEndpoint_keeps _ _ _).trans ?_ ?_
    | with_reducible refine (State.holdSealed_keeps _ _ _).trans ?_ ?_
    | with_reducible refine (State.consume_keeps _ _ _ _).trans ?_ ?_
    | with_reducible refine (State.emit_keeps _ _).trans ?_ ?_
    | with_reducible refine (State.bump_keeps _ _ _ _ ?_).trans (sub_self _) ?_
    | split
    | dsimp -iota only

theorem execCreditWaitEscape_keeps (out : Link) (vc : Fin 8) (s : State) {z_ : State} (h_ : execCreditWaitEscape out vc s = .next z_) : Keeps 0x4000412000000000000000000000000000000000000000000000000000000000000000000000040000 s z_ := by
  unfold execCreditWaitEscape at h_
  refine act_keeps h_ ?_
  repeat' first
    | with_reducible exact .refl _
    | with_reducible assumption
    | (extract_lets +onlyGivenNames y_; refine Keeps.cut (y := y_) ?_ ?_; rotate_left; clear_value y_; intro _; rotate_left; dsimp -iota only [y_]; clear y_)
    | exact rfl
    | with_reducible intro _
    | with_reducible refine .ite ?_ ?_
    | with_reducible refine (State.serve_keeps _ _ _).trans ?_ ?_
    | with_reducible refine (State.bump_keeps _ _ _ _ ?_).trans (sub_self _) ?_
    | split
    | dsimp -iota only
    | with_reducible apply Keeps.upd rfl
    | exact Or.inl rfl
    | exact Or.inr rfl

theorem execCreditWaitDrop_keeps (out : Link) (vc : Fin 8) (s : State) {z_ : State} (h_ : execCreditWaitDrop out vc s = .next z_) : Keeps 0x4000010000000000000000000000000000000000000000000000000000000000000000000000040000 s z_ := by
  unfold execCreditWaitDrop at h_
  refine act_keeps h_ ?_
  repeat' first
    | with_reducible exact .refl _
    | with_reducible assumption
    | (extract_lets +onlyGivenNames y_; refine Keeps.cut (y := y_) ?_ ?_; rotate_left; clear_value y_; intro _; rotate_left; dsimp -iota only [y_]; clear y_)
    | exact rfl
    | with_reducible intro _
    | with_reducible refine .ite ?_ ?_
    | with_reducible refine (State.truncation_keeps _ _).trans ?_ ?_
    | with_reducible refine (State.emit_keeps _ _).trans ?_ ?_
    | with_reducible refine (State.bump_keeps _ _ _ _ ?_).trans (sub_self _) ?_
    | split
    | dsimp -iota only
    | with_reducible apply Keeps.upd rfl
    | exact Or.inl rfl
    | exact Or.inr rfl

theorem execCreditAuditSend_keeps (l : Link) (s : State) {z_ : State} (h_ : execCreditAuditSend l s = .next z_) : Keeps 0x4000000000000000000000000000000000000000000000000000000000000000000000000000000000 s z_ := by
  unfold execCreditAuditSend at h_
  refine act_keeps h_ ?_
  repeat' first
    | with_reducible exact .refl _
    | with_reducible assumption
    | exact rfl
    | with_reducible intro _
    | with_reducible refine .ite ?_ ?_
    | with_reducible refine (State.emit_keeps _ _).trans ?_ ?_
    | split

theorem execCreditAuditReceive_keeps (l : Link) (free : List Nat) (s : State) {z_ : State} (h_ : execCreditAuditReceive l free s = .next z_) : Keeps 0x4000412000000000000000000000000000000000000000000000000000000000000000000000000000 s z_ := by
  unfold execCreditAuditReceive at h_
  refine act_keeps h_ ?_
  repeat' first
    | with_reducible exact .refl _
    | with_reducible assumption
    | exact rfl
    | with_reducible intro _
    | with_reducible refine .ite ?_ ?_
    | with_reducible refine (State.addCredits_keeps _ _ _ _).trans ?_ ?_
    | with_reducible refine .foldl _ ?_ ?_
    | split

theorem execAckSend_keeps (unit : Fin 256) (chip : Chip) (peer : Fin 256) (ctx : Ctx) (epoch : Fin 256) (s : State) {z_ : State} (h_ : execAckSend unit chip peer ctx epoch s = .next z_) : Keeps 0x4000412000000000000000000000000000000000000000000000000000000000000000000000880000 s z_ := by
  unfold execAckSend at h_
  refine act_keeps h_ ?_
  repeat' first
    | with_reducible exact .refl _
    | with_reducible assumption
    | (extract_lets +onlyGivenNames y_; refine Keeps.cut (y := y_) ?_ ?_; rotate_left; clear_value y_; intro _; rotate_left; dsimp -iota only [y_]; clear y_)
    | exact rfl
    | with_reducible intro _
    | with_reducible refine .ite ?_ ?_
    | with_reducible refine (State.ackStream_keeps _ _ _).trans ?_ ?_
    | split
    | dsimp -iota only

theorem State.replyAcked_keeps (s : State) (unit : Nat) (p : Packet) : Keeps 0x54000000000000000000000000000000000000000000000000000000000000000000000000000 s (State.replyAcked s unit p) := by
  unfold State.replyAcked
  repeat' first
    | with_reducible exact .refl _
    | with_reducible assumption
    | (extract_lets +onlyGivenNames y_; refine Keeps.cut (y := y_) ?_ ?_; rotate_left; clear_value y_; intro _; rotate_left; dsimp -iota only [y_]; clear y_)
    | exact rfl
    | with_reducible intro _
    | with_reducible refine .ite ?_ ?_
    | with_reducible refine (State.setReceived_keeps _ _).trans ?_ ?_
    | with_reducible refine (State.modEp_keeps _ _ _).trans ?_ ?_
    | with_reducible refine .foldl _ ?_ ?_
    | split
    | dsimp -iota only
    | with_reducible apply Keeps.upd rfl
    | exact Or.inl rfl
    | exact Or.inr rfl

theorem execAckReceive_keeps (unit : Fin 256) (p : Packet) (s : State) {z_ : State} (h_ : execAckReceive unit p s = .next z_) : Keeps 0x4000c76000000000000000000000000000000000000000000000000000000000000000000000880000 s z_ := by
  unfold execAckReceive at h_
  refine act_keeps h_ ?_
  repeat' first
    | with_reducible exact .refl _
    | with_reducible assumption
    | (extract_lets +onlyGivenNames y_; refine Keeps.cut (y := y_) ?_ ?_; rotate_left; clear_value y_; intro _; rotate_left; dsimp -iota only [y_]; clear y_)
    | exact rfl
    | with_reducible intro _
    | with_reducible refine .ite ?_ ?_
    | with_reducible refine (State.replyAcked_keeps _ _ _).trans ?_ ?_
    | with_reducible refine (State.tagLanded_keeps _ _).trans ?_ ?_
    | with_reducible refine (State.pump_keeps _).trans ?_ ?_
    | with_reducible refine .foldl _ ?_ ?_
    | split
    | dsimp -iota only
    | with_reducible apply Keeps.upd rfl
    | exact Or.inl rfl
    | exact Or.inr rfl

theorem execResendTimeout_keeps (unit : Fin 256) (chip : Chip) (peer : Fin 256) (ctx : Ctx) (seq : BitVec 32) (s : State) {z_ : State} (h_ : execResendTimeout unit chip peer ctx seq s = .next z_) : Keeps 0x4000412000000000000000000000000000000000000000000000000000000000000000000001880000 s z_ := by
  unfold execResendTimeout at h_
  refine act_keeps h_ ?_
  repeat' first
    | with_reducible exact .refl _
    | with_reducible assumption
    | (extract_lets +onlyGivenNames y_; refine Keeps.cut (y := y_) ?_ ?_; rotate_left; clear_value y_; intro _; rotate_left; dsimp -iota only [y_]; clear y_)
    | exact rfl
    | with_reducible intro _
    | with_reducible refine .ite ?_ ?_
    | with_reducible refine (State.transmit_keeps _ _ _).trans ?_ ?_
    | with_reducible refine (State.bump_keeps _ _ _ _ ?_).trans (sub_self _) ?_
    | split
    | dsimp -iota only
    | with_reducible apply Keeps.upd rfl
    | exact Or.inl rfl
    | exact Or.inr rfl

end Sys2Proof.Machine
end

