-- ==== Sys2Proof/Laws/KeepsEdge.lean ====
section
/-! SUPPORT. Sys2Proof/Laws/KeepsEdge.lean: what each operation of Machine/Edge.lean leaves alone. -/

namespace Sys2Proof.Machine

theorem edgeDropField_reg (o : EdgeDrop) : (edgeDropField o).reg = .EDG_DROPS := by
  unfold edgeDropField
  repeat' first | rfl | split

theorem State.edgeWindows_keeps (s : State) (port : Nat) (p : Packet) : Keeps 0x4000000000000000000000000000000000000000000000000000000000000000000000000000 s (State.edgeWindows s port p) := by
  unfold State.edgeWindows
  repeat' first
    | with_reducible exact .refl _
    | with_reducible assumption
    | (extract_lets +onlyGivenNames y_; refine Keeps.cut (y := y_) ?_ ?_; rotate_left; clear_value y_; intro _; rotate_left; dsimp -iota only [y_]; clear y_)
    | exact rfl
    | with_reducible intro _
    | with_reducible refine .ite ?_ ?_
    | with_reducible refine (State.modEp_keeps _ _ _).trans ?_ ?_
    | split
    | dsimp -iota only

theorem State.edgeSend_keeps (s : State) (port : Nat) (p : Packet) (src : EdgeSource) (dst : Nat × Nat) : Keeps 0x40004120000000000000000000000000000000000000000000000000000000000000000000008c0000 s (State.edgeSend s port p src dst) := by
  unfold State.edgeSend
  repeat' first
    | with_reducible exact .refl _
    | with_reducible assumption
    | (extract_lets +onlyGivenNames y_; refine Keeps.cut (y := y_) ?_ ?_; rotate_left; clear_value y_; intro _; rotate_left; dsimp -iota only [y_]; clear y_)
    | exact rfl
    | with_reducible intro _
    | with_reducible refine .ite ?_ ?_
    | with_reducible refine (State.truncate_keeps _ _ _ _).trans ?_ ?_
    | with_reducible refine (State.switchPacket_keeps _ _ _).trans ?_ ?_
    | with_reducible refine (State.sealArrive_keeps _ _ _).trans ?_ ?_
    | with_reducible refine (State.bump_keeps _ _ _ _ ?_).trans (sub_self _) ?_
    | split
    | dsimp -iota only

theorem State.useClaim_keeps (s : State) (port slice : Nat) (p : Packet) : Keeps 0x10000000000000000000000000000000000000000000000000000000000000000000000000000 s (State.useClaim s port slice p) := by
  unfold State.useClaim
  repeat' first
    | with_reducible exact .refl _
    | with_reducible assumption
    | exact rfl
    | with_reducible intro _
    | with_reducible refine .ite ?_ ?_
    | with_reducible refine (State.when_keeps _ _ ?_).trans (sub_self _) ?_
    | split
    | with_reducible apply Keeps.upd rfl
    | exact Or.inl rfl
    | exact Or.inr rfl

theorem State.ingress_keeps (s : State) (port : Port) (p : Packet) : Keeps 0x40004160000000000000000000000000000000000000000000000000000080000000000000008c0000 s (State.ingress s port p) := by
  unfold State.ingress
  repeat' first
    | with_reducible exact .refl _
    | with_reducible assumption
    | (extract_lets +onlyGivenNames y_; refine Keeps.cut (y := y_) ?_ ?_; rotate_left; clear_value y_; intro _; rotate_left; dsimp -iota only [y_]; clear y_)
    | exact rfl
    | with_reducible intro _
    | with_reducible refine .ite ?_ ?_
    | with_reducible refine (State.useClaim_keeps _ _ _ _).trans ?_ ?_
    | with_reducible refine (State.edgeSend_keeps _ _ _ _ _).trans ?_ ?_
    | with_reducible refine (State.edgeWindows_keeps _ _ _).trans ?_ ?_
    | with_reducible refine (State.emit_keeps _ _).trans ?_ ?_
    | with_reducible refine (State.bump_keeps _ _ _ _ ?_).trans (sub_self _) ?_
    | (rw [edgeDropField_reg]; exact rfl)
    | split
    | dsimp -iota only
    | with_reducible apply Keeps.upd rfl
    | exact Or.inl rfl
    | exact Or.inr rfl

theorem State.freshClaims_keeps (s : State) : Keeps 0x40004160000000000000000000000000000000000000000000000000000080000000000000008c0000 s (State.freshClaims s) := by
  unfold State.freshClaims
  repeat' first
    | with_reducible exact .refl _
    | with_reducible assumption
    | exact rfl
    | with_reducible intro _
    | with_reducible refine .ite ?_ ?_
    | with_reducible refine (State.ingress_keeps _ _ _).trans ?_ ?_
    | with_reducible refine .foldl _ ?_ ?_
    | split
    | with_reducible apply Keeps.upd rfl
    | exact Or.inl rfl
    | exact Or.inr rfl

theorem execEdgeIngress_keeps (port : Port) (p : Packet) (s : State) {z_ : State} (h_ : execEdgeIngress port p s = .next z_) : Keeps 0x40004160000000000000000000000000000000000000000000000000000080000000000000008e0000 s z_ := by
  unfold execEdgeIngress at h_
  refine act_keeps h_ ?_
  repeat' first
    | with_reducible exact .refl _
    | with_reducible assumption
    | exact rfl
    | with_reducible intro _
    | with_reducible refine .ite ?_ ?_
    | with_reducible refine (State.ingress_keeps _ _ _).trans ?_ ?_
    | with_reducible refine (State.freeBuffers_keeps _ _ _ _).trans ?_ ?_
    | with_reducible refine (State.portDrop_keeps _ _).trans ?_ ?_
    | split

end Sys2Proof.Machine
end

