-- ==== Sys2Proof/Laws/KeepsRoute.lean ====
section
/-! SUPPORT. Sys2Proof/Laws/KeepsRoute.lean: what each operation of Machine/Route.lean leaves alone. -/

namespace Sys2Proof.Machine

theorem State.setEdg_keeps {m : Nat} (s : State) (f : Fld) (v : Nat) (h : m.testBit f.reg.code = true) :
    Keeps m s (s.setEdg f v) := Keeps.foldl _ (.refl s) fun t w => State.setFld_keeps t f w v h

theorem execLinkLossReceive_keeps (h : MsgHdr) (chip : Chip) (port : Fin 256) (cause : Fin 2) (s : State) {z_ : State} (h_ : execLinkLossReceive h chip port cause s = .next z_) : Keeps 0x60d3000000000000000000000000000000000000000000000a28000010000000000000001082000002 s z_ := by
  unfold execLinkLossReceive at h_
  refine act_keeps h_ ?_
  repeat' first
    | with_reducible exact .refl _
    | with_reducible assumption
    | exact rfl
    | with_reducible intro _
    | with_reducible refine .ite ?_ ?_
    | with_reducible refine (State.linkLost_keeps _ _ _).trans ?_ ?_
    | with_reducible refine (State.fromAgent_keeps _ _ _ _ ?_ ?_ ?_).trans (sub_self _) ?_
    | with_reducible exact .ident _
    | split

theorem State.writeInactive_keeps (s : State) (b : Bank) : Keeps 0x1000000000000000000000000000000000000000000000000000000000000000000000000200000 s (State.writeInactive s b) := by
  unfold State.writeInactive
  repeat' first
    | with_reducible exact .refl _
    | with_reducible assumption
    | (extract_lets +onlyGivenNames y_; refine Keeps.cut (y := y_) ?_ ?_; rotate_left; clear_value y_; intro _; rotate_left; dsimp -iota only [y_]; clear y_)
    | exact rfl
    | with_reducible intro _
    | with_reducible refine .ite ?_ ?_
    | with_reducible refine (State.setEdg_keeps _ _ _ ?_).trans (sub_self _) ?_
    | split
    | dsimp -iota only
    | with_reducible apply Keeps.upd rfl
    | exact Or.inl rfl
    | exact Or.inr rfl

theorem execTableWriteReceive_keeps (h : MsgHdr) (bank : Bank) (s : State) {z_ : State} (h_ : execTableWriteReceive h bank s = .next z_) : Keeps 0x60d3002000000000000000000000000000000000000000000a28000010000000000000001882200002 s z_ := by
  unfold execTableWriteReceive at h_
  refine act_keeps h_ ?_
  repeat' first
    | with_reducible exact .refl _
    | with_reducible assumption
    | exact rfl
    | with_reducible intro _
    | with_reducible refine .ite ?_ ?_
    | with_reducible refine (State.writeInactive_keeps _ _).trans ?_ ?_
    | with_reducible refine (State.fromManager_keeps _ _ _ _ ?_ ?_ ?_).trans (sub_self _) ?_
    | with_reducible refine (State.sendMgmt_keeps _ _ _).trans ?_ ?_
    | with_reducible exact .ident _
    | split
    | with_reducible apply Keeps.upd rfl
    | exact Or.inl rfl
    | exact Or.inr rfl

theorem execStopReceive_keeps (h : MsgHdr) (slices : List Slice) (wb : Wb) (s : State) {z_ : State} (h_ : execStopReceive h slices wb s = .next z_) : Keeps 0x60d3002000000000000000000000000000000000000000000a28000010000000000000001882600002 s z_ := by
  unfold execStopReceive at h_
  refine act_keeps h_ ?_
  repeat' first
    | with_reducible exact .refl _
    | with_reducible assumption
    | (extract_lets +onlyGivenNames y_; refine Keeps.cut (y := y_) ?_ ?_; rotate_left; clear_value y_; intro _; rotate_left; dsimp -iota only [y_]; clear y_)
    | exact rfl
    | with_reducible intro _
    | with_reducible refine .ite ?_ ?_
    | with_reducible refine (State.setEdg_keeps _ _ _ ?_).trans (sub_self _) ?_
    | with_reducible refine (State.fromManager_keeps _ _ _ _ ?_ ?_ ?_).trans (sub_self _) ?_
    | with_reducible exact .ident _
    | split
    | dsimp -iota only
    | with_reducible apply Keeps.upd rfl
    | exact Or.inl rfl
    | exact Or.inr rfl

theorem State.showInflight_keeps (s : State) : Keeps 0x100000 s (State.showInflight s) := by
  unfold State.showInflight
  repeat' first
    | with_reducible exact .refl _
    | with_reducible assumption
    | exact rfl
    | with_reducible intro _
    | with_reducible refine .ite ?_ ?_
    | with_reducible refine (State.setFld_keeps _ _ _ _ ?_).trans (sub_self _) ?_
    | with_reducible refine .foldl _ ?_ ?_
    | split

theorem execDrainStopBoundary_keeps (s : State) {z_ : State} (h_ : execDrainStopBoundary s = .next z_) : Keeps 0x100000 s z_ := by
  unfold execDrainStopBoundary at h_
  refine act_keeps h_ ?_
  repeat' first
    | with_reducible exact .refl _
    | with_reducible assumption
    | exact rfl
    | with_reducible intro _
    | with_reducible refine .ite ?_ ?_
    | with_reducible refine (State.showInflight_keeps _).trans ?_ ?_
    | split

theorem State.reportZero_keeps (s : State) : Keeps 0x4003000000000000000000000000000000000000000000000000000000000000000000000000000000 s (State.reportZero s) := by
  unfold State.reportZero
  repeat' first
    | with_reducible exact .refl _
    | with_reducible assumption
    | exact rfl
    | with_reducible intro _
    | with_reducible refine .ite ?_ ?_
    | with_reducible refine (State.sendMgmt_keeps _ _ _).trans ?_ ?_
    | split
    | with_reducible apply Keeps.upd rfl
    | exact Or.inl rfl
    | exact Or.inr rfl

theorem execDrainCountZero_keeps (s : State) {z_ : State} (h_ : execDrainCountZero s = .next z_) : Keeps 0x4003000000000000000000000000000000000000000000000000000000000000000000000000100000 s z_ := by
  unfold execDrainCountZero at h_
  refine act_keeps h_ ?_
  repeat' first
    | with_reducible exact .refl _
    | with_reducible assumption
    | exact rfl
    | with_reducible intro _
    | with_reducible refine .ite ?_ ?_
    | with_reducible refine (State.reportZero_keeps _).trans ?_ ?_
    | with_reducible refine (State.showInflight_keeps _).trans ?_ ?_
    | split

theorem execDrainTimeout_keeps (s : State) {z_ : State} (h_ : execDrainTimeout s = .next z_) : Keeps 0x4003010000000000000000000000000000000000000000000000000000000000000000000000140000 s z_ := by
  unfold execDrainTimeout at h_
  refine act_keeps h_ ?_
  repeat' first
    | with_reducible exact .refl _
    | with_reducible assumption
    | (extract_lets +onlyGivenNames y_; refine Keeps.cut (y := y_) ?_ ?_; rotate_left; clear_value y_; intro _; rotate_left; dsimp -iota only [y_]; clear y_)
    | exact rfl
    | with_reducible intro _
    | with_reducible refine .ite ?_ ?_
    | with_reducible refine (State.reportZero_keeps _).trans ?_ ?_
    | with_reducible refine (State.showInflight_keeps _).trans ?_ ?_
    | with_reducible refine (State.bump_keeps _ _ _ _ ?_).trans (sub_self _) ?_
    | with_reducible refine .foldl _ ?_ ?_
    | split
    | dsimp -iota only
    | with_reducible apply Keeps.upd rfl
    | exact Or.inl rfl
    | exact Or.inr rfl

theorem execSwapReceive_keeps (h : MsgHdr) (wb : Wb) (s : State) {z_ : State} (h_ : execSwapReceive h wb s = .next z_) : Keeps 0x60d2002000000000000000000000000000000000000000000a28000010000000000000001882600002 s z_ := by
  unfold execSwapReceive at h_
  refine act_keeps h_ ?_
  repeat' first
    | with_reducible exact .refl _
    | with_reducible assumption
    | exact rfl
    | with_reducible intro _
    | with_reducible refine .ite ?_ ?_
    | with_reducible refine (State.setEdg_keeps _ _ _ ?_).trans (sub_self _) ?_
    | with_reducible refine (State.fromManager_keeps _ _ _ _ ?_ ?_ ?_).trans (sub_self _) ?_
    | with_reducible exact .ident _
    | split

theorem State.endDrain_keeps (s : State) : Keeps 0x4001412000000000000000000000000000000000000000000000000000000000000000000000f80000 s (State.endDrain s) := by
  unfold State.endDrain
  repeat' first
    | with_reducible exact .refl _
    | with_reducible assumption
    | (extract_lets +onlyGivenNames y_; refine Keeps.cut (y := y_) ?_ ?_; rotate_left; clear_value y_; intro _; rotate_left; dsimp -iota only [y_]; clear y_)
    | exact rfl
    | with_reducible intro _
    | with_reducible refine .ite ?_ ?_
    | with_reducible refine (State.showInflight_keeps _).trans ?_ ?_
    | with_reducible refine (State.setEdg_keeps _ _ _ ?_).trans (sub_self _) ?_
    | with_reducible refine (State.pump_keeps _).trans ?_ ?_
    | split
    | dsimp -iota only
    | with_reducible apply Keeps.upd rfl
    | exact Or.inl rfl
    | exact Or.inr rfl

theorem State.activate_keeps (s : State) : Keeps 0x1000000000000000000000000000000000000000000000000000000000000000000000000200000 s (State.activate s) := by
  unfold State.activate
  repeat' first
    | with_reducible exact .refl _
    | with_reducible assumption
    | (extract_lets +onlyGivenNames y_; refine Keeps.cut (y := y_) ?_ ?_; rotate_left; clear_value y_; intro _; rotate_left; dsimp -iota only [y_]; clear y_)
    | exact rfl
    | with_reducible intro _
    | with_reducible refine .ite ?_ ?_
    | with_reducible refine (State.setEdg_keeps _ _ _ ?_).trans (sub_self _) ?_
    | split
    | dsimp -iota only
    | with_reducible apply Keeps.upd rfl
    | exact Or.inl rfl
    | exact Or.inr rfl

theorem execTableAckReceive_keeps (h : MsgHdr) (refused : Option Nat) (s : State) {z_ : State} (h_ : execTableAckReceive h refused s = .next z_) : Keeps 0xe0da000000000000000000000000000000000000000000000a28000010000000000000001082000002 s z_ := by
  unfold execTableAckReceive at h_
  refine act_keeps h_ ?_
  repeat' first
    | with_reducible exact .refl _
    | with_reducible assumption
    | (extract_lets +onlyGivenNames y_; refine Keeps.cut (y := y_) ?_ ?_; rotate_left; clear_value y_; intro _; rotate_left; dsimp -iota only [y_]; clear y_)
    | exact rfl
    | with_reducible intro _
    | with_reducible refine .ite ?_ ?_
    | with_reducible refine (State.atManager_keeps _ _ _ _ ?_ ?_ ?_).trans (sub_self _) ?_
    | with_reducible refine (State.sendMgmt_keeps _ _ _).trans ?_ ?_
    | with_reducible refine (State.fresh_keeps _).trans ?_ ?_
    | with_reducible refine (Keeps.snd (State.fresh_keeps _) ‹_›).trans ?_ ?_
    | with_reducible exact .ident _
    | split
    | dsimp -iota only
    | with_reducible apply Keeps.upd rfl
    | exact Or.inl rfl
    | exact Or.inr rfl

theorem execDrainZeroReceive_keeps (h : MsgHdr) (s : State) {z_ : State} (h_ : execDrainZeroReceive h s = .next z_) : Keeps 0x60da000000000000000000000000000000000000000000000a28000010000000000000001082000002 s z_ := by
  unfold execDrainZeroReceive at h_
  refine act_keeps h_ ?_
  repeat' first
    | with_reducible exact .refl _
    | with_reducible assumption
    | exact rfl
    | with_reducible intro _
    | with_reducible refine .ite ?_ ?_
    | with_reducible refine (State.atManager_keeps _ _ _ _ ?_ ?_ ?_).trans (sub_self _) ?_
    | with_reducible exact .ident _
    | split
    | with_reducible apply Keeps.upd rfl
    | exact Or.inl rfl
    | exact Or.inr rfl

theorem execSwapBroadcast_keeps (s : State) {z_ : State} (h_ : execSwapBroadcast s = .next z_) : Keeps 0x400a000000000000000000000000000000000000000000000000000000000000000000000000000000 s z_ := by
  unfold execSwapBroadcast at h_
  refine act_keeps h_ ?_
  repeat' first
    | with_reducible exact .refl _
    | with_reducible assumption
    | (extract_lets +onlyGivenNames y_; refine Keeps.cut (y := y_) ?_ ?_; rotate_left; clear_value y_; intro _; rotate_left; dsimp -iota only [y_]; clear y_)
    | exact rfl
    | with_reducible intro _
    | with_reducible refine .ite ?_ ?_
    | with_reducible refine (State.sendMgmt_keeps _ _ _).trans ?_ ?_
    | split
    | dsimp -iota only
    | with_reducible apply Keeps.upd rfl
    | exact Or.inl rfl
    | exact Or.inr rfl

end Sys2Proof.Machine
end

