-- ==== Sys2Proof/Laws/KeepsManager.lean ====
section
/-! SUPPORT. Sys2Proof/Laws/KeepsManager.lean: what each operation of Machine/Manager.lean leaves alone. -/

namespace Sys2Proof.Machine

theorem State.takeMap_keeps (s : State) (m : InstMap) : Keeps 0x804000000000000000000000000000000000000000000000000000000000000000000000004000000 s (State.takeMap s m) := by
  unfold State.takeMap
  repeat' first
    | with_reducible exact .refl _
    | with_reducible assumption
    | (extract_lets +onlyGivenNames y_; refine Keeps.cut (y := y_) ?_ ?_; rotate_left; clear_value y_; intro _; rotate_left; dsimp -iota only [y_]; clear y_)
    | exact rfl
    | with_reducible intro _
    | with_reducible refine .ite ?_ ?_
    | with_reducible refine (State.setFld_keeps _ _ _ _ ?_).trans (sub_self _) ?_
    | split
    | dsimp -iota only
    | with_reducible apply Keeps.upd rfl
    | exact Or.inl rfl
    | exact Or.inr rfl

theorem execMapLoad_keeps (r : FwRef) (m : InstMap) (s : State) {z_ : State} (h_ : execMapLoad r m s = .next z_) : Keeps 0x834000000000000000000000000000000000000000000000000000000000000000000000004000000 s z_ := by
  unfold execMapLoad at h_
  refine act_keeps h_ ?_
  repeat' first
    | with_reducible exact .refl _
    | with_reducible assumption
    | exact rfl
    | with_reducible intro _
    | with_reducible refine .ite ?_ ?_
    | with_reducible refine (State.takeMap_keeps _ _).trans ?_ ?_
    | with_reducible refine (State.finishFw_keeps _ _ _ _ _).trans ?_ ?_
    | split

theorem execSetRole_keeps (r : FwRef) (role : Fin 4) (s : State) {z_ : State} (h_ : execSetRole r role s = .next z_) : Keeps 0x30000000000000000000000000000000000000000000000000000000000000000000002002000800 s z_ := by
  unfold execSetRole at h_
  refine act_keeps h_ ?_
  repeat' first
    | with_reducible exact .refl _
    | with_reducible assumption
    | (extract_lets +onlyGivenNames y_; refine Keeps.cut (y := y_) ?_ ?_; rotate_left; clear_value y_; intro _; rotate_left; dsimp -iota only [y_]; clear y_)
    | exact rfl
    | with_reducible intro _
    | with_reducible refine .ite ?_ ?_
    | with_reducible refine (State.finishFw_keeps _ _ _ _ _).trans ?_ ?_
    | with_reducible refine (State.setLinkState_keeps _ _ _).trans ?_ ?_
    | with_reducible refine (State.setFld_keeps _ _ _ _ ?_).trans (sub_self _) ?_
    | split
    | dsimp -iota only

theorem execMgmtRepeat_keeps (seq : Nat) (s : State) {z_ : State} (h_ : execMgmtRepeat seq s = .next z_) : Keeps 0x4002000000000000000000000000000000000000000000000000000000000000000000000000000000 s z_ := by
  unfold execMgmtRepeat at h_
  refine act_keeps h_ ?_
  repeat' first
    | with_reducible exact .refl _
    | with_reducible assumption
    | (extract_lets +onlyGivenNames y_; refine Keeps.cut (y := y_) ?_ ?_; rotate_left; clear_value y_; intro _; rotate_left; dsimp -iota only [y_]; clear y_)
    | exact rfl
    | with_reducible intro _
    | with_reducible refine .ite ?_ ?_
    | with_reducible refine (State.emit_keeps _ _).trans ?_ ?_
    | split
    | dsimp -iota only
    | with_reducible apply Keeps.upd rfl
    | exact Or.inl rfl
    | exact Or.inr rfl

theorem execNbrReportRepeat_keeps (port : Port) (s : State) {z_ : State} (h_ : execNbrReportRepeat port s = .next z_) : Keeps 0x4000002000000000000000000000000000000000000000000000000000000000000000000000000000 s z_ := by
  unfold execNbrReportRepeat at h_
  refine act_keeps h_ ?_
  repeat' first
    | with_reducible exact .refl _
    | with_reducible assumption
    | exact rfl
    | with_reducible intro _
    | with_reducible refine .ite ?_ ?_
    | with_reducible refine (State.repeatReport_keeps _ _).trans ?_ ?_
    | split

theorem State.showNbr_keeps (s : State) : Keeps 0x20000000 s (State.showNbr s) := by
  unfold State.showNbr
  repeat' first
    | with_reducible exact .refl _
    | with_reducible assumption
    | (extract_lets +onlyGivenNames y_; refine Keeps.cut (y := y_) ?_ ?_; rotate_left; clear_value y_; intro _; rotate_left; dsimp -iota only [y_]; clear y_)
    | exact rfl
    | with_reducible intro _
    | with_reducible refine .ite ?_ ?_
    | with_reducible refine (State.setFld_keeps _ _ _ _ ?_).trans (sub_self _) ?_
    | split
    | dsimp -iota only

theorem State.putReport_keeps (s : State) (q : Report) : Keeps 0x8000000000000000000000000000000000000000000000000000000000000000000000000000000 s (State.putReport s q) := by
  unfold State.putReport
  repeat' first
    | with_reducible exact .refl _
    | with_reducible assumption
    | exact rfl
    | with_reducible intro _
    | with_reducible refine .ite ?_ ?_
    | split
    | with_reducible apply Keeps.upd rfl
    | exact Or.inl rfl
    | exact Or.inr rfl

theorem State.needRecompute_keeps (s : State) (refs : List FwRef) : Keeps 0x8000000000000000000000000000000000000000000000000000000000000000000000000000000 s (State.needRecompute s refs) := by
  unfold State.needRecompute
  repeat' first
    | with_reducible exact .refl _
    | with_reducible assumption
    | exact rfl
    | with_reducible intro _
    | with_reducible refine .ite ?_ ?_
    | split
    | with_reducible apply Keeps.upd rfl
    | exact Or.inl rfl
    | exact Or.inr rfl

theorem State.judgeReport_keeps (s : State) (chip port : Nat) (state : Nat) (id : Ident) : Keeps 0x20c8000000000000000000000000000000000000000000000a28000010000000000000000020000000 s (State.judgeReport s chip port state id) := by
  unfold State.judgeReport
  repeat' first
    | with_reducible exact .refl _
    | with_reducible assumption
    | (extract_lets +onlyGivenNames y_; refine Keeps.cut (y := y_) ?_ ?_; rotate_left; clear_value y_; intro _; rotate_left; dsimp -iota only [y_]; clear y_)
    | exact rfl
    | with_reducible intro _
    | with_reducible refine .ite ?_ ?_
    | with_reducible refine (State.needRecompute_keeps _ _).trans ?_ ?_
    | with_reducible refine (State.putReport_keeps _ _).trans ?_ ?_
    | with_reducible refine (State.showNbr_keeps _).trans ?_ ?_
    | with_reducible refine (State.event_keeps _ _ _).trans ?_ ?_
    | with_reducible refine (State.sillage_keeps _ _ _ _ _).trans ?_ ?_
    | split
    | dsimp -iota only

theorem State.sendVerdict_keeps (s : State) (chip port : Nat) : Keeps 0x4002000000000000000000000000000000000000000000000000000000000000000000000000000000 s (State.sendVerdict s chip port) := by
  unfold State.sendVerdict
  repeat' first
    | with_reducible exact .refl _
    | with_reducible assumption
    | (extract_lets +onlyGivenNames y_; refine Keeps.cut (y := y_) ?_ ?_; rotate_left; clear_value y_; intro _; rotate_left; dsimp -iota only [y_]; clear y_)
    | exact rfl
    | with_reducible intro _
    | with_reducible refine .ite ?_ ?_
    | with_reducible refine (State.sendMgmt_keeps _ _ _).trans ?_ ?_
    | split
    | dsimp -iota only

theorem State.giveVerdict_keeps (s : State) (chip port : Nat) (state : Nat) (id : Ident) : Keeps 0x60ca000000000000000000000000000000000000000000000a28000010000000000000000020000000 s (State.giveVerdict s chip port state id) := by
  unfold State.giveVerdict
  repeat' first
    | with_reducible exact .refl _
    | with_reducible assumption
    | exact rfl
    | with_reducible intro _
    | with_reducible refine .ite ?_ ?_
    | with_reducible refine (State.sendVerdict_keeps _ _ _).trans ?_ ?_
    | with_reducible refine (State.judgeReport_keeps _ _ _ _ _).trans ?_ ?_
    | split

theorem execNbrReportReceive_keeps (h : MsgHdr) (port : Port) (state : Fin 16) (id : Ident) (s : State) {z_ : State} (h_ : execNbrReportReceive h port state id s = .next z_) : Keeps 0x60da000000000000000000000000000000000000000000000a280000100000000000000010a2000002 s z_ := by
  unfold execNbrReportReceive at h_
  refine act_keeps h_ ?_
  repeat' first
    | with_reducible exact .refl _
    | with_reducible assumption
    | (extract_lets +onlyGivenNames y_; refine Keeps.cut (y := y_) ?_ ?_; rotate_left; clear_value y_; intro _; rotate_left; dsimp -iota only [y_]; clear y_)
    | exact rfl
    | with_reducible intro _
    | with_reducible refine .ite ?_ ?_
    | with_reducible refine (State.sendVerdict_keeps _ _ _).trans ?_ ?_
    | with_reducible refine (State.judgeReport_keeps _ _ _ _ _).trans ?_ ?_
    | with_reducible refine (State.atManager_keeps _ _ _ _ ?_ ?_ ?_).trans (sub_self _) ?_
    | with_reducible refine (State.event_keeps _ _ _).trans ?_ ?_
    | with_reducible exact .ident _
    | split
    | dsimp -iota only

theorem execNbrVerdictReceive_keeps (h : MsgHdr) (port : Port) (isMatch : Bool) (s : State) {z_ : State} (h_ : execNbrVerdictReceive h port isMatch s = .next z_) : Keeps 0x60f3002000000000000000000000000000000000000000000a28001010000000000000003882008802 s z_ := by
  unfold execNbrVerdictReceive at h_
  refine act_keeps h_ ?_
  repeat' first
    | with_reducible exact .refl _
    | with_reducible assumption
    | (extract_lets +onlyGivenNames y_; refine Keeps.cut (y := y_) ?_ ?_; rotate_left; clear_value y_; intro _; rotate_left; dsimp -iota only [y_]; clear y_)
    | exact rfl
    | with_reducible intro _
    | with_reducible refine .ite ?_ ?_
    | with_reducible refine (State.identFrom4_keeps _ _ _).trans ?_ ?_
    | with_reducible refine (State.quarantine_keeps _ _ _).trans ?_ ?_
    | with_reducible refine (State.fromManager_keeps _ _ _ _ ?_ ?_ ?_).trans (sub_self _) ?_
    | with_reducible refine (State.unclean_keeps _).trans ?_ ?_
    | with_reducible refine (State.modPort_keeps _ _ _).trans ?_ ?_
    | with_reducible exact .ident _
    | split
    | dsimp -iota only

theorem State.judgeAll_keeps (s : State) : Keeps 0x60ca000000000000000000000000000000000000000000000a28000010000000000000000020000000 s (State.judgeAll s) := by
  unfold State.judgeAll
  repeat' first
    | with_reducible exact .refl _
    | with_reducible assumption
    | exact rfl
    | with_reducible intro _
    | with_reducible refine .ite ?_ ?_
    | with_reducible refine (State.giveVerdict_keeps _ _ _ _ _).trans ?_ ?_
    | with_reducible refine .foldl _ ?_ ?_
    | split

theorem execAdoptNeighbour_keeps (r : FwRef) (m : InstMap) (s : State) {z_ : State} (h_ : execAdoptNeighbour r m s = .next z_) : Keeps 0x68fe000000000000000000000000000000000000000000000a28000010000000000000000024000000 s z_ := by
  unfold execAdoptNeighbour at h_
  refine act_keeps h_ ?_
  repeat' first
    | with_reducible exact .refl _
    | with_reducible assumption
    | (extract_lets +onlyGivenNames y_; refine Keeps.cut (y := y_) ?_ ?_; rotate_left; clear_value y_; intro _; rotate_left; dsimp -iota only [y_]; clear y_)
    | exact rfl
    | with_reducible intro _
    | with_reducible refine .ite ?_ ?_
    | with_reducible refine (State.judgeAll_keeps _).trans ?_ ?_
    | with_reducible refine (State.takeMap_keeps _ _).trans ?_ ?_
    | with_reducible refine (State.mgrCommand_keeps _ _ _ ?_ ?_).trans (sub_self _) ?_
    | with_reducible refine (State.finishFw_keeps _ _ _ _ _).trans ?_ ?_
    | with_reducible refine (State.sendMgmt_keeps _ _ _).trans ?_ ?_
    | split
    | dsimp -iota only

theorem State.applyModes_keeps (s : State) (m : InstMap) : Keeps 0x60d3412000000000000000000000000000000000000000000a2800401000000000000000328001fc00 s (State.applyModes s m) := by
  unfold State.applyModes
  repeat' first
    | with_reducible exact .refl _
    | with_reducible assumption
    | exact rfl
    | with_reducible intro _
    | with_reducible refine .ite ?_ ?_
    | with_reducible refine (State.portReset_keeps _ _).trans ?_ ?_
    | with_reducible refine (State.setFld_keeps _ _ _ _ ?_).trans (sub_self _) ?_
    | with_reducible refine .foldl _ ?_ ?_
    | split

theorem execMapUpdateReceive_keeps (h : MsgHdr) (piece pieces : Nat) (m : InstMap) (s : State) {z_ : State} (h_ : execMapUpdateReceive h piece pieces m s = .next z_) : Keeps 0x68d7412000000000000000000000000000000000000000000a28004010000000000000003a8601fc02 s z_ := by
  unfold execMapUpdateReceive at h_
  refine act_keeps h_ ?_
  repeat' first
    | with_reducible exact .refl _
    | with_reducible assumption
    | (extract_lets +onlyGivenNames y_; refine Keeps.cut (y := y_) ?_ ?_; rotate_left; clear_value y_; intro _; rotate_left; dsimp -iota only [y_]; clear y_)
    | exact rfl
    | with_reducible intro _
    | with_reducible refine .ite ?_ ?_
    | with_reducible refine (State.applyModes_keeps _ _).trans ?_ ?_
    | with_reducible refine (State.takeMap_keeps _ _).trans ?_ ?_
    | with_reducible refine (State.fromManager_keeps _ _ _ _ ?_ ?_ ?_).trans (sub_self _) ?_
    | with_reducible exact .ident _
    | split
    | dsimp -iota only
    | with_reducible apply Keeps.upd rfl
    | exact Or.inl rfl
    | exact Or.inr rfl

theorem State.sendStatus_keeps (s : State) : Keeps 0x4002000000000000000000000000000000000000000000000000000000000000000000000000000000 s (State.sendStatus s) := by
  unfold State.sendStatus
  repeat' first
    | with_reducible exact .refl _
    | with_reducible assumption
    | exact rfl
    | with_reducible intro _
    | with_reducible refine .ite ?_ ?_
    | with_reducible refine (State.sendMgmt_keeps _ _ _).trans ?_ ?_
    | split

theorem execAgentStatusSend_keeps (s : State) {z_ : State} (h_ : execAgentStatusSend s = .next z_) : Keeps 0x4002000000000000000000000000000000000000000000000000000000000000000000000000000000 s z_ := by
  unfold execAgentStatusSend at h_
  refine act_keeps h_ ?_
  repeat' first
    | with_reducible exact .refl _
    | with_reducible assumption
    | exact rfl
    | with_reducible intro _
    | with_reducible refine .ite ?_ ?_
    | with_reducible refine (State.sendStatus_keeps _).trans ?_ ?_
    | split

theorem State.failure_keeps {m : Nat} (s : State) (counter : Fld) (evt : Nat) (args : List (Nat × Nat))
    (h : m.testBit counter.reg.code = true) (hm : sub 0x2048000000000000000000000000000000000000000000000a28000000000000000000000000000000 m = true) : Keeps m s (s.failure counter evt args) := by
  unfold State.failure
  refine Keeps.trans (s := (s.bump counter).sillage 0x04 0x02 1 []) (a := m) ?_ (sub_self _) ?_
  · apply Keeps.upd rfl (.refl _) <;> first | exact rfl | exact Or.inr rfl | exact Or.inl (sub_testBit hm rfl)
  · exact (State.sillage_keeps _ _ _ _ _).trans (sub_left hm rfl) (State.bump_keeps _ _ _ _ h)

theorem State.raiseFailures_keeps (s : State) : Keeps 0x88200000000000000000000000000000000000000000000000000010000000002000000040000000 s (State.raiseFailures s) := by
  unfold State.raiseFailures
  repeat' first
    | with_reducible exact .refl _
    | with_reducible assumption
    | (extract_lets +onlyGivenNames y_; refine Keeps.cut (y := y_) ?_ ?_; rotate_left; clear_value y_; intro _; rotate_left; dsimp -iota only [y_]; clear y_)
    | exact rfl
    | with_reducible intro _
    | with_reducible refine .ite ?_ ?_
    | with_reducible refine (State.degradeIf_keeps _ _).trans ?_ ?_
    | with_reducible refine (State.event_keeps _ _ _).trans ?_ ?_
    | with_reducible refine .foldl _ ?_ ?_
    | split
    | dsimp -iota only
    | with_reducible apply Keeps.upd rfl
    | exact Or.inl rfl
    | exact Or.inr rfl

theorem State.switchFailed_keeps (s : State) (chip : Nat) : Keeps 0x2048000000000000000000000000000000000000000000000a28000000000000000000000040000000 s (State.switchFailed s chip) := by
  unfold State.switchFailed
  repeat' first
    | with_reducible exact .refl _
    | with_reducible assumption
    | (extract_lets +onlyGivenNames y_; refine Keeps.cut (y := y_) ?_ ?_; rotate_left; clear_value y_; intro _; rotate_left; dsimp -iota only [y_]; clear y_)
    | exact rfl
    | with_reducible intro _
    | with_reducible refine .ite ?_ ?_
    | with_reducible refine (State.failure_keeps _ _ _ _ ?_ ?_).trans (sub_self _) ?_
    | with_reducible refine (State.needRecompute_keeps _ _).trans ?_ ?_
    | split
    | dsimp -iota only
    | with_reducible apply Keeps.upd rfl
    | exact Or.inl rfl
    | exact Or.inr rfl

theorem State.linkFailed_keeps (s : State) (m : InstMap) (chip port cause : Nat) : Keeps 0x20c8200000000000000000000000000000000000000000000a28000010000000002000000060000000 s (State.linkFailed s m chip port cause) := by
  unfold State.linkFailed
  repeat' first
    | with_reducible exact .refl _
    | with_reducible assumption
    | (extract_lets +onlyGivenNames y_; refine Keeps.cut (y := y_) ?_ ?_; rotate_left; clear_value y_; intro _; rotate_left; dsimp -iota only [y_]; clear y_)
    | exact rfl
    | with_reducible intro _
    | with_reducible refine .ite ?_ ?_
    | with_reducible refine (State.switchFailed_keeps _ _).trans ?_ ?_
    | with_reducible refine (State.raiseFailures_keeps _).trans ?_ ?_
    | with_reducible refine (State.failure_keeps _ _ _ _ ?_ ?_).trans (sub_self _) ?_
    | with_reducible refine (State.needRecompute_keeps _ _).trans ?_ ?_
    | with_reducible refine (State.showNbr_keeps _).trans ?_ ?_
    | split
    | dsimp -iota only
    | with_reducible apply Keeps.upd rfl
    | exact Or.inl rfl
    | exact Or.inr rfl

theorem execFaultReceive_keeps (h : MsgHdr) (f : FaultMsg) (s : State) {z_ : State} (h_ : execFaultReceive h f s = .next z_) : Keeps 0x60da200000000000000000000000000000000000000000000a280000100000000020000010e2000002 s z_ := by
  unfold execFaultReceive at h_
  refine act_keeps h_ ?_
  repeat' first
    | with_reducible exact .refl _
    | with_reducible assumption
    | exact rfl
    | with_reducible intro _
    | with_reducible refine .ite ?_ ?_
    | with_reducible refine (State.linkFailed_keeps _ _ _ _ _).trans ?_ ?_
    | with_reducible refine (State.raiseFailures_keeps _).trans ?_ ?_
    | with_reducible refine (State.failure_keeps _ _ _ _ ?_ ?_).trans (sub_self _) ?_
    | with_reducible refine (State.degradeIf_keeps _ _).trans ?_ ?_
    | with_reducible refine (State.atManager_keeps _ _ _ _ ?_ ?_ ?_).trans (sub_self _) ?_
    | with_reducible refine (State.sillage_keeps _ _ _ _ _).trans ?_ ?_
    | with_reducible exact .ident _
    | split

theorem execSwitchSilent_keeps (chip : Chip) (s : State) {z_ : State} (h_ : execSwitchSilent chip s = .next z_) : Keeps 0x2048000000000000000000000000000000000000000000000a28000000000000000000000040000000 s z_ := by
  unfold execSwitchSilent at h_
  refine act_keeps h_ ?_
  repeat' first
    | with_reducible exact .refl _
    | with_reducible assumption
    | exact rfl
    | with_reducible intro _
    | with_reducible refine .ite ?_ ?_
    | with_reducible refine (State.switchFailed_keeps _ _).trans ?_ ?_
    | split

theorem State.reconcilePorts_keeps (s : State) (c : Nat) (ports : List (Nat × Nat)) : Keeps 0x20c8200000000000000000000000000000000000000000000a28000010000000002000000060000000 s (State.reconcilePorts s c ports) := by
  unfold State.reconcilePorts
  repeat' first
    | with_reducible exact .refl _
    | with_reducible assumption
    | (extract_lets +onlyGivenNames y_; refine Keeps.cut (y := y_) ?_ ?_; rotate_left; clear_value y_; intro _; rotate_left; dsimp -iota only [y_]; clear y_)
    | exact rfl
    | with_reducible intro _
    | with_reducible refine .ite ?_ ?_
    | with_reducible refine (State.linkFailed_keeps _ _ _ _ _).trans ?_ ?_
    | with_reducible refine .foldl _ ?_ ?_
    | split
    | dsimp -iota only
    | with_reducible apply Keeps.upd rfl
    | exact Or.inl rfl
    | exact Or.inr rfl

theorem State.newStrangers_keeps (s : State) (c : Nat) (ports : List (Nat × Nat)) : Keeps 0x80000000000000000000000000000000000000000000000000000010000000000000000000000000 s (State.newStrangers s c ports) := by
  unfold State.newStrangers
  repeat' first
    | with_reducible exact .refl _
    | with_reducible assumption
    | (extract_lets +onlyGivenNames y_; refine Keeps.cut (y := y_) ?_ ?_; rotate_left; clear_value y_; intro _; rotate_left; dsimp -iota only [y_]; clear y_)
    | exact rfl
    | with_reducible intro _
    | with_reducible refine .ite ?_ ?_
    | with_reducible refine (State.event_keeps _ _ _).trans ?_ ?_
    | with_reducible refine .foldl _ ?_ ?_
    | split
    | dsimp -iota only

theorem execAgentStatusReceive_keeps (h : MsgHdr) (version mapSeq : Nat) (ports : List (Nat × Nat)) (s : State) {z_ : State} (h_ : execAgentStatusReceive h version mapSeq ports s = .next z_) : Keeps 0x60da200000000000000000000000000000000000000000000a280000100000000020000010e2000002 s z_ := by
  unfold execAgentStatusReceive at h_
  refine act_keeps h_ ?_
  repeat' first
    | with_reducible exact .refl _
    | with_reducible assumption
    | (extract_lets +onlyGivenNames y_; refine Keeps.cut (y := y_) ?_ ?_; rotate_left; clear_value y_; intro _; rotate_left; dsimp -iota only [y_]; clear y_)
    | exact rfl
    | with_reducible intro _
    | with_reducible refine .ite ?_ ?_
    | with_reducible refine (State.newStrangers_keeps _ _ _).trans ?_ ?_
    | with_reducible refine (State.reconcilePorts_keeps _ _ _).trans ?_ ?_
    | with_reducible refine (State.needRecompute_keeps _ _).trans ?_ ?_
    | with_reducible refine (State.showNbr_keeps _).trans ?_ ?_
    | with_reducible refine (State.atManager_keeps _ _ _ _ ?_ ?_ ?_).trans (sub_self _) ?_
    | with_reducible refine (State.sendMgmt_keeps _ _ _).trans ?_ ?_
    | with_reducible exact .ident _
    | split
    | dsimp -iota only
    | with_reducible apply Keeps.upd rfl
    | exact Or.inl rfl
    | exact Or.inr rfl

theorem State.finishRoutes_keeps (s : State) (refs : List FwRef) : Keeps 0x30000000000000000000000000000000000000000000000000000000000000000000000000000000 s (State.finishRoutes s refs) := by
  unfold State.finishRoutes
  repeat' first
    | with_reducible exact .refl _
    | with_reducible assumption
    | exact rfl
    | with_reducible intro _
    | with_reducible refine .ite ?_ ?_
    | with_reducible refine (State.finishFw_keeps _ _ _ _ _).trans ?_ ?_
    | with_reducible refine .foldl _ ?_ ?_
    | split

theorem execRouteRecomputeDone_keeps (banks : List (Chip × Bank)) (tree : List (Chip × TreeEntry)) (time : Nat) (s : State) {z_ : State} (h_ : execRouteRecomputeDone banks tree time s = .next z_) : Keeps 0x40ba200000000000000000000000000000000000000000000000000010000000002000000048000000 s z_ := by
  unfold execRouteRecomputeDone at h_
  refine act_keeps h_ ?_
  repeat' first
    | with_reducible exact .refl _
    | with_reducible assumption
    | (extract_lets +onlyGivenNames y_; refine Keeps.cut (y := y_) ?_ ?_; rotate_left; clear_value y_; intro _; rotate_left; dsimp -iota only [y_]; clear y_)
    | exact rfl
    | with_reducible intro _
    | with_reducible refine .ite ?_ ?_
    | with_reducible refine (State.finishRoutes_keeps _ _).trans ?_ ?_
    | with_reducible refine (State.raiseFailures_keeps _).trans ?_ ?_
    | with_reducible refine (State.askMgmt_keeps _ _ _).trans ?_ ?_
    | with_reducible refine (State.sendMgmt_keeps _ _ _).trans ?_ ?_
    | with_reducible refine (State.setFld_keeps _ _ _ _ ?_).trans (sub_self _) ?_
    | with_reducible refine .foldl _ ?_ ?_
    | split
    | dsimp -iota only
    | with_reducible apply Keeps.upd rfl
    | exact Or.inl rfl
    | exact Or.inr rfl

theorem State.releaseHeld_keeps (s : State) : Keeps 0x40004160000000000000000000000000000000000000000000000000000080000000000000008c0000 s (State.releaseHeld s) := by
  unfold State.releaseHeld
  repeat' first
    | with_reducible exact .refl _
    | with_reducible assumption
    | exact rfl
    | with_reducible intro _
    | with_reducible refine .ite ?_ ?_
    | with_reducible refine (State.ingress_keeps _ _ _).trans ?_ ?_
    | with_reducible refine .foldl _ ?_ ?_
    | split
    | with_reducible apply Keeps.upd rfl
    | exact Or.inl rfl
    | exact Or.inr rfl

theorem State.mgrSwapped_keeps (s : State) : Keeps 0xb8200000000000000000000000000000000000000000000000000010000000002000000048000000 s (State.mgrSwapped s) := by
  unfold State.mgrSwapped
  repeat' first
    | with_reducible exact .refl _
    | with_reducible assumption
    | (extract_lets +onlyGivenNames y_; refine Keeps.cut (y := y_) ?_ ?_; rotate_left; clear_value y_; intro _; rotate_left; dsimp -iota only [y_]; clear y_)
    | exact rfl
    | with_reducible intro _
    | with_reducible refine .ite ?_ ?_
    | with_reducible refine (State.finishRoutes_keeps _ _).trans ?_ ?_
    | with_reducible refine (State.raiseFailures_keeps _).trans ?_ ?_
    | with_reducible refine (State.event_keeps _ _ _).trans ?_ ?_
    | with_reducible refine (State.setFld_keeps _ _ _ _ ?_).trans (sub_self _) ?_
    | split
    | dsimp -iota only
    | with_reducible apply Keeps.upd rfl
    | exact Or.inl rfl
    | exact Or.inr rfl

theorem execSwapApply_keeps (s : State) {z_ : State} (h_ : execSwapApply s = .next z_) : Keeps 0x40b9616000000000000000000000000000000000000000000000000010008000002000000048fc0000 s z_ := by
  unfold execSwapApply at h_
  refine act_keeps h_ ?_
  repeat' first
    | with_reducible exact .refl _
    | with_reducible assumption
    | exact rfl
    | with_reducible intro _
    | with_reducible refine .ite ?_ ?_
    | with_reducible refine (State.mgrSwapped_keeps _).trans ?_ ?_
    | with_reducible refine (State.releaseHeld_keeps _).trans ?_ ?_
    | with_reducible refine (State.activate_keeps _).trans ?_ ?_
    | with_reducible refine (State.endDrain_keeps _).trans ?_ ?_
    | split

theorem execSwapMissed_keeps (s : State) {z_ : State} (h_ : execSwapMissed s = .next z_) : Keeps 0x6049416000000000000000000000000000000000000000000a28000000008000000000000000fc0000 s z_ := by
  unfold execSwapMissed at h_
  refine act_keeps h_ ?_
  repeat' first
    | with_reducible exact .refl _
    | with_reducible assumption
    | (extract_lets +onlyGivenNames y_; refine Keeps.cut (y := y_) ?_ ?_; rotate_left; clear_value y_; intro _; rotate_left; dsimp -iota only [y_]; clear y_)
    | exact rfl
    | with_reducible intro _
    | with_reducible refine .ite ?_ ?_
    | with_reducible refine (State.releaseHeld_keeps _).trans ?_ ?_
    | with_reducible refine (State.needRecompute_keeps _ _).trans ?_ ?_
    | with_reducible refine (State.endDrain_keeps _).trans ?_ ?_
    | with_reducible refine (State.sillage_keeps _ _ _ _ _).trans ?_ ?_
    | split
    | dsimp -iota only
    | with_reducible apply Keeps.upd rfl
    | exact Or.inl rfl
    | exact Or.inr rfl

theorem State.putSlice_keeps (s : State) (r : SliceRec) : Keeps 0x8000000000000000000000000000000000000000000000000000000000000000000000000000000 s (State.putSlice s r) := by
  unfold State.putSlice
  repeat' first
    | with_reducible exact .refl _
    | with_reducible assumption
    | exact rfl
    | with_reducible intro _
    | with_reducible refine .ite ?_ ?_
    | split
    | with_reducible apply Keeps.upd rfl
    | exact Or.inl rfl
    | exact Or.inr rfl

theorem State.sendSlice_keeps (s : State) (r : SliceRec) : Keeps 0x4002000000000000000000000000000000000000000000000000000000000000000000000000000000 s (State.sendSlice s r) := by
  unfold State.sendSlice
  repeat' first
    | with_reducible exact .refl _
    | with_reducible assumption
    | (extract_lets +onlyGivenNames y_; refine Keeps.cut (y := y_) ?_ ?_; rotate_left; clear_value y_; intro _; rotate_left; dsimp -iota only [y_]; clear y_)
    | exact rfl
    | with_reducible intro _
    | with_reducible refine .ite ?_ ?_
    | with_reducible refine (State.sendMgmt_keeps _ _ _).trans ?_ ?_
    | with_reducible refine .foldl _ ?_ ?_
    | split
    | dsimp -iota only

theorem execSliceCreate_keeps (r : FwRef) (slice flags : Fin 65536) (members : List Member) (s : State) {z_ : State} (h_ : execSliceCreate r slice flags members s = .next z_) : Keeps 0x403a000000000000000000000000000000000000000000000000000000000000000000000000000000 s z_ := by
  unfold execSliceCreate at h_
  refine act_keeps h_ ?_
  repeat' first
    | with_reducible exact .refl _
    | with_reducible assumption
    | (extract_lets +onlyGivenNames y_; refine Keeps.cut (y := y_) ?_ ?_; rotate_left; clear_value y_; intro _; rotate_left; dsimp -iota only [y_]; clear y_)
    | exact rfl
    | with_reducible intro _
    | with_reducible refine .ite ?_ ?_
    | with_reducible refine (State.sendSlice_keeps _ _).trans ?_ ?_
    | with_reducible refine (State.putSlice_keeps _ _).trans ?_ ?_
    | with_reducible refine (State.mgrCommand_keeps _ _ _ ?_ ?_).trans (sub_self _) ?_
    | with_reducible refine (State.finishFw_keeps _ _ _ _ _).trans ?_ ?_
    | split
    | dsimp -iota only

theorem execSliceMembers_keeps (r : FwRef) (slice flags : Fin 65536) (members : List Member) (ran : Bool) (s : State) {z_ : State} (h_ : execSliceMembers r slice flags members ran s = .next z_) : Keeps 0x403a000000000000000000000000000000000000000000000000000000000000000000000000000000 s z_ := by
  unfold execSliceMembers at h_
  refine act_keeps h_ ?_
  repeat' first
    | with_reducible exact .refl _
    | with_reducible assumption
    | (extract_lets +onlyGivenNames y_; refine Keeps.cut (y := y_) ?_ ?_; rotate_left; clear_value y_; intro _; rotate_left; dsimp -iota only [y_]; clear y_)
    | exact rfl
    | with_reducible intro _
    | with_reducible refine .ite ?_ ?_
    | with_reducible refine (State.sendSlice_keeps _ _).trans ?_ ?_
    | with_reducible refine (State.putSlice_keeps _ _).trans ?_ ?_
    | with_reducible refine (State.mgrCommand_keeps _ _ _ ?_ ?_).trans (sub_self _) ?_
    | with_reducible refine (State.finishFw_keeps _ _ _ _ _).trans ?_ ?_
    | split
    | dsimp -iota only

theorem execSliceQuiesce_keeps (r : FwRef) (slice ahead : Fin 1024) (s : State) {z_ : State} (h_ : execSliceQuiesce r slice ahead s = .next z_) : Keeps 0x403a000000000000000000000000000000000000000000000000000000000000000000000000000000 s z_ := by
  unfold execSliceQuiesce at h_
  refine act_keeps h_ ?_
  repeat' first
    | with_reducible exact .refl _
    | with_reducible assumption
    | (extract_lets +onlyGivenNames y_; refine Keeps.cut (y := y_) ?_ ?_; rotate_left; clear_value y_; intro _; rotate_left; dsimp -iota only [y_]; clear y_)
    | exact rfl
    | with_reducible intro _
    | with_reducible refine .ite ?_ ?_
    | with_reducible refine (State.sendSlice_keeps _ _).trans ?_ ?_
    | with_reducible refine (State.putSlice_keeps _ _).trans ?_ ?_
    | with_reducible refine (State.mgrCommand_keeps _ _ _ ?_ ?_).trans (sub_self _) ?_
    | with_reducible refine (State.finishFw_keeps _ _ _ _ _).trans ?_ ?_
    | split
    | dsimp -iota only

theorem execSliceResume_keeps (r : FwRef) (slice ahead : Fin 1024) (s : State) {z_ : State} (h_ : execSliceResume r slice ahead s = .next z_) : Keeps 0x403a000000000000000000000000000000000000000000000000000000000000000000000000000000 s z_ := by
  unfold execSliceResume at h_
  refine act_keeps h_ ?_
  repeat' first
    | with_reducible exact .refl _
    | with_reducible assumption
    | (extract_lets +onlyGivenNames y_; refine Keeps.cut (y := y_) ?_ ?_; rotate_left; clear_value y_; intro _; rotate_left; dsimp -iota only [y_]; clear y_)
    | exact rfl
    | with_reducible intro _
    | with_reducible refine .ite ?_ ?_
    | with_reducible refine (State.sendSlice_keeps _ _).trans ?_ ?_
    | with_reducible refine (State.putSlice_keeps _ _).trans ?_ ?_
    | with_reducible refine (State.mgrCommand_keeps _ _ _ ?_ ?_).trans (sub_self _) ?_
    | with_reducible refine (State.finishFw_keeps _ _ _ _ _).trans ?_ ?_
    | split
    | dsimp -iota only

theorem execSliceQuiesced_keeps (slice : Slice) (s : State) {z_ : State} (h_ : execSliceQuiesced slice s = .next z_) : Keeps 0x38000000000000000000000000000000000000000000000000000000000000000000000000000000 s z_ := by
  unfold execSliceQuiesced at h_
  refine act_keeps h_ ?_
  repeat' first
    | with_reducible exact .refl _
    | with_reducible assumption
    | (extract_lets +onlyGivenNames y_; refine Keeps.cut (y := y_) ?_ ?_; rotate_left; clear_value y_; intro _; rotate_left; dsimp -iota only [y_]; clear y_)
    | exact rfl
    | with_reducible intro _
    | with_reducible refine .ite ?_ ?_
    | with_reducible refine (State.putSlice_keeps _ _).trans ?_ ?_
    | with_reducible refine (State.finishFw_keeps _ _ _ _ _).trans ?_ ?_
    | split
    | dsimp -iota only

theorem execQuiesceTimeout_keeps (slice : Slice) (s : State) {z_ : State} (h_ : execQuiesceTimeout slice s = .next z_) : Keeps 0x38000000000000000000000000000000000000000000000000000000000000000000000000000000 s z_ := by
  unfold execQuiesceTimeout at h_
  refine act_keeps h_ ?_
  repeat' first
    | with_reducible exact .refl _
    | with_reducible assumption
    | (extract_lets +onlyGivenNames y_; refine Keeps.cut (y := y_) ?_ ?_; rotate_left; clear_value y_; intro _; rotate_left; dsimp -iota only [y_]; clear y_)
    | exact rfl
    | with_reducible intro _
    | with_reducible refine .ite ?_ ?_
    | with_reducible refine (State.putSlice_keeps _ _).trans ?_ ?_
    | with_reducible refine (State.finishFw_keeps _ _ _ _ _).trans ?_ ?_
    | split
    | dsimp -iota only

theorem State.forgetSlice_keeps (s : State) (slice : Nat) : Keeps 0x2400000000000000000000000000000000000000000000000000000004100000000000000000000 s (State.forgetSlice s slice) := by
  unfold State.forgetSlice
  repeat' first
    | with_reducible exact .refl _
    | with_reducible assumption
    | (extract_lets +onlyGivenNames y_; refine Keeps.cut (y := y_) ?_ ?_; rotate_left; clear_value y_; intro _; rotate_left; dsimp -iota only [y_]; clear y_)
    | exact rfl
    | with_reducible intro _
    | with_reducible refine .ite ?_ ?_
    | with_reducible refine (State.setFld_keeps _ _ _ _ ?_).trans (sub_self _) ?_
    | with_reducible refine (State.setReg_keeps _ _ _ _ ?_).trans (sub_self _) ?_
    | split
    | dsimp -iota only
    | with_reducible apply Keeps.upd rfl
    | exact Or.inl rfl
    | exact Or.inr rfl

theorem execSliceTableReceive_keeps (h : MsgHdr) (e : SliceEntry) (s : State) {z_ : State} (h_ : execSliceTableReceive h e s = .next z_) : Keeps 0x60d240a000000000000000000000000000000000000000000a28000010004100000000001882000002 s z_ := by
  unfold execSliceTableReceive at h_
  refine act_keeps h_ ?_
  repeat' first
    | with_reducible exact .refl _
    | with_reducible assumption
    | (extract_lets +onlyGivenNames y_; refine Keeps.cut (y := y_) ?_ ?_; rotate_left; clear_value y_; intro _; rotate_left; dsimp -iota only [y_]; clear y_)
    | exact rfl
    | with_reducible intro _
    | with_reducible refine .ite ?_ ?_
    | with_reducible refine (State.forgetSlice_keeps _ _).trans ?_ ?_
    | with_reducible refine (State.modCtx_keeps _ _ _).trans ?_ ?_
    | with_reducible refine (State.fromManager_keeps _ _ _ _ ?_ ?_ ?_).trans (sub_self _) ?_
    | with_reducible exact .ident _
    | with_reducible refine .foldl _ ?_ ?_
    | split
    | dsimp -iota only
    | with_reducible apply Keeps.upd rfl
    | exact Or.inl rfl
    | exact Or.inr rfl

theorem execSliceDestroy_keeps (r : FwRef) (slice : Slice) (s : State) {z_ : State} (h_ : execSliceDestroy r slice s = .next z_) : Keeps 0x403a000000000000000000000000000000000000000000000000000000000000000000000000000000 s z_ := by
  unfold execSliceDestroy at h_
  refine act_keeps h_ ?_
  repeat' first
    | with_reducible exact .refl _
    | with_reducible assumption
    | (extract_lets +onlyGivenNames y_; refine Keeps.cut (y := y_) ?_ ?_; rotate_left; clear_value y_; intro _; rotate_left; dsimp -iota only [y_]; clear y_)
    | exact rfl
    | with_reducible intro _
    | with_reducible refine .ite ?_ ?_
    | with_reducible refine (State.mgrCommand_keeps _ _ _ ?_ ?_).trans (sub_self _) ?_
    | with_reducible refine (State.finishFw_keeps _ _ _ _ _).trans ?_ ?_
    | with_reducible refine (State.sendMgmt_keeps _ _ _).trans ?_ ?_
    | split
    | dsimp -iota only
    | with_reducible apply Keeps.upd rfl
    | exact Or.inl rfl
    | exact Or.inr rfl

theorem execSwitchIn_keeps (r : FwRef) (chip : Chip) (s : State) {z_ : State} (h_ : execSwitchIn r chip s = .next z_) : Keeps 0x38000000000000000000000000000000000000000000000000000000000000000000000000000000 s z_ := by
  unfold execSwitchIn at h_
  refine act_keeps h_ ?_
  repeat' first
    | with_reducible exact .refl _
    | with_reducible assumption
    | exact rfl
    | with_reducible intro _
    | with_reducible refine .ite ?_ ?_
    | with_reducible refine (State.needRecompute_keeps _ _).trans ?_ ?_
    | with_reducible refine (State.mgrCommand_keeps _ _ _ ?_ ?_).trans (sub_self _) ?_
    | with_reducible refine (State.finishFw_keeps _ _ _ _ _).trans ?_ ?_
    | split
    | with_reducible apply Keeps.upd rfl
    | exact Or.inl rfl
    | exact Or.inr rfl

theorem execSwitchOut_keeps (r : FwRef) (chip : Chip) (bound : Bool) (s : State) {z_ : State} (h_ : execSwitchOut r chip bound s = .next z_) : Keeps 0x38000000000000000000000000000000000000000000000000000000000000000000000000000000 s z_ := by
  unfold execSwitchOut at h_
  refine act_keeps h_ ?_
  repeat' first
    | with_reducible exact .refl _
    | with_reducible assumption
    | exact rfl
    | with_reducible intro _
    | with_reducible refine .ite ?_ ?_
    | with_reducible refine (State.needRecompute_keeps _ _).trans ?_ ?_
    | with_reducible refine (State.mgrCommand_keeps _ _ _ ?_ ?_).trans (sub_self _) ?_
    | with_reducible refine (State.finishFw_keeps _ _ _ _ _).trans ?_ ?_
    | split
    | with_reducible apply Keeps.upd rfl
    | exact Or.inl rfl
    | exact Or.inr rfl

theorem execPlanExport_keeps (r : FwRef) (owner : Fin 4) (shape x y z : Fin 256) (dest : Word) (destLen : Nat) (plan : Option Plan) (s : State) {z_ : State} (h_ : execPlanExport r owner shape x y z dest destLen plan s = .next z_) : Keeps 0x4038000000000000000000000000000000000000000000000000000000000000000000000000000000 s z_ := by
  unfold execPlanExport at h_
  refine act_keeps h_ ?_
  repeat' first
    | with_reducible exact .refl _
    | with_reducible assumption
    | (extract_lets +onlyGivenNames y_; refine Keeps.cut (y := y_) ?_ ?_; rotate_left; clear_value y_; intro _; rotate_left; dsimp -iota only [y_]; clear y_)
    | exact rfl
    | with_reducible intro _
    | with_reducible refine .ite ?_ ?_
    | with_reducible refine (State.mgrCommand_keeps _ _ _ ?_ ?_).trans (sub_self _) ?_
    | with_reducible refine (State.finishFw_keeps _ _ _ _ _).trans ?_ ?_
    | with_reducible refine (State.emit_keeps _ _).trans ?_ ?_
    | split
    | dsimp -iota only
    | with_reducible apply Keeps.upd rfl
    | exact Or.inl rfl
    | exact Or.inr rfl

theorem State.preparePlan_keeps (s : State) (r : FwRef) (id : BitVec 32) : Keeps 0x38000000000000000000000000000000000000000000000000000000000000000000000010000000 s (State.preparePlan s r id) := by
  unfold State.preparePlan
  repeat' first
    | with_reducible exact .refl _
    | with_reducible assumption
    | exact rfl
    | with_reducible intro _
    | with_reducible refine .ite ?_ ?_
    | with_reducible refine (State.needRecompute_keeps _ _).trans ?_ ?_
    | with_reducible refine (State.finishFw_keeps _ _ _ _ _).trans ?_ ?_
    | with_reducible refine (State.setFld_keeps _ _ _ _ ?_).trans (sub_self _) ?_
    | split
    | with_reducible apply Keeps.upd rfl
    | exact Or.inl rfl
    | exact Or.inr rfl

theorem execPlanPrepare_keeps (r : FwRef) (id : BitVec 32) (s : State) {z_ : State} (h_ : execPlanPrepare r id s = .next z_) : Keeps 0x38000000000000000000000000000000000000000000000000000000000000000000000010000000 s z_ := by
  unfold execPlanPrepare at h_
  refine act_keeps h_ ?_
  repeat' first
    | with_reducible exact .refl _
    | with_reducible assumption
    | exact rfl
    | with_reducible intro _
    | with_reducible refine .ite ?_ ?_
    | with_reducible refine (State.preparePlan_keeps _ _ _).trans ?_ ?_
    | with_reducible refine (State.mgrCommand_keeps _ _ _ ?_ ?_).trans (sub_self _) ?_
    | split
    | with_reducible apply Keeps.upd rfl
    | exact Or.inl rfl
    | exact Or.inr rfl

theorem State.nextPrepare_keeps (s : State) : Keeps 0x38000000000000000000000000000000000000000000000000000000000000000000000010000000 s (State.nextPrepare s) := by
  unfold State.nextPrepare
  repeat' first
    | with_reducible exact .refl _
    | with_reducible assumption
    | exact rfl
    | with_reducible intro _
    | with_reducible refine .ite ?_ ?_
    | with_reducible refine (State.preparePlan_keeps _ _ _).trans ?_ ?_
    | split
    | with_reducible apply Keeps.upd rfl
    | exact Or.inl rfl
    | exact Or.inr rfl

theorem execPlanApplied_keeps (r : FwRef) (id : BitVec 32) (s : State) {z_ : State} (h_ : execPlanApplied r id s = .next z_) : Keeps 0x38000000000000000000000000000000000000000000000000000000000000000000000010000000 s z_ := by
  unfold execPlanApplied at h_
  refine act_keeps h_ ?_
  repeat' first
    | with_reducible exact .refl _
    | with_reducible assumption
    | (extract_lets +onlyGivenNames y_; refine Keeps.cut (y := y_) ?_ ?_; rotate_left; clear_value y_; intro _; rotate_left; dsimp -iota only [y_]; clear y_)
    | exact rfl
    | with_reducible intro _
    | with_reducible refine .ite ?_ ?_
    | with_reducible refine (State.nextPrepare_keeps _).trans ?_ ?_
    | with_reducible refine (State.needRecompute_keeps _ _).trans ?_ ?_
    | with_reducible refine (State.mgrCommand_keeps _ _ _ ?_ ?_).trans (sub_self _) ?_
    | with_reducible refine (State.finishFw_keeps _ _ _ _ _).trans ?_ ?_
    | with_reducible refine (State.setFld_keeps _ _ _ _ ?_).trans (sub_self _) ?_
    | split
    | dsimp -iota only
    | with_reducible apply Keeps.upd rfl
    | exact Or.inl rfl
    | exact Or.inr rfl

theorem execPlanCancel_keeps (r : FwRef) (id : BitVec 32) (s : State) {z_ : State} (h_ : execPlanCancel r id s = .next z_) : Keeps 0x38000000000000000000000000000000000000000000000000000000000000000000000010000000 s z_ := by
  unfold execPlanCancel at h_
  refine act_keeps h_ ?_
  repeat' first
    | with_reducible exact .refl _
    | with_reducible assumption
    | (extract_lets +onlyGivenNames y_; refine Keeps.cut (y := y_) ?_ ?_; rotate_left; clear_value y_; intro _; rotate_left; dsimp -iota only [y_]; clear y_)
    | exact rfl
    | with_reducible intro _
    | with_reducible refine .ite ?_ ?_
    | with_reducible refine (State.nextPrepare_keeps _).trans ?_ ?_
    | with_reducible refine (State.needRecompute_keeps _ _).trans ?_ ?_
    | with_reducible refine (State.mgrCommand_keeps _ _ _ ?_ ?_).trans (sub_self _) ?_
    | with_reducible refine (State.finishFw_keeps _ _ _ _ _).trans ?_ ?_
    | with_reducible refine (State.setFld_keeps _ _ _ _ ?_).trans (sub_self _) ?_
    | split
    | dsimp -iota only
    | with_reducible apply Keeps.upd rfl
    | exact Or.inl rfl
    | exact Or.inr rfl

theorem execRouteStatus_keeps (r : FwRef) (s : State) {z_ : State} (h_ : execRouteStatus r s = .next z_) : Keeps 0x30000000000000000000000000000000000000000000000000000000000000000000000000000000 s z_ := by
  unfold execRouteStatus at h_
  refine act_keeps h_ ?_
  repeat' first
    | with_reducible exact .refl _
    | with_reducible assumption
    | (extract_lets +onlyGivenNames y_; refine Keeps.cut (y := y_) ?_ ?_; rotate_left; clear_value y_; intro _; rotate_left; dsimp -iota only [y_]; clear y_)
    | exact rfl
    | with_reducible intro _
    | with_reducible refine .ite ?_ ?_
    | with_reducible refine (State.mgrCommand_keeps _ _ _ ?_ ?_).trans (sub_self _) ?_
    | with_reducible refine (State.finishFw_keeps _ _ _ _ _).trans ?_ ?_
    | split
    | dsimp -iota only

theorem execEpDiscoverSend_keeps (port : Port) (s : State) {z_ : State} (h_ : execEpDiscoverSend port s = .next z_) : Keeps 0x4000004000000000000000000000000000000000000000000000000000000000000000000000000000 s z_ := by
  unfold execEpDiscoverSend at h_
  refine act_keeps h_ ?_
  repeat' first
    | with_reducible exact .refl _
    | with_reducible assumption
    | (extract_lets +onlyGivenNames y_; refine Keeps.cut (y := y_) ?_ ?_; rotate_left; clear_value y_; intro _; rotate_left; dsimp -iota only [y_]; clear y_)
    | exact rfl
    | with_reducible intro _
    | with_reducible refine .ite ?_ ?_
    | with_reducible refine (State.modEp_keeps _ _ _).trans ?_ ?_
    | with_reducible refine (State.emit_keeps _ _).trans ?_ ?_
    | split
    | dsimp -iota only

theorem execEpIdentityReceive_keeps (port : Port) (device : Word) (window : Nat) (features : BitVec 32) (s : State) {z_ : State} (h_ : execEpIdentityReceive port device window features s = .next z_) : Keeps 0x4000000000000000000000000000000000000000000000000000000000000000000000000000 s z_ := by
  unfold execEpIdentityReceive at h_
  refine act_keeps h_ ?_
  repeat' first
    | with_reducible exact .refl _
    | with_reducible assumption
    | exact rfl
    | with_reducible intro _
    | with_reducible refine .ite ?_ ?_
    | with_reducible refine (State.modEp_keeps _ _ _).trans ?_ ?_
    | split

theorem State.epSilent_keeps (s : State) (port : Nat) : Keeps 0x4002004000000000000000000000000000000000000000000000000000000000000000000000000000 s (State.epSilent s port) := by
  unfold State.epSilent
  repeat' first
    | with_reducible exact .refl _
    | with_reducible assumption
    | exact rfl
    | with_reducible intro _
    | with_reducible refine .ite ?_ ?_
    | with_reducible refine (State.modEp_keeps _ _ _).trans ?_ ?_
    | with_reducible refine (State.sendMgmt_keeps _ _ _).trans ?_ ?_
    | split

theorem execEpHeartbeatReceive_keeps (port : Port) (wb : Wb) (s : State) {z_ : State} (h_ : execEpHeartbeatReceive port wb s = .next z_) : Keeps 0x4002004000000000000000000000000000000000000000000000000000000000000000000000000000 s z_ := by
  unfold execEpHeartbeatReceive at h_
  refine act_keeps h_ ?_
  repeat' first
    | with_reducible exact .refl _
    | with_reducible assumption
    | (extract_lets +onlyGivenNames y_; refine Keeps.cut (y := y_) ?_ ?_; rotate_left; clear_value y_; intro _; rotate_left; dsimp -iota only [y_]; clear y_)
    | exact rfl
    | with_reducible intro _
    | with_reducible refine .ite ?_ ?_
    | with_reducible refine (State.epSilent_keeps _ _).trans ?_ ?_
    | with_reducible refine (State.modEp_keeps _ _ _).trans ?_ ?_
    | with_reducible refine (State.sendMgmt_keeps _ _ _).trans ?_ ?_
    | split
    | dsimp -iota only

theorem execEndpointSilent_keeps (port : Port) (s : State) {z_ : State} (h_ : execEndpointSilent port s = .next z_) : Keeps 0x4002004000000000000000000000000000000000000000000000000000000000000000000000000000 s z_ := by
  unfold execEndpointSilent at h_
  refine act_keeps h_ ?_
  repeat' first
    | with_reducible exact .refl _
    | with_reducible assumption
    | (extract_lets +onlyGivenNames y_; refine Keeps.cut (y := y_) ?_ ?_; rotate_left; clear_value y_; intro _; rotate_left; dsimp -iota only [y_]; clear y_)
    | exact rfl
    | with_reducible intro _
    | with_reducible refine .ite ?_ ?_
    | with_reducible refine (State.epSilent_keeps _ _).trans ?_ ?_
    | split
    | dsimp -iota only

theorem execEpochAckReceive_keeps (port : Port) (ctx : Ctx) (epoch : Fin 256) (s : State) {z_ : State} (h_ : execEpochAckReceive port ctx epoch s = .next z_) : Keeps 0x4000000000000000000000000000000000000000000000000000000000000000000000000000 s z_ := by
  unfold execEpochAckReceive at h_
  refine act_keeps h_ ?_
  repeat' first
    | with_reducible exact .refl _
    | with_reducible assumption
    | exact rfl
    | with_reducible intro _
    | with_reducible refine .ite ?_ ?_
    | with_reducible refine (State.modEp_keeps _ _ _).trans ?_ ?_
    | split

end Sys2Proof.Machine
end

