-- ==== Sys2Proof/Laws/KeepsContext.lean ====
section
/-! SUPPORT. Sys2Proof/Laws/KeepsContext.lean: what each operation of Machine/Context.lean leaves alone. -/

namespace Sys2Proof.Machine

theorem State.pickCtx_keeps (s : State) (n : Nat) : Keeps 0x8000000000000000000000000000000000000000000000000000000000000000000000000000000000 s (State.pickCtx s n).2 := by
  unfold State.pickCtx
  repeat' first
    | with_reducible exact .refl _
    | with_reducible assumption
    | exact rfl
    | with_reducible intro _
    | with_reducible refine .ite ?_ ?_
    | with_reducible refine .ite2 ?_ ?_
    | with_reducible refine (State.fresh_keeps _).trans ?_ ?_
    | with_reducible refine (Keeps.snd (State.fresh_keeps _) ‹_›).trans ?_ ?_
    | split
    | dsimp -iota only

theorem State.makeCtx_keeps (s : State) (c slice events : Nat) (home : Bool) : Keeps 0x48000000000000000000000000000000000000000000000000000000000000000200000000000 s (State.makeCtx s c slice events home) := by
  unfold State.makeCtx
  repeat' first
    | with_reducible exact .refl _
    | with_reducible assumption
    | (extract_lets +onlyGivenNames y_; refine Keeps.cut (y := y_) ?_ ?_; rotate_left; clear_value y_; intro _; rotate_left; dsimp -iota only [y_]; clear y_)
    | exact rfl
    | with_reducible intro _
    | with_reducible refine .ite ?_ ?_
    | with_reducible refine (State.setCtx_keeps _ _ _).trans ?_ ?_
    | with_reducible refine (State.setFld_keeps _ _ _ _ ?_).trans (sub_self _) ?_
    | split
    | dsimp -iota only
    | with_reducible apply Keeps.upd rfl
    | exact Or.inl rfl
    | exact Or.inr rfl

theorem execCtxCreate_keeps (r : FwRef) (slice ctx : Fin 65536) (events : Nat) (flags : Fin 256) (tenant : Bool) (s : State) {z_ : State} (h_ : execCtxCreate r slice ctx events flags tenant s = .next z_) : Keeps 0x8030048000000000000000000000000000000000000000000000000000000000000000200000000000 s z_ := by
  unfold execCtxCreate at h_
  refine act_keeps h_ ?_
  repeat' first
    | with_reducible exact .refl _
    | with_reducible assumption
    | (extract_lets +onlyGivenNames y_; refine Keeps.cut (y := y_) ?_ ?_; rotate_left; clear_value y_; intro _; rotate_left; dsimp -iota only [y_]; clear y_)
    | exact rfl
    | with_reducible intro _
    | with_reducible refine .ite ?_ ?_
    | with_reducible refine (State.makeCtx_keeps _ _ _ _ _).trans ?_ ?_
    | with_reducible refine (State.pickCtx_keeps _ _).trans ?_ ?_
    | with_reducible refine (Keeps.snd (State.pickCtx_keeps _ _) ‹_›).trans ?_ ?_
    | with_reducible refine (State.finishFw_keeps _ _ _ _ _).trans ?_ ?_
    | split
    | dsimp -iota only

theorem execCtxBind_keeps (r : FwRef) (ctx : Ctx) (port : Port) (rank : Rank) (winRead winWrite : Bool) (s : State) {z_ : State} (h_ : execCtxBind r ctx port rank winRead winWrite s = .next z_) : Keeps 0x30008000000000000000000000000000000000000000000000000000000000000000000000000000 s z_ := by
  unfold execCtxBind at h_
  refine act_keeps h_ ?_
  repeat' first
    | with_reducible exact .refl _
    | with_reducible assumption
    | (extract_lets +onlyGivenNames y_; refine Keeps.cut (y := y_) ?_ ?_; rotate_left; clear_value y_; intro _; rotate_left; dsimp -iota only [y_]; clear y_)
    | exact rfl
    | with_reducible intro _
    | with_reducible refine .ite ?_ ?_
    | with_reducible refine (State.modCtx_keeps _ _ _).trans ?_ ?_
    | with_reducible refine (State.finishFw_keeps _ _ _ _ _).trans ?_ ?_
    | split
    | dsimp -iota only

theorem execCtxUnbind_keeps (r : FwRef) (ctx : Ctx) (port : Port) (s : State) {z_ : State} (h_ : execCtxUnbind r ctx port s = .next z_) : Keeps 0x30008000000000000000000000000000000000000000000000000000000000000000000000000000 s z_ := by
  unfold execCtxUnbind at h_
  refine act_keeps h_ ?_
  repeat' first
    | with_reducible exact .refl _
    | with_reducible assumption
    | (extract_lets +onlyGivenNames y_; refine Keeps.cut (y := y_) ?_ ?_; rotate_left; clear_value y_; intro _; rotate_left; dsimp -iota only [y_]; clear y_)
    | exact rfl
    | with_reducible intro _
    | with_reducible refine .ite ?_ ?_
    | with_reducible refine (State.modCtx_keeps _ _ _).trans ?_ ?_
    | with_reducible refine (State.finishFw_keeps _ _ _ _ _).trans ?_ ?_
    | split
    | dsimp -iota only

theorem State.askReset_keeps (s : State) (c : Nat) (destroy : Bool) : Keeps 0x8000000000000000000000000000000000000000000000000000000000000000200000000000 s (State.askReset s c destroy) := by
  unfold State.askReset
  repeat' first
    | with_reducible exact .refl _
    | with_reducible assumption
    | (extract_lets +onlyGivenNames y_; refine Keeps.cut (y := y_) ?_ ?_; rotate_left; clear_value y_; intro _; rotate_left; dsimp -iota only [y_]; clear y_)
    | exact rfl
    | with_reducible intro _
    | with_reducible refine .ite ?_ ?_
    | with_reducible refine (State.modCtx_keeps _ _ _).trans ?_ ?_
    | with_reducible refine (State.setFld_keeps _ _ _ _ ?_).trans (sub_self _) ?_
    | split
    | dsimp -iota only

theorem execCtxReset_keeps (r : FwRef) (ctx : Ctx) (s : State) {z_ : State} (h_ : execCtxReset r ctx s = .next z_) : Keeps 0x30008000000000000000000000000000000000000000000000000000000000000000200000000000 s z_ := by
  unfold execCtxReset at h_
  refine act_keeps h_ ?_
  repeat' first
    | with_reducible exact .refl _
    | with_reducible assumption
    | (extract_lets +onlyGivenNames y_; refine Keeps.cut (y := y_) ?_ ?_; rotate_left; clear_value y_; intro _; rotate_left; dsimp -iota only [y_]; clear y_)
    | exact rfl
    | with_reducible intro _
    | with_reducible refine .ite ?_ ?_
    | with_reducible refine (State.askReset_keeps _ _ _).trans ?_ ?_
    | with_reducible refine (State.finishFw_keeps _ _ _ _ _).trans ?_ ?_
    | split
    | dsimp -iota only

theorem execCtxDestroy_keeps (r : FwRef) (ctx : Ctx) (s : State) {z_ : State} (h_ : execCtxDestroy r ctx s = .next z_) : Keeps 0x30008000000000000000000000000000000000000000000000000000000000000000200000000000 s z_ := by
  unfold execCtxDestroy at h_
  refine act_keeps h_ ?_
  repeat' first
    | with_reducible exact .refl _
    | with_reducible assumption
    | (extract_lets +onlyGivenNames y_; refine Keeps.cut (y := y_) ?_ ?_; rotate_left; clear_value y_; intro _; rotate_left; dsimp -iota only [y_]; clear y_)
    | exact rfl
    | with_reducible intro _
    | with_reducible refine .ite ?_ ?_
    | with_reducible refine (State.askReset_keeps _ _ _).trans ?_ ?_
    | with_reducible refine (State.finishFw_keeps _ _ _ _ _).trans ?_ ?_
    | split
    | dsimp -iota only

theorem State.dropQueue_keeps (s : State) (q : Nat) : Keeps 0x2000000000000000000000000000000000000000000000000000000000000000007c000000000 s (State.dropQueue s q) := by
  unfold State.dropQueue
  repeat' first
    | with_reducible exact .refl _
    | with_reducible assumption
    | (extract_lets +onlyGivenNames y_; refine Keeps.cut (y := y_) ?_ ?_; rotate_left; clear_value y_; intro _; rotate_left; dsimp -iota only [y_]; clear y_)
    | exact rfl
    | with_reducible intro _
    | with_reducible refine .ite ?_ ?_
    | with_reducible refine (State.setReg_keeps _ _ _ _ ?_).trans (sub_self _) ?_
    | split
    | dsimp -iota only
    | with_reducible apply Keeps.upd rfl
    | exact Or.inl rfl
    | exact Or.inr rfl

theorem execQueue_keeps (r : FwRef) (queue ctx : Fin 65536) (op ringLog cqLog : Fin 256) (ringBase cqBase : Word) (s : State) {z_ : State} (h_ : execQueue r queue ctx op ringLog cqLog ringBase cqBase s = .next z_) : Keeps 0x3082000000000000000000000000000000000000000000000000000000000000000007c000000000 s z_ := by
  unfold execQueue at h_
  refine act_keeps h_ ?_
  repeat' first
    | with_reducible exact .refl _
    | with_reducible assumption
    | (extract_lets +onlyGivenNames y_; refine Keeps.cut (y := y_) ?_ ?_; rotate_left; clear_value y_; intro _; rotate_left; dsimp -iota only [y_]; clear y_)
    | exact rfl
    | with_reducible intro _
    | with_reducible refine .ite ?_ ?_
    | with_reducible refine (State.dropQueue_keeps _ _).trans ?_ ?_
    | with_reducible refine (State.ctxWrite_keeps _ _ _ _).trans ?_ ?_
    | with_reducible refine (State.finishFw_keeps _ _ _ _ _).trans ?_ ?_
    | with_reducible refine (State.setFld_keeps _ _ _ _ ?_).trans (sub_self _) ?_
    | with_reducible refine (State.setReg_keeps _ _ _ _ ?_).trans (sub_self _) ?_
    | split
    | dsimp -iota only

theorem execChannel_keeps (r : FwRef) (wing : Wing) (chan : Fin 256) (ctx : Ctx) (release : Bool) (s : State) {z_ : State} (h_ : execChannel r wing chan ctx release s = .next z_) : Keeps 0x30000000000000000000000000000000000000000000000000000000000001000000000000000000 s z_ := by
  unfold execChannel at h_
  refine act_keeps h_ ?_
  repeat' first
    | with_reducible exact .refl _
    | with_reducible assumption
    | (extract_lets +onlyGivenNames y_; refine Keeps.cut (y := y_) ?_ ?_; rotate_left; clear_value y_; intro _; rotate_left; dsimp -iota only [y_]; clear y_)
    | exact rfl
    | with_reducible intro _
    | with_reducible refine .ite ?_ ?_
    | with_reducible refine (State.finishFw_keeps _ _ _ _ _).trans ?_ ?_
    | with_reducible refine (State.setFld_keeps _ _ _ _ ?_).trans (sub_self _) ?_
    | with_reducible refine (State.setReg_keeps _ _ _ _ ?_).trans (sub_self _) ?_
    | split
    | dsimp -iota only

theorem takeFrames_keeps (perm v n : Nat) (x : List Page × State) : Keeps 0x8000040000000000000000000000000000000000000000000000000000000000000000000000000000 x.2 (takeFrames perm v n x).2 := by
  induction n generalizing v x with
  | zero => exact .refl _
  | succ n ih =>
    unfold takeFrames
    exact (ih _ _).trans (sub_self _) ((State.takeFrame_keeps _ _).trans rfl (.refl _))

theorem execPageGrant_keeps (r : FwRef) (ctx : Fin 65536) (perm : Fin 256) (count : BitVec 32) (first : Word) (tenant : Bool) (s : State) {z_ : State} (h_ : execPageGrant r ctx perm count first tenant s = .next z_) : Keeps 0x8030048000000000000000000000000000000000000000000000000000000000200000000000000000 s z_ := by
  unfold execPageGrant at h_
  refine act_keeps h_ ?_
  repeat' first
    | with_reducible exact .refl _
    | with_reducible assumption
    | (extract_lets +onlyGivenNames y_; refine Keeps.cut (y := y_) ?_ ?_; rotate_left; clear_value y_; intro _; rotate_left; dsimp -iota only [y_]; clear y_)
    | exact rfl
    | with_reducible intro _
    | with_reducible refine .ite ?_ ?_
    | with_reducible refine (takeFrames_keeps _ _ _ _).trans ?_ ?_
    | with_reducible refine (Keeps.snd (takeFrames_keeps _ _ _ _) ‹_›).trans ?_ ?_
    | with_reducible refine (State.showPool_keeps _).trans ?_ ?_
    | with_reducible refine (State.modCtx_keeps _ _ _).trans ?_ ?_
    | with_reducible refine (State.finishFw_keeps _ _ _ _ _).trans ?_ ?_
    | split
    | dsimp -iota only

theorem execGrantZerofillDone_keeps (ctx : Ctx) (s : State) {z_ : State} (h_ : execGrantZerofillDone ctx s = .next z_) : Keeps 0x30848000000000000000000000000000000000000000000000000000000000000000000000000000 s z_ := by
  unfold execGrantZerofillDone at h_
  refine act_keeps h_ ?_
  repeat' first
    | with_reducible exact .refl _
    | with_reducible assumption
    | (extract_lets +onlyGivenNames y_; refine Keeps.cut (y := y_) ?_ ?_; rotate_left; clear_value y_; intro _; rotate_left; dsimp -iota only [y_]; clear y_)
    | exact rfl
    | with_reducible intro _
    | with_reducible refine .ite ?_ ?_
    | with_reducible refine (State.zeroFrame_keeps _ _).trans ?_ ?_
    | with_reducible refine (State.modCtx_keeps _ _ _).trans ?_ ?_
    | with_reducible refine (State.finishFw_keeps _ _ _ _ _).trans ?_ ?_
    | with_reducible refine .foldl _ ?_ ?_
    | split
    | dsimp -iota only

theorem execPageUngrant_keeps (r : FwRef) (ctx : Fin 65536) (count : BitVec 32) (first : Word) (s : State) {z_ : State} (h_ : execPageUngrant r ctx count first s = .next z_) : Keeps 0x30048000000000000000000000000000000000000000000000000000000000200000000000000000 s z_ := by
  unfold execPageUngrant at h_
  refine act_keeps h_ ?_
  repeat' first
    | with_reducible exact .refl _
    | with_reducible assumption
    | (extract_lets +onlyGivenNames y_; refine Keeps.cut (y := y_) ?_ ?_; rotate_left; clear_value y_; intro _; rotate_left; dsimp -iota only [y_]; clear y_)
    | exact rfl
    | with_reducible intro _
    | with_reducible refine .ite ?_ ?_
    | with_reducible refine (State.releaseFrame_keeps _ _).trans ?_ ?_
    | with_reducible refine (State.showPool_keeps _).trans ?_ ?_
    | with_reducible refine (State.modCtx_keeps _ _ _).trans ?_ ?_
    | with_reducible refine (State.finishFw_keeps _ _ _ _ _).trans ?_ ?_
    | with_reducible refine .foldl _ ?_ ?_
    | split
    | dsimp -iota only

theorem execFrameScrubDone_keeps (wing : Wing) (s : State) {z_ : State} (h_ : execFrameScrubDone wing s = .next z_) : Keeps 0x840000000000000000000000000000000000000000000000000000000000200000000000000000 s z_ := by
  unfold execFrameScrubDone at h_
  refine act_keeps h_ ?_
  repeat' first
    | with_reducible exact .refl _
    | with_reducible assumption
    | (extract_lets +onlyGivenNames y_; refine Keeps.cut (y := y_) ?_ ?_; rotate_left; clear_value y_; intro _; rotate_left; dsimp -iota only [y_]; clear y_)
    | exact rfl
    | with_reducible intro _
    | with_reducible refine .ite ?_ ?_
    | with_reducible refine (State.zeroFrame_keeps _ _).trans ?_ ?_
    | with_reducible refine (State.showPool_keeps _).trans ?_ ?_
    | split
    | dsimp -iota only
    | with_reducible apply Keeps.upd rfl
    | exact Or.inl rfl
    | exact Or.inr rfl

end Sys2Proof.Machine
end

