-- ==== Sys2Proof/Laws/KeepsQueue.lean ====
section
/-! SUPPORT. Sys2Proof/Laws/KeepsQueue.lean: what each operation of Machine/Queue.lean leaves alone. -/

namespace Sys2Proof.Machine

theorem State.dbSubmit_keeps (s : State) (src : DbSource) (q i : Nat) : Keeps 0x20000000000000000000000000000000000000000000000000000000000000000420000000000 s (State.dbSubmit s src q i) := by
  unfold State.dbSubmit
  repeat' first
    | with_reducible exact .refl _
    | with_reducible assumption
    | (extract_lets +onlyGivenNames y_; refine Keeps.cut (y := y_) ?_ ?_; rotate_left; clear_value y_; intro _; rotate_left; dsimp -iota only [y_]; clear y_)
    | exact rfl
    | with_reducible intro _
    | with_reducible refine .ite ?_ ?_
    | with_reducible refine (State.doorbell_keeps _ _ _ _ _ ?_ ?_).trans (sub_self _) ?_
    | with_reducible refine (State.setFld_keeps _ _ _ _ ?_).trans (sub_self _) ?_
    | with_reducible exact .ident _
    | split
    | dsimp -iota only
    | with_reducible apply Keeps.upd rfl
    | exact Or.inl rfl
    | exact Or.inr rfl

theorem State.dbCqHead_keeps (s : State) (src : DbSource) (q i : Nat) : Keeps 0x440000000000 s (State.dbCqHead s src q i) := by
  unfold State.dbCqHead
  repeat' first
    | with_reducible exact .refl _
    | with_reducible assumption
    | exact rfl
    | with_reducible intro _
    | with_reducible refine .ite ?_ ?_
    | with_reducible refine (State.doorbell_keeps _ _ _ _ _ ?_ ?_).trans (sub_self _) ?_
    | with_reducible refine (State.setFld_keeps _ _ _ _ ?_).trans (sub_self _) ?_
    | with_reducible exact .ident _
    | split

theorem State.trimCovers_keeps (s : State) (q : Nat) : Keeps 0x20000000000000000000000000000000000000000000000000000000000000000000000000000 s (State.trimCovers s q) := by
  unfold State.trimCovers
  repeat' first
    | with_reducible exact .refl _
    | with_reducible assumption
    | exact rfl
    | with_reducible intro _
    | with_reducible refine .ite ?_ ?_
    | split
    | with_reducible apply Keeps.upd rfl
    | exact Or.inl rfl
    | exact Or.inr rfl

theorem State.dbResume_keeps (s : State) (src : DbSource) (q i : Nat) : Keeps 0x20000000000000000000000000000000000000000000000000000000000000000424000000000 s (State.dbResume s src q i) := by
  unfold State.dbResume
  repeat' first
    | with_reducible exact .refl _
    | with_reducible assumption
    | exact rfl
    | with_reducible intro _
    | with_reducible refine .ite ?_ ?_
    | with_reducible refine (State.trimCovers_keeps _ _).trans ?_ ?_
    | with_reducible refine (State.doorbell_keeps _ _ _ _ _ ?_ ?_).trans (sub_self _) ?_
    | with_reducible refine (State.setFld_keeps _ _ _ _ ?_).trans (sub_self _) ?_
    | with_reducible exact .ident _
    | split

theorem execDbSubmit_keeps (src : DbSource) (queue : Queue) (index : BitVec 32) (s : State) {z_ : State} (h_ : execDbSubmit src queue index s = .next z_) : Keeps 0x20000000000000000000000000000000000000000000000000000000000000000420000000000 s z_ := by
  unfold execDbSubmit at h_
  refine act_keeps h_ ?_
  repeat' first
    | with_reducible exact .refl _
    | with_reducible assumption
    | exact rfl
    | with_reducible intro _
    | with_reducible refine .ite ?_ ?_
    | with_reducible refine (State.dbSubmit_keeps _ _ _ _).trans ?_ ?_
    | split

theorem execDbCqHead_keeps (src : DbSource) (queue : Queue) (index : BitVec 32) (s : State) {z_ : State} (h_ : execDbCqHead src queue index s = .next z_) : Keeps 0x440000000000 s z_ := by
  unfold execDbCqHead at h_
  refine act_keeps h_ ?_
  repeat' first
    | with_reducible exact .refl _
    | with_reducible assumption
    | exact rfl
    | with_reducible intro _
    | with_reducible refine .ite ?_ ?_
    | with_reducible refine (State.dbCqHead_keeps _ _ _ _).trans ?_ ?_
    | split

theorem execDbResume_keeps (src : DbSource) (queue : Queue) (index : BitVec 32) (s : State) {z_ : State} (h_ : execDbResume src queue index s = .next z_) : Keeps 0x20000000000000000000000000000000000000000000000000000000000000000424000000000 s z_ := by
  unfold execDbResume at h_
  refine act_keeps h_ ?_
  repeat' first
    | with_reducible exact .refl _
    | with_reducible assumption
    | exact rfl
    | with_reducible intro _
    | with_reducible refine .ite ?_ ?_
    | with_reducible refine (State.dbResume_keeps _ _ _ _).trans ?_ ?_
    | split

theorem State.addCounter_keeps (s : State) (c n add : Nat) : Keeps 0x8000000000000000000000000000000000000000000000000000000000000000000000000000 s (State.addCounter s c n add) := by
  unfold State.addCounter
  repeat' first
    | with_reducible exact .refl _
    | with_reducible assumption
    | exact rfl
    | with_reducible intro _
    | with_reducible refine .ite ?_ ?_
    | with_reducible refine (State.modCtx_keeps _ _ _).trans ?_ ?_
    | split

theorem State.startCmd_keeps (s : State) (q : Nat) (sl : List Byte) (op : Nat) (ended : Option Nat) : Keeps 0x820000000000000000000000000000000000000000000000000000000000000000020000000000 s (State.startCmd s q sl op ended) := by
  unfold State.startCmd
  repeat' first
    | with_reducible exact .refl _
    | with_reducible assumption
    | (extract_lets +onlyGivenNames y_; refine Keeps.cut (y := y_) ?_ ?_; rotate_left; clear_value y_; intro _; rotate_left; dsimp -iota only [y_]; clear y_)
    | exact rfl
    | with_reducible intro _
    | with_reducible refine .ite ?_ ?_
    | with_reducible refine (State.trimCovers_keeps _ _).trans ?_ ?_
    | with_reducible refine (State.writeLedger_keeps _ _ _ _ _).trans ?_ ?_
    | with_reducible refine (State.setFld_keeps _ _ _ _ ?_).trans (sub_self _) ?_
    | split
    | dsimp -iota only
    | with_reducible apply Keeps.upd rfl
    | exact Or.inl rfl
    | exact Or.inr rfl

theorem State.tryStart_keeps (s : State) (q : Nat) : Keeps 0x820000000000000000000000000000000000000000000000000000000000000000020000000000 s (State.tryStart s q) := by
  unfold State.tryStart
  repeat' first
    | with_reducible exact .refl _
    | with_reducible assumption
    | (extract_lets +onlyGivenNames y_; refine Keeps.cut (y := y_) ?_ ?_; rotate_left; clear_value y_; intro _; rotate_left; dsimp -iota only [y_]; clear y_)
    | exact rfl
    | with_reducible intro _
    | with_reducible refine .ite ?_ ?_
    | with_reducible refine (State.startCmd_keeps _ _ _ _ _).trans ?_ ?_
    | split
    | dsimp -iota only

theorem execCommandStart_keeps (queue : Queue) (s : State) {z_ : State} (h_ : execCommandStart queue s = .next z_) : Keeps 0x820000000000000000000000000000000000000000000000000000000000000000020000000000 s z_ := by
  unfold execCommandStart at h_
  refine act_keeps h_ ?_
  repeat' first
    | with_reducible exact .refl _
    | with_reducible assumption
    | exact rfl
    | with_reducible intro _
    | with_reducible refine .ite ?_ ?_
    | with_reducible refine (State.tryStart_keeps _ _).trans ?_ ?_
    | split

theorem execLapReread_keeps (queue : Queue) (s : State) {z_ : State} (h_ : execLapReread queue s = .next z_) : Keeps 0x820000000000000000000000000000000000000000000000000000000000000000020000000000 s z_ := by
  unfold execLapReread at h_
  refine act_keeps h_ ?_
  repeat' first
    | with_reducible exact .refl _
    | with_reducible assumption
    | exact rfl
    | with_reducible intro _
    | with_reducible refine .ite ?_ ?_
    | with_reducible refine (State.tryStart_keeps _ _).trans ?_ ?_
    | split

theorem execLapTimeout_keeps (queue : Queue) (s : State) {z_ : State} (h_ : execLapTimeout queue s = .next z_) : Keeps 0x820000000000000000000000000000000000000000000000000000000000000000020000000000 s z_ := by
  unfold execLapTimeout at h_
  refine act_keeps h_ ?_
  repeat' first
    | with_reducible exact .refl _
    | with_reducible assumption
    | (extract_lets +onlyGivenNames y_; refine Keeps.cut (y := y_) ?_ ?_; rotate_left; clear_value y_; intro _; rotate_left; dsimp -iota only [y_]; clear y_)
    | exact rfl
    | with_reducible intro _
    | with_reducible refine .ite ?_ ?_
    | with_reducible refine (State.startCmd_keeps _ _ _ _ _).trans ?_ ?_
    | split
    | dsimp -iota only

theorem State.endCmd_keeps (s : State) (q i st extent : Nat) : Keeps 0x20000000000000000000000000000000000000000000000000000000000000000000000000000 s (State.endCmd s q i st extent) := by
  unfold State.endCmd
  repeat' first
    | with_reducible exact .refl _
    | with_reducible assumption
    | exact rfl
    | with_reducible intro _
    | with_reducible refine .ite ?_ ?_
    | with_reducible refine (State.modRun_keeps _ _ _ _).trans ?_ ?_
    | split

theorem execNop_keeps (queue : Queue) (index : BitVec 32) (s : State) {z_ : State} (h_ : execNop queue index s = .next z_) : Keeps 0x20000000000000000000000000000000000000000000000000000000000000000000000000000 s z_ := by
  unfold execNop at h_
  refine act_keeps h_ ?_
  repeat' first
    | with_reducible exact .refl _
    | with_reducible assumption
    | exact rfl
    | with_reducible intro _
    | with_reducible refine .ite ?_ ?_
    | with_reducible refine (State.endCmd_keeps _ _ _ _ _).trans ?_ ?_
    | split

theorem execWait_keeps (queue : Queue) (index : BitVec 32) (s : State) {z_ : State} (h_ : execWait queue index s = .next z_) : Keeps 0x20000000000000000000000000000000000000000000000000000000000000000000000000000 s z_ := by
  unfold execWait at h_
  refine act_keeps h_ ?_
  repeat' first
    | with_reducible exact .refl _
    | with_reducible assumption
    | exact rfl
    | with_reducible intro _
    | with_reducible refine .ite ?_ ?_
    | with_reducible refine (State.endCmd_keeps _ _ _ _ _).trans ?_ ?_
    | split

theorem execSignal_keeps (queue : Queue) (index : BitVec 32) (s : State) {z_ : State} (h_ : execSignal queue index s = .next z_) : Keeps 0x28000000000000000000000000000000000000000000000000000000000000000000000000000 s z_ := by
  unfold execSignal at h_
  refine act_keeps h_ ?_
  repeat' first
    | with_reducible exact .refl _
    | with_reducible assumption
    | exact rfl
    | with_reducible intro _
    | with_reducible refine .ite ?_ ?_
    | with_reducible refine (State.endCmd_keeps _ _ _ _ _).trans ?_ ?_
    | with_reducible refine (State.addCounter_keeps _ _ _ _).trans ?_ ?_
    | split

theorem execFence_keeps (queue : Queue) (index : BitVec 32) (s : State) {z_ : State} (h_ : execFence queue index s = .next z_) : Keeps 0x20000000000000000000000000000000000000000000000000000000000000000000000000000 s z_ := by
  unfold execFence at h_
  refine act_keeps h_ ?_
  repeat' first
    | with_reducible exact .refl _
    | with_reducible assumption
    | (extract_lets +onlyGivenNames y_; refine Keeps.cut (y := y_) ?_ ?_; rotate_left; clear_value y_; intro _; rotate_left; dsimp -iota only [y_]; clear y_)
    | exact rfl
    | with_reducible intro _
    | with_reducible refine .ite ?_ ?_
    | with_reducible refine (State.modRun_keeps _ _ _ _).trans ?_ ?_
    | split
    | dsimp -iota only

theorem execFenceComplete_keeps (queue : Queue) (index : BitVec 32) (s : State) {z_ : State} (h_ : execFenceComplete queue index s = .next z_) : Keeps 0xa0000000000000000000000000000000000000000000000000000000000000000000000000000 s z_ := by
  unfold execFenceComplete at h_
  refine act_keeps h_ ?_
  repeat' first
    | with_reducible exact .refl _
    | with_reducible assumption
    | (extract_lets +onlyGivenNames y_; refine Keeps.cut (y := y_) ?_ ?_; rotate_left; clear_value y_; intro _; rotate_left; dsimp -iota only [y_]; clear y_)
    | exact rfl
    | with_reducible intro _
    | with_reducible refine .ite ?_ ?_
    | with_reducible refine (State.endCmd_keeps _ _ _ _ _).trans ?_ ?_
    | split
    | dsimp -iota only
    | with_reducible apply Keeps.upd rfl
    | exact Or.inl rfl
    | exact Or.inr rfl

theorem State.sendReads_keeps (s : State) (unit : Nat) (r : RunCmd) (src dst stop : Nat) (chan : Option (Nat × Nat)) (off fuel : Nat) : Keeps 0x4000412000000000000000000000000000000000000000000000000000000000000000000000880000 s (s.sendReads unit r src dst stop chan off fuel) := by
  induction fuel generalizing s off with
  | zero => exact .refl _
  | succ n_ ih =>
    unfold State.sendReads
    repeat' first
      | with_reducible exact .refl _
      | exact rfl
      | intro _
      | with_reducible refine .ite ?_ ?_
      | with_reducible refine (ih _ _).trans (sub_self _) ?_
      | with_reducible refine (State.readReq_keeps _ _ _ _ _ _ _).trans ?_ ?_
      | split
      | dsimp only

theorem State.moveOn_keeps (s : State) (r : RunCmd) : Keeps 0x4000432000000000000000000000000000000000000000000000000000000000000000000000880000 s (State.moveOn s r) := by
  unfold State.moveOn
  repeat' first
    | with_reducible exact .refl _
    | with_reducible assumption
    | (extract_lets +onlyGivenNames y_; refine Keeps.cut (y := y_) ?_ ?_; rotate_left; clear_value y_; intro _; rotate_left; dsimp -iota only [y_]; clear y_)
    | exact rfl
    | with_reducible intro _
    | with_reducible refine .ite ?_ ?_
    | with_reducible refine (State.sendReads_keeps _ _ _ _ _ _ _ _ _).trans ?_ ?_
    | with_reducible refine (State.modRun_keeps _ _ _ _).trans ?_ ?_
    | split
    | dsimp -iota only

theorem State.move_keeps (s : State) (q i op : Nat) : Keeps 0x4000432000000000000000000000000000000000000000000000000000000000000000000000880000 s (State.move s q i op) := by
  unfold State.move
  repeat' first
    | with_reducible exact .refl _
    | with_reducible assumption
    | exact rfl
    | with_reducible intro _
    | with_reducible refine .ite ?_ ?_
    | with_reducible refine (State.moveOn_keeps _ _).trans ?_ ?_
    | with_reducible refine (State.endCmd_keeps _ _ _ _ _).trans ?_ ?_
    | split

theorem execPoolRead_keeps (queue : Queue) (index : BitVec 32) (s : State) {z_ : State} (h_ : execPoolRead queue index s = .next z_) : Keeps 0x4000432000000000000000000000000000000000000000000000000000000000000000000000880000 s z_ := by
  unfold execPoolRead at h_
  refine act_keeps h_ ?_
  repeat' first
    | with_reducible exact .refl _
    | with_reducible assumption
    | exact rfl
    | with_reducible intro _
    | with_reducible refine .ite ?_ ?_
    | with_reducible refine (State.move_keeps _ _ _ _).trans ?_ ?_
    | split

theorem execPoolWrite_keeps (queue : Queue) (index : BitVec 32) (s : State) {z_ : State} (h_ : execPoolWrite queue index s = .next z_) : Keeps 0x4000432000000000000000000000000000000000000000000000000000000000000000000000880000 s z_ := by
  unfold execPoolWrite at h_
  refine act_keeps h_ ?_
  repeat' first
    | with_reducible exact .refl _
    | with_reducible assumption
    | exact rfl
    | with_reducible intro _
    | with_reducible refine .ite ?_ ?_
    | with_reducible refine (State.move_keeps _ _ _ _).trans ?_ ?_
    | split

theorem State.writeRecord_keeps (s : State) (q slot : Nat) (r : RunCmd) (status : Nat) : Keeps 0x800000000000000000000000000000000000000000000000000000000000000000040000000000 s (State.writeRecord s q slot r status) := by
  unfold State.writeRecord
  repeat' first
    | with_reducible exact .refl _
    | with_reducible assumption
    | (extract_lets +onlyGivenNames y_; refine Keeps.cut (y := y_) ?_ ?_; rotate_left; clear_value y_; intro _; rotate_left; dsimp -iota only [y_]; clear y_)
    | exact rfl
    | with_reducible intro _
    | with_reducible refine .ite ?_ ?_
    | with_reducible refine (State.ctxWrite_keeps _ _ _ _).trans ?_ ?_
    | with_reducible refine (State.setFld_keeps _ _ _ _ ?_).trans (sub_self _) ?_
    | split
    | dsimp -iota only

theorem State.complete_keeps (s : State) (r : RunCmd) (st : Nat) : Keeps 0x828000000000000000000000000000000000000000000000000000000000000000440000000000 s (State.complete s r st) := by
  unfold State.complete
  repeat' first
    | with_reducible exact .refl _
    | with_reducible assumption
    | (extract_lets +onlyGivenNames y_; refine Keeps.cut (y := y_) ?_ ?_; rotate_left; clear_value y_; intro _; rotate_left; dsimp -iota only [y_]; clear y_)
    | exact rfl
    | with_reducible intro _
    | with_reducible refine .ite ?_ ?_
    | with_reducible refine (State.writeRecord_keeps _ _ _ _ _).trans ?_ ?_
    | with_reducible refine (State.addCounter_keeps _ _ _ _).trans ?_ ?_
    | with_reducible refine (State.writeLedger_keeps _ _ _ _ _).trans ?_ ?_
    | with_reducible refine (State.bump_keeps _ _ _ _ ?_).trans (sub_self _) ?_
    | split
    | dsimp -iota only
    | with_reducible apply Keeps.upd rfl
    | exact Or.inl rfl
    | exact Or.inr rfl

end Sys2Proof.Machine
end

