-- ==== Sys2Proof/Laws/KeepsCollBase.lean ====
section
/-! SUPPORT. Sys2Proof/Laws/KeepsCollBase.lean: what each operation of Machine/CollBase.lean leaves alone. -/

namespace Sys2Proof.Machine

theorem State.storeOwn_keeps (s : State) (c off : Nat) (bs : List Byte) : Keeps 0x840000000000000000000000000000000000000000000000000000000000000000000000000000 s (State.storeOwn s c off bs).1 := by
  generalize hx : State.storeOwn s c off bs = x
  rw [State.storeOwn] at hx
  dsimp only at hx
  split at hx
  · subst hx; exact .refl _
  split at hx
  · subst hx; exact .refl _
  subst hx
  refine Keeps.trans (s := s.ctxWrite c off bs) (a := 0x840000000000000000000000000000000000000000000000000000000000000000000000000000) ?_ (sub_self _) ((State.ctxWrite_keeps _ _ _ _).trans rfl (.refl _))
  apply Keeps.upd rfl (.refl _) <;> first | exact rfl | exact Or.inr rfl | exact Or.inl rfl

theorem State.storeAt_keeps (s : State) (unit c epoch addr : Nat) (bs : List Byte) : Keeps 0x4000c52000000000000000000000000000000000000000000000000000000000000000000000880000 s (State.storeAt s unit c epoch addr bs) := by
  unfold State.storeAt
  repeat' first
    | with_reducible exact .refl _
    | with_reducible assumption
    | exact rfl
    | with_reducible intro _
    | with_reducible refine .ite ?_ ?_
    | with_reducible refine (State.storeOwn_keeps _ _ _ _).trans ?_ ?_
    | with_reducible refine (Keeps.fst (State.storeOwn_keeps _ _ _ _) ‹_›).trans ?_ ?_
    | with_reducible refine (State.writeReq_keeps _ _ _ _ _ _ _).trans ?_ ?_
    | with_reducible refine .foldl _ ?_ ?_
    | split

theorem State.modNode_keeps (s : State) (n : CollNode) (f : CollNode → CollNode) : Keeps 0x100000000000000000000000000000000000000000000000000000000000000000000000000000 s (State.modNode s n f) := by
  unfold State.modNode
  repeat' first
    | with_reducible exact .refl _
    | with_reducible assumption
    | exact rfl
    | with_reducible intro _
    | with_reducible refine .ite ?_ ?_
    | split
    | with_reducible apply Keeps.upd rfl
    | exact Or.inl rfl
    | exact Or.inr rfl

theorem State.showSlots_keeps (s : State) : Keeps 0x800000000000 s (State.showSlots s) := by
  unfold State.showSlots
  repeat' first
    | with_reducible exact .refl _
    | with_reducible assumption
    | (extract_lets +onlyGivenNames y_; refine Keeps.cut (y := y_) ?_ ?_; rotate_left; clear_value y_; intro _; rotate_left; dsimp -iota only [y_]; clear y_)
    | exact rfl
    | with_reducible intro _
    | with_reducible refine .ite ?_ ?_
    | with_reducible refine (State.setFld_keeps _ _ _ _ ?_).trans (sub_self _) ?_
    | with_reducible refine .foldl _ ?_ ?_
    | split
    | dsimp -iota only

theorem State.takeSlots_keeps (s : State) (n : CollNode) : Keeps 0x100000000000000000000000000000000000000000000000000000000000000000800000000000 s (State.takeSlots s n) := by
  unfold State.takeSlots
  repeat' first
    | with_reducible exact .refl _
    | with_reducible assumption
    | (extract_lets +onlyGivenNames y_; refine Keeps.cut (y := y_) ?_ ?_; rotate_left; clear_value y_; intro _; rotate_left; dsimp -iota only [y_]; clear y_)
    | exact rfl
    | with_reducible intro _
    | with_reducible refine .ite ?_ ?_
    | with_reducible refine (State.showSlots_keeps _).trans ?_ ?_
    | with_reducible refine (State.modNode_keeps _ _ _).trans ?_ ?_
    | split
    | dsimp -iota only

theorem State.takeSpill_keeps (s : State) (n : CollNode) : Keeps 0x120000000000000000000000000000000000000000000000000000000000000001800000000000 s (State.takeSpill s n) := by
  unfold State.takeSpill
  repeat' first
    | with_reducible exact .refl _
    | with_reducible assumption
    | (extract_lets +onlyGivenNames y_; refine Keeps.cut (y := y_) ?_ ?_; rotate_left; clear_value y_; intro _; rotate_left; dsimp -iota only [y_]; clear y_)
    | exact rfl
    | with_reducible intro _
    | with_reducible refine .ite ?_ ?_
    | with_reducible refine (State.showSlots_keeps _).trans ?_ ?_
    | with_reducible refine (State.modNode_keeps _ _ _).trans ?_ ?_
    | with_reducible refine (State.modRun_keeps _ _ _ _).trans ?_ ?_
    | with_reducible refine (State.bump_keeps _ _ _ _ ?_).trans (sub_self _) ?_
    | with_reducible refine .foldl _ ?_ ?_
    | split
    | dsimp -iota only

theorem State.dropNode_keeps (s : State) (n : CollNode) (till : Option Wb) : Keeps 0x100000000000000000000000000000000000000000000000000000000000000000800000000000 s (State.dropNode s n till) := by
  unfold State.dropNode
  repeat' first
    | with_reducible exact .refl _
    | with_reducible assumption
    | (extract_lets +onlyGivenNames y_; refine Keeps.cut (y := y_) ?_ ?_; rotate_left; clear_value y_; intro _; rotate_left; dsimp -iota only [y_]; clear y_)
    | exact rfl
    | with_reducible intro _
    | with_reducible refine .ite ?_ ?_
    | with_reducible refine (State.showSlots_keeps _).trans ?_ ?_
    | split
    | dsimp -iota only
    | with_reducible apply Keeps.upd rfl
    | exact Or.inl rfl
    | exact Or.inr rfl

theorem State.chunkUpd_keeps (s : State) (n : CollNode) (dst c : Nat) (f : CollChunk → CollChunk) : Keeps 0x100000000000000000000000000000000000000000000000000000000000000000000000000000 s (State.chunkUpd s n dst c f) := by
  unfold State.chunkUpd
  repeat' first
    | with_reducible exact .refl _
    | with_reducible assumption
    | exact rfl
    | with_reducible intro _
    | with_reducible refine .ite ?_ ?_
    | with_reducible refine (State.modNode_keeps _ _ _).trans ?_ ?_
    | split

theorem State.sendGrant_keeps (s : State) (n : CollNode) (chip unit ctx epoch arg : Nat) (chunk : BitVec 32) (src dst : Nat) : Keeps 0x4000412000000000000000000000000000000000000000000000000000000000000000000000880000 s (State.sendGrant s n chip unit ctx epoch arg chunk src dst) := by
  unfold State.sendGrant
  repeat' first
    | with_reducible exact .refl _
    | with_reducible assumption
    | (extract_lets +onlyGivenNames y_; refine Keeps.cut (y := y_) ?_ ?_; rotate_left; clear_value y_; intro _; rotate_left; dsimp -iota only [y_]; clear y_)
    | exact rfl
    | with_reducible intro _
    | with_reducible refine .ite ?_ ?_
    | with_reducible refine (State.source_keeps _ _ _ _).trans ?_ ?_
    | split
    | dsimp -iota only

theorem State.sendUp_keeps (s : State) (n : CollNode) (handle num : Nat) (codes slipped abort : Bool) (residue src dst : Nat) (bs : List Byte) : Keeps 0x4000412000000000000000000000000000000000000000000000000000000000000000000000880000 s (State.sendUp s n handle num codes slipped abort residue src dst bs) := by
  unfold State.sendUp
  repeat' first
    | with_reducible exact .refl _
    | with_reducible assumption
    | (extract_lets +onlyGivenNames y_; refine Keeps.cut (y := y_) ?_ ?_; rotate_left; clear_value y_; intro _; rotate_left; dsimp -iota only [y_]; clear y_)
    | exact rfl
    | with_reducible intro _
    | with_reducible refine .ite ?_ ?_
    | with_reducible refine (State.source_keeps _ _ _ _).trans ?_ ?_
    | with_reducible refine .foldl _ ?_ ?_
    | split
    | dsimp -iota only

theorem State.endAtChunk_keeps (s : State) (q i chunk st : Nat) : Keeps 0x20000000000000000000000000000000000000000000000000000000000000000000000000000 s (State.endAtChunk s q i chunk st) := by
  unfold State.endAtChunk
  repeat' first
    | with_reducible exact .refl _
    | with_reducible assumption
    | exact rfl
    | with_reducible intro _
    | with_reducible refine .ite ?_ ?_
    | with_reducible refine (State.modRun_keeps _ _ _ _).trans ?_ ?_
    | split

theorem State.sendResult_keeps (s : State) (n : CollNode) (m : CollMember) (num at' len addr : Nat) (slipped spilled last : Bool) (bs : List Byte) : Keeps 0x4000412000000000000000000000000000000000000000000000000000000000000000000000880000 s (State.sendResult s n m num at' len addr slipped spilled last bs) := by
  unfold State.sendResult
  repeat' first
    | with_reducible exact .refl _
    | with_reducible assumption
    | (extract_lets +onlyGivenNames y_; refine Keeps.cut (y := y_) ?_ ?_; rotate_left; clear_value y_; intro _; rotate_left; dsimp -iota only [y_]; clear y_)
    | exact rfl
    | with_reducible intro _
    | with_reducible refine .ite ?_ ?_
    | with_reducible refine (State.source_keeps _ _ _ _).trans ?_ ?_
    | with_reducible refine .foldl _ ?_ ?_
    | split
    | dsimp -iota only

end Sys2Proof.Machine
end

