-- ==== Sys2Proof/Laws/KeepsStreamer.lean ====
section
/-! SUPPORT. Sys2Proof/Laws/KeepsStreamer.lean: what each operation of Machine/Streamer.lean leaves alone. -/

namespace Sys2Proof.Machine

theorem State.setChS_keeps (s : State) (n : Nat) (c : ChainS) : Keeps 0x80000000000000000000000000000000000000000000000000000000000000000000000000000 s (State.setChS s n c) := by
  unfold State.setChS
  repeat' first
    | with_reducible exact .refl _
    | with_reducible assumption
    | exact rfl
    | with_reducible intro _
    | with_reducible refine .ite ?_ ?_
    | split
    | with_reducible apply Keeps.upd rfl
    | exact Or.inl rfl
    | exact Or.inr rfl

theorem State.modChS_keeps (s : State) (n : Nat) (f : ChainS → ChainS) : Keeps 0x80000000000000000000000000000000000000000000000000000000000000000000000000000 s (State.modChS s n f) := by
  unfold State.modChS
  repeat' first
    | with_reducible exact .refl _
    | with_reducible assumption
    | exact rfl
    | with_reducible intro _
    | with_reducible refine .ite ?_ ?_
    | with_reducible refine (State.setChS_keeps _ _ _).trans ?_ ?_
    | split

theorem State.recordS_keeps (s : State) (n status : Nat) (isFence isPartial : Bool) : Keeps 0x4000800000000000000000000000000000000000000000000000000000000080000000000000000000 s (State.recordS s n status isFence isPartial) := by
  unfold State.recordS
  repeat' first
    | with_reducible exact .refl _
    | with_reducible assumption
    | (extract_lets +onlyGivenNames y_; refine Keeps.cut (y := y_) ?_ ?_; rotate_left; clear_value y_; intro _; rotate_left; dsimp -iota only [y_]; clear y_)
    | exact rfl
    | with_reducible intro _
    | with_reducible refine .ite ?_ ?_
    | with_reducible refine (State.writeMem_keeps _ _ _).trans ?_ ?_
    | with_reducible refine (State.emit_keeps _ _).trans ?_ ?_
    | with_reducible refine (State.setFld_keeps _ _ _ _ ?_).trans (sub_self _) ?_
    | split
    | dsimp -iota only

theorem State.endS_keeps (s : State) (n status : Nat) : Keeps 0x40008800000000000000000000000000000000000000000000000000000000a4000000000000000000 s (State.endS s n status) := by
  unfold State.endS
  repeat' first
    | with_reducible exact .refl _
    | with_reducible assumption
    | (extract_lets +onlyGivenNames y_; refine Keeps.cut (y := y_) ?_ ?_; rotate_left; clear_value y_; intro _; rotate_left; dsimp -iota only [y_]; clear y_)
    | exact rfl
    | with_reducible intro _
    | with_reducible refine .ite ?_ ?_
    | with_reducible refine (State.recordS_keeps _ _ _ _ _).trans ?_ ?_
    | with_reducible refine (State.modChS_keeps _ _ _).trans ?_ ?_
    | with_reducible refine (State.setFld_keeps _ _ _ _ ?_).trans (sub_self _) ?_
    | split
    | dsimp -iota only
    | with_reducible apply Keeps.upd rfl
    | exact Or.inl rfl
    | exact Or.inr rfl

theorem State.settleS_keeps (s : State) (n fuel : Nat) : Keeps 0x4000880000000000000000000000000000000000000000000000000000000080000000000000000000 s (s.settleS n fuel) := by
  induction fuel generalizing s with
  | zero => exact .refl _
  | succ n_ ih =>
    unfold State.settleS
    repeat' first
      | with_reducible exact .refl _
      | exact rfl
      | intro _
      | with_reducible refine .ite ?_ ?_
      | with_reducible refine (ih _).trans (sub_self _) ?_
      | with_reducible refine (State.recordS_keeps _ _ _ _ _).trans ?_ ?_
      | with_reducible refine (State.modChS_keeps _ _ _).trans ?_ ?_
      | split
      | dsimp only

theorem State.hostAsk_keeps (s : State) (space chan kind pos num addr len : Nat) (data : List Byte) : Keeps 0x4080000000000000000000000000000000000000000000000000000000000000000000000000000000 s (State.hostAsk s space chan kind pos num addr len data) := by
  unfold State.hostAsk
  repeat' first
    | with_reducible exact .refl _
    | with_reducible assumption
    | (extract_lets +onlyGivenNames y_; refine Keeps.cut (y := y_) ?_ ?_; rotate_left; clear_value y_; intro _; rotate_left; dsimp -iota only [y_]; clear y_)
    | exact rfl
    | with_reducible intro _
    | with_reducible refine .ite ?_ ?_
    | with_reducible refine (State.antQueue_keeps _ _ _ _).trans ?_ ?_
    | with_reducible refine (State.setAnt_keeps _ _ _).trans ?_ ?_
    | split
    | dsimp -iota only

theorem State.localWrite_keeps (s : State) (d : Desc) (addr : Nat) (bs : List Byte) : Keeps 0x840000000000000000000000000000000000000000000000000000000000000000000000000000 s (State.localWrite s d addr bs).1 := by
  generalize hx : State.localWrite s d addr bs = x
  rw [State.localWrite] at hx
  split at hx
  · split at hx
    · subst hx; exact (State.writeMem_keeps _ _ _).trans rfl (.refl _)
    · subst hx; exact .refl _
  · have hk := State.storeOwn_keeps s (d.ctx % 4096) (addrOffset addr) bs
    generalize State.storeOwn s (d.ctx % 4096) (addrOffset addr) bs = y at hx hk
    obtain ⟨t, st⟩ := y
    subst hx
    exact Keeps.trans (t := t) hk rfl (.refl s)

theorem State.gotDescS_keeps (s : State) (n addr : Nat) (b : List Byte) : Keeps 0x40008800000000000000000000000000000000000000000000000000000000a4000000000000000000 s (State.gotDescS s n addr b) := by
  unfold State.gotDescS
  repeat' first
    | with_reducible exact .refl _
    | with_reducible assumption
    | (extract_lets +onlyGivenNames y_; refine Keeps.cut (y := y_) ?_ ?_; rotate_left; clear_value y_; intro _; rotate_left; dsimp -iota only [y_]; clear y_)
    | exact rfl
    | with_reducible intro _
    | with_reducible refine .ite ?_ ?_
    | with_reducible refine (State.endS_keeps _ _ _).trans ?_ ?_
    | with_reducible refine (State.setChS_keeps _ _ _).trans ?_ ?_
    | split
    | dsimp -iota only

theorem State.finishS_keeps (s : State) (n : Nat) (d : Desc) : Keeps 0x40808800000000000000000000000000000000000000000000000000014000a0000000000000000000 s (State.finishS s n d) := by
  unfold State.finishS
  repeat' first
    | with_reducible exact .refl _
    | with_reducible assumption
    | (extract_lets +onlyGivenNames y_; refine Keeps.cut (y := y_) ?_ ?_; rotate_left; clear_value y_; intro _; rotate_left; dsimp -iota only [y_]; clear y_)
    | exact rfl
    | with_reducible intro _
    | with_reducible refine .ite ?_ ?_
    | with_reducible refine (State.recordS_keeps _ _ _ _ _).trans ?_ ?_
    | with_reducible refine (State.modChS_keeps _ _ _).trans ?_ ?_
    | with_reducible refine (State.ring_keeps _ _ _).trans ?_ ?_
    | with_reducible refine (State.setFld_keeps _ _ _ _ ?_).trans (sub_self _) ?_
    | split
    | dsimp -iota only

theorem State.pieceS_keeps (s : State) (n : Nat) (d : Desc) (o len : Nat) (bs : List Byte) : KeepsO 0x40808c00000000000000000000000000000000000000000000000000000000a4000000000000000000 s (State.pieceS s n d o len bs) := by
  unfold State.pieceS
  repeat' first
    | (extract_lets +onlyGivenNames y_; refine KeepsO.cut (y := y_) ?_ ?_; rotate_left; clear_value y_; intro _; rotate_left; dsimp -iota only [y_]; clear y_)
    | with_reducible exact KeepsO.absent
    | with_reducible refine KeepsO.ite ?_ ?_
    | with_reducible refine KeepsO.given ?_
    | with_reducible refine KeepsO.map ?_ ?_
    | with_reducible refine KeepsO.mapped ?_
    | with_reducible exact .refl _
    | with_reducible assumption
    | (extract_lets +onlyGivenNames y_; refine Keeps.cut (y := y_) ?_ ?_; rotate_left; clear_value y_; intro _; rotate_left; dsimp -iota only [y_]; clear y_)
    | exact rfl
    | with_reducible intro _
    | with_reducible refine .ite ?_ ?_
    | with_reducible refine (State.localWrite_keeps _ _ _ _).trans ?_ ?_
    | with_reducible refine (Keeps.fst (State.localWrite_keeps _ _ _ _) ‹_›).trans ?_ ?_
    | with_reducible refine (State.hostAsk_keeps _ _ _ _ _ _ _ _ _).trans ?_ ?_
    | with_reducible refine (State.endS_keeps _ _ _).trans ?_ ?_
    | with_reducible refine (State.modChS_keeps _ _ _).trans ?_ ?_
    | split
    | dsimp -iota only

theorem State.actS_keeps (s : State) (n : Nat) : KeepsO 0x40808c00000000000000000000000000000000000000000000000000014000a4000000000000000000 s (State.actS s n) := by
  unfold State.actS
  repeat' first
    | (extract_lets +onlyGivenNames y_; refine KeepsO.cut (y := y_) ?_ ?_; rotate_left; clear_value y_; intro _; rotate_left; dsimp -iota only [y_]; clear y_)
    | with_reducible exact KeepsO.absent
    | with_reducible refine KeepsO.ite ?_ ?_
    | with_reducible refine KeepsO.given ?_
    | with_reducible refine KeepsO.map ?_ ?_
    | with_reducible refine KeepsO.mapped ?_
    | with_reducible exact .refl _
    | with_reducible assumption
    | (extract_lets +onlyGivenNames y_; refine Keeps.cut (y := y_) ?_ ?_; rotate_left; clear_value y_; intro _; rotate_left; dsimp -iota only [y_]; clear y_)
    | exact rfl
    | with_reducible intro _
    | with_reducible refine .ite ?_ ?_
    | with_reducible refine KeepsO.trans (State.pieceS_keeps _ _ _ _ _ _) ?_ ?_
    | with_reducible refine Keeps.trans ((State.pieceS_keeps _ _ _ _ _ _).get ‹_›) ?_ ?_
    | with_reducible refine (State.finishS_keeps _ _ _).trans ?_ ?_
    | with_reducible refine (State.gotDescS_keeps _ _ _ _).trans ?_ ?_
    | with_reducible refine (State.hostAsk_keeps _ _ _ _ _ _ _ _ _).trans ?_ ?_
    | with_reducible refine (State.endS_keeps _ _ _).trans ?_ ?_
    | with_reducible refine (State.modChS_keeps _ _ _).trans ?_ ?_
    | with_reducible refine (State.setFld_keeps _ _ _ _ ?_).trans (sub_self _) ?_
    | split
    | dsimp -iota only
    | with_reducible apply Keeps.upd rfl
    | exact Or.inl rfl
    | exact Or.inr rfl

theorem State.runS_keeps (s : State) (n fuel : Nat) : Keeps 0x40808c00000000000000000000000000000000000000000000000000014000a4000000000000000000 s (State.runS s n fuel) := by
  induction fuel generalizing s with
  | zero => exact .refl _
  | succ k ih =>
    unfold State.runS
    split
    · split
      · exact (ih _).trans (sub_self _) (((State.actS_keeps _ _).get ‹_›).trans rfl (.refl _))
      · exact .refl _
    · exact .refl _

theorem State.serveS_keeps (s : State) : Keeps 0x40808c00000000000000000000000000000000000000000000000000014000a4000000000000000000 s (State.serveS s) := by
  unfold State.serveS
  repeat' first
    | with_reducible exact .refl _
    | with_reducible assumption
    | (extract_lets +onlyGivenNames y_; refine Keeps.cut (y := y_) ?_ ?_; rotate_left; clear_value y_; intro _; rotate_left; dsimp -iota only [y_]; clear y_)
    | exact rfl
    | with_reducible intro _
    | with_reducible refine .ite ?_ ?_
    | with_reducible refine (State.runS_keeps _ _ _).trans ?_ ?_
    | with_reducible refine (State.setFld_keeps _ _ _ _ ?_).trans (sub_self _) ?_
    | split
    | dsimp -iota only
    | with_reducible apply Keeps.upd rfl
    | exact Or.inl rfl
    | exact Or.inr rfl

theorem State.ownS_keeps {m : Nat} (s : State) (owner n : Nat) (f : State → State × Nat × Word) (h : Keeps m s (f s).1) :
    Keeps m s (s.ownS owner n f).1 := Keeps.ite1 (fun _ => .refl s) (fun _ => h)

theorem State.goS_keeps (s : State) (owner n : Nat) : Keeps 0x80000000000000000000000000000000000000000000000000000000020000000000000000000 s (State.goS s owner n).1 := by
  unfold State.goS
  repeat' first
    | with_reducible exact .refl _
    | with_reducible assumption
    | (extract_lets +onlyGivenNames y_; refine Keeps.cut (y := y_) ?_ ?_; rotate_left; clear_value y_; intro _; rotate_left; dsimp -iota only [y_]; clear y_)
    | exact rfl
    | with_reducible intro _
    | with_reducible refine .ite ?_ ?_
    | with_reducible refine .ite1 ?_ ?_
    | with_reducible refine (State.ownS_keeps _ _ _ _ ?_).trans (sub_self _) ?_
    | with_reducible refine (Keeps.fst (State.ownS_keeps _ _ _ _ ?_) ‹_›).trans (sub_self _) ?_
    | with_reducible refine (State.modChS_keeps _ _ _).trans ?_ ?_
    | with_reducible refine (State.setFld_keeps _ _ _ _ ?_).trans (sub_self _) ?_
    | split
    | dsimp -iota only

theorem State.stopS_keeps (s : State) (owner n : Nat) : Keeps 0x40008800000000000000000000000000000000000000000000000000000000a4000000000000000000 s (State.stopS s owner n).1 := by
  unfold State.stopS
  repeat' first
    | with_reducible exact .refl _
    | with_reducible assumption
    | exact rfl
    | with_reducible intro _
    | with_reducible refine .ite ?_ ?_
    | with_reducible refine .ite1 ?_ ?_
    | with_reducible refine (State.ownS_keeps _ _ _ _ ?_).trans (sub_self _) ?_
    | with_reducible refine (Keeps.fst (State.ownS_keeps _ _ _ _ ?_) ‹_›).trans (sub_self _) ?_
    | with_reducible refine (State.endS_keeps _ _ _).trans ?_ ?_
    | with_reducible refine (State.modChS_keeps _ _ _).trans ?_ ?_
    | with_reducible refine (State.setFld_keeps _ _ _ _ ?_).trans (sub_self _) ?_
    | split

theorem State.fenceS_keeps (s : State) (owner n : Nat) : Keeps 0x4000880000000000000000000000000000000000000000000000000000000080000000000000000000 s (State.fenceS s owner n).1 := by
  unfold State.fenceS
  repeat' first
    | with_reducible exact .refl _
    | with_reducible assumption
    | (extract_lets +onlyGivenNames y_; refine Keeps.cut (y := y_) ?_ ?_; rotate_left; clear_value y_; intro _; rotate_left; dsimp -iota only [y_]; clear y_)
    | exact rfl
    | with_reducible intro _
    | with_reducible refine .ite ?_ ?_
    | with_reducible refine .ite1 ?_ ?_
    | with_reducible refine (State.ownS_keeps _ _ _ _ ?_).trans (sub_self _) ?_
    | with_reducible refine (Keeps.fst (State.ownS_keeps _ _ _ _ ?_) ‹_›).trans (sub_self _) ?_
    | with_reducible refine (State.settleS_keeps _ _ _).trans ?_ ?_
    | with_reducible refine (State.modChS_keeps _ _ _).trans ?_ ?_
    | split
    | dsimp -iota only

theorem execAtsGo_keeps (owner : Owner) (chan : Fin 16) (s : State) {z_ : State} (h_ : execAtsGo owner chan s = .next z_) : Keeps 0x4000080000000000000000000000000000000000000000000000000000000020000000000000000000 s z_ := by
  unfold execAtsGo at h_
  refine accessBy_keeps h_ rfl ?_
  repeat' first
    | with_reducible exact .refl _
    | with_reducible assumption
    | exact rfl
    | with_reducible intro _
    | with_reducible refine .ite ?_ ?_
    | with_reducible refine (State.goS_keeps _ _ _).trans ?_ ?_
    | with_reducible refine (Keeps.fst (State.goS_keeps _ _ _) ‹_›).trans ?_ ?_
    | split

theorem execAtsStop_keeps (owner : Owner) (chan : Fin 16) (s : State) {z_ : State} (h_ : execAtsStop owner chan s = .next z_) : Keeps 0x40008800000000000000000000000000000000000000000000000000000000a4000000000000000000 s z_ := by
  unfold execAtsStop at h_
  refine accessBy_keeps h_ rfl ?_
  repeat' first
    | with_reducible exact .refl _
    | with_reducible assumption
    | exact rfl
    | with_reducible intro _
    | with_reducible refine .ite ?_ ?_
    | with_reducible refine (State.stopS_keeps _ _ _).trans ?_ ?_
    | with_reducible refine (Keeps.fst (State.stopS_keeps _ _ _) ‹_›).trans ?_ ?_
    | split

theorem execAtsFence_keeps (owner : Owner) (chan : Fin 16) (s : State) {z_ : State} (h_ : execAtsFence owner chan s = .next z_) : Keeps 0x4000880000000000000000000000000000000000000000000000000000000080000000000000000000 s z_ := by
  unfold execAtsFence at h_
  refine accessBy_keeps h_ rfl ?_
  repeat' first
    | with_reducible exact .refl _
    | with_reducible assumption
    | exact rfl
    | with_reducible intro _
    | with_reducible refine .ite ?_ ?_
    | with_reducible refine (State.fenceS_keeps _ _ _).trans ?_ ?_
    | with_reducible refine (Keeps.fst (State.fenceS_keeps _ _ _) ‹_›).trans ?_ ?_
    | split

theorem execAtsChannelServe_keeps (s : State) {z_ : State} (h_ : execAtsChannelServe s = .next z_) : Keeps 0x40808c00000000000000000000000000000000000000000000000000014000a4000000000000000000 s z_ := by
  unfold execAtsChannelServe at h_
  refine act_keeps h_ ?_
  repeat' first
    | with_reducible exact .refl _
    | with_reducible assumption
    | exact rfl
    | with_reducible intro _
    | with_reducible refine .ite ?_ ?_
    | with_reducible refine (State.serveS_keeps _).trans ?_ ?_
    | split

theorem execAtsRingRoom_keeps (chan : Fin 16) (s : State) {z_ : State} (h_ : execAtsRingRoom chan s = .next z_) : Keeps 0x40808c00000000000000000000000000000000000000000000000000014000a4000000000000000000 s z_ := by
  unfold execAtsRingRoom at h_
  refine act_keeps h_ ?_
  repeat' first
    | with_reducible exact .refl _
    | with_reducible assumption
    | (extract_lets +onlyGivenNames y_; refine Keeps.cut (y := y_) ?_ ?_; rotate_left; clear_value y_; intro _; rotate_left; dsimp -iota only [y_]; clear y_)
    | exact rfl
    | with_reducible intro _
    | with_reducible refine .ite ?_ ?_
    | with_reducible refine (State.serveS_keeps _).trans ?_ ?_
    | with_reducible refine (State.setFld_keeps _ _ _ _ ?_).trans (sub_self _) ?_
    | split
    | dsimp -iota only

theorem execAtsChLockRead_keeps (owner : Owner) (chan : Fin 16) (s : State) {z_ : State} (h_ : execAtsChLockRead owner chan s = .next z_) : Keeps 0x4000000000000000000000000000000000000000000000000000000000000004000000000000000000 s z_ := by
  unfold execAtsChLockRead at h_
  refine accessBy_keeps h_ rfl ?_
  repeat' first
    | with_reducible exact .refl _
    | with_reducible assumption
    | exact rfl
    | with_reducible intro _
    | with_reducible refine .ite ?_ ?_
    | with_reducible refine (State.claim_keeps _ _ _ _ ?_).trans (sub_self _) ?_
    | with_reducible refine (Keeps.fst (State.claim_keeps _ _ _ _ ?_) ‹_›).trans (sub_self _) ?_
    | split

theorem execAtsChLockRelease_keeps (owner : Owner) (chan : Fin 16) (value : Word) (s : State) {z_ : State} (h_ : execAtsChLockRelease owner chan value s = .next z_) : Keeps 0x4000000000000000000000000000000000000000000000000000000000000004000000000000000000 s z_ := by
  unfold execAtsChLockRelease at h_
  refine accessBy_keeps h_ rfl ?_
  repeat' first
    | with_reducible exact .refl _
    | with_reducible assumption
    | exact rfl
    | with_reducible intro _
    | with_reducible refine .ite ?_ ?_
    | with_reducible refine (State.release_keeps _ _ _ _ ?_).trans (sub_self _) ?_
    | with_reducible refine (Keeps.fst (State.release_keeps _ _ _ _ ?_) ‹_›).trans (sub_self _) ?_
    | split

theorem State.hostAnswer_keeps (s : State) (a : Nat) (f : AntFrame) : Keeps 0x40808c00000000000000000000000000000000000000000000000000014000a4000000000000000000 s (State.hostAnswer s a f) := by
  unfold State.hostAnswer
  split
  · exact .refl _
  · extract_lets s1 n c live s2' s2 s3
    have h1 : Keeps 0x40808c00000000000000000000000000000000000000000000000000014000a4000000000000000000 s s1 := (State.modAnt_keeps _ _ _).trans rfl (.refl _)
    have h2 : Keeps 0x40808c00000000000000000000000000000000000000000000000000014000a4000000000000000000 s s2' := .ite (fun _ => (State.modChS_keeps _ _ _).trans rfl h1) fun _ => h1
    have h3 : Keeps 0x40808c00000000000000000000000000000000000000000000000000014000a4000000000000000000 s s2 := by
      refine .ite (fun _ => .ite (fun _ => h2) fun _ => .ite (fun _ => (State.endS_keeps _ _ _).trans rfl h2) fun _ => (State.modChS_keeps _ _ _).trans rfl h2) fun _ => ?_
      refine .ite (fun _ => h1) fun _ => .ite (fun _ => ?_) fun _ => .ite (fun _ => (State.modChS_keeps _ _ _).trans rfl h1) fun _ => h1
      split
      · exact .ite (fun _ => (State.gotDescS_keeps _ _ _ _).trans rfl h1) fun _ => h1
      · exact h1
    have h4 : Keeps 0x40808c00000000000000000000000000000000000000000000000000014000a4000000000000000000 s s3 := (State.settleS_keeps _ _ _).trans rfl h3
    clear_value s1 n c live s2' s2 s3
    exact .ite (fun _ => (State.runS_keeps _ _ _).trans rfl h4) fun _ => h4

theorem execHostResponseReceive_keeps (port : Antenna) (good : Bool) (f : AntFrame) (s : State) {z_ : State} (h_ : execHostResponseReceive port good f s = .next z_) : Keeps 0x40808c00000000000000000000000000000000000000000000000000114000a4000000000000000000 s z_ := by
  unfold execHostResponseReceive at h_
  refine act_keeps h_ ?_
  repeat' first
    | with_reducible exact .refl _
    | with_reducible assumption
    | exact rfl
    | with_reducible intro _
    | with_reducible refine .ite ?_ ?_
    | with_reducible refine (State.hostAnswer_keeps _ _ _).trans ?_ ?_
    | with_reducible refine (State.antReceive_keeps _ _ _ _ _ ?_ ?_).trans (sub_self _) ?_
    | split

theorem State.hostLost_keeps (s : State) (a : Nat) : Keeps 0x40808800000000000000000000000000000000000000000000000000000000a4000000000000000000 s (State.hostLost s a) := by
  unfold State.hostLost
  repeat' first
    | with_reducible exact .refl _
    | with_reducible assumption
    | (extract_lets +onlyGivenNames y_; refine Keeps.cut (y := y_) ?_ ?_; rotate_left; clear_value y_; intro _; rotate_left; dsimp -iota only [y_]; clear y_)
    | exact rfl
    | with_reducible intro _
    | with_reducible refine .ite ?_ ?_
    | with_reducible refine (State.settleS_keeps _ _ _).trans ?_ ?_
    | with_reducible refine (State.endS_keeps _ _ _).trans ?_ ?_
    | with_reducible refine (State.modChS_keeps _ _ _).trans ?_ ?_
    | with_reducible refine (State.modAnt_keeps _ _ _).trans ?_ ?_
    | with_reducible refine .foldl _ ?_ ?_
    | split
    | dsimp -iota only

end Sys2Proof.Machine
end

