-- ==== Sys2Proof/Laws/KeepsAntenna.lean ====
section
/-! SUPPORT. Sys2Proof/Laws/KeepsAntenna.lean: what each operation of Machine/Antenna.lean leaves alone. -/

namespace Sys2Proof.Machine

theorem State.antFresh_keeps (s : State) (a : Nat) : Keeps 0x80000000000000000000000000000000000000000000000000000000000000000000000000000000 s (State.antFresh s a) := by
  unfold State.antFresh
  repeat' first
    | with_reducible exact .refl _
    | with_reducible assumption
    | exact rfl
    | with_reducible intro _
    | with_reducible refine .ite ?_ ?_
    | with_reducible refine (State.modAnt_keeps _ _ _).trans ?_ ?_
    | split

theorem State.antGo_keeps (s : State) (a state : Nat) : Keeps 0x40808800000000000000000000000000000000000000000000400000197f00a4000000000000000000 s (State.antGo s a state) := by
  unfold State.antGo
  repeat' first
    | with_reducible exact .refl _
    | with_reducible assumption
    | (extract_lets +onlyGivenNames y_; refine Keeps.cut (y := y_) ?_ ?_; rotate_left; clear_value y_; intro _; rotate_left; dsimp -iota only [y_]; clear y_)
    | exact rfl
    | with_reducible intro _
    | with_reducible refine .ite ?_ ?_
    | with_reducible refine (State.antFresh_keeps _ _).trans ?_ ?_
    | with_reducible refine (State.hostLost_keeps _ _).trans ?_ ?_
    | with_reducible refine (State.ownerRestart_keeps _ _).trans ?_ ?_
    | with_reducible refine (State.setFld_keeps _ _ _ _ ?_).trans (sub_self _) ?_
    | with_reducible refine (State.bump_keeps _ _ _ _ ?_).trans (sub_self _) ?_
    | split
    | dsimp -iota only

theorem State.antEnterUp_keeps (s : State) (a : Nat) : Keeps 0x4280000000000000000000000000000000000000000000000000000008000000000000000000000000 s (State.antEnterUp s a) := by
  unfold State.antEnterUp
  repeat' first
    | with_reducible exact .refl _
    | with_reducible assumption
    | (extract_lets +onlyGivenNames y_; refine Keeps.cut (y := y_) ?_ ?_; rotate_left; clear_value y_; intro _; rotate_left; dsimp -iota only [y_]; clear y_)
    | exact rfl
    | with_reducible intro _
    | with_reducible refine .ite ?_ ?_
    | with_reducible refine (State.sendBell_keeps _ _).trans ?_ ?_
    | with_reducible refine (State.modAnt_keeps _ _ _).trans ?_ ?_
    | with_reducible refine (State.setFld_keeps _ _ _ _ ?_).trans (sub_self _) ?_
    | split
    | dsimp -iota only
    | with_reducible apply Keeps.upd rfl
    | exact Or.inl rfl
    | exact Or.inr rfl

theorem State.antCheckUp_keeps (s : State) (a : Nat) : Keeps 0x4280000000000000000000000000000000000000000000000000000008000000000000000000000000 s (State.antCheckUp s a) := by
  unfold State.antCheckUp
  repeat' first
    | with_reducible exact .refl _
    | with_reducible assumption
    | (extract_lets +onlyGivenNames y_; refine Keeps.cut (y := y_) ?_ ?_; rotate_left; clear_value y_; intro _; rotate_left; dsimp -iota only [y_]; clear y_)
    | exact rfl
    | with_reducible intro _
    | with_reducible refine .ite ?_ ?_
    | with_reducible refine (State.antEnterUp_keeps _ _).trans ?_ ?_
    | split
    | dsimp -iota only

theorem execAntSignalDetect_keeps (port : Antenna) (s : State) {z_ : State} (h_ : execAntSignalDetect port s = .next z_) : Keeps 0x40808800000000000000000000000000000000000000000000400000197f00a4000000000000000000 s z_ := by
  unfold execAntSignalDetect at h_
  refine actAnt_keeps h_ ?_
  repeat' first
    | with_reducible exact .refl _
    | with_reducible assumption
    | exact rfl
    | with_reducible intro _
    | with_reducible refine .ite ?_ ?_
    | with_reducible refine (State.antGo_keeps _ _ _).trans ?_ ?_
    | split

theorem execAntFecAlign_keeps (port : Antenna) (s : State) {z_ : State} (h_ : execAntFecAlign port s = .next z_) : Keeps 0x40808800000000000000000000000000000000000000000000400000197f00a4000000000000000000 s z_ := by
  unfold execAntFecAlign at h_
  refine actAnt_keeps h_ ?_
  repeat' first
    | with_reducible exact .refl _
    | with_reducible assumption
    | exact rfl
    | with_reducible intro _
    | with_reducible refine .ite ?_ ?_
    | with_reducible refine (State.antGo_keeps _ _ _).trans ?_ ?_
    | with_reducible refine (State.setFld_keeps _ _ _ _ ?_).trans (sub_self _) ?_
    | split

theorem execAntTrainTimeout_keeps (port : Antenna) (s : State) {z_ : State} (h_ : execAntTrainTimeout port s = .next z_) : Keeps 0x40808800000000000000000000000000000000000000000000400000197f00a4000000000000000000 s z_ := by
  unfold execAntTrainTimeout at h_
  refine actAnt_keeps h_ ?_
  repeat' first
    | with_reducible exact .refl _
    | with_reducible assumption
    | (extract_lets +onlyGivenNames y_; refine Keeps.cut (y := y_) ?_ ?_; rotate_left; clear_value y_; intro _; rotate_left; dsimp -iota only [y_]; clear y_)
    | exact rfl
    | with_reducible intro _
    | with_reducible refine .ite ?_ ?_
    | with_reducible refine (State.antGo_keeps _ _ _).trans ?_ ?_
    | with_reducible refine (State.setFld_keeps _ _ _ _ ?_).trans (sub_self _) ?_
    | split
    | dsimp -iota only

theorem execAntLoss_keeps (port : Antenna) (lanes : Fin 16) (s : State) {z_ : State} (h_ : execAntLoss port lanes s = .next z_) : Keeps 0x40808800000000000000000000000000000000000000000000400000197f00a4000000000000000000 s z_ := by
  unfold execAntLoss at h_
  refine actAnt_keeps h_ ?_
  repeat' first
    | with_reducible exact .refl _
    | with_reducible assumption
    | exact rfl
    | with_reducible intro _
    | with_reducible refine .ite ?_ ?_
    | with_reducible refine (State.antGo_keeps _ _ _).trans ?_ ?_
    | with_reducible refine (State.setFld_keeps _ _ _ _ ?_).trans (sub_self _) ?_
    | split

theorem State.antRetrain_keeps (s : State) (a : Nat) : Keeps 0x40808800000000000000000000000000000000000000000000400000197f00a4000000000000000000 s (State.antRetrain s a) := by
  unfold State.antRetrain
  repeat' first
    | with_reducible exact .refl _
    | with_reducible assumption
    | exact rfl
    | with_reducible intro _
    | with_reducible refine .ite ?_ ?_
    | with_reducible refine (State.antGo_keeps _ _ _).trans ?_ ?_
    | with_reducible refine (State.setFld_keeps _ _ _ _ ?_).trans (sub_self _) ?_
    | split

theorem execAntRetrain_keeps (owner : Owner) (port : Antenna) (s : State) {z_ : State} (h_ : execAntRetrain owner port s = .next z_) : Keeps 0x40808800000000000000000000000000000000000000000000400000197f00a4000000000000000000 s z_ := by
  unfold execAntRetrain at h_
  refine accessBy_keeps h_ rfl ?_
  repeat' first
    | with_reducible exact .refl _
    | with_reducible assumption
    | exact rfl
    | with_reducible intro _
    | with_reducible refine .ite ?_ ?_
    | with_reducible refine (State.antRetrain_keeps _ _).trans ?_ ?_
    | split

theorem execAntInitSend_keeps (port : Antenna) (s : State) {z_ : State} (h_ : execAntInitSend port s = .next z_) : Keeps 0x4280000000000000000000000000000000000000000000000000000008000000000000000000000000 s z_ := by
  unfold execAntInitSend at h_
  refine actAnt_keeps h_ ?_
  repeat' first
    | with_reducible exact .refl _
    | with_reducible assumption
    | (extract_lets +onlyGivenNames y_; refine Keeps.cut (y := y_) ?_ ?_; rotate_left; clear_value y_; intro _; rotate_left; dsimp -iota only [y_]; clear y_)
    | exact rfl
    | with_reducible intro _
    | with_reducible refine .ite ?_ ?_
    | with_reducible refine (State.antCheckUp_keeps _ _).trans ?_ ?_
    | with_reducible refine (State.antEmit_keeps _ _ _).trans ?_ ?_
    | with_reducible refine (State.modAnt_keeps _ _ _).trans ?_ ?_
    | split
    | dsimp -iota only

theorem execAntInitReceive_keeps (port : Antenna) (good ack : Bool) (role version maxOut : Fin 256) (s : State) {z_ : State} (h_ : execAntInitReceive port good ack role version maxOut s = .next z_) : Keeps 0x42808800000000000000000000000000000000000000000000400000197f00a4000000000000000000 s z_ := by
  unfold execAntInitReceive at h_
  refine actAnt_keeps h_ ?_
  repeat' first
    | with_reducible exact .refl _
    | with_reducible assumption
    | (extract_lets +onlyGivenNames y_; refine Keeps.cut (y := y_) ?_ ?_; rotate_left; clear_value y_; intro _; rotate_left; dsimp -iota only [y_]; clear y_)
    | exact rfl
    | with_reducible intro _
    | with_reducible refine .ite ?_ ?_
    | with_reducible refine (State.antCheckUp_keeps _ _).trans ?_ ?_
    | with_reducible refine (State.antGo_keeps _ _ _).trans ?_ ?_
    | with_reducible refine (State.modAnt_keeps _ _ _).trans ?_ ?_
    | with_reducible refine (State.bump_keeps _ _ _ _ ?_).trans (sub_self _) ?_
    | split
    | dsimp -iota only

theorem State.antReplay_keeps (s : State) (a : Nat) : Keeps 0x40808800000000000000000000000000000000000000000000400000197f00a4000000000000000000 s (State.antReplay s a) := by
  unfold State.antReplay
  repeat' first
    | with_reducible exact .refl _
    | with_reducible assumption
    | (extract_lets +onlyGivenNames y_; refine Keeps.cut (y := y_) ?_ ?_; rotate_left; clear_value y_; intro _; rotate_left; dsimp -iota only [y_]; clear y_)
    | exact rfl
    | with_reducible intro _
    | with_reducible refine .ite ?_ ?_
    | with_reducible refine (State.antRetrain_keeps _ _).trans ?_ ?_
    | with_reducible refine (State.antEmit_keeps _ _ _).trans ?_ ?_
    | with_reducible refine (State.setAnt_keeps _ _ _).trans ?_ ?_
    | with_reducible refine (State.bump_keeps _ _ _ _ ?_).trans (sub_self _) ?_
    | with_reducible refine .foldl _ ?_ ?_
    | split
    | dsimp -iota only

theorem execAntLinkAck_keeps (port : Antenna) (good : Bool) (ack : Fin 65536) (s : State) {z_ : State} (h_ : execAntLinkAck port good ack s = .next z_) : Keeps 0x4080000000000000000000000000000000000000000000000000000010000000000000000000000000 s z_ := by
  unfold execAntLinkAck at h_
  refine actAnt_keeps h_ ?_
  repeat' first
    | with_reducible exact .refl _
    | with_reducible assumption
    | exact rfl
    | with_reducible intro _
    | with_reducible refine .ite ?_ ?_
    | with_reducible refine (State.antNak_keeps _ _).trans ?_ ?_
    | with_reducible refine (State.antAcked_keeps _ _ _).trans ?_ ?_
    | with_reducible refine (State.bump_keeps _ _ _ _ ?_).trans (sub_self _) ?_
    | split

theorem execAntLinkNak_keeps (port : Antenna) (good : Bool) (ack : Fin 65536) (s : State) {z_ : State} (h_ : execAntLinkNak port good ack s = .next z_) : Keeps 0x40808800000000000000000000000000000000000000000000400000197f00a4000000000000000000 s z_ := by
  unfold execAntLinkNak at h_
  refine actAnt_keeps h_ ?_
  repeat' first
    | with_reducible exact .refl _
    | with_reducible assumption
    | exact rfl
    | with_reducible intro _
    | with_reducible refine .ite ?_ ?_
    | with_reducible refine (State.antReplay_keeps _ _).trans ?_ ?_
    | with_reducible refine (State.antNak_keeps _ _).trans ?_ ?_
    | with_reducible refine (State.antAcked_keeps _ _ _).trans ?_ ?_
    | with_reducible refine (State.bump_keeps _ _ _ _ ?_).trans (sub_self _) ?_
    | split

theorem execAntReplayTimeout_keeps (port : Antenna) (s : State) {z_ : State} (h_ : execAntReplayTimeout port s = .next z_) : Keeps 0x40808800000000000000000000000000000000000000000000400000197f00a4000000000000000000 s z_ := by
  unfold execAntReplayTimeout at h_
  refine actAnt_keeps h_ ?_
  repeat' first
    | with_reducible exact .refl _
    | with_reducible assumption
    | (extract_lets +onlyGivenNames y_; refine Keeps.cut (y := y_) ?_ ?_; rotate_left; clear_value y_; intro _; rotate_left; dsimp -iota only [y_]; clear y_)
    | exact rfl
    | with_reducible intro _
    | with_reducible refine .ite ?_ ?_
    | with_reducible refine (State.antReplay_keeps _ _).trans ?_ ?_
    | split
    | dsimp -iota only

theorem execAntLinkAckSend_keeps (port : Antenna) (s : State) {z_ : State} (h_ : execAntLinkAckSend port s = .next z_) : Keeps 0x4080000000000000000000000000000000000000000000000000000000000000000000000000000000 s z_ := by
  unfold execAntLinkAckSend at h_
  refine actAnt_keeps h_ ?_
  repeat' first
    | with_reducible exact .refl _
    | with_reducible assumption
    | exact rfl
    | with_reducible intro _
    | with_reducible refine .ite ?_ ?_
    | with_reducible refine (State.antEmit_keeps _ _ _).trans ?_ ?_
    | split

theorem execHostTimeout_keeps (port : Antenna) (s : State) {z_ : State} (h_ : execHostTimeout port s = .next z_) : Keeps 0x40808800000000000000000000000000000000000000000000400000197f00a4000000000000000000 s z_ := by
  unfold execHostTimeout at h_
  refine act_keeps h_ ?_
  repeat' first
    | with_reducible exact .refl _
    | with_reducible assumption
    | exact rfl
    | with_reducible intro _
    | with_reducible refine .ite ?_ ?_
    | with_reducible refine (State.antRetrain_keeps _ _).trans ?_ ?_
    | split

theorem execEventFrameSend_keeps (port : Antenna) (s : State) {z_ : State} (h_ : execEventFrameSend port s = .next z_) : Keeps 0x4080000000000000000000000000000000000000000000000000000000000000000000000000000000 s z_ := by
  unfold execEventFrameSend at h_
  refine act_keeps h_ ?_
  repeat' first
    | with_reducible exact .refl _
    | with_reducible assumption
    | (extract_lets +onlyGivenNames y_; refine Keeps.cut (y := y_) ?_ ?_; rotate_left; clear_value y_; intro _; rotate_left; dsimp -iota only [y_]; clear y_)
    | exact rfl
    | with_reducible intro _
    | with_reducible refine .ite ?_ ?_
    | with_reducible refine (State.antQueue_keeps _ _ _ _).trans ?_ ?_
    | split
    | dsimp -iota only

end Sys2Proof.Machine
end

