-- ==== Sys2Proof/Laws/KeepsSecurity.lean ====
section
/-! SUPPORT. Sys2Proof/Laws/KeepsSecurity.lean: what each operation of Machine/Security.lean leaves alone. -/

namespace Sys2Proof.Machine

theorem State.logMeasure_keeps (s : State) (kind : Nat) (d : BitVec 256) : Keeps 0x400000000000000000000000000000000000000000000000000000000000000000000000000000 s (State.logMeasure s kind d) := by
  unfold State.logMeasure
  repeat' first
    | with_reducible exact .refl _
    | with_reducible assumption
    | exact rfl
    | with_reducible intro _
    | with_reducible refine .ite ?_ ?_
    | split
    | with_reducible apply Keeps.upd rfl
    | exact Or.inl rfl
    | exact Or.inr rfl

theorem State.modSec_keeps (s : State) (f : SecSt → SecSt) : Keeps 0x400000000000000000000000000000000000000000000000000000000000000000000000000000 s (State.modSec s f) := by
  unfold State.modSec
  repeat' first
    | with_reducible exact .refl _
    | with_reducible assumption
    | exact rfl
    | with_reducible intro _
    | with_reducible refine .ite ?_ ?_
    | split
    | with_reducible apply Keeps.upd rfl
    | exact Or.inl rfl
    | exact Or.inr rfl

theorem State.measureBoot_keeps (s : State) (kind : Nat) (d : BitVec 256) : Keeps 0x400000000000000000000000000000000000000000000000000000000000000000000000000000 s (State.measureBoot s kind d) := by
  unfold State.measureBoot
  repeat' first
    | with_reducible exact .refl _
    | with_reducible assumption
    | exact rfl
    | with_reducible intro _
    | with_reducible refine .ite ?_ ?_
    | with_reducible refine (State.modSec_keeps _ _).trans ?_ ?_
    | with_reducible refine (State.logMeasure_keeps _ _ _).trans ?_ ?_
    | split

theorem State.measureKernel_keeps (s : State) (d : BitVec 256) : Keeps 0x400000000000000000000000000000000000000000000000000000000000000000000000000000 s (State.measureKernel s d) := by
  unfold State.measureKernel
  repeat' first
    | with_reducible exact .refl _
    | with_reducible assumption
    | exact rfl
    | with_reducible intro _
    | with_reducible refine .ite ?_ ?_
    | with_reducible refine (State.modSec_keeps _ _).trans ?_ ?_
    | with_reducible refine (State.logMeasure_keeps _ _ _).trans ?_ ?_
    | split

theorem State.measureSteward_keeps (s : State) (d : BitVec 256) : Keeps 0x400000000000000000000000000000000000000000000000000000000000000000000000000000 s (State.measureSteward s d) := by
  unfold State.measureSteward
  repeat' first
    | with_reducible exact .refl _
    | with_reducible assumption
    | exact rfl
    | with_reducible intro _
    | with_reducible refine .ite ?_ ?_
    | with_reducible refine (State.modSec_keeps _ _).trans ?_ ?_
    | with_reducible refine (State.logMeasure_keeps _ _ _).trans ?_ ?_
    | split

theorem State.measureSlice_keeps (s : State) (slice kind : Nat) (d : BitVec 256) : Keeps 0x400000000000000000000000000000000000000000000000000000000000000000000000000000 s (State.measureSlice s slice kind d) := by
  unfold State.measureSlice
  repeat' first
    | with_reducible exact .refl _
    | with_reducible assumption
    | exact rfl
    | with_reducible intro _
    | with_reducible refine .ite ?_ ?_
    | with_reducible refine (State.modSec_keeps _ _).trans ?_ ?_
    | with_reducible refine (State.logMeasure_keeps _ _ _).trans ?_ ?_
    | split

theorem execMeasureRead_keeps (r : FwRef) (first : Fin 65536) (s : State) {z_ : State} (h_ : execMeasureRead r first s = .next z_) : Keeps 0x30000000000000000000000000000000000000000000000000000000000000000000000000000000 s z_ := by
  unfold execMeasureRead at h_
  refine act_keeps h_ ?_
  repeat' first
    | with_reducible exact .refl _
    | with_reducible assumption
    | (extract_lets +onlyGivenNames y_; refine Keeps.cut (y := y_) ?_ ?_; rotate_left; clear_value y_; intro _; rotate_left; dsimp -iota only [y_]; clear y_)
    | exact rfl
    | with_reducible intro _
    | with_reducible refine .ite ?_ ?_
    | with_reducible refine (State.finishFw_keeps _ _ _ _ _).trans ?_ ?_
    | split
    | dsimp -iota only

theorem State.setCocoonReserved_keeps (s : State) (n : Nat) : Keeps 0x800000000000000000000000000000000000000000000000000000000000000000000000000000000 s (State.setCocoonReserved s n) := by
  unfold State.setCocoonReserved
  repeat' first
    | with_reducible exact .refl _
    | with_reducible assumption
    | exact rfl
    | with_reducible intro _
    | with_reducible refine .ite ?_ ?_
    | split
    | with_reducible apply Keeps.upd rfl
    | exact Or.inl rfl
    | exact Or.inr rfl

theorem State.takeIndex_keeps (s : State) : Keeps 0x800000000000000000000000000000000000000000000000000000000000d00000000000000000000 s (State.takeIndex s).2 := by
  unfold State.takeIndex
  repeat' first
    | with_reducible exact .refl _
    | with_reducible assumption
    | (extract_lets +onlyGivenNames y_; refine Keeps.cut (y := y_) ?_ ?_; rotate_left; clear_value y_; intro _; rotate_left; dsimp -iota only [y_]; clear y_)
    | exact rfl
    | with_reducible intro _
    | with_reducible refine .ite ?_ ?_
    | with_reducible refine .ite2 ?_ ?_
    | with_reducible refine (State.setCocoonReserved_keeps _ _).trans ?_ ?_
    | with_reducible refine (State.setFld_keeps _ _ _ _ ?_).trans (sub_self _) ?_
    | split
    | dsimp -iota only

theorem execAttest_keeps (r : FwRef) (slice : Slice) (nonce : List Byte) (s : State) {z_ : State} (h_ : execAttest r slice nonce s = .next z_) : Keeps 0x8830400000000000000000000000000000000000000000000000000000000d00000000000000000000 s z_ := by
  unfold execAttest at h_
  refine act_keeps h_ ?_
  repeat' first
    | with_reducible exact .refl _
    | with_reducible assumption
    | (extract_lets +onlyGivenNames y_; refine Keeps.cut (y := y_) ?_ ?_; rotate_left; clear_value y_; intro _; rotate_left; dsimp -iota only [y_]; clear y_)
    | exact rfl
    | with_reducible intro _
    | with_reducible refine .ite ?_ ?_
    | with_reducible refine (State.takeIndex_keeps _).trans ?_ ?_
    | with_reducible refine (Keeps.snd (State.takeIndex_keeps _) ‹_›).trans ?_ ?_
    | with_reducible refine (State.modSec_keeps _ _).trans ?_ ?_
    | with_reducible refine (State.finishFw_keeps _ _ _ _ _).trans ?_ ?_
    | with_reducible refine (State.fresh_keeps _).trans ?_ ?_
    | with_reducible refine (Keeps.snd (State.fresh_keeps _) ‹_›).trans ?_ ?_
    | split
    | dsimp -iota only

theorem execCertChain_keeps (r : FwRef) (s : State) {z_ : State} (h_ : execCertChain r s = .next z_) : Keeps 0x30000000000000000000000000000000000000000000000000000000000000000000000000000000 s z_ := by
  unfold execCertChain at h_
  refine act_keeps h_ ?_
  repeat' first
    | with_reducible exact .refl _
    | with_reducible assumption
    | (extract_lets +onlyGivenNames y_; refine Keeps.cut (y := y_) ?_ ?_; rotate_left; clear_value y_; intro _; rotate_left; dsimp -iota only [y_]; clear y_)
    | exact rfl
    | with_reducible intro _
    | with_reducible refine .ite ?_ ?_
    | with_reducible refine (State.finishFw_keeps _ _ _ _ _).trans ?_ ?_
    | split
    | dsimp -iota only

theorem execKemKeyExpire_keeps (slice : Slice) (s : State) {z_ : State} (h_ : execKemKeyExpire slice s = .next z_) : Keeps 0x400000000000000000000000000000000000000000000000000000000000000000000000000000 s z_ := by
  unfold execKemKeyExpire at h_
  refine act_keeps h_ ?_
  repeat' first
    | with_reducible exact .refl _
    | with_reducible assumption
    | exact rfl
    | with_reducible intro _
    | with_reducible refine .ite ?_ ?_
    | with_reducible refine (State.modSec_keeps _ _).trans ?_ ?_
    | split

theorem State.enterSealed_keeps (s : State) (slice : Nat) : Keeps 0x8000400000000000000000000000000000000000000000000000000000004100000000200000000000 s (State.enterSealed s slice) := by
  unfold State.enterSealed
  repeat' first
    | with_reducible exact .refl _
    | with_reducible assumption
    | (extract_lets +onlyGivenNames y_; refine Keeps.cut (y := y_) ?_ ?_; rotate_left; clear_value y_; intro _; rotate_left; dsimp -iota only [y_]; clear y_)
    | exact rfl
    | with_reducible intro _
    | with_reducible refine .ite ?_ ?_
    | with_reducible refine (State.modSec_keeps _ _).trans ?_ ?_
    | with_reducible refine (State.fresh_keeps _).trans ?_ ?_
    | with_reducible refine (Keeps.snd (State.fresh_keeps _) ‹_›).trans ?_ ?_
    | with_reducible refine (State.setFld_keeps _ _ _ _ ?_).trans (sub_self _) ?_
    | with_reducible refine (State.bump_keeps _ _ _ _ ?_).trans (sub_self _) ?_
    | with_reducible refine .foldl _ ?_ ?_
    | split
    | dsimp -iota only

theorem execKeyDeliver_keeps (r : FwRef) (slice : Slice) (ct iv wrapped policy : List Byte) (s : State) {z_ : State} (h_ : execKeyDeliver r slice ct iv wrapped policy s = .next z_) : Keeps 0x8030400000000000000000000000000000000000000000000000000000004100000000200000000000 s z_ := by
  unfold execKeyDeliver at h_
  refine act_keeps h_ ?_
  repeat' first
    | with_reducible exact .refl _
    | with_reducible assumption
    | (extract_lets +onlyGivenNames y_; refine Keeps.cut (y := y_) ?_ ?_; rotate_left; clear_value y_; intro _; rotate_left; dsimp -iota only [y_]; clear y_)
    | exact rfl
    | with_reducible intro _
    | with_reducible refine .ite ?_ ?_
    | with_reducible refine (State.enterSealed_keeps _ _).trans ?_ ?_
    | with_reducible refine (State.measureSlice_keeps _ _ _ _).trans ?_ ?_
    | with_reducible refine (State.modSec_keeps _ _).trans ?_ ?_
    | with_reducible refine (State.finishFw_keeps _ _ _ _ _).trans ?_ ?_
    | with_reducible refine (State.setFld_keeps _ _ _ _ ?_).trans (sub_self _) ?_
    | split
    | dsimp -iota only

theorem State.sendSliceAll_keeps (s : State) (x : SliceRec) : Keeps 0x4002000000000000000000000000000000000000000000000000000000000000000000000000000000 s (State.sendSliceAll s x) := by
  unfold State.sendSliceAll
  repeat' first
    | with_reducible exact .refl _
    | with_reducible assumption
    | (extract_lets +onlyGivenNames y_; refine Keeps.cut (y := y_) ?_ ?_; rotate_left; clear_value y_; intro _; rotate_left; dsimp -iota only [y_]; clear y_)
    | exact rfl
    | with_reducible intro _
    | with_reducible refine .ite ?_ ?_
    | with_reducible refine (State.sendMgmt_keeps _ _ _).trans ?_ ?_
    | split
    | dsimp -iota only

theorem execSliceSeal_keeps (r : FwRef) (slice : Slice) (tenant : Bool) (reports : List SealReport) (s : State) {z_ : State} (h_ : execSliceSeal r slice tenant reports s = .next z_) : Keeps 0xc03a000000000000000000000000000000000000000000000000000000000000000000000000000000 s z_ := by
  unfold execSliceSeal at h_
  refine act_keeps h_ ?_
  repeat' first
    | with_reducible exact .refl _
    | with_reducible assumption
    | (extract_lets +onlyGivenNames y_; refine Keeps.cut (y := y_) ?_ ?_; rotate_left; clear_value y_; intro _; rotate_left; dsimp -iota only [y_]; clear y_)
    | exact rfl
    | with_reducible intro _
    | with_reducible refine .ite ?_ ?_
    | with_reducible refine (State.sendSliceAll_keeps _ _).trans ?_ ?_
    | with_reducible refine (State.putSlice_keeps _ _).trans ?_ ?_
    | with_reducible refine (State.mgrCommand_keeps _ _ _ ?_ ?_).trans (sub_self _) ?_
    | with_reducible refine (State.finishFw_keeps _ _ _ _ _).trans ?_ ?_
    | with_reducible refine (State.fresh_keeps _).trans ?_ ?_
    | with_reducible refine (Keeps.snd (State.fresh_keeps _) ‹_›).trans ?_ ?_
    | split
    | dsimp -iota only

theorem execSealBoundary_keeps (slice : Slice) (s : State) {z_ : State} (h_ : execSealBoundary slice s = .next z_) : Keeps 0x8000400000000000000000000000000000000000000000000000000000004100000000200000000000 s z_ := by
  unfold execSealBoundary at h_
  refine act_keeps h_ ?_
  repeat' first
    | with_reducible exact .refl _
    | with_reducible assumption
    | exact rfl
    | with_reducible intro _
    | with_reducible refine .ite ?_ ?_
    | with_reducible refine (State.enterSealed_keeps _ _).trans ?_ ?_
    | split

theorem execSealIntervalEnd_keeps (l : Link) (s : State) {z_ : State} (h_ : execSealIntervalEnd l s = .next z_) : Keeps 0x400000000000000000000000000000000000000000000000000000000000000000000000000000 s z_ := by
  unfold execSealIntervalEnd at h_
  refine act_keeps h_ ?_
  repeat' first
    | with_reducible exact .refl _
    | with_reducible assumption
    | (extract_lets +onlyGivenNames y_; refine Keeps.cut (y := y_) ?_ ?_; rotate_left; clear_value y_; intro _; rotate_left; dsimp -iota only [y_]; clear y_)
    | exact rfl
    | with_reducible intro _
    | with_reducible refine .ite ?_ ?_
    | with_reducible refine (State.modSec_keeps _ _).trans ?_ ?_
    | split
    | dsimp -iota only

theorem execSealSetSend_keeps (l : Link) (s : State) {z_ : State} (h_ : execSealSetSend l s = .next z_) : Keeps 0x4000400000000000000000000000000000000000000000000000000000000000000000000000000000 s z_ := by
  unfold execSealSetSend at h_
  refine act_keeps h_ ?_
  repeat' first
    | with_reducible exact .refl _
    | with_reducible assumption
    | (extract_lets +onlyGivenNames y_; refine Keeps.cut (y := y_) ?_ ?_; rotate_left; clear_value y_; intro _; rotate_left; dsimp -iota only [y_]; clear y_)
    | exact rfl
    | with_reducible intro _
    | with_reducible refine .ite ?_ ?_
    | with_reducible refine (State.modSec_keeps _ _).trans ?_ ?_
    | with_reducible refine (State.emit_keeps _ _).trans ?_ ?_
    | split
    | dsimp -iota only

theorem State.sealFailed_keeps (s : State) (l : Nat) (r : Option SealIn) (num : Nat) : Keeps 0x60d3412000000000000000000000000000000000000000000a28001010008000000000003280020800 s (State.sealFailed s l r num) := by
  unfold State.sealFailed
  repeat' first
    | with_reducible exact .refl _
    | with_reducible assumption
    | (extract_lets +onlyGivenNames y_; refine Keeps.cut (y := y_) ?_ ?_; rotate_left; clear_value y_; intro _; rotate_left; dsimp -iota only [y_]; clear y_)
    | exact rfl
    | with_reducible intro _
    | with_reducible refine .ite ?_ ?_
    | with_reducible refine (State.lossOfLink_keeps _ _).trans ?_ ?_
    | with_reducible refine (State.sealDrop_keeps _ _).trans ?_ ?_
    | with_reducible refine (State.sillage_keeps _ _ _ _ _).trans ?_ ?_
    | with_reducible refine (State.bump_keeps _ _ _ _ ?_).trans (sub_self _) ?_
    | split
    | dsimp -iota only

theorem State.sealVerified_keeps (s : State) (r : SealIn) : Keeps 0x4100412000000000000000000000000000000000000000000000000000000000000000400001880000 s (State.sealVerified s r) := by
  unfold State.sealVerified
  repeat' first
    | with_reducible exact .refl _
    | with_reducible assumption
    | (extract_lets +onlyGivenNames y_; refine Keeps.cut (y := y_) ?_ ?_; rotate_left; clear_value y_; intro _; rotate_left; dsimp -iota only [y_]; clear y_)
    | exact rfl
    | with_reducible intro _
    | with_reducible refine .ite ?_ ?_
    | with_reducible refine (State.modSec_keeps _ _).trans ?_ ?_
    | with_reducible refine (State.consume_keeps _ _ _ _).trans ?_ ?_
    | with_reducible refine .foldl _ ?_ ?_
    | split
    | dsimp -iota only
    | with_reducible apply Keeps.upd rfl
    | exact Or.inl rfl
    | exact Or.inr rfl

theorem execSealSetReceive_keeps (l : Link) (t : SealSet) (s : State) {z_ : State} (h_ : execSealSetReceive l t s = .next z_) : Keeps 0x61d3412000000000000000000000000000000000000000000a280010100080000000004032818a0800 s z_ := by
  unfold execSealSetReceive at h_
  refine act_keeps h_ ?_
  repeat' first
    | with_reducible exact .refl _
    | with_reducible assumption
    | (extract_lets +onlyGivenNames y_; refine Keeps.cut (y := y_) ?_ ?_; rotate_left; clear_value y_; intro _; rotate_left; dsimp -iota only [y_]; clear y_)
    | exact rfl
    | with_reducible intro _
    | with_reducible refine .ite ?_ ?_
    | with_reducible refine (State.sealVerified_keeps _ _).trans ?_ ?_
    | with_reducible refine (State.sealFailed_keeps _ _ _ _).trans ?_ ?_
    | with_reducible refine (State.sealDrop_keeps _ _).trans ?_ ?_
    | with_reducible refine (State.bump_keeps _ _ _ _ ?_).trans (sub_self _) ?_
    | split
    | dsimp -iota only

theorem execSealSetTimeout_keeps (l : Link) (s : State) {z_ : State} (h_ : execSealSetTimeout l s = .next z_) : Keeps 0x60d3412000000000000000000000000000000000000000000a28001010008000000000003280020800 s z_ := by
  unfold execSealSetTimeout at h_
  refine act_keeps h_ ?_
  repeat' first
    | with_reducible exact .refl _
    | with_reducible assumption
    | exact rfl
    | with_reducible intro _
    | with_reducible refine .ite ?_ ?_
    | with_reducible refine (State.sealFailed_keeps _ _ _ _).trans ?_ ?_
    | split

end Sys2Proof.Machine
end

