-- ==== Sys2Proof/Laws/KeepsExchange.lean ====
section
/-! SUPPORT. Sys2Proof/Laws/KeepsExchange.lean: what each operation of Machine/Exchange.lean leaves alone. -/

namespace Sys2Proof.Machine

theorem State.giveMember_keeps (s : State) (n : CollNode) (m : CollMember) (num coord len : Nat) (slipped spilled : Bool) (bs : List Byte) : Keeps 0x4000432000000000000000000000000000000000000000000000000000000000000000000000880000 s (State.giveMember s n m num coord len slipped spilled bs) := by
  unfold State.giveMember
  repeat' first
    | with_reducible exact .refl _
    | with_reducible assumption
    | (extract_lets +onlyGivenNames y_; refine Keeps.cut (y := y_) ?_ ?_; rotate_left; clear_value y_; intro _; rotate_left; dsimp -iota only [y_]; clear y_)
    | exact rfl
    | with_reducible intro _
    | with_reducible refine .ite ?_ ?_
    | with_reducible refine (State.sendResult_keeps _ _ _ _ _ _ _ _ _ _ _).trans ?_ ?_
    | with_reducible refine (State.modRun_keeps _ _ _ _).trans ?_ ?_
    | split
    | dsimp -iota only

theorem State.serveParts_keeps (s : State) (n : CollNode) (c : CollChunk) : Keeps 0x4000532000000000000000000000000000000000000000000000000000000000000000000000880000 s (State.serveParts s n c) := by
  unfold State.serveParts
  repeat' first
    | with_reducible exact .refl _
    | with_reducible assumption
    | (extract_lets +onlyGivenNames y_; refine Keeps.cut (y := y_) ?_ ?_; rotate_left; clear_value y_; intro _; rotate_left; dsimp -iota only [y_]; clear y_)
    | exact rfl
    | with_reducible intro _
    | with_reducible refine .ite ?_ ?_
    | with_reducible refine (State.giveMember_keeps _ _ _ _ _ _ _ _ _).trans ?_ ?_
    | with_reducible refine (State.chunkUpd_keeps _ _ _ _ _).trans ?_ ?_
    | with_reducible refine .foldl _ ?_ ?_
    | split
    | dsimp -iota only

theorem State.serveExchange_keeps (s : State) (n0 : CollNode) : Keeps 0x4000532000000000000000000000000000000000000000000000000000000000000000000000880000 s (State.serveExchange s n0) := by
  unfold State.serveExchange
  repeat' first
    | with_reducible exact .refl _
    | with_reducible assumption
    | (extract_lets +onlyGivenNames y_; refine Keeps.cut (y := y_) ?_ ?_; rotate_left; clear_value y_; intro _; rotate_left; dsimp -iota only [y_]; clear y_)
    | exact rfl
    | with_reducible intro _
    | with_reducible refine .ite ?_ ?_
    | with_reducible refine (State.serveParts_keeps _ _ _).trans ?_ ?_
    | with_reducible refine (State.modNode_keeps _ _ _).trans ?_ ?_
    | with_reducible refine .foldl _ ?_ ?_
    | split
    | dsimp -iota only

theorem State.serveCombine_keeps (s : State) (n0 : CollNode) : Keeps 0x4000532000000000000000000000000000000000000000000000000000000000000000000000880000 s (State.serveCombine s n0) := by
  unfold State.serveCombine
  repeat' first
    | with_reducible exact .refl _
    | with_reducible assumption
    | (extract_lets +onlyGivenNames y_; refine Keeps.cut (y := y_) ?_ ?_; rotate_left; clear_value y_; intro _; rotate_left; dsimp -iota only [y_]; clear y_)
    | exact rfl
    | with_reducible intro _
    | with_reducible refine .ite ?_ ?_
    | with_reducible refine (State.giveMember_keeps _ _ _ _ _ _ _ _ _).trans ?_ ?_
    | with_reducible refine (State.chunkUpd_keeps _ _ _ _ _).trans ?_ ?_
    | with_reducible refine .foldl _ ?_ ?_
    | split
    | dsimp -iota only

theorem State.takeRows_keeps (s : State) (n : CollNode) (dst len : Nat) (bs : List Byte) (tags : List (Nat × Nat)) : Keeps 0x100000000000000000000000000000000000000000000000000000000000000001000000000000 s (State.takeRows s n dst len bs tags) := by
  unfold State.takeRows
  repeat' first
    | with_reducible exact .refl _
    | with_reducible assumption
    | (extract_lets +onlyGivenNames y_; refine Keeps.cut (y := y_) ?_ ?_; rotate_left; clear_value y_; intro _; rotate_left; dsimp -iota only [y_]; clear y_)
    | exact rfl
    | with_reducible intro _
    | with_reducible refine .ite ?_ ?_
    | with_reducible refine (State.modNode_keeps _ _ _).trans ?_ ?_
    | with_reducible refine (State.bump_keeps _ _ _ _ ?_).trans (sub_self _) ?_
    | with_reducible refine .foldl _ ?_ ?_
    | split
    | dsimp -iota only

theorem State.arriveEx_keeps (s : State) (n0 : CollNode) (src dst num : Nat) (bs : List Byte) (tags : List (Nat × Nat)) : Keeps 0x4000532000000000000000000000000000000000000000000000000000000000000001000000880000 s (State.arriveEx s n0 src dst num bs tags) := by
  unfold State.arriveEx
  repeat' first
    | with_reducible exact .refl _
    | with_reducible assumption
    | (extract_lets +onlyGivenNames y_; refine Keeps.cut (y := y_) ?_ ?_; rotate_left; clear_value y_; intro _; rotate_left; dsimp -iota only [y_]; clear y_)
    | exact rfl
    | with_reducible intro _
    | with_reducible refine .ite ?_ ?_
    | with_reducible refine (State.takeRows_keeps _ _ _ _ _ _).trans ?_ ?_
    | with_reducible refine (State.serveCombine_keeps _ _).trans ?_ ?_
    | with_reducible refine (State.serveExchange_keeps _ _).trans ?_ ?_
    | with_reducible refine (State.chunkUpd_keeps _ _ _ _ _).trans ?_ ?_
    | with_reducible refine (State.modNode_keeps _ _ _).trans ?_ ?_
    | split
    | dsimp -iota only

theorem State.askPeer_keeps (s : State) (n : CollNode) (o : CollOut) : Keeps 0x4000412000000000000000000000000000000000000000000000000000000000000000000000880000 s (State.askPeer s n o) := by
  unfold State.askPeer
  repeat' first
    | with_reducible exact .refl _
    | with_reducible assumption
    | exact rfl
    | with_reducible intro _
    | with_reducible refine .ite ?_ ?_
    | with_reducible refine (State.sendGrant_keeps _ _ _ _ _ _ _ _ _ _).trans ?_ ?_
    | split

theorem State.launch_keeps (s : State) (n : CollNode) (src dst num : Nat) (bs : List Byte) (tags : List (Nat × Nat)) : Keeps 0x4000532000000000000000000000000000000000000000000000000000000000000001000000880000 s (State.launch s n src dst num bs tags) := by
  unfold State.launch
  repeat' first
    | with_reducible exact .refl _
    | with_reducible assumption
    | (extract_lets +onlyGivenNames y_; refine Keeps.cut (y := y_) ?_ ?_; rotate_left; clear_value y_; intro _; rotate_left; dsimp -iota only [y_]; clear y_)
    | exact rfl
    | with_reducible intro _
    | with_reducible refine .ite ?_ ?_
    | with_reducible refine (State.askPeer_keeps _ _ _).trans ?_ ?_
    | with_reducible refine (State.arriveEx_keeps _ _ _ _ _ _ _).trans ?_ ?_
    | with_reducible refine (State.chunkUpd_keeps _ _ _ _ _).trans ?_ ?_
    | with_reducible refine (State.modNode_keeps _ _ _).trans ?_ ?_
    | with_reducible refine .foldl _ ?_ ?_
    | split
    | dsimp -iota only

theorem State.forwardEx_keeps (s : State) (n0 : CollNode) (rank c : Nat) (bs : List Byte) : Keeps 0x4000532000000000000000000000000000000000000000000000000000000000000001000000880000 s (State.forwardEx s n0 rank c bs) := by
  unfold State.forwardEx
  repeat' first
    | with_reducible exact .refl _
    | with_reducible assumption
    | (extract_lets +onlyGivenNames y_; refine Keeps.cut (y := y_) ?_ ?_; rotate_left; clear_value y_; intro _; rotate_left; dsimp -iota only [y_]; clear y_)
    | exact rfl
    | with_reducible intro _
    | with_reducible refine .ite ?_ ?_
    | with_reducible refine (State.launch_keeps _ _ _ _ _ _ _).trans ?_ ?_
    | with_reducible refine (State.modNode_keeps _ _ _).trans ?_ ?_
    | with_reducible refine .foldl _ ?_ ?_
    | split
    | dsimp -iota only

theorem State.sendOut_keeps (s : State) (n : CollNode) (o : CollOut) : Keeps 0x4000512000000000000000000000000000000000000000000000000000000000000000000000880000 s (State.sendOut s n o) := by
  unfold State.sendOut
  repeat' first
    | with_reducible exact .refl _
    | with_reducible assumption
    | (extract_lets +onlyGivenNames y_; refine Keeps.cut (y := y_) ?_ ?_; rotate_left; clear_value y_; intro _; rotate_left; dsimp -iota only [y_]; clear y_)
    | exact rfl
    | with_reducible intro _
    | with_reducible refine .ite ?_ ?_
    | with_reducible refine (State.sendUp_keeps _ _ _ _ _ _ _ _ _ _ _).trans ?_ ?_
    | with_reducible refine (State.modNode_keeps _ _ _).trans ?_ ?_
    | split
    | dsimp -iota only

theorem State.countOut_keeps (s : State) (n : CollNode) (peer : Nat × Nat) (base : Nat) (bs : List Byte) : Keeps 0x4000512000000000000000000000000000000000000000000000000000000000000000000000880000 s (State.countOut s n peer base bs) := by
  unfold State.countOut
  repeat' first
    | with_reducible exact .refl _
    | with_reducible assumption
    | (extract_lets +onlyGivenNames y_; refine Keeps.cut (y := y_) ?_ ?_; rotate_left; clear_value y_; intro _; rotate_left; dsimp -iota only [y_]; clear y_)
    | exact rfl
    | with_reducible intro _
    | with_reducible refine .ite ?_ ?_
    | with_reducible refine (State.askPeer_keeps _ _ _).trans ?_ ?_
    | with_reducible refine (State.modNode_keeps _ _ _).trans ?_ ?_
    | with_reducible refine .foldl _ ?_ ?_
    | split
    | dsimp -iota only

theorem State.sendCounts_keeps (s : State) (n0 : CollNode) : Keeps 0x4000512000000000000000000000000000000000000000000000000000000000000000000000880000 s (State.sendCounts s n0) := by
  unfold State.sendCounts
  repeat' first
    | with_reducible exact .refl _
    | with_reducible assumption
    | (extract_lets +onlyGivenNames y_; refine Keeps.cut (y := y_) ?_ ?_; rotate_left; clear_value y_; intro _; rotate_left; dsimp -iota only [y_]; clear y_)
    | exact rfl
    | with_reducible intro _
    | with_reducible refine .ite ?_ ?_
    | with_reducible refine (State.countOut_keeps _ _ _ _ _).trans ?_ ?_
    | with_reducible refine .foldl _ ?_ ?_
    | split
    | dsimp -iota only

theorem State.applyCounts_keeps (s : State) (n0 : CollNode) : Keeps 0x4000512000000000000000000000000000000000000000000000000000000000000000000000880000 s (State.applyCounts s n0) := by
  unfold State.applyCounts
  repeat' first
    | with_reducible exact .refl _
    | with_reducible assumption
    | (extract_lets +onlyGivenNames y_; refine Keeps.cut (y := y_) ?_ ?_; rotate_left; clear_value y_; intro _; rotate_left; dsimp -iota only [y_]; clear y_)
    | exact rfl
    | with_reducible intro _
    | with_reducible refine .ite ?_ ?_
    | with_reducible refine (State.countOut_keeps _ _ _ _ _).trans ?_ ?_
    | with_reducible refine (State.modNode_keeps _ _ _).trans ?_ ?_
    | with_reducible refine .foldl _ ?_ ?_
    | split
    | dsimp -iota only

theorem State.applyKeeps_keeps (s : State) (n : CollNode) : Keeps 0x100000000000000000000000000000000000000000000000000000000000000000000000000000 s (State.applyKeeps s n) := by
  unfold State.applyKeeps
  repeat' first
    | with_reducible exact .refl _
    | with_reducible assumption
    | (extract_lets +onlyGivenNames y_; refine Keeps.cut (y := y_) ?_ ?_; rotate_left; clear_value y_; intro _; rotate_left; dsimp -iota only [y_]; clear y_)
    | exact rfl
    | with_reducible intro _
    | with_reducible refine .ite ?_ ?_
    | with_reducible refine (State.modNode_keeps _ _ _).trans ?_ ?_
    | with_reducible refine .foldl _ ?_ ?_
    | split
    | dsimp -iota only

theorem State.countDone_keeps (s : State) (n0 : CollNode) (rank v0 v1 : Nat) : Keeps 0x4000d72000000000000000000000000000000000000000000000000000000000000000000000880000 s (State.countDone s n0 rank v0 v1) := by
  unfold State.countDone
  repeat' first
    | with_reducible exact .refl _
    | with_reducible assumption
    | (extract_lets +onlyGivenNames y_; refine Keeps.cut (y := y_) ?_ ?_; rotate_left; clear_value y_; intro _; rotate_left; dsimp -iota only [y_]; clear y_)
    | exact rfl
    | with_reducible intro _
    | with_reducible refine .ite ?_ ?_
    | with_reducible refine (State.serveExchange_keeps _ _).trans ?_ ?_
    | with_reducible refine (State.giveMember_keeps _ _ _ _ _ _ _ _ _).trans ?_ ?_
    | with_reducible refine (State.endAtChunk_keeps _ _ _ _ _).trans ?_ ?_
    | with_reducible refine (State.modNode_keeps _ _ _).trans ?_ ?_
    | with_reducible refine (State.storeAt_keeps _ _ _ _ _ _).trans ?_ ?_
    | with_reducible refine (State.modRun_keeps _ _ _ _).trans ?_ ?_
    | with_reducible refine .foldl _ ?_ ?_
    | split
    | dsimp -iota only

theorem State.writeOrigins_keeps (s : State) (n : CollNode) (m : CollMember) : Keeps 0x4000c52000000000000000000000000000000000000000000000000000000000000000000000880000 s (State.writeOrigins s n m) := by
  unfold State.writeOrigins
  repeat' first
    | with_reducible exact .refl _
    | with_reducible assumption
    | (extract_lets +onlyGivenNames y_; refine Keeps.cut (y := y_) ?_ ?_; rotate_left; clear_value y_; intro _; rotate_left; dsimp -iota only [y_]; clear y_)
    | exact rfl
    | with_reducible intro _
    | with_reducible refine .ite ?_ ?_
    | with_reducible refine (State.storeAt_keeps _ _ _ _ _ _).trans ?_ ?_
    | with_reducible refine .foldl _ ?_ ?_
    | split
    | dsimp -iota only

end Sys2Proof.Machine
end

