-- ==== Sys2Proof/Laws/KeepsSkipper.lean ====
section
/-! SUPPORT. Sys2Proof/Laws/KeepsSkipper.lean: what each operation of Machine/Skipper.lean leaves alone. -/

namespace Sys2Proof.Machine

theorem State.modGroup_keeps (s : State) (g : Nat) (f : SkpGroup → SkpGroup) : Keeps 0x100000000000000000000000000000000000000000000000000000000000000000000000000000 s (State.modGroup s g f) := by
  unfold State.modGroup
  repeat' first
    | with_reducible exact .refl _
    | with_reducible assumption
    | exact rfl
    | with_reducible intro _
    | with_reducible refine .ite ?_ ?_
    | split
    | with_reducible apply Keeps.upd rfl
    | exact Or.inl rfl
    | exact Or.inr rfl

theorem State.genUpd_keeps (s : State) (g h gen : Nat) (f : SkpGen → SkpGen) : Keeps 0x100000000000000000000000000000000000000000000000000000000000000000000000000000 s (State.genUpd s g h gen f) := by
  unfold State.genUpd
  repeat' first
    | with_reducible exact .refl _
    | with_reducible assumption
    | exact rfl
    | with_reducible intro _
    | with_reducible refine .ite ?_ ?_
    | with_reducible refine (State.modGroup_keeps _ _ _).trans ?_ ?_
    | split

theorem State.showGroup_keeps (s : State) (g : Nat) : Keeps 0x40000000000000 s (State.showGroup s g) := by
  unfold State.showGroup
  repeat' first
    | with_reducible exact .refl _
    | with_reducible assumption
    | (extract_lets +onlyGivenNames y_; refine Keeps.cut (y := y_) ?_ ?_; rotate_left; clear_value y_; intro _; rotate_left; dsimp -iota only [y_]; clear y_)
    | exact rfl
    | with_reducible intro _
    | with_reducible refine .ite ?_ ?_
    | with_reducible refine (State.setFld_keeps _ _ _ _ ?_).trans (sub_self _) ?_
    | with_reducible refine (State.setReg_keeps _ _ _ _ ?_).trans (sub_self _) ?_
    | split
    | dsimp -iota only

theorem execSkipGroup_keeps (r : FwRef) (group slice : Fin 65536) (slip flags : Fin 256) (ranks : List Rank) (s : State) {z_ : State} (h_ : execSkipGroup r group slice slip flags ranks s = .next z_) : Keeps 0x8030100000000000000000000000000000000000000000000000000000000000000040000000000000 s z_ := by
  unfold execSkipGroup at h_
  refine act_keeps h_ ?_
  repeat' first
    | with_reducible exact .refl _
    | with_reducible assumption
    | (extract_lets +onlyGivenNames y_; refine Keeps.cut (y := y_) ?_ ?_; rotate_left; clear_value y_; intro _; rotate_left; dsimp -iota only [y_]; clear y_)
    | exact rfl
    | with_reducible intro _
    | with_reducible refine .ite ?_ ?_
    | with_reducible refine (State.showGroup_keeps _ _).trans ?_ ?_
    | with_reducible refine (State.mgrCommand_keeps _ _ _ ?_ ?_).trans (sub_self _) ?_
    | with_reducible refine (State.finishFw_keeps _ _ _ _ _).trans ?_ ?_
    | with_reducible refine (State.fresh_keeps _).trans ?_ ?_
    | with_reducible refine (Keeps.snd (State.fresh_keeps _) ‹_›).trans ?_ ?_
    | split
    | dsimp -iota only
    | with_reducible apply Keeps.upd rfl
    | exact Or.inl rfl
    | exact Or.inr rfl

theorem State.sendSkp_keeps (s : State) (g : SkpGroup) (wing : Nat) (tgt : Nat × Nat) (x : SkpGen) (down : Bool) (abort : Option (Nat × Nat)) (vals : List Nat) : Keeps 0x4000412000000000000000000000000000000000000000000000000000000000000000000000880000 s (State.sendSkp s g wing tgt x down abort vals) := by
  unfold State.sendSkp
  repeat' first
    | with_reducible exact .refl _
    | with_reducible assumption
    | (extract_lets +onlyGivenNames y_; refine Keeps.cut (y := y_) ?_ ?_; rotate_left; clear_value y_; intro _; rotate_left; dsimp -iota only [y_]; clear y_)
    | exact rfl
    | with_reducible intro _
    | with_reducible refine .ite ?_ ?_
    | with_reducible refine (State.source_keeps _ _ _ _).trans ?_ ?_
    | split
    | dsimp -iota only

theorem State.finishWait_keeps (s : State) (g : SkpGroup) (wing : Nat) (w : SkpWait) (x : SkpGen) (vals : List Nat) (abort : Option (Nat × Nat)) : Keeps 0x4000d72000000000000000000000000000000000000000000000000000000000000000000000880000 s (State.finishWait s g wing w x vals abort) := by
  unfold State.finishWait
  repeat' first
    | with_reducible exact .refl _
    | with_reducible assumption
    | (extract_lets +onlyGivenNames y_; refine Keeps.cut (y := y_) ?_ ?_; rotate_left; clear_value y_; intro _; rotate_left; dsimp -iota only [y_]; clear y_)
    | exact rfl
    | with_reducible intro _
    | with_reducible refine .ite ?_ ?_
    | with_reducible refine (State.countDone_keeps _ _ _ _ _).trans ?_ ?_
    | with_reducible refine (State.endAtChunk_keeps _ _ _ _ _).trans ?_ ?_
    | with_reducible refine (State.storeAt_keeps _ _ _ _ _ _).trans ?_ ?_
    | with_reducible refine (State.endCmd_keeps _ _ _ _ _).trans ?_ ?_
    | with_reducible refine (State.modRun_keeps _ _ _ _).trans ?_ ?_
    | split
    | dsimp -iota only

theorem State.skpResult_keeps (s : State) (g0 h gen : Nat) (vals : List Nat) (abort : Option (Nat × Nat)) : Keeps 0x4000d72000000000000000000000000000000000000000000000000000000000000040000000880000 s (State.skpResult s g0 h gen vals abort) := by
  unfold State.skpResult
  repeat' first
    | with_reducible exact .refl _
    | with_reducible assumption
    | (extract_lets +onlyGivenNames y_; refine Keeps.cut (y := y_) ?_ ?_; rotate_left; clear_value y_; intro _; rotate_left; dsimp -iota only [y_]; clear y_)
    | exact rfl
    | with_reducible intro _
    | with_reducible refine .ite ?_ ?_
    | with_reducible refine (State.finishWait_keeps _ _ _ _ _ _ _).trans ?_ ?_
    | with_reducible refine (State.sendSkp_keeps _ _ _ _ _ _ _ _).trans ?_ ?_
    | with_reducible refine (State.showGroup_keeps _ _).trans ?_ ?_
    | with_reducible refine (State.genUpd_keeps _ _ _ _ _).trans ?_ ?_
    | with_reducible refine (State.modGroup_keeps _ _ _).trans ?_ ?_
    | with_reducible refine (State.setFld_keeps _ _ _ _ ?_).trans (sub_self _) ?_
    | with_reducible refine .foldl _ ?_ ?_
    | split
    | dsimp -iota only

theorem State.skpAdvance_keeps (s : State) (g0 h gen : Nat) : Keeps 0x4000d720000000000000000000000000000000000000000000000000000000000000c0000000880000 s (State.skpAdvance s g0 h gen) := by
  unfold State.skpAdvance
  repeat' first
    | with_reducible exact .refl _
    | with_reducible assumption
    | (extract_lets +onlyGivenNames y_; refine Keeps.cut (y := y_) ?_ ?_; rotate_left; clear_value y_; intro _; rotate_left; dsimp -iota only [y_]; clear y_)
    | exact rfl
    | with_reducible intro _
    | with_reducible refine .ite ?_ ?_
    | with_reducible refine (State.skpResult_keeps _ _ _ _ _ _).trans ?_ ?_
    | with_reducible refine (State.sendSkp_keeps _ _ _ _ _ _ _ _).trans ?_ ?_
    | with_reducible refine (State.genUpd_keeps _ _ _ _ _).trans ?_ ?_
    | with_reducible refine (State.bump_keeps _ _ _ _ ?_).trans (sub_self _) ?_
    | split
    | dsimp -iota only

theorem State.skpOpen_keeps (s : State) (g0 h gen op nvals typ : Nat) : Keeps 0x100000000000000000000000000000000000000000000000000000000000000000000000000000 s (State.skpOpen s g0 h gen op nvals typ) := by
  unfold State.skpOpen
  repeat' first
    | with_reducible exact .refl _
    | with_reducible assumption
    | (extract_lets +onlyGivenNames y_; refine Keeps.cut (y := y_) ?_ ?_; rotate_left; clear_value y_; intro _; rotate_left; dsimp -iota only [y_]; clear y_)
    | exact rfl
    | with_reducible intro _
    | with_reducible refine .ite ?_ ?_
    | with_reducible refine (State.modGroup_keeps _ _ _).trans ?_ ?_
    | split
    | dsimp -iota only

theorem State.skpInput_keeps (s : State) (g0 h gen op nvals typ rank : Nat) (vals : List Nat) : Keeps 0x4000d720000000000000000000000000000000000000000000000000000000000000c0000000880000 s (State.skpInput s g0 h gen op nvals typ rank vals).1 := by
  unfold State.skpInput
  repeat' first
    | with_reducible exact .refl _
    | with_reducible assumption
    | (extract_lets +onlyGivenNames y_; refine Keeps.cut (y := y_) ?_ ?_; rotate_left; clear_value y_; intro _; rotate_left; dsimp -iota only [y_]; clear y_)
    | exact rfl
    | with_reducible intro _
    | with_reducible refine .ite ?_ ?_
    | with_reducible refine .ite1 ?_ ?_
    | with_reducible refine (State.skpOpen_keeps _ _ _ _ _ _ _).trans ?_ ?_
    | with_reducible refine (State.skpAdvance_keeps _ _ _ _).trans ?_ ?_
    | with_reducible refine (State.genUpd_keeps _ _ _ _ _).trans ?_ ?_
    | split
    | dsimp -iota only

theorem State.nextGen_keeps (s : State) (g0 rank : Nat) : Keeps 0x100000000000000000000000000000000000000000000000000000000000000000000000000000 s (State.nextGen s g0 rank).2 := by
  unfold State.nextGen
  repeat' first
    | with_reducible exact .refl _
    | with_reducible assumption
    | (extract_lets +onlyGivenNames y_; refine Keeps.cut (y := y_) ?_ ?_; rotate_left; clear_value y_; intro _; rotate_left; dsimp -iota only [y_]; clear y_)
    | exact rfl
    | with_reducible intro _
    | with_reducible refine .ite ?_ ?_
    | with_reducible refine .ite2 ?_ ?_
    | with_reducible refine (State.modGroup_keeps _ _ _).trans ?_ ?_
    | split
    | dsimp -iota only

theorem State.contribute_keeps (s : State) (g0 : Nat) (w : SkpWait) (op nvals typ : Nat) (vals : List Nat) : Keeps 0x4000d720000000000000000000000000000000000000000000000000000000000000c0000000880000 s (State.contribute s g0 w op nvals typ vals) := by
  unfold State.contribute
  repeat' first
    | with_reducible exact .refl _
    | with_reducible assumption
    | (extract_lets +onlyGivenNames y_; refine Keeps.cut (y := y_) ?_ ?_; rotate_left; clear_value y_; intro _; rotate_left; dsimp -iota only [y_]; clear y_)
    | exact rfl
    | with_reducible intro _
    | with_reducible refine .ite ?_ ?_
    | with_reducible refine (State.skpInput_keeps _ _ _ _ _ _ _ _ _).trans ?_ ?_
    | with_reducible refine (Keeps.fst (State.skpInput_keeps _ _ _ _ _ _ _ _ _) ‹_›).trans ?_ ?_
    | with_reducible refine (State.finishWait_keeps _ _ _ _ _ _ _).trans ?_ ?_
    | with_reducible refine (State.showGroup_keeps _ _).trans ?_ ?_
    | with_reducible refine (State.modGroup_keeps _ _ _).trans ?_ ?_
    | with_reducible refine (State.endAtChunk_keeps _ _ _ _ _).trans ?_ ?_
    | with_reducible refine (State.endCmd_keeps _ _ _ _ _).trans ?_ ?_
    | with_reducible refine (State.bump_keeps _ _ _ _ ?_).trans (sub_self _) ?_
    | split
    | dsimp -iota only

theorem execSkip_keeps (queue : Queue) (index : BitVec 32) (remote : List RemoteRead) (s : State) {z_ : State} (h_ : execSkip queue index remote s = .next z_) : Keeps 0x4000d720000000000000000000000000000000000000000000000000000000000000c0000000880000 s z_ := by
  unfold execSkip at h_
  refine act_keeps h_ ?_
  repeat' first
    | with_reducible exact .refl _
    | with_reducible assumption
    | (extract_lets +onlyGivenNames y_; refine Keeps.cut (y := y_) ?_ ?_; rotate_left; clear_value y_; intro _; rotate_left; dsimp -iota only [y_]; clear y_)
    | exact rfl
    | with_reducible intro _
    | with_reducible refine .ite ?_ ?_
    | with_reducible refine (State.contribute_keeps _ _ _ _ _ _ _).trans ?_ ?_
    | with_reducible refine (State.nextGen_keeps _ _ _).trans ?_ ?_
    | with_reducible refine (Keeps.snd (State.nextGen_keeps _ _ _) ‹_›).trans ?_ ?_
    | with_reducible refine (State.endCmd_keeps _ _ _ _ _).trans ?_ ?_
    | with_reducible refine (State.modRun_keeps _ _ _ _).trans ?_ ?_
    | split
    | dsimp -iota only

theorem execSkipperReceive_keeps (unit : Fin 256) (p : Packet) (s : State) {z_ : State} (h_ : execSkipperReceive unit p s = .next z_) : Keeps 0x4000d720000000000000000000000000000000000000000000000000000000000000c0000000880000 s z_ := by
  unfold execSkipperReceive at h_
  refine act_keeps h_ ?_
  repeat' first
    | with_reducible exact .refl _
    | with_reducible assumption
    | (extract_lets +onlyGivenNames y_; refine Keeps.cut (y := y_) ?_ ?_; rotate_left; clear_value y_; intro _; rotate_left; dsimp -iota only [y_]; clear y_)
    | exact rfl
    | with_reducible intro _
    | with_reducible refine .ite ?_ ?_
    | with_reducible refine (State.skpInput_keeps _ _ _ _ _ _ _ _ _).trans ?_ ?_
    | with_reducible refine (Keeps.fst (State.skpInput_keeps _ _ _ _ _ _ _ _ _) ‹_›).trans ?_ ?_
    | with_reducible refine (State.skpOpen_keeps _ _ _ _ _ _ _).trans ?_ ?_
    | with_reducible refine (State.skpAdvance_keeps _ _ _ _).trans ?_ ?_
    | with_reducible refine (State.skpResult_keeps _ _ _ _ _ _).trans ?_ ?_
    | with_reducible refine (State.sendSkp_keeps _ _ _ _ _ _ _ _).trans ?_ ?_
    | with_reducible refine (State.genUpd_keeps _ _ _ _ _).trans ?_ ?_
    | split
    | dsimp -iota only

theorem execSkipperRepeat_keeps (group : Fin 4096) (height : Fin 3) (gen : BitVec 32) (s : State) {z_ : State} (h_ : execSkipperRepeat group height gen s = .next z_) : Keeps 0x4000412000000000000000000000000000000000000000000000000000000000000000000000880000 s z_ := by
  unfold execSkipperRepeat at h_
  refine act_keeps h_ ?_
  repeat' first
    | with_reducible exact .refl _
    | with_reducible assumption
    | exact rfl
    | with_reducible intro _
    | with_reducible refine .ite ?_ ?_
    | with_reducible refine (State.sendSkp_keeps _ _ _ _ _ _ _ _).trans ?_ ?_
    | split
    | dsimp -iota only

theorem State.skpSlip_keeps (s : State) (g0 h gen : Nat) : Keeps 0x100000000000000000000000000000000000000000000000000000000000000000000000000000 s (State.skpSlip s g0 h gen) := by
  unfold State.skpSlip
  repeat' first
    | with_reducible exact .refl _
    | with_reducible assumption
    | exact rfl
    | with_reducible intro _
    | with_reducible refine .ite ?_ ?_
    | with_reducible refine (State.genUpd_keeps _ _ _ _ _).trans ?_ ?_
    | split

theorem State.skpAbort_keeps (s : State) (g0 h gen : Nat) : Keeps 0x4000d720000000000000000000000000000000000000000000000000000000000000c0000000880000 s (State.skpAbort s g0 h gen) := by
  unfold State.skpAbort
  repeat' first
    | with_reducible exact .refl _
    | with_reducible assumption
    | (extract_lets +onlyGivenNames y_; refine Keeps.cut (y := y_) ?_ ?_; rotate_left; clear_value y_; intro _; rotate_left; dsimp -iota only [y_]; clear y_)
    | exact rfl
    | with_reducible intro _
    | with_reducible refine .ite ?_ ?_
    | with_reducible refine (State.skpAdvance_keeps _ _ _ _).trans ?_ ?_
    | with_reducible refine (State.genUpd_keeps _ _ _ _ _).trans ?_ ?_
    | with_reducible refine .foldl _ ?_ ?_
    | split
    | dsimp -iota only

end Sys2Proof.Machine
end

