-- ==== Sys2Proof/Laws/KeepsBouquet.lean ====
section
/-! SUPPORT. Sys2Proof/Laws/KeepsBouquet.lean: what each operation of Machine/Bouquet.lean leaves alone. -/

namespace Sys2Proof.Machine

theorem State.showParts_keeps (s : State) : Keeps 0x6400800000000000 s (State.showParts s) := by
  unfold State.showParts
  repeat' first
    | with_reducible exact .refl _
    | with_reducible assumption
    | (extract_lets +onlyGivenNames y_; refine Keeps.cut (y := y_) ?_ ?_; rotate_left; clear_value y_; intro _; rotate_left; dsimp -iota only [y_]; clear y_)
    | exact rfl
    | with_reducible intro _
    | with_reducible refine .ite ?_ ?_
    | with_reducible refine (State.setFld_keeps _ _ _ _ ?_).trans (sub_self _) ?_
    | with_reducible refine (State.setReg_keeps _ _ _ _ ?_).trans (sub_self _) ?_
    | with_reducible refine .foldl _ ?_ ?_
    | split
    | dsimp -iota only

theorem State.activate'_keeps (s : State) (cls : Nat) : Keeps 0x20000000000000000000000000000000000000000000000000000000000000000000000000000000 s (State.activate' s cls) := by
  unfold State.activate'
  repeat' first
    | with_reducible exact .refl _
    | with_reducible assumption
    | exact rfl
    | with_reducible intro _
    | with_reducible refine .ite ?_ ?_
    | split
    | with_reducible apply Keeps.upd rfl
    | exact Or.inl rfl
    | exact Or.inr rfl

theorem State.startKernel_keeps (s : State) : Keeps 0x20400000000000000000000000000000000000000000000000000000000000000000000000000000 s (State.startKernel s) := by
  unfold State.startKernel
  repeat' first
    | with_reducible exact .refl _
    | with_reducible assumption
    | exact rfl
    | with_reducible intro _
    | with_reducible refine .ite ?_ ?_
    | with_reducible refine (State.activate'_keeps _ _).trans ?_ ?_
    | with_reducible refine (State.measureKernel_keeps _ _).trans ?_ ?_
    | split

theorem State.loadCheck_keeps (s0 : State) (slice : Nat) (img : List Byte) : Keeps 0x20400000000000000000000000000000000000000000000000000000008000000000000000000000 s0 (State.loadCheck s0 slice img).1 := by
  unfold State.loadCheck
  repeat' first
    | with_reducible exact .refl _
    | with_reducible assumption
    | (extract_lets +onlyGivenNames y_; refine Keeps.cut (y := y_) ?_ ?_; rotate_left; clear_value y_; intro _; rotate_left; dsimp -iota only [y_]; clear y_)
    | exact rfl
    | with_reducible intro _
    | with_reducible refine .ite ?_ ?_
    | with_reducible refine .ite1 ?_ ?_
    | with_reducible refine (State.startKernel_keeps _).trans ?_ ?_
    | with_reducible refine (State.measureSlice_keeps _ _ _ _).trans ?_ ?_
    | with_reducible refine (State.bump_keeps _ _ _ _ ?_).trans (sub_self _) ?_
    | split
    | dsimp -iota only

end Sys2Proof.Machine
end

