-- ==== Sys2Proof/Laws/KeepsFirmware.lean ====
section
/-! SUPPORT. Sys2Proof/Laws/KeepsFirmware.lean: what each operation of Machine/Firmware.lean leaves alone. -/

namespace Sys2Proof.Machine

theorem State.noteTenant_keeps (s : State) (p : FwPost) (ok : Bool) : Keeps 0x400000000000000000000000000000000000000000000000000000008000000000000000000000 s (State.noteTenant s p ok) := by
  unfold State.noteTenant
  repeat' first
    | with_reducible exact .refl _
    | with_reducible assumption
    | (extract_lets +onlyGivenNames y_; refine Keeps.cut (y := y_) ?_ ?_; rotate_left; clear_value y_; intro _; rotate_left; dsimp -iota only [y_]; clear y_)
    | exact rfl
    | with_reducible intro _
    | with_reducible refine .ite ?_ ?_
    | with_reducible refine (State.bump_keeps _ _ _ _ ?_).trans (sub_self _) ?_
    | split
    | dsimp -iota only
    | with_reducible apply Keeps.upd rfl
    | exact Or.inl rfl
    | exact Or.inr rfl

theorem State.takeCommand_keeps (s : State) (p : FwPost) : Keeps 0x20400000000000000000000000000000000000000000000000000000008000000000000000000000 s (State.takeCommand s p).1 := by
  unfold State.takeCommand
  repeat' first
    | with_reducible exact .refl _
    | with_reducible assumption
    | (extract_lets +onlyGivenNames y_; refine Keeps.cut (y := y_) ?_ ?_; rotate_left; clear_value y_; intro _; rotate_left; dsimp -iota only [y_]; clear y_)
    | exact rfl
    | with_reducible intro _
    | with_reducible refine .ite ?_ ?_
    | with_reducible refine .ite1 ?_ ?_
    | with_reducible refine (State.noteTenant_keeps _ _ _).trans ?_ ?_
    | split
    | dsimp -iota only
    | with_reducible apply Keeps.upd rfl
    | exact Or.inl rfl
    | exact Or.inr rfl

theorem execFwCommandAccept_keeps (mbx : Fin 32) (fetched : List Byte) (s : State) {z_ : State} (h_ : execFwCommandAccept mbx fetched s = .next z_) : Keeps 0xa0400000000000000000000000000000000000000000000000000001588000000000000000000000 s z_ := by
  unfold execFwCommandAccept at h_
  refine act_keeps h_ ?_
  repeat' first
    | with_reducible exact .refl _
    | with_reducible assumption
    | (extract_lets +onlyGivenNames y_; refine Keeps.cut (y := y_) ?_ ?_; rotate_left; clear_value y_; intro _; rotate_left; dsimp -iota only [y_]; clear y_)
    | exact rfl
    | with_reducible intro _
    | with_reducible refine .ite ?_ ?_
    | with_reducible refine (State.takeCommand_keeps _ _).trans ?_ ?_
    | with_reducible refine (Keeps.fst (State.takeCommand_keeps _ _) ‹_›).trans ?_ ?_
    | with_reducible refine (State.mbxAck_keeps _ _ _).trans ?_ ?_
    | split
    | dsimp -iota only

theorem State.writeResult_keeps (s : State) (e : JournalEntry) : Keeps 0x4000800000000000000000000000000000000000000000000000000000000000000000000000000000 s (State.writeResult s e) := by
  unfold State.writeResult
  repeat' first
    | with_reducible exact .refl _
    | with_reducible assumption
    | (extract_lets +onlyGivenNames y_; refine Keeps.cut (y := y_) ?_ ?_; rotate_left; clear_value y_; intro _; rotate_left; dsimp -iota only [y_]; clear y_)
    | exact rfl
    | with_reducible intro _
    | with_reducible refine .ite ?_ ?_
    | with_reducible refine (State.writeMem_keeps _ _ _).trans ?_ ?_
    | with_reducible refine (State.emit_keeps _ _).trans ?_ ?_
    | split
    | dsimp -iota only

theorem State.posted_keeps (s : State) (r : FwRef) : Keeps 0x20000000000000000000000000000000000000000000000000000000000000000000000000000000 s (State.posted s r) := by
  unfold State.posted
  repeat' first
    | with_reducible exact .refl _
    | with_reducible assumption
    | (extract_lets +onlyGivenNames y_; refine Keeps.cut (y := y_) ?_ ?_; rotate_left; clear_value y_; intro _; rotate_left; dsimp -iota only [y_]; clear y_)
    | exact rfl
    | with_reducible intro _
    | with_reducible refine .ite ?_ ?_
    | split
    | dsimp -iota only
    | with_reducible apply Keeps.upd rfl
    | exact Or.inl rfl
    | exact Or.inr rfl

theorem State.stage_keeps (s : State) (cls build : Nat) (bytes : List Byte) : Keeps 0x20000000000000000000000000000000000000000000000000000000000000000000000000000000 s (State.stage s cls build bytes) := by
  unfold State.stage
  repeat' first
    | with_reducible exact .refl _
    | with_reducible assumption
    | exact rfl
    | with_reducible intro _
    | with_reducible refine .ite ?_ ?_
    | split
    | with_reducible apply Keeps.upd rfl
    | exact Or.inl rfl
    | exact Or.inr rfl

theorem execFwStage_keeps (r : FwRef) (cls : Fin 256) (image : FwImage) (s : State) {z_ : State} (h_ : execFwStage r cls image s = .next z_) : Keeps 0x30000000000000000000000000000000000000000000000000000000000000000000000000000000 s z_ := by
  unfold execFwStage at h_
  refine act_keeps h_ ?_
  repeat' first
    | with_reducible exact .refl _
    | with_reducible assumption
    | exact rfl
    | with_reducible intro _
    | with_reducible refine .ite ?_ ?_
    | with_reducible refine (State.stage_keeps _ _ _ _).trans ?_ ?_
    | with_reducible refine (State.finishFw_keeps _ _ _ _ _).trans ?_ ?_
    | split

theorem execFwBroadcast_keeps (r : FwRef) (cls : Fin 4) (s : State) {z_ : State} (h_ : execFwBroadcast r cls s = .next z_) : Keeps 0x4032000000000000000000000000000000000000000000000000000000000000000000000000000000 s z_ := by
  unfold execFwBroadcast at h_
  refine act_keeps h_ ?_
  repeat' first
    | with_reducible exact .refl _
    | with_reducible assumption
    | (extract_lets +onlyGivenNames y_; refine Keeps.cut (y := y_) ?_ ?_; rotate_left; clear_value y_; intro _; rotate_left; dsimp -iota only [y_]; clear y_)
    | exact rfl
    | with_reducible intro _
    | with_reducible refine .ite ?_ ?_
    | with_reducible refine (State.mgrCommand_keeps _ _ _ ?_ ?_).trans (sub_self _) ?_
    | with_reducible refine (State.finishFw_keeps _ _ _ _ _).trans ?_ ?_
    | with_reducible refine (State.sendMgmt_keeps _ _ _).trans ?_ ?_
    | split
    | dsimp -iota only
    | with_reducible apply Keeps.upd rfl
    | exact Or.inl rfl
    | exact Or.inr rfl

theorem State.sendImagePieces_keeps (s : State) : Keeps 0x4022000000000000000000000000000000000000000000000000000000000000000000000000000000 s (State.sendImagePieces s) := by
  unfold State.sendImagePieces
  repeat' first
    | with_reducible exact .refl _
    | with_reducible assumption
    | (extract_lets +onlyGivenNames y_; refine Keeps.cut (y := y_) ?_ ?_; rotate_left; clear_value y_; intro _; rotate_left; dsimp -iota only [y_]; clear y_)
    | exact rfl
    | with_reducible intro _
    | with_reducible refine .ite ?_ ?_
    | with_reducible refine (State.sendMgmt_keeps _ _ _).trans ?_ ?_
    | with_reducible refine .foldl _ ?_ ?_
    | split
    | dsimp -iota only
    | with_reducible apply Keeps.upd rfl
    | exact Or.inl rfl
    | exact Or.inr rfl

theorem bcastBlock_keeps (b : Bcast) (l : List Nat) (x : List Byte × State) : Keeps 0x8000000000000000000000000000000000000000000000000000000000000000000000000000000000 x.2 (bcastBlock b l x).2 := by
  induction l generalizing x with
  | nil => exact .refl _
  | cons c t ih =>
    obtain ⟨bs, s⟩ := x
    unfold bcastBlock
    split
    · exact Keeps.trans (ih _) (sub_self _) (.refl _)
    · exact (ih _).trans (sub_self _) ((State.fresh_keeps s).trans rfl (.refl _))

theorem State.endBcast_keeps (s : State) (b : Bcast) (code : Nat) : Keeps 0x8030000000000000000000000000000000000000000000000000000000000000000000000000000000 s (State.endBcast s b code) := by
  unfold State.endBcast
  repeat' first
    | with_reducible exact .refl _
    | with_reducible assumption
    | (extract_lets +onlyGivenNames y_; refine Keeps.cut (y := y_) ?_ ?_; rotate_left; clear_value y_; intro _; rotate_left; dsimp -iota only [y_]; clear y_)
    | exact rfl
    | with_reducible intro _
    | with_reducible refine .ite ?_ ?_
    | with_reducible refine (bcastBlock_keeps _ _ _).trans ?_ ?_
    | with_reducible refine (Keeps.snd (bcastBlock_keeps _ _ _) ‹_›).trans ?_ ?_
    | with_reducible refine (State.finishFw_keeps _ _ _ _ _).trans ?_ ?_
    | split
    | dsimp -iota only
    | with_reducible apply Keeps.upd rfl
    | exact Or.inl rfl
    | exact Or.inr rfl

theorem execFwBroadcastTimeout_keeps (s : State) {z_ : State} (h_ : execFwBroadcastTimeout s = .next z_) : Keeps 0x8030000000000000000000000000000000000000000000000000000000000000000000000000000000 s z_ := by
  unfold execFwBroadcastTimeout at h_
  refine act_keeps h_ ?_
  repeat' first
    | with_reducible exact .refl _
    | with_reducible assumption
    | exact rfl
    | with_reducible intro _
    | with_reducible refine .ite ?_ ?_
    | with_reducible refine (State.endBcast_keeps _ _ _).trans ?_ ?_
    | split

theorem execFwOfferReceive_keeps (h : MsgHdr) (cls : Fin 256) (build : BitVec 32) (bytes pieces : Nat) (digest : BitVec 256) (s : State) {z_ : State} (h_ : execFwOfferReceive h cls build bytes pieces digest s = .next z_) : Keeps 0x60f2002000000000000000000000000000000000000000000a28000010000000000000001882000002 s z_ := by
  unfold execFwOfferReceive at h_
  refine act_keeps h_ ?_
  repeat' first
    | with_reducible exact .refl _
    | with_reducible assumption
    | (extract_lets +onlyGivenNames y_; refine Keeps.cut (y := y_) ?_ ?_; rotate_left; clear_value y_; intro _; rotate_left; dsimp -iota only [y_]; clear y_)
    | exact rfl
    | with_reducible intro _
    | with_reducible refine .ite ?_ ?_
    | with_reducible refine (State.fromManager_keeps _ _ _ _ ?_ ?_ ?_).trans (sub_self _) ?_
    | with_reducible exact .ident _
    | split
    | dsimp -iota only
    | with_reducible apply Keeps.upd rfl
    | exact Or.inl rfl
    | exact Or.inr rfl

theorem State.takePiece_keeps (s : State) (piece build : Nat) (data : List Byte) (verdict : Nat) : Keeps 0x4022000000000000000000000000000000000000000000000000000000000000000000000000000000 s (State.takePiece s piece build data verdict) := by
  unfold State.takePiece
  repeat' first
    | with_reducible exact .refl _
    | with_reducible assumption
    | (extract_lets +onlyGivenNames y_; refine Keeps.cut (y := y_) ?_ ?_; rotate_left; clear_value y_; intro _; rotate_left; dsimp -iota only [y_]; clear y_)
    | exact rfl
    | with_reducible intro _
    | with_reducible refine .ite ?_ ?_
    | with_reducible refine (State.stage_keeps _ _ _ _).trans ?_ ?_
    | with_reducible refine (State.sendMgmt_keeps _ _ _).trans ?_ ?_
    | split
    | dsimp -iota only
    | with_reducible apply Keeps.upd rfl
    | exact Or.inl rfl
    | exact Or.inr rfl

theorem execFwPieceReceive_keeps (h : MsgHdr) (piece : Nat) (build : BitVec 32) (data : List Byte) (verdict : Fin 5) (s : State) {z_ : State} (h_ : execFwPieceReceive h piece build data verdict s = .next z_) : Keeps 0x60f2002000000000000000000000000000000000000000000a28000010000000000000001882000002 s z_ := by
  unfold execFwPieceReceive at h_
  refine act_keeps h_ ?_
  repeat' first
    | with_reducible exact .refl _
    | with_reducible assumption
    | exact rfl
    | with_reducible intro _
    | with_reducible refine .ite ?_ ?_
    | with_reducible refine (State.takePiece_keeps _ _ _ _ _).trans ?_ ?_
    | with_reducible refine (State.fromManager_keeps _ _ _ _ ?_ ?_ ?_).trans (sub_self _) ?_
    | with_reducible exact .ident _
    | split

theorem execFwNeedReceive_keeps (h : MsgHdr) (build : BitVec 32) (first count : Nat) (s : State) {z_ : State} (h_ : execFwNeedReceive h build first count s = .next z_) : Keeps 0x60f2000000000000000000000000000000000000000000000a28000010000000000000001082000002 s z_ := by
  unfold execFwNeedReceive at h_
  refine act_keeps h_ ?_
  repeat' first
    | with_reducible exact .refl _
    | with_reducible assumption
    | (extract_lets +onlyGivenNames y_; refine Keeps.cut (y := y_) ?_ ?_; rotate_left; clear_value y_; intro _; rotate_left; dsimp -iota only [y_]; clear y_)
    | exact rfl
    | with_reducible intro _
    | with_reducible refine .ite ?_ ?_
    | with_reducible refine (State.atManager_keeps _ _ _ _ ?_ ?_ ?_).trans (sub_self _) ?_
    | with_reducible refine (State.sendMgmt_keeps _ _ _).trans ?_ ?_
    | with_reducible exact .ident _
    | with_reducible refine .foldl _ ?_ ?_
    | split
    | dsimp -iota only
    | with_reducible apply Keeps.upd rfl
    | exact Or.inl rfl
    | exact Or.inr rfl

theorem execFwResultReceive_keeps (h : MsgHdr) (build : BitVec 32) (result : Fin 256) (s : State) {z_ : State} (h_ : execFwResultReceive h build result s = .next z_) : Keeps 0xe0f2000000000000000000000000000000000000000000000a28000010000000000000001082000002 s z_ := by
  unfold execFwResultReceive at h_
  refine act_keeps h_ ?_
  repeat' first
    | with_reducible exact .refl _
    | with_reducible assumption
    | (extract_lets +onlyGivenNames y_; refine Keeps.cut (y := y_) ?_ ?_; rotate_left; clear_value y_; intro _; rotate_left; dsimp -iota only [y_]; clear y_)
    | exact rfl
    | with_reducible intro _
    | with_reducible refine .ite ?_ ?_
    | with_reducible refine (State.endBcast_keeps _ _ _).trans ?_ ?_
    | with_reducible refine (State.atManager_keeps _ _ _ _ ?_ ?_ ?_).trans (sub_self _) ?_
    | with_reducible exact .ident _
    | split
    | dsimp -iota only
    | with_reducible apply Keeps.upd rfl
    | exact Or.inl rfl
    | exact Or.inr rfl

theorem execFwStatus_keeps (r : FwRef) (s : State) {z_ : State} (h_ : execFwStatus r s = .next z_) : Keeps 0x30000000000000000000000000000000000000000000000000000000000000000000000000000000 s z_ := by
  unfold execFwStatus at h_
  refine act_keeps h_ ?_
  repeat' first
    | with_reducible exact .refl _
    | with_reducible assumption
    | (extract_lets +onlyGivenNames y_; refine Keeps.cut (y := y_) ?_ ?_; rotate_left; clear_value y_; intro _; rotate_left; dsimp -iota only [y_]; clear y_)
    | exact rfl
    | with_reducible intro _
    | with_reducible refine .ite ?_ ?_
    | with_reducible refine (State.finishFw_keeps _ _ _ _ _).trans ?_ ?_
    | split
    | dsimp -iota only

theorem execFwRestart_keeps (r : FwRef) (s : State) {z_ : State} (h_ : execFwRestart r s = .next z_) : Keeps 0xb00800000000000000000000000000000000000000000000400000017f0004000000000000000000 s z_ := by
  unfold execFwRestart at h_
  refine act_keeps h_ ?_
  repeat' first
    | with_reducible exact .refl _
    | with_reducible assumption
    | exact rfl
    | with_reducible intro _
    | with_reducible refine .ite ?_ ?_
    | with_reducible refine (State.fwRestart_keeps _ _).trans ?_ ?_
    | with_reducible refine (State.finishFw_keeps _ _ _ _ _).trans ?_ ?_
    | split

theorem execCounters_keeps (r : FwRef) (group : Fin 256) (s : State) {z_ : State} (h_ : execCounters r group s = .next z_) : Keeps 0x30000000000000000000000000000000000000000000000000000000000000000000000000000000 s z_ := by
  unfold execCounters at h_
  refine act_keeps h_ ?_
  repeat' first
    | with_reducible exact .refl _
    | with_reducible assumption
    | exact rfl
    | with_reducible intro _
    | with_reducible refine .ite ?_ ?_
    | with_reducible refine (State.finishFw_keeps _ _ _ _ _).trans ?_ ?_
    | split

end Sys2Proof.Machine
end

