-- ==== Sys2Proof/Laws/KeepsService.lean ====
section
/-! SUPPORT. Sys2Proof/Laws/KeepsService.lean: what each operation of Machine/Service.lean leaves alone. -/

namespace Sys2Proof.Machine

theorem State.modSession_keeps (s : State) (port num : Nat) (f : BulkSession → BulkSession) : Keeps 0x20000000000000000000000000000000000000000000000000000000000000000000000000000000 s (State.modSession s port num f) := by
  unfold State.modSession
  repeat' first
    | with_reducible exact .refl _
    | with_reducible assumption
    | exact rfl
    | with_reducible intro _
    | with_reducible refine .ite ?_ ?_
    | split
    | with_reducible apply Keeps.upd rfl
    | exact Or.inl rfl
    | exact Or.inr rfl

theorem State.discardBulk_keeps (s : State) (port : Nat) : Keeps 0x20000000000000000000000000000000000000000000000000000000000000000000000000000000 s (State.discardBulk s port) := by
  unfold State.discardBulk
  repeat' first
    | with_reducible exact .refl _
    | with_reducible assumption
    | exact rfl
    | with_reducible intro _
    | with_reducible refine .ite ?_ ?_
    | split
    | with_reducible apply Keeps.upd rfl
    | exact Or.inl rfl
    | exact Or.inr rfl

theorem State.bulkPump_keeps (s : State) (port num fuel : Nat) : Keeps 0x4020000000000000000000000000000000000000000000000000000000000000000000000000000000 s (State.bulkPump s port num fuel) := by
  induction fuel generalizing s with
  | zero => exact .refl _
  | succ k ih =>
    unfold State.bulkPump
    split
    · exact .refl _
    · split
      · exact .refl _
      · refine .ite (fun _ => .refl _) fun _ => ?_
        exact (ih _).trans (sub_self _) ((State.emit_keeps _ _).trans rfl ((State.modSession_keeps _ _ _ _).trans rfl (.refl _)))

theorem State.bulkSend_keeps (s : State) (port num : Nat) (d : BulkDgram) : Keeps 0x4020000000000000000000000000000000000000000000000000000000000000000000000000000000 s (State.bulkSend s port num d) := by
  unfold State.bulkSend
  repeat' first
    | with_reducible exact .refl _
    | with_reducible assumption
    | (extract_lets +onlyGivenNames y_; refine Keeps.cut (y := y_) ?_ ?_; rotate_left; clear_value y_; intro _; rotate_left; dsimp -iota only [y_]; clear y_)
    | exact rfl
    | with_reducible intro _
    | with_reducible refine .ite ?_ ?_
    | with_reducible refine (State.bulkPump_keeps _ _ _ _).trans ?_ ?_
    | with_reducible refine (State.modSession_keeps _ _ _ _).trans ?_ ?_
    | split
    | dsimp -iota only

theorem State.bulkAck_keeps (s : State) (x : BulkSession) : Keeps 0x4020000000000000000000000000000000000000000000000000000000000000000000000000000000 s (State.bulkAck s x) := by
  unfold State.bulkAck
  repeat' first
    | with_reducible exact .refl _
    | with_reducible assumption
    | exact rfl
    | with_reducible intro _
    | with_reducible refine .ite ?_ ?_
    | with_reducible refine (State.modSession_keeps _ _ _ _).trans ?_ ?_
    | with_reducible refine (State.emit_keeps _ _).trans ?_ ?_
    | split

theorem State.bulkNak_keeps (s : State) (x : BulkSession) (seq : BitVec 32) (status : Nat) : Keeps 0x4000000000000000000000000000000000000000000000000000000000000000000000000000000000 s (State.bulkNak s x seq status) := by
  unfold State.bulkNak
  repeat' first
    | with_reducible exact .refl _
    | with_reducible assumption
    | exact rfl
    | with_reducible intro _
    | with_reducible refine .ite ?_ ?_
    | with_reducible refine (State.emit_keeps _ _).trans ?_ ?_
    | split

theorem State.sendMgmtResult_keeps (s : State) (port num : Nat) (word : Word) (block : List Byte) : Keeps 0x4020000000000000000000000000000000000000000000000000000000000000000000000000000000 s (State.sendMgmtResult s port num word block) := by
  unfold State.sendMgmtResult
  repeat' first
    | with_reducible exact .refl _
    | with_reducible assumption
    | (extract_lets +onlyGivenNames y_; refine Keeps.cut (y := y_) ?_ ?_; rotate_left; clear_value y_; intro _; rotate_left; dsimp -iota only [y_]; clear y_)
    | exact rfl
    | with_reducible intro _
    | with_reducible refine .ite ?_ ?_
    | with_reducible refine (State.bulkSend_keeps _ _ _ _).trans ?_ ?_
    | split
    | dsimp -iota only

theorem State.bulkCommand_keeps (s : State) (x : BulkSession) (d : BulkDgram) : Keeps 0x4020400000000000000000000000000000000000000000000000000000008000000000000000000000 s (State.bulkCommand s x d) := by
  unfold State.bulkCommand
  repeat' first
    | with_reducible exact .refl _
    | with_reducible assumption
    | (extract_lets +onlyGivenNames y_; refine Keeps.cut (y := y_) ?_ ?_; rotate_left; clear_value y_; intro _; rotate_left; dsimp -iota only [y_]; clear y_)
    | exact rfl
    | with_reducible intro _
    | with_reducible refine .ite ?_ ?_
    | with_reducible refine (State.sendMgmtResult_keeps _ _ _ _ _).trans ?_ ?_
    | with_reducible refine (State.takeCommand_keeps _ _).trans ?_ ?_
    | with_reducible refine (Keeps.fst (State.takeCommand_keeps _ _) ‹_›).trans ?_ ?_
    | split
    | dsimp -iota only

theorem State.bulkEffect_keeps (s : State) (x : BulkSession) (d : BulkDgram) : Keeps 0x4020c40000000000000000000000000000000000000000000000000000008000000000000000000000 s (State.bulkEffect s x d) := by
  unfold State.bulkEffect
  dsimp -iota only
  refine .ite (fun _ => .ite (fun _ => ?_) fun _ => ?_) fun _ => .ite (fun _ => .ite (fun _ => ?_) fun _ => ?_) fun _ => ?_
  · exact (State.bulkNak_keeps _ _ _ _).trans rfl (.refl _)
  · have hk := State.storeOwn_keeps s x.ctx (addrOffset d.addr.toNat) d.data
    generalize State.storeOwn s x.ctx (addrOffset d.addr.toNat) d.data = y at hk ⊢
    obtain ⟨t, st⟩ := y
    have h1 : Keeps 0x4020c40000000000000000000000000000000000000000000000000000008000000000000000000000 s t := Keeps.trans (t := t) hk rfl (.refl s)
    exact .ite (fun _ => h1) fun _ => (State.bulkNak_keeps _ _ _ _).trans rfl h1
  · exact (State.bulkNak_keeps _ _ _ _).trans rfl (.refl _)
  · split
    · exact (State.bulkNak_keeps _ _ _ _).trans rfl (.refl _)
    · exact (State.bulkSend_keeps _ _ _ _).trans rfl (.refl _)
  · exact .ite (fun _ => (State.bulkCommand_keeps _ _ _).trans rfl (.refl _)) fun _ => .refl _

theorem State.bulkResend_keeps (s : State) (x : BulkSession) (seq : BitVec 32) : Keeps 0x4020000000000000000000000000000000000000000000000000000000000000000000000000000000 s (State.bulkResend s x seq) := by
  unfold State.bulkResend
  repeat' first
    | with_reducible exact .refl _
    | with_reducible assumption
    | (extract_lets +onlyGivenNames y_; refine Keeps.cut (y := y_) ?_ ?_; rotate_left; clear_value y_; intro _; rotate_left; dsimp -iota only [y_]; clear y_)
    | exact rfl
    | with_reducible intro _
    | with_reducible refine .ite ?_ ?_
    | with_reducible refine (State.modSession_keeps _ _ _ _).trans ?_ ?_
    | with_reducible refine (State.emits_keeps _ _).trans ?_ ?_
    | split
    | dsimp -iota only

theorem State.bulkAcked_keeps (s : State) (x : BulkSession) (seq : BitVec 32) : Keeps 0x4020000000000000000000000000000000000000000000000000000000000000000000000000000000 s (State.bulkAcked s x seq) := by
  unfold State.bulkAcked
  repeat' first
    | with_reducible exact .refl _
    | with_reducible assumption
    | (extract_lets +onlyGivenNames y_; refine Keeps.cut (y := y_) ?_ ?_; rotate_left; clear_value y_; intro _; rotate_left; dsimp -iota only [y_]; clear y_)
    | exact rfl
    | with_reducible intro _
    | with_reducible refine .ite ?_ ?_
    | with_reducible refine (State.bulkPump_keeps _ _ _ _).trans ?_ ?_
    | with_reducible refine (State.modSession_keeps _ _ _ _).trans ?_ ?_
    | split
    | dsimp -iota only

theorem State.bulkSequenced_keeps (s : State) (x : BulkSession) (d : BulkDgram) : Keeps 0x4020c40000000000000000000000000000000000000000000000000000008000000000000000000000 s (State.bulkSequenced s x d) := by
  unfold State.bulkSequenced
  repeat' first
    | with_reducible exact .refl _
    | with_reducible assumption
    | (extract_lets +onlyGivenNames y_; refine Keeps.cut (y := y_) ?_ ?_; rotate_left; clear_value y_; intro _; rotate_left; dsimp -iota only [y_]; clear y_)
    | exact rfl
    | with_reducible intro _
    | with_reducible refine .ite ?_ ?_
    | with_reducible refine (State.bulkEffect_keeps _ _ _).trans ?_ ?_
    | with_reducible refine (State.bulkNak_keeps _ _ _ _).trans ?_ ?_
    | with_reducible refine (State.modSession_keeps _ _ _ _).trans ?_ ?_
    | split
    | dsimp -iota only

theorem State.bulkIn_keeps (s : State) (port : Nat) (d : BulkDgram) (tagOk : Bool) : Keeps 0x4020c40000000000000000000000000000000000000000000000000000008000000000000000000000 s (State.bulkIn s port d tagOk) := by
  unfold State.bulkIn
  repeat' first
    | with_reducible exact .refl _
    | with_reducible assumption
    | exact rfl
    | with_reducible intro _
    | with_reducible refine .ite ?_ ?_
    | with_reducible refine (State.bulkSequenced_keeps _ _ _).trans ?_ ?_
    | with_reducible refine (State.bulkAcked_keeps _ _ _).trans ?_ ?_
    | with_reducible refine (State.bulkResend_keeps _ _ _).trans ?_ ?_
    | with_reducible refine (State.discardBulk_keeps _ _).trans ?_ ?_
    | split

theorem execBulkDatagramReceive_keeps (port : Port) (d : BulkDgram) (tagOk : Bool) (s : State) {z_ : State} (h_ : execBulkDatagramReceive port d tagOk s = .next z_) : Keeps 0x4020c40000000000000000000000000000000000000000000000000000008000000000000000000000 s z_ := by
  unfold execBulkDatagramReceive at h_
  refine act_keeps h_ ?_
  repeat' first
    | with_reducible exact .refl _
    | with_reducible assumption
    | exact rfl
    | with_reducible intro _
    | with_reducible refine .ite ?_ ?_
    | with_reducible refine (State.bulkIn_keeps _ _ _ _).trans ?_ ?_
    | split

theorem execBulkMgmtDatagram_keeps (port : Port) (d : BulkDgram) (tagOk : Bool) (s : State) {z_ : State} (h_ : execBulkMgmtDatagram port d tagOk s = .next z_) : Keeps 0x4020c40000000000000000000000000000000000000000000000000000008000000000000000000000 s z_ := by
  unfold execBulkMgmtDatagram at h_
  refine act_keeps h_ ?_
  repeat' first
    | with_reducible exact .refl _
    | with_reducible assumption
    | exact rfl
    | with_reducible intro _
    | with_reducible refine .ite ?_ ?_
    | with_reducible refine (State.bulkIn_keeps _ _ _ _).trans ?_ ?_
    | split

theorem execBulkAckTimer_keeps (port : Port) (session : BitVec 32) (s : State) {z_ : State} (h_ : execBulkAckTimer port session s = .next z_) : Keeps 0x4020000000000000000000000000000000000000000000000000000000000000000000000000000000 s z_ := by
  unfold execBulkAckTimer at h_
  refine act_keeps h_ ?_
  repeat' first
    | with_reducible exact .refl _
    | with_reducible assumption
    | exact rfl
    | with_reducible intro _
    | with_reducible refine .ite ?_ ?_
    | with_reducible refine (State.bulkAck_keeps _ _).trans ?_ ?_
    | split

theorem execBulkResendTimeout_keeps (port : Port) (session : BitVec 32) (s : State) {z_ : State} (h_ : execBulkResendTimeout port session s = .next z_) : Keeps 0x4020000000000000000000000000000000000000000000000000000000000000000000000000000000 s z_ := by
  unfold execBulkResendTimeout at h_
  refine act_keeps h_ ?_
  repeat' first
    | with_reducible exact .refl _
    | with_reducible assumption
    | exact rfl
    | with_reducible intro _
    | with_reducible refine .ite ?_ ?_
    | with_reducible refine (State.bulkResend_keeps _ _ _).trans ?_ ?_
    | split

theorem execServiceFrameReceive_keeps (port : Port) (f : EthFrame) (s : State) {z_ : State} (h_ : execServiceFrameReceive port f s = .next z_) : Keeps 0x4020000000000000000000000000000000000000000000000000000000000000000000000000000000 s z_ := by
  unfold execServiceFrameReceive at h_
  refine act_keeps h_ ?_
  repeat' first
    | with_reducible exact .refl _
    | with_reducible assumption
    | (extract_lets +onlyGivenNames y_; refine Keeps.cut (y := y_) ?_ ?_; rotate_left; clear_value y_; intro _; rotate_left; dsimp -iota only [y_]; clear y_)
    | exact rfl
    | with_reducible intro _
    | with_reducible refine .ite ?_ ?_
    | with_reducible refine (State.bulkPump_keeps _ _ _ _).trans ?_ ?_
    | with_reducible refine (State.emit_keeps _ _).trans ?_ ?_
    | with_reducible refine .foldl _ ?_ ?_
    | split
    | dsimp -iota only
    | with_reducible apply Keeps.upd rfl
    | exact Or.inl rfl
    | exact Or.inr rfl

theorem execServiceCfg_keeps (r : FwRef) (port prio : Fin 256) (vlan : Fin 65536) (ipv6 : BitVec 128) (s : State) {z_ : State} (h_ : execServiceCfg r port prio vlan ipv6 s = .next z_) : Keeps 0x30000000000000000000000000000000000000000000000000000000000000000000000000000000 s z_ := by
  unfold execServiceCfg at h_
  refine act_keeps h_ ?_
  repeat' first
    | with_reducible exact .refl _
    | with_reducible assumption
    | (extract_lets +onlyGivenNames y_; refine Keeps.cut (y := y_) ?_ ?_; rotate_left; clear_value y_; intro _; rotate_left; dsimp -iota only [y_]; clear y_)
    | exact rfl
    | with_reducible intro _
    | with_reducible refine .ite ?_ ?_
    | with_reducible refine (State.finishFw_keeps _ _ _ _ _).trans ?_ ?_
    | split
    | dsimp -iota only
    | with_reducible apply Keeps.upd rfl
    | exact Or.inl rfl
    | exact Or.inr rfl

theorem execSessionOpen_keeps (r : FwRef) (port flags : Fin 256) (ctx : Fin 65536) (session : BitVec 32) (peer : BitVec 128) (key : List Byte) (tenant : Bool) (s : State) {z_ : State} (h_ : execSessionOpen r port flags ctx session peer key tenant s = .next z_) : Keeps 0x30000000000000000000000000000000000000000000000000000000000000000000000000000000 s z_ := by
  unfold execSessionOpen at h_
  refine act_keeps h_ ?_
  repeat' first
    | with_reducible exact .refl _
    | with_reducible assumption
    | (extract_lets +onlyGivenNames y_; refine Keeps.cut (y := y_) ?_ ?_; rotate_left; clear_value y_; intro _; rotate_left; dsimp -iota only [y_]; clear y_)
    | exact rfl
    | with_reducible intro _
    | with_reducible refine .ite ?_ ?_
    | with_reducible refine (State.finishFw_keeps _ _ _ _ _).trans ?_ ?_
    | split
    | dsimp -iota only
    | with_reducible apply Keeps.upd rfl
    | exact Or.inl rfl
    | exact Or.inr rfl

theorem execSessionClose_keeps (r : FwRef) (port : Fin 256) (session : BitVec 32) (s : State) {z_ : State} (h_ : execSessionClose r port session s = .next z_) : Keeps 0x30000000000000000000000000000000000000000000000000000000000000000000000000000000 s z_ := by
  unfold execSessionClose at h_
  refine act_keeps h_ ?_
  repeat' first
    | with_reducible exact .refl _
    | with_reducible assumption
    | (extract_lets +onlyGivenNames y_; refine Keeps.cut (y := y_) ?_ ?_; rotate_left; clear_value y_; intro _; rotate_left; dsimp -iota only [y_]; clear y_)
    | exact rfl
    | with_reducible intro _
    | with_reducible refine .ite ?_ ?_
    | with_reducible refine (State.finishFw_keeps _ _ _ _ _).trans ?_ ?_
    | split
    | dsimp -iota only
    | with_reducible apply Keeps.upd rfl
    | exact Or.inl rfl
    | exact Or.inr rfl

theorem execResultPost_keeps (r : FwRef) (s : State) {z_ : State} (h_ : execResultPost r s = .next z_) : Keeps 0x40a08000000000000000000000000000000000000000000000000000015e0000000000000000000000 s z_ := by
  unfold execResultPost at h_
  refine act_keeps h_ ?_
  repeat' first
    | with_reducible exact .refl _
    | with_reducible assumption
    | (extract_lets +onlyGivenNames y_; refine Keeps.cut (y := y_) ?_ ?_; rotate_left; clear_value y_; intro _; rotate_left; dsimp -iota only [y_]; clear y_)
    | exact rfl
    | with_reducible intro _
    | with_reducible refine .ite ?_ ?_
    | with_reducible refine (State.sendMgmtResult_keeps _ _ _ _ _).trans ?_ ?_
    | with_reducible refine (State.posted_keeps _ _).trans ?_ ?_
    | with_reducible refine (State.writeResult_keeps _ _).trans ?_ ?_
    | with_reducible refine (State.mbxPost_keeps _ _ _ _ _).trans ?_ ?_
    | split
    | dsimp -iota only

end Sys2Proof.Machine
end

