-- ==== Sys2Proof/Laws/KeepsSillage.lean ====
section
/-! SUPPORT. Sys2Proof/Laws/KeepsSillage.lean: what each operation of Machine/Sillage.lean leaves alone. -/

namespace Sys2Proof.Machine

theorem State.persist_keeps (s : State) (r : SilRec) : Keeps 0x800000000000000000000000000000000000000000000000010000000000000000000000000000000 s (State.persist s r) := by
  unfold State.persist
  repeat' first
    | with_reducible exact .refl _
    | with_reducible assumption
    | (extract_lets +onlyGivenNames y_; refine Keeps.cut (y := y_) ?_ ?_; rotate_left; clear_value y_; intro _; rotate_left; dsimp -iota only [y_]; clear y_)
    | exact rfl
    | with_reducible intro _
    | with_reducible refine .ite ?_ ?_
    | with_reducible refine (State.setFld_keeps _ _ _ _ ?_).trans (sub_self _) ?_
    | split
    | dsimp -iota only
    | with_reducible apply Keeps.upd rfl
    | exact Or.inl rfl
    | exact Or.inr rfl

theorem State.skipPersist_keeps (s : State) (r : SilRec) : Keeps 0x40000000000000000000000000000000000000000000000020000000000000000000000000000000 s (State.skipPersist s r) := by
  unfold State.skipPersist
  repeat' first
    | with_reducible exact .refl _
    | with_reducible assumption
    | (extract_lets +onlyGivenNames y_; refine Keeps.cut (y := y_) ?_ ?_; rotate_left; clear_value y_; intro _; rotate_left; dsimp -iota only [y_]; clear y_)
    | exact rfl
    | with_reducible intro _
    | with_reducible refine .ite ?_ ?_
    | with_reducible refine (State.bump_keeps _ _ _ _ ?_).trans (sub_self _) ?_
    | split
    | dsimp -iota only
    | with_reducible apply Keeps.upd rfl
    | exact Or.inl rfl
    | exact Or.inr rfl

theorem State.persistNext_keeps (s : State) (r : SilRec) : Keeps 0x840000000000000000000000000000000000000000000000030000000000000000000000000000000 s (State.persistNext s r) := by
  unfold State.persistNext
  repeat' first
    | with_reducible exact .refl _
    | with_reducible assumption
    | (extract_lets +onlyGivenNames y_; refine Keeps.cut (y := y_) ?_ ?_; rotate_left; clear_value y_; intro _; rotate_left; dsimp -iota only [y_]; clear y_)
    | exact rfl
    | with_reducible intro _
    | with_reducible refine .ite ?_ ?_
    | with_reducible refine (State.skipPersist_keeps _ _).trans ?_ ?_
    | with_reducible refine (State.persist_keeps _ _).trans ?_ ?_
    | split
    | dsimp -iota only
    | with_reducible apply Keeps.upd rfl
    | exact Or.inl rfl
    | exact Or.inr rfl

theorem execPersistWrite_keeps (s : State) {z_ : State} (h_ : execPersistWrite s = .next z_) : Keeps 0x840000000000000000000000000000000000000000000000030000000000000000000000000000000 s z_ := by
  unfold execPersistWrite at h_
  refine act_keeps h_ ?_
  repeat' first
    | with_reducible exact .refl _
    | with_reducible assumption
    | exact rfl
    | with_reducible intro _
    | with_reducible refine .ite ?_ ?_
    | with_reducible refine (State.persistNext_keeps _ _).trans ?_ ?_
    | split

theorem State.showWindow_keeps (s : State) (owner : Nat) (bs : List Byte) : Keeps 0x80000000000000000000000000000000 s (State.showWindow s owner bs) := by
  unfold State.showWindow
  repeat' first
    | with_reducible exact .refl _
    | with_reducible assumption
    | exact rfl
    | with_reducible intro _
    | with_reducible refine .ite ?_ ?_
    | with_reducible refine (State.setReg_keeps _ _ _ _ ?_).trans (sub_self _) ?_
    | with_reducible refine .foldl _ ?_ ?_
    | split

theorem State.latch_keeps (s : State) (owner segment pos : Nat) (auto' : Bool) : Keeps 0xc0000000000000000000000000000000 s (State.latch s owner segment pos auto') := by
  unfold State.latch
  repeat' first
    | with_reducible exact .refl _
    | with_reducible assumption
    | (extract_lets +onlyGivenNames y_; refine Keeps.cut (y := y_) ?_ ?_; rotate_left; clear_value y_; intro _; rotate_left; dsimp -iota only [y_]; clear y_)
    | exact rfl
    | with_reducible intro _
    | with_reducible refine .ite ?_ ?_
    | with_reducible refine (State.showWindow_keeps _ _ _).trans ?_ ?_
    | with_reducible refine (State.setReg_keeps _ _ _ _ ?_).trans (sub_self _) ?_
    | split
    | dsimp -iota only

theorem State.writeCursor_keeps (s : State) (owner : Nat) (v : Word) : Keeps 0xc0000000000000000000000000000000 s (State.writeCursor s owner v) := by
  unfold State.writeCursor
  repeat' first
    | with_reducible exact .refl _
    | with_reducible assumption
    | exact rfl
    | with_reducible intro _
    | with_reducible refine .ite ?_ ?_
    | with_reducible refine (State.latch_keeps _ _ _ _ _).trans ?_ ?_
    | split

theorem State.readWindow7_keeps (s : State) (owner : Nat) : Keeps 0xc0000000000000000000000000000000 s (State.readWindow7 s owner).1 := by
  unfold State.readWindow7
  repeat' first
    | with_reducible exact .refl _
    | with_reducible assumption
    | (extract_lets +onlyGivenNames y_; refine Keeps.cut (y := y_) ?_ ?_; rotate_left; clear_value y_; intro _; rotate_left; dsimp -iota only [y_]; clear y_)
    | exact rfl
    | with_reducible intro _
    | with_reducible refine .ite ?_ ?_
    | with_reducible refine .ite1 ?_ ?_
    | with_reducible refine (State.latch_keeps _ _ _ _ _).trans ?_ ?_
    | split
    | dsimp -iota only

theorem execSilCursorWrite_keeps (owner : Owner) (value : Word) (s : State) {z_ : State} (h_ : execSilCursorWrite owner value s = .next z_) : Keeps 0x40000000000000000000000000000000000000000000000000c0000000000000000000000000000000 s z_ := by
  unfold execSilCursorWrite at h_
  refine accessBy_keeps h_ rfl ?_
  repeat' first
    | with_reducible exact .refl _
    | with_reducible assumption
    | exact rfl
    | with_reducible intro _
    | with_reducible refine .ite ?_ ?_
    | with_reducible refine (State.writeCursor_keeps _ _ _).trans ?_ ?_
    | split

theorem execSilWindow7AutoRead_keeps (owner : Owner) (s : State) {z_ : State} (h_ : execSilWindow7AutoRead owner s = .next z_) : Keeps 0x40000000000000000000000000000000000000000000000000c0000000000000000000000000000000 s z_ := by
  unfold execSilWindow7AutoRead at h_
  refine accessBy_keeps h_ rfl ?_
  repeat' first
    | with_reducible exact .refl _
    | with_reducible assumption
    | exact rfl
    | with_reducible intro _
    | with_reducible refine .ite ?_ ?_
    | with_reducible refine (State.readWindow7_keeps _ _).trans ?_ ?_
    | with_reducible refine (Keeps.fst (State.readWindow7_keeps _ _) ‹_›).trans ?_ ?_
    | split

theorem execSilClear_keeps (r : FwRef) (s : State) {z_ : State} (h_ : execSilClear r s = .next z_) : Keeps 0x2070000000000000000000000000000000000000000000000a28000000000000000000000000000000 s z_ := by
  unfold execSilClear at h_
  refine act_keeps h_ ?_
  repeat' first
    | with_reducible exact .refl _
    | with_reducible assumption
    | (extract_lets +onlyGivenNames y_; refine Keeps.cut (y := y_) ?_ ?_; rotate_left; clear_value y_; intro _; rotate_left; dsimp -iota only [y_]; clear y_)
    | exact rfl
    | with_reducible intro _
    | with_reducible refine .ite ?_ ?_
    | with_reducible refine (State.finishFw_keeps _ _ _ _ _).trans ?_ ?_
    | with_reducible refine (State.sillage_keeps _ _ _ _ _).trans ?_ ?_
    | with_reducible refine (State.silOldest_keeps _).trans ?_ ?_
    | split
    | dsimp -iota only
    | with_reducible apply Keeps.upd rfl
    | exact Or.inl rfl
    | exact Or.inr rfl

theorem State.takeOwn_keeps (s : State) (w n : Nat) : Keeps 0x8000040000000000000000000000000000000000000000000000000000000000000000000000000000 s (s.takeOwn w n).1 := by
  induction n generalizing s with
  | zero => exact .refl _
  | succ n ih =>
    unfold State.takeOwn
    exact (ih _).trans (sub_self _) ((State.takeFrame_keeps _ _).trans rfl (.refl _))

theorem State.setRegion_keeps (s : State) (w : Nat) (fs : List Nat) : Keeps 0x40000000000000000000000000000000000000000000010000000000000000000000000000000 s (State.setRegion s w fs) := by
  unfold State.setRegion
  repeat' first
    | with_reducible exact .refl _
    | with_reducible assumption
    | exact rfl
    | with_reducible intro _
    | with_reducible refine .ite ?_ ?_
    | with_reducible refine (State.setFld_keeps _ _ _ _ ?_).trans (sub_self _) ?_
    | split
    | with_reducible apply Keeps.upd rfl
    | exact Or.inl rfl
    | exact Or.inr rfl

theorem State.moveRegion_keeps (s : State) (n : Nat) : KeepsO 0x8000040000000000000000000000000000000000000000000010000000000000200000000000000000 s (State.moveRegion s n) := by
  unfold State.moveRegion
  repeat' first
    | (extract_lets +onlyGivenNames y_; refine KeepsO.cut (y := y_) ?_ ?_; rotate_left; clear_value y_; intro _; rotate_left; dsimp -iota only [y_]; clear y_)
    | with_reducible exact KeepsO.absent
    | with_reducible refine KeepsO.ite ?_ ?_
    | with_reducible refine KeepsO.given ?_
    | with_reducible refine KeepsO.map ?_ ?_
    | with_reducible refine KeepsO.mapped ?_
    | with_reducible exact .refl _
    | with_reducible assumption
    | (extract_lets +onlyGivenNames y_; refine Keeps.cut (y := y_) ?_ ?_; rotate_left; clear_value y_; intro _; rotate_left; dsimp -iota only [y_]; clear y_)
    | exact rfl
    | with_reducible intro _
    | with_reducible refine .ite ?_ ?_
    | with_reducible refine (State.setRegion_keeps _ _ _).trans ?_ ?_
    | with_reducible refine (State.takeOwn_keeps _ _ _).trans ?_ ?_
    | with_reducible refine (Keeps.fst (State.takeOwn_keeps _ _ _) ‹_›).trans ?_ ?_
    | with_reducible refine (State.releaseFrame_keeps _ _).trans ?_ ?_
    | with_reducible refine (State.showPool_keeps _).trans ?_ ?_
    | with_reducible refine .foldl _ ?_ ?_
    | split
    | dsimp -iota only

theorem State.resizeRegion_keeps (s : State) (n : Nat) : KeepsO 0x8040040000000000000000000000000000000000000000000038000000000000200000000000000000 s (State.resizeRegion s n) := by
  unfold State.resizeRegion
  repeat' first
    | (extract_lets +onlyGivenNames y_; refine KeepsO.cut (y := y_) ?_ ?_; rotate_left; clear_value y_; intro _; rotate_left; dsimp -iota only [y_]; clear y_)
    | with_reducible exact KeepsO.absent
    | with_reducible refine KeepsO.ite ?_ ?_
    | with_reducible refine KeepsO.given ?_
    | with_reducible refine KeepsO.map ?_ ?_
    | with_reducible refine KeepsO.mapped ?_
    | with_reducible exact .refl _
    | with_reducible assumption
    | (extract_lets +onlyGivenNames y_; refine Keeps.cut (y := y_) ?_ ?_; rotate_left; clear_value y_; intro _; rotate_left; dsimp -iota only [y_]; clear y_)
    | exact rfl
    | with_reducible intro _
    | with_reducible refine .ite ?_ ?_
    | with_reducible refine KeepsO.trans (State.moveRegion_keeps _ _) ?_ ?_
    | with_reducible refine Keeps.trans ((State.moveRegion_keeps _ _).get ‹_›) ?_ ?_
    | with_reducible refine (State.setRegion_keeps _ _ _).trans ?_ ?_
    | with_reducible refine (State.takeOwn_keeps _ _ _).trans ?_ ?_
    | with_reducible refine (Keeps.fst (State.takeOwn_keeps _ _ _) ‹_›).trans ?_ ?_
    | with_reducible refine (State.releaseFrame_keeps _ _).trans ?_ ?_
    | with_reducible refine (State.showPool_keeps _).trans ?_ ?_
    | with_reducible refine (State.silOldest_keeps _).trans ?_ ?_
    | with_reducible refine (State.setFld_keeps _ _ _ _ ?_).trans (sub_self _) ?_
    | with_reducible refine (State.bump_keeps _ _ _ _ ?_).trans (sub_self _) ?_
    | with_reducible refine .foldl _ ?_ ?_
    | split
    | dsimp -iota only
    | with_reducible apply Keeps.upd rfl
    | exact Or.inl rfl
    | exact Or.inr rfl

theorem execSilConfig_keeps (r : FwRef) (frames : Fin 65536) (minSeverity : Fin 256) (s : State) {z_ : State} (h_ : execSilConfig r frames minSeverity s = .next z_) : Keeps 0x8070040000000000000000000000000000000000000000000038000000000000200000000000000000 s z_ := by
  unfold execSilConfig at h_
  refine act_keeps h_ ?_
  repeat' first
    | with_reducible exact .refl _
    | with_reducible assumption
    | exact rfl
    | with_reducible intro _
    | with_reducible refine .ite ?_ ?_
    | with_reducible refine KeepsO.trans (State.resizeRegion_keeps _ _) ?_ ?_
    | with_reducible refine Keeps.trans ((State.resizeRegion_keeps _ _).get ‹_›) ?_ ?_
    | with_reducible refine (State.finishFw_keeps _ _ _ _ _).trans ?_ ?_
    | with_reducible refine (State.setFld_keeps _ _ _ _ ?_).trans (sub_self _) ?_
    | split

end Sys2Proof.Machine
end

