-- ==== Sys2Proof/Laws/KeepsWipe.lean ====
section
/-! SUPPORT. Sys2Proof/Laws/KeepsWipe.lean: what each operation of Machine/Wipe.lean leaves alone. -/

namespace Sys2Proof.Machine

theorem State.wipeRegs_keeps (s : State) (set : Survives) : Keeps 0x7fffffffffffffffffffffffffffffffff s (State.wipeRegs s set) := by
  have hf : ∀ (t : State) (f : Fld) (i v : Nat), Keeps 0x7fffffffffffffffffffffffffffffffff t (t.setFld f i v) := fun t f i v =>
    State.setFld_keeps t f i v (all_bit rfl _)
  unfold State.wipeRegs
  extract_lets s1 s2 s3
  have h1 : Keeps 0x7fffffffffffffffffffffffffffffffff s s1 := State.resetRegs_keeps s _ fun r _ _ => all_bit rfl r
  have h2 : Keeps 0x7fffffffffffffffffffffffffffffffff s s2 := (hf _ _ _ _).trans (sub_self _) h1
  have h3 : Keeps 0x7fffffffffffffffffffffffffffffffff s s3 := .ite (fun _ => h2) fun _ => (hf _ _ _ _).trans (sub_self _) ((hf _ _ _ _).trans (sub_self _) h2)
  exact .ite (fun _ => Keeps.foldl _ h3 fun t x => hf _ _ _ _) fun _ => h3

theorem State.saveRing_keeps (s : State) : Keeps 0x40000000000000000000000000000000000000000000000020000000000000000000000000000000 s (State.saveRing s) := by
  unfold State.saveRing
  repeat' first
    | with_reducible exact .refl _
    | with_reducible assumption
    | (extract_lets +onlyGivenNames y_; refine Keeps.cut (y := y_) ?_ ?_; rotate_left; clear_value y_; intro _; rotate_left; dsimp -iota only [y_]; clear y_)
    | exact rfl
    | with_reducible intro _
    | with_reducible refine .ite ?_ ?_
    | with_reducible refine (State.bump_keeps _ _ _ _ ?_).trans (sub_self _) ?_
    | split
    | dsimp -iota only
    | with_reducible apply Keeps.upd rfl
    | exact Or.inl rfl
    | exact Or.inr rfl

theorem State.dark_keeps (s : State) : Keeps 0x4000000000000000000000000000000000000000000000000000000000000000000000000000000000 s (State.dark s) := by
  unfold State.dark
  repeat' first
    | with_reducible exact .refl _
    | with_reducible assumption
    | (extract_lets +onlyGivenNames y_; refine Keeps.cut (y := y_) ?_ ?_; rotate_left; clear_value y_; intro _; rotate_left; dsimp -iota only [y_]; clear y_)
    | exact rfl
    | with_reducible intro _
    | with_reducible refine .ite ?_ ?_
    | with_reducible refine (State.emits_keeps _ _).trans ?_ ?_
    | split
    | dsimp -iota only

theorem State.wipe_keeps (s : State) (set : Survives) : Keeps 0x67fffff000000000000000000000000000000000000000007fffffffffffffffffffffffffffffffff s (State.wipe s set) := by
  unfold State.wipe
  extract_lets s1 s2
  have h1 : Keeps 0x4040000000000000000000000000000000000000000000007fffffffffffffffffffffffffffffffff s s1 :=
    .ite (fun _ => (State.saveRing_keeps _).trans rfl ((State.dark_keeps _).trans rfl (.refl _)))
      fun _ => (State.dark_keeps _).trans rfl (.refl _)
  have h2 : Keeps 0x4040000000000000000000000000000000000000000000007fffffffffffffffffffffffffffffffff s s2 := (State.wipeRegs_keeps _ _).trans rfl h1
  have hp := h2.ports rfl
  have hm := h2.mem rfl
  have h3 : Keeps 0x67fffff000000000000000000000000000000000000000007fffffffffffffffffffffffffffffffff s s2 := (Keeps.trans h2 rfl (.refl s))
  refine (State.silOldest_keeps _).trans rfl ?_
  clear_value s1 s2
  apply Keeps.upd rfl h3 rfl
  case h2 => exact .inl ⟨rfl, fun c => Store.wf_mapFilter PortSt.init (fun q => { PortSt.init with lastQual := q.lastQual }) s.ports (hp ▸ c)⟩
  case h6 => exact .inl ⟨rfl, fun c => Store.wf_dropIf _ _ _ (hm ▸ c)⟩
  all_goals first
    | exact .inl ⟨rfl, fun _ => rfl⟩
    | exact .inl rfl
    | exact .inr rfl

theorem State.warmNow_keeps (s : State) (source : Nat) : Keeps 0x67fffff000000000000000000000000000000000000000007fffffffffffffffffffffffffffffffff s (State.warmNow s source) := by
  unfold State.warmNow
  repeat' first
    | with_reducible exact .refl _
    | with_reducible assumption
    | (extract_lets +onlyGivenNames y_; refine Keeps.cut (y := y_) ?_ ?_; rotate_left; clear_value y_; intro _; rotate_left; dsimp -iota only [y_]; clear y_)
    | exact rfl
    | with_reducible intro _
    | with_reducible refine .ite ?_ ?_
    | with_reducible refine (State.wipe_keeps _ _).trans ?_ ?_
    | with_reducible refine (State.unclean_keeps _).trans ?_ ?_
    | with_reducible refine (State.setFld_keeps _ _ _ _ ?_).trans (sub_self _) ?_
    | with_reducible refine (State.bump_keeps _ _ _ _ ?_).trans (sub_self _) ?_
    | exact all_bit rfl _
    | split
    | dsimp -iota only
    | with_reducible apply Keeps.upd rfl
    | exact Or.inl rfl
    | exact Or.inr rfl

theorem State.enterLow_keeps (s : State) (code : Nat) : Keeps 0x67fffff000000000000000000000000000000000000000007fffffffffffffffffffffffffffffffff s (State.enterLow s code) := by
  unfold State.enterLow
  repeat' first
    | with_reducible exact .refl _
    | with_reducible assumption
    | (extract_lets +onlyGivenNames y_; refine Keeps.cut (y := y_) ?_ ?_; rotate_left; clear_value y_; intro _; rotate_left; dsimp -iota only [y_]; clear y_)
    | exact rfl
    | with_reducible intro _
    | with_reducible refine .ite ?_ ?_
    | with_reducible refine (State.wipe_keeps _ _).trans ?_ ?_
    | with_reducible refine (State.setFld_keeps _ _ _ _ ?_).trans (sub_self _) ?_
    | exact all_bit rfl _
    | split
    | dsimp -iota only

theorem State.tryLow_keeps (s : State) : Keeps 0x67fffff000000000000000000000000000000000000000007fffffffffffffffffffffffffffffffff s (State.tryLow s) := by
  unfold State.tryLow
  repeat' first
    | with_reducible exact .refl _
    | with_reducible assumption
    | exact rfl
    | with_reducible intro _
    | with_reducible refine .ite ?_ ?_
    | with_reducible refine (State.enterLow_keeps _ _).trans ?_ ?_
    | exact all_bit rfl _
    | split

theorem State.trip_keeps (s : State) : Keeps 0x6ffffff000000000000000000000000000000000000000007fffffffffffffffffffffffffffffffff s (State.trip s) := by
  unfold State.trip
  repeat' first
    | with_reducible exact .refl _
    | with_reducible assumption
    | (extract_lets +onlyGivenNames y_; refine Keeps.cut (y := y_) ?_ ?_; rotate_left; clear_value y_; intro _; rotate_left; dsimp -iota only [y_]; clear y_)
    | exact rfl
    | with_reducible intro _
    | with_reducible refine .ite ?_ ?_
    | with_reducible refine (State.enterLow_keeps _ _).trans ?_ ?_
    | with_reducible refine (State.persistNext_keeps _ _).trans ?_ ?_
    | with_reducible refine (State.sillage_keeps _ _ _ _ _).trans ?_ ?_
    | exact all_bit rfl _
    | split
    | dsimp -iota only
    | with_reducible apply Keeps.upd rfl
    | exact Or.inl rfl
    | exact Or.inr rfl

theorem State.porNow_keeps (s : State) (p : PowerSt) : Keeps ((2 ^ 135 - 1) ||| 0xfffffff000000000000000000000000000000000000000007fffffffffffffffffffffffffffffffff) s (State.porNow s p) := by
  constructor
  case wf => exact fun _ => ⟨rfl, rfl, rfl, rfl, rfl, rfl⟩
  case pending => rfl
  case regs =>
    intro r i k
    rw [all_bit (m := (2 ^ 135 - 1) ||| 0xfffffff000000000000000000000000000000000000000007fffffffffffffffffffffffffffffffff) rfl r] at k
    cases k
  all_goals first
    | exact fun k => absurd k (by decide)
    | exact fun _ => rfl

end Sys2Proof.Machine
end

