-- ==== Sys2Proof/Laws/KeepsPool.lean ====
section
/-! SUPPORT. Sys2Proof/Laws/KeepsPool.lean: what each operation of Machine/Pool.lean leaves alone. -/

namespace Sys2Proof.Machine

theorem State.countFaults_keeps (s : State) (secs : List Nat) : Keeps 0x480000000000000000 s (State.countFaults s secs) := by
  unfold State.countFaults
  repeat' first
    | with_reducible exact .refl _
    | with_reducible assumption
    | (extract_lets +onlyGivenNames y_; refine Keeps.cut (y := y_) ?_ ?_; rotate_left; clear_value y_; intro _; rotate_left; dsimp -iota only [y_]; clear y_)
    | exact rfl
    | with_reducible intro _
    | with_reducible refine .ite ?_ ?_
    | with_reducible refine (State.bump_keeps _ _ _ _ ?_).trans (sub_self _) ?_
    | with_reducible refine .foldl _ ?_ ?_
    | split
    | dsimp -iota only

theorem State.refuseWrite_keeps (s : State) (wing : Nat) (p : Packet) (status : Nat) : Keeps 0x4000452000000000000000000000000000000000000000000000000000000000400000000000880000 s (State.refuseWrite s wing p status) := by
  unfold State.refuseWrite
  repeat' first
    | with_reducible exact .refl _
    | with_reducible assumption
    | (extract_lets +onlyGivenNames y_; refine Keeps.cut (y := y_) ?_ ?_; rotate_left; clear_value y_; intro _; rotate_left; dsimp -iota only [y_]; clear y_)
    | exact rfl
    | with_reducible intro _
    | with_reducible refine .ite ?_ ?_
    | with_reducible refine (State.source_keeps _ _ _ _).trans ?_ ?_
    | with_reducible refine (State.bump_keeps _ _ _ _ ?_).trans (sub_self _) ?_
    | split
    | dsimp -iota only
    | with_reducible apply Keeps.upd rfl
    | exact Or.inl rfl
    | exact Or.inr rfl

theorem State.applyWrite_keeps (s : State) (b n : Nat) (bytes : List Byte) : Keeps 0x840000000000000000000000000000000000000000000000000000000000000000000000000000 s (State.applyWrite s b n bytes) := by
  unfold State.applyWrite
  repeat' first
    | with_reducible exact .refl _
    | with_reducible assumption
    | (extract_lets +onlyGivenNames y_; refine Keeps.cut (y := y_) ?_ ?_; rotate_left; clear_value y_; intro _; rotate_left; dsimp -iota only [y_]; clear y_)
    | exact rfl
    | with_reducible intro _
    | with_reducible refine .ite ?_ ?_
    | with_reducible refine (State.writeMem_keeps _ _ _).trans ?_ ?_
    | split
    | dsimp -iota only
    | with_reducible apply Keeps.upd rfl
    | exact Or.inl rfl
    | exact Or.inr rfl

theorem State.received_keeps (s : State) (unit : Nat) (p : Packet) : Keeps 0x4000412000000000000000000000000000000000000000000000000000000000000000000000880000 s (State.received s unit p) := by
  unfold State.received
  repeat' first
    | with_reducible exact .refl _
    | with_reducible assumption
    | (extract_lets +onlyGivenNames y_; refine Keeps.cut (y := y_) ?_ ?_; rotate_left; clear_value y_; intro _; rotate_left; dsimp -iota only [y_]; clear y_)
    | exact rfl
    | with_reducible intro _
    | with_reducible refine .ite ?_ ?_
    | with_reducible refine (State.ackStream_keeps _ _ _).trans ?_ ?_
    | with_reducible refine (State.setReceived_keeps _ _).trans ?_ ?_
    | split
    | dsimp -iota only

theorem State.sinkWrite_keeps (s : State) (wing : Nat) (p : Packet) : Keeps 0x4000c52000000000000000000000000000000000000000000000000000000000480000000001880000 s (State.sinkWrite s wing p) := by
  unfold State.sinkWrite
  repeat' first
    | with_reducible exact .refl _
    | with_reducible assumption
    | (extract_lets +onlyGivenNames y_; refine Keeps.cut (y := y_) ?_ ?_; rotate_left; clear_value y_; intro _; rotate_left; dsimp -iota only [y_]; clear y_)
    | exact rfl
    | with_reducible intro _
    | with_reducible refine .ite ?_ ?_
    | with_reducible refine (State.received_keeps _ _ _).trans ?_ ?_
    | with_reducible refine (State.applyWrite_keeps _ _ _ _).trans ?_ ?_
    | with_reducible refine (State.refuseWrite_keeps _ _ _ _).trans ?_ ?_
    | with_reducible refine (State.countFaults_keeps _ _).trans ?_ ?_
    | with_reducible refine (State.setReceived_keeps _ _).trans ?_ ?_
    | with_reducible refine (State.bump_keeps _ _ _ _ ?_).trans (sub_self _) ?_
    | split
    | dsimp -iota only

theorem execPoolWriteRequest_keeps (wing : Wing) (p : Packet) (s : State) {z_ : State} (h_ : execPoolWriteRequest wing p s = .next z_) : Keeps 0x4000c52000000000000000000000000000000000000000000000000000000000480000000001880000 s z_ := by
  unfold execPoolWriteRequest at h_
  refine act_keeps h_ ?_
  repeat' first
    | with_reducible exact .refl _
    | with_reducible assumption
    | exact rfl
    | with_reducible intro _
    | with_reducible refine .ite ?_ ?_
    | with_reducible refine (State.sinkWrite_keeps _ _ _).trans ?_ ?_
    | split

theorem State.markBad_keeps (s : State) (p : Packet) (bad : Option Nat) : Keeps 0x10000000000000000000000000000000000000000000000000000000000000000000000000000 s (State.markBad s p bad) := by
  unfold State.markBad
  repeat' first
    | with_reducible exact .refl _
    | with_reducible assumption
    | exact rfl
    | with_reducible intro _
    | with_reducible refine .ite ?_ ?_
    | split
    | with_reducible apply Keeps.upd rfl
    | exact Or.inl rfl
    | exact Or.inr rfl

theorem execPoolReadRequest_keeps (wing : Wing) (p : Packet) (s : State) {z_ : State} (h_ : execPoolReadRequest wing p s = .next z_) : Keeps 0x4000412000000000000000000000000000000000000000000000000000000000480000000000880000 s z_ := by
  unfold execPoolReadRequest at h_
  refine act_keeps h_ ?_
  repeat' first
    | with_reducible exact .refl _
    | with_reducible assumption
    | (extract_lets +onlyGivenNames y_; refine Keeps.cut (y := y_) ?_ ?_; rotate_left; clear_value y_; intro _; rotate_left; dsimp -iota only [y_]; clear y_)
    | exact rfl
    | with_reducible intro _
    | with_reducible refine .ite ?_ ?_
    | with_reducible refine (State.markBad_keeps _ _ _).trans ?_ ?_
    | with_reducible refine (State.countFaults_keeps _ _).trans ?_ ?_
    | with_reducible refine (State.source_keeps _ _ _ _).trans ?_ ?_
    | with_reducible refine (State.bump_keeps _ _ _ _ ?_).trans (sub_self _) ?_
    | split
    | dsimp -iota only

theorem State.winDeliver_keeps (s : State) (port : Port) (p : Packet) : Keeps 0x4000416000000000000000000000000000000000000000000000000000000000000000000000000000 s (State.winDeliver s port p) := by
  unfold State.winDeliver
  repeat' first
    | with_reducible exact .refl _
    | with_reducible assumption
    | (extract_lets +onlyGivenNames y_; refine Keeps.cut (y := y_) ?_ ?_; rotate_left; clear_value y_; intro _; rotate_left; dsimp -iota only [y_]; clear y_)
    | exact rfl
    | with_reducible intro _
    | with_reducible refine .ite ?_ ?_
    | with_reducible refine (State.toEndpoint_keeps _ _ _).trans ?_ ?_
    | with_reducible refine (State.modEp_keeps _ _ _).trans ?_ ?_
    | split
    | dsimp -iota only

theorem State.winRefuse_keeps (s : State) (port : Port) (p : Packet) (st : Nat) : Keeps 0x4000416000000000000000000000000000000000000000000000000000000000000000000000880000 s (State.winRefuse s port p st) := by
  unfold State.winRefuse
  repeat' first
    | with_reducible exact .refl _
    | with_reducible assumption
    | (extract_lets +onlyGivenNames y_; refine Keeps.cut (y := y_) ?_ ?_; rotate_left; clear_value y_; intro _; rotate_left; dsimp -iota only [y_]; clear y_)
    | exact rfl
    | with_reducible intro _
    | with_reducible refine .ite ?_ ?_
    | with_reducible refine (State.source_keeps _ _ _ _).trans ?_ ?_
    | with_reducible refine (State.modEp_keeps _ _ _).trans ?_ ?_
    | split
    | dsimp -iota only

theorem State.windowRequest_keeps (s : State) (port : Port) (p : Packet) : Keeps 0x4000416000000000000000000000000000000000000000000000000000000000000000000000880000 s (State.windowRequest s port p) := by
  unfold State.windowRequest
  repeat' first
    | with_reducible exact .refl _
    | with_reducible assumption
    | exact rfl
    | with_reducible intro _
    | with_reducible refine .ite ?_ ?_
    | with_reducible refine (State.winRefuse_keeps _ _ _ _).trans ?_ ?_
    | with_reducible refine (State.winDeliver_keeps _ _ _).trans ?_ ?_
    | with_reducible refine (State.modEp_keeps _ _ _).trans ?_ ?_
    | split

theorem execWindowRequest_keeps (port : Port) (p : Packet) (s : State) {z_ : State} (h_ : execWindowRequest port p s = .next z_) : Keeps 0x4000416000000000000000000000000000000000000000000000000000000000000000000000880000 s z_ := by
  unfold execWindowRequest at h_
  refine act_keeps h_ ?_
  repeat' first
    | with_reducible exact .refl _
    | with_reducible assumption
    | exact rfl
    | with_reducible intro _
    | with_reducible refine .ite ?_ ?_
    | with_reducible refine (State.windowRequest_keeps _ _ _).trans ?_ ?_
    | split

theorem execWindowEntryFree_keeps (port : Port) (s : State) {z_ : State} (h_ : execWindowEntryFree port s = .next z_) : Keeps 0x4000416000000000000000000000000000000000000000000000000000000000000000000000880000 s z_ := by
  unfold execWindowEntryFree at h_
  refine act_keeps h_ ?_
  repeat' first
    | with_reducible exact .refl _
    | with_reducible assumption
    | exact rfl
    | with_reducible intro _
    | with_reducible refine .ite ?_ ?_
    | with_reducible refine (State.windowRequest_keeps _ _ _).trans ?_ ?_
    | with_reducible refine (State.modEp_keeps _ _ _).trans ?_ ?_
    | split

theorem execRefusalMarkerSend_keeps (port : Port) (s : State) {z_ : State} (h_ : execRefusalMarkerSend port s = .next z_) : Keeps 0x4000416000000000000000000000000000000000000000000000000000000000000000000000000000 s z_ := by
  unfold execRefusalMarkerSend at h_
  refine act_keeps h_ ?_
  repeat' first
    | with_reducible exact .refl _
    | with_reducible assumption
    | (extract_lets +onlyGivenNames y_; refine Keeps.cut (y := y_) ?_ ?_; rotate_left; clear_value y_; intro _; rotate_left; dsimp -iota only [y_]; clear y_)
    | exact rfl
    | with_reducible intro _
    | with_reducible refine .ite ?_ ?_
    | with_reducible refine (State.toEndpoint_keeps _ _ _).trans ?_ ?_
    | with_reducible refine (State.modEp_keeps _ _ _).trans ?_ ?_
    | split
    | dsimp -iota only

theorem State.showReserve_keeps (s : State) (k : Nat) : Keeps 0x40000000000000000 s (State.showReserve s k) := by
  unfold State.showReserve
  repeat' first
    | with_reducible exact .refl _
    | with_reducible assumption
    | (extract_lets +onlyGivenNames y_; refine Keeps.cut (y := y_) ?_ ?_; rotate_left; clear_value y_; intro _; rotate_left; dsimp -iota only [y_]; clear y_)
    | exact rfl
    | with_reducible intro _
    | with_reducible refine .ite ?_ ?_
    | with_reducible refine (State.setFld_keeps _ _ _ _ ?_).trans (sub_self _) ?_
    | split
    | dsimp -iota only

theorem State.showRetire_keeps (s : State) (w : Nat) : Keeps 0x100000000000000000 s (State.showRetire s w) := by
  unfold State.showRetire
  repeat' first
    | with_reducible exact .refl _
    | with_reducible assumption
    | exact rfl
    | with_reducible intro _
    | with_reducible refine .ite ?_ ?_
    | with_reducible refine (State.setFld_keeps _ _ _ _ ?_).trans (sub_self _) ?_
    | split

theorem State.queueRetire_keeps (s : State) (f : Nat) : Keeps 0x40000000000000000000000000000000000000000000000000000000000100000000000000000 s (State.queueRetire s f) := by
  unfold State.queueRetire
  repeat' first
    | with_reducible exact .refl _
    | with_reducible assumption
    | exact rfl
    | with_reducible intro _
    | with_reducible refine .ite ?_ ?_
    | with_reducible refine (State.showRetire_keeps _ _).trans ?_ ?_
    | split
    | with_reducible apply Keeps.upd rfl
    | exact Or.inl rfl
    | exact Or.inr rfl

theorem execEccCorrected_keeps (frame : Nat) (s : State) {z_ : State} (h_ : execEccCorrected frame s = .next z_) : Keeps 0x40000000000000000000000000000000000000000000000000000000000180000000000000000 s z_ := by
  unfold execEccCorrected at h_
  refine act_keeps h_ ?_
  repeat' first
    | with_reducible exact .refl _
    | with_reducible assumption
    | (extract_lets +onlyGivenNames y_; refine Keeps.cut (y := y_) ?_ ?_; rotate_left; clear_value y_; intro _; rotate_left; dsimp -iota only [y_]; clear y_)
    | exact rfl
    | with_reducible intro _
    | with_reducible refine .ite ?_ ?_
    | with_reducible refine (State.queueRetire_keeps _ _).trans ?_ ?_
    | with_reducible refine (State.bump_keeps _ _ _ _ ?_).trans (sub_self _) ?_
    | split
    | dsimp -iota only
    | with_reducible apply Keeps.upd rfl
    | exact Or.inl rfl
    | exact Or.inr rfl

theorem execEccUncorrectable_keeps (frame : Nat) (sector : Fin 4096) (data : List Byte) (s : State) {z_ : State} (h_ : execEccUncorrectable frame sector data s = .next z_) : Keeps 0x2040840000000000000000000000000000000000000000000a28000000000000180000000000000000 s z_ := by
  unfold execEccUncorrectable at h_
  refine act_keeps h_ ?_
  repeat' first
    | with_reducible exact .refl _
    | with_reducible assumption
    | (extract_lets +onlyGivenNames y_; refine Keeps.cut (y := y_) ?_ ?_; rotate_left; clear_value y_; intro _; rotate_left; dsimp -iota only [y_]; clear y_)
    | exact rfl
    | with_reducible intro _
    | with_reducible refine .ite ?_ ?_
    | with_reducible refine (State.queueRetire_keeps _ _).trans ?_ ?_
    | with_reducible refine (State.writeMem_keeps _ _ _).trans ?_ ?_
    | with_reducible refine (State.sillage_keeps _ _ _ _ _).trans ?_ ?_
    | with_reducible refine (State.bump_keeps _ _ _ _ ?_).trans (sub_self _) ?_
    | split
    | dsimp -iota only
    | with_reducible apply Keeps.upd rfl
    | exact Or.inl rfl
    | exact Or.inr rfl

theorem Store.wf_foldl {α β : Type} [DecidableEq α] (dv : Nat → α) (l : List β) (k : β → Nat) (v : β → α) (m : Store α)
    (h : Store.wf dv m = true) : Store.wf dv (l.foldl (fun m x => Store.set dv m (k x) (v x)) m) = true := by
  induction l generalizing m with
  | nil => exact h
  | cons x l ih => exact ih _ (Store.wf_set _ _ _ _ h)

theorem State.moveFrame_keeps (s : State) (f g : Nat) : Keeps 0x840000000000000000000000000000000000000000000000000000000000000000000000000000 s (State.moveFrame s f g) := by
  unfold State.moveFrame
  apply Keeps.upd rfl (.refl s)
  case h6 => exact .inl ⟨rfl, fun c => Store.wf_foldl _ _ _ _ _ (Store.wf_dropIf _ _ _ c)⟩
  all_goals first
    | exact rfl
    | exact .inl rfl
    | exact .inr rfl

theorem State.renameFrame_keeps (s : State) (f g : Nat) : Keeps 0x48000000000000000000000000000000000000000000000000000000000000000000000000000 s (State.renameFrame s f g) := by
  unfold State.renameFrame
  repeat' first
    | with_reducible exact .refl _
    | with_reducible assumption
    | (extract_lets +onlyGivenNames y_; refine Keeps.cut (y := y_) ?_ ?_; rotate_left; clear_value y_; intro _; rotate_left; dsimp -iota only [y_]; clear y_)
    | exact rfl
    | with_reducible intro _
    | with_reducible refine .ite ?_ ?_
    | with_reducible refine (State.modCtx_keeps _ _ _).trans ?_ ?_
    | with_reducible refine .foldl _ ?_ ?_
    | split
    | dsimp -iota only
    | with_reducible apply Keeps.upd rfl
    | exact Or.inl rfl
    | exact Or.inr rfl

theorem execRetireCopyDone_keeps (wing : Wing) (s : State) {z_ : State} (h_ : execRetireCopyDone wing s = .next z_) : Keeps 0x2840848000000000000000000000000000000000000000000a2c401000000000140000000000000000 s z_ := by
  unfold execRetireCopyDone at h_
  refine act_keeps h_ ?_
  repeat' first
    | with_reducible exact .refl _
    | with_reducible assumption
    | (extract_lets +onlyGivenNames y_; refine Keeps.cut (y := y_) ?_ ?_; rotate_left; clear_value y_; intro _; rotate_left; dsimp -iota only [y_]; clear y_)
    | exact rfl
    | with_reducible intro _
    | with_reducible refine .ite ?_ ?_
    | with_reducible refine (State.renameFrame_keeps _ _ _).trans ?_ ?_
    | with_reducible refine (State.moveFrame_keeps _ _ _).trans ?_ ?_
    | with_reducible refine (State.showRetire_keeps _ _).trans ?_ ?_
    | with_reducible refine (State.showReserve_keeps _ _).trans ?_ ?_
    | with_reducible refine (State.appendDefect_keeps _ _ _ _ _).trans ?_ ?_
    | with_reducible refine (State.sillage_keeps _ _ _ _ _).trans ?_ ?_
    | with_reducible refine (State.bump_keeps _ _ _ _ ?_).trans (sub_self _) ?_
    | split
    | dsimp -iota only
    | with_reducible apply Keeps.upd rfl
    | exact Or.inl rfl
    | exact Or.inr rfl

theorem execRetireThreshold_keeps (r : FwRef) (n : Fin 2048) (s : State) {z_ : State} (h_ : execRetireThreshold r n s = .next z_) : Keeps 0x30000000000000000000000000000000000000000000000000000000000000100000000000000000 s z_ := by
  unfold execRetireThreshold at h_
  refine act_keeps h_ ?_
  repeat' first
    | with_reducible exact .refl _
    | with_reducible assumption
    | exact rfl
    | with_reducible intro _
    | with_reducible refine .ite ?_ ?_
    | with_reducible refine (State.finishFw_keeps _ _ _ _ _).trans ?_ ?_
    | with_reducible refine (State.setFld_keeps _ _ _ _ ?_).trans (sub_self _) ?_
    | with_reducible refine .foldl _ ?_ ?_
    | split

end Sys2Proof.Machine
end

