-- ==== Sys2Proof/Laws/KeepsCollective.lean ====
section
/-! SUPPORT. Sys2Proof/Laws/KeepsCollective.lean: what each operation of Machine/Collective.lean leaves alone. -/

namespace Sys2Proof.Machine

theorem lateBin_reg (o : Nat) : (lateBin o).reg = .ACD_LATE_HIST := by
  unfold lateBin
  repeat' first | rfl | split

theorem State.noteLate_keeps (s : State) (slice rank d : Nat) : Keeps 0x18000000000000 s (State.noteLate s slice rank d) := by
  unfold State.noteLate
  repeat' first
    | with_reducible exact .refl _
    | with_reducible assumption
    | (extract_lets +onlyGivenNames y_; refine Keeps.cut (y := y_) ?_ ?_; rotate_left; clear_value y_; intro _; rotate_left; dsimp -iota only [y_]; clear y_)
    | exact rfl
    | with_reducible intro _
    | with_reducible refine .ite ?_ ?_
    | with_reducible refine (State.setFld_keeps _ _ _ _ ?_).trans (sub_self _) ?_
    | with_reducible refine (State.bump_keeps _ _ _ _ ?_).trans (sub_self _) ?_
    | (rw [lateBin_reg]; exact rfl)
    | split
    | dsimp -iota only

theorem State.noteFirst_keeps (s : State) (n : CollNode) (dst num input : Nat) : Keeps 0x100000000000000000000000000000000000000000000000000000000000000018000000000000 s (State.noteFirst s n dst num input) := by
  unfold State.noteFirst
  repeat' first
    | with_reducible exact .refl _
    | with_reducible assumption
    | (extract_lets +onlyGivenNames y_; refine Keeps.cut (y := y_) ?_ ?_; rotate_left; clear_value y_; intro _; rotate_left; dsimp -iota only [y_]; clear y_)
    | exact rfl
    | with_reducible intro _
    | with_reducible refine .ite ?_ ?_
    | with_reducible refine (State.noteLate_keeps _ _ _ _).trans ?_ ?_
    | with_reducible refine (State.chunkUpd_keeps _ _ _ _ _).trans ?_ ?_
    | split
    | dsimp -iota only

theorem State.giveTree_keeps (s : State) (n : CollNode) (m : CollMember) (c : CollChunk) (bs : List Byte) : Keeps 0x4000c32000000000000000000000000000000000000000000000000000000000000000000000880000 s (State.giveTree s n m c bs) := by
  unfold State.giveTree
  repeat' first
    | with_reducible exact .refl _
    | with_reducible assumption
    | (extract_lets +onlyGivenNames y_; refine Keeps.cut (y := y_) ?_ ?_; rotate_left; clear_value y_; intro _; rotate_left; dsimp -iota only [y_]; clear y_)
    | exact rfl
    | with_reducible intro _
    | with_reducible refine .ite ?_ ?_
    | with_reducible refine (State.sendResult_keeps _ _ _ _ _ _ _ _ _ _ _).trans ?_ ?_
    | with_reducible refine (State.collLanded_keeps _ _ _ _ _).trans ?_ ?_
    | with_reducible refine (State.modRun_keeps _ _ _ _).trans ?_ ?_
    | split
    | dsimp -iota only

theorem State.sendDown_keeps (s : State) (n : CollNode) (tgt : Nat × Nat) (ret : Nat × Bool) (num : Nat) (codes slipped spilled abort : Bool) (bs : List Byte) : Keeps 0x4000412000000000000000000000000000000000000000000000000000000000000000000000880000 s (State.sendDown s n tgt ret num codes slipped spilled abort bs) := by
  unfold State.sendDown
  repeat' first
    | with_reducible exact .refl _
    | with_reducible assumption
    | (extract_lets +onlyGivenNames y_; refine Keeps.cut (y := y_) ?_ ?_; rotate_left; clear_value y_; intro _; rotate_left; dsimp -iota only [y_]; clear y_)
    | exact rfl
    | with_reducible intro _
    | with_reducible refine .ite ?_ ?_
    | with_reducible refine (State.source_keeps _ _ _ _).trans ?_ ?_
    | with_reducible refine .foldl _ ?_ ?_
    | split
    | dsimp -iota only

theorem State.serveTree_keeps (s : State) (n0 : CollNode) (num : Nat) : Keeps 0x4000d32000000000000000000000000000000000000000000000000000000000000000000000880000 s (State.serveTree s n0 num) := by
  unfold State.serveTree
  repeat' first
    | with_reducible exact .refl _
    | with_reducible assumption
    | (extract_lets +onlyGivenNames y_; refine Keeps.cut (y := y_) ?_ ?_; rotate_left; clear_value y_; intro _; rotate_left; dsimp -iota only [y_]; clear y_)
    | exact rfl
    | with_reducible intro _
    | with_reducible refine .ite ?_ ?_
    | with_reducible refine (State.sendDown_keeps _ _ _ _ _ _ _ _ _ _).trans ?_ ?_
    | with_reducible refine (State.giveTree_keeps _ _ _ _ _).trans ?_ ?_
    | with_reducible refine (State.chunkUpd_keeps _ _ _ _ _).trans ?_ ?_
    | with_reducible refine .foldl _ ?_ ?_
    | split
    | dsimp -iota only

theorem State.abortMembers_keeps (s : State) (n : CollNode) (chunk bits : Nat) : Keeps 0x4000c72000000000000000000000000000000000000000000000000000000000000000000000880000 s (State.abortMembers s n chunk bits) := by
  unfold State.abortMembers
  repeat' first
    | with_reducible exact .refl _
    | with_reducible assumption
    | (extract_lets +onlyGivenNames y_; refine Keeps.cut (y := y_) ?_ ?_; rotate_left; clear_value y_; intro _; rotate_left; dsimp -iota only [y_]; clear y_)
    | exact rfl
    | with_reducible intro _
    | with_reducible refine .ite ?_ ?_
    | with_reducible refine (State.endAtChunk_keeps _ _ _ _ _).trans ?_ ?_
    | with_reducible refine (State.storeAt_keeps _ _ _ _ _ _).trans ?_ ?_
    | with_reducible refine (State.modRun_keeps _ _ _ _).trans ?_ ?_
    | with_reducible refine .foldl _ ?_ ?_
    | split
    | dsimp -iota only

theorem State.abortDown_keeps (s : State) (n0 : CollNode) (num bits : Nat) : Keeps 0x4000d72000000000000000000000000000000000000000000000000000000000000000000000880000 s (State.abortDown s n0 num bits) := by
  unfold State.abortDown
  repeat' first
    | with_reducible exact .refl _
    | with_reducible assumption
    | (extract_lets +onlyGivenNames y_; refine Keeps.cut (y := y_) ?_ ?_; rotate_left; clear_value y_; intro _; rotate_left; dsimp -iota only [y_]; clear y_)
    | exact rfl
    | with_reducible intro _
    | with_reducible refine .ite ?_ ?_
    | with_reducible refine (State.abortMembers_keeps _ _ _ _).trans ?_ ?_
    | with_reducible refine (State.sendDown_keeps _ _ _ _ _ _ _ _ _ _).trans ?_ ?_
    | with_reducible refine (State.chunkUpd_keeps _ _ _ _ _).trans ?_ ?_
    | with_reducible refine (State.modNode_keeps _ _ _).trans ?_ ?_
    | with_reducible refine .foldl _ ?_ ?_
    | split
    | dsimp -iota only

theorem State.countAborts_keeps (s : State) (n : CollNode) (num : Nat) : Keeps 0x1000000000000 s (State.countAborts s n num) := by
  unfold State.countAborts
  repeat' first
    | with_reducible exact .refl _
    | with_reducible assumption
    | exact rfl
    | with_reducible intro _
    | with_reducible refine .ite ?_ ?_
    | with_reducible refine (State.bump_keeps _ _ _ _ ?_).trans (sub_self _) ?_
    | split

theorem State.abortUp_keeps (s : State) (n : CollNode) (c : CollChunk) (bits : Nat) : Keeps 0x4000512000000000000000000000000000000000000000000000000000000000000000000000880000 s (State.abortUp s n c bits) := by
  unfold State.abortUp
  repeat' first
    | with_reducible exact .refl _
    | with_reducible assumption
    | (extract_lets +onlyGivenNames y_; refine Keeps.cut (y := y_) ?_ ?_; rotate_left; clear_value y_; intro _; rotate_left; dsimp -iota only [y_]; clear y_)
    | exact rfl
    | with_reducible intro _
    | with_reducible refine .ite ?_ ?_
    | with_reducible refine (State.sendUp_keeps _ _ _ _ _ _ _ _ _ _ _).trans ?_ ?_
    | with_reducible refine (State.chunkUpd_keeps _ _ _ _ _).trans ?_ ?_
    | split
    | dsimp -iota only

theorem State.abortNode_keeps (s : State) (n0 : CollNode) (num bits : Nat) : Keeps 0x4000d72000000000000000000000000000000000000000000000000000000000000001000000880000 s (State.abortNode s n0 num bits) := by
  unfold State.abortNode
  repeat' first
    | with_reducible exact .refl _
    | with_reducible assumption
    | (extract_lets +onlyGivenNames y_; refine Keeps.cut (y := y_) ?_ ?_; rotate_left; clear_value y_; intro _; rotate_left; dsimp -iota only [y_]; clear y_)
    | exact rfl
    | with_reducible intro _
    | with_reducible refine .ite ?_ ?_
    | with_reducible refine (State.abortUp_keeps _ _ _ _).trans ?_ ?_
    | with_reducible refine (State.countAborts_keeps _ _ _).trans ?_ ?_
    | with_reducible refine (State.abortDown_keeps _ _ _ _).trans ?_ ?_
    | with_reducible refine (State.chunkUpd_keeps _ _ _ _ _).trans ?_ ?_
    | with_reducible refine (State.modNode_keeps _ _ _).trans ?_ ?_
    | split
    | dsimp -iota only

theorem State.abortIfWhole_keeps (s : State) (n0 : CollNode) (num : Nat) : Keeps 0x4000d72000000000000000000000000000000000000000000000000000000000000001000000880000 s (State.abortIfWhole s n0 num) := by
  unfold State.abortIfWhole
  repeat' first
    | with_reducible exact .refl _
    | with_reducible assumption
    | (extract_lets +onlyGivenNames y_; refine Keeps.cut (y := y_) ?_ ?_; rotate_left; clear_value y_; intro _; rotate_left; dsimp -iota only [y_]; clear y_)
    | exact rfl
    | with_reducible intro _
    | with_reducible refine .ite ?_ ?_
    | with_reducible refine (State.abortNode_keeps _ _ _ _).trans ?_ ?_
    | split
    | dsimp -iota only

theorem State.grantInput_keeps (s : State) (n : CollNode) (i : CollIn) (num slot : Nat) (codes : Bool) : Keeps 0x4000412000000000000000000000000000000000000000000000000000000000000000000000880000 s (State.grantInput s n i num slot codes) := by
  unfold State.grantInput
  repeat' first
    | with_reducible exact .refl _
    | with_reducible assumption
    | (extract_lets +onlyGivenNames y_; refine Keeps.cut (y := y_) ?_ ?_; rotate_left; clear_value y_; intro _; rotate_left; dsimp -iota only [y_]; clear y_)
    | exact rfl
    | with_reducible intro _
    | with_reducible refine .ite ?_ ?_
    | with_reducible refine (State.sendGrant_keeps _ _ _ _ _ _ _ _ _ _).trans ?_ ?_
    | split
    | dsimp -iota only

theorem State.askParent_keeps (s : State) (n : CollNode) (num : Nat) : Keeps 0x4000412000000000000000000000000000000000000000000000000000000000000000000000880000 s (State.askParent s n num) := by
  unfold State.askParent
  repeat' first
    | with_reducible exact .refl _
    | with_reducible assumption
    | exact rfl
    | with_reducible intro _
    | with_reducible refine .ite ?_ ?_
    | with_reducible refine (State.sendGrant_keeps _ _ _ _ _ _ _ _ _ _).trans ?_ ?_
    | split

theorem State.sendPartial_keeps (s : State) (n : CollNode) (num : Nat) : Keeps 0x4000512000000000000000000000000000000000000000000000000000000000000000000000880000 s (State.sendPartial s n num) := by
  unfold State.sendPartial
  repeat' first
    | with_reducible exact .refl _
    | with_reducible assumption
    | (extract_lets +onlyGivenNames y_; refine Keeps.cut (y := y_) ?_ ?_; rotate_left; clear_value y_; intro _; rotate_left; dsimp -iota only [y_]; clear y_)
    | exact rfl
    | with_reducible intro _
    | with_reducible refine .ite ?_ ?_
    | with_reducible refine (State.abortUp_keeps _ _ _ _).trans ?_ ?_
    | with_reducible refine (State.sendUp_keeps _ _ _ _ _ _ _ _ _ _ _).trans ?_ ?_
    | with_reducible refine (State.chunkUpd_keeps _ _ _ _ _).trans ?_ ?_
    | split
    | dsimp -iota only

theorem State.sendCodes_keeps (s : State) (n : CollNode) (num : Nat) : Keeps 0x4000512000000000000000000000000000000000000000000000000000000000000000000000880000 s (State.sendCodes s n num) := by
  unfold State.sendCodes
  repeat' first
    | with_reducible exact .refl _
    | with_reducible assumption
    | (extract_lets +onlyGivenNames y_; refine Keeps.cut (y := y_) ?_ ?_; rotate_left; clear_value y_; intro _; rotate_left; dsimp -iota only [y_]; clear y_)
    | exact rfl
    | with_reducible intro _
    | with_reducible refine .ite ?_ ?_
    | with_reducible refine (State.sendDown_keeps _ _ _ _ _ _ _ _ _ _).trans ?_ ?_
    | with_reducible refine (State.sendUp_keeps _ _ _ _ _ _ _ _ _ _ _).trans ?_ ?_
    | with_reducible refine (State.chunkUpd_keeps _ _ _ _ _).trans ?_ ?_
    | with_reducible refine .foldl _ ?_ ?_
    | split
    | dsimp -iota only

theorem State.releaseItems_keeps (s : State) (n0 : CollNode) : Keeps 0x100000000000000000000000000000000000000000000000000000000000000000000000000000 s (State.releaseItems s n0) := by
  unfold State.releaseItems
  repeat' first
    | with_reducible exact .refl _
    | with_reducible assumption
    | (extract_lets +onlyGivenNames y_; refine Keeps.cut (y := y_) ?_ ?_; rotate_left; clear_value y_; intro _; rotate_left; dsimp -iota only [y_]; clear y_)
    | exact rfl
    | with_reducible intro _
    | with_reducible refine .ite ?_ ?_
    | with_reducible refine (State.modNode_keeps _ _ _).trans ?_ ?_
    | split
    | dsimp -iota only

theorem State.assignTree_keeps (s : State) (n : CollNode) (slot : Nat) : Keeps 0x4000512000000000000000000000000000000000000000000000000000000000000000000000880000 s (State.assignTree s n slot) := by
  unfold State.assignTree
  repeat' first
    | with_reducible exact .refl _
    | with_reducible assumption
    | (extract_lets +onlyGivenNames y_; refine Keeps.cut (y := y_) ?_ ?_; rotate_left; clear_value y_; intro _; rotate_left; dsimp -iota only [y_]; clear y_)
    | exact rfl
    | with_reducible intro _
    | with_reducible refine .ite ?_ ?_
    | with_reducible refine (State.askParent_keeps _ _ _).trans ?_ ?_
    | with_reducible refine (State.grantInput_keeps _ _ _ _ _ _).trans ?_ ?_
    | with_reducible refine (State.modNode_keeps _ _ _).trans ?_ ?_
    | with_reducible refine .foldl _ ?_ ?_
    | split
    | dsimp -iota only

theorem State.assignExchange_keeps (s : State) (n : CollNode) (slot : Nat) : Keeps 0x4000512000000000000000000000000000000000000000000000000000000000000000000000880000 s (State.assignExchange s n slot) := by
  unfold State.assignExchange
  repeat' first
    | with_reducible exact .refl _
    | with_reducible assumption
    | (extract_lets +onlyGivenNames y_; refine Keeps.cut (y := y_) ?_ ?_; rotate_left; clear_value y_; intro _; rotate_left; dsimp -iota only [y_]; clear y_)
    | exact rfl
    | with_reducible intro _
    | with_reducible refine .ite ?_ ?_
    | with_reducible refine (State.grantInput_keeps _ _ _ _ _ _).trans ?_ ?_
    | with_reducible refine (State.modNode_keeps _ _ _).trans ?_ ?_
    | split
    | dsimp -iota only

theorem State.assignPeer_keeps (s : State) (n : CollNode) (slot : Nat) (a : CollAsk) : Keeps 0x4000512000000000000000000000000000000000000000000000000000000000000000000000880000 s (State.assignPeer s n slot a) := by
  unfold State.assignPeer
  repeat' first
    | with_reducible exact .refl _
    | with_reducible assumption
    | (extract_lets +onlyGivenNames y_; refine Keeps.cut (y := y_) ?_ ?_; rotate_left; clear_value y_; intro _; rotate_left; dsimp -iota only [y_]; clear y_)
    | exact rfl
    | with_reducible intro _
    | with_reducible refine .ite ?_ ?_
    | with_reducible refine (State.sendGrant_keeps _ _ _ _ _ _ _ _ _ _).trans ?_ ?_
    | with_reducible refine (State.modNode_keeps _ _ _).trans ?_ ?_
    | split
    | dsimp -iota only

theorem execSlotAssign_keeps (node : NodeId) (s : State) {z_ : State} (h_ : execSlotAssign node s = .next z_) : Keeps 0x4000d32000000000000000000000000000000000000000000000000000000000000000000000880000 s z_ := by
  unfold execSlotAssign at h_
  refine act_keeps h_ ?_
  repeat' first
    | with_reducible exact .refl _
    | with_reducible assumption
    | (extract_lets +onlyGivenNames y_; refine Keeps.cut (y := y_) ?_ ?_; rotate_left; clear_value y_; intro _; rotate_left; dsimp -iota only [y_]; clear y_)
    | exact rfl
    | with_reducible intro _
    | with_reducible refine .ite ?_ ?_
    | with_reducible refine (State.assignPeer_keeps _ _ _ _).trans ?_ ?_
    | with_reducible refine (State.assignExchange_keeps _ _ _).trans ?_ ?_
    | with_reducible refine (State.assignTree_keeps _ _ _).trans ?_ ?_
    | with_reducible refine (State.releaseItems_keeps _ _).trans ?_ ?_
    | with_reducible refine (State.serveTree_keeps _ _ _).trans ?_ ?_
    | with_reducible refine (State.serveCombine_keeps _ _).trans ?_ ?_
    | with_reducible refine (State.serveExchange_keeps _ _).trans ?_ ?_
    | with_reducible refine .foldl _ ?_ ?_
    | split
    | dsimp -iota only

theorem State.sweepNodes_keeps (s : State) : Keeps 0x100000000000000000000000000000000000000000000000000000000000000000800000000000 s (State.sweepNodes s) := by
  unfold State.sweepNodes
  repeat' first
    | with_reducible exact .refl _
    | with_reducible assumption
    | (extract_lets +onlyGivenNames y_; refine Keeps.cut (y := y_) ?_ ?_; rotate_left; clear_value y_; intro _; rotate_left; dsimp -iota only [y_]; clear y_)
    | exact rfl
    | with_reducible intro _
    | with_reducible refine .ite ?_ ?_
    | with_reducible refine (State.dropNode_keeps _ _ _).trans ?_ ?_
    | with_reducible refine (State.showSlots_keeps _).trans ?_ ?_
    | with_reducible refine (State.modNode_keeps _ _ _).trans ?_ ?_
    | with_reducible refine .foldl _ ?_ ?_
    | split
    | dsimp -iota only

theorem State.addNode_keeps (s : State) (n : CollNode) : Keeps 0x100000000000000000000000000000000000000000000000000000000000000000800000000000 s (State.addNode s n) := by
  unfold State.addNode
  repeat' first
    | with_reducible exact .refl _
    | with_reducible assumption
    | (extract_lets +onlyGivenNames y_; refine Keeps.cut (y := y_) ?_ ?_; rotate_left; clear_value y_; intro _; rotate_left; dsimp -iota only [y_]; clear y_)
    | exact rfl
    | with_reducible intro _
    | with_reducible refine .ite ?_ ?_
    | with_reducible refine (State.takeSlots_keeps _ _).trans ?_ ?_
    | with_reducible refine (State.showSlots_keeps _).trans ?_ ?_
    | split
    | dsimp -iota only
    | with_reducible apply Keeps.upd rfl
    | exact Or.inl rfl
    | exact Or.inr rfl

theorem State.joinLeaf_keeps (s : State) (n0 : CollNode) (m : CollMember) : Keeps 0x4000d72000000000000000000000000000000000000000000000000000000000000000000000880000 s (State.joinLeaf s n0 m) := by
  unfold State.joinLeaf
  repeat' first
    | with_reducible exact .refl _
    | with_reducible assumption
    | (extract_lets +onlyGivenNames y_; refine Keeps.cut (y := y_) ?_ ?_; rotate_left; clear_value y_; intro _; rotate_left; dsimp -iota only [y_]; clear y_)
    | exact rfl
    | with_reducible intro _
    | with_reducible refine .ite ?_ ?_
    | with_reducible refine (State.grantInput_keeps _ _ _ _ _ _).trans ?_ ?_
    | with_reducible refine (State.abortMembers_keeps _ _ _ _).trans ?_ ?_
    | with_reducible refine (State.serveTree_keeps _ _ _).trans ?_ ?_
    | with_reducible refine (State.serveExchange_keeps _ _).trans ?_ ?_
    | with_reducible refine (State.endAtChunk_keeps _ _ _ _ _).trans ?_ ?_
    | with_reducible refine (State.modNode_keeps _ _ _).trans ?_ ?_
    | with_reducible refine .foldl _ ?_ ?_
    | split
    | dsimp -iota only

theorem State.toGeneration_keeps (s : State) (n0 : CollNode) : Keeps 0x4000d720000000000000000000000000000000000000000000000000000000000000c0000000880000 s (State.toGeneration s n0) := by
  unfold State.toGeneration
  repeat' first
    | with_reducible exact .refl _
    | with_reducible assumption
    | (extract_lets +onlyGivenNames y_; refine Keeps.cut (y := y_) ?_ ?_; rotate_left; clear_value y_; intro _; rotate_left; dsimp -iota only [y_]; clear y_)
    | exact rfl
    | with_reducible intro _
    | with_reducible refine .ite ?_ ?_
    | with_reducible refine (State.contribute_keeps _ _ _ _ _ _ _).trans ?_ ?_
    | with_reducible refine (State.modGroup_keeps _ _ _).trans ?_ ?_
    | with_reducible refine (State.applyKeeps_keeps _ _).trans ?_ ?_
    | with_reducible refine (State.applyCounts_keeps _ _).trans ?_ ?_
    | with_reducible refine (State.modNode_keeps _ _ _).trans ?_ ?_
    | with_reducible refine .foldl _ ?_ ?_
    | split
    | dsimp -iota only

theorem State.enterColl_keeps (s : State) (r : RunCmd) (rank port : Nat) (d : List Byte) (count : Nat) (x : Option XInfo) (sched : Attach) : Keeps 0x4000d720000000000000000000000000000000000000000000000000000000000000d8800000880000 s (State.enterColl s r rank port d count x sched) := by
  unfold State.enterColl
  repeat' first
    | with_reducible exact .refl _
    | with_reducible assumption
    | (extract_lets +onlyGivenNames y_; refine Keeps.cut (y := y_) ?_ ?_; rotate_left; clear_value y_; intro _; rotate_left; dsimp -iota only [y_]; clear y_)
    | exact rfl
    | with_reducible intro _
    | with_reducible refine .ite ?_ ?_
    | with_reducible refine (State.toGeneration_keeps _ _).trans ?_ ?_
    | with_reducible refine (State.joinLeaf_keeps _ _ _).trans ?_ ?_
    | with_reducible refine (State.addNode_keeps _ _).trans ?_ ?_
    | with_reducible refine (State.noteFirst_keeps _ _ _ _ _).trans ?_ ?_
    | with_reducible refine (State.nextGen_keeps _ _ _).trans ?_ ?_
    | with_reducible refine (Keeps.snd (State.nextGen_keeps _ _ _) ‹_›).trans ?_ ?_
    | with_reducible refine (State.modGroup_keeps _ _ _).trans ?_ ?_
    | with_reducible refine (State.sendCounts_keeps _ _).trans ?_ ?_
    | with_reducible refine (State.serveCombine_keeps _ _).trans ?_ ?_
    | with_reducible refine (State.modNode_keeps _ _ _).trans ?_ ?_
    | with_reducible refine (State.endCmd_keeps _ _ _ _ _).trans ?_ ?_
    | with_reducible refine (State.modRun_keeps _ _ _ _).trans ?_ ?_
    | split
    | dsimp -iota only

theorem State.startColl_keeps (s : State) (r : RunCmd) (rank : Nat) (d : List Byte) (sched : Attach) (remote : List RemoteRead) : Keeps 0x4000d720000000000000000000000000000000000000000000000000000000000000d8800000880000 s (State.startColl s r rank d sched remote) := by
  unfold State.startColl
  repeat' first
    | with_reducible exact .refl _
    | with_reducible assumption
    | (extract_lets +onlyGivenNames y_; refine Keeps.cut (y := y_) ?_ ?_; rotate_left; clear_value y_; intro _; rotate_left; dsimp -iota only [y_]; clear y_)
    | exact rfl
    | with_reducible intro _
    | with_reducible refine .ite ?_ ?_
    | with_reducible refine (State.enterColl_keeps _ _ _ _ _ _ _ _).trans ?_ ?_
    | with_reducible refine (State.modNode_keeps _ _ _).trans ?_ ?_
    | with_reducible refine (State.endCmd_keeps _ _ _ _ _).trans ?_ ?_
    | split
    | dsimp -iota only

theorem execColl_keeps (queue : Queue) (index : BitVec 32) (remote : List RemoteRead) (s : State) {z_ : State} (h_ : execColl queue index remote s = .next z_) : Keeps 0x4000d720000000000000000000000000000000000000000000000000000000000000d8800000880000 s z_ := by
  unfold execColl at h_
  refine act_keeps h_ ?_
  repeat' first
    | with_reducible exact .refl _
    | with_reducible assumption
    | (extract_lets +onlyGivenNames y_; refine Keeps.cut (y := y_) ?_ ?_; rotate_left; clear_value y_; intro _; rotate_left; dsimp -iota only [y_]; clear y_)
    | exact rfl
    | with_reducible intro _
    | with_reducible refine .ite ?_ ?_
    | with_reducible refine (State.startColl_keeps _ _ _ _ _ _).trans ?_ ?_
    | with_reducible refine (State.sweepNodes_keeps _).trans ?_ ?_
    | with_reducible refine (State.endCmd_keeps _ _ _ _ _).trans ?_ ?_
    | split
    | dsimp -iota only

theorem State.loseMember_keeps (s : State) (n : CollNode) (rank chunk st : Nat) : Keeps 0x120000000000000000000000000000000000000000000000000000000000000000000000000000 s (State.loseMember s n rank chunk st) := by
  unfold State.loseMember
  repeat' first
    | with_reducible exact .refl _
    | with_reducible assumption
    | (extract_lets +onlyGivenNames y_; refine Keeps.cut (y := y_) ?_ ?_; rotate_left; clear_value y_; intro _; rotate_left; dsimp -iota only [y_]; clear y_)
    | exact rfl
    | with_reducible intro _
    | with_reducible refine .ite ?_ ?_
    | with_reducible refine (State.endAtChunk_keeps _ _ _ _ _).trans ?_ ?_
    | with_reducible refine (State.modNode_keeps _ _ _).trans ?_ ?_
    | split
    | dsimp -iota only

theorem State.contributePool_keeps (s : State) (unit : Nat) (n : CollNode) (m : CollMember) (p : Packet) : Keeps 0x4000532000000000000000000000000000000000000000000000000000000000000000000000880000 s (State.contributePool s unit n m p) := by
  unfold State.contributePool
  repeat' first
    | with_reducible exact .refl _
    | with_reducible assumption
    | (extract_lets +onlyGivenNames y_; refine Keeps.cut (y := y_) ?_ ?_; rotate_left; clear_value y_; intro _; rotate_left; dsimp -iota only [y_]; clear y_)
    | exact rfl
    | with_reducible intro _
    | with_reducible refine .ite ?_ ?_
    | with_reducible refine (State.loseMember_keeps _ _ _ _ _).trans ?_ ?_
    | with_reducible refine (State.source_keeps _ _ _ _).trans ?_ ?_
    | with_reducible refine .foldl _ ?_ ?_
    | split
    | dsimp -iota only

theorem State.contributeAway_keeps (s : State) (unit addr len fmt : Nat) (p : Packet) : Keeps 0x4000412000000000000000000000000000000000000000000000000000000000000000000000880000 s (State.contributeAway s unit addr len fmt p) := by
  unfold State.contributeAway
  repeat' first
    | with_reducible exact .refl _
    | with_reducible assumption
    | (extract_lets +onlyGivenNames y_; refine Keeps.cut (y := y_) ?_ ?_; rotate_left; clear_value y_; intro _; rotate_left; dsimp -iota only [y_]; clear y_)
    | exact rfl
    | with_reducible intro _
    | with_reducible refine .ite ?_ ?_
    | with_reducible refine (State.source_keeps _ _ _ _).trans ?_ ?_
    | with_reducible refine .foldl _ ?_ ?_
    | split
    | dsimp -iota only

theorem execGrantReceive_keeps (unit : Fin 256) (p : Packet) (addr len : Nat) (fmt : Fin 256) (s : State) {z_ : State} (h_ : execGrantReceive unit p addr len fmt s = .next z_) : Keeps 0x4000532000000000000000000000000000000000000000000000000000000000000000000000880000 s z_ := by
  unfold execGrantReceive at h_
  refine act_keeps h_ ?_
  repeat' first
    | with_reducible exact .refl _
    | with_reducible assumption
    | (extract_lets +onlyGivenNames y_; refine Keeps.cut (y := y_) ?_ ?_; rotate_left; clear_value y_; intro _; rotate_left; dsimp -iota only [y_]; clear y_)
    | exact rfl
    | with_reducible intro _
    | with_reducible refine .ite ?_ ?_
    | with_reducible refine (State.contributeAway_keeps _ _ _ _ _ _).trans ?_ ?_
    | with_reducible refine (State.contributePool_keeps _ _ _ _ _).trans ?_ ?_
    | with_reducible refine (State.sendCodes_keeps _ _ _).trans ?_ ?_
    | with_reducible refine (State.sendPartial_keeps _ _ _).trans ?_ ?_
    | with_reducible refine (State.sendOut_keeps _ _ _).trans ?_ ?_
    | with_reducible refine (State.chunkUpd_keeps _ _ _ _ _).trans ?_ ?_
    | with_reducible refine (State.modNode_keeps _ _ _).trans ?_ ?_
    | split
    | dsimp -iota only

theorem State.refuse_keeps (s : State) (n : CollNode) (chip unit chunk : Nat) : Keeps 0x4000412000000000000000000000000000000000000000000000000000000000000000000000880000 s (State.refuse s n chip unit chunk) := by
  unfold State.refuse
  repeat' first
    | with_reducible exact .refl _
    | with_reducible assumption
    | exact rfl
    | with_reducible intro _
    | with_reducible refine .ite ?_ ?_
    | with_reducible refine (State.sendGrant_keeps _ _ _ _ _ _ _ _ _ _).trans ?_ ?_
    | split

theorem execGrantRequestReceive_keeps (unit : Fin 256) (p : Packet) (desc : List Byte) (count : Nat) (s : State) {z_ : State} (h_ : execGrantRequestReceive unit p desc count s = .next z_) : Keeps 0x4000512000000000000000000000000000000000000000000000000000000000000000800000880000 s z_ := by
  unfold execGrantRequestReceive at h_
  refine act_keeps h_ ?_
  repeat' first
    | with_reducible exact .refl _
    | with_reducible assumption
    | (extract_lets +onlyGivenNames y_; refine Keeps.cut (y := y_) ?_ ?_; rotate_left; clear_value y_; intro _; rotate_left; dsimp -iota only [y_]; clear y_)
    | exact rfl
    | with_reducible intro _
    | with_reducible refine .ite ?_ ?_
    | with_reducible refine (State.refuse_keeps _ _ _ _ _).trans ?_ ?_
    | with_reducible refine (State.addNode_keeps _ _).trans ?_ ?_
    | with_reducible refine (State.sweepNodes_keeps _).trans ?_ ?_
    | with_reducible refine (State.grantInput_keeps _ _ _ _ _ _).trans ?_ ?_
    | with_reducible refine (State.modNode_keeps _ _ _).trans ?_ ?_
    | split
    | dsimp -iota only

theorem State.spillFull_keeps (s : State) (n : CollNode) : Keeps 0x20000000000000000000000000000000000000000000000000000000000000000000000000000 s (State.spillFull s n) := by
  unfold State.spillFull
  repeat' first
    | with_reducible exact .refl _
    | with_reducible assumption
    | exact rfl
    | with_reducible intro _
    | with_reducible refine .ite ?_ ?_
    | with_reducible refine (State.endAtChunk_keeps _ _ _ _ _).trans ?_ ?_
    | with_reducible refine .foldl _ ?_ ?_
    | split

theorem State.giveUp_keeps (s : State) (n : CollNode) : Keeps 0x4000532000000000000000000000000000000000000000000000000000000000000000800000880000 s (State.giveUp s n) := by
  unfold State.giveUp
  repeat' first
    | with_reducible exact .refl _
    | with_reducible assumption
    | (extract_lets +onlyGivenNames y_; refine Keeps.cut (y := y_) ?_ ?_; rotate_left; clear_value y_; intro _; rotate_left; dsimp -iota only [y_]; clear y_)
    | exact rfl
    | with_reducible intro _
    | with_reducible refine .ite ?_ ?_
    | with_reducible refine (State.spillFull_keeps _ _).trans ?_ ?_
    | with_reducible refine (State.refuse_keeps _ _ _ _ _).trans ?_ ?_
    | with_reducible refine (State.showSlots_keeps _).trans ?_ ?_
    | with_reducible refine (State.modNode_keeps _ _ _).trans ?_ ?_
    | with_reducible refine .foldl _ ?_ ?_
    | split
    | dsimp -iota only

theorem execGrantRefuseReceive_keeps (unit : Fin 256) (p : Packet) (s : State) {z_ : State} (h_ : execGrantRefuseReceive unit p s = .next z_) : Keeps 0x4000532000000000000000000000000000000000000000000000000000000000000000800000880000 s z_ := by
  unfold execGrantRefuseReceive at h_
  refine act_keeps h_ ?_
  repeat' first
    | with_reducible exact .refl _
    | with_reducible assumption
    | exact rfl
    | with_reducible intro _
    | with_reducible refine .ite ?_ ?_
    | with_reducible refine (State.giveUp_keeps _ _).trans ?_ ?_
    | split

theorem execGrantRepeat_keeps (node : NodeId) (s : State) {z_ : State} (h_ : execGrantRepeat node s = .next z_) : Keeps 0x4000412000000000000000000000000000000000000000000000000000000000000000000000880000 s z_ := by
  unfold execGrantRepeat at h_
  refine act_keeps h_ ?_
  repeat' first
    | with_reducible exact .refl _
    | with_reducible assumption
    | (extract_lets +onlyGivenNames y_; refine Keeps.cut (y := y_) ?_ ?_; rotate_left; clear_value y_; intro _; rotate_left; dsimp -iota only [y_]; clear y_)
    | exact rfl
    | with_reducible intro _
    | with_reducible refine .ite ?_ ?_
    | with_reducible refine (State.askParent_keeps _ _ _).trans ?_ ?_
    | with_reducible refine (State.grantInput_keeps _ _ _ _ _ _).trans ?_ ?_
    | with_reducible refine (State.askPeer_keeps _ _ _).trans ?_ ?_
    | with_reducible refine (State.sendGrant_keeps _ _ _ _ _ _ _ _ _ _).trans ?_ ?_
    | with_reducible refine .foldl _ ?_ ?_
    | split
    | dsimp -iota only

theorem State.arriveTree_keeps (s : State) (n : CollNode) (i : CollIn) (num residue : Nat) (ret : Nat × Bool) (bs : List Byte) : Keeps 0x4000d72000000000000000000000000000000000000000000000000000000000000003000000880000 s (State.arriveTree s n i num residue ret bs) := by
  unfold State.arriveTree
  repeat' first
    | with_reducible exact .refl _
    | with_reducible assumption
    | (extract_lets +onlyGivenNames y_; refine Keeps.cut (y := y_) ?_ ?_; rotate_left; clear_value y_; intro _; rotate_left; dsimp -iota only [y_]; clear y_)
    | exact rfl
    | with_reducible intro _
    | with_reducible refine .ite ?_ ?_
    | with_reducible refine (State.abortIfWhole_keeps _ _ _).trans ?_ ?_
    | with_reducible refine (State.chunkUpd_keeps _ _ _ _ _).trans ?_ ?_
    | with_reducible refine (State.bump_keeps _ _ _ _ ?_).trans (sub_self _) ?_
    | split
    | dsimp -iota only

theorem State.takeCodes_keeps (s : State) (n : CollNode) (c : CollChunk) (p : Packet) : Keeps 0x4000d72000000000000000000000000000000000000000000000000000000000000019000000880000 s (State.takeCodes s n c p) := by
  unfold State.takeCodes
  repeat' first
    | with_reducible exact .refl _
    | with_reducible assumption
    | (extract_lets +onlyGivenNames y_; refine Keeps.cut (y := y_) ?_ ?_; rotate_left; clear_value y_; intro _; rotate_left; dsimp -iota only [y_]; clear y_)
    | exact rfl
    | with_reducible intro _
    | with_reducible refine .ite ?_ ?_
    | with_reducible refine (State.sendCodes_keeps _ _ _).trans ?_ ?_
    | with_reducible refine (State.abortIfWhole_keeps _ _ _).trans ?_ ?_
    | with_reducible refine (State.noteFirst_keeps _ _ _ _ _).trans ?_ ?_
    | with_reducible refine (State.chunkUpd_keeps _ _ _ _ _).trans ?_ ?_
    | with_reducible refine (State.bump_keeps _ _ _ _ ?_).trans (sub_self _) ?_
    | split
    | dsimp -iota only

theorem State.takeData_keeps (s : State) (n : CollNode) (f : CollFeed) (i : CollIn) (p : Packet) (tags : List (Nat × Nat)) : Keeps 0x4000d7200000000000000000000000000000000000000000000000000000000000001b000000880000 s (State.takeData s n f i p tags) := by
  unfold State.takeData
  repeat' first
    | with_reducible exact .refl _
    | with_reducible assumption
    | (extract_lets +onlyGivenNames y_; refine Keeps.cut (y := y_) ?_ ?_; rotate_left; clear_value y_; intro _; rotate_left; dsimp -iota only [y_]; clear y_)
    | exact rfl
    | with_reducible intro _
    | with_reducible refine .ite ?_ ?_
    | with_reducible refine (State.arriveTree_keeps _ _ _ _ _ _ _).trans ?_ ?_
    | with_reducible refine (State.abortIfWhole_keeps _ _ _).trans ?_ ?_
    | with_reducible refine (State.abortMembers_keeps _ _ _ _).trans ?_ ?_
    | with_reducible refine (State.noteFirst_keeps _ _ _ _ _).trans ?_ ?_
    | with_reducible refine (State.forwardEx_keeps _ _ _ _ _).trans ?_ ?_
    | with_reducible refine (State.arriveEx_keeps _ _ _ _ _ _ _).trans ?_ ?_
    | with_reducible refine (State.chunkUpd_keeps _ _ _ _ _).trans ?_ ?_
    | with_reducible refine (State.modNode_keeps _ _ _).trans ?_ ?_
    | split
    | dsimp -iota only

theorem State.takeCounts_keeps (s : State) (n : CollNode) (f : CollFeed) (p : Packet) : Keeps 0x4000d720000000000000000000000000000000000000000000000000000000000000c1000000880000 s (State.takeCounts s n f p) := by
  unfold State.takeCounts
  repeat' first
    | with_reducible exact .refl _
    | with_reducible assumption
    | (extract_lets +onlyGivenNames y_; refine Keeps.cut (y := y_) ?_ ?_; rotate_left; clear_value y_; intro _; rotate_left; dsimp -iota only [y_]; clear y_)
    | exact rfl
    | with_reducible intro _
    | with_reducible refine .ite ?_ ?_
    | with_reducible refine (State.toGeneration_keeps _ _).trans ?_ ?_
    | with_reducible refine (State.chunkUpd_keeps _ _ _ _ _).trans ?_ ?_
    | with_reducible refine (State.modNode_keeps _ _ _).trans ?_ ?_
    | with_reducible refine (State.bump_keeps _ _ _ _ ?_).trans (sub_self _) ?_
    | split
    | dsimp -iota only

theorem execCollUpReceive_keeps (unit : Fin 256) (p : Packet) (tags : List (Nat × Nat)) (s : State) {z_ : State} (h_ : execCollUpReceive unit p tags s = .next z_) : Keeps 0x4000d720000000000000000000000000000000000000000000000000000000000000db400000880000 s z_ := by
  unfold execCollUpReceive at h_
  refine act_keeps h_ ?_
  repeat' first
    | with_reducible exact .refl _
    | with_reducible assumption
    | (extract_lets +onlyGivenNames y_; refine Keeps.cut (y := y_) ?_ ?_; rotate_left; clear_value y_; intro _; rotate_left; dsimp -iota only [y_]; clear y_)
    | exact rfl
    | with_reducible intro _
    | with_reducible refine .ite ?_ ?_
    | with_reducible refine (State.takeCounts_keeps _ _ _ _).trans ?_ ?_
    | with_reducible refine (State.takeData_keeps _ _ _ _ _ _).trans ?_ ?_
    | with_reducible refine (State.takeCodes_keeps _ _ _ _).trans ?_ ?_
    | with_reducible refine (State.bump_keeps _ _ _ _ ?_).trans (sub_self _) ?_
    | split
    | dsimp -iota only

theorem execChunkReduceComplete_keeps (node : NodeId) (chunk : BitVec 32) (check : ReduceCheck) (s : State) {z_ : State} (h_ : execChunkReduceComplete node chunk check s = .next z_) : Keeps 0x4000d32000000000000000000000000000000000000000000000000000000000000002000000880000 s z_ := by
  unfold execChunkReduceComplete at h_
  refine act_keeps h_ ?_
  repeat' first
    | with_reducible exact .refl _
    | with_reducible assumption
    | (extract_lets +onlyGivenNames y_; refine Keeps.cut (y := y_) ?_ ?_; rotate_left; clear_value y_; intro _; rotate_left; dsimp -iota only [y_]; clear y_)
    | exact rfl
    | with_reducible intro _
    | with_reducible refine .ite ?_ ?_
    | with_reducible refine (State.sendPartial_keeps _ _ _).trans ?_ ?_
    | with_reducible refine (State.serveTree_keeps _ _ _).trans ?_ ?_
    | with_reducible refine (State.endAtChunk_keeps _ _ _ _ _).trans ?_ ?_
    | with_reducible refine (State.chunkUpd_keeps _ _ _ _ _).trans ?_ ?_
    | with_reducible refine (State.bump_keeps _ _ _ _ ?_).trans (sub_self _) ?_
    | with_reducible refine .foldl _ ?_ ?_
    | split
    | dsimp -iota only
    | with_reducible apply Keeps.upd rfl
    | exact Or.inl rfl
    | exact Or.inr rfl

theorem State.sinkResult_keeps (s : State) (wing : Nat) (p : Packet) : Keeps 0x4000c52000000000000000000000000000000000000000000000000000000000480000000001880000 s (State.sinkResult s wing p) := by
  unfold State.sinkResult
  refine .ite (fun _ => .refl s) fun _ => ?_
  generalize arrivalOf (s.receivedOf (receivedKey (0x89 + wing) p)) p.seq = ar
  generalize List.mapM (m := Option) (fun o => s.resolve p true o) (pageStarts (addrOffset p.arg.toNat) p.payload.length) = pm
  match ar with
  | .duplicate => exact (State.bump_keeps _ _ _ _ rfl).trans (sub_self _) ((State.setReceived_keeps _ _).trans rfl (.refl s))
  | .beyond => exact State.bump_keeps _ _ _ _ rfl
  | .fresh =>
    match pm with
    | none => exact (State.refuseWrite_keeps _ _ _ _).trans rfl (.refl s)
    | some _ =>
      dsimp -iota only
      generalize s.firstFault _ = ff
      match ff with
      | some x => exact (State.refuseWrite_keeps _ _ _ _).trans rfl ((State.countFaults_keeps _ _).trans rfl (.refl s))
      | none =>
        refine (State.received_keeps _ _ _).trans rfl ?_
        apply Keeps.upd rfl (Keeps.foldl _ (.refl s) fun t q => (State.writeMem_keeps _ _ _).trans rfl (.refl t)) <;>
          first | exact rfl | exact .inl rfl | exact .inr rfl

theorem execCollDownReceive_keeps (unit : Fin 256) (p : Packet) (s : State) {z_ : State} (h_ : execCollDownReceive unit p s = .next z_) : Keeps 0x4000d72000000000000000000000000000000000000000000000000000000000480000000001880000 s z_ := by
  unfold execCollDownReceive at h_
  refine act_keeps h_ ?_
  repeat' first
    | with_reducible exact .refl _
    | with_reducible assumption
    | (extract_lets +onlyGivenNames y_; refine Keeps.cut (y := y_) ?_ ?_; rotate_left; clear_value y_; intro _; rotate_left; dsimp -iota only [y_]; clear y_)
    | exact rfl
    | with_reducible intro _
    | with_reducible refine .ite ?_ ?_
    | with_reducible refine (State.sinkResult_keeps _ _ _).trans ?_ ?_
    | with_reducible refine (State.abortDown_keeps _ _ _ _).trans ?_ ?_
    | with_reducible refine (State.serveTree_keeps _ _ _).trans ?_ ?_
    | with_reducible refine (State.sendDown_keeps _ _ _ _ _ _ _ _ _ _).trans ?_ ?_
    | with_reducible refine (State.chunkUpd_keeps _ _ _ _ _).trans ?_ ?_
    | with_reducible refine .foldl _ ?_ ?_
    | split
    | dsimp -iota only

theorem execNodeSlotsObtained_keeps (node : NodeId) (s : State) {z_ : State} (h_ : execNodeSlotsObtained node s = .next z_) : Keeps 0x120000000000000000000000000000000000000000000000000000000000000001800000000000 s z_ := by
  unfold execNodeSlotsObtained at h_
  refine act_keeps h_ ?_
  repeat' first
    | with_reducible exact .refl _
    | with_reducible assumption
    | (extract_lets +onlyGivenNames y_; refine Keeps.cut (y := y_) ?_ ?_; rotate_left; clear_value y_; intro _; rotate_left; dsimp -iota only [y_]; clear y_)
    | exact rfl
    | with_reducible intro _
    | with_reducible refine .ite ?_ ?_
    | with_reducible refine (State.sweepNodes_keeps _).trans ?_ ?_
    | with_reducible refine (State.takeSpill_keeps _ _).trans ?_ ?_
    | with_reducible refine (State.takeSlots_keeps _ _).trans ?_ ?_
    | split
    | dsimp -iota only

theorem execSpill_keeps (node : NodeId) (s : State) {z_ : State} (h_ : execSpill node s = .next z_) : Keeps 0x120000000000000000000000000000000000000000000000000000000000000001800000000000 s z_ := by
  unfold execSpill at h_
  refine act_keeps h_ ?_
  repeat' first
    | with_reducible exact .refl _
    | with_reducible assumption
    | (extract_lets +onlyGivenNames y_; refine Keeps.cut (y := y_) ?_ ?_; rotate_left; clear_value y_; intro _; rotate_left; dsimp -iota only [y_]; clear y_)
    | exact rfl
    | with_reducible intro _
    | with_reducible refine .ite ?_ ?_
    | with_reducible refine (State.sweepNodes_keeps _).trans ?_ ?_
    | with_reducible refine (State.takeSpill_keeps _ _).trans ?_ ?_
    | with_reducible refine (State.takeSlots_keeps _ _).trans ?_ ?_
    | with_reducible refine (State.modNode_keeps _ _ _).trans ?_ ?_
    | split
    | dsimp -iota only

theorem execSpillGiveUp_keeps (node : NodeId) (s : State) {z_ : State} (h_ : execSpillGiveUp node s = .next z_) : Keeps 0x4000532000000000000000000000000000000000000000000000000000000000000000800000880000 s z_ := by
  unfold execSpillGiveUp at h_
  refine act_keeps h_ ?_
  repeat' first
    | with_reducible exact .refl _
    | with_reducible assumption
    | exact rfl
    | with_reducible intro _
    | with_reducible refine .ite ?_ ?_
    | with_reducible refine (State.giveUp_keeps _ _).trans ?_ ?_
    | split

theorem execChunkSlip_keeps (node : NodeId) (dst : Rank) (chunk : BitVec 32) (s : State) {z_ : State} (h_ : execChunkSlip node dst chunk s = .next z_) : Keeps 0x120000000000000000000000000000000000000000000000000000000000000001000000000000 s z_ := by
  unfold execChunkSlip at h_
  refine act_keeps h_ ?_
  repeat' first
    | with_reducible exact .refl _
    | with_reducible assumption
    | (extract_lets +onlyGivenNames y_; refine Keeps.cut (y := y_) ?_ ?_; rotate_left; clear_value y_; intro _; rotate_left; dsimp -iota only [y_]; clear y_)
    | exact rfl
    | with_reducible intro _
    | with_reducible refine .ite ?_ ?_
    | with_reducible refine (State.skpSlip_keeps _ _ _ _).trans ?_ ?_
    | with_reducible refine (State.chunkUpd_keeps _ _ _ _ _).trans ?_ ?_
    | with_reducible refine (State.modRun_keeps _ _ _ _).trans ?_ ?_
    | with_reducible refine (State.bump_keeps _ _ _ _ ?_).trans (sub_self _) ?_
    | with_reducible refine .foldl _ ?_ ?_
    | split
    | dsimp -iota only

theorem State.abortExchange_keeps (s : State) (n : CollNode) (c : CollChunk) : Keeps 0x4000d72000000000000000000000000000000000000000000000000000000000000001000000880000 s (State.abortExchange s n c) := by
  unfold State.abortExchange
  repeat' first
    | with_reducible exact .refl _
    | with_reducible assumption
    | (extract_lets +onlyGivenNames y_; refine Keeps.cut (y := y_) ?_ ?_; rotate_left; clear_value y_; intro _; rotate_left; dsimp -iota only [y_]; clear y_)
    | exact rfl
    | with_reducible intro _
    | with_reducible refine .ite ?_ ?_
    | with_reducible refine (State.countAborts_keeps _ _ _).trans ?_ ?_
    | with_reducible refine (State.abortMembers_keeps _ _ _ _).trans ?_ ?_
    | with_reducible refine (State.sendOut_keeps _ _ _).trans ?_ ?_
    | with_reducible refine (State.modNode_keeps _ _ _).trans ?_ ?_
    | with_reducible refine .foldl _ ?_ ?_
    | split
    | dsimp -iota only

theorem execChunkAbort_keeps (node : NodeId) (dst : Rank) (chunk : BitVec 32) (s : State) {z_ : State} (h_ : execChunkAbort node dst chunk s = .next z_) : Keeps 0x4000d720000000000000000000000000000000000000000000000000000000000000c1000000880000 s z_ := by
  unfold execChunkAbort at h_
  refine act_keeps h_ ?_
  repeat' first
    | with_reducible exact .refl _
    | with_reducible assumption
    | exact rfl
    | with_reducible intro _
    | with_reducible refine .ite ?_ ?_
    | with_reducible refine (State.abortExchange_keeps _ _ _).trans ?_ ?_
    | with_reducible refine (State.abortNode_keeps _ _ _ _).trans ?_ ?_
    | with_reducible refine (State.skpAbort_keeps _ _ _ _).trans ?_ ?_
    | split

theorem State.abortLost_keeps (s : State) (n : CollNode) (c : CollChunk) : Keeps 0x4000d72000000000000000000000000000000000000000000000000000000000000001000000880000 s (State.abortLost s n c) := by
  unfold State.abortLost
  repeat' first
    | with_reducible exact .refl _
    | with_reducible assumption
    | exact rfl
    | with_reducible intro _
    | with_reducible refine .ite ?_ ?_
    | with_reducible refine (State.countAborts_keeps _ _ _).trans ?_ ?_
    | with_reducible refine (State.abortDown_keeps _ _ _ _).trans ?_ ?_
    | split

theorem execResultTimeout_keeps (node : NodeId) (chunk : BitVec 32) (s : State) {z_ : State} (h_ : execResultTimeout node chunk s = .next z_) : Keeps 0x4000d72000000000000000000000000000000000000000000000000000000000000001000000880000 s z_ := by
  unfold execResultTimeout at h_
  refine act_keeps h_ ?_
  repeat' first
    | with_reducible exact .refl _
    | with_reducible assumption
    | exact rfl
    | with_reducible intro _
    | with_reducible refine .ite ?_ ?_
    | with_reducible refine (State.abortLost_keeps _ _ _).trans ?_ ?_
    | split

theorem State.upFailed_keeps (s : State) (unit : Nat) (t : Tag) : Keeps 0x4000d72000000000000000000000000000000000000000000000000000000000000001000000880000 s (State.upFailed s unit t) := by
  unfold State.upFailed
  repeat' first
    | with_reducible exact .refl _
    | with_reducible assumption
    | exact rfl
    | with_reducible intro _
    | with_reducible refine .ite ?_ ?_
    | with_reducible refine (State.abortLost_keeps _ _ _).trans ?_ ?_
    | split

theorem execResendLimit_keeps (unit : Fin 256) (chip : Chip) (peer : Fin 256) (ctx : Ctx) (seq : BitVec 32) (s : State) {z_ : State} (h_ : execResendLimit unit chip peer ctx seq s = .next z_) : Keeps 0x4000df2000000000000000000000000000000000000000000000000000000001000001000000880000 s z_ := by
  unfold execResendLimit at h_
  refine act_keeps h_ ?_
  repeat' first
    | with_reducible exact .refl _
    | with_reducible assumption
    | (extract_lets +onlyGivenNames y_; refine Keeps.cut (y := y_) ?_ ?_; rotate_left; clear_value y_; intro _; rotate_left; dsimp -iota only [y_]; clear y_)
    | exact rfl
    | with_reducible intro _
    | with_reducible refine .ite ?_ ?_
    | with_reducible refine (State.upFailed_keeps _ _ _).trans ?_ ?_
    | with_reducible refine (State.tagFail_keeps _ _ _).trans ?_ ?_
    | with_reducible refine (State.pump_keeps _).trans ?_ ?_
    | split
    | dsimp -iota only
    | with_reducible apply Keeps.upd rfl
    | exact Or.inl rfl
    | exact Or.inr rfl

end Sys2Proof.Machine
end

