-- ==== Sys2Proof/Laws/KeepsHawk.lean ====
section
/-! SUPPORT. Sys2Proof/Laws/KeepsHawk.lean: what each operation of Machine/Hawk.lean leaves alone. -/

namespace Sys2Proof.Machine

theorem State.modLoad_keeps (s : State) (id : Nat) (f : MgrLoad → MgrLoad) : Keeps 0x8000000000000000000000000000000000000000000000000000000000000000000000000000000 s (State.modLoad s id f) := by
  unfold State.modLoad
  repeat' first
    | with_reducible exact .refl _
    | with_reducible assumption
    | exact rfl
    | with_reducible intro _
    | with_reducible refine .ite ?_ ?_
    | split
    | with_reducible apply Keeps.upd rfl
    | exact Or.inl rfl
    | exact Or.inr rfl

theorem State.dropLoad_keeps (s : State) (id : Nat) : Keeps 0x8000000000000000000000000000000000000000000000000000000000000000000000000000000 s (State.dropLoad s id) := by
  unfold State.dropLoad
  repeat' first
    | with_reducible exact .refl _
    | with_reducible assumption
    | exact rfl
    | with_reducible intro _
    | with_reducible refine .ite ?_ ?_
    | split
    | with_reducible apply Keeps.upd rfl
    | exact Or.inl rfl
    | exact Or.inr rfl

theorem State.startLoads_keeps (s : State) : Keeps 0xc03a000000000000000000000000000000000000000000000000000000000000000000000000000000 s (State.startLoads s) := by
  unfold State.startLoads
  repeat' first
    | with_reducible exact .refl _
    | with_reducible assumption
    | (extract_lets +onlyGivenNames y_; refine Keeps.cut (y := y_) ?_ ?_; rotate_left; clear_value y_; intro _; rotate_left; dsimp -iota only [y_]; clear y_)
    | exact rfl
    | with_reducible intro _
    | with_reducible refine .ite ?_ ?_
    | with_reducible refine (State.modLoad_keeps _ _ _).trans ?_ ?_
    | with_reducible refine (State.finishFw_keeps _ _ _ _ _).trans ?_ ?_
    | with_reducible refine (State.askMgmt_keeps _ _ _).trans ?_ ?_
    | with_reducible refine (State.sendMgmt_keeps _ _ _).trans ?_ ?_
    | with_reducible refine (State.fresh_keeps _).trans ?_ ?_
    | with_reducible refine (Keeps.snd (State.fresh_keeps _) ‹_›).trans ?_ ?_
    | with_reducible refine .foldl _ ?_ ?_
    | split
    | dsimp -iota only

theorem State.decideLoad_keeps (s : State) (l : MgrLoad) : Keeps 0xc03a000000000000000000000000000000000000000000000000000000000000000000000000000000 s (State.decideLoad s l) := by
  unfold State.decideLoad
  repeat' first
    | with_reducible exact .refl _
    | with_reducible assumption
    | (extract_lets +onlyGivenNames y_; refine Keeps.cut (y := y_) ?_ ?_; rotate_left; clear_value y_; intro _; rotate_left; dsimp -iota only [y_]; clear y_)
    | exact rfl
    | with_reducible intro _
    | with_reducible refine .ite ?_ ?_
    | with_reducible refine (State.startLoads_keeps _).trans ?_ ?_
    | with_reducible refine (State.dropLoad_keeps _ _).trans ?_ ?_
    | with_reducible refine (State.modLoad_keeps _ _ _).trans ?_ ?_
    | with_reducible refine (State.finishFw_keeps _ _ _ _ _).trans ?_ ?_
    | with_reducible refine (State.sendMgmt_keeps _ _ _).trans ?_ ?_
    | with_reducible refine (State.fresh_keeps _).trans ?_ ?_
    | with_reducible refine (Keeps.snd (State.fresh_keeps _) ‹_›).trans ?_ ?_
    | with_reducible refine .foldl _ ?_ ?_
    | split
    | dsimp -iota only
    | with_reducible apply Keeps.upd rfl
    | exact Or.inl rfl
    | exact Or.inr rfl

theorem execBqLoad_keeps (r : FwRef) (slice : Fin 65536) (image : List Byte) (s : State) {z_ : State} (h_ : execBqLoad r slice image s = .next z_) : Keeps 0xc03a000000000000000000000000000000000000000000000000000000000000000000000000000000 s z_ := by
  unfold execBqLoad at h_
  refine act_keeps h_ ?_
  repeat' first
    | with_reducible exact .refl _
    | with_reducible assumption
    | (extract_lets +onlyGivenNames y_; refine Keeps.cut (y := y_) ?_ ?_; rotate_left; clear_value y_; intro _; rotate_left; dsimp -iota only [y_]; clear y_)
    | exact rfl
    | with_reducible intro _
    | with_reducible refine .ite ?_ ?_
    | with_reducible refine (State.startLoads_keeps _).trans ?_ ?_
    | with_reducible refine (State.mgrCommand_keeps _ _ _ ?_ ?_).trans (sub_self _) ?_
    | with_reducible refine (State.finishFw_keeps _ _ _ _ _).trans ?_ ?_
    | split
    | dsimp -iota only
    | with_reducible apply Keeps.upd rfl
    | exact Or.inl rfl
    | exact Or.inr rfl

theorem State.takeAnswer_keeps (s : State) (chip load : Nat) (x : Option BqRefusal) : Keeps 0xc03a000000000000000000000000000000000000000000000000000000000000000000000000000000 s (State.takeAnswer s chip load x) := by
  unfold State.takeAnswer
  repeat' first
    | with_reducible exact .refl _
    | with_reducible assumption
    | (extract_lets +onlyGivenNames y_; refine Keeps.cut (y := y_) ?_ ?_; rotate_left; clear_value y_; intro _; rotate_left; dsimp -iota only [y_]; clear y_)
    | exact rfl
    | with_reducible intro _
    | with_reducible refine .ite ?_ ?_
    | with_reducible refine (State.decideLoad_keeps _ _).trans ?_ ?_
    | with_reducible refine (State.modLoad_keeps _ _ _).trans ?_ ?_
    | split
    | dsimp -iota only

theorem execBqLoadTimeout_keeps (load : Nat) (s : State) {z_ : State} (h_ : execBqLoadTimeout load s = .next z_) : Keeps 0xc03a000000000000000000000000000000000000000000000000000000000000000000000000000000 s z_ := by
  unfold execBqLoadTimeout at h_
  refine act_keeps h_ ?_
  repeat' first
    | with_reducible exact .refl _
    | with_reducible assumption
    | (extract_lets +onlyGivenNames y_; refine Keeps.cut (y := y_) ?_ ?_; rotate_left; clear_value y_; intro _; rotate_left; dsimp -iota only [y_]; clear y_)
    | exact rfl
    | with_reducible intro _
    | with_reducible refine .ite ?_ ?_
    | with_reducible refine (State.decideLoad_keeps _ _).trans ?_ ?_
    | split
    | dsimp -iota only

theorem execBqUnload_keeps (r : FwRef) (handle : BitVec 32) (s : State) {z_ : State} (h_ : execBqUnload r handle s = .next z_) : Keeps 0xc03a000000000000000000000000000000000000000000000000000000000000000000000000000000 s z_ := by
  unfold execBqUnload at h_
  refine act_keeps h_ ?_
  repeat' first
    | with_reducible exact .refl _
    | with_reducible assumption
    | exact rfl
    | with_reducible intro _
    | with_reducible refine .ite ?_ ?_
    | with_reducible refine (State.startLoads_keeps _).trans ?_ ?_
    | with_reducible refine (State.modLoad_keeps _ _ _).trans ?_ ?_
    | with_reducible refine (State.mgrCommand_keeps _ _ _ ?_ ?_).trans (sub_self _) ?_
    | with_reducible refine (State.finishFw_keeps _ _ _ _ _).trans ?_ ?_
    | split

theorem execBqStatus_keeps (r : FwRef) (handle : BitVec 32) (s : State) {z_ : State} (h_ : execBqStatus r handle s = .next z_) : Keeps 0x30000000000000000000000000000000000000000000000000000000000000000000000000000000 s z_ := by
  unfold execBqStatus at h_
  refine act_keeps h_ ?_
  repeat' first
    | with_reducible exact .refl _
    | with_reducible assumption
    | exact rfl
    | with_reducible intro _
    | with_reducible refine .ite ?_ ?_
    | with_reducible refine (State.mgrCommand_keeps _ _ _ ?_ ?_).trans (sub_self _) ?_
    | with_reducible refine (State.finishFw_keeps _ _ _ _ _).trans ?_ ?_
    | split

theorem State.modPart_keeps (s : State) (p : BqPart → Bool) (f : BqPart → BqPart) : Keeps 0x200000000000000000000000000000000000000000000000000000000000000000000000000000 s (State.modPart s p f) := by
  unfold State.modPart
  repeat' first
    | with_reducible exact .refl _
    | with_reducible assumption
    | exact rfl
    | with_reducible intro _
    | with_reducible refine .ite ?_ ?_
    | split
    | with_reducible apply Keeps.upd rfl
    | exact Or.inl rfl
    | exact Or.inr rfl

theorem State.showLoad_keeps (s : State) (x : Option BqRefusal) : Keeps 0x18000000000000000 s (State.showLoad s x) := by
  unfold State.showLoad
  repeat' first
    | with_reducible exact .refl _
    | with_reducible assumption
    | exact rfl
    | with_reducible intro _
    | with_reducible refine .ite ?_ ?_
    | with_reducible refine (State.setReg_keeps _ _ _ _ ?_).trans (sub_self _) ?_
    | split

theorem State.loadImage_keeps (s : State) (load slice : Nat) (image : List Byte) : Keeps 0x8020600000000000000000000000000000000000000000000000000000008000018000000000000000 s (State.loadImage s load slice image) := by
  unfold State.loadImage
  repeat' first
    | with_reducible exact .refl _
    | with_reducible assumption
    | (extract_lets +onlyGivenNames y_; refine Keeps.cut (y := y_) ?_ ?_; rotate_left; clear_value y_; intro _; rotate_left; dsimp -iota only [y_]; clear y_)
    | exact rfl
    | with_reducible intro _
    | with_reducible refine .ite ?_ ?_
    | with_reducible refine (State.showLoad_keeps _ _).trans ?_ ?_
    | with_reducible refine (State.loadCheck_keeps _ _ _).trans ?_ ?_
    | with_reducible refine (Keeps.fst (State.loadCheck_keeps _ _ _) ‹_›).trans ?_ ?_
    | with_reducible refine (State.fresh_keeps _).trans ?_ ?_
    | with_reducible refine (Keeps.snd (State.fresh_keeps _) ‹_›).trans ?_ ?_
    | split
    | dsimp -iota only
    | with_reducible apply Keeps.upd rfl
    | exact Or.inl rfl
    | exact Or.inr rfl

theorem State.answerLoad_keeps (s : State) (load : Nat) : Keeps 0x4002000000000000000000000000000000000000000000000000000000000000000000000000000000 s (State.answerLoad s load) := by
  unfold State.answerLoad
  repeat' first
    | with_reducible exact .refl _
    | with_reducible assumption
    | exact rfl
    | with_reducible intro _
    | with_reducible refine .ite ?_ ?_
    | with_reducible refine (State.sendMgmt_keeps _ _ _).trans ?_ ?_
    | split

theorem execBqLoadCheck_keeps (h : MsgHdr) (m : BqMsg) (s : State) {z_ : State} (h_ : execBqLoadCheck h m s = .next z_) : Keeps 0xe0fa602000000000000000000000000000000000000000000a28000010008000018000001882000002 s z_ := by
  unfold execBqLoadCheck at h_
  refine act_keeps h_ ?_
  repeat' first
    | with_reducible exact .refl _
    | with_reducible assumption
    | exact rfl
    | with_reducible intro _
    | with_reducible refine .ite ?_ ?_
    | with_reducible refine (State.answerLoad_keeps _ _).trans ?_ ?_
    | with_reducible refine (State.loadImage_keeps _ _ _ _).trans ?_ ?_
    | with_reducible refine (State.takeAnswer_keeps _ _ _ _).trans ?_ ?_
    | with_reducible refine (State.atManager_keeps _ _ _ _ ?_ ?_ ?_).trans (sub_self _) ?_
    | with_reducible refine (State.fromManager_keeps _ _ _ _ ?_ ?_ ?_).trans (sub_self _) ?_
    | with_reducible refine (State.answered_keeps _ _).trans ?_ ?_
    | with_reducible exact .ident _
    | split

theorem State.readTile_keeps (s : State) (p : BqPart → Bool) (node : Nat) (n : BqNode) (core : Nat) (remote : List RemoteRead) : Keeps 0x200000000000000000000000000000000000000000000000000000000000000000000000000000 s (State.readTile s p node n core remote) := by
  unfold State.readTile
  repeat' first
    | with_reducible exact .refl _
    | with_reducible assumption
    | (extract_lets +onlyGivenNames y_; refine Keeps.cut (y := y_) ?_ ?_; rotate_left; clear_value y_; intro _; rotate_left; dsimp -iota only [y_]; clear y_)
    | exact rfl
    | with_reducible intro _
    | with_reducible refine .ite ?_ ?_
    | with_reducible refine (State.modPart_keeps _ _ _).trans ?_ ?_
    | split
    | dsimp -iota only

theorem State.readTiles_keeps (s : State) (b : BqPart) (remote : List RemoteRead) : Keeps 0x200000000000000000000000000000000000000000000000000000000000000000000000000000 s (State.readTiles s b remote) := by
  unfold State.readTiles
  repeat' first
    | with_reducible exact .refl _
    | with_reducible assumption
    | exact rfl
    | with_reducible intro _
    | with_reducible refine .ite ?_ ?_
    | with_reducible refine (State.readTile_keeps _ _ _ _ _ _).trans ?_ ?_
    | with_reducible refine .foldl _ ?_ ?_
    | split

theorem execBqCommitReceive_keeps (h : MsgHdr) (load : Nat) (go : Option (BitVec 32 × Wb)) (remote : List RemoteRead) (s : State) {z_ : State} (h_ : execBqCommitReceive h load go remote s = .next z_) : Keeps 0x60d2202000000000000000000000000000000000000000000a28000010000000006400801882000002 s z_ := by
  unfold execBqCommitReceive at h_
  refine act_keeps h_ ?_
  repeat' first
    | with_reducible exact .refl _
    | with_reducible assumption
    | (extract_lets +onlyGivenNames y_; refine Keeps.cut (y := y_) ?_ ?_; rotate_left; clear_value y_; intro _; rotate_left; dsimp -iota only [y_]; clear y_)
    | exact rfl
    | with_reducible intro _
    | with_reducible refine .ite ?_ ?_
    | with_reducible refine (State.readTiles_keeps _ _ _).trans ?_ ?_
    | with_reducible refine (State.modPart_keeps _ _ _).trans ?_ ?_
    | with_reducible refine (State.showParts_keeps _).trans ?_ ?_
    | with_reducible refine (State.fromManager_keeps _ _ _ _ ?_ ?_ ?_).trans (sub_self _) ?_
    | with_reducible exact .ident _
    | split
    | dsimp -iota only
    | with_reducible apply Keeps.upd rfl
    | exact Or.inl rfl
    | exact Or.inr rfl

theorem execBqStart_keeps (handle : BitVec 32) (remote : List RemoteRead) (s : State) {z_ : State} (h_ : execBqStart handle remote s = .next z_) : Keeps 0x200000000000000000000000000000000000000000000000000000000000006400800000000000 s z_ := by
  unfold execBqStart at h_
  refine act_keeps h_ ?_
  repeat' first
    | with_reducible exact .refl _
    | with_reducible assumption
    | exact rfl
    | with_reducible intro _
    | with_reducible refine .ite ?_ ?_
    | with_reducible refine (State.readTiles_keeps _ _ _).trans ?_ ?_
    | with_reducible refine (State.modPart_keeps _ _ _).trans ?_ ?_
    | with_reducible refine (State.showParts_keeps _).trans ?_ ?_
    | split

theorem State.takeCores_keeps (s : State) (handle : Nat) (n : BqNode) (st : Nat) : Keeps 0x300000000000000 s (State.takeCores s handle n st) := by
  unfold State.takeCores
  repeat' first
    | with_reducible exact .refl _
    | with_reducible assumption
    | (extract_lets +onlyGivenNames y_; refine Keeps.cut (y := y_) ?_ ?_; rotate_left; clear_value y_; intro _; rotate_left; dsimp -iota only [y_]; clear y_)
    | exact rfl
    | with_reducible intro _
    | with_reducible refine .ite ?_ ?_
    | with_reducible refine (State.setFld_keeps _ _ _ _ ?_).trans (sub_self _) ?_
    | with_reducible refine (State.bump_keeps _ _ _ _ ?_).trans (sub_self _) ?_
    | with_reducible refine .foldl _ ?_ ?_
    | split
    | dsimp -iota only

theorem State.freeCores_keeps (s : State) (n : BqNode) (status : Nat) : Keeps 0x300000000000000 s (State.freeCores s n status) := by
  unfold State.freeCores
  repeat' first
    | with_reducible exact .refl _
    | with_reducible assumption
    | (extract_lets +onlyGivenNames y_; refine Keeps.cut (y := y_) ?_ ?_; rotate_left; clear_value y_; intro _; rotate_left; dsimp -iota only [y_]; clear y_)
    | exact rfl
    | with_reducible intro _
    | with_reducible refine .ite ?_ ?_
    | with_reducible refine (State.setFld_keeps _ _ _ _ ?_).trans (sub_self _) ?_
    | with_reducible refine (State.bump_keeps _ _ _ _ ?_).trans (sub_self _) ?_
    | with_reducible refine .foldl _ ?_ ?_
    | split
    | dsimp -iota only

theorem State.markDegraded_keeps (s : State) (handle : Nat) : Keeps 0x200000000000000000000000000000000000000000000000000000000000002000000000000000 s (State.markDegraded s handle) := by
  unfold State.markDegraded
  repeat' first
    | with_reducible exact .refl _
    | with_reducible assumption
    | exact rfl
    | with_reducible intro _
    | with_reducible refine .ite ?_ ?_
    | with_reducible refine (State.degradePart_keeps _ _).trans ?_ ?_
    | split

theorem State.sendPieces_keeps (s : State) (unit c epoch : Nat) (tag : Nat × Nat) (fuel off addr : Nat) (bs : List Byte) : Keeps 0x4000412000000000000000000000000000000000000000000000000000000000000000000000880000 s (s.sendPieces unit c epoch tag fuel off addr bs) := by
  induction fuel generalizing s off addr bs with
  | zero => exact .refl _
  | succ n_ ih =>
    unfold State.sendPieces
    repeat' first
      | with_reducible exact .refl _
      | exact rfl
      | intro _
      | with_reducible refine .ite ?_ ?_
      | with_reducible refine (ih _ _ _ _).trans (sub_self _) ?_
      | with_reducible refine (State.writeReq_keeps _ _ _ _ _ _ _).trans ?_ ?_
      | split
      | dsimp only

theorem State.stepWrites_keeps (s : State) (unit : Nat) (tag : Nat × Nat) (ws : List (Nat × Nat × List Byte)) : Keeps 0x4000c52000000000000000000000000000000000000000000000000000000000000000000000880000 s (s.stepWrites unit tag ws).1 := by
  unfold State.stepWrites
  generalize hx : List.foldl _ (s, ST_OK, 0) _ = q
  have hq : Keeps 0x4000c52000000000000000000000000000000000000000000000000000000000000000000000880000 s q.1 := by
    rw [← hx]
    refine Keeps.foldlFst _ (.refl s) fun b w => ?_
    obtain ⟨t, st, off⟩ := b
    refine .ite1 (fun _ => .refl t) fun _ => .ite1 (fun _ => ?_) fun _ => ?_
    · have hk := State.storeOwn_keeps t w.1 (addrOffset w.2.1) w.2.2
      generalize State.storeOwn t w.1 (addrOffset w.2.1) w.2.2 = y at hk ⊢
      obtain ⟨t1, x⟩ := y
      exact Keeps.trans (t := t1) hk rfl (.refl t)
    · exact (State.sendPieces_keeps _ _ _ _ _ _ _ _ _).trans rfl (.refl t)
  obtain ⟨t, st, off⟩ := q
  exact hq

theorem State.beginStep_keeps (s : State) (b : BqPart) (step : Nat) (st : BqStep) (n : BqNode) (param : List Byte) (inst : Nat) (op : Option (Nat × Nat)) (remote : List RemoteRead) : Keeps 0x4000e72000000000000000000000000000000000000000000000000000000000002300000000880000 s (State.beginStep s b step st n param inst op remote) := by
  unfold State.beginStep
  repeat' first
    | with_reducible exact .refl _
    | with_reducible assumption
    | (extract_lets +onlyGivenNames y_; refine Keeps.cut (y := y_) ?_ ?_; rotate_left; clear_value y_; intro _; rotate_left; dsimp -iota only [y_]; clear y_)
    | exact rfl
    | with_reducible intro _
    | with_reducible refine .ite ?_ ?_
    | with_reducible refine (State.stepWrites_keeps _ _ _ _).trans ?_ ?_
    | with_reducible refine (Keeps.fst (State.stepWrites_keeps _ _ _ _) ‹_›).trans ?_ ?_
    | with_reducible refine (State.markDegraded_keeps _ _).trans ?_ ?_
    | with_reducible refine (State.takeCores_keeps _ _ _ _).trans ?_ ?_
    | with_reducible refine (State.modPart_keeps _ _ _).trans ?_ ?_
    | with_reducible refine (State.when_keeps _ _ ?_).trans (sub_self _) ?_
    | split
    | dsimp -iota only
    | with_reducible apply Keeps.upd rfl
    | exact Or.inl rfl
    | exact Or.inr rfl

theorem execStepRun_keeps (handle : BitVec 32) (step : Nat) (remote : List RemoteRead) (s : State) {z_ : State} (h_ : execStepRun handle step remote s = .next z_) : Keeps 0x4000e72000000000000000000000000000000000000000000000000000000000002300000000880000 s z_ := by
  unfold execStepRun at h_
  refine act_keeps h_ ?_
  repeat' first
    | with_reducible exact .refl _
    | with_reducible assumption
    | (extract_lets +onlyGivenNames y_; refine Keeps.cut (y := y_) ?_ ?_; rotate_left; clear_value y_; intro _; rotate_left; dsimp -iota only [y_]; clear y_)
    | exact rfl
    | with_reducible intro _
    | with_reducible refine .ite ?_ ?_
    | with_reducible refine (State.beginStep_keeps _ _ _ _ _ _ _ _ _).trans ?_ ?_
    | split
    | dsimp -iota only

theorem State.dropStepRun_keeps (s : State) (x : StepRun) : Keeps 0x220000000000000000000000000000000000000000000000000000000000000000000000000000 s (State.dropStepRun s x) := by
  unfold State.dropStepRun
  repeat' first
    | with_reducible exact .refl _
    | with_reducible assumption
    | exact rfl
    | with_reducible intro _
    | with_reducible refine .ite ?_ ?_
    | split
    | with_reducible apply Keeps.upd rfl
    | exact Or.inl rfl
    | exact Or.inr rfl

theorem State.reportStep_keeps (s : State) (x : StepRun) (node : Nat) (n : BqNode) (st extent : Nat) (r : RunCmd) : Keeps 0x808000000000000000000000000000000000000000000000000000000000000800040000000000 s (State.reportStep s x node n st extent r) := by
  unfold State.reportStep
  repeat' first
    | with_reducible exact .refl _
    | with_reducible assumption
    | exact rfl
    | with_reducible intro _
    | with_reducible refine .ite ?_ ?_
    | with_reducible refine (State.writeRecord_keeps _ _ _ _ _).trans ?_ ?_
    | with_reducible refine (State.addCounter_keeps _ _ _ _).trans ?_ ?_
    | with_reducible refine (State.bump_keeps _ _ _ _ ?_).trans (sub_self _) ?_
    | split

theorem State.endStep_keeps (s : State) (x : StepRun) (st extent : Nat) : Keeps 0xa28000000000000000000000000000000000000000000000000000000000000b00040000000000 s (State.endStep s x st extent) := by
  unfold State.endStep
  repeat' first
    | with_reducible exact .refl _
    | with_reducible assumption
    | (extract_lets +onlyGivenNames y_; refine Keeps.cut (y := y_) ?_ ?_; rotate_left; clear_value y_; intro _; rotate_left; dsimp -iota only [y_]; clear y_)
    | exact rfl
    | with_reducible intro _
    | with_reducible refine .ite ?_ ?_
    | with_reducible refine (State.reportStep_keeps _ _ _ _ _ _ _).trans ?_ ?_
    | with_reducible refine (State.dropStepRun_keeps _ _).trans ?_ ?_
    | with_reducible refine (State.freeCores_keeps _ _ _).trans ?_ ?_
    | split
    | dsimp -iota only

theorem execStepComplete_keeps (handle : BitVec 32) (step : Nat) (s : State) {z_ : State} (h_ : execStepComplete handle step s = .next z_) : Keeps 0xa28000000000000000000000000000000000000000000000000000000000000b00040000000000 s z_ := by
  unfold execStepComplete at h_
  refine act_keeps h_ ?_
  repeat' first
    | with_reducible exact .refl _
    | with_reducible assumption
    | exact rfl
    | with_reducible intro _
    | with_reducible refine .ite ?_ ?_
    | with_reducible refine (State.endStep_keeps _ _ _ _).trans ?_ ?_
    | split

theorem execOp_keeps (queue : Queue) (index : BitVec 32) (remote : List RemoteRead) (s : State) {z_ : State} (h_ : execOp queue index remote s = .next z_) : Keeps 0x20000000000000000000000000000000000000000000000000000000000000000000000000000 s z_ := by
  unfold execOp at h_
  refine act_keeps h_ ?_
  repeat' first
    | with_reducible exact .refl _
    | with_reducible assumption
    | (extract_lets +onlyGivenNames y_; refine Keeps.cut (y := y_) ?_ ?_; rotate_left; clear_value y_; intro _; rotate_left; dsimp -iota only [y_]; clear y_)
    | exact rfl
    | with_reducible intro _
    | with_reducible refine .ite ?_ ?_
    | with_reducible refine (State.endCmd_keeps _ _ _ _ _).trans ?_ ?_
    | with_reducible refine (State.modRun_keeps _ _ _ _).trans ?_ ?_
    | split
    | dsimp -iota only

theorem execOpStepStart_keeps (queue : Queue) (index : BitVec 32) (remote : List RemoteRead) (s : State) {z_ : State} (h_ : execOpStepStart queue index remote s = .next z_) : Keeps 0x4000e72000000000000000000000000000000000000000000000000000000000002300000000880000 s z_ := by
  unfold execOpStepStart at h_
  refine act_keeps h_ ?_
  repeat' first
    | with_reducible exact .refl _
    | with_reducible assumption
    | (extract_lets +onlyGivenNames y_; refine Keeps.cut (y := y_) ?_ ?_; rotate_left; clear_value y_; intro _; rotate_left; dsimp -iota only [y_]; clear y_)
    | exact rfl
    | with_reducible intro _
    | with_reducible refine .ite ?_ ?_
    | with_reducible refine (State.beginStep_keeps _ _ _ _ _ _ _ _ _).trans ?_ ?_
    | split
    | dsimp -iota only

theorem execOpNoFit_keeps (queue : Queue) (index : BitVec 32) (s : State) {z_ : State} (h_ : execOpNoFit queue index s = .next z_) : Keeps 0x20000000000000000000000000000000000000000000000000000000000000000000000000000 s z_ := by
  unfold execOpNoFit at h_
  refine act_keeps h_ ?_
  repeat' first
    | with_reducible exact .refl _
    | with_reducible assumption
    | exact rfl
    | with_reducible intro _
    | with_reducible refine .ite ?_ ?_
    | with_reducible refine (State.endCmd_keeps _ _ _ _ _).trans ?_ ?_
    | split

theorem State.endOp_keeps (s : State) (x : StepRun) (st extent : Nat) : Keeps 0x220000000000000000000000000000000000000000000000000000000000000300000000000000 s (State.endOp s x st extent) := by
  unfold State.endOp
  repeat' first
    | with_reducible exact .refl _
    | with_reducible assumption
    | (extract_lets +onlyGivenNames y_; refine Keeps.cut (y := y_) ?_ ?_; rotate_left; clear_value y_; intro _; rotate_left; dsimp -iota only [y_]; clear y_)
    | exact rfl
    | with_reducible intro _
    | with_reducible refine .ite ?_ ?_
    | with_reducible refine (State.dropStepRun_keeps _ _).trans ?_ ?_
    | with_reducible refine (State.freeCores_keeps _ _ _).trans ?_ ?_
    | with_reducible refine (State.modRun_keeps _ _ _ _).trans ?_ ?_
    | split
    | dsimp -iota only

theorem State.stopIn_keeps (s : State) (handle c : Nat) : Keeps 0x200000000000000000000000000000000000000000000000000000000000006400800000000000 s (State.stopIn s handle c) := by
  unfold State.stopIn
  repeat' first
    | with_reducible exact .refl _
    | with_reducible assumption
    | (extract_lets +onlyGivenNames y_; refine Keeps.cut (y := y_) ?_ ?_; rotate_left; clear_value y_; intro _; rotate_left; dsimp -iota only [y_]; clear y_)
    | exact rfl
    | with_reducible intro _
    | with_reducible refine .ite ?_ ?_
    | with_reducible refine (State.modPart_keeps _ _ _).trans ?_ ?_
    | with_reducible refine (State.showParts_keeps _).trans ?_ ?_
    | split
    | dsimp -iota only

theorem overrunFld_reg (o : Nat) : (overrunFld o).reg = .FT_OVERRUN := by
  unfold overrunFld
  repeat' first | rfl | split

theorem State.overrun_keeps (s : State) (wing : Nat) (x : StepRun) (n : BqNode) : Keeps 0x8000a28000000000000000000000000000000000000000000000000000000000006f00840000000100 s (State.overrun s wing x n) := by
  unfold State.overrun
  repeat' first
    | with_reducible exact .refl _
    | with_reducible assumption
    | (extract_lets +onlyGivenNames y_; refine Keeps.cut (y := y_) ?_ ?_; rotate_left; clear_value y_; intro _; rotate_left; dsimp -iota only [y_]; clear y_)
    | exact rfl
    | with_reducible intro _
    | with_reducible refine .ite ?_ ?_
    | with_reducible refine (State.stopIn_keeps _ _ _).trans ?_ ?_
    | with_reducible refine (State.endOp_keeps _ _ _ _).trans ?_ ?_
    | with_reducible refine (State.endStep_keeps _ _ _ _).trans ?_ ?_
    | with_reducible refine (State.fresh_keeps _).trans ?_ ?_
    | with_reducible refine (Keeps.snd (State.fresh_keeps _) ‹_›).trans ?_ ?_
    | with_reducible refine (State.bump_keeps _ _ _ _ ?_).trans (sub_self _) ?_
    | (rw [overrunFld_reg]; exact rfl)
    | split
    | dsimp -iota only

theorem State.overrunChunk_keeps (s : State) (wing : Nat) (n : CollNode) (c : CollChunk) (handle ctx : Nat) : Keeps 0x320000000000000000000000000000000000000000000000000000000000006400800000000100 s (State.overrunChunk s wing n c handle ctx) := by
  unfold State.overrunChunk
  repeat' first
    | with_reducible exact .refl _
    | with_reducible assumption
    | (extract_lets +onlyGivenNames y_; refine Keeps.cut (y := y_) ?_ ?_; rotate_left; clear_value y_; intro _; rotate_left; dsimp -iota only [y_]; clear y_)
    | exact rfl
    | with_reducible intro _
    | with_reducible refine .ite ?_ ?_
    | with_reducible refine (State.stopIn_keeps _ _ _).trans ?_ ?_
    | with_reducible refine (State.endAtChunk_keeps _ _ _ _ _).trans ?_ ?_
    | with_reducible refine (State.chunkUpd_keeps _ _ _ _ _).trans ?_ ?_
    | with_reducible refine (State.bump_keeps _ _ _ _ ?_).trans (sub_self _) ?_
    | with_reducible refine .foldl _ ?_ ?_
    | (rw [overrunFld_reg]; exact rfl)
    | split
    | dsimp -iota only

theorem execBudgetOverrun_keeps (wing : Wing) (s : State) {z_ : State} (h_ : execBudgetOverrun wing s = .next z_) : Keeps 0x8000b28000000000000000000000000000000000000000000000000000000000006f00840000000100 s z_ := by
  unfold execBudgetOverrun at h_
  refine act_keeps h_ ?_
  repeat' first
    | with_reducible exact .refl _
    | with_reducible assumption
    | (extract_lets +onlyGivenNames y_; refine Keeps.cut (y := y_) ?_ ?_; rotate_left; clear_value y_; intro _; rotate_left; dsimp -iota only [y_]; clear y_)
    | exact rfl
    | with_reducible intro _
    | with_reducible refine .ite ?_ ?_
    | with_reducible refine (State.overrunChunk_keeps _ _ _ _ _ _).trans ?_ ?_
    | with_reducible refine (State.overrun_keeps _ _ _ _).trans ?_ ?_
    | with_reducible refine .foldl _ ?_ ?_
    | split
    | dsimp -iota only

theorem State.stopColl_keeps (s : State) (n : CollNode) : Keeps 0x120000000000000000000000000000000000000000000000000000000000000000000000000000 s (State.stopColl s n) := by
  unfold State.stopColl
  repeat' first
    | with_reducible exact .refl _
    | with_reducible assumption
    | (extract_lets +onlyGivenNames y_; refine Keeps.cut (y := y_) ?_ ?_; rotate_left; clear_value y_; intro _; rotate_left; dsimp -iota only [y_]; clear y_)
    | exact rfl
    | with_reducible intro _
    | with_reducible refine .ite ?_ ?_
    | with_reducible refine (State.endAtChunk_keeps _ _ _ _ _).trans ?_ ?_
    | with_reducible refine (State.modNode_keeps _ _ _).trans ?_ ?_
    | with_reducible refine .foldl _ ?_ ?_
    | split
    | dsimp -iota only

theorem State.stopOps_keeps (s : State) (handle : Nat) : Keeps 0x220000000000000000000000000000000000000000000000000000000000000000000000000000 s (State.stopOps s handle) := by
  unfold State.stopOps
  repeat' first
    | with_reducible exact .refl _
    | with_reducible assumption
    | (extract_lets +onlyGivenNames y_; refine Keeps.cut (y := y_) ?_ ?_; rotate_left; clear_value y_; intro _; rotate_left; dsimp -iota only [y_]; clear y_)
    | exact rfl
    | with_reducible intro _
    | with_reducible refine .ite ?_ ?_
    | with_reducible refine (State.endCmd_keeps _ _ _ _ _).trans ?_ ?_
    | with_reducible refine .foldl _ ?_ ?_
    | split
    | dsimp -iota only
    | with_reducible apply Keeps.upd rfl
    | exact Or.inl rfl
    | exact Or.inr rfl

theorem execBqUnloadBoundary_keeps (handle : BitVec 32) (u : Wb) (s : State) {z_ : State} (h_ : execBqUnloadBoundary handle u s = .next z_) : Keeps 0x320000000000000000000000000000000000000000000000000000000000006400800000000000 s z_ := by
  unfold execBqUnloadBoundary at h_
  refine act_keeps h_ ?_
  repeat' first
    | with_reducible exact .refl _
    | with_reducible assumption
    | (extract_lets +onlyGivenNames y_; refine Keeps.cut (y := y_) ?_ ?_; rotate_left; clear_value y_; intro _; rotate_left; dsimp -iota only [y_]; clear y_)
    | exact rfl
    | with_reducible intro _
    | with_reducible refine .ite ?_ ?_
    | with_reducible refine (State.stopOps_keeps _ _).trans ?_ ?_
    | with_reducible refine (State.stopColl_keeps _ _).trans ?_ ?_
    | with_reducible refine (State.modPart_keeps _ _ _).trans ?_ ?_
    | with_reducible refine (State.showParts_keeps _).trans ?_ ?_
    | with_reducible refine .foldl _ ?_ ?_
    | split
    | dsimp -iota only

theorem execBqUnloadRelease_keeps (handle : BitVec 32) (s : State) {z_ : State} (h_ : execBqUnloadRelease handle s = .next z_) : Keeps 0xc03a200000000000000000000000000000000000000000000000000000000000006400800000000000 s z_ := by
  unfold execBqUnloadRelease at h_
  refine act_keeps h_ ?_
  repeat' first
    | with_reducible exact .refl _
    | with_reducible assumption
    | (extract_lets +onlyGivenNames y_; refine Keeps.cut (y := y_) ?_ ?_; rotate_left; clear_value y_; intro _; rotate_left; dsimp -iota only [y_]; clear y_)
    | exact rfl
    | with_reducible intro _
    | with_reducible refine .ite ?_ ?_
    | with_reducible refine (State.startLoads_keeps _).trans ?_ ?_
    | with_reducible refine (State.dropLoad_keeps _ _).trans ?_ ?_
    | with_reducible refine (State.showParts_keeps _).trans ?_ ?_
    | split
    | dsimp -iota only
    | with_reducible apply Keeps.upd rfl
    | exact Or.inl rfl
    | exact Or.inr rfl

theorem execTileReload_keeps (handle : BitVec 32) (node core : Nat) (remote : List RemoteRead) (s : State) {z_ : State} (h_ : execTileReload handle node core remote s = .next z_) : Keeps 0x200000000000000000000000000000000000000000000000000000000000000000000000000000 s z_ := by
  unfold execTileReload at h_
  refine act_keeps h_ ?_
  repeat' first
    | with_reducible exact .refl _
    | with_reducible assumption
    | (extract_lets +onlyGivenNames y_; refine Keeps.cut (y := y_) ?_ ?_; rotate_left; clear_value y_; intro _; rotate_left; dsimp -iota only [y_]; clear y_)
    | exact rfl
    | with_reducible intro _
    | with_reducible refine .ite ?_ ?_
    | with_reducible refine (State.readTile_keeps _ _ _ _ _ _).trans ?_ ?_
    | with_reducible refine (State.modPart_keeps _ _ _).trans ?_ ?_
    | split
    | dsimp -iota only

theorem State.coreFailed_keeps (s : State) (wing core : Nat) : Keeps 0xa28000000000000000000000000000000000000000000000000000000000000b00040000000000 s (State.coreFailed s wing core) := by
  unfold State.coreFailed
  repeat' first
    | with_reducible exact .refl _
    | with_reducible assumption
    | (extract_lets +onlyGivenNames y_; refine Keeps.cut (y := y_) ?_ ?_; rotate_left; clear_value y_; intro _; rotate_left; dsimp -iota only [y_]; clear y_)
    | exact rfl
    | with_reducible intro _
    | with_reducible refine .ite ?_ ?_
    | with_reducible refine (State.endOp_keeps _ _ _ _).trans ?_ ?_
    | with_reducible refine (State.endStep_keeps _ _ _ _).trans ?_ ?_
    | with_reducible refine .foldl _ ?_ ?_
    | split
    | dsimp -iota only
    | with_reducible apply Keeps.upd rfl
    | exact Or.inl rfl
    | exact Or.inr rfl

theorem State.coreLost_keeps (s : State) (wing core : Nat) : Keeps 0x200000000000000000000000000000000000000000000000000000000000002000000000000000 s (State.coreLost s wing core) := by
  unfold State.coreLost
  repeat' first
    | with_reducible exact .refl _
    | with_reducible assumption
    | exact rfl
    | with_reducible intro _
    | with_reducible refine .ite ?_ ?_
    | with_reducible refine (State.markDegraded_keeps _ _).trans ?_ ?_
    | with_reducible refine .foldl _ ?_ ?_
    | split

theorem State.resetSteps_keeps (s : State) (c : Nat) (b : Wb) : Keeps 0xa28000000000000000000000000000000000000000000000000000000000006f00840000000000 s (State.resetSteps s c b) := by
  unfold State.resetSteps
  repeat' first
    | with_reducible exact .refl _
    | with_reducible assumption
    | (extract_lets +onlyGivenNames y_; refine Keeps.cut (y := y_) ?_ ?_; rotate_left; clear_value y_; intro _; rotate_left; dsimp -iota only [y_]; clear y_)
    | exact rfl
    | with_reducible intro _
    | with_reducible refine .ite ?_ ?_
    | with_reducible refine (State.endOp_keeps _ _ _ _).trans ?_ ?_
    | with_reducible refine (State.endStep_keeps _ _ _ _).trans ?_ ?_
    | with_reducible refine (State.showParts_keeps _).trans ?_ ?_
    | with_reducible refine .foldl _ ?_ ?_
    | split
    | dsimp -iota only
    | with_reducible apply Keeps.upd rfl
    | exact Or.inl rfl
    | exact Or.inr rfl

theorem State.dropParts_keeps (s : State) : Keeps 0x220000000000000000000000000000000000000000000000000000000000006400800000000000 s (State.dropParts s) := by
  unfold State.dropParts
  repeat' first
    | with_reducible exact .refl _
    | with_reducible assumption
    | (extract_lets +onlyGivenNames y_; refine Keeps.cut (y := y_) ?_ ?_; rotate_left; clear_value y_; intro _; rotate_left; dsimp -iota only [y_]; clear y_)
    | exact rfl
    | with_reducible intro _
    | with_reducible refine .ite ?_ ?_
    | with_reducible refine (State.showParts_keeps _).trans ?_ ?_
    | split
    | dsimp -iota only
    | with_reducible apply Keeps.upd rfl
    | exact Or.inl rfl
    | exact Or.inr rfl

end Sys2Proof.Machine
end

