-- ==== Sys2Proof/Laws/KeepsDma.lean ====
section
/-! SUPPORT. Sys2Proof/Laws/KeepsDma.lean: what each operation of Machine/Dma.lean leaves alone. -/

namespace Sys2Proof.Machine

theorem State.modChain_keeps (s : State) (ch : Nat) (f : ChainL → ChainL) : Keeps 0x80000000000000000000000000000000000000000000000000000000000000000000000000000 s (State.modChain s ch f) := by
  unfold State.modChain
  repeat' first
    | with_reducible exact .refl _
    | with_reducible assumption
    | exact rfl
    | with_reducible intro _
    | with_reducible refine .ite ?_ ?_
    | split
    | with_reducible apply Keeps.upd rfl
    | exact Or.inl rfl
    | exact Or.inr rfl

theorem State.endRunL_keeps (s : State) (x : ChainL) (status : Nat) : Keeps 0x20000000000000000000000000000000000000000000000000000000000000000000000000000 s (State.endRunL s x status) := by
  unfold State.endRunL
  repeat' first
    | with_reducible exact .refl _
    | with_reducible assumption
    | exact rfl
    | with_reducible intro _
    | with_reducible refine .ite ?_ ?_
    | with_reducible refine (State.modRun_keeps _ _ _ _).trans ?_ ?_
    | split

theorem State.askRow_keeps (s : State) (ch : Nat) : Keeps 0x4000492000000000000000000000000000000000000000000000000000000000000000000000880000 s (State.askRow s ch) := by
  unfold State.askRow
  repeat' first
    | with_reducible exact .refl _
    | with_reducible assumption
    | (extract_lets +onlyGivenNames y_; refine Keeps.cut (y := y_) ?_ ?_; rotate_left; clear_value y_; intro _; rotate_left; dsimp -iota only [y_]; clear y_)
    | exact rfl
    | with_reducible intro _
    | with_reducible refine .ite ?_ ?_
    | with_reducible refine (State.modChain_keeps _ _ _).trans ?_ ?_
    | with_reducible refine (State.sendReads_keeps _ _ _ _ _ _ _ _ _).trans ?_ ?_
    | split
    | dsimp -iota only

theorem State.beginL_keeps (s : State) (ch : Nat) : Keeps 0x80000000000000000000000000000000000000000000000000000000001000000000000000000 s (State.beginL s ch) := by
  unfold State.beginL
  repeat' first
    | with_reducible exact .refl _
    | with_reducible assumption
    | (extract_lets +onlyGivenNames y_; refine Keeps.cut (y := y_) ?_ ?_; rotate_left; clear_value y_; intro _; rotate_left; dsimp -iota only [y_]; clear y_)
    | exact rfl
    | with_reducible intro _
    | with_reducible refine .ite ?_ ?_
    | with_reducible refine (State.setFld_keeps _ _ _ _ ?_).trans (sub_self _) ?_
    | split
    | dsimp -iota only
    | with_reducible apply Keeps.upd rfl
    | exact Or.inl rfl
    | exact Or.inr rfl

theorem State.leaveL_keeps (s : State) (x : ChainL) (status : Nat) : Keeps 0xa0000000000000000000000000000000000000000000000000000000003000000000000000000 s (State.leaveL s x status) := by
  unfold State.leaveL
  repeat' first
    | with_reducible exact .refl _
    | with_reducible assumption
    | (extract_lets +onlyGivenNames y_; refine Keeps.cut (y := y_) ?_ ?_; rotate_left; clear_value y_; intro _; rotate_left; dsimp -iota only [y_]; clear y_)
    | exact rfl
    | with_reducible intro _
    | with_reducible refine .ite ?_ ?_
    | with_reducible refine (State.beginL_keeps _ _).trans ?_ ?_
    | with_reducible refine (State.endRunL_keeps _ _ _).trans ?_ ?_
    | with_reducible refine (State.setFld_keeps _ _ _ _ ?_).trans (sub_self _) ?_
    | with_reducible refine (State.bump_keeps _ _ _ _ ?_).trans (sub_self _) ?_
    | split
    | dsimp -iota only
    | with_reducible apply Keeps.upd rfl
    | exact Or.inl rfl
    | exact Or.inr rfl

theorem State.stepL_keeps (s : State) (ch : Nat) (remote : List RemoteRead) : Keeps 0x40004b2000000000000000000000000000000000000000000000000000000003000000000000880000 s (State.stepL s ch remote) := by
  unfold State.stepL
  repeat' first
    | with_reducible exact .refl _
    | with_reducible assumption
    | (extract_lets +onlyGivenNames y_; refine Keeps.cut (y := y_) ?_ ?_; rotate_left; clear_value y_; intro _; rotate_left; dsimp -iota only [y_]; clear y_)
    | exact rfl
    | with_reducible intro _
    | with_reducible refine .ite ?_ ?_
    | with_reducible refine (State.leaveL_keeps _ _ _).trans ?_ ?_
    | with_reducible refine (State.askRow_keeps _ _).trans ?_ ?_
    | with_reducible refine (State.modChain_keeps _ _ _).trans ?_ ?_
    | split
    | dsimp -iota only

theorem State.goOnL_keeps (s : State) (ch : Nat) (remote : List RemoteRead) : Keeps 0x40004b2000000000000000000000000000000000000000000000000000000003000000000000880000 s (State.goOnL s ch remote) := by
  unfold State.goOnL
  repeat' first
    | with_reducible exact .refl _
    | with_reducible assumption
    | exact rfl
    | with_reducible intro _
    | with_reducible refine .ite ?_ ?_
    | with_reducible refine (State.stepL_keeps _ _ _).trans ?_ ?_
    | with_reducible refine (State.beginL_keeps _ _).trans ?_ ?_
    | split

theorem execDma_keeps (queue : Queue) (index : BitVec 32) (remote : List RemoteRead) (s : State) {z_ : State} (h_ : execDma queue index remote s = .next z_) : Keeps 0x40004b2000000000000000000000000000000000000000000000000000000003000000000000880000 s z_ := by
  unfold execDma at h_
  refine act_keeps h_ ?_
  repeat' first
    | with_reducible exact .refl _
    | with_reducible assumption
    | (extract_lets +onlyGivenNames y_; refine Keeps.cut (y := y_) ?_ ?_; rotate_left; clear_value y_; intro _; rotate_left; dsimp -iota only [y_]; clear y_)
    | exact rfl
    | with_reducible intro _
    | with_reducible refine .ite ?_ ?_
    | with_reducible refine (State.goOnL_keeps _ _ _).trans ?_ ?_
    | with_reducible refine (State.modRun_keeps _ _ _ _).trans ?_ ?_
    | split
    | dsimp -iota only
    | with_reducible apply Keeps.upd rfl
    | exact Or.inl rfl
    | exact Or.inr rfl

theorem execAtlBufferGrant_keeps (wing : Wing) (chan : Fin 256) (remote : List RemoteRead) (s : State) {z_ : State} (h_ : execAtlBufferGrant wing chan remote s = .next z_) : Keeps 0x40004b2000000000000000000000000000000000000000000000000000000003000000000000880000 s z_ := by
  unfold execAtlBufferGrant at h_
  refine act_keeps h_ ?_
  repeat' first
    | with_reducible exact .refl _
    | with_reducible assumption
    | (extract_lets +onlyGivenNames y_; refine Keeps.cut (y := y_) ?_ ?_; rotate_left; clear_value y_; intro _; rotate_left; dsimp -iota only [y_]; clear y_)
    | exact rfl
    | with_reducible intro _
    | with_reducible refine .ite ?_ ?_
    | with_reducible refine (State.stepL_keeps _ _ _).trans ?_ ?_
    | with_reducible refine (State.setFld_keeps _ _ _ _ ?_).trans (sub_self _) ?_
    | split
    | dsimp -iota only
    | with_reducible apply Keeps.upd rfl
    | exact Or.inl rfl
    | exact Or.inr rfl

theorem State.writeRow_keeps (s : State) (x : ChainL) (r : RunCmd) (dst : Nat) (bs : List Byte) (off fuel : Nat) :
    Keeps 0x4000492000000000000000000000000000000000000000000000000000000000000000000000880000 s (s.writeRow x r dst bs off fuel) := by
  induction fuel generalizing s off with
  | zero => exact .refl _
  | succ n_ ih =>
    unfold State.writeRow
    refine .ite (fun _ => .refl _) (fun _ => ?_)
    refine (ih _ _).trans (sub_self _) ((State.writeReq_keeps _ _ _ _ _ _ _).trans rfl ?_)
    apply Keeps.upd rfl (.refl s) <;> first | exact rfl | exact .inr rfl | exact .inl rfl

theorem State.driveL_keeps (s : State) (ch : Nat) : Keeps 0x4000492000000000000000000000000000000000000000000000000000000000000000000000880000 s (State.driveL s ch) := by
  unfold State.driveL
  repeat' first
    | with_reducible exact .refl _
    | with_reducible assumption
    | (extract_lets +onlyGivenNames y_; refine Keeps.cut (y := y_) ?_ ?_; rotate_left; clear_value y_; intro _; rotate_left; dsimp -iota only [y_]; clear y_)
    | exact rfl
    | with_reducible intro _
    | with_reducible refine .ite ?_ ?_
    | with_reducible refine (State.writeRow_keeps _ _ _ _ _ _ _).trans ?_ ?_
    | with_reducible refine (State.askRow_keeps _ _).trans ?_ ?_
    | with_reducible refine (State.modChain_keeps _ _ _).trans ?_ ?_
    | split
    | dsimp -iota only

theorem execDescriptorFinish_keeps (wing : Wing) (chan : Fin 256) (remote : List RemoteRead) (s : State) {z_ : State} (h_ : execDescriptorFinish wing chan remote s = .next z_) : Keeps 0x4000cba000000000000000000000000000000000000000000000000000000003000000000000880000 s z_ := by
  unfold execDescriptorFinish at h_
  refine act_keeps h_ ?_
  repeat' first
    | with_reducible exact .refl _
    | with_reducible assumption
    | (extract_lets +onlyGivenNames y_; refine Keeps.cut (y := y_) ?_ ?_; rotate_left; clear_value y_; intro _; rotate_left; dsimp -iota only [y_]; clear y_)
    | exact rfl
    | with_reducible intro _
    | with_reducible refine .ite ?_ ?_
    | with_reducible refine (State.driveL_keeps _ _).trans ?_ ?_
    | with_reducible refine (State.goOnL_keeps _ _ _).trans ?_ ?_
    | with_reducible refine (State.leaveL_keeps _ _ _).trans ?_ ?_
    | with_reducible refine (State.modChain_keeps _ _ _).trans ?_ ?_
    | with_reducible refine (State.addCounter_keeps _ _ _ _).trans ?_ ?_
    | with_reducible refine (State.progress_keeps _ _ _ _).trans ?_ ?_
    | with_reducible refine (State.setFld_keeps _ _ _ _ ?_).trans (sub_self _) ?_
    | with_reducible refine (State.bump_keeps _ _ _ _ ?_).trans (sub_self _) ?_
    | split
    | dsimp -iota only

theorem execDescriptorRefused_keeps (wing : Wing) (chan : Fin 256) (remote : List RemoteRead) (s : State) {z_ : State} (h_ : execDescriptorRefused wing chan remote s = .next z_) : Keeps 0x40004b2000000000000000000000000000000000000000000000000000000003000000000000880000 s z_ := by
  unfold execDescriptorRefused at h_
  refine act_keeps h_ ?_
  repeat' first
    | with_reducible exact .refl _
    | with_reducible assumption
    | (extract_lets +onlyGivenNames y_; refine Keeps.cut (y := y_) ?_ ?_; rotate_left; clear_value y_; intro _; rotate_left; dsimp -iota only [y_]; clear y_)
    | exact rfl
    | with_reducible intro _
    | with_reducible refine .ite ?_ ?_
    | with_reducible refine (State.goOnL_keeps _ _ _).trans ?_ ?_
    | with_reducible refine (State.leaveL_keeps _ _ _).trans ?_ ?_
    | with_reducible refine (State.bump_keeps _ _ _ _ ?_).trans (sub_self _) ?_
    | split
    | dsimp -iota only

theorem State.stopChan_keeps (s : State) (ch : Nat) : Keeps 0xa0000000000000000000000000000000000000000000000000000000003000000000000000000 s (State.stopChan s ch) := by
  unfold State.stopChan
  repeat' first
    | with_reducible exact .refl _
    | with_reducible assumption
    | exact rfl
    | with_reducible intro _
    | with_reducible refine .ite ?_ ?_
    | with_reducible refine (State.leaveL_keeps _ _ _).trans ?_ ?_
    | with_reducible refine (State.modChain_keeps _ _ _).trans ?_ ?_
    | with_reducible refine (State.setFld_keeps _ _ _ _ ?_).trans (sub_self _) ?_
    | split

theorem State.stopChains_keeps (s : State) (c : Nat) : Keeps 0xa0000000000000000000000000000000000000000000000000000000003000000000000000000 s (State.stopChains s c) := by
  unfold State.stopChains
  repeat' first
    | with_reducible exact .refl _
    | with_reducible assumption
    | (extract_lets +onlyGivenNames y_; refine Keeps.cut (y := y_) ?_ ?_; rotate_left; clear_value y_; intro _; rotate_left; dsimp -iota only [y_]; clear y_)
    | exact rfl
    | with_reducible intro _
    | with_reducible refine .ite ?_ ?_
    | with_reducible refine (State.stopChan_keeps _ _).trans ?_ ?_
    | with_reducible refine (State.endRunL_keeps _ _ _).trans ?_ ?_
    | with_reducible refine (State.bump_keeps _ _ _ _ ?_).trans (sub_self _) ?_
    | with_reducible refine .foldl _ ?_ ?_
    | split
    | dsimp -iota only
    | with_reducible apply Keeps.upd rfl
    | exact Or.inl rfl
    | exact Or.inr rfl

theorem execAtlStop_keeps (owner : Owner) (wing : Wing) (chan : Fin 256) (s : State) {z_ : State} (h_ : execAtlStop owner wing chan s = .next z_) : Keeps 0x40000a0000000000000000000000000000000000000000000000000000000003800000000000000000 s z_ := by
  unfold execAtlStop at h_
  refine accessBy_keeps h_ rfl ?_
  repeat' first
    | with_reducible exact .refl _
    | with_reducible assumption
    | exact rfl
    | with_reducible intro _
    | with_reducible refine .ite ?_ ?_
    | with_reducible refine (State.stopChan_keeps _ _).trans ?_ ?_
    | with_reducible refine (State.setFld_keeps _ _ _ _ ?_).trans (sub_self _) ?_
    | split

theorem State.cutChains_keeps (s : State) (c : Nat) : Keeps 0xa0000000000000000000000000000000000000000000000000000000001000000000000000000 s (State.cutChains s c) := by
  unfold State.cutChains
  repeat' first
    | with_reducible exact .refl _
    | with_reducible assumption
    | (extract_lets +onlyGivenNames y_; refine Keeps.cut (y := y_) ?_ ?_; rotate_left; clear_value y_; intro _; rotate_left; dsimp -iota only [y_]; clear y_)
    | exact rfl
    | with_reducible intro _
    | with_reducible refine .ite ?_ ?_
    | with_reducible refine (State.modRun_keeps _ _ _ _).trans ?_ ?_
    | with_reducible refine (State.setFld_keeps _ _ _ _ ?_).trans (sub_self _) ?_
    | with_reducible refine .foldl _ ?_ ?_
    | split
    | dsimp -iota only
    | with_reducible apply Keeps.upd rfl
    | exact Or.inl rfl
    | exact Or.inr rfl

theorem State.failAt_keeps (s : State) (r : PendingRead) : Keeps 0x8000000000000000000000000000000000000000000000000000000000000000000000000000000000 s (State.failAt s r).2 := by
  unfold State.failAt
  repeat' first
    | with_reducible exact .refl _
    | with_reducible assumption
    | (extract_lets +onlyGivenNames y_; refine Keeps.cut (y := y_) ?_ ?_; rotate_left; clear_value y_; intro _; rotate_left; dsimp -iota only [y_]; clear y_)
    | exact rfl
    | with_reducible intro _
    | with_reducible refine .ite ?_ ?_
    | with_reducible refine .ite2 ?_ ?_
    | with_reducible refine (State.fresh_keeps _).trans ?_ ?_
    | with_reducible refine (Keeps.snd (State.fresh_keeps _) ‹_›).trans ?_ ?_
    | split
    | dsimp -iota only

theorem State.readDone_keeps (s : State) (r : PendingRead) (status : Nat) (data : List Byte) : Keeps 0xc0004b2000000000000000000000000000000000000000000000000000000000000000000000880000 s (State.readDone s r status data) := by
  unfold State.readDone
  repeat' first
    | with_reducible exact .refl _
    | with_reducible assumption
    | (extract_lets +onlyGivenNames y_; refine Keeps.cut (y := y_) ?_ ?_; rotate_left; clear_value y_; intro _; rotate_left; dsimp -iota only [y_]; clear y_)
    | exact rfl
    | with_reducible intro _
    | with_reducible refine .ite ?_ ?_
    | with_reducible refine (State.failAt_keeps _ _).trans ?_ ?_
    | with_reducible refine (Keeps.snd (State.failAt_keeps _ _) ‹_›).trans ?_ ?_
    | with_reducible refine (State.driveL_keeps _ _).trans ?_ ?_
    | with_reducible refine (State.modChain_keeps _ _ _).trans ?_ ?_
    | with_reducible refine (State.writeReq_keeps _ _ _ _ _ _ _).trans ?_ ?_
    | with_reducible refine (State.cmdFail_keeps _ _ _ _ _).trans ?_ ?_
    | split
    | dsimp -iota only

theorem execReadRespReceive_keeps (unit : Fin 256) (p : Packet) (s : State) {z_ : State} (h_ : execReadRespReceive unit p s = .next z_) : Keeps 0xc0004b2000000000000000000000000000000000000000000000000000000001000000000000880000 s z_ := by
  unfold execReadRespReceive at h_
  refine act_keeps h_ ?_
  repeat' first
    | with_reducible exact .refl _
    | with_reducible assumption
    | (extract_lets +onlyGivenNames y_; refine Keeps.cut (y := y_) ?_ ?_; rotate_left; clear_value y_; intro _; rotate_left; dsimp -iota only [y_]; clear y_)
    | exact rfl
    | with_reducible intro _
    | with_reducible refine .ite ?_ ?_
    | with_reducible refine (State.readDone_keeps _ _ _ _).trans ?_ ?_
    | with_reducible refine (State.tagFail_keeps _ _ _).trans ?_ ?_
    | split
    | dsimp -iota only
    | with_reducible apply Keeps.upd rfl
    | exact Or.inl rfl
    | exact Or.inr rfl

end Sys2Proof.Machine
end

