-- ==== Sys2Proof/Laws/KeepsCtxReset.lean ====
section
/-! SUPPORT. Sys2Proof/Laws/KeepsCtxReset.lean: what each operation of Machine/CtxReset.lean leaves alone. -/

namespace Sys2Proof.Machine

theorem State.foCause_keeps (s : State) (cause : Nat) : Keeps 0x22d0000000000000000000000000000000000000000000000a28020010000000000000001082000002 s (State.foCause s cause) := by
  unfold State.foCause
  repeat' first
    | with_reducible exact .refl _
    | with_reducible assumption
    | (extract_lets +onlyGivenNames y_; refine Keeps.cut (y := y_) ?_ ?_; rotate_left; clear_value y_; intro _; rotate_left; dsimp -iota only [y_]; clear y_)
    | exact rfl
    | with_reducible intro _
    | with_reducible refine .ite ?_ ?_
    | with_reducible refine (State.fence_keeps _).trans ?_ ?_
    | with_reducible refine (State.sillage_keeps _ _ _ _ _).trans ?_ ?_
    | with_reducible refine (State.setFld_keeps _ _ _ _ ?_).trans (sub_self _) ?_
    | split
    | dsimp -iota only
    | with_reducible apply Keeps.upd rfl
    | exact Or.inl rfl
    | exact Or.inr rfl

theorem State.dropNet_keeps (s : State) (c : Nat) : Keeps 0x454000000000000000000000000000000000000000000000000000000000000000000000000000 s (State.dropNet s c) := by
  unfold State.dropNet
  apply Keeps.upd rfl (.refl s) rfl
  case h3 =>
    exact .inl ⟨rfl, Store.wf_mapFilter EpSt.init (fun q => { q with
      reads := q.reads.filter fun x => x.ctx != c
      streams := q.streams.filter fun x => x.ctx != c
      grants := q.grants.filter fun x => x.ctx != c }) s.eps⟩
  all_goals first
    | exact .inl rfl
    | exact .inr rfl

theorem State.dropColl_keeps (s : State) (c : Nat) (till : Wb) : Keeps 0x928000000000000000000000000000000000000000000000000000000000000000c40000000000 s (State.dropColl s c till) := by
  unfold State.dropColl
  repeat' first
    | with_reducible exact .refl _
    | with_reducible assumption
    | (extract_lets +onlyGivenNames y_; refine Keeps.cut (y := y_) ?_ ?_; rotate_left; clear_value y_; intro _; rotate_left; dsimp -iota only [y_]; clear y_)
    | exact rfl
    | with_reducible intro _
    | with_reducible refine .ite ?_ ?_
    | with_reducible refine (State.dropNode_keeps _ _ _).trans ?_ ?_
    | with_reducible refine (State.complete_keeps _ _ _).trans ?_ ?_
    | with_reducible refine .foldl _ ?_ ?_
    | split
    | dsimp -iota only
    | with_reducible apply Keeps.upd rfl
    | exact Or.inl rfl
    | exact Or.inr rfl

theorem State.endRuns_keeps (s : State) (c : Nat) (writes : Bool) : Keeps 0x828000000000000000000000000000000000000000000000000000000000000000440000000000 s (State.endRuns s c writes) := by
  unfold State.endRuns
  repeat' first
    | with_reducible exact .refl _
    | with_reducible assumption
    | (extract_lets +onlyGivenNames y_; refine Keeps.cut (y := y_) ?_ ?_; rotate_left; clear_value y_; intro _; rotate_left; dsimp -iota only [y_]; clear y_)
    | exact rfl
    | with_reducible intro _
    | with_reducible refine .ite ?_ ?_
    | with_reducible refine (State.complete_keeps _ _ _).trans ?_ ?_
    | with_reducible refine .foldl _ ?_ ?_
    | split
    | dsimp -iota only
    | with_reducible apply Keeps.upd rfl
    | exact Or.inl rfl
    | exact Or.inr rfl

theorem State.stopQueues_keeps (s : State) (c : Nat) : Keeps 0x20000000000000000000000000000000000000000000000000000000000000000004000000000 s (State.stopQueues s c) := by
  unfold State.stopQueues
  repeat' first
    | with_reducible exact .refl _
    | with_reducible assumption
    | (extract_lets +onlyGivenNames y_; refine Keeps.cut (y := y_) ?_ ?_; rotate_left; clear_value y_; intro _; rotate_left; dsimp -iota only [y_]; clear y_)
    | exact rfl
    | with_reducible intro _
    | with_reducible refine .ite ?_ ?_
    | with_reducible refine (State.setFld_keeps _ _ _ _ ?_).trans (sub_self _) ?_
    | with_reducible refine .foldl _ ?_ ?_
    | split
    | dsimp -iota only
    | with_reducible apply Keeps.upd rfl
    | exact Or.inl rfl
    | exact Or.inr rfl

theorem State.sendNotices_keeps (s : State) (c : Nat) (b : Wb) : Keeps 0x4000004000000000000000000000000000000000000000000000000000000000000000000000000000 s (State.sendNotices s c b) := by
  unfold State.sendNotices
  repeat' first
    | with_reducible exact .refl _
    | with_reducible assumption
    | (extract_lets +onlyGivenNames y_; refine Keeps.cut (y := y_) ?_ ?_; rotate_left; clear_value y_; intro _; rotate_left; dsimp -iota only [y_]; clear y_)
    | exact rfl
    | with_reducible intro _
    | with_reducible refine .ite ?_ ?_
    | with_reducible refine (State.modEp_keeps _ _ _).trans ?_ ?_
    | with_reducible refine (State.emit_keeps _ _).trans ?_ ?_
    | with_reducible refine .foldl _ ?_ ?_
    | split
    | dsimp -iota only

theorem State.destroyAt_keeps (s : State) (c : Nat) : Keeps 0x3006800000000000000000000000000000000000000000000000000000000120000027c000000000 s (State.destroyAt s c) := by
  unfold State.destroyAt
  repeat' first
    | with_reducible exact .refl _
    | with_reducible assumption
    | (extract_lets +onlyGivenNames y_; refine Keeps.cut (y := y_) ?_ ?_; rotate_left; clear_value y_; intro _; rotate_left; dsimp -iota only [y_]; clear y_)
    | exact rfl
    | with_reducible intro _
    | with_reducible refine .ite ?_ ?_
    | with_reducible refine (State.dropQueue_keeps _ _).trans ?_ ?_
    | with_reducible refine (State.releaseFrame_keeps _ _).trans ?_ ?_
    | with_reducible refine (State.showPool_keeps _).trans ?_ ?_
    | with_reducible refine (State.modCtx_keeps _ _ _).trans ?_ ?_
    | with_reducible refine (State.finishFw_keeps _ _ _ _ _).trans ?_ ?_
    | with_reducible refine (State.setFld_keeps _ _ _ _ ?_).trans (sub_self _) ?_
    | with_reducible refine (State.setReg_keeps _ _ _ _ ?_).trans (sub_self _) ?_
    | with_reducible refine .foldl _ ?_ ?_
    | split
    | dsimp -iota only
    | with_reducible apply Keeps.upd rfl
    | exact Or.inl rfl
    | exact Or.inr rfl

theorem State.ctxTurn_keeps (s : State) (c : Nat) (b : Wb) : Keeps 0x403006c00000000000000000000000000000000000000000000000000000000120000027c000000000 s (State.ctxTurn s c b) := by
  unfold State.ctxTurn
  repeat' first
    | with_reducible exact .refl _
    | with_reducible assumption
    | (extract_lets +onlyGivenNames y_; refine Keeps.cut (y := y_) ?_ ?_; rotate_left; clear_value y_; intro _; rotate_left; dsimp -iota only [y_]; clear y_)
    | exact rfl
    | with_reducible intro _
    | with_reducible refine .ite ?_ ?_
    | with_reducible refine (State.destroyAt_keeps _ _).trans ?_ ?_
    | with_reducible refine (State.sendNotices_keeps _ _ _).trans ?_ ?_
    | with_reducible refine (State.modCtx_keeps _ _ _).trans ?_ ?_
    | with_reducible refine (State.setFld_keeps _ _ _ _ ?_).trans (sub_self _) ?_
    | split
    | dsimp -iota only

theorem State.resetCtx_keeps (s : State) (c : Nat) (b : Wb) : Keeps 0x4030ffc000000000000000000000000000000000000000000000000000000001206f00e7c000000000 s (State.resetCtx s c b) := by
  unfold State.resetCtx
  repeat' first
    | with_reducible exact .refl _
    | with_reducible assumption
    | (extract_lets +onlyGivenNames y_; refine Keeps.cut (y := y_) ?_ ?_; rotate_left; clear_value y_; intro _; rotate_left; dsimp -iota only [y_]; clear y_)
    | exact rfl
    | with_reducible intro _
    | with_reducible refine .ite ?_ ?_
    | with_reducible refine (State.ctxTurn_keeps _ _ _).trans ?_ ?_
    | with_reducible refine (State.stopQueues_keeps _ _).trans ?_ ?_
    | with_reducible refine (State.endRuns_keeps _ _ _).trans ?_ ?_
    | with_reducible refine (State.dropColl_keeps _ _ _).trans ?_ ?_
    | with_reducible refine (State.dropNet_keeps _ _).trans ?_ ?_
    | with_reducible refine (State.cutChains_keeps _ _).trans ?_ ?_
    | with_reducible refine (State.resetSteps_keeps _ _ _).trans ?_ ?_
    | split
    | dsimp -iota only

theorem State.countReset_keeps (s : State) (c : Nat) : Keeps 0x22d0008000000000000000000000000000000000000000000a28020010000000000000001082000002 s (State.countReset s c) := by
  unfold State.countReset
  repeat' first
    | with_reducible exact .refl _
    | with_reducible assumption
    | (extract_lets +onlyGivenNames y_; refine Keeps.cut (y := y_) ?_ ?_; rotate_left; clear_value y_; intro _; rotate_left; dsimp -iota only [y_]; clear y_)
    | exact rfl
    | with_reducible intro _
    | with_reducible refine .ite ?_ ?_
    | with_reducible refine (State.foCause_keeps _ _).trans ?_ ?_
    | with_reducible refine (State.modCtx_keeps _ _ _).trans ?_ ?_
    | split
    | dsimp -iota only
    | with_reducible apply Keeps.upd rfl
    | exact Or.inl rfl
    | exact Or.inr rfl

theorem execContextResetBoundary_keeps (ctx : Ctx) (s : State) {z_ : State} (h_ : execContextResetBoundary ctx s = .next z_) : Keeps 0x62f0ffc000000000000000000000000000000000000000000a28020010000001206f00e7d082000002 s z_ := by
  unfold execContextResetBoundary at h_
  refine act_keeps h_ ?_
  repeat' first
    | with_reducible exact .refl _
    | with_reducible assumption
    | (extract_lets +onlyGivenNames y_; refine Keeps.cut (y := y_) ?_ ?_; rotate_left; clear_value y_; intro _; rotate_left; dsimp -iota only [y_]; clear y_)
    | exact rfl
    | with_reducible intro _
    | with_reducible refine .ite ?_ ?_
    | with_reducible refine (State.countReset_keeps _ _).trans ?_ ?_
    | with_reducible refine (State.resetCtx_keeps _ _ _).trans ?_ ?_
    | split
    | dsimp -iota only

theorem State.freeHeld_keeps (s : State) : Keeps 0x100000000000000000000000000000000000000000000000000000000000000000800000000000 s (State.freeHeld s) := by
  unfold State.freeHeld
  repeat' first
    | with_reducible exact .refl _
    | with_reducible assumption
    | exact rfl
    | with_reducible intro _
    | with_reducible refine .ite ?_ ?_
    | with_reducible refine (State.showSlots_keeps _).trans ?_ ?_
    | split
    | with_reducible apply Keeps.upd rfl
    | exact Or.inl rfl
    | exact Or.inr rfl

theorem State.releaseCtx_keeps (s : State) (c : Nat) : Keeps 0x2040108000000000000000000000000000000000000000000a28000000000000000000a00000000000 s (State.releaseCtx s c) := by
  unfold State.releaseCtx
  repeat' first
    | with_reducible exact .refl _
    | with_reducible assumption
    | (extract_lets +onlyGivenNames y_; refine Keeps.cut (y := y_) ?_ ?_; rotate_left; clear_value y_; intro _; rotate_left; dsimp -iota only [y_]; clear y_)
    | exact rfl
    | with_reducible intro _
    | with_reducible refine .ite ?_ ?_
    | with_reducible refine (State.freeHeld_keeps _).trans ?_ ?_
    | with_reducible refine (State.modCtx_keeps _ _ _).trans ?_ ?_
    | with_reducible refine (State.setCtx_keeps _ _ _).trans ?_ ?_
    | with_reducible refine (State.silRec_keeps _ _ _ _ _ _ _ _).trans ?_ ?_
    | with_reducible refine (State.setFld_keeps _ _ _ _ ?_).trans (sub_self _) ?_
    | with_reducible refine (State.setReg_keeps _ _ _ _ ?_).trans (sub_self _) ?_
    | split
    | dsimp -iota only

theorem execContextResetRelease_keeps (ctx : Ctx) (s : State) {z_ : State} (h_ : execContextResetRelease ctx s = .next z_) : Keeps 0x67fffff000000000000000000000000000000000000000007fffffffffffffffffffffffffffffffff s z_ := by
  unfold execContextResetRelease at h_
  refine act_keeps h_ ?_
  repeat' first
    | with_reducible exact .refl _
    | with_reducible assumption
    | exact rfl
    | with_reducible intro _
    | with_reducible refine .ite ?_ ?_
    | with_reducible refine (State.releaseCtx_keeps _ _).trans ?_ ?_
    | with_reducible refine (State.tryLow_keeps _).trans ?_ ?_
    | exact all_bit rfl _
    | split

theorem State.computeUnits_keeps (s : State) (b : Wb) : Keeps 0x3a0000000000000000000000000000000000000000000100000000000011006518880000000000 s (State.computeUnits s b) := by
  unfold State.computeUnits
  repeat' first
    | with_reducible exact .refl _
    | with_reducible assumption
    | (extract_lets +onlyGivenNames y_; refine Keeps.cut (y := y_) ?_ ?_; rotate_left; clear_value y_; intro _; rotate_left; dsimp -iota only [y_]; clear y_)
    | exact rfl
    | with_reducible intro _
    | with_reducible refine .ite ?_ ?_
    | with_reducible refine (State.dropParts_keeps _).trans ?_ ?_
    | with_reducible refine (State.dropNode_keeps _ _ _).trans ?_ ?_
    | with_reducible refine (State.showSlots_keeps _).trans ?_ ?_
    | with_reducible refine (State.setReg_keeps _ _ _ _ ?_).trans (sub_self _) ?_
    | with_reducible refine (State.resetRegs_keeps _ _ ?_).trans (sub_self _) ?_
    | with_reducible refine .foldl _ ?_ ?_
    | exact (by intro r h; revert h; cases r <;> decide : ∀ r, computeReset r = true → Nat.testBit 0x3a0000000000000000000000000000000000000000000100000000000011006518880000000000 r.code = true) _ ‹_›
    | split
    | dsimp -iota only
    | with_reducible apply Keeps.upd rfl
    | exact Or.inl rfl
    | exact Or.inr rfl

theorem State.computeCtx_keeps (s : State) (b : Wb) (c : Nat) : Keeps 0x4030c7c00000000000000000000000000000000000000000000000000000000120000067c000000000 s (State.computeCtx s b c) := by
  unfold State.computeCtx
  repeat' first
    | with_reducible exact .refl _
    | with_reducible assumption
    | (extract_lets +onlyGivenNames y_; refine Keeps.cut (y := y_) ?_ ?_; rotate_left; clear_value y_; intro _; rotate_left; dsimp -iota only [y_]; clear y_)
    | exact rfl
    | with_reducible intro _
    | with_reducible refine .ite ?_ ?_
    | with_reducible refine (State.ctxTurn_keeps _ _ _).trans ?_ ?_
    | with_reducible refine (State.stopQueues_keeps _ _).trans ?_ ?_
    | with_reducible refine (State.endRuns_keeps _ _ _).trans ?_ ?_
    | with_reducible refine (State.dropNet_keeps _ _).trans ?_ ?_
    | with_reducible refine (State.setFld_keeps _ _ _ _ ?_).trans (sub_self _) ?_
    | split
    | dsimp -iota only

theorem State.resetAll_keeps (s : State) (b : Wb) : Keeps 0x4030ffc000000000000000000000000000000000000000000100000000000011206518efc000000000 s (State.resetAll s b) := by
  unfold State.resetAll
  repeat' first
    | with_reducible exact .refl _
    | with_reducible assumption
    | (extract_lets +onlyGivenNames y_; refine Keeps.cut (y := y_) ?_ ?_; rotate_left; clear_value y_; intro _; rotate_left; dsimp -iota only [y_]; clear y_)
    | exact rfl
    | with_reducible intro _
    | with_reducible refine .ite ?_ ?_
    | with_reducible refine (State.computeCtx_keeps _ _ _).trans ?_ ?_
    | with_reducible refine (State.computeUnits_keeps _ _).trans ?_ ?_
    | with_reducible refine .foldl _ ?_ ?_
    | split
    | dsimp -iota only

theorem State.computeNow_keeps (s : State) (b : Wb) : Keeps 0x62f0ffc000000000000000000000000000000000000000000b28026010000011206518efd082000002 s (State.computeNow s b) := by
  unfold State.computeNow
  repeat' first
    | with_reducible exact .refl _
    | with_reducible assumption
    | (extract_lets +onlyGivenNames y_; refine Keeps.cut (y := y_) ?_ ?_; rotate_left; clear_value y_; intro _; rotate_left; dsimp -iota only [y_]; clear y_)
    | exact rfl
    | with_reducible intro _
    | with_reducible refine .ite ?_ ?_
    | with_reducible refine (State.resetAll_keeps _ _).trans ?_ ?_
    | with_reducible refine (State.foCause_keeps _ _).trans ?_ ?_
    | with_reducible refine (State.finishFw_keeps _ _ _ _ _).trans ?_ ?_
    | with_reducible refine (State.setReg_keeps _ _ _ _ ?_).trans (sub_self _) ?_
    | with_reducible refine (State.bump_keeps _ _ _ _ ?_).trans (sub_self _) ?_
    | with_reducible refine .foldl _ ?_ ?_
    | split
    | dsimp -iota only
    | with_reducible apply Keeps.upd rfl
    | exact Or.inl rfl
    | exact Or.inr rfl

theorem execResetCompute_keeps (r : FwRef) (s : State) {z_ : State} (h_ : execResetCompute r s = .next z_) : Keeps 0x62f0ffc000000000000000000000000000000000000000000b28026010000011206518efd082000002 s z_ := by
  unfold execResetCompute at h_
  refine act_keeps h_ ?_
  repeat' first
    | with_reducible exact .refl _
    | with_reducible assumption
    | (extract_lets +onlyGivenNames y_; refine Keeps.cut (y := y_) ?_ ?_; rotate_left; clear_value y_; intro _; rotate_left; dsimp -iota only [y_]; clear y_)
    | exact rfl
    | with_reducible intro _
    | with_reducible refine .ite ?_ ?_
    | with_reducible refine (State.computeNow_keeps _ _).trans ?_ ?_
    | split
    | dsimp -iota only
    | with_reducible apply Keeps.upd rfl
    | exact Or.inl rfl
    | exact Or.inr rfl

theorem execComputeResetBoundary_keeps (s : State) {z_ : State} (h_ : execComputeResetBoundary s = .next z_) : Keeps 0x62f0ffc000000000000000000000000000000000000000000b28026010000011206518efd082000002 s z_ := by
  unfold execComputeResetBoundary at h_
  refine act_keeps h_ ?_
  repeat' first
    | with_reducible exact .refl _
    | with_reducible assumption
    | exact rfl
    | with_reducible intro _
    | with_reducible refine .ite ?_ ?_
    | with_reducible refine (State.computeNow_keeps _ _).trans ?_ ?_
    | split

theorem execQuiesceBoundary_keeps (slice : Slice) (s : State) {z_ : State} (h_ : execQuiesceBoundary slice s = .next z_) : Keeps 0x1a0000000000000000000000000000000000000000000000000000000003000000000000000000 s z_ := by
  unfold execQuiesceBoundary at h_
  refine act_keeps h_ ?_
  repeat' first
    | with_reducible exact .refl _
    | with_reducible assumption
    | (extract_lets +onlyGivenNames y_; refine Keeps.cut (y := y_) ?_ ?_; rotate_left; clear_value y_; intro _; rotate_left; dsimp -iota only [y_]; clear y_)
    | exact rfl
    | with_reducible intro _
    | with_reducible refine .ite ?_ ?_
    | with_reducible refine (State.stopChains_keeps _ _).trans ?_ ?_
    | with_reducible refine (State.stopColl_keeps _ _).trans ?_ ?_
    | with_reducible refine .foldl _ ?_ ?_
    | split
    | dsimp -iota only
    | with_reducible apply Keeps.upd rfl
    | exact Or.inl rfl
    | exact Or.inr rfl

end Sys2Proof.Machine
end

