-- ==== Sys2Proof/Laws/KeepsTwin.lean ====
section
/-! SUPPORT. Sys2Proof/Laws/KeepsTwin.lean: what each operation of Machine/Twin.lean leaves alone. -/

namespace Sys2Proof.Machine

theorem State.takeRecords_keeps (s : State) (r : MgrRecords) : Keeps 0x28001000000000000000000000000000000000000000000000000000000000000000000480000000 s (State.takeRecords s r) := by
  unfold State.takeRecords
  repeat' first
    | with_reducible exact .refl _
    | with_reducible assumption
    | (extract_lets +onlyGivenNames y_; refine Keeps.cut (y := y_) ?_ ?_; rotate_left; clear_value y_; intro _; rotate_left; dsimp -iota only [y_]; clear y_)
    | exact rfl
    | with_reducible intro _
    | with_reducible refine .ite ?_ ?_
    | with_reducible refine (State.setFld_keeps _ _ _ _ ?_).trans (sub_self _) ?_
    | split
    | dsimp -iota only
    | with_reducible apply Keeps.upd rfl
    | exact Or.inl rfl
    | exact Or.inr rfl

theorem State.probe_keeps (s : State) (chips : List Nat) : Keeps 0x4002000000000000000000000000000000000000000000000000000000000000000000000000000000 s (State.probe s chips) := by
  unfold State.probe
  repeat' first
    | with_reducible exact .refl _
    | with_reducible assumption
    | exact rfl
    | with_reducible intro _
    | with_reducible refine .ite ?_ ?_
    | with_reducible refine (State.sendMgmt_keeps _ _ _).trans ?_ ?_
    | with_reducible refine .foldl _ ?_ ?_
    | split

theorem State.enterActive_keeps (s : State) (epoch : Nat) : Keeps 0x18001000000000000000000000000000000000000000000000000000000000000000000882000202 s (State.enterActive s epoch) := by
  have hf : ∀ (t : State) (f : Fld) (i v : Nat), Nat.testBit 0x18001000000000000000000000000000000000000000000000000000000000000000000882000202 f.reg.code = true → Keeps 0x18001000000000000000000000000000000000000000000000000000000000000000000882000202 s t → Keeps 0x18001000000000000000000000000000000000000000000000000000000000000000000882000202 s (t.setFld f i v) :=
    fun t f i v h k => (State.setFld_keeps t f i v h).trans (sub_self _) k
  unfold State.enterActive
  extract_lets s1 s2 s3 s4 s5 svc
  have h1 : Keeps 0x18001000000000000000000000000000000000000000000000000000000000000000000882000202 s s1 := hf _ _ _ _ rfl (hf _ _ _ _ rfl (hf _ _ _ _ rfl (.refl s)))
  have h2 : Keeps 0x18001000000000000000000000000000000000000000000000000000000000000000000882000202 s s2 := hf _ _ _ _ rfl ((State.endCoast_keeps _).trans rfl (hf _ _ _ _ rfl h1))
  have h3 : Keeps 0x18001000000000000000000000000000000000000000000000000000000000000000000882000202 s s3 := hf _ _ _ _ rfl (hf _ _ _ _ rfl (hf _ _ _ _ rfl h2))
  have h4 : Keeps 0x18001000000000000000000000000000000000000000000000000000000000000000000882000202 s s4 := hf _ _ _ _ rfl (hf _ _ _ _ rfl h3)
  have h5 : Keeps 0x18001000000000000000000000000000000000000000000000000000000000000000000882000202 s s5 := (State.modTwin_keeps _ _).trans rfl h4
  clear_value svc s5
  apply Keeps.upd rfl h5 rfl <;> first | exact .inl rfl | exact .inr rfl

theorem State.takeOver_keeps (s : State) (epoch : Nat) : Keeps 0x60da001000000000000000000000000000000000000000000a28000010000000000000001882000202 s (State.takeOver s epoch) := by
  unfold State.takeOver
  repeat' first
    | with_reducible exact .refl _
    | with_reducible assumption
    | (extract_lets +onlyGivenNames y_; refine Keeps.cut (y := y_) ?_ ?_; rotate_left; clear_value y_; intro _; rotate_left; dsimp -iota only [y_]; clear y_)
    | exact rfl
    | with_reducible intro _
    | with_reducible refine .ite ?_ ?_
    | with_reducible refine (State.enterActive_keeps _ _).trans ?_ ?_
    | with_reducible refine (State.probe_keeps _ _).trans ?_ ?_
    | with_reducible refine (State.sendMgmt_keeps _ _ _).trans ?_ ?_
    | with_reducible refine (State.event_keeps _ _ _).trans ?_ ?_
    | with_reducible refine (State.sillage_keeps _ _ _ _ _).trans ?_ ?_
    | with_reducible refine (State.bump_keeps _ _ _ _ ?_).trans (sub_self _) ?_
    | with_reducible refine .foldl _ ?_ ?_
    | split
    | dsimp -iota only
    | with_reducible apply Keeps.upd rfl
    | exact Or.inl rfl
    | exact Or.inr rfl

theorem State.enterShadow_keeps (s : State) : Keeps 0x10000000000000000000000000000000000000000000000000000000000000000000000082000000 s (State.enterShadow s) := by
  unfold State.enterShadow
  repeat' first
    | with_reducible exact .refl _
    | with_reducible assumption
    | (extract_lets +onlyGivenNames y_; refine Keeps.cut (y := y_) ?_ ?_; rotate_left; clear_value y_; intro _; rotate_left; dsimp -iota only [y_]; clear y_)
    | exact rfl
    | with_reducible intro _
    | with_reducible refine .ite ?_ ?_
    | with_reducible refine (State.modTwin_keeps _ _).trans ?_ ?_
    | with_reducible refine (State.setFld_keeps _ _ _ _ ?_).trans (sub_self _) ?_
    | split
    | dsimp -iota only

theorem State.releaseWaits_keeps (s : State) (p : Wb → Bool) : Keeps 0x30000000000000000000000000000000000000000000000000000000000000000000000000000000 s (State.releaseWaits s p) := by
  unfold State.releaseWaits
  repeat' first
    | with_reducible exact .refl _
    | with_reducible assumption
    | (extract_lets +onlyGivenNames y_; refine Keeps.cut (y := y_) ?_ ?_; rotate_left; clear_value y_; intro _; rotate_left; dsimp -iota only [y_]; clear y_)
    | exact rfl
    | with_reducible intro _
    | with_reducible refine .ite ?_ ?_
    | with_reducible refine (State.modTwin_keeps _ _).trans ?_ ?_
    | split
    | dsimp -iota only
    | with_reducible apply Keeps.upd rfl
    | exact Or.inl rfl
    | exact Or.inr rfl

theorem State.peerLost_keeps (s : State) : Keeps 0xb0000000000000000000000000000000000000000000000000000010000000000000000000000000 s (State.peerLost s) := by
  unfold State.peerLost
  repeat' first
    | with_reducible exact .refl _
    | with_reducible assumption
    | exact rfl
    | with_reducible intro _
    | with_reducible refine .ite ?_ ?_
    | with_reducible refine (State.releaseWaits_keeps _ _).trans ?_ ?_
    | with_reducible refine (State.modTwin_keeps _ _).trans ?_ ?_
    | with_reducible refine (State.event_keeps _ _ _).trans ?_ ?_
    | split

theorem State.noteBeat_keeps (s : State) (epoch : Nat) (twin : Bool) (b : Beat) : Keeps 0x10000000000000000000000000000000000000000000000000000000000000000000000180000000 s (State.noteBeat s epoch twin b) := by
  unfold State.noteBeat
  repeat' first
    | with_reducible exact .refl _
    | with_reducible assumption
    | (extract_lets +onlyGivenNames y_; refine Keeps.cut (y := y_) ?_ ?_; rotate_left; clear_value y_; intro _; rotate_left; dsimp -iota only [y_]; clear y_)
    | exact rfl
    | with_reducible intro _
    | with_reducible refine .ite ?_ ?_
    | with_reducible refine (State.modTwin_keeps _ _).trans ?_ ?_
    | with_reducible refine (State.setFld_keeps _ _ _ _ ?_).trans (sub_self _) ?_
    | split
    | dsimp -iota only

theorem State.askOnBeat_keeps (s : State) (first : Bool) : Keeps 0x4002000000000000000000000000000000000000000000000000000000000000000000000000000000 s (State.askOnBeat s first) := by
  unfold State.askOnBeat
  repeat' first
    | with_reducible exact .refl _
    | with_reducible assumption
    | exact rfl
    | with_reducible intro _
    | with_reducible refine .ite ?_ ?_
    | with_reducible refine (State.askSnapshot_keeps _).trans ?_ ?_
    | split

theorem execHeartbeatReceive_keeps (h : MsgHdr) (twin : Bool) (b : Beat) (s : State) {z_ : State} (h_ : execHeartbeatReceive h twin b s = .next z_) : Keeps 0x60f2000000000000000000000000000000000000000000000a28000010000000000000001182000002 s z_ := by
  unfold execHeartbeatReceive at h_
  refine act_keeps h_ ?_
  repeat' first
    | with_reducible exact .refl _
    | with_reducible assumption
    | (extract_lets +onlyGivenNames y_; refine Keeps.cut (y := y_) ?_ ?_; rotate_left; clear_value y_; intro _; rotate_left; dsimp -iota only [y_]; clear y_)
    | exact rfl
    | with_reducible intro _
    | with_reducible refine .ite ?_ ?_
    | with_reducible refine (State.askOnBeat_keeps _ _).trans ?_ ?_
    | with_reducible refine (State.noteBeat_keeps _ _ _ _).trans ?_ ?_
    | with_reducible refine (State.peerLost_keeps _).trans ?_ ?_
    | with_reducible refine (State.modTwin_keeps _ _).trans ?_ ?_
    | with_reducible refine (State.fenceOn_keeps _ _).trans ?_ ?_
    | split
    | dsimp -iota only

theorem execFenceOnSilence_keeps (s : State) {z_ : State} (h_ : execFenceOnSilence s = .next z_) : Keeps 0x20d0000000000000000000000000000000000000000000000a28000010000000000000001082000002 s z_ := by
  unfold execFenceOnSilence at h_
  refine act_keeps h_ ?_
  repeat' first
    | with_reducible exact .refl _
    | with_reducible assumption
    | (extract_lets +onlyGivenNames y_; refine Keeps.cut (y := y_) ?_ ?_; rotate_left; clear_value y_; intro _; rotate_left; dsimp -iota only [y_]; clear y_)
    | exact rfl
    | with_reducible intro _
    | with_reducible refine .ite ?_ ?_
    | with_reducible refine (State.fence_keeps _).trans ?_ ?_
    | split
    | dsimp -iota only

theorem State.sendBeat_keeps (s : State) : Keeps 0x4002000000000000000000000000000000000000000000000000000000000000000000000000000000 s (State.sendBeat s) := by
  unfold State.sendBeat
  repeat' first
    | with_reducible exact .refl _
    | with_reducible assumption
    | (extract_lets +onlyGivenNames y_; refine Keeps.cut (y := y_) ?_ ?_; rotate_left; clear_value y_; intro _; rotate_left; dsimp -iota only [y_]; clear y_)
    | exact rfl
    | with_reducible intro _
    | with_reducible refine .ite ?_ ?_
    | with_reducible refine (State.sendMgmt_keeps _ _ _).trans ?_ ?_
    | with_reducible refine (State.emit_keeps _ _).trans ?_ ?_
    | split
    | dsimp -iota only

theorem State.countSilence_keeps (s : State) (m : Wb) : Keeps 0x10000000000000000000000000000000000000000000000000000000000000000000000100000000 s (State.countSilence s m) := by
  unfold State.countSilence
  repeat' first
    | with_reducible exact .refl _
    | with_reducible assumption
    | (extract_lets +onlyGivenNames y_; refine Keeps.cut (y := y_) ?_ ?_; rotate_left; clear_value y_; intro _; rotate_left; dsimp -iota only [y_]; clear y_)
    | exact rfl
    | with_reducible intro _
    | with_reducible refine .ite ?_ ?_
    | with_reducible refine (State.modTwin_keeps _ _).trans ?_ ?_
    | with_reducible refine (State.setFld_keeps _ _ _ _ ?_).trans (sub_self _) ?_
    | with_reducible refine (State.bump_keeps _ _ _ _ ?_).trans (sub_self _) ?_
    | split
    | dsimp -iota only

theorem State.countHold_keeps (s : State) (m : Wb) : Keeps 0x400000000 s (State.countHold s m) := by
  unfold State.countHold
  repeat' first
    | with_reducible exact .refl _
    | with_reducible assumption
    | (extract_lets +onlyGivenNames y_; refine Keeps.cut (y := y_) ?_ ?_; rotate_left; clear_value y_; intro _; rotate_left; dsimp -iota only [y_]; clear y_)
    | exact rfl
    | with_reducible intro _
    | with_reducible refine .ite ?_ ?_
    | with_reducible refine (State.setFld_keeps _ _ _ _ ?_).trans (sub_self _) ?_
    | split
    | dsimp -iota only

theorem execManagerListenEnd_keeps (s : State) {z_ : State} (h_ : execManagerListenEnd s = .next z_) : Keeps 0x4012000000000000000000000000000000000000000000000000000000000000000000000082000000 s z_ := by
  unfold execManagerListenEnd at h_
  refine act_keeps h_ ?_
  repeat' first
    | with_reducible exact .refl _
    | with_reducible assumption
    | exact rfl
    | with_reducible intro _
    | with_reducible refine .ite ?_ ?_
    | with_reducible refine (State.enterShadow_keeps _).trans ?_ ?_
    | with_reducible refine (State.probe_keeps _ _).trans ?_ ?_
    | with_reducible refine (State.askSnapshot_keeps _).trans ?_ ?_
    | with_reducible refine (State.modTwin_keeps _ _).trans ?_ ?_
    | split

theorem State.interruptMgr_keeps (s : State) : Keeps 0x30000000000000000000000000000000000000000000000000000000000000000000000000000000 s (State.interruptMgr s) := by
  unfold State.interruptMgr
  repeat' first
    | with_reducible exact .refl _
    | with_reducible assumption
    | (extract_lets +onlyGivenNames y_; refine Keeps.cut (y := y_) ?_ ?_; rotate_left; clear_value y_; intro _; rotate_left; dsimp -iota only [y_]; clear y_)
    | exact rfl
    | with_reducible intro _
    | with_reducible refine .ite ?_ ?_
    | with_reducible refine (State.finishFw_keeps _ _ _ _ _).trans ?_ ?_
    | with_reducible refine .foldl _ ?_ ?_
    | split
    | dsimp -iota only

theorem State.startTime_keeps (s : State) : Keeps 0xe042001000000000000000000000000000000000000000000a2800000000000000000000000000003d s (State.startTime s) := by
  unfold State.startTime
  repeat' first
    | with_reducible exact .refl _
    | with_reducible assumption
    | (extract_lets +onlyGivenNames y_; refine Keeps.cut (y := y_) ?_ ?_; rotate_left; clear_value y_; intro _; rotate_left; dsimp -iota only [y_]; clear y_)
    | exact rfl
    | with_reducible intro _
    | with_reducible refine .ite ?_ ?_
    | with_reducible refine (State.setBase_keeps _ _ _ _).trans ?_ ?_
    | with_reducible refine (State.sendMgmt_keeps _ _ _).trans ?_ ?_
    | with_reducible refine (State.sillage_keeps _ _ _ _ _).trans ?_ ?_
    | with_reducible refine (State.fresh_keeps _).trans ?_ ?_
    | with_reducible refine (Keeps.snd (State.fresh_keeps _) ‹_›).trans ?_ ?_
    | with_reducible refine (State.setReg_keeps _ _ _ _ ?_).trans (sub_self _) ?_
    | split
    | dsimp -iota only

theorem execStartProbeEnd_keeps (s : State) {z_ : State} (h_ : execStartProbeEnd s = .next z_) : Keeps 0xe07a001000000000000000000000000000000000000000000a2800000000000000000000088200023f s z_ := by
  unfold execStartProbeEnd at h_
  refine act_keeps h_ ?_
  repeat' first
    | with_reducible exact .refl _
    | with_reducible assumption
    | (extract_lets +onlyGivenNames y_; refine Keeps.cut (y := y_) ?_ ?_; rotate_left; clear_value y_; intro _; rotate_left; dsimp -iota only [y_]; clear y_)
    | exact rfl
    | with_reducible intro _
    | with_reducible refine .ite ?_ ?_
    | with_reducible refine (State.startTime_keeps _).trans ?_ ?_
    | with_reducible refine (State.interruptMgr_keeps _).trans ?_ ?_
    | with_reducible refine (State.enterActive_keeps _ _).trans ?_ ?_
    | with_reducible refine .foldl _ ?_ ?_
    | split
    | dsimp -iota only
    | with_reducible apply Keeps.upd rfl
    | exact Or.inl rfl
    | exact Or.inr rfl

theorem execEpochProbeReceive_keeps (h : MsgHdr) (s : State) {z_ : State} (h_ : execEpochProbeReceive h s = .next z_) : Keeps 0x60d2000000000000000000000000000000000000000000000a28000010000000000000001082000002 s z_ := by
  unfold execEpochProbeReceive at h_
  refine act_keeps h_ ?_
  repeat' first
    | with_reducible exact .refl _
    | with_reducible assumption
    | exact rfl
    | with_reducible intro _
    | with_reducible refine .ite ?_ ?_
    | with_reducible refine (State.fromAgent_keeps _ _ _ _ ?_ ?_ ?_).trans (sub_self _) ?_
    | with_reducible refine (State.sendMgmt_keeps _ _ _).trans ?_ ?_
    | with_reducible exact .ident _
    | split

theorem execEpochReplyReceive_keeps (h : MsgHdr) (highest mgrChip version mapSeq : Nat) (ports : List (Nat × Nat)) (s : State) {z_ : State} (h_ : execEpochReplyReceive h highest mgrChip version mapSeq ports s = .next z_) : Keeps 0x60fa200000000000000000000000000000000000000000000a280000100000000020000010ea000002 s z_ := by
  unfold execEpochReplyReceive at h_
  refine act_keeps h_ ?_
  repeat' first
    | with_reducible exact .refl _
    | with_reducible assumption
    | (extract_lets +onlyGivenNames y_; refine Keeps.cut (y := y_) ?_ ?_; rotate_left; clear_value y_; intro _; rotate_left; dsimp -iota only [y_]; clear y_)
    | exact rfl
    | with_reducible intro _
    | with_reducible refine .ite ?_ ?_
    | with_reducible refine (State.finishRoutes_keeps _ _).trans ?_ ?_
    | with_reducible refine (State.reconcilePorts_keeps _ _ _).trans ?_ ?_
    | with_reducible refine (State.modTwin_keeps _ _).trans ?_ ?_
    | with_reducible refine (State.fromAgent_keeps _ _ _ _ ?_ ?_ ?_).trans (sub_self _) ?_
    | with_reducible refine (State.answered_keeps _ _).trans ?_ ?_
    | with_reducible refine (State.sendMgmt_keeps _ _ _).trans ?_ ?_
    | with_reducible refine (State.setFld_keeps _ _ _ _ ?_).trans (sub_self _) ?_
    | with_reducible exact .ident _
    | split
    | dsimp -iota only
    | with_reducible apply Keeps.upd rfl
    | exact Or.inl rfl
    | exact Or.inr rfl

theorem State.deltaPiece_keeps (s : State) (forWb : Wb) (piece pieces : Nat) : Keeps 0x10000000000000000000000000000000000000000000000000000000000000000000000000000000 s (State.deltaPiece s forWb piece pieces).1 := by
  unfold State.deltaPiece
  repeat' first
    | with_reducible exact .refl _
    | with_reducible assumption
    | (extract_lets +onlyGivenNames y_; refine Keeps.cut (y := y_) ?_ ?_; rotate_left; clear_value y_; intro _; rotate_left; dsimp -iota only [y_]; clear y_)
    | exact rfl
    | with_reducible intro _
    | with_reducible refine .ite ?_ ?_
    | with_reducible refine .ite1 ?_ ?_
    | with_reducible refine (State.modTwin_keeps _ _).trans ?_ ?_
    | split
    | dsimp -iota only

theorem State.ackDelta_keeps (s : State) (forWb : Wb) : Keeps 0x4002000000000000000000000000000000000000000000000000000000000000000000000000000000 s (State.ackDelta s forWb) := by
  unfold State.ackDelta
  repeat' first
    | with_reducible exact .refl _
    | with_reducible assumption
    | exact rfl
    | with_reducible intro _
    | with_reducible refine .ite ?_ ?_
    | with_reducible refine (State.sendMgmt_keeps _ _ _).trans ?_ ?_
    | split

theorem State.applyDelta_keeps (s : State) (forWb : Wb) (r : MgrRecords) : Keeps 0x403a001000000000000000000000000000000000000000000000000000000000000000000680000000 s (State.applyDelta s forWb r) := by
  unfold State.applyDelta
  repeat' first
    | with_reducible exact .refl _
    | with_reducible assumption
    | (extract_lets +onlyGivenNames y_; refine Keeps.cut (y := y_) ?_ ?_; rotate_left; clear_value y_; intro _; rotate_left; dsimp -iota only [y_]; clear y_)
    | exact rfl
    | with_reducible intro _
    | with_reducible refine .ite ?_ ?_
    | with_reducible refine (State.ackDelta_keeps _ _).trans ?_ ?_
    | with_reducible refine (State.takeRecords_keeps _ _).trans ?_ ?_
    | with_reducible refine (State.modTwin_keeps _ _).trans ?_ ?_
    | with_reducible refine (State.setFld_keeps _ _ _ _ ?_).trans (sub_self _) ?_
    | split
    | dsimp -iota only

theorem State.badFormat_keeps (s : State) : Keeps 0x90000000000000000000000000000000000000000000000000000010000000000000001280000000 s (State.badFormat s) := by
  unfold State.badFormat
  repeat' first
    | with_reducible exact .refl _
    | with_reducible assumption
    | (extract_lets +onlyGivenNames y_; refine Keeps.cut (y := y_) ?_ ?_; rotate_left; clear_value y_; intro _; rotate_left; dsimp -iota only [y_]; clear y_)
    | exact rfl
    | with_reducible intro _
    | with_reducible refine .ite ?_ ?_
    | with_reducible refine (State.unsync_keeps _ _).trans ?_ ?_
    | with_reducible refine (State.modTwin_keeps _ _).trans ?_ ?_
    | with_reducible refine (State.event_keeps _ _ _).trans ?_ ?_
    | split
    | dsimp -iota only

theorem execStateDeltaReceive_keeps (h : MsgHdr) (forWb : Wb) (piece pieces : Nat) (fmtOk : Bool) (recs : MgrRecords) (s : State) {z_ : State} (h_ : execStateDeltaReceive h forWb piece pieces fmtOk recs s = .next z_) : Keeps 0x60fa001000000000000000000000000000000000000000000a28000010000000000000001682000002 s z_ := by
  unfold execStateDeltaReceive at h_
  refine act_keeps h_ ?_
  repeat' first
    | with_reducible exact .refl _
    | with_reducible assumption
    | (extract_lets +onlyGivenNames y_; refine Keeps.cut (y := y_) ?_ ?_; rotate_left; clear_value y_; intro _; rotate_left; dsimp -iota only [y_]; clear y_)
    | exact rfl
    | with_reducible intro _
    | with_reducible refine .ite ?_ ?_
    | with_reducible refine (State.badFormat_keeps _).trans ?_ ?_
    | with_reducible refine (State.applyDelta_keeps _ _ _).trans ?_ ?_
    | with_reducible refine (State.deltaPiece_keeps _ _ _ _).trans ?_ ?_
    | with_reducible refine (Keeps.fst (State.deltaPiece_keeps _ _ _ _) ‹_›).trans ?_ ?_
    | with_reducible refine (State.modTwin_keeps _ _).trans ?_ ?_
    | with_reducible refine (State.fenceOn_keeps _ _).trans ?_ ?_
    | split
    | dsimp -iota only

theorem State.applySnapshot_keeps (s : State) (forWb : Wb) (r : MgrRecords) : Keeps 0x403a001000000000000000000000000000000000000000000000000000000000000000000680000000 s (State.applySnapshot s forWb r) := by
  unfold State.applySnapshot
  repeat' first
    | with_reducible exact .refl _
    | with_reducible assumption
    | (extract_lets +onlyGivenNames y_; refine Keeps.cut (y := y_) ?_ ?_; rotate_left; clear_value y_; intro _; rotate_left; dsimp -iota only [y_]; clear y_)
    | exact rfl
    | with_reducible intro _
    | with_reducible refine .ite ?_ ?_
    | with_reducible refine (State.ackDelta_keeps _ _).trans ?_ ?_
    | with_reducible refine (State.takeRecords_keeps _ _).trans ?_ ?_
    | with_reducible refine (State.modTwin_keeps _ _).trans ?_ ?_
    | with_reducible refine (State.answered_keeps _ _).trans ?_ ?_
    | with_reducible refine (State.setFld_keeps _ _ _ _ ?_).trans (sub_self _) ?_
    | split
    | dsimp -iota only

theorem execSnapshotReceive_keeps (h : MsgHdr) (forWb : Wb) (piece pieces : Nat) (fmtOk : Bool) (recs : MgrRecords) (s : State) {z_ : State} (h_ : execSnapshotReceive h forWb piece pieces fmtOk recs s = .next z_) : Keeps 0x60fa001000000000000000000000000000000000000000000a28000010000000000000001682000002 s z_ := by
  unfold execSnapshotReceive at h_
  refine act_keeps h_ ?_
  repeat' first
    | with_reducible exact .refl _
    | with_reducible assumption
    | (extract_lets +onlyGivenNames y_; refine Keeps.cut (y := y_) ?_ ?_; rotate_left; clear_value y_; intro _; rotate_left; dsimp -iota only [y_]; clear y_)
    | exact rfl
    | with_reducible intro _
    | with_reducible refine .ite ?_ ?_
    | with_reducible refine (State.applySnapshot_keeps _ _ _).trans ?_ ?_
    | with_reducible refine (State.badFormat_keeps _).trans ?_ ?_
    | with_reducible refine (State.modTwin_keeps _ _).trans ?_ ?_
    | with_reducible refine (State.fenceOn_keeps _ _).trans ?_ ?_
    | with_reducible refine (State.setFld_keeps _ _ _ _ ?_).trans (sub_self _) ?_
    | split
    | dsimp -iota only

theorem State.startSnapshot_keeps (s : State) : Keeps 0x8010000000000000000000000000000000000000000000000000000000000000000000000200000000 s (State.startSnapshot s) := by
  unfold State.startSnapshot
  repeat' first
    | with_reducible exact .refl _
    | with_reducible assumption
    | exact rfl
    | with_reducible intro _
    | with_reducible refine .ite ?_ ?_
    | with_reducible refine (State.modTwin_keeps _ _).trans ?_ ?_
    | with_reducible refine (State.fresh_keeps _).trans ?_ ?_
    | with_reducible refine (Keeps.snd (State.fresh_keeps _) ‹_›).trans ?_ ?_
    | with_reducible refine (State.setFld_keeps _ _ _ _ ?_).trans (sub_self _) ?_
    | split
    | dsimp -iota only

theorem execSnapshotStart_keeps (s : State) {z_ : State} (h_ : execSnapshotStart s = .next z_) : Keeps 0x8010000000000000000000000000000000000000000000000000000000000000000000000200000000 s z_ := by
  unfold execSnapshotStart at h_
  refine act_keeps h_ ?_
  repeat' first
    | with_reducible exact .refl _
    | with_reducible assumption
    | exact rfl
    | with_reducible intro _
    | with_reducible refine .ite ?_ ?_
    | with_reducible refine (State.startSnapshot_keeps _).trans ?_ ?_
    | split

theorem execSnapReqReceive_keeps (h : MsgHdr) (s : State) {z_ : State} (h_ : execSnapReqReceive h s = .next z_) : Keeps 0xe0d2000000000000000000000000000000000000000000000a28000010000000000000001282000002 s z_ := by
  unfold execSnapReqReceive at h_
  refine act_keeps h_ ?_
  repeat' first
    | with_reducible exact .refl _
    | with_reducible assumption
    | exact rfl
    | with_reducible intro _
    | with_reducible refine .ite ?_ ?_
    | with_reducible refine (State.startSnapshot_keeps _).trans ?_ ?_
    | with_reducible refine (State.atManager_keeps _ _ _ _ ?_ ?_ ?_).trans (sub_self _) ?_
    | with_reducible exact .ident _
    | split

theorem State.sendDelta_keeps (s : State) (m : Wb) : Keeps 0x4012000000000000000000000000000000000000000000000000000000000000000000000200000000 s (State.sendDelta s m) := by
  unfold State.sendDelta
  repeat' first
    | with_reducible exact .refl _
    | with_reducible assumption
    | (extract_lets +onlyGivenNames y_; refine Keeps.cut (y := y_) ?_ ?_; rotate_left; clear_value y_; intro _; rotate_left; dsimp -iota only [y_]; clear y_)
    | exact rfl
    | with_reducible intro _
    | with_reducible refine .ite ?_ ?_
    | with_reducible refine (State.modTwin_keeps _ _).trans ?_ ?_
    | with_reducible refine (State.sendMgmt_keeps _ _ _).trans ?_ ?_
    | with_reducible refine (State.setFld_keeps _ _ _ _ ?_).trans (sub_self _) ?_
    | split
    | dsimp -iota only

theorem execShadowUnsync_keeps (s : State) {z_ : State} (h_ : execShadowUnsync s = .next z_) : Keeps 0x4092000000000000000000000000000000000000000000000000000010000000000000001280000000 s z_ := by
  unfold execShadowUnsync at h_
  refine act_keeps h_ ?_
  repeat' first
    | with_reducible exact .refl _
    | with_reducible assumption
    | (extract_lets +onlyGivenNames y_; refine Keeps.cut (y := y_) ?_ ?_; rotate_left; clear_value y_; intro _; rotate_left; dsimp -iota only [y_]; clear y_)
    | exact rfl
    | with_reducible intro _
    | with_reducible refine .ite ?_ ?_
    | with_reducible refine (State.unsync_keeps _ _).trans ?_ ?_
    | with_reducible refine (State.askSnapshot_keeps _).trans ?_ ?_
    | split
    | dsimp -iota only

theorem execDeltaAckReceive_keeps (h : MsgHdr) (forWb : Wb) (s : State) {z_ : State} (h_ : execDeltaAckReceive h forWb s = .next z_) : Keeps 0x60f2000000000000000000000000000000000000000000000a28000010000000000000001082000002 s z_ := by
  unfold execDeltaAckReceive at h_
  refine act_keeps h_ ?_
  repeat' first
    | with_reducible exact .refl _
    | with_reducible assumption
    | exact rfl
    | with_reducible intro _
    | with_reducible refine .ite ?_ ?_
    | with_reducible refine (State.releaseWaits_keeps _ _).trans ?_ ?_
    | with_reducible refine (State.modTwin_keeps _ _).trans ?_ ?_
    | with_reducible refine (State.atManager_keeps _ _ _ _ ?_ ?_ ?_).trans (sub_self _) ?_
    | with_reducible exact .ident _
    | split

theorem execDeltaAckTimeout_keeps (s : State) {z_ : State} (h_ : execDeltaAckTimeout s = .next z_) : Keeps 0xb0000000000000000000000000000000000000000000000000000010000000000000000000000000 s z_ := by
  unfold execDeltaAckTimeout at h_
  refine act_keeps h_ ?_
  repeat' first
    | with_reducible exact .refl _
    | with_reducible assumption
    | exact rfl
    | with_reducible intro _
    | with_reducible refine .ite ?_ ?_
    | with_reducible refine (State.peerLost_keeps _).trans ?_ ?_
    | split

theorem execTakeover_keeps (s : State) {z_ : State} (h_ : execTakeover s = .next z_) : Keeps 0x60da001000000000000000000000000000000000000000000a28000010000000000000001882000202 s z_ := by
  unfold execTakeover at h_
  refine act_keeps h_ ?_
  repeat' first
    | with_reducible exact .refl _
    | with_reducible assumption
    | exact rfl
    | with_reducible intro _
    | with_reducible refine .ite ?_ ?_
    | with_reducible refine (State.takeOver_keeps _ _).trans ?_ ?_
    | with_reducible refine (State.event_keeps _ _ _).trans ?_ ?_
    | split

theorem execTakeoverReceive_keeps (h : MsgHdr) (epoch : Nat) (chip : Chip) (fromWb : Wb) (s : State) {z_ : State} (h_ : execTakeoverReceive h epoch chip fromWb s = .next z_) : Keeps 0x60d2002000000000000000000000000000000000000000000a28000010000000000000001882000002 s z_ := by
  unfold execTakeoverReceive at h_
  refine act_keeps h_ ?_
  repeat' first
    | with_reducible exact .refl _
    | with_reducible assumption
    | exact rfl
    | with_reducible intro _
    | with_reducible refine .ite ?_ ?_
    | with_reducible refine (State.fromManager_keeps _ _ _ _ ?_ ?_ ?_).trans (sub_self _) ?_
    | with_reducible refine (State.setFld_keeps _ _ _ _ ?_).trans (sub_self _) ?_
    | with_reducible exact .ident _
    | split

theorem execFencedProbe_keeps (s : State) {z_ : State} (h_ : execFencedProbe s = .next z_) : Keeps 0x4012000000000000000000000000000000000000000000000000000000000000000000000000000000 s z_ := by
  unfold execFencedProbe at h_
  refine act_keeps h_ ?_
  repeat' first
    | with_reducible exact .refl _
    | with_reducible assumption
    | (extract_lets +onlyGivenNames y_; refine Keeps.cut (y := y_) ?_ ?_; rotate_left; clear_value y_; intro _; rotate_left; dsimp -iota only [y_]; clear y_)
    | exact rfl
    | with_reducible intro _
    | with_reducible refine .ite ?_ ?_
    | with_reducible refine (State.probe_keeps _ _).trans ?_ ?_
    | with_reducible refine (State.modTwin_keeps _ _).trans ?_ ?_
    | split
    | dsimp -iota only

theorem execReclaimDecide_keeps (s : State) {z_ : State} (h_ : execReclaimDecide s = .next z_) : Keeps 0x60da001000000000000000000000000000000000000000000a28000010000000000000001882000202 s z_ := by
  unfold execReclaimDecide at h_
  refine act_keeps h_ ?_
  repeat' first
    | with_reducible exact .refl _
    | with_reducible assumption
    | (extract_lets +onlyGivenNames y_; refine Keeps.cut (y := y_) ?_ ?_; rotate_left; clear_value y_; intro _; rotate_left; dsimp -iota only [y_]; clear y_)
    | exact rfl
    | with_reducible intro _
    | with_reducible refine .ite ?_ ?_
    | with_reducible refine (State.enterShadow_keeps _).trans ?_ ?_
    | with_reducible refine (State.takeOver_keeps _ _).trans ?_ ?_
    | with_reducible refine (State.askSnapshot_keeps _).trans ?_ ?_
    | split
    | dsimp -iota only

theorem execHoldLeftZero_keeps (s : State) {z_ : State} (h_ : execHoldLeftZero s = .next z_) : Keeps 0x4012000000000000000000000000000000000000000000000000000000000000000000000000000000 s z_ := by
  unfold execHoldLeftZero at h_
  refine act_keeps h_ ?_
  repeat' first
    | with_reducible exact .refl _
    | with_reducible assumption
    | (extract_lets +onlyGivenNames y_; refine Keeps.cut (y := y_) ?_ ?_; rotate_left; clear_value y_; intro _; rotate_left; dsimp -iota only [y_]; clear y_)
    | exact rfl
    | with_reducible intro _
    | with_reducible refine .ite ?_ ?_
    | with_reducible refine (State.modTwin_keeps _ _).trans ?_ ?_
    | with_reducible refine (State.sendMgmt_keeps _ _ _).trans ?_ ?_
    | split
    | dsimp -iota only

theorem execTakebackReceive_keeps (h : MsgHdr) (t : Wb) (ack : Bool) (s : State) {z_ : State} (h_ : execTakebackReceive h t ack s = .next z_) : Keeps 0x60d2000000000000000000000000000000000000000000000a28000010000000000000001082000002 s z_ := by
  unfold execTakebackReceive at h_
  refine act_keeps h_ ?_
  repeat' first
    | with_reducible exact .refl _
    | with_reducible assumption
    | (extract_lets +onlyGivenNames y_; refine Keeps.cut (y := y_) ?_ ?_; rotate_left; clear_value y_; intro _; rotate_left; dsimp -iota only [y_]; clear y_)
    | exact rfl
    | with_reducible intro _
    | with_reducible refine .ite ?_ ?_
    | with_reducible refine (State.modTwin_keeps _ _).trans ?_ ?_
    | with_reducible refine (State.fenceOn_keeps _ _).trans ?_ ?_
    | with_reducible refine (State.sendMgmt_keeps _ _ _).trans ?_ ?_
    | split
    | dsimp -iota only

theorem execTakebackTimeout_keeps (s : State) {z_ : State} (h_ : execTakebackTimeout s = .next z_) : Keeps 0x10000000000000000000000000000000000000000000000000000000000000000000000400000000 s z_ := by
  unfold execTakebackTimeout at h_
  refine act_keeps h_ ?_
  repeat' first
    | with_reducible exact .refl _
    | with_reducible assumption
    | exact rfl
    | with_reducible intro _
    | with_reducible refine .ite ?_ ?_
    | with_reducible refine (State.modTwin_keeps _ _).trans ?_ ?_
    | with_reducible refine (State.setFld_keeps _ _ _ _ ?_).trans (sub_self _) ?_
    | split

theorem execTakebackHandover_keeps (s : State) {z_ : State} (h_ : execTakebackHandover s = .next z_) : Keeps 0x4012001000000000000000000000000000000000000000000000000000000000000000000282000002 s z_ := by
  unfold execTakebackHandover at h_
  refine act_keeps h_ ?_
  repeat' first
    | with_reducible exact .refl _
    | with_reducible assumption
    | (extract_lets +onlyGivenNames y_; refine Keeps.cut (y := y_) ?_ ?_; rotate_left; clear_value y_; intro _; rotate_left; dsimp -iota only [y_]; clear y_)
    | exact rfl
    | with_reducible intro _
    | with_reducible refine .ite ?_ ?_
    | with_reducible refine (State.enterShadow_keeps _).trans ?_ ?_
    | with_reducible refine (State.startCoast_keeps _).trans ?_ ?_
    | with_reducible refine (State.modTwin_keeps _ _).trans ?_ ?_
    | with_reducible refine (State.sendMgmt_keeps _ _ _).trans ?_ ?_
    | with_reducible refine (State.setFld_keeps _ _ _ _ ?_).trans (sub_self _) ?_
    | split
    | dsimp -iota only

theorem execTakebackComplete_keeps (s : State) {z_ : State} (h_ : execTakebackComplete s = .next z_) : Keeps 0x60da001000000000000000000000000000000000000000000a28000010000000000000001c82000202 s z_ := by
  unfold execTakebackComplete at h_
  refine act_keeps h_ ?_
  repeat' first
    | with_reducible exact .refl _
    | with_reducible assumption
    | (extract_lets +onlyGivenNames y_; refine Keeps.cut (y := y_) ?_ ?_; rotate_left; clear_value y_; intro _; rotate_left; dsimp -iota only [y_]; clear y_)
    | exact rfl
    | with_reducible intro _
    | with_reducible refine .ite ?_ ?_
    | with_reducible refine (State.takeOver_keeps _ _).trans ?_ ?_
    | with_reducible refine (State.event_keeps _ _ _).trans ?_ ?_
    | with_reducible refine (State.setFld_keeps _ _ _ _ ?_).trans (sub_self _) ?_
    | with_reducible refine (State.bump_keeps _ _ _ _ ?_).trans (sub_self _) ?_
    | split
    | dsimp -iota only

theorem execRevertCtl_keeps (r : FwRef) (hold : Bool) (s : State) {z_ : State} (h_ : execRevertCtl r hold s = .next z_) : Keeps 0x30000000000000000000000000000000000000000000000000000000000000000000000480000000 s z_ := by
  unfold execRevertCtl at h_
  refine act_keeps h_ ?_
  repeat' first
    | with_reducible exact .refl _
    | with_reducible assumption
    | (extract_lets +onlyGivenNames y_; refine Keeps.cut (y := y_) ?_ ?_; rotate_left; clear_value y_; intro _; rotate_left; dsimp -iota only [y_]; clear y_)
    | exact rfl
    | with_reducible intro _
    | with_reducible refine .ite ?_ ?_
    | with_reducible refine (State.mgrCommand_keeps _ _ _ ?_ ?_).trans (sub_self _) ?_
    | with_reducible refine (State.finishFw_keeps _ _ _ _ _).trans ?_ ?_
    | with_reducible refine (State.setFld_keeps _ _ _ _ ?_).trans (sub_self _) ?_
    | split
    | dsimp -iota only

end Sys2Proof.Machine
end

