-- ==== Sys2Proof/Laws/KeepsSpares.lean ====
section
/-! SUPPORT. Sys2Proof/Laws/KeepsSpares.lean: what each operation of Machine/Spares.lean leaves alone. -/

namespace Sys2Proof.Machine

theorem State.showCores_keeps (s : State) (wing : Nat) : Keeps 0x100000000000000 s (State.showCores s wing) := by
  unfold State.showCores
  repeat' first
    | with_reducible exact .refl _
    | with_reducible assumption
    | (extract_lets +onlyGivenNames y_; refine Keeps.cut (y := y_) ?_ ?_; rotate_left; clear_value y_; intro _; rotate_left; dsimp -iota only [y_]; clear y_)
    | exact rfl
    | with_reducible intro _
    | with_reducible refine .ite ?_ ?_
    | with_reducible refine (State.setFld_keeps _ _ _ _ ?_).trans (sub_self _) ?_
    | with_reducible refine (State.setReg_keeps _ _ _ _ ?_).trans (sub_self _) ?_
    | with_reducible refine .foldl _ ?_ ?_
    | split
    | dsimp -iota only

theorem State.showSpares_keeps (s : State) : Keeps 0x2002000000000000000500800000000000 s (State.showSpares s) := by
  unfold State.showSpares
  repeat' first
    | with_reducible exact .refl _
    | with_reducible assumption
    | (extract_lets +onlyGivenNames y_; refine Keeps.cut (y := y_) ?_ ?_; rotate_left; clear_value y_; intro _; rotate_left; dsimp -iota only [y_]; clear y_)
    | exact rfl
    | with_reducible intro _
    | with_reducible refine .ite ?_ ?_
    | with_reducible refine (State.showCores_keeps _ _).trans ?_ ?_
    | with_reducible refine (State.showSlots_keeps _).trans ?_ ?_
    | with_reducible refine (State.setFld_keeps _ _ _ _ ?_).trans (sub_self _) ?_
    | with_reducible refine (State.setReg_keeps _ _ _ _ ?_).trans (sub_self _) ?_
    | with_reducible refine .foldl _ ?_ ?_
    | split
    | dsimp -iota only

theorem State.keepMaps_keeps (s : State) : Keeps 0x800000000000000000000000000000000000000000000000000000000000000000000000000000000 s (State.keepMaps s) := by
  unfold State.keepMaps
  repeat' first
    | with_reducible exact .refl _
    | with_reducible assumption
    | exact rfl
    | with_reducible intro _
    | with_reducible refine .ite ?_ ?_
    | split
    | with_reducible apply Keeps.upd rfl
    | exact Or.inl rfl
    | exact Or.inr rfl

theorem State.loadMaps_keeps (s : State) : Keeps 0x400000000000000000000000000000000000000000000000001000000000000000000000000000000 s (State.loadMaps s) := by
  unfold State.loadMaps
  repeat' first
    | with_reducible exact .refl _
    | with_reducible assumption
    | (extract_lets +onlyGivenNames y_; refine Keeps.cut (y := y_) ?_ ?_; rotate_left; clear_value y_; intro _; rotate_left; dsimp -iota only [y_]; clear y_)
    | exact rfl
    | with_reducible intro _
    | with_reducible refine .ite ?_ ?_
    | with_reducible refine (State.setReg_keeps _ _ _ _ ?_).trans (sub_self _) ?_
    | with_reducible refine (State.resetRegs_keeps _ _ ?_).trans (sub_self _) ?_
    | with_reducible refine .foldl _ ?_ ?_
    | (obtain rfl := eq_of_beq ‹(_ == RegName.SPR_MAP) = true›; exact rfl)
    | split
    | dsimp -iota only
    | with_reducible apply Keeps.upd rfl
    | exact Or.inl rfl
    | exact Or.inr rfl

theorem State.slotFailed_keeps (s : State) (wing slot : Nat) : Keeps 0x120000000000000000000000000000000000000000000000000000000000000000000000000000 s (State.slotFailed s wing slot) := by
  unfold State.slotFailed
  repeat' first
    | with_reducible exact .refl _
    | with_reducible assumption
    | (extract_lets +onlyGivenNames y_; refine Keeps.cut (y := y_) ?_ ?_; rotate_left; clear_value y_; intro _; rotate_left; dsimp -iota only [y_]; clear y_)
    | exact rfl
    | with_reducible intro _
    | with_reducible refine .ite ?_ ?_
    | with_reducible refine (State.endAtChunk_keeps _ _ _ _ _).trans ?_ ?_
    | with_reducible refine (State.chunkUpd_keeps _ _ _ _ _).trans ?_ ?_
    | with_reducible refine .foldl _ ?_ ?_
    | split
    | dsimp -iota only

theorem State.laneFailed_keeps (s : State) (wing lane : Nat) : Keeps 0x120000000000000000000000000000000000000000000000000000000000000000000000000000 s (State.laneFailed s wing lane) := by
  unfold State.laneFailed
  repeat' first
    | with_reducible exact .refl _
    | with_reducible assumption
    | (extract_lets +onlyGivenNames y_; refine Keeps.cut (y := y_) ?_ ?_; rotate_left; clear_value y_; intro _; rotate_left; dsimp -iota only [y_]; clear y_)
    | exact rfl
    | with_reducible intro _
    | with_reducible refine .ite ?_ ?_
    | with_reducible refine (State.modGroup_keeps _ _ _).trans ?_ ?_
    | with_reducible refine (State.endAtChunk_keeps _ _ _ _ _).trans ?_ ?_
    | with_reducible refine (State.endCmd_keeps _ _ _ _ _).trans ?_ ?_
    | with_reducible refine .foldl _ ?_ ?_
    | split
    | dsimp -iota only

theorem State.unitWorkEnds_keeps (s : State) (kind wing logical : Nat) : Keeps 0xb28000000000000000000000000000000000000000000000000000000000000b00040000000000 s (State.unitWorkEnds s kind wing logical) := by
  unfold State.unitWorkEnds
  repeat' first
    | with_reducible exact .refl _
    | with_reducible assumption
    | exact rfl
    | with_reducible intro _
    | with_reducible refine .ite ?_ ?_
    | with_reducible refine (State.laneFailed_keeps _ _ _).trans ?_ ?_
    | with_reducible refine (State.slotFailed_keeps _ _ _).trans ?_ ?_
    | with_reducible refine (State.coreFailed_keeps _ _ _).trans ?_ ?_
    | split

theorem execUnitFailed_keeps (kind : Fin 16) (wing : Wing) (logical : Fin 2048) (cause : Fin 256) (row : BitVec 32) (s : State) {z_ : State} (h_ : execUnitFailed kind wing logical cause row s = .next z_) : Keeps 0x2440b28000000000000000000000000000000000000000000a28000000000000000b00040000000000 s z_ := by
  unfold execUnitFailed at h_
  refine act_keeps h_ ?_
  repeat' first
    | with_reducible exact .refl _
    | with_reducible assumption
    | (extract_lets +onlyGivenNames y_; refine Keeps.cut (y := y_) ?_ ?_; rotate_left; clear_value y_; intro _; rotate_left; dsimp -iota only [y_]; clear y_)
    | exact rfl
    | with_reducible intro _
    | with_reducible refine .ite ?_ ?_
    | with_reducible refine (State.unitWorkEnds_keeps _ _ _ _).trans ?_ ?_
    | with_reducible refine (State.showCores_keeps _ _).trans ?_ ?_
    | with_reducible refine (State.sillage_keeps _ _ _ _ _).trans ?_ ?_
    | split
    | dsimp -iota only
    | with_reducible apply Keeps.upd rfl
    | exact Or.inl rfl
    | exact Or.inr rfl

theorem State.mapTakeover_keeps (s : State) (u : UnitFail) : Keeps 0x400000000000000000000000000000000000000000000000001000000000000000000000000000000 s (State.mapTakeover s u) := by
  unfold State.mapTakeover
  repeat' first
    | with_reducible exact .refl _
    | with_reducible assumption
    | (extract_lets +onlyGivenNames y_; refine Keeps.cut (y := y_) ?_ ?_; rotate_left; clear_value y_; intro _; rotate_left; dsimp -iota only [y_]; clear y_)
    | exact rfl
    | with_reducible intro _
    | with_reducible refine .ite ?_ ?_
    | with_reducible refine (State.setReg_keeps _ _ _ _ ?_).trans (sub_self _) ?_
    | split
    | dsimp -iota only
    | with_reducible apply Keeps.upd rfl
    | exact Or.inl rfl
    | exact Or.inr rfl

theorem State.slotLost_keeps (s : State) (wing slot : Nat) : Keeps 0x200000000000000000000000000000000000000000000000000000000000002000000000000000 s (State.slotLost s wing slot) := by
  unfold State.slotLost
  repeat' first
    | with_reducible exact .refl _
    | with_reducible assumption
    | (extract_lets +onlyGivenNames y_; refine Keeps.cut (y := y_) ?_ ?_; rotate_left; clear_value y_; intro _; rotate_left; dsimp -iota only [y_]; clear y_)
    | exact rfl
    | with_reducible intro _
    | with_reducible refine .ite ?_ ?_
    | with_reducible refine (State.markDegraded_keeps _ _).trans ?_ ?_
    | with_reducible refine .foldl _ ?_ ?_
    | split
    | dsimp -iota only

theorem State.sparesCause_keeps (s : State) : Keeps 0x22d0000000000000000000000000000000000000000000000a28020010000000000000001082000002 s (State.sparesCause s) := by
  unfold State.sparesCause
  repeat' first
    | with_reducible exact .refl _
    | with_reducible assumption
    | exact rfl
    | with_reducible intro _
    | with_reducible refine .ite ?_ ?_
    | with_reducible refine (State.foCause_keeps _ _).trans ?_ ?_
    | split

theorem State.unitLost_keeps (s : State) (kind wing logical : Nat) : Keeps 0x62d3612000000000000000000000000000000000000000000a28021010000000002000003282020802 s (State.unitLost s kind wing logical) := by
  unfold State.unitLost
  repeat' first
    | with_reducible exact .refl _
    | with_reducible assumption
    | (extract_lets +onlyGivenNames y_; refine Keeps.cut (y := y_) ?_ ?_; rotate_left; clear_value y_; intro _; rotate_left; dsimp -iota only [y_]; clear y_)
    | exact rfl
    | with_reducible intro _
    | with_reducible refine .ite ?_ ?_
    | with_reducible refine (State.sparesCause_keeps _).trans ?_ ?_
    | with_reducible refine (State.slotLost_keeps _ _ _).trans ?_ ?_
    | with_reducible refine (State.coreLost_keeps _ _ _).trans ?_ ?_
    | with_reducible refine (State.lossOfLink_keeps _ _).trans ?_ ?_
    | with_reducible refine (State.sendMgmt_keeps _ _ _).trans ?_ ?_
    | split
    | dsimp -iota only

theorem State.takeover_keeps (s : State) (u : UnitFail) : Keeps 0x66d3612000000000000000000000000000000000000000000a2d021010000000002000003282020802 s (State.takeover s u) := by
  unfold State.takeover
  repeat' first
    | with_reducible exact .refl _
    | with_reducible assumption
    | (extract_lets +onlyGivenNames y_; refine Keeps.cut (y := y_) ?_ ?_; rotate_left; clear_value y_; intro _; rotate_left; dsimp -iota only [y_]; clear y_)
    | exact rfl
    | with_reducible intro _
    | with_reducible refine .ite ?_ ?_
    | with_reducible refine (State.unitLost_keeps _ _ _ _).trans ?_ ?_
    | with_reducible refine (State.mapTakeover_keeps _ _).trans ?_ ?_
    | with_reducible refine (State.bump_keeps _ _ _ _ ?_).trans (sub_self _) ?_
    | split
    | dsimp -iota only

theorem execSpareTakeover_keeps (s : State) {z_ : State} (h_ : execSpareTakeover s = .next z_) : Keeps 0x66d3612000000000000000000000000000000000000000002a2f021010000000002500803282020802 s z_ := by
  unfold execSpareTakeover at h_
  refine act_keeps h_ ?_
  repeat' first
    | with_reducible exact .refl _
    | with_reducible assumption
    | (extract_lets +onlyGivenNames y_; refine Keeps.cut (y := y_) ?_ ?_; rotate_left; clear_value y_; intro _; rotate_left; dsimp -iota only [y_]; clear y_)
    | exact rfl
    | with_reducible intro _
    | with_reducible refine .ite ?_ ?_
    | with_reducible refine (State.takeover_keeps _ _).trans ?_ ?_
    | with_reducible refine (State.showSpares_keeps _).trans ?_ ?_
    | with_reducible refine .foldl _ ?_ ?_
    | split
    | dsimp -iota only
    | with_reducible apply Keeps.upd rfl
    | exact Or.inl rfl
    | exact Or.inr rfl

theorem execDefectCommit_keeps (s : State) {z_ : State} (h_ : execDefectCommit s = .next z_) : Keeps 0xc00000000000000000000000000000000000000000000000005401000000000000000000000000000 s z_ := by
  unfold execDefectCommit at h_
  refine act_keeps h_ ?_
  repeat' first
    | with_reducible exact .refl _
    | with_reducible assumption
    | (extract_lets +onlyGivenNames y_; refine Keeps.cut (y := y_) ?_ ?_; rotate_left; clear_value y_; intro _; rotate_left; dsimp -iota only [y_]; clear y_)
    | exact rfl
    | with_reducible intro _
    | with_reducible refine .ite ?_ ?_
    | with_reducible refine (State.mapTakeover_keeps _ _).trans ?_ ?_
    | with_reducible refine (State.appendDefect_keeps _ _ _ _ _).trans ?_ ?_
    | with_reducible refine .foldl _ ?_ ?_
    | split
    | dsimp -iota only
    | with_reducible apply Keeps.upd rfl
    | exact Or.inl rfl
    | exact Or.inr rfl

theorem State.disablePort_keeps (s : State) (p : Nat) : Keeps 0x60d3412000000000000000000000000000000000000000000a28000010000000000000003280000c00 s (State.disablePort s p) := by
  unfold State.disablePort
  repeat' first
    | with_reducible exact .refl _
    | with_reducible assumption
    | exact rfl
    | with_reducible intro _
    | with_reducible refine .ite ?_ ?_
    | with_reducible refine (State.dropLink_keeps _ _ _).trans ?_ ?_
    | with_reducible refine (State.announceLoss_keeps _ _).trans ?_ ?_
    | with_reducible refine (State.setFld_keeps _ _ _ _ ?_).trans (sub_self _) ?_
    | split

theorem execEssentialUnitFail_keeps (kind : Fin 16) (wing : Wing) (s : State) {z_ : State} (h_ : execEssentialUnitFail kind wing s = .next z_) : Keeps 0x62d3412000000000000000000000000000000000000000000a28020010000000000000003282000c02 s z_ := by
  unfold execEssentialUnitFail at h_
  refine act_keeps h_ ?_
  repeat' first
    | with_reducible exact .refl _
    | with_reducible assumption
    | (extract_lets +onlyGivenNames y_; refine Keeps.cut (y := y_) ?_ ?_; rotate_left; clear_value y_; intro _; rotate_left; dsimp -iota only [y_]; clear y_)
    | exact rfl
    | with_reducible intro _
    | with_reducible refine .ite ?_ ?_
    | with_reducible refine (State.disablePort_keeps _ _).trans ?_ ?_
    | with_reducible refine (State.sparesCause_keeps _).trans ?_ ?_
    | with_reducible refine .foldl _ ?_ ?_
    | split
    | dsimp -iota only

theorem State.noteFails_keeps (s : State) (fails : List (Nat × Nat × Nat)) : Keeps 0x800000000000000000000000000000000000000000000000004401000000000000000000000000000 s (State.noteFails s fails).1 := by
  unfold State.noteFails
  repeat' first
    | with_reducible exact .refl _
    | with_reducible assumption
    | exact rfl
    | with_reducible intro _
    | with_reducible refine .ite ?_ ?_
    | with_reducible refine .ite1 ?_ ?_
    | with_reducible refine (State.appendDefect_keeps _ _ _ _ _).trans ?_ ?_
    | with_reducible refine .foldl _ ?_ ?_
    | with_reducible refine .foldlFst _ ?_ ?_
    | split

theorem State.renumber_keeps (s : State) (kind wing : Nat) : Keeps 0x1000000000000000000000000000000 s (State.renumber s kind wing) := by
  unfold State.renumber
  repeat' first
    | with_reducible exact .refl _
    | with_reducible assumption
    | (extract_lets +onlyGivenNames y_; refine Keeps.cut (y := y_) ?_ ?_; rotate_left; clear_value y_; intro _; rotate_left; dsimp -iota only [y_]; clear y_)
    | exact rfl
    | with_reducible intro _
    | with_reducible refine .ite ?_ ?_
    | with_reducible refine (State.setReg_keeps _ _ _ _ ?_).trans (sub_self _) ?_
    | with_reducible refine .foldl _ ?_ ?_
    | split
    | dsimp -iota only

theorem State.refill_keeps (s : State) (kind wing : Nat) : Keeps 0x400000000000000000000000000000000000000000000000001000000000000000000000000000000 s (State.refill s kind wing) := by
  unfold State.refill
  repeat' first
    | with_reducible exact .refl _
    | with_reducible assumption
    | exact rfl
    | with_reducible intro _
    | with_reducible refine .ite ?_ ?_
    | with_reducible refine (State.mapTakeover_keeps _ _).trans ?_ ?_
    | with_reducible refine .foldl _ ?_ ?_
    | split

theorem State.assign_keeps (s : State) (t : StartTest) (por : Bool) : Keeps 0x400000000000000000000000000000000000000000000000001000000000000000000000000000000 s (State.assign s t por) := by
  unfold State.assign
  repeat' first
    | with_reducible exact .refl _
    | with_reducible assumption
    | (extract_lets +onlyGivenNames y_; refine Keeps.cut (y := y_) ?_ ?_; rotate_left; clear_value y_; intro _; rotate_left; dsimp -iota only [y_]; clear y_)
    | exact rfl
    | with_reducible intro _
    | with_reducible refine .ite ?_ ?_
    | with_reducible refine (State.refill_keeps _ _ _).trans ?_ ?_
    | with_reducible refine (State.renumber_keeps _ _ _).trans ?_ ?_
    | with_reducible refine (State.loadMaps_keeps _).trans ?_ ?_
    | with_reducible refine .foldl _ ?_ ?_
    | split
    | dsimp -iota only
    | with_reducible apply Keeps.upd rfl
    | exact Or.inl rfl
    | exact Or.inr rfl

theorem State.stewardTest_keeps (s : State) (t : StartTest) (before : List Defect) (essential : Option Nat) (w : Nat) : Keeps 0x6000000000000000000000000000000000 s (State.stewardTest s t before essential w) := by
  unfold State.stewardTest
  repeat' first
    | with_reducible exact .refl _
    | with_reducible assumption
    | (extract_lets +onlyGivenNames y_; refine Keeps.cut (y := y_) ?_ ?_; rotate_left; clear_value y_; intro _; rotate_left; dsimp -iota only [y_]; clear y_)
    | exact rfl
    | with_reducible intro _
    | with_reducible refine .ite ?_ ?_
    | with_reducible refine (State.setFld_keeps _ _ _ _ ?_).trans (sub_self _) ?_
    | split
    | dsimp -iota only

theorem State.startTest_keeps (s : State) (t : StartTest) (por : Bool) : Keeps 0xc00000000000000000000000000000000000000000000006007401200000000000500800000000000 s (State.startTest s t por).1 := by
  unfold State.startTest
  repeat' first
    | with_reducible exact .refl _
    | with_reducible assumption
    | (extract_lets +onlyGivenNames y_; refine Keeps.cut (y := y_) ?_ ?_; rotate_left; clear_value y_; intro _; rotate_left; dsimp -iota only [y_]; clear y_)
    | exact rfl
    | with_reducible intro _
    | with_reducible refine .ite ?_ ?_
    | with_reducible refine .ite1 ?_ ?_
    | with_reducible refine (State.stewardTest_keeps _ _ _ _ _).trans ?_ ?_
    | with_reducible refine (State.assign_keeps _ _ _).trans ?_ ?_
    | with_reducible refine (State.noteFails_keeps _ _).trans ?_ ?_
    | with_reducible refine (Keeps.fst (State.noteFails_keeps _ _) ‹_›).trans ?_ ?_
    | with_reducible refine (State.loadMaps_keeps _).trans ?_ ?_
    | with_reducible refine (State.keepMaps_keeps _).trans ?_ ?_
    | with_reducible refine (State.showSpares_keeps _).trans ?_ ?_
    | with_reducible refine (State.setFld_keeps _ _ _ _ ?_).trans (sub_self _) ?_
    | with_reducible refine .foldl _ ?_ ?_
    | with_reducible refine .foldlFst _ ?_ ?_
    | split
    | dsimp -iota only

theorem State.absentFaults_keeps (s : State) : Keeps 0x4002000000000000000000000000000000000000000000000000000000000000000000000000000000 s (State.absentFaults s) := by
  unfold State.absentFaults
  repeat' first
    | with_reducible exact .refl _
    | with_reducible assumption
    | (extract_lets +onlyGivenNames y_; refine Keeps.cut (y := y_) ?_ ?_; rotate_left; clear_value y_; intro _; rotate_left; dsimp -iota only [y_]; clear y_)
    | exact rfl
    | with_reducible intro _
    | with_reducible refine .ite ?_ ?_
    | with_reducible refine (State.sendMgmt_keeps _ _ _).trans ?_ ?_
    | with_reducible refine .foldl _ ?_ ?_
    | split
    | dsimp -iota only

theorem execComputeResetReady_keeps (s : State) {z_ : State} (h_ : execComputeResetReady s = .next z_) : Keeps 0x200100000000000000000000000000000000000000000002002000000000000000500800000000000 s z_ := by
  unfold execComputeResetReady at h_
  refine act_keeps h_ ?_
  repeat' first
    | with_reducible exact .refl _
    | with_reducible assumption
    | exact rfl
    | with_reducible intro _
    | with_reducible refine .ite ?_ ?_
    | with_reducible refine (State.showSpares_keeps _).trans ?_ ?_
    | with_reducible refine (State.freeHeld_keeps _).trans ?_ ?_
    | split
    | with_reducible apply Keeps.upd rfl
    | exact Or.inl rfl
    | exact Or.inr rfl

theorem execDefectRead_keeps (r : FwRef) (first : BitVec 32) (s : State) {z_ : State} (h_ : execDefectRead r first s = .next z_) : Keeps 0x30000000000000000000000000000000000000000000000000000000000000000000000000000000 s z_ := by
  unfold execDefectRead at h_
  refine act_keeps h_ ?_
  repeat' first
    | with_reducible exact .refl _
    | with_reducible assumption
    | (extract_lets +onlyGivenNames y_; refine Keeps.cut (y := y_) ?_ ?_; rotate_left; clear_value y_; intro _; rotate_left; dsimp -iota only [y_]; clear y_)
    | exact rfl
    | with_reducible intro _
    | with_reducible refine .ite ?_ ?_
    | with_reducible refine (State.finishFw_keeps _ _ _ _ _).trans ?_ ?_
    | split
    | dsimp -iota only

theorem execSpareStatus_keeps (r : FwRef) (s : State) {z_ : State} (h_ : execSpareStatus r s = .next z_) : Keeps 0x30000000000000000000000000000000000000000000000000000000000000000000000000000000 s z_ := by
  unfold execSpareStatus at h_
  refine act_keeps h_ ?_
  repeat' first
    | with_reducible exact .refl _
    | with_reducible assumption
    | (extract_lets +onlyGivenNames y_; refine Keeps.cut (y := y_) ?_ ?_; rotate_left; clear_value y_; intro _; rotate_left; dsimp -iota only [y_]; clear y_)
    | exact rfl
    | with_reducible intro _
    | with_reducible refine .ite ?_ ?_
    | with_reducible refine (State.finishFw_keeps _ _ _ _ _).trans ?_ ?_
    | split
    | dsimp -iota only

theorem execWingStatus_keeps (r : FwRef) (s : State) {z_ : State} (h_ : execWingStatus r s = .next z_) : Keeps 0x30000000000000000000000000000000000000000000000000000000000000000000000000000000 s z_ := by
  unfold execWingStatus at h_
  refine act_keeps h_ ?_
  repeat' first
    | with_reducible exact .refl _
    | with_reducible assumption
    | (extract_lets +onlyGivenNames y_; refine Keeps.cut (y := y_) ?_ ?_; rotate_left; clear_value y_; intro _; rotate_left; dsimp -iota only [y_]; clear y_)
    | exact rfl
    | with_reducible intro _
    | with_reducible refine .ite ?_ ?_
    | with_reducible refine (State.finishFw_keeps _ _ _ _ _).trans ?_ ?_
    | split
    | dsimp -iota only

end Sys2Proof.Machine
end

