-- ==== Sys2Proof/Laws/KeepsPower.lean ====
section
/-! SUPPORT. Sys2Proof/Laws/KeepsPower.lean: what each operation of Machine/Power.lean leaves alone. -/

namespace Sys2Proof.Machine

theorem execResetWarm_keeps (_r : FwRef) (s : State) {z_ : State} (h_ : execResetWarm _r s = .next z_) : Keeps 0x67fffff000000000000000000000000000000000000000007fffffffffffffffffffffffffffffffff s z_ := by
  unfold execResetWarm at h_
  refine act_keeps h_ ?_
  repeat' first
    | with_reducible exact .refl _
    | with_reducible assumption
    | exact rfl
    | with_reducible intro _
    | with_reducible refine .ite ?_ ?_
    | with_reducible refine (State.warmNow_keeps _ _).trans ?_ ?_
    | exact all_bit rfl _
    | split

theorem State.startManager_keeps (s : State) : Keeps 0x10000000000000000000000000000000000000000000000000000000000000000000000080000000 s (State.startManager s) := by
  unfold State.startManager
  repeat' first
    | with_reducible exact .refl _
    | with_reducible assumption
    | exact rfl
    | with_reducible intro _
    | with_reducible refine .ite ?_ ?_
    | with_reducible refine (State.setFld_keeps _ _ _ _ ?_).trans (sub_self _) ?_
    | split
    | with_reducible apply Keeps.upd rfl
    | exact Or.inl rfl
    | exact Or.inr rfl

theorem State.roleNow_keeps (s : State) (source : Nat) : Keeps 0x180000000000000000000000000000000000000000000001000060000000100000000807fa000002 s (State.roleNow s source) := by
  unfold State.roleNow
  repeat' first
    | with_reducible exact .refl _
    | with_reducible assumption
    | (extract_lets +onlyGivenNames y_; refine Keeps.cut (y := y_) ?_ ?_; rotate_left; clear_value y_; intro _; rotate_left; dsimp -iota only [y_]; clear y_)
    | exact rfl
    | with_reducible intro _
    | with_reducible refine .ite ?_ ?_
    | with_reducible refine (State.startManager_keeps _).trans ?_ ?_
    | with_reducible refine (State.setFld_keeps _ _ _ _ ?_).trans (sub_self _) ?_
    | with_reducible refine (State.setReg_keeps _ _ _ _ ?_).trans (sub_self _) ?_
    | with_reducible refine (State.bump_keeps _ _ _ _ ?_).trans (sub_self _) ?_
    | with_reducible refine (State.resetRegs_keeps _ _ ?_).trans (sub_self _) ?_
    | exact (by intro r h; revert h; cases r <;> decide : ∀ r, roleReset r = true → Nat.testBit 0x180000000000000000000000000000000000000000000001000060000000100000000807fa000002 r.code = true) _ ‹_›
    | split
    | dsimp -iota only
    | with_reducible apply Keeps.upd rfl
    | exact Or.inl rfl
    | exact Or.inr rfl

theorem execResetRole_keeps (r : FwRef) (s : State) {z_ : State} (h_ : execResetRole r s = .next z_) : Keeps 0x380000000000000000000000000000000000000000000001000060000000100000000807fa000002 s z_ := by
  unfold execResetRole at h_
  refine act_keeps h_ ?_
  repeat' first
    | with_reducible exact .refl _
    | with_reducible assumption
    | exact rfl
    | with_reducible intro _
    | with_reducible refine .ite ?_ ?_
    | with_reducible refine (State.roleNow_keeps _ _).trans ?_ ?_
    | with_reducible refine (State.finishFw_keeps _ _ _ _ _).trans ?_ ?_
    | split

theorem execManagerWatchdog_keeps (s : State) {z_ : State} (h_ : execManagerWatchdog s = .next z_) : Keeps 0x180000000000000000000000000000000000000000000001000060000000100000000807fa000002 s z_ := by
  unfold execManagerWatchdog at h_
  refine act_keeps h_ ?_
  repeat' first
    | with_reducible exact .refl _
    | with_reducible assumption
    | exact rfl
    | with_reducible intro _
    | with_reducible refine .ite ?_ ?_
    | with_reducible refine (State.roleNow_keeps _ _).trans ?_ ?_
    | split

theorem State.wakeMask_keeps (s : State) (mask : Nat) : Keeps 0x80000000000000000000000000000 s (State.wakeMask s mask) := by
  unfold State.wakeMask
  repeat' first
    | with_reducible exact .refl _
    | with_reducible assumption
    | exact rfl
    | with_reducible intro _
    | with_reducible refine .ite ?_ ?_
    | with_reducible refine (State.setFld_keeps _ _ _ _ ?_).trans (sub_self _) ?_
    | with_reducible refine .foldl _ ?_ ?_
    | split

theorem execPowerActive_keeps (r : FwRef) (mask : Fin 256) (s : State) {z_ : State} (h_ : execPowerActive r mask s = .next z_) : Keeps 0x300000000000000000000000000000000000000000000000000a0000000000000000000000000000 s z_ := by
  unfold execPowerActive at h_
  refine act_keeps h_ ?_
  repeat' first
    | with_reducible exact .refl _
    | with_reducible assumption
    | exact rfl
    | with_reducible intro _
    | with_reducible refine .ite ?_ ?_
    | with_reducible refine (State.wakeMask_keeps _ _).trans ?_ ?_
    | with_reducible refine (State.finishFw_keeps _ _ _ _ _).trans ?_ ?_
    | with_reducible refine (State.setFld_keeps _ _ _ _ ?_).trans (sub_self _) ?_
    | split

theorem execPowerDoze_keeps (r : FwRef) (mask : Fin 256) (s : State) {z_ : State} (h_ : execPowerDoze r mask s = .next z_) : Keeps 0x300000000000000000000000000000000000000000000000000a0000000000000000000000000000 s z_ := by
  unfold execPowerDoze at h_
  refine act_keeps h_ ?_
  repeat' first
    | with_reducible exact .refl _
    | with_reducible assumption
    | exact rfl
    | with_reducible intro _
    | with_reducible refine .ite ?_ ?_
    | with_reducible refine (State.wakeMask_keeps _ _).trans ?_ ?_
    | with_reducible refine (State.finishFw_keeps _ _ _ _ _).trans ?_ ?_
    | with_reducible refine (State.setFld_keeps _ _ _ _ ?_).trans (sub_self _) ?_
    | split

theorem State.goLow_keeps (s : State) (r : FwRef) (mask code : Nat) : Keeps 0x67fffff000000000000000000000000000000000000000007fffffffffffffffffffffffffffffffff s (State.goLow s r mask code) := by
  unfold State.goLow
  repeat' first
    | with_reducible exact .refl _
    | with_reducible assumption
    | (extract_lets +onlyGivenNames y_; refine Keeps.cut (y := y_) ?_ ?_; rotate_left; clear_value y_; intro _; rotate_left; dsimp -iota only [y_]; clear y_)
    | exact rfl
    | with_reducible intro _
    | with_reducible refine .ite ?_ ?_
    | with_reducible refine (State.wakeMask_keeps _ _).trans ?_ ?_
    | with_reducible refine (State.tryLow_keeps _).trans ?_ ?_
    | with_reducible refine (State.finishFw_keeps _ _ _ _ _).trans ?_ ?_
    | exact all_bit rfl _
    | split
    | dsimp -iota only
    | with_reducible apply Keeps.upd rfl
    | exact Or.inl rfl
    | exact Or.inr rfl

theorem execPowerSleep_keeps (r : FwRef) (mask : Fin 256) (s : State) {z_ : State} (h_ : execPowerSleep r mask s = .next z_) : Keeps 0x67fffff000000000000000000000000000000000000000007fffffffffffffffffffffffffffffffff s z_ := by
  unfold execPowerSleep at h_
  refine act_keeps h_ ?_
  repeat' first
    | with_reducible exact .refl _
    | with_reducible assumption
    | exact rfl
    | with_reducible intro _
    | with_reducible refine .ite ?_ ?_
    | with_reducible refine (State.goLow_keeps _ _ _ _).trans ?_ ?_
    | exact all_bit rfl _
    | split

theorem execPowerDeep_keeps (r : FwRef) (mask : Fin 256) (s : State) {z_ : State} (h_ : execPowerDeep r mask s = .next z_) : Keeps 0x67fffff000000000000000000000000000000000000000007fffffffffffffffffffffffffffffffff s z_ := by
  unfold execPowerDeep at h_
  refine act_keeps h_ ?_
  repeat' first
    | with_reducible exact .refl _
    | with_reducible assumption
    | exact rfl
    | with_reducible intro _
    | with_reducible refine .ite ?_ ?_
    | with_reducible refine (State.goLow_keeps _ _ _ _).trans ?_ ?_
    | exact all_bit rfl _
    | split

theorem State.cmpActions_keeps (s : State) (n : Nat) : Keeps 0x22d0000000000000000000000000000000000000000000000a28020010000000000000001082000002 s (State.cmpActions s n) := by
  unfold State.cmpActions
  repeat' first
    | with_reducible exact .refl _
    | with_reducible assumption
    | (extract_lets +onlyGivenNames y_; refine Keeps.cut (y := y_) ?_ ?_; rotate_left; clear_value y_; intro _; rotate_left; dsimp -iota only [y_]; clear y_)
    | exact rfl
    | with_reducible intro _
    | with_reducible refine .ite ?_ ?_
    | with_reducible refine (State.foCause_keeps _ _).trans ?_ ?_
    | with_reducible refine (State.sillage_keeps _ _ _ _ _).trans ?_ ?_
    | with_reducible refine (State.chrTrigger_keeps _ _).trans ?_ ?_
    | split
    | dsimp -iota only
    | with_reducible apply Keeps.upd rfl
    | exact Or.inl rfl
    | exact Or.inr rfl

theorem execComparatorFire_keeps (n : Fin 8) (s : State) {z_ : State} (h_ : execComparatorFire n s = .next z_) : Keeps 0x22d0000000000000000000000000000000000000000000000a28220010000000000000001082000002 s z_ := by
  unfold execComparatorFire at h_
  obtain rfl := Host.Outcome.next.inj h_
  repeat' first
    | with_reducible exact .refl _
    | with_reducible assumption
    | (extract_lets +onlyGivenNames y_; refine Keeps.cut (y := y_) ?_ ?_; rotate_left; clear_value y_; intro _; rotate_left; dsimp -iota only [y_]; clear y_)
    | exact rfl
    | with_reducible intro _
    | with_reducible refine .ite ?_ ?_
    | with_reducible refine (State.cmpActions_keeps _ _).trans ?_ ?_
    | with_reducible refine (State.setFld_keeps _ _ _ _ ?_).trans (sub_self _) ?_
    | split
    | dsimp -iota only

theorem execComparatorClear_keeps (n : Fin 8) (s : State) {z_ : State} (h_ : execComparatorClear n s = .next z_) : Keeps 0x200000000000000000000000000000 s z_ := by
  unfold execComparatorClear at h_
  obtain rfl := Host.Outcome.next.inj h_
  repeat' first
    | with_reducible exact .refl _
    | with_reducible assumption
    | (extract_lets +onlyGivenNames y_; refine Keeps.cut (y := y_) ?_ ?_; rotate_left; clear_value y_; intro _; rotate_left; dsimp -iota only [y_]; clear y_)
    | exact rfl
    | with_reducible intro _
    | with_reducible refine .ite ?_ ?_
    | with_reducible refine (State.setFld_keeps _ _ _ _ ?_).trans (sub_self _) ?_
    | split
    | dsimp -iota only

theorem execHardwareTrip_keeps (s : State) {z_ : State} (h_ : execHardwareTrip s = .next z_) : Keeps 0x6ffffff000000000000000000000000000000000000000007fffffffffffffffffffffffffffffffff s z_ := by
  unfold execHardwareTrip at h_
  obtain rfl := Host.Outcome.next.inj h_
  repeat' first
    | with_reducible exact .refl _
    | with_reducible assumption
    | exact rfl
    | with_reducible intro _
    | with_reducible refine .ite ?_ ?_
    | with_reducible refine (State.trip_keeps _).trans ?_ ?_
    | exact all_bit rfl _
    | split

theorem execForwardOnlyEnter_keeps (r : FwRef) (s : State) {z_ : State} (h_ : execForwardOnlyEnter r s = .next z_) : Keeps 0x22f0000000000000000000000000000000000000000000000a28020010000000000000001082000002 s z_ := by
  unfold execForwardOnlyEnter at h_
  refine act_keeps h_ ?_
  repeat' first
    | with_reducible exact .refl _
    | with_reducible assumption
    | exact rfl
    | with_reducible intro _
    | with_reducible refine .ite ?_ ?_
    | with_reducible refine (State.foCause_keeps _ _).trans ?_ ?_
    | with_reducible refine (State.finishFw_keeps _ _ _ _ _).trans ?_ ?_
    | split

theorem execFwdOnlyContextReset_keeps (s : State) {z_ : State} (h_ : execFwdOnlyContextReset s = .next z_) : Keeps 0x4232ffc000000000000000000000000000000000000000000100000000000011206518efc000000000 s z_ := by
  unfold execFwdOnlyContextReset at h_
  refine act_keeps h_ ?_
  repeat' first
    | with_reducible exact .refl _
    | with_reducible assumption
    | (extract_lets +onlyGivenNames y_; refine Keeps.cut (y := y_) ?_ ?_; rotate_left; clear_value y_; intro _; rotate_left; dsimp -iota only [y_]; clear y_)
    | exact rfl
    | with_reducible intro _
    | with_reducible refine .ite ?_ ?_
    | with_reducible refine (State.resetAll_keeps _ _).trans ?_ ?_
    | with_reducible refine (State.sendMgmt_keeps _ _ _).trans ?_ ?_
    | with_reducible refine .foldl _ ?_ ?_
    | split
    | dsimp -iota only
    | with_reducible apply Keeps.upd rfl
    | exact Or.inl rfl
    | exact Or.inr rfl

theorem execFwdOnlyHalt_keeps (s : State) {z_ : State} (h_ : execFwdOnlyHalt s = .next z_) : Keeps 0x208100000000000000000000000000000000000000000000000000000000000000000800038000000 s z_ := by
  unfold execFwdOnlyHalt at h_
  refine act_keeps h_ ?_
  repeat' first
    | with_reducible exact .refl _
    | with_reducible assumption
    | (extract_lets +onlyGivenNames y_; refine Keeps.cut (y := y_) ?_ ?_; rotate_left; clear_value y_; intro _; rotate_left; dsimp -iota only [y_]; clear y_)
    | exact rfl
    | with_reducible intro _
    | with_reducible refine .ite ?_ ?_
    | with_reducible refine (State.freeHeld_keeps _).trans ?_ ?_
    | with_reducible refine (State.resetRegs_keeps _ _ ?_).trans (sub_self _) ?_
    | ((have hc := ‹(_ || _ || _) = true›; simp only [Bool.or_eq_true, beq_iff_eq] at hc); obtain (rfl | rfl) | rfl := hc <;> exact rfl)
    | split
    | dsimp -iota only
    | with_reducible apply Keeps.upd rfl
    | exact Or.inl rfl
    | exact Or.inr rfl

theorem State.leaveForwardOnly_keeps (s : State) (r : FwRef) : Keeps 0x62f2080000000000000000000000000000000000000000000a680200017f0004000000000000000000 s (State.leaveForwardOnly s r) := by
  unfold State.leaveForwardOnly
  repeat' first
    | with_reducible exact .refl _
    | with_reducible assumption
    | (extract_lets +onlyGivenNames y_; refine Keeps.cut (y := y_) ?_ ?_; rotate_left; clear_value y_; intro _; rotate_left; dsimp -iota only [y_]; clear y_)
    | exact rfl
    | with_reducible intro _
    | with_reducible refine .ite ?_ ?_
    | with_reducible refine (State.sendStatus_keeps _).trans ?_ ?_
    | with_reducible refine (State.fwRestart_keeps _ _).trans ?_ ?_
    | with_reducible refine (State.sillage_keeps _ _ _ _ _).trans ?_ ?_
    | with_reducible refine (State.setFld_keeps _ _ _ _ ?_).trans (sub_self _) ?_
    | split
    | dsimp -iota only
    | with_reducible apply Keeps.upd rfl
    | exact Or.inl rfl
    | exact Or.inr rfl

theorem execForwardOnlyLeave_keeps (r : FwRef) (s : State) {z_ : State} (h_ : execForwardOnlyLeave r s = .next z_) : Keeps 0x62f2080000000000000000000000000000000000000000000a680200017f0004000000000000000000 s z_ := by
  unfold execForwardOnlyLeave at h_
  refine act_keeps h_ ?_
  repeat' first
    | with_reducible exact .refl _
    | with_reducible assumption
    | (extract_lets +onlyGivenNames y_; refine Keeps.cut (y := y_) ?_ ?_; rotate_left; clear_value y_; intro _; rotate_left; dsimp -iota only [y_]; clear y_)
    | exact rfl
    | with_reducible intro _
    | with_reducible refine .ite ?_ ?_
    | with_reducible refine (State.leaveForwardOnly_keeps _ _).trans ?_ ?_
    | with_reducible refine (State.finishFw_keeps _ _ _ _ _).trans ?_ ?_
    | split
    | dsimp -iota only

theorem execEscalation_keeps (r : FwRef) (ctxResets ctxWindow chipResets chipWindow computeResets computeWindow : Fin 65536) (s : State) {z_ : State} (h_ : execEscalation r ctxResets ctxWindow chipResets chipWindow computeResets computeWindow s = .next z_) : Keeps 0x30000000000000000000000000000000000000000000000000008000000000000000000000000000 s z_ := by
  unfold execEscalation at h_
  refine act_keeps h_ ?_
  repeat' first
    | with_reducible exact .refl _
    | with_reducible assumption
    | (extract_lets +onlyGivenNames y_; refine Keeps.cut (y := y_) ?_ ?_; rotate_left; clear_value y_; intro _; rotate_left; dsimp -iota only [y_]; clear y_)
    | exact rfl
    | with_reducible intro _
    | with_reducible refine .ite ?_ ?_
    | with_reducible refine (State.finishFw_keeps _ _ _ _ _).trans ?_ ?_
    | with_reducible refine (State.setFld_keeps _ _ _ _ ?_).trans (sub_self _) ?_
    | split
    | dsimp -iota only

theorem State.showPower_keeps (s : State) (watts vin temp : Nat) : Keeps 0x200000000000000000000000000000000000000000000000000040000000000000000000000000000 s (State.showPower s watts vin temp) := by
  unfold State.showPower
  repeat' first
    | with_reducible exact .refl _
    | with_reducible assumption
    | (extract_lets +onlyGivenNames y_; refine Keeps.cut (y := y_) ?_ ?_; rotate_left; clear_value y_; intro _; rotate_left; dsimp -iota only [y_]; clear y_)
    | exact rfl
    | with_reducible intro _
    | with_reducible refine .ite ?_ ?_
    | with_reducible refine (State.setReg_keeps _ _ _ _ ?_).trans (sub_self _) ?_
    | split
    | dsimp -iota only
    | with_reducible apply Keeps.upd rfl
    | exact Or.inl rfl
    | exact Or.inr rfl

theorem execPowerMeasure_keeps (watts vin temp : Fin 65536) (s : State) {z_ : State} (h_ : execPowerMeasure watts vin temp s = .next z_) :
    Keeps 0x200000000000000000000000000000000000000000000000000040000000000000000000000000000 s z_ := by
  unfold execPowerMeasure at h_
  split at h_
  · cases h_
  · refine act_keeps h_ ?_
    refine (State.showPower_keeps _ _ _ _).trans rfl ?_
    apply Keeps.upd rfl (.refl s) rfl <;> first | exact .inl rfl | exact .inr rfl

theorem execPowerLimit_keeps (s : State) {z_ : State} (h_ : execPowerLimit s = .next z_) : Keeps 0x22d0000000000000000000000000000000000000000000000a28020010000000000000001082000002 s z_ := by
  unfold execPowerLimit at h_
  refine act_keeps h_ ?_
  repeat' first
    | with_reducible exact .refl _
    | with_reducible assumption
    | exact rfl
    | with_reducible intro _
    | with_reducible refine .ite ?_ ?_
    | with_reducible refine (State.foCause_keeps _ _).trans ?_ ?_
    | with_reducible refine (State.sillage_keeps _ _ _ _ _).trans ?_ ?_
    | split

theorem execFirmwareWatchdogLimit_keeps (stuck : Bool) (s : State) {z_ : State} (h_ : execFirmwareWatchdogLimit stuck s = .next z_) : Keeps 0x22d0000000000000000000000000000000000000000000000a28020010000000000000001082000002 s z_ := by
  unfold execFirmwareWatchdogLimit at h_
  refine act_keeps h_ ?_
  repeat' first
    | with_reducible exact .refl _
    | with_reducible assumption
    | (extract_lets +onlyGivenNames y_; refine Keeps.cut (y := y_) ?_ ?_; rotate_left; clear_value y_; intro _; rotate_left; dsimp -iota only [y_]; clear y_)
    | exact rfl
    | with_reducible intro _
    | with_reducible refine .ite ?_ ?_
    | with_reducible refine (State.foCause_keeps _ _).trans ?_ ?_
    | split
    | dsimp -iota only

end Sys2Proof.Machine
end

