-- ==== Sys2Proof/Laws/KeepsReset.lean ====
section
/-! SUPPORT. Sys2Proof/Laws/KeepsReset.lean: what each operation of Machine/Reset.lean leaves alone. -/

namespace Sys2Proof.Machine

theorem State.sample_keeps (s : State) (x : Straps) : Keeps 0x1000000000000000000000000000000000000000000000000000000000000100000000000002000000 s (State.sample s x) := by
  unfold State.sample
  repeat' first
    | with_reducible exact .refl _
    | with_reducible assumption
    | (extract_lets +onlyGivenNames y_; refine Keeps.cut (y := y_) ?_ ?_; rotate_left; clear_value y_; intro _; rotate_left; dsimp -iota only [y_]; clear y_)
    | exact rfl
    | with_reducible intro _
    | with_reducible refine .ite ?_ ?_
    | with_reducible refine (State.setFld_keeps _ _ _ _ ?_).trans (sub_self _) ?_
    | split
    | dsimp -iota only
    | with_reducible apply Keeps.upd rfl
    | exact Or.inl rfl
    | exact Or.inr rfl

theorem State.startInstar_keeps (s : State) : Keeps 0x100000000000000000000000000000000000000000000000000000000000000000000000000000000 s (State.startInstar s) := by
  unfold State.startInstar
  repeat' first
    | with_reducible exact .refl _
    | with_reducible assumption
    | exact rfl
    | with_reducible intro _
    | with_reducible refine .ite ?_ ?_
    | split
    | with_reducible apply Keeps.upd rfl
    | exact Or.inl rfl
    | exact Or.inr rfl

theorem State.setCauseOf_keeps (s : State) (kind source wake : Nat) (held : Bool) : Keeps 0x2000000000000000000000000000 s (State.setCauseOf s kind source wake held) := by
  unfold State.setCauseOf
  repeat' first
    | with_reducible exact .refl _
    | with_reducible assumption
    | exact rfl
    | with_reducible intro _
    | with_reducible refine .ite ?_ ?_
    | with_reducible refine (State.setReg_keeps _ _ _ _ ?_).trans (sub_self _) ?_
    | split

theorem State.releasePor_keeps (s : State) (x : Straps) : Keeps 0x1300000000000000000000000000000000000000000000000000002000000100000000000002000000 s (State.releasePor s x) := by
  unfold State.releasePor
  repeat' first
    | with_reducible exact .refl _
    | with_reducible assumption
    | (extract_lets +onlyGivenNames y_; refine Keeps.cut (y := y_) ?_ ?_; rotate_left; clear_value y_; intro _; rotate_left; dsimp -iota only [y_]; clear y_)
    | exact rfl
    | with_reducible intro _
    | with_reducible refine .ite ?_ ?_
    | with_reducible refine (State.setCauseOf_keeps _ _ _ _ _).trans ?_ ?_
    | with_reducible refine (State.startInstar_keeps _).trans ?_ ?_
    | with_reducible refine (State.sample_keeps _ _).trans ?_ ?_
    | split
    | dsimp -iota only
    | with_reducible apply Keeps.upd rfl
    | exact Or.inl rfl
    | exact Or.inr rfl

theorem execPorAssert_keeps (powerUp : Bool) (s : State) {z_ : State} (h_ : execPorAssert powerUp s = .next z_) : Keeps 0xfffffff000000000000000000000000000000000000000007fffffffffffffffffffffffffffffffff s z_ := by
  unfold execPorAssert at h_
  obtain rfl := Host.Outcome.next.inj h_
  repeat' first
    | with_reducible exact .refl _
    | with_reducible assumption
    | (extract_lets +onlyGivenNames y_; refine Keeps.cut (y := y_) ?_ ?_; rotate_left; clear_value y_; intro _; rotate_left; dsimp -iota only [y_]; clear y_)
    | exact rfl
    | with_reducible intro _
    | with_reducible refine .ite ?_ ?_
    | with_reducible refine (State.porNow_keeps _ _).trans ?_ ?_
    | exact all_bit rfl _
    | split
    | dsimp -iota only
    | with_reducible apply Keeps.upd rfl
    | exact Or.inl rfl
    | exact Or.inr rfl

theorem execResetRelease_keeps (ok : Bool) (x : Straps) (s : State) {z_ : State} (h_ : execResetRelease ok x s = .next z_) : Keeps 0x1300000000000000000000000000000000000000000000000000002000000100000000000002000000 s z_ := by
  unfold execResetRelease at h_
  obtain rfl := Host.Outcome.next.inj h_
  repeat' first
    | with_reducible exact .refl _
    | with_reducible assumption
    | (extract_lets +onlyGivenNames y_; refine Keeps.cut (y := y_) ?_ ?_; rotate_left; clear_value y_; intro _; rotate_left; dsimp -iota only [y_]; clear y_)
    | exact rfl
    | with_reducible intro _
    | with_reducible refine .ite ?_ ?_
    | with_reducible refine (State.releasePor_keeps _ _).trans ?_ ?_
    | split
    | dsimp -iota only
    | with_reducible apply Keeps.upd rfl
    | exact Or.inl rfl
    | exact Or.inr rfl

theorem execWarmAssert_keeps (s : State) {z_ : State} (h_ : execWarmAssert s = .next z_) : Keeps 0x67fffff000000000000000000000000000000000000000007fffffffffffffffffffffffffffffffff s z_ := by
  unfold execWarmAssert at h_
  obtain rfl := Host.Outcome.next.inj h_
  repeat' first
    | with_reducible exact .refl _
    | with_reducible assumption
    | exact rfl
    | with_reducible intro _
    | with_reducible refine .ite ?_ ?_
    | with_reducible refine (State.warmNow_keeps _ _).trans ?_ ?_
    | exact all_bit rfl _
    | split

theorem State.poolLost_keeps (s : State) : Keeps 0x40840000000000000000000000000000000000000000000018000000000000000000000000000000 s (State.poolLost s) := by
  unfold State.poolLost
  repeat' first
    | with_reducible exact .refl _
    | with_reducible assumption
    | (extract_lets +onlyGivenNames y_; refine Keeps.cut (y := y_) ?_ ?_; rotate_left; clear_value y_; intro _; rotate_left; dsimp -iota only [y_]; clear y_)
    | exact rfl
    | with_reducible intro _
    | with_reducible refine .ite ?_ ?_
    | with_reducible refine (State.silOldest_keeps _).trans ?_ ?_
    | with_reducible refine (State.setFld_keeps _ _ _ _ ?_).trans (sub_self _) ?_
    | with_reducible apply Keeps.upd rfl
    | exact Or.inl rfl
    | exact Or.inl ⟨rfl, Store.wf_dropIf _ _ _⟩
    | split
    | dsimp -iota only
    | with_reducible apply Keeps.upd rfl
    | exact Or.inl rfl
    | exact Or.inr rfl

theorem State.comeWarm_keeps (s : State) (kind source : Nat) (busOk : Bool) (x : Straps) : Keeps 0x1340840000000000000000000000000000000000000000000018022040000100000000000002000000 s (State.comeWarm s kind source busOk x) := by
  unfold State.comeWarm
  repeat' first
    | with_reducible exact .refl _
    | with_reducible assumption
    | (extract_lets +onlyGivenNames y_; refine Keeps.cut (y := y_) ?_ ?_; rotate_left; clear_value y_; intro _; rotate_left; dsimp -iota only [y_]; clear y_)
    | exact rfl
    | with_reducible intro _
    | with_reducible refine .ite ?_ ?_
    | with_reducible refine (State.poolLost_keeps _).trans ?_ ?_
    | with_reducible refine (State.setCauseOf_keeps _ _ _ _ _).trans ?_ ?_
    | with_reducible refine (State.startInstar_keeps _).trans ?_ ?_
    | with_reducible refine (State.sample_keeps _ _).trans ?_ ?_
    | with_reducible refine (State.setFld_keeps _ _ _ _ ?_).trans (sub_self _) ?_
    | split
    | dsimp -iota only
    | with_reducible apply Keeps.upd rfl
    | exact Or.inl rfl
    | exact Or.inr rfl

theorem execWarmRelease_keeps (busOk : Bool) (x : Straps) (s : State) {z_ : State} (h_ : execWarmRelease busOk x s = .next z_) : Keeps 0x1340840000000000000000000000000000000000000000000018026040000100000000000002000000 s z_ := by
  unfold execWarmRelease at h_
  obtain rfl := Host.Outcome.next.inj h_
  repeat' first
    | with_reducible exact .refl _
    | with_reducible assumption
    | (extract_lets +onlyGivenNames y_; refine Keeps.cut (y := y_) ?_ ?_; rotate_left; clear_value y_; intro _; rotate_left; dsimp -iota only [y_]; clear y_)
    | exact rfl
    | with_reducible intro _
    | with_reducible refine .ite ?_ ?_
    | with_reducible refine (State.comeWarm_keeps _ _ _ _ _).trans ?_ ?_
    | with_reducible refine (State.bump_keeps _ _ _ _ ?_).trans (sub_self _) ?_
    | split
    | dsimp -iota only

theorem execVinLoss_keeps (s : State) {z_ : State} (h_ : execVinLoss s = .next z_) : Keeps 0xfffffff000000000000000000000000000000000000000007fffffffffffffffffffffffffffffffff s z_ := by
  unfold execVinLoss at h_
  obtain rfl := Host.Outcome.next.inj h_
  repeat' first
    | with_reducible exact .refl _
    | with_reducible assumption
    | exact rfl
    | with_reducible intro _
    | with_reducible refine .ite ?_ ?_
    | with_reducible refine (State.porNow_keeps _ _).trans ?_ ?_
    | exact all_bit rfl _
    | split

theorem State.holdPor_keeps (s : State) (p : PowerSt) (source : Nat) : Keeps 0xfffffff000000000000000000000000000000000000000007fffffffffffffffffffffffffffffffff s (State.holdPor s p source) := by
  unfold State.holdPor
  repeat' first
    | with_reducible exact .refl _
    | with_reducible assumption
    | exact rfl
    | with_reducible intro _
    | with_reducible refine .ite ?_ ?_
    | with_reducible refine (State.porNow_keeps _ _).trans ?_ ?_
    | exact all_bit rfl _
    | split
    | with_reducible apply Keeps.upd rfl
    | exact Or.inl rfl
    | exact Or.inr rfl

theorem execSysclkLoss_keeps (s : State) {z_ : State} (h_ : execSysclkLoss s = .next z_) : Keeps 0xfffffff000000000000000000000000000000000000000007fffffffffffffffffffffffffffffffff s z_ := by
  unfold execSysclkLoss at h_
  obtain rfl := Host.Outcome.next.inj h_
  repeat' first
    | with_reducible exact .refl _
    | with_reducible assumption
    | exact rfl
    | with_reducible intro _
    | with_reducible refine .ite ?_ ?_
    | with_reducible refine (State.holdPor_keeps _ _ _).trans ?_ ?_
    | exact all_bit rfl _
    | split
    | with_reducible apply Keeps.upd rfl
    | exact Or.inl rfl
    | exact Or.inr rfl

theorem execSysclkReturn_keeps (x : Straps) (s : State) {z_ : State} (h_ : execSysclkReturn x s = .next z_) : Keeps 0x1300000000000000000000000000000000000000000000000000002000000100000000000002000000 s z_ := by
  unfold execSysclkReturn at h_
  obtain rfl := Host.Outcome.next.inj h_
  repeat' first
    | with_reducible exact .refl _
    | with_reducible assumption
    | exact rfl
    | with_reducible intro _
    | with_reducible refine .ite ?_ ?_
    | with_reducible refine (State.releasePor_keeps _ _).trans ?_ ?_
    | split
    | with_reducible apply Keeps.upd rfl
    | exact Or.inl rfl
    | exact Or.inr rfl

theorem execDebugExtest_keeps (hold : Bool) (x : Straps) (s : State) {z_ : State} (h_ : execDebugExtest hold x s = .next z_) : Keeps 0xfffffff000000000000000000000000000000000000000007fffffffffffffffffffffffffffffffff s z_ := by
  unfold execDebugExtest at h_
  obtain rfl := Host.Outcome.next.inj h_
  repeat' first
    | with_reducible exact .refl _
    | with_reducible assumption
    | exact rfl
    | with_reducible intro _
    | with_reducible refine .ite ?_ ?_
    | with_reducible refine (State.holdPor_keeps _ _ _).trans ?_ ?_
    | with_reducible refine (State.releasePor_keeps _ _).trans ?_ ?_
    | exact all_bit rfl _
    | split
    | with_reducible apply Keeps.upd rfl
    | exact Or.inl rfl
    | exact Or.inr rfl

theorem execSrefclkLoss_keeps (k : Fin 8) (s : State) {z_ : State} (h_ : execSrefclkLoss k s = .next z_) : Keeps 0x62d3c92000000000000000000000000000000000000000000a680010197f00a4000000003280020800 s z_ := by
  unfold execSrefclkLoss at h_
  obtain rfl := Host.Outcome.next.inj h_
  repeat' first
    | with_reducible exact .refl _
    | with_reducible assumption
    | (extract_lets +onlyGivenNames y_; refine Keeps.cut (y := y_) ?_ ?_; rotate_left; clear_value y_; intro _; rotate_left; dsimp -iota only [y_]; clear y_)
    | exact rfl
    | with_reducible intro _
    | with_reducible refine .ite ?_ ?_
    | with_reducible refine (State.antGo_keeps _ _ _).trans ?_ ?_
    | with_reducible refine (State.lossOfLink_keeps _ _).trans ?_ ?_
    | with_reducible refine .foldl _ ?_ ?_
    | split
    | dsimp -iota only
    | with_reducible apply Keeps.upd rfl
    | exact Or.inl rfl
    | exact Or.inr rfl

theorem execSrefclkReturn_keeps (k : Fin 8) (s : State) {z_ : State} (h_ : execSrefclkReturn k s = .next z_) : Keeps 0x200000000000000000000000000000000000000000000000000000000000000000000000000000000 s z_ := by
  unfold execSrefclkReturn at h_
  obtain rfl := Host.Outcome.next.inj h_
  repeat' first
    | with_reducible exact .refl _
    | with_reducible assumption
    | exact rfl
    | with_reducible intro _
    | with_reducible refine .ite ?_ ?_
    | split
    | with_reducible apply Keeps.upd rfl
    | exact Or.inl rfl
    | exact Or.inr rfl

end Sys2Proof.Machine
end

