-- ==== Sys2Proof/Laws/KeepsInstar.lean ====
section
/-! SUPPORT. Sys2Proof/Laws/KeepsInstar.lean: what each operation of Machine/Instar.lean leaves alone. -/

namespace Sys2Proof.Machine

theorem State.beginStage_keeps (s : State) (n : Nat) (fresh : Bool) : Keeps 0x100000000000000000000000000000000000000000000000000000040000000000000000000000000 s (State.beginStage s n fresh) := by
  unfold State.beginStage
  repeat' first
    | with_reducible exact .refl _
    | with_reducible assumption
    | (extract_lets +onlyGivenNames y_; refine Keeps.cut (y := y_) ?_ ?_; rotate_left; clear_value y_; intro _; rotate_left; dsimp -iota only [y_]; clear y_)
    | exact rfl
    | with_reducible intro _
    | with_reducible refine .ite ?_ ?_
    | with_reducible refine (State.setFld_keeps _ _ _ _ ?_).trans (sub_self _) ?_
    | split
    | dsimp -iota only
    | with_reducible apply Keeps.upd rfl
    | exact Or.inl rfl
    | exact Or.inr rfl

theorem State.stageDone_keeps (s : State) : Keeps 0x2040000000000000000000000000000000000000000000000a28000040000000000000000000000000 s (State.stageDone s) := by
  unfold State.stageDone
  repeat' first
    | with_reducible exact .refl _
    | with_reducible assumption
    | (extract_lets +onlyGivenNames y_; refine Keeps.cut (y := y_) ?_ ?_; rotate_left; clear_value y_; intro _; rotate_left; dsimp -iota only [y_]; clear y_)
    | exact rfl
    | with_reducible intro _
    | with_reducible refine .ite ?_ ?_
    | with_reducible refine (State.sillage_keeps _ _ _ _ _).trans ?_ ?_
    | with_reducible refine (State.setFld_keeps _ _ _ _ ?_).trans (sub_self _) ?_
    | split
    | dsimp -iota only

theorem State.stageFailed_keeps (s0 : State) (code unit : Nat) : Keeps 0x2140000000000000000000000000000000000000000000000a28000040000000000000000000000000 s0 (State.stageFailed s0 code unit) := by
  unfold State.stageFailed
  repeat' first
    | with_reducible exact .refl _
    | with_reducible assumption
    | (extract_lets +onlyGivenNames y_; refine Keeps.cut (y := y_) ?_ ?_; rotate_left; clear_value y_; intro _; rotate_left; dsimp -iota only [y_]; clear y_)
    | exact rfl
    | with_reducible intro _
    | with_reducible refine .ite ?_ ?_
    | with_reducible refine (State.sillage_keeps _ _ _ _ _).trans ?_ ?_
    | with_reducible refine (State.setFld_keeps _ _ _ _ ?_).trans (sub_self _) ?_
    | split
    | dsimp -iota only
    | with_reducible apply Keeps.upd rfl
    | exact Or.inl rfl
    | exact Or.inr rfl

theorem State.storeInsCtl_keeps (s : State) (v : Word) : Keeps 0x20000000000000000000000000 s (State.storeInsCtl s v) := by
  unfold State.storeInsCtl
  repeat' first
    | with_reducible exact .refl _
    | with_reducible assumption
    | (extract_lets +onlyGivenNames y_; refine Keeps.cut (y := y_) ?_ ?_; rotate_left; clear_value y_; intro _; rotate_left; dsimp -iota only [y_]; clear y_)
    | exact rfl
    | with_reducible intro _
    | with_reducible refine .ite ?_ ?_
    | with_reducible refine (State.setFld_keeps _ _ _ _ ?_).trans (sub_self _) ?_
    | split
    | dsimp -iota only

theorem State.goWrite_keeps {m : Nat} (s : State) (v : Word) (n : Nat) (ok : Bool) (f : State → State) (hm : sub 0x20000000000000000000000000 m = true) (hf : ∀ t, Keeps m t (f t)) : Keeps m s ((s.goWrite v n ok f).1) := by
  have h1 : Keeps m s (s.storeInsCtl v) := (State.storeInsCtl_keeps _ _).trans (sub_left hm rfl) (.refl s)
  exact .ite (fun _ => h1) fun _ => .ite (fun _ => (hf _).trans (sub_self _) h1) fun _ => .refl s

theorem State.dropRecord_keeps (s : State) (k : Nat) : Keeps 0x2840000000000000000000000000000000000000000000000a28000000000000000000000000000000 s (State.dropRecord s k) := by
  unfold State.dropRecord
  repeat' first
    | with_reducible exact .refl _
    | with_reducible assumption
    | (extract_lets +onlyGivenNames y_; refine Keeps.cut (y := y_) ?_ ?_; rotate_left; clear_value y_; intro _; rotate_left; dsimp -iota only [y_]; clear y_)
    | exact rfl
    | with_reducible intro _
    | with_reducible refine .ite ?_ ?_
    | with_reducible refine (State.sillage_keeps _ _ _ _ _).trans ?_ ?_
    | split
    | dsimp -iota only
    | with_reducible apply Keeps.upd rfl
    | exact Or.inl rfl
    | exact Or.inr rfl

theorem State.loadCocoon_keeps (s : State) (deviceId : Word) : Keeps 0x10401800000f00100000000000000000 s (State.loadCocoon s deviceId) := by
  unfold State.loadCocoon
  repeat' first
    | with_reducible exact .refl _
    | with_reducible assumption
    | (extract_lets +onlyGivenNames y_; refine Keeps.cut (y := y_) ?_ ?_; rotate_left; clear_value y_; intro _; rotate_left; dsimp -iota only [y_]; clear y_)
    | exact rfl
    | with_reducible intro _
    | with_reducible refine .ite ?_ ?_
    | with_reducible refine (State.setFld_keeps _ _ _ _ ?_).trans (sub_self _) ?_
    | with_reducible refine (State.setReg_keeps _ _ _ _ ?_).trans (sub_self _) ?_
    | with_reducible refine .foldl _ ?_ ?_
    | split
    | dsimp -iota only

theorem execStage1Done_keeps (pufOk certOk : Bool) (deviceId : Word) (bad : List (Fin 6)) (s : State) {z_ : State} (h_ : execStage1Done pufOk certOk deviceId bad s = .next z_) : Keeps 0x2940000000000000000000000000000000000000000000000a38401840000f00100000000000000000 s z_ := by
  unfold execStage1Done at h_
  refine act_keeps h_ ?_
  repeat' first
    | with_reducible exact .refl _
    | with_reducible assumption
    | (extract_lets +onlyGivenNames y_; refine Keeps.cut (y := y_) ?_ ?_; rotate_left; clear_value y_; intro _; rotate_left; dsimp -iota only [y_]; clear y_)
    | exact rfl
    | with_reducible intro _
    | with_reducible refine .ite ?_ ?_
    | with_reducible refine (State.loadCocoon_keeps _ _).trans ?_ ?_
    | with_reducible refine (State.dropRecord_keeps _ _).trans ?_ ?_
    | with_reducible refine (State.stageFailed_keeps _ _ _).trans ?_ ?_
    | with_reducible refine (State.stageDone_keeps _).trans ?_ ?_
    | with_reducible refine (State.beginStage_keeps _ _ _).trans ?_ ?_
    | with_reducible refine (State.setFld_keeps _ _ _ _ ?_).trans (sub_self _) ?_
    | with_reducible refine .foldl _ ?_ ?_
    | split
    | dsimp -iota only
    | with_reducible apply Keeps.upd rfl
    | exact Or.inl rfl
    | exact Or.inr rfl

theorem execStage2Done_keeps (romOk : Bool) (rows : Nat) (s : State) {z_ : State} (h_ : execStage2Done romOk rows s = .next z_) : Keeps 0x2740400000000000000000000000000000000000000000000a28000040000100000000000000000000 s z_ := by
  unfold execStage2Done at h_
  refine act_keeps h_ ?_
  repeat' first
    | with_reducible exact .refl _
    | with_reducible assumption
    | (extract_lets +onlyGivenNames y_; refine Keeps.cut (y := y_) ?_ ?_; rotate_left; clear_value y_; intro _; rotate_left; dsimp -iota only [y_]; clear y_)
    | exact rfl
    | with_reducible intro _
    | with_reducible refine .ite ?_ ?_
    | with_reducible refine (State.stageFailed_keeps _ _ _).trans ?_ ?_
    | with_reducible refine (State.stageDone_keeps _).trans ?_ ?_
    | with_reducible refine (State.measureBoot_keeps _ _ _).trans ?_ ?_
    | with_reducible refine (State.setFld_keeps _ _ _ _ ?_).trans (sub_self _) ?_
    | split
    | dsimp -iota only
    | with_reducible apply Keeps.upd rfl
    | exact Or.inl rfl
    | exact Or.inr rfl

theorem State.goFirmware_keeps (s : State) : Keeps 0x2140000000000000000000000000000000000000000000000a28000040000000000000000000000000 s (State.goFirmware s) := by
  unfold State.goFirmware
  repeat' first
    | with_reducible exact .refl _
    | with_reducible assumption
    | (extract_lets +onlyGivenNames y_; refine Keeps.cut (y := y_) ?_ ?_; rotate_left; clear_value y_; intro _; rotate_left; dsimp -iota only [y_]; clear y_)
    | exact rfl
    | with_reducible intro _
    | with_reducible refine .ite ?_ ?_
    | with_reducible refine (State.stageFailed_keeps _ _ _).trans ?_ ?_
    | with_reducible refine (State.beginStage_keeps _ _ _).trans ?_ ?_
    | split
    | dsimp -iota only
    | with_reducible apply Keeps.upd rfl
    | exact Or.inl rfl
    | exact Or.inr rfl

theorem execInsGoFirmware_keeps (owner : Owner) (value : Word) (s : State) {z_ : State} (h_ : execInsGoFirmware owner value s = .next z_) : Keeps 0x6140000000000000000000000000000000000000000000000a28000060000000000000000000000000 s z_ := by
  unfold execInsGoFirmware at h_
  refine accessBy_keeps h_ rfl ?_
  repeat' first
    | with_reducible exact .refl _
    | with_reducible assumption
    | exact rfl
    | with_reducible intro _
    | with_reducible refine .ite ?_ ?_
    | with_reducible refine (State.goFirmware_keeps _).trans ?_ ?_
    | with_reducible refine (State.goWrite_keeps _ _ _ _ _ ?_ ?_).trans (sub_self _) ?_
    | with_reducible refine (Keeps.fst (State.goWrite_keeps _ _ _ _ _ ?_ ?_) ‹_›).trans (sub_self _) ?_
    | split

theorem State.startImage_keeps (s : State) (build : Nat) (digest : BitVec 256) : Keeps 0x20400000000000000000000000000000000000000000002000000080000100000000000000000000 s (State.startImage s build digest) := by
  unfold State.startImage
  repeat' first
    | with_reducible exact .refl _
    | with_reducible assumption
    | (extract_lets +onlyGivenNames y_; refine Keeps.cut (y := y_) ?_ ?_; rotate_left; clear_value y_; intro _; rotate_left; dsimp -iota only [y_]; clear y_)
    | exact rfl
    | with_reducible intro _
    | with_reducible refine .ite ?_ ?_
    | with_reducible refine (State.activate'_keeps _ _).trans ?_ ?_
    | with_reducible refine (State.measureSteward_keeps _ _).trans ?_ ?_
    | with_reducible refine (State.measureBoot_keeps _ _ _).trans ?_ ?_
    | with_reducible refine (State.setFld_keeps _ _ _ _ ?_).trans (sub_self _) ?_
    | with_reducible refine .foldl _ ?_ ?_
    | split
    | dsimp -iota only
    | with_reducible apply Keeps.upd rfl
    | exact Or.inl rfl
    | exact Or.inr rfl

theorem execStage3Done_keeps (verdict : Fin 3) (build : BitVec 32) (s : State) {z_ : State} (h_ : execStage3Done verdict build s = .next z_) : Keeps 0x2160400000000000000000000000000000000000000000002a280000c0000100000000000000000000 s z_ := by
  unfold execStage3Done at h_
  refine act_keeps h_ ?_
  repeat' first
    | with_reducible exact .refl _
    | with_reducible assumption
    | exact rfl
    | with_reducible intro _
    | with_reducible refine .ite ?_ ?_
    | with_reducible refine (State.startImage_keeps _ _ _).trans ?_ ?_
    | with_reducible refine (State.stageFailed_keeps _ _ _).trans ?_ ?_
    | with_reducible refine (State.stageDone_keeps _).trans ?_ ?_
    | split

theorem State.goStartTest_keeps (s : State) : Keeps 0x100000000000000000000000000000000000000000000002000000040000000000000000000000000 s (State.goStartTest s) := by
  unfold State.goStartTest
  repeat' first
    | with_reducible exact .refl _
    | with_reducible assumption
    | exact rfl
    | with_reducible intro _
    | with_reducible refine .ite ?_ ?_
    | with_reducible refine (State.beginStage_keeps _ _ _).trans ?_ ?_
    | with_reducible refine (State.setFld_keeps _ _ _ _ ?_).trans (sub_self _) ?_
    | with_reducible refine .foldl _ ?_ ?_
    | split

theorem execInsGoStartTest_keeps (owner : Owner) (value : Word) (s : State) {z_ : State} (h_ : execInsGoStartTest owner value s = .next z_) : Keeps 0x4100000000000000000000000000000000000000000000002000000060000000000000000000000000 s z_ := by
  unfold execInsGoStartTest at h_
  refine accessBy_keeps h_ rfl ?_
  repeat' first
    | with_reducible exact .refl _
    | with_reducible assumption
    | exact rfl
    | with_reducible intro _
    | with_reducible refine .ite ?_ ?_
    | with_reducible refine (State.goStartTest_keeps _).trans ?_ ?_
    | with_reducible refine (State.goWrite_keeps _ _ _ _ _ ?_ ?_).trans (sub_self _) ?_
    | with_reducible refine (Keeps.fst (State.goWrite_keeps _ _ _ _ _ ?_ ?_) ‹_›).trans (sub_self _) ?_
    | split

theorem execStage4Done_keeps (t : StartTest) (s : State) {z_ : State} (h_ : execStage4Done t s = .next z_) : Keeps 0x2d40000000000000000000000000000000000000000000006a2f401240000000000500800000000000 s z_ := by
  unfold execStage4Done at h_
  refine act_keeps h_ ?_
  repeat' first
    | with_reducible exact .refl _
    | with_reducible assumption
    | (extract_lets +onlyGivenNames y_; refine Keeps.cut (y := y_) ?_ ?_; rotate_left; clear_value y_; intro _; rotate_left; dsimp -iota only [y_]; clear y_)
    | exact rfl
    | with_reducible intro _
    | with_reducible refine .ite ?_ ?_
    | with_reducible refine (State.stageFailed_keeps _ _ _).trans ?_ ?_
    | with_reducible refine (State.stageDone_keeps _).trans ?_ ?_
    | with_reducible refine (State.startTest_keeps _ _ _).trans ?_ ?_
    | with_reducible refine (Keeps.fst (State.startTest_keeps _ _ _) ‹_›).trans ?_ ?_
    | with_reducible refine (State.setFld_keeps _ _ _ _ ?_).trans (sub_self _) ?_
    | split
    | dsimp -iota only
    | with_reducible apply Keeps.upd rfl
    | exact Or.inl rfl
    | exact Or.inr rfl

theorem State.goHbm_keeps (s : State) : Keeps 0x500000000000000000000000000000000000000000000002003000040000000000500800000000000 s (State.goHbm s) := by
  unfold State.goHbm
  repeat' first
    | with_reducible exact .refl _
    | with_reducible assumption
    | exact rfl
    | with_reducible intro _
    | with_reducible refine .ite ?_ ?_
    | with_reducible refine (State.beginStage_keeps _ _ _).trans ?_ ?_
    | with_reducible refine (State.loadMaps_keeps _).trans ?_ ?_
    | with_reducible refine (State.showSpares_keeps _).trans ?_ ?_
    | split

theorem execInsGoHbm_keeps (owner : Owner) (value : Word) (s : State) {z_ : State} (h_ : execInsGoHbm owner value s = .next z_) : Keeps 0x4500000000000000000000000000000000000000000000002003000060000000000500800000000000 s z_ := by
  unfold execInsGoHbm at h_
  refine accessBy_keeps h_ rfl ?_
  repeat' first
    | with_reducible exact .refl _
    | with_reducible assumption
    | exact rfl
    | with_reducible intro _
    | with_reducible refine .ite ?_ ?_
    | with_reducible refine (State.goHbm_keeps _).trans ?_ ?_
    | with_reducible refine (State.goWrite_keeps _ _ _ _ _ ?_ ?_).trans (sub_self _) ?_
    | with_reducible refine (Keeps.fst (State.goWrite_keeps _ _ _ _ _ ?_ ?_) ‹_›).trans (sub_self _) ?_
    | split

theorem State.retireAt5_keeps (s : State) (f : Nat) : KeepsO 0x2840040000000000000000000000000000000000000000000a2c401200000000100000000000000000 s (State.retireAt5 s f) := by
  unfold State.retireAt5
  repeat' first
    | (extract_lets +onlyGivenNames y_; refine KeepsO.cut (y := y_) ?_ ?_; rotate_left; clear_value y_; intro _; rotate_left; dsimp -iota only [y_]; clear y_)
    | with_reducible exact KeepsO.absent
    | with_reducible refine KeepsO.ite ?_ ?_
    | with_reducible refine KeepsO.given ?_
    | with_reducible refine KeepsO.map ?_ ?_
    | with_reducible refine KeepsO.mapped ?_
    | with_reducible exact .refl _
    | with_reducible assumption
    | (extract_lets +onlyGivenNames y_; refine Keeps.cut (y := y_) ?_ ?_; rotate_left; clear_value y_; intro _; rotate_left; dsimp -iota only [y_]; clear y_)
    | exact rfl
    | with_reducible intro _
    | with_reducible refine .ite ?_ ?_
    | with_reducible refine (State.appendDefect_keeps _ _ _ _ _).trans ?_ ?_
    | with_reducible refine (State.sillage_keeps _ _ _ _ _).trans ?_ ?_
    | with_reducible refine (State.bump_keeps _ _ _ _ ?_).trans (sub_self _) ?_
    | split
    | dsimp -iota only
    | with_reducible apply Keeps.upd rfl
    | exact Or.inl rfl
    | exact Or.inr rfl

theorem State.retireAll5_keeps (s : State) (l : List Nat) : Keeps 0x2840040000000000000000000000000000000000000000000a2c401200000000100000000000000000 s (s.retireAll5 l).1 := by
  induction l generalizing s with
  | nil => exact .refl _
  | cons f t ih =>
    unfold State.retireAll5
    split
    · exact (ih _).trans (sub_self _) (((State.retireAt5_keeps _ _).get ‹_›).trans rfl (.refl _))
    · exact .refl _

theorem State.poolReady_keeps (s : State) : Keeps 0x200000000000000000000000000000000000000000000000000000000000000040000000000000000 s (State.poolReady s) := by
  unfold State.poolReady
  repeat' first
    | with_reducible exact .refl _
    | with_reducible assumption
    | (extract_lets +onlyGivenNames y_; refine Keeps.cut (y := y_) ?_ ?_; rotate_left; clear_value y_; intro _; rotate_left; dsimp -iota only [y_]; clear y_)
    | exact rfl
    | with_reducible intro _
    | with_reducible refine .ite ?_ ?_
    | with_reducible refine (State.showReserve_keeps _ _).trans ?_ ?_
    | with_reducible refine (State.setFld_keeps _ _ _ _ ?_).trans (sub_self _) ?_
    | with_reducible refine .foldl _ ?_ ?_
    | split
    | dsimp -iota only
    | with_reducible apply Keeps.upd rfl
    | exact Or.inl rfl
    | exact Or.inr rfl

theorem execStage5Done_keeps (busOk : Bool) (stack : Option (Fin 24)) (frames : List (Fin 884736)) (s : State) {z_ : State} (h_ : execStage5Done busOk stack frames s = .next z_) : Keeps 0x2b40840000000000000000000000000000000000000000000a3c403240000000140000000000000000 s z_ := by
  unfold execStage5Done at h_
  refine act_keeps h_ ?_
  repeat' first
    | with_reducible exact .refl _
    | with_reducible assumption
    | (extract_lets +onlyGivenNames y_; refine Keeps.cut (y := y_) ?_ ?_; rotate_left; clear_value y_; intro _; rotate_left; dsimp -iota only [y_]; clear y_)
    | exact rfl
    | with_reducible intro _
    | with_reducible refine .ite ?_ ?_
    | with_reducible refine (State.poolReady_keeps _).trans ?_ ?_
    | with_reducible refine (State.retireAll5_keeps _ _).trans ?_ ?_
    | with_reducible refine (Keeps.fst (State.retireAll5_keeps _ _) ‹_›).trans ?_ ?_
    | with_reducible refine (State.stageFailed_keeps _ _ _).trans ?_ ?_
    | with_reducible refine (State.stageDone_keeps _).trans ?_ ?_
    | with_reducible refine (State.poolLost_keeps _).trans ?_ ?_
    | with_reducible refine (State.setFld_keeps _ _ _ _ ?_).trans (sub_self _) ?_
    | split
    | dsimp -iota only

theorem State.setMode6_keeps (s : State) (p mode : Nat) : Keeps 0x2000000000000000000000000000000000000000000000000000000000000000002000000c00 s (State.setMode6 s p mode) := by
  unfold State.setMode6
  repeat' first
    | with_reducible exact .refl _
    | with_reducible assumption
    | (extract_lets +onlyGivenNames y_; refine Keeps.cut (y := y_) ?_ ?_; rotate_left; clear_value y_; intro _; rotate_left; dsimp -iota only [y_]; clear y_)
    | exact rfl
    | with_reducible intro _
    | with_reducible refine .ite ?_ ?_
    | with_reducible refine (State.setLinkState_keeps _ _ _).trans ?_ ?_
    | with_reducible refine (State.setPort_keeps _ _ _).trans ?_ ?_
    | with_reducible refine (State.setFld_keeps _ _ _ _ ?_).trans (sub_self _) ?_
    | split
    | dsimp -iota only

theorem State.goPorts_keeps (s : State) : Keeps 0x2140002000000000000000000000000000000000000000000a28000440000000000000002000000c00 s (State.goPorts s) := by
  unfold State.goPorts
  repeat' first
    | with_reducible exact .refl _
    | with_reducible assumption
    | (extract_lets +onlyGivenNames y_; refine Keeps.cut (y := y_) ?_ ?_; rotate_left; clear_value y_; intro _; rotate_left; dsimp -iota only [y_]; clear y_)
    | exact rfl
    | with_reducible intro _
    | with_reducible refine .ite ?_ ?_
    | with_reducible refine (State.setMode6_keeps _ _ _).trans ?_ ?_
    | with_reducible refine (State.stageFailed_keeps _ _ _).trans ?_ ?_
    | with_reducible refine (State.beginStage_keeps _ _ _).trans ?_ ?_
    | with_reducible refine (State.setFld_keeps _ _ _ _ ?_).trans (sub_self _) ?_
    | with_reducible refine .foldl _ ?_ ?_
    | split
    | dsimp -iota only

theorem execInsGoPorts_keeps (owner : Owner) (value : Word) (s : State) {z_ : State} (h_ : execInsGoPorts owner value s = .next z_) : Keeps 0x6140002000000000000000000000000000000000000000000a28000460000000000000002000000c00 s z_ := by
  unfold execInsGoPorts at h_
  refine accessBy_keeps h_ rfl ?_
  repeat' first
    | with_reducible exact .refl _
    | with_reducible assumption
    | exact rfl
    | with_reducible intro _
    | with_reducible refine .ite ?_ ?_
    | with_reducible refine (State.goPorts_keeps _).trans ?_ ?_
    | with_reducible refine (State.goWrite_keeps _ _ _ _ _ ?_ ?_).trans (sub_self _) ?_
    | with_reducible refine (Keeps.fst (State.goWrite_keeps _ _ _ _ _ ?_ ?_) ‹_›).trans (sub_self _) ?_
    | split

theorem State.countPorts_keeps (s : State) : Keeps 0x400000000000000000000000000 s (State.countPorts s) := by
  unfold State.countPorts
  repeat' first
    | with_reducible exact .refl _
    | with_reducible assumption
    | (extract_lets +onlyGivenNames y_; refine Keeps.cut (y := y_) ?_ ?_; rotate_left; clear_value y_; intro _; rotate_left; dsimp -iota only [y_]; clear y_)
    | exact rfl
    | with_reducible intro _
    | with_reducible refine .ite ?_ ?_
    | with_reducible refine (State.setFld_keeps _ _ _ _ ?_).trans (sub_self _) ?_
    | split
    | dsimp -iota only

theorem execStage6End_keeps (s : State) {z_ : State} (h_ : execStage6End s = .next z_) : Keeps 0x2040000000000000000000000000000000000000000000000a28000440000000000000000000000000 s z_ := by
  unfold execStage6End at h_
  refine act_keeps h_ ?_
  repeat' first
    | with_reducible exact .refl _
    | with_reducible assumption
    | exact rfl
    | with_reducible intro _
    | with_reducible refine .ite ?_ ?_
    | with_reducible refine (State.countPorts_keeps _).trans ?_ ?_
    | with_reducible refine (State.stageDone_keeps _).trans ?_ ?_
    | split

theorem State.goRole_keeps (s : State) : Keeps 0x100000000000000000000000000000000000000000000000000000040000000000000000000000000 s (State.goRole s) := by
  unfold State.goRole
  repeat' first
    | with_reducible exact .refl _
    | with_reducible assumption
    | (extract_lets +onlyGivenNames y_; refine Keeps.cut (y := y_) ?_ ?_; rotate_left; clear_value y_; intro _; rotate_left; dsimp -iota only [y_]; clear y_)
    | exact rfl
    | with_reducible intro _
    | with_reducible refine .ite ?_ ?_
    | with_reducible refine (State.beginStage_keeps _ _ _).trans ?_ ?_
    | split
    | dsimp -iota only
    | with_reducible apply Keeps.upd rfl
    | exact Or.inl rfl
    | exact Or.inr rfl

theorem State.goTime_keeps (s : State) : Keeps 0x110000000000000000000000000000000000000000000000000000000000000000000000080000002 s (State.goTime s) := by
  unfold State.goTime
  repeat' first
    | with_reducible exact .refl _
    | with_reducible assumption
    | (extract_lets +onlyGivenNames y_; refine Keeps.cut (y := y_) ?_ ?_; rotate_left; clear_value y_; intro _; rotate_left; dsimp -iota only [y_]; clear y_)
    | exact rfl
    | with_reducible intro _
    | with_reducible refine .ite ?_ ?_
    | with_reducible refine (State.startManager_keeps _).trans ?_ ?_
    | with_reducible refine (State.setFld_keeps _ _ _ _ ?_).trans (sub_self _) ?_
    | split
    | dsimp -iota only
    | with_reducible apply Keeps.upd rfl
    | exact Or.inl rfl
    | exact Or.inr rfl

theorem State.writeRole_keeps (s : State) (v : Word) : Keeps 0x100000000000000000000000000000000000000000000000000000060000000000000000000000000 s (State.writeRole s v).1 := by
  unfold State.writeRole
  repeat' first
    | with_reducible exact .refl _
    | with_reducible assumption
    | exact rfl
    | with_reducible intro _
    | with_reducible refine .ite ?_ ?_
    | with_reducible refine .ite1 ?_ ?_
    | with_reducible refine (State.goRole_keeps _).trans ?_ ?_
    | with_reducible refine (State.goWrite_keeps _ _ _ _ _ ?_ ?_).trans (sub_self _) ?_
    | with_reducible refine (Keeps.fst (State.goWrite_keeps _ _ _ _ _ ?_ ?_) ‹_›).trans (sub_self _) ?_
    | split

theorem State.writeTime_keeps (s : State) (v : Word) : Keeps 0x110000000000000000000000000000000000000000000000000000020000000000000000080000002 s (State.writeTime s v).1 := by
  unfold State.writeTime
  repeat' first
    | with_reducible exact .refl _
    | with_reducible assumption
    | exact rfl
    | with_reducible intro _
    | with_reducible refine .ite ?_ ?_
    | with_reducible refine .ite1 ?_ ?_
    | with_reducible refine (State.goTime_keeps _).trans ?_ ?_
    | with_reducible refine (State.goWrite_keeps _ _ _ _ _ ?_ ?_).trans (sub_self _) ?_
    | with_reducible refine (Keeps.fst (State.goWrite_keeps _ _ _ _ _ ?_ ?_) ‹_›).trans (sub_self _) ?_
    | split

theorem execInsGoRole_keeps (owner : Owner) (value : Word) (s : State) {z_ : State} (h_ : execInsGoRole owner value s = .next z_) : Keeps 0x4100000000000000000000000000000000000000000000000000000060000000000000000000000000 s z_ := by
  unfold execInsGoRole at h_
  refine accessBy_keeps h_ rfl ?_
  repeat' first
    | with_reducible exact .refl _
    | with_reducible assumption
    | exact rfl
    | with_reducible intro _
    | with_reducible refine .ite ?_ ?_
    | with_reducible refine (State.writeRole_keeps _ _).trans ?_ ?_
    | with_reducible refine (Keeps.fst (State.writeRole_keeps _ _) ‹_›).trans ?_ ?_
    | split

theorem execInsGoTime_keeps (owner : Owner) (value : Word) (s : State) {z_ : State} (h_ : execInsGoTime owner value s = .next z_) : Keeps 0x4110000000000000000000000000000000000000000000000000000020000000000000000080000002 s z_ := by
  unfold execInsGoTime at h_
  refine accessBy_keeps h_ rfl ?_
  repeat' first
    | with_reducible exact .refl _
    | with_reducible assumption
    | exact rfl
    | with_reducible intro _
    | with_reducible refine .ite ?_ ?_
    | with_reducible refine (State.writeTime_keeps _ _).trans ?_ ?_
    | with_reducible refine (Keeps.fst (State.writeTime_keeps _ _) ‹_›).trans ?_ ?_
    | split

theorem State.writeInsCtl_keeps (s : State) (v : Word) : Keeps 0x2550002000000000000000000000000000000000000000002a2b000460000000000500802080000c02 s (State.writeInsCtl s v).1 := by
  unfold State.writeInsCtl
  repeat' first
    | with_reducible exact .refl _
    | with_reducible assumption
    | exact rfl
    | with_reducible intro _
    | with_reducible refine .ite ?_ ?_
    | with_reducible refine .ite1 ?_ ?_
    | with_reducible refine (State.writeTime_keeps _ _).trans ?_ ?_
    | with_reducible refine (Keeps.fst (State.writeTime_keeps _ _) ‹_›).trans ?_ ?_
    | with_reducible refine (State.writeRole_keeps _ _).trans ?_ ?_
    | with_reducible refine (Keeps.fst (State.writeRole_keeps _ _) ‹_›).trans ?_ ?_
    | with_reducible refine (State.goPorts_keeps _).trans ?_ ?_
    | with_reducible refine (State.goHbm_keeps _).trans ?_ ?_
    | with_reducible refine (State.goStartTest_keeps _).trans ?_ ?_
    | with_reducible refine (State.goFirmware_keeps _).trans ?_ ?_
    | with_reducible refine (State.goWrite_keeps _ _ _ _ _ ?_ ?_).trans (sub_self _) ?_
    | with_reducible refine (Keeps.fst (State.goWrite_keeps _ _ _ _ _ ?_ ?_) ‹_›).trans (sub_self _) ?_
    | (rw [id_eq]; exact .refl _)
    | split

theorem execStage7Done_keeps (s : State) {z_ : State} (h_ : execStage7Done s = .next z_) : Keeps 0x2140000000000000000000000000000000000000000000000a28000040000000000000000000000000 s z_ := by
  unfold execStage7Done at h_
  refine act_keeps h_ ?_
  repeat' first
    | with_reducible exact .refl _
    | with_reducible assumption
    | exact rfl
    | with_reducible intro _
    | with_reducible refine .ite ?_ ?_
    | with_reducible refine (State.stageDone_keeps _).trans ?_ ?_
    | with_reducible refine (State.beginStage_keeps _ _ _).trans ?_ ?_
    | split

theorem State.imago_keeps (s : State) : Keeps 0xe042040000000000000000000000000000000000000000000a38000040000000200000000000000000 s (State.imago s) := by
  unfold State.imago
  repeat' first
    | with_reducible exact .refl _
    | with_reducible assumption
    | (extract_lets +onlyGivenNames y_; refine Keeps.cut (y := y_) ?_ ?_; rotate_left; clear_value y_; intro _; rotate_left; dsimp -iota only [y_]; clear y_)
    | exact rfl
    | with_reducible intro _
    | with_reducible refine .ite ?_ ?_
    | with_reducible refine (State.stageDone_keeps _).trans ?_ ?_
    | with_reducible refine (State.absentFaults_keeps _).trans ?_ ?_
    | with_reducible refine KeepsO.trans (State.moveRegion_keeps _ _) ?_ ?_
    | with_reducible refine Keeps.trans ((State.moveRegion_keeps _ _).get ‹_›) ?_ ?_
    | with_reducible refine (State.sendStatus_keeps _).trans ?_ ?_
    | with_reducible refine (State.showPool_keeps _).trans ?_ ?_
    | with_reducible refine (State.setFld_keeps _ _ _ _ ?_).trans (sub_self _) ?_
    | split
    | dsimp -iota only

theorem execImagoCheck_keeps (advancing : Bool) (s : State) {z_ : State} (h_ : execImagoCheck advancing s = .next z_) : Keeps 0xe142040000000000000000000000000000000000000000000a38000040000000200000000000000000 s z_ := by
  unfold execImagoCheck at h_
  refine act_keeps h_ ?_
  repeat' first
    | with_reducible exact .refl _
    | with_reducible assumption
    | exact rfl
    | with_reducible intro _
    | with_reducible refine .ite ?_ ?_
    | with_reducible refine (State.imago_keeps _).trans ?_ ?_
    | with_reducible refine (State.stageFailed_keeps _ _ _).trans ?_ ?_
    | split

theorem execInstarStageTimeout_keeps (s : State) {z_ : State} (h_ : execInstarStageTimeout s = .next z_) : Keeps 0x2140000000000000000000000000000000000000000000000a28000040000000000000000000000000 s z_ := by
  unfold execInstarStageTimeout at h_
  refine act_keeps h_ ?_
  repeat' first
    | with_reducible exact .refl _
    | with_reducible assumption
    | (extract_lets +onlyGivenNames y_; refine Keeps.cut (y := y_) ?_ ?_; rotate_left; clear_value y_; intro _; rotate_left; dsimp -iota only [y_]; clear y_)
    | exact rfl
    | with_reducible intro _
    | with_reducible refine .ite ?_ ?_
    | with_reducible refine (State.stageFailed_keeps _ _ _).trans ?_ ?_
    | split
    | dsimp -iota only
    | with_reducible apply Keeps.upd rfl
    | exact Or.inl rfl
    | exact Or.inr rfl

end Sys2Proof.Machine
end

