-- ==== Sys2Proof/Laws/KeepsChrysalis.lean ====
section
/-! SUPPORT. Sys2Proof/Laws/KeepsChrysalis.lean: what each operation of Machine/Chrysalis.lean leaves alone. -/

namespace Sys2Proof.Machine

theorem execFreezePin_keeps (s : State) {z_ : State} (h_ : execFreezePin s = .next z_) : Keeps 0x2000000000000000000000000000000000000000000000000a00000000000000000000000000000000 s z_ := by
  unfold execFreezePin at h_
  obtain rfl := Host.Outcome.next.inj h_
  repeat' first
    | with_reducible exact .refl _
    | with_reducible assumption
    | exact rfl
    | with_reducible intro _
    | with_reducible refine .ite ?_ ?_
    | with_reducible refine (State.chrTrigger_keeps _ _).trans ?_ ?_
    | split

theorem execChrFreeze_keeps (_r : FwRef) (s : State) {z_ : State} (h_ : execChrFreeze _r s = .next z_) : Keeps 0x2000000000000000000000000000000000000000000000000a00000000000000000000000000000000 s z_ := by
  unfold execChrFreeze at h_
  refine act_keeps h_ ?_
  repeat' first
    | with_reducible exact .refl _
    | with_reducible assumption
    | exact rfl
    | with_reducible intro _
    | with_reducible refine .ite ?_ ?_
    | with_reducible refine (State.chrTrigger_keeps _ _).trans ?_ ?_
    | split

theorem execChrArm_keeps (r : FwRef) (flags cmpMask source code severity : Fin 256) (delay : BitVec 32) (s : State) {z_ : State} (h_ : execChrArm r flags cmpMask source code severity delay s = .next z_) : Keeps 0x2030000000000000000000000000000000000000000000000800000000000000000000000000000000 s z_ := by
  unfold execChrArm at h_
  refine act_keeps h_ ?_
  repeat' first
    | with_reducible exact .refl _
    | with_reducible assumption
    | (extract_lets +onlyGivenNames y_; refine Keeps.cut (y := y_) ?_ ?_; rotate_left; clear_value y_; intro _; rotate_left; dsimp -iota only [y_]; clear y_)
    | exact rfl
    | with_reducible intro _
    | with_reducible refine .ite ?_ ?_
    | with_reducible refine (State.finishFw_keeps _ _ _ _ _).trans ?_ ?_
    | with_reducible refine (State.setReg_keeps _ _ _ _ ?_).trans (sub_self _) ?_
    | split
    | dsimp -iota only
    | with_reducible apply Keeps.upd rfl
    | exact Or.inl rfl
    | exact Or.inr rfl

theorem State.freezeNow_keeps (s : State) : Keeps 0x6240000000000000000000000000000000000000000000000e28000000000000000000000000000000 s (State.freezeNow s) := by
  unfold State.freezeNow
  repeat' first
    | with_reducible exact .refl _
    | with_reducible assumption
    | (extract_lets +onlyGivenNames y_; refine Keeps.cut (y := y_) ?_ ?_; rotate_left; clear_value y_; intro _; rotate_left; dsimp -iota only [y_]; clear y_)
    | exact rfl
    | with_reducible intro _
    | with_reducible refine .ite ?_ ?_
    | with_reducible refine (State.sillage_keeps _ _ _ _ _).trans ?_ ?_
    | with_reducible refine (State.emits_keeps _ _).trans ?_ ?_
    | with_reducible refine (State.setFld_keeps _ _ _ _ ?_).trans (sub_self _) ?_
    | with_reducible refine (State.setReg_keeps _ _ _ _ ?_).trans (sub_self _) ?_
    | split
    | dsimp -iota only
    | with_reducible apply Keeps.upd rfl
    | exact Or.inl rfl
    | exact Or.inr rfl

theorem execFreezeDelayEnd_keeps (s : State) {z_ : State} (h_ : execFreezeDelayEnd s = .next z_) : Keeps 0x6240000000000000000000000000000000000000000000000e28000000000000000000000000000000 s z_ := by
  unfold execFreezeDelayEnd at h_
  obtain rfl := Host.Outcome.next.inj h_
  repeat' first
    | with_reducible exact .refl _
    | with_reducible assumption
    | exact rfl
    | with_reducible intro _
    | with_reducible refine .ite ?_ ?_
    | with_reducible refine (State.freezeNow_keeps _).trans ?_ ?_
    | split

theorem State.addSec_keeps (s : State) (x : DumpSec) (hung : Bool) : Keeps 0x2000000000000000000000000000000000000000000000000200000000000000000000000000000000 s (State.addSec s x hung) := by
  unfold State.addSec
  repeat' first
    | with_reducible exact .refl _
    | with_reducible assumption
    | (extract_lets +onlyGivenNames y_; refine Keeps.cut (y := y_) ?_ ?_; rotate_left; clear_value y_; intro _; rotate_left; dsimp -iota only [y_]; clear y_)
    | exact rfl
    | with_reducible intro _
    | with_reducible refine .ite ?_ ?_
    | with_reducible refine (State.setFld_keeps _ _ _ _ ?_).trans (sub_self _) ?_
    | split
    | dsimp -iota only
    | with_reducible apply Keeps.upd rfl
    | exact Or.inl rfl
    | exact Or.inr rfl

theorem State.addTrailer_keeps (s : State) : Keeps 0x2000000000000000000000000000000000000000000000000200000000000000000000000000000000 s (State.addTrailer s) := by
  unfold State.addTrailer
  repeat' first
    | with_reducible exact .refl _
    | with_reducible assumption
    | (extract_lets +onlyGivenNames y_; refine Keeps.cut (y := y_) ?_ ?_; rotate_left; clear_value y_; intro _; rotate_left; dsimp -iota only [y_]; clear y_)
    | exact rfl
    | with_reducible intro _
    | with_reducible refine .ite ?_ ?_
    | with_reducible refine (State.setFld_keeps _ _ _ _ ?_).trans (sub_self _) ?_
    | split
    | dsimp -iota only
    | with_reducible apply Keeps.upd rfl
    | exact Or.inl rfl
    | exact Or.inr rfl

theorem State.startDump_keeps (s : State) : Keeps 0xa000000000000000000000000000000000000000000000000200000000000000000000000000000000 s (State.startDump s) := by
  unfold State.startDump
  repeat' first
    | with_reducible exact .refl _
    | with_reducible assumption
    | (extract_lets +onlyGivenNames y_; refine Keeps.cut (y := y_) ?_ ?_; rotate_left; clear_value y_; intro _; rotate_left; dsimp -iota only [y_]; clear y_)
    | exact rfl
    | with_reducible intro _
    | with_reducible refine .ite ?_ ?_
    | with_reducible refine (State.addSec_keeps _ _ _).trans ?_ ?_
    | with_reducible refine (State.fresh_keeps _).trans ?_ ?_
    | with_reducible refine (Keeps.snd (State.fresh_keeps _) ‹_›).trans ?_ ?_
    | with_reducible refine (State.setFld_keeps _ _ _ _ ?_).trans (sub_self _) ?_
    | split
    | dsimp -iota only
    | with_reducible apply Keeps.upd rfl
    | exact Or.inl rfl
    | exact Or.inr rfl

theorem halfLen_reg (o : Nat) : (halfLen o).reg = .CHR_HALF := by
  unfold halfLen
  repeat' first | rfl | split

theorem State.fillHalf_keeps (s : State) (half : Nat) : Keeps 0x2000800000000000000000000000000000000000000000001200000000000000000000000000000000 s (State.fillHalf s half) := by
  unfold State.fillHalf
  repeat' first
    | with_reducible exact .refl _
    | with_reducible assumption
    | (extract_lets +onlyGivenNames y_; refine Keeps.cut (y := y_) ?_ ?_; rotate_left; clear_value y_; intro _; rotate_left; dsimp -iota only [y_]; clear y_)
    | exact rfl
    | with_reducible intro _
    | with_reducible refine .ite ?_ ?_
    | with_reducible refine (State.writeMem_keeps _ _ _).trans ?_ ?_
    | with_reducible refine (State.setFld_keeps _ _ _ _ ?_).trans (sub_self _) ?_
    | (rw [halfLen_reg]; exact rfl)
    | split
    | dsimp -iota only
    | with_reducible apply Keeps.upd rfl
    | exact Or.inl rfl
    | exact Or.inr rfl

theorem execReadoutHalfReady_keeps (half : Fin 2) (secs : List DumpSec) (last : Bool) (s : State) {z_ : State} (h_ : execReadoutHalfReady half secs last s = .next z_) : Keeps 0x2000800000000000000000000000000000000000000000001200000000000000000000000000000000 s z_ := by
  unfold execReadoutHalfReady at h_
  obtain rfl := Host.Outcome.next.inj h_
  repeat' first
    | with_reducible exact .refl _
    | with_reducible assumption
    | (extract_lets +onlyGivenNames y_; refine Keeps.cut (y := y_) ?_ ?_; rotate_left; clear_value y_; intro _; rotate_left; dsimp -iota only [y_]; clear y_)
    | exact rfl
    | with_reducible intro _
    | with_reducible refine .ite ?_ ?_
    | with_reducible refine (State.fillHalf_keeps _ _).trans ?_ ?_
    | with_reducible refine (State.addTrailer_keeps _).trans ?_ ?_
    | with_reducible refine (State.addSec_keeps _ _ _).trans ?_ ?_
    | with_reducible refine .foldl _ ?_ ?_
    | split
    | dsimp -iota only

theorem execReadoutHang_keeps (sec : DumpSec) (s : State) {z_ : State} (h_ : execReadoutHang sec s = .next z_) : Keeps 0x2040000000000000000000000000000000000000000000000a28000000000000000000000000000000 s z_ := by
  unfold execReadoutHang at h_
  obtain rfl := Host.Outcome.next.inj h_
  repeat' first
    | with_reducible exact .refl _
    | with_reducible assumption
    | exact rfl
    | with_reducible intro _
    | with_reducible refine .ite ?_ ?_
    | with_reducible refine (State.addSec_keeps _ _ _).trans ?_ ?_
    | with_reducible refine (State.sillage_keeps _ _ _ _ _).trans ?_ ?_
    | with_reducible refine (State.bump_keeps _ _ _ _ ?_).trans (sub_self _) ?_
    | split

theorem State.chrWrite_keeps {m : Nat} (s : State) (f : State → State × Nat) (h : Keeps m s (f s).1) :
    Keeps m s (s.chrWrite f).1 := .ite1 (fun _ => .refl s) fun _ => h

theorem State.chrStart_keeps (s : State) : Keeps 0xa000000000000000000000000000000000000000000000000200000000000000000000000000000000 s (State.chrStart s).1 := by
  unfold State.chrStart
  repeat' first
    | with_reducible exact .refl _
    | with_reducible assumption
    | exact rfl
    | with_reducible intro _
    | with_reducible refine .ite ?_ ?_
    | with_reducible refine .ite1 ?_ ?_
    | with_reducible refine (State.chrWrite_keeps _ _ ?_).trans (sub_self _) ?_
    | with_reducible refine (Keeps.fst (State.chrWrite_keeps _ _ ?_) ‹_›).trans (sub_self _) ?_
    | with_reducible refine (State.startDump_keeps _).trans ?_ ?_
    | split

theorem State.chrNext_keeps (s : State) (half : Nat) : Keeps 0x1000000000000000000000000000000000 s (State.chrNext s half).1 := by
  unfold State.chrNext
  repeat' first
    | with_reducible exact .refl _
    | with_reducible assumption
    | exact rfl
    | with_reducible intro _
    | with_reducible refine .ite ?_ ?_
    | with_reducible refine .ite1 ?_ ?_
    | with_reducible refine (State.chrWrite_keeps _ _ ?_).trans (sub_self _) ?_
    | with_reducible refine (Keeps.fst (State.chrWrite_keeps _ _ ?_) ‹_›).trans (sub_self _) ?_
    | with_reducible refine (State.setFld_keeps _ _ _ _ ?_).trans (sub_self _) ?_
    | (rw [halfLen_reg]; exact rfl)
    | split

theorem State.chrRelease_keeps (s : State) : Keeps 0x67fffff000000000000000000000000000000000000000007fffffffffffffffffffffffffffffffff s (State.chrRelease s).1 := by
  unfold State.chrRelease
  repeat' first
    | with_reducible exact .refl _
    | with_reducible assumption
    | exact rfl
    | with_reducible intro _
    | with_reducible refine .ite ?_ ?_
    | with_reducible refine .ite1 ?_ ?_
    | with_reducible refine (State.chrWrite_keeps _ _ ?_).trans (sub_self _) ?_
    | with_reducible refine (Keeps.fst (State.chrWrite_keeps _ _ ?_) ‹_›).trans (sub_self _) ?_
    | with_reducible refine (State.warmNow_keeps _ _).trans ?_ ?_
    | exact all_bit rfl _
    | split

theorem chrAccess_keeps {m owner : Nat} {s t : State} {f : State → State × Nat}
    (h : chrAccess owner s f = .next t) (hm : sub 0x4000000000000000000000000000000000000000000000000000000000000000000000000000000000 m = true) (k : Keeps m s (f s).1) : Keeps m s t := by
  unfold chrAccess at h
  split at h
  · obtain rfl := Host.Outcome.next.inj h
    exact .refl s
  · obtain rfl := Host.Outcome.next.inj h
    exact (State.emit_keeps _ _).trans (sub_left hm rfl) k

theorem execChrStart_keeps (owner : Owner) (s : State) {z_ : State} (h_ : execChrStart owner s = .next z_) : Keeps 0xe000000000000000000000000000000000000000000000000200000000000000000000000000000000 s z_ := by
  unfold execChrStart at h_
  refine chrAccess_keeps h_ rfl ?_
  repeat' first
    | with_reducible exact .refl _
    | with_reducible assumption
    | exact rfl
    | with_reducible intro _
    | with_reducible refine .ite ?_ ?_
    | with_reducible refine (State.chrStart_keeps _).trans ?_ ?_
    | with_reducible refine (Keeps.fst (State.chrStart_keeps _) ‹_›).trans ?_ ?_
    | split

theorem execChrNext_keeps (owner : Owner) (half : Fin 2) (s : State) {z_ : State} (h_ : execChrNext owner half s = .next z_) : Keeps 0x4000000000000000000000000000000000000000000000001000000000000000000000000000000000 s z_ := by
  unfold execChrNext at h_
  refine chrAccess_keeps h_ rfl ?_
  repeat' first
    | with_reducible exact .refl _
    | with_reducible assumption
    | exact rfl
    | with_reducible intro _
    | with_reducible refine .ite ?_ ?_
    | with_reducible refine (State.chrNext_keeps _ _).trans ?_ ?_
    | with_reducible refine (Keeps.fst (State.chrNext_keeps _ _) ‹_›).trans ?_ ?_
    | split

theorem execChrRelease_keeps (owner : Owner) (s : State) {z_ : State} (h_ : execChrRelease owner s = .next z_) : Keeps 0x67fffff000000000000000000000000000000000000000007fffffffffffffffffffffffffffffffff s z_ := by
  unfold execChrRelease at h_
  refine chrAccess_keeps h_ rfl ?_
  repeat' first
    | with_reducible exact .refl _
    | with_reducible assumption
    | exact rfl
    | with_reducible intro _
    | with_reducible refine .ite ?_ ?_
    | with_reducible refine (State.chrRelease_keeps _).trans ?_ ?_
    | with_reducible refine (Keeps.fst (State.chrRelease_keeps _) ‹_›).trans ?_ ?_
    | exact all_bit rfl _
    | split

end Sys2Proof.Machine
end

