-- ==== Sys2Proof/Laws/KeepsRegister.lean ====
section
/-! SUPPORT. Sys2Proof/Laws/KeepsRegister.lean: what each operation of Machine/Register.lean leaves alone. -/

namespace Sys2Proof.Machine

theorem State.readReg_keeps (s : State) (owner : Nat) (r : RegName) (i : Nat) : Keeps 0x80000000000000000000000000000000000000000000000000c0000000210004000000000000000000 s (State.readReg s owner r i).1 := by
  unfold State.readReg
  repeat' first
    | with_reducible exact .refl _
    | with_reducible assumption
    | exact rfl
    | with_reducible intro _
    | with_reducible refine .ite ?_ ?_
    | with_reducible refine .ite1 ?_ ?_
    | with_reducible refine (State.readWindow7_keeps _ _).trans ?_ ?_
    | with_reducible refine (Keeps.fst (State.readWindow7_keeps _ _) ‹_›).trans ?_ ?_
    | with_reducible refine (State.claim_keeps _ _ _ _ ?_).trans (sub_self _) ?_
    | with_reducible refine (Keeps.fst (State.claim_keeps _ _ _ _ ?_) ‹_›).trans (sub_self _) ?_
    | with_reducible refine (State.fresh_keeps _).trans ?_ ?_
    | with_reducible refine (Keeps.snd (State.fresh_keeps _) ‹_›).trans ?_ ?_
    | split
    | dsimp -iota only

theorem State.writeField_keeps {m : Nat} (s : State) (i : Nat) (v : Word) (f : Fld) (h : m.testBit f.reg.code = true) :
    Keeps m s (State.writeField s i v f) := by
  have hf : ∀ j x, Keeps m s (s.setFld f j x) := fun j x => State.setFld_keeps s f j x h
  unfold State.writeField
  dsimp only
  split
  · exact hf _ _
  · exact hf _ _
  · exact .ite (fun _ => .refl s) fun _ => hf _ _
  · exact hf _ _
  all_goals exact .refl s

theorem RegName.fields_reg (r : RegName) : ∀ f ∈ r.fields, f.reg = r := by cases r <;> decide

theorem State.writeFields_keeps {m : Nat} (s : State) (r : RegName) (i : Nat) (v : Word) (h : m.testBit r.code = true) :
    Keeps m s (State.writeFields s r i v) :=
  Keeps.foldlMem _ (.refl s) fun t f hf => State.writeField_keeps t i v f (by rw [r.fields_reg f hf]; exact h)

theorem State.writeCmpValue_keeps (s : State) (n : Nat) (v : Word) : Keeps 0x300000000000000000000000000000 s (State.writeCmpValue s n v).1 := by
  unfold State.writeCmpValue
  repeat' first
    | with_reducible exact .refl _
    | with_reducible assumption
    | (extract_lets +onlyGivenNames y_; refine Keeps.cut (y := y_) ?_ ?_; rotate_left; clear_value y_; intro _; rotate_left; dsimp -iota only [y_]; clear y_)
    | exact rfl
    | with_reducible intro _
    | with_reducible refine .ite ?_ ?_
    | with_reducible refine .ite1 ?_ ?_
    | with_reducible refine (State.setFld_keeps _ _ _ _ ?_).trans (sub_self _) ?_
    | with_reducible refine (State.setReg_keeps _ _ _ _ ?_).trans (sub_self _) ?_
    | split
    | dsimp -iota only

theorem State.writeCmpCtl_keeps (s : State) (n : Nat) (v : Word) : Keeps 0x80000000000000000000000000000 s (State.writeCmpCtl s n v) := by
  unfold State.writeCmpCtl
  repeat' first
    | with_reducible exact .refl _
    | with_reducible assumption
    | (extract_lets +onlyGivenNames y_; refine Keeps.cut (y := y_) ?_ ?_; rotate_left; clear_value y_; intro _; rotate_left; dsimp -iota only [y_]; clear y_)
    | exact rfl
    | with_reducible intro _
    | with_reducible refine .ite ?_ ?_
    | with_reducible refine (State.writeFields_keeps _ _ _ _ ?_).trans (sub_self _) ?_
    | with_reducible refine (State.setFld_keeps _ _ _ _ ?_).trans (sub_self _) ?_
    | split
    | dsimp -iota only

theorem State.writeChrCtl_keeps (s : State) (v : Word) : Keeps 0xe7fffff000000000000000000000000000000000000000007fffffffffffffffffffffffffffffffff s (State.writeChrCtl s v).1 := by
  unfold State.writeChrCtl
  repeat' first
    | with_reducible exact .refl _
    | with_reducible assumption
    | (extract_lets +onlyGivenNames y_; refine Keeps.cut (y := y_) ?_ ?_; rotate_left; clear_value y_; intro _; rotate_left; dsimp -iota only [y_]; clear y_)
    | exact rfl
    | with_reducible intro _
    | with_reducible refine .ite ?_ ?_
    | with_reducible refine .ite1 ?_ ?_
    | with_reducible refine (State.chrRelease_keeps _).trans ?_ ?_
    | with_reducible refine (Keeps.fst (State.chrRelease_keeps _) ‹_›).trans ?_ ?_
    | with_reducible refine (State.chrNext_keeps _ _).trans ?_ ?_
    | with_reducible refine (Keeps.fst (State.chrNext_keeps _ _) ‹_›).trans ?_ ?_
    | with_reducible refine (State.chrStart_keeps _).trans ?_ ?_
    | with_reducible refine (Keeps.fst (State.chrStart_keeps _) ‹_›).trans ?_ ?_
    | exact all_bit rfl _
    | split
    | dsimp -iota only

theorem State.writeAtsCtl_keeps (s : State) (owner n : Nat) (v : Word) : Keeps 0x40008800000000000000000000000000000000000000000000000000000000a4000000000000000000 s (State.writeAtsCtl s owner n v).1 := by
  unfold State.writeAtsCtl
  repeat' first
    | with_reducible exact .refl _
    | with_reducible assumption
    | (extract_lets +onlyGivenNames y_; refine Keeps.cut (y := y_) ?_ ?_; rotate_left; clear_value y_; intro _; rotate_left; dsimp -iota only [y_]; clear y_)
    | exact rfl
    | with_reducible intro _
    | with_reducible refine .ite ?_ ?_
    | with_reducible refine .ite1 ?_ ?_
    | with_reducible refine (State.fenceS_keeps _ _ _).trans ?_ ?_
    | with_reducible refine (Keeps.fst (State.fenceS_keeps _ _ _) ‹_›).trans ?_ ?_
    | with_reducible refine (State.stopS_keeps _ _ _).trans ?_ ?_
    | with_reducible refine (Keeps.fst (State.stopS_keeps _ _ _) ‹_›).trans ?_ ?_
    | with_reducible refine (State.goS_keeps _ _ _).trans ?_ ?_
    | with_reducible refine (Keeps.fst (State.goS_keeps _ _ _) ‹_›).trans ?_ ?_
    | split
    | dsimp -iota only

theorem State.writeDoorbell_keeps (s : State) (q : Nat) (v : Word) : Keeps 0x20000000000000000000000000000000000000000000000000000000000000000464000000000 s (State.writeDoorbell s q v) := by
  unfold State.writeDoorbell
  repeat' first
    | with_reducible exact .refl _
    | with_reducible assumption
    | (extract_lets +onlyGivenNames y_; refine Keeps.cut (y := y_) ?_ ?_; rotate_left; clear_value y_; intro _; rotate_left; dsimp -iota only [y_]; clear y_)
    | exact rfl
    | with_reducible intro _
    | with_reducible refine .ite ?_ ?_
    | with_reducible refine (State.dbResume_keeps _ _ _ _).trans ?_ ?_
    | with_reducible refine (State.dbCqHead_keeps _ _ _ _).trans ?_ ?_
    | with_reducible refine (State.dbSubmit_keeps _ _ _ _).trans ?_ ?_
    | with_reducible refine (State.doorbell_keeps _ _ _ _ _ ?_ ?_).trans (sub_self _) ?_
    | with_reducible exact .ident _
    | split
    | dsimp -iota only

theorem State.clearSlice_keeps (s : State) (slice : Nat) : Keeps 0x18000000000000 s (State.clearSlice s slice) := by
  unfold State.clearSlice
  repeat' first
    | with_reducible exact .refl _
    | with_reducible assumption
    | exact rfl
    | with_reducible intro _
    | with_reducible refine .ite ?_ ?_
    | with_reducible refine (State.setReg_keeps _ _ _ _ ?_).trans (sub_self _) ?_
    | split

theorem State.writeSliceSel_keeps (s : State) (v : Word) : Keeps 0x1c000000000000 s (State.writeSliceSel s v) := by
  unfold State.writeSliceSel
  repeat' first
    | with_reducible exact .refl _
    | with_reducible assumption
    | (extract_lets +onlyGivenNames y_; refine Keeps.cut (y := y_) ?_ ?_; rotate_left; clear_value y_; intro _; rotate_left; dsimp -iota only [y_]; clear y_)
    | exact rfl
    | with_reducible intro _
    | with_reducible refine .ite ?_ ?_
    | with_reducible refine (State.clearSlice_keeps _ _).trans ?_ ?_
    | with_reducible refine (State.setFld_keeps _ _ _ _ ?_).trans (sub_self _) ?_
    | split
    | dsimp -iota only

theorem State.writeChSel_keeps (s : State) (w : Nat) (v : Word) : Keeps 0xa0000000000000000000000000000000000000000000000000000000003800000000000000000 s (State.writeChSel s w v) := by
  unfold State.writeChSel
  repeat' first
    | with_reducible exact .refl _
    | with_reducible assumption
    | (extract_lets +onlyGivenNames y_; refine Keeps.cut (y := y_) ?_ ?_; rotate_left; clear_value y_; intro _; rotate_left; dsimp -iota only [y_]; clear y_)
    | exact rfl
    | with_reducible intro _
    | with_reducible refine .ite ?_ ?_
    | with_reducible refine (State.stopChan_keeps _ _).trans ?_ ?_
    | with_reducible refine (State.setFld_keeps _ _ _ _ ?_).trans (sub_self _) ?_
    | split
    | dsimp -iota only

theorem State.writeAntCtl_keeps (s : State) (a : Nat) (v : Word) : Keeps 0x408088000000000000000000000000000000000000000000004000001d7f00a4000000000000000000 s (State.writeAntCtl s a v) := by
  unfold State.writeAntCtl
  repeat' first
    | with_reducible exact .refl _
    | with_reducible assumption
    | (extract_lets +onlyGivenNames y_; refine Keeps.cut (y := y_) ?_ ?_; rotate_left; clear_value y_; intro _; rotate_left; dsimp -iota only [y_]; clear y_)
    | exact rfl
    | with_reducible intro _
    | with_reducible refine .ite ?_ ?_
    | with_reducible refine (State.antRetrain_keeps _ _).trans ?_ ?_
    | with_reducible refine (State.setFld_keeps _ _ _ _ ?_).trans (sub_self _) ?_
    | split
    | dsimp -iota only

theorem State.writeBell_keeps {m : Nat} (s : State) (owner : Nat) (r : RegName) (k : Nat) (v : Word) (hm : sub 0x80000000000000000000000000000000000000000000000000000003000000000000000000000000 m = true)
    (h : m.testBit r.code = true) : Keeps m s (State.writeBell s owner r k v).1 :=
  .ite1 (fun _ => .refl s) fun _ => (State.dbDue_keeps _ _ _).trans (sub_left hm rfl) (State.writeFields_keeps s r k v h)

theorem State.writeDbIn_keeps (s : State) (owner : Nat) (v : Word) : Keeps 0x400000000000000000000000 s (State.writeDbIn s owner v) := by
  unfold State.writeDbIn
  repeat' first
    | with_reducible exact .refl _
    | with_reducible assumption
    | (extract_lets +onlyGivenNames y_; refine Keeps.cut (y := y_) ?_ ?_; rotate_left; clear_value y_; intro _; rotate_left; dsimp -iota only [y_]; clear y_)
    | exact rfl
    | with_reducible intro _
    | with_reducible refine .ite ?_ ?_
    | with_reducible refine (State.setFld_keeps _ _ _ _ ?_).trans (sub_self _) ?_
    | split
    | dsimp -iota only

theorem State.writeReg_keeps (s : State) (owner : Nat) (r : RegName) (i : Nat) (v : Word) : Keeps 0xe7fffff000000000000000000000000000000000000000007fffffffffffffffffffffffffffffffff s (State.writeReg s owner r i v).1 := by
  unfold State.writeReg
  repeat' first
    | with_reducible exact .refl _
    | with_reducible assumption
    | exact rfl
    | with_reducible intro _
    | with_reducible refine .ite ?_ ?_
    | with_reducible refine .ite1 ?_ ?_
    | with_reducible refine (State.writeDbIn_keeps _ _ _).trans ?_ ?_
    | with_reducible refine (State.writeBell_keeps _ _ _ _ _ ?_ ?_).trans (sub_self _) ?_
    | with_reducible refine (Keeps.fst (State.writeBell_keeps _ _ _ _ _ ?_ ?_) ‹_›).trans (sub_self _) ?_
    | with_reducible refine (State.writeAntCtl_keeps _ _ _).trans ?_ ?_
    | with_reducible refine (State.writeChSel_keeps _ _ _).trans ?_ ?_
    | with_reducible refine (State.writeSliceSel_keeps _ _).trans ?_ ?_
    | with_reducible refine (State.writeDoorbell_keeps _ _ _).trans ?_ ?_
    | with_reducible refine (State.writeAtsCtl_keeps _ _ _ _).trans ?_ ?_
    | with_reducible refine (Keeps.fst (State.writeAtsCtl_keeps _ _ _ _) ‹_›).trans ?_ ?_
    | with_reducible refine (State.writeChrCtl_keeps _ _).trans ?_ ?_
    | with_reducible refine (Keeps.fst (State.writeChrCtl_keeps _ _) ‹_›).trans ?_ ?_
    | with_reducible refine (State.writeCmpCtl_keeps _ _ _).trans ?_ ?_
    | with_reducible refine (State.writeCmpValue_keeps _ _ _).trans ?_ ?_
    | with_reducible refine (Keeps.fst (State.writeCmpValue_keeps _ _ _) ‹_›).trans ?_ ?_
    | with_reducible refine (State.writeFields_keeps _ _ _ _ ?_).trans (sub_self _) ?_
    | with_reducible refine (State.writeInsCtl_keeps _ _).trans ?_ ?_
    | with_reducible refine (Keeps.fst (State.writeInsCtl_keeps _ _) ‹_›).trans ?_ ?_
    | with_reducible refine (State.writeCursor_keeps _ _ _).trans ?_ ?_
    | with_reducible refine (State.ownS_keeps _ _ _ _ ?_).trans (sub_self _) ?_
    | with_reducible refine (Keeps.fst (State.ownS_keeps _ _ _ _ ?_) ‹_›).trans (sub_self _) ?_
    | with_reducible refine (State.mbxAnswer_keeps _ _ _ _).trans ?_ ?_
    | with_reducible refine (Keeps.fst (State.mbxAnswer_keeps _ _ _ _) ‹_›).trans ?_ ?_
    | with_reducible refine (State.mbxWrite_keeps _ _ _ _ _).trans ?_ ?_
    | with_reducible refine (Keeps.fst (State.mbxWrite_keeps _ _ _ _ _) ‹_›).trans ?_ ?_
    | with_reducible refine (State.release_keeps _ _ _ _ ?_).trans (sub_self _) ?_
    | with_reducible refine (Keeps.fst (State.release_keeps _ _ _ _ ?_) ‹_›).trans (sub_self _) ?_
    | with_reducible refine (State.setFld_keeps _ _ _ _ ?_).trans (sub_self _) ?_
    | exact all_bit rfl _
    | split

end Sys2Proof.Machine
end

