-- ==== Sys2Proof/Laws/KeepsAccess.lean ====
section
/-! SUPPORT. Sys2Proof/Laws/KeepsAccess.lean: what each operation of Machine/Access.lean leaves alone. -/

namespace Sys2Proof.Machine

theorem State.readThorax_keeps (s : State) (owner : Nat) (r : RegName) (i : Nat) : Keeps 0x80000000000000000000000000000000000000000000000000c0000000210004000000000000000000 s (State.readThorax s owner r i).1 := by
  unfold State.readThorax
  repeat' first
    | with_reducible exact .refl _
    | with_reducible assumption
    | exact rfl
    | with_reducible intro _
    | with_reducible refine .ite ?_ ?_
    | with_reducible refine .ite1 ?_ ?_
    | with_reducible refine (State.readReg_keeps _ _ _ _).trans ?_ ?_
    | with_reducible refine (Keeps.fst (State.readReg_keeps _ _ _ _) ‹_›).trans ?_ ?_
    | split

theorem State.writeThorax_keeps (s : State) (owner : Nat) (r : RegName) (i : Nat) (v : Word) : Keeps 0xe7fffff000000000000000000000000000000000000000007fffffffffffffffffffffffffffffffff s (State.writeThorax s owner r i v).1 := by
  unfold State.writeThorax
  repeat' first
    | with_reducible exact .refl _
    | with_reducible assumption
    | exact rfl
    | with_reducible intro _
    | with_reducible refine .ite ?_ ?_
    | with_reducible refine .ite1 ?_ ?_
    | with_reducible refine (State.writeReg_keeps _ _ _ _ _).trans ?_ ?_
    | with_reducible refine (Keeps.fst (State.writeReg_keeps _ _ _ _ _) ‹_›).trans ?_ ?_
    | with_reducible refine (State.writeChrCtl_keeps _ _).trans ?_ ?_
    | with_reducible refine (Keeps.fst (State.writeChrCtl_keeps _ _) ‹_›).trans ?_ ?_
    | exact all_bit rfl _
    | split

theorem State.readWing_keeps (s : State) (owner : Nat) (r : RegName) (i : Nat) : Keeps 0x80000000000000000000000000000000000000000000000000c0000000210004000000000000000000 s (State.readWing s owner r i).1 := by
  unfold State.readWing
  repeat' first
    | with_reducible exact .refl _
    | with_reducible assumption
    | exact rfl
    | with_reducible intro _
    | with_reducible refine .ite ?_ ?_
    | with_reducible refine .ite1 ?_ ?_
    | with_reducible refine (State.readReg_keeps _ _ _ _).trans ?_ ?_
    | with_reducible refine (Keeps.fst (State.readReg_keeps _ _ _ _) ‹_›).trans ?_ ?_
    | split

theorem State.writeWing_keeps (s : State) (owner : Nat) (r : RegName) (i : Nat) (v : Word) : Keeps 0xe7fffff000000000000000000000000000000000000000007fffffffffffffffffffffffffffffffff s (State.writeWing s owner r i v).1 := by
  unfold State.writeWing
  repeat' first
    | with_reducible exact .refl _
    | with_reducible assumption
    | exact rfl
    | with_reducible intro _
    | with_reducible refine .ite ?_ ?_
    | with_reducible refine .ite1 ?_ ?_
    | with_reducible refine (State.writeReg_keeps _ _ _ _ _).trans ?_ ?_
    | with_reducible refine (Keeps.fst (State.writeReg_keeps _ _ _ _ _) ‹_›).trans ?_ ?_
    | exact all_bit rfl _
    | split

theorem State.poolWrite_keeps (s : State) (a : Nat) (bs : List Byte) : Keeps 0x840000000000000000000000000000000000000000000000000000000000000000000000000000 s (State.poolWrite s a bs) := by
  unfold State.poolWrite
  repeat' first
    | with_reducible exact .refl _
    | with_reducible assumption
    | (extract_lets +onlyGivenNames y_; refine Keeps.cut (y := y_) ?_ ?_; rotate_left; clear_value y_; intro _; rotate_left; dsimp -iota only [y_]; clear y_)
    | exact rfl
    | with_reducible intro _
    | with_reducible refine .ite ?_ ?_
    | with_reducible refine (State.writeMem_keeps _ _ _).trans ?_ ?_
    | with_reducible refine .foldl _ ?_ ?_
    | split
    | dsimp -iota only
    | with_reducible apply Keeps.upd rfl
    | exact Or.inl rfl
    | exact Or.inr rfl

theorem State.busRead_keeps (s : State) (owner a n : Nat) : Keeps 0x80000000000000000000000000000000000000000000000000c0000000210004000000000000000000 s (State.busRead s owner a n).1 := by
  unfold State.busRead
  repeat' first
    | with_reducible exact .refl _
    | with_reducible assumption
    | (extract_lets +onlyGivenNames y_; refine Keeps.cut (y := y_) ?_ ?_; rotate_left; clear_value y_; intro _; rotate_left; dsimp -iota only [y_]; clear y_)
    | exact rfl
    | with_reducible intro _
    | with_reducible refine .ite ?_ ?_
    | with_reducible refine .ite1 ?_ ?_
    | with_reducible refine (State.readWing_keeps _ _ _ _).trans ?_ ?_
    | with_reducible refine (Keeps.fst (State.readWing_keeps _ _ _ _) ‹_›).trans ?_ ?_
    | with_reducible refine (State.readThorax_keeps _ _ _ _).trans ?_ ?_
    | with_reducible refine (Keeps.fst (State.readThorax_keeps _ _ _ _) ‹_›).trans ?_ ?_
    | split
    | dsimp -iota only

theorem State.busWrite_keeps (s : State) (owner a : Nat) (bs : List Byte) : Keeps 0xe7fffff000000000000000000000000000000000000000007fffffffffffffffffffffffffffffffff s (State.busWrite s owner a bs).1 := by
  unfold State.busWrite
  repeat' first
    | with_reducible exact .refl _
    | with_reducible assumption
    | (extract_lets +onlyGivenNames y_; refine Keeps.cut (y := y_) ?_ ?_; rotate_left; clear_value y_; intro _; rotate_left; dsimp -iota only [y_]; clear y_)
    | exact rfl
    | with_reducible intro _
    | with_reducible refine .ite ?_ ?_
    | with_reducible refine .ite1 ?_ ?_
    | with_reducible refine (State.poolWrite_keeps _ _ _).trans ?_ ?_
    | with_reducible refine (State.writeWing_keeps _ _ _ _ _).trans ?_ ?_
    | with_reducible refine (Keeps.fst (State.writeWing_keeps _ _ _ _ _) ‹_›).trans ?_ ?_
    | with_reducible refine (State.writeThorax_keeps _ _ _ _ _).trans ?_ ?_
    | with_reducible refine (Keeps.fst (State.writeThorax_keeps _ _ _ _ _) ‹_›).trans ?_ ?_
    | with_reducible refine (State.writeMem_keeps _ _ _).trans ?_ ?_
    | exact all_bit rfl _
    | split
    | dsimp -iota only

theorem State.antRequest_keeps {m : Nat} (s : State) (a : Nat) (good : Bool) (f : AntFrame) (eff : State → State × Nat × List Byte) (hm : sub 0x4080000000000000000000000000000000000000000000000000000010000000000000000000000000 m = true) (he : ∀ t, Keeps m t (eff t).1) : Keeps m s (s.antRequest a good f eff) := by
  refine State.antReceive_keeps _ _ _ _ _ (sub_left hm rfl) fun t => ?_
  have hr : ∀ (u : State) (st : Nat) (bs : List Byte), Keeps m u (u.antReply a f st bs) := fun u st bs =>
    (State.antReply_keeps _ _ _ _ _).trans (sub_left hm rfl) (.refl u)
  refine .ite (fun _ => hr _ _ _) fun _ => .ite (fun _ => hr _ _ _) fun _ => ?_
  have k := he t
  generalize eff t = q at k ⊢
  obtain ⟨u, st, data⟩ := q
  exact Keeps.trans (s := u) (hr u st data) (sub_self _) k

theorem State.countEcc_keeps (s : State) (a bad : Nat) : Keeps 0x80000000000000000 s (State.countEcc s a bad) := by
  unfold State.countEcc
  repeat' first
    | with_reducible exact .refl _
    | with_reducible assumption
    | exact rfl
    | with_reducible intro _
    | with_reducible refine .ite ?_ ?_
    | with_reducible refine (State.bump_keeps _ _ _ _ ?_).trans (sub_self _) ?_
    | split

theorem execAntRead_keeps (port : Antenna) (good silent : Bool) (bad : Fin 65) (f : AntFrame) (s : State) {z_ : State} (h_ : execAntRead port good silent bad f s = .next z_) : Keeps 0xc0800000000000000000000000000000000000000000000000c0000010210004080000000000000000 s z_ := by
  unfold execAntRead at h_
  refine actAnt_keeps h_ (State.antRequest_keeps _ _ _ _ _ rfl fun t => ?_)
  refine .ite1 (fun _ => .refl t) fun _ => .ite1 (fun _ => .refl t) fun _ => ?_
  exact (State.busRead_keeps _ _ _ _).trans rfl ((State.countEcc_keeps _ _ _).trans rfl (.refl t))

theorem execAntWrite_keeps (port : Antenna) (good silent took : Bool) (f : AntFrame) (s : State) {z_ : State} (h_ : execAntWrite port good silent took f s = .next z_) : Keeps 0xe7fffff000000000000000000000000000000000000000007fffffffffffffffffffffffffffffffff s z_ := by
  unfold execAntWrite at h_
  refine actAnt_keeps h_ (State.antRequest_keeps _ _ _ _ _ rfl fun t => ?_)
  refine .ite1 (fun _ => .refl t) fun _ => ?_
  have k := State.busWrite_keeps t (port.val + 1) f.addr.toNat f.data
  generalize t.busWrite (port.val + 1) f.addr.toNat f.data = q at k ⊢
  obtain ⟨u, st⟩ := q
  have k' : Keeps 0xe7fffff000000000000000000000000000000000000000007fffffffffffffffffffffffffffffffff t u := Keeps.trans (t := u) k rfl (.refl t)
  exact .ite1 (fun _ => .ite (fun _ => k') fun _ => .refl t) fun _ => k'

theorem execAntMbxSend_keeps (port : Antenna) (good : Bool) (f : AntFrame) (s : State) {z_ : State} (h_ : execAntMbxSend port good f s = .next z_) : Keeps 0x40800000000000000000000000000000000000000000000000000000115e0000000000000000000000 s z_ := by
  unfold execAntMbxSend at h_
  refine actAnt_keeps h_ (State.antRequest_keeps _ _ _ _ _ rfl fun t => ?_)
  refine .ite1 (fun _ => .refl t) fun _ => .ite1 (fun _ => .refl t) fun _ => ?_
  have k := State.mbxSend_keeps t (port.val + 1) f.addr.toNat (wordOfBytes f.data)
  generalize t.mbxSend (port.val + 1) f.addr.toNat (wordOfBytes f.data) = q at k ⊢
  obtain ⟨u, st⟩ := q
  exact Keeps.trans (t := u) k rfl (.refl t)

theorem execAcdSliceClear_keeps (owner : Owner) (slice : Slice) (s : State) {z_ : State} (h_ : execAcdSliceClear owner slice s = .next z_) : Keeps 0x400000000000000000000000000000000000000000000000000000000000000000001c000000000000 s z_ := by
  unfold execAcdSliceClear at h_
  refine accessBy_keeps h_ rfl ?_
  repeat' first
    | with_reducible exact .refl _
    | with_reducible assumption
    | exact rfl
    | with_reducible intro _
    | with_reducible refine .ite ?_ ?_
    | with_reducible refine (State.clearSlice_keeps _ _).trans ?_ ?_
    | with_reducible refine (State.setFld_keeps _ _ _ _ ?_).trans (sub_self _) ?_
    | split

theorem execRegisterWrite_keeps (owner : Owner) (addr value : Word) (s : State) {z_ : State} (h_ : execRegisterWrite owner addr value s = .next z_) : Keeps 0xe7fffff000000000000000000000000000000000000000007fffffffffffffffffffffffffffffffff s z_ := by
  unfold execRegisterWrite at h_
  split at h_
  · obtain rfl := Host.Outcome.next.inj h_
    exact .refl s
  · have k := State.busWrite_keeps s owner.val addr.toNat (leBytes 8 value.toNat)
    generalize s.busWrite owner.val addr.toNat (leBytes 8 value.toNat) = q at k h_
    obtain ⟨u, st⟩ := q
    obtain rfl := Host.Outcome.next.inj h_
    exact (State.emit_keeps _ _).trans rfl (Keeps.trans (t := u) k rfl (.refl s))

end Sys2Proof.Machine
end

