-- ==== Sys2Proof/Laws/KeepsTick.lean ====
section
/-! SUPPORT. Sys2Proof/Laws/KeepsTick.lean: what each operation of Machine/Tick.lean leaves alone. -/

namespace Sys2Proof.Machine

theorem State.tickCovers_keeps (s : State) : Keeps 0x20000000000000000000000000000000000000000000000000000000000000000000000000000 s (State.tickCovers s) := by
  unfold State.tickCovers
  repeat' first
    | with_reducible exact .refl _
    | with_reducible assumption
    | exact rfl
    | with_reducible intro _
    | with_reducible refine .ite ?_ ?_
    | split
    | with_reducible apply Keeps.upd rfl
    | exact Or.inl rfl
    | exact Or.inr rfl

theorem State.tickColl_keeps (s : State) : Keeps 0x100000000000000000000000000000000000000000000000000000000000000000000000000000 s (State.tickColl s) := by
  unfold State.tickColl
  repeat' first
    | with_reducible exact .refl _
    | with_reducible assumption
    | exact rfl
    | with_reducible intro _
    | with_reducible refine .ite ?_ ?_
    | split
    | with_reducible apply Keeps.upd rfl
    | exact Or.inl rfl
    | exact Or.inr rfl

theorem State.tickManager_keeps (s : State) (m : Wb) : Keeps 0x4012000000000000000000000000000000000000000000000000000000000000000000000700000000 s (State.tickManager s m) := by
  unfold State.tickManager
  repeat' first
    | with_reducible exact .refl _
    | with_reducible assumption
    | exact rfl
    | with_reducible intro _
    | with_reducible refine .ite ?_ ?_
    | with_reducible refine (State.sendDelta_keeps _ _).trans ?_ ?_
    | with_reducible refine (State.countHold_keeps _ _).trans ?_ ?_
    | with_reducible refine (State.countSilence_keeps _ _).trans ?_ ?_
    | with_reducible refine (State.sendBeat_keeps _).trans ?_ ?_
    | split

theorem State.tick_keeps (s : State) (n : Wb) : Keeps 0x40325360000000000000000000000000000000000000000000000000000080000000008007008c0020 s (State.tick s n) := by
  unfold State.tick
  repeat' first
    | with_reducible exact .refl _
    | with_reducible assumption
    | (extract_lets +onlyGivenNames y_; refine Keeps.cut (y := y_) ?_ ?_; rotate_left; clear_value y_; intro _; rotate_left; dsimp -iota only [y_]; clear y_)
    | exact rfl
    | with_reducible intro _
    | with_reducible refine .ite ?_ ?_
    | with_reducible refine (State.tickManager_keeps _ _).trans ?_ ?_
    | with_reducible refine (State.tickColl_keeps _).trans ?_ ?_
    | with_reducible refine (State.tickCovers_keeps _).trans ?_ ?_
    | with_reducible refine (State.freeHeld_keeps _).trans ?_ ?_
    | with_reducible refine (State.sweepNodes_keeps _).trans ?_ ?_
    | with_reducible refine (State.sendImagePieces_keeps _).trans ?_ ?_
    | with_reducible refine (State.freshClaims_keeps _).trans ?_ ?_
    | with_reducible refine (State.setFld_keeps _ _ _ _ ?_).trans (sub_self _) ?_
    | split
    | dsimp -iota only

theorem execWingbeatTick_keeps (s : State) {z_ : State} (h_ : execWingbeatTick s = .next z_) : Keeps 0x40325360000000000000000000000000000000000000000000000000000080000000008007008c0020 s z_ := by
  unfold execWingbeatTick at h_
  refine act_keeps h_ ?_
  repeat' first
    | with_reducible exact .refl _
    | with_reducible assumption
    | (extract_lets +onlyGivenNames y_; refine Keeps.cut (y := y_) ?_ ?_; rotate_left; clear_value y_; intro _; rotate_left; dsimp -iota only [y_]; clear y_)
    | exact rfl
    | with_reducible intro _
    | with_reducible refine .ite ?_ ?_
    | with_reducible refine (State.tick_keeps _ _).trans ?_ ?_
    | split
    | dsimp -iota only

theorem State.countHour_keeps (s : State) : Keeps 0x800000000000000000000000000000000000000000000000000000800000000000000000000000000 s (State.countHour s) := by
  unfold State.countHour
  repeat' first
    | with_reducible exact .refl _
    | with_reducible assumption
    | (extract_lets +onlyGivenNames y_; refine Keeps.cut (y := y_) ?_ ?_; rotate_left; clear_value y_; intro _; rotate_left; dsimp -iota only [y_]; clear y_)
    | exact rfl
    | with_reducible intro _
    | with_reducible refine .ite ?_ ?_
    | with_reducible refine (State.setFld_keeps _ _ _ _ ?_).trans (sub_self _) ?_
    | split
    | dsimp -iota only
    | with_reducible apply Keeps.upd rfl
    | exact Or.inl rfl
    | exact Or.inr rfl

theorem State.passTime_keeps (s : State) : Keeps 0x800000000000000000000000000000000000000000000000000000800000000000000000000000001 s (State.passTime s) := by
  unfold State.passTime
  repeat' first
    | with_reducible exact .refl _
    | with_reducible assumption
    | (extract_lets +onlyGivenNames y_; refine Keeps.cut (y := y_) ?_ ?_; rotate_left; clear_value y_; intro _; rotate_left; dsimp -iota only [y_]; clear y_)
    | exact rfl
    | with_reducible intro _
    | with_reducible refine .ite ?_ ?_
    | with_reducible refine (State.countHour_keeps _).trans ?_ ?_
    | with_reducible refine (State.setReg_keeps _ _ _ _ ?_).trans (sub_self _) ?_
    | split
    | dsimp -iota only

end Sys2Proof.Machine
end

