-- ==== Sys2Proof/Laws/KeepsFinish.lean ====
section
/-! SUPPORT. Sys2Proof/Laws/KeepsFinish.lean: what each operation of Machine/Finish.lean leaves alone. -/

namespace Sys2Proof.Machine

theorem State.settleOp_keeps (s : State) (q i : Nat) : Keeps 0x220000000000000000000000000000000000000000000000000000000000000300000000000000 s (State.settleOp s q i) := by
  unfold State.settleOp
  repeat' first
    | with_reducible exact .refl _
    | with_reducible assumption
    | (extract_lets +onlyGivenNames y_; refine Keeps.cut (y := y_) ?_ ?_; rotate_left; clear_value y_; intro _; rotate_left; dsimp -iota only [y_]; clear y_)
    | exact rfl
    | with_reducible intro _
    | with_reducible refine .ite ?_ ?_
    | with_reducible refine (State.endOp_keeps _ _ _ _).trans ?_ ?_
    | split
    | dsimp -iota only

theorem State.settleDispatch_keeps (s : State) (r : RunCmd) : Keeps 0x4000c52000000000000000000000000000000000000000000000000000000000000000000000880000 s (State.settleDispatch s r) := by
  unfold State.settleDispatch
  repeat' first
    | with_reducible exact .refl _
    | with_reducible assumption
    | exact rfl
    | with_reducible intro _
    | with_reducible refine .ite ?_ ?_
    | with_reducible refine (State.writeOrigins_keeps _ _ _).trans ?_ ?_
    | split

theorem execCommandComplete_keeps (queue : Queue) (index : BitVec 32) (s : State) {z_ : State} (h_ : execCommandComplete queue index s = .next z_) : Keeps 0x4000e7a000000000000000000000000000000000000000000000000000000000000300440000880000 s z_ := by
  unfold execCommandComplete at h_
  refine act_keeps h_ ?_
  repeat' first
    | with_reducible exact .refl _
    | with_reducible assumption
    | (extract_lets +onlyGivenNames y_; refine Keeps.cut (y := y_) ?_ ?_; rotate_left; clear_value y_; intro _; rotate_left; dsimp -iota only [y_]; clear y_)
    | exact rfl
    | with_reducible intro _
    | with_reducible refine .ite ?_ ?_
    | with_reducible refine (State.settleDispatch_keeps _ _).trans ?_ ?_
    | with_reducible refine (State.settleOp_keeps _ _ _).trans ?_ ?_
    | with_reducible refine (State.complete_keeps _ _ _).trans ?_ ?_
    | split
    | dsimp -iota only

end Sys2Proof.Machine
end

