-- ==== Sys2Proof/Laws/Frame.lean ====
section
/-! SUPPORT. Sys2Proof/Laws/Frame.lean: what each command leaves alone, from the laws of its operations. -/

namespace Sys2Proof.Machine

/-- The bit of a part in a mask. -/
def Part.bit (p : Part) : Nat := 300 + p.ctorIdx

/-- The mask of a list of parts and registers. -/
def maskOf (ps : List Part) (rs : List RegName) : Nat :=
  (ps.map Part.bit ++ rs.map RegName.code).foldl (fun m k => m ||| 2 ^ k) 0

theorem testBit_pow_foldl (l : List Nat) (m k : Nat) :
    (l.foldl (fun m k => m ||| 2 ^ k) m).testBit k = (m.testBit k || decide (k ∈ l)) := by
  induction l generalizing m with
  | nil => simp
  | cons j l ih =>
    rw [List.foldl_cons, ih, Nat.testBit_or, Nat.testBit_two_pow]
    by_cases h : j = k
    · simp [h]
    · have h1 : ¬k = j := fun e => h e.symm
      simp [h, h1]

theorem maskOf_bit (ps : List Part) (rs : List RegName) (k : Nat) :
    (maskOf ps rs).testBit k = decide (k ∈ ps.map Part.bit ++ rs.map RegName.code) := by
  rw [maskOf, testBit_pow_foldl]
  simp

/-- A mask may grow. -/
theorem Keeps.grow {a m : Nat} {s t : State} (h : Keeps a s t) (hs : sub a m = true) : Keeps m s t := h.trans hs (.refl s)

/-- What a command leaves alone: every part and register that its lists do not name. -/
theorem exec_keeps {c : Instr} {s t : State} (h : exec c s = .next t) : Keeps (maskOf c.parts c.regs) s t := by
  cases c with
  | wingbeatTick =>
    exact (execWingbeatTick_keeps s h).grow
      (show sub _ (maskOf [.ports, .eps, .net, .que, .coll, .sec, .agent, .twin, .fw, .out]
        [.FT_WB_NUM, .XBR_WAITS, .XBR_HDR_ERR, .EDG_DROPS, .TWN_HEARTBEAT, .TWN_SYNC, .TWN_REVERT, .ACD_SLOTS, .SEC_SEAL_EVENTS]) = true from by decide +kernel)
  | budgetOverrun x0 =>
    exact (execBudgetOverrun_keeps x0 s h).grow
      (show sub _ (maskOf [.ctxs, .que, .coll, .hawk, .mem, .free]
        [.FT_OVERRUN, .QUE_CQ_INDEX, .ACD_SLOTS, .HWK_CORE_STATUS, .HWK_CORE_COUNTS, .HWK_WING_STATUS, .HWK_REPORTS, .HWK_BQ_STATUS, .HWK_BQ_START]) = true from by decide +kernel)
  | wbLength x0 x1 =>
    exact (execWbLength_keeps x0 x1 s h).grow
      (show sub _ (maskOf [.time, .agent, .twin, .fw, .out, .free]
        []) = true from by decide +kernel)
  | wbChangeReceive x0 x1 =>
    exact (execWbChangeReceive_keeps x0 x1 s h).grow
      (show sub _ (maskOf [.time, .ports, .agent, .twin, .sil, .ants, .chr, .out]
        [.FT_STATUS, .FT_WB_CTL, .MGR_ROLE, .TWN_STATUS, .TWN_AGENT, .TWN_EVENTS, .ANT_COUNTS, .SIL_STATUS, .SIL_COUNTS, .CHR_STATUS, .CHR_ARM]) = true from by decide +kernel)
  | wbChangeDecide =>
    exact (execWbChangeDecide_keeps s h).grow
      (show sub _ (maskOf [.time, .agent, .twin, .fw, .out]
        []) = true from by decide +kernel)
  | wbChangeQuery =>
    exact (execWbChangeQuery_keeps s h).grow
      (show sub _ (maskOf [.agent, .out]
        []) = true from by decide +kernel)
  | wbChangeApply =>
    exact (execWbChangeApply_keeps s h).grow
      (show sub _ (maskOf [.time, .sil, .chr]
        [.FT_WB_CTL, .FT_WB_BASE_FTU, .FT_WB_BASE_NUM, .FT_WB_NUM, .SIL_STATUS, .SIL_COUNTS, .CHR_STATUS, .CHR_ARM]) = true from by decide +kernel)
  | wbBaseReceive x0 x1 =>
    exact (execWbBaseReceive_keeps x0 x1 s h).grow
      (show sub _ (maskOf [.time, .ports, .agent, .twin, .sil, .ants, .chr, .out]
        [.FT_STATUS, .FT_WB_CTL, .FT_WB_BASE_FTU, .FT_WB_BASE_NUM, .FT_WB_NUM, .MGR_ROLE, .TWN_STATUS, .TWN_AGENT, .TWN_EVENTS, .ANT_COUNTS, .SIL_STATUS, .SIL_COUNTS, .CHR_STATUS, .CHR_ARM]) = true from by decide +kernel)
  | timeSetSend x0 =>
    exact (execTimeSetSend_keeps x0 s h).grow
      (show sub _ (maskOf [.ports, .out]
        []) = true from by decide +kernel)
  | timeSetReceive x0 x1 =>
    exact (execTimeSetReceive_keeps x0 x1 s h).grow
      (show sub _ (maskOf [.time, .ports, .sil, .chr]
        [.FT_COUNT, .FT_STATUS, .FT_COAST, .SIL_STATUS, .SIL_COUNTS, .CHR_STATUS, .CHR_ARM]) = true from by decide +kernel)
  | lossOfUpstream =>
    exact (execLossOfUpstream_keeps s h).grow
      (show sub _ (maskOf [.time, .sil, .chr]
        [.FT_STATUS, .FT_COAST, .SIL_STATUS, .SIL_COUNTS, .CHR_STATUS, .CHR_ARM]) = true from by decide +kernel)
  | ppsInEdge =>
    exact (execPpsInEdge_keeps s h).grow
      (show sub _ (maskOf [.time]
        [.FT_PPS_CTL, .FT_PPS_CAPTURE]) = true from by decide +kernel)
  | ppsOutStart =>
    exact (execPpsOutStart_keeps s h).grow
      (show sub _ (maskOf [.time]
        []) = true from by decide +kernel)
  | ppsOutEnd =>
    exact (execPpsOutEnd_keeps s h).grow
      (show sub _ (maskOf [.time]
        []) = true from by decide +kernel)
  | portMode x0 x1 x2 =>
    exact (execPortMode_keeps x0 x1 x2 s h).grow
      (show sub _ (maskOf [.ports, .net, .sec, .route, .agent, .twin, .fw, .sil, .ants, .chr, .out]
        [.PRT_CTL, .PRT_STATUS, .PRT_PEER_ID, .PRT_PEER_SERIAL, .PRT_PEER_DEVICE, .PRT_QUAL_RESULT, .PRT_FEC_COUNT, .TWN_STATUS, .TWN_SYNC, .TWN_EVENTS, .TWN_PORT_STATUS, .ANT_COUNTS, .RST_COUNTS, .SIL_STATUS, .SIL_COUNTS, .CHR_STATUS, .CHR_ARM]) = true from by decide +kernel)
  | lossOfLink x0 =>
    exact (execLossOfLink_keeps x0 s h).grow
      (show sub _ (maskOf [.ports, .net, .sec, .route, .agent, .twin, .sil, .ants, .chr, .out]
        [.PRT_STATUS, .PRT_EVENTS, .TWN_STATUS, .TWN_SYNC, .TWN_EVENTS, .TWN_PORT_STATUS, .ANT_COUNTS, .INS_FAST, .SIL_STATUS, .SIL_COUNTS, .CHR_STATUS, .CHR_ARM]) = true from by decide +kernel)
  | laneFail x0 x1 =>
    exact (execLaneFail_keeps x0 x1 s h).grow
      (show sub _ (maskOf [.ports, .net, .sec, .route, .agent, .twin, .fw, .sil, .ants, .cocoon, .chr, .out]
        [.PRT_STATUS, .PRT_QUAL_RESULT, .PRT_EVENTS, .TWN_STATUS, .TWN_SYNC, .TWN_EVENTS, .TWN_PORT_STATUS, .ANT_COUNTS, .INS_FAST, .SPR_STATUS, .SPR_EVENTS, .SIL_STATUS, .SIL_COUNTS, .CHR_STATUS, .CHR_ARM]) = true from by decide +kernel)
  | laneMapReceive x0 x1 x2 =>
    exact (execLaneMapReceive_keeps x0 x1 x2 s h).grow
      (show sub _ (maskOf [.ports, .net, .sec, .route, .agent, .twin, .sil, .ants, .chr, .out]
        [.PRT_STATUS, .PRT_EVENTS, .TWN_STATUS, .TWN_SYNC, .TWN_EVENTS, .TWN_PORT_STATUS, .ANT_COUNTS, .INS_FAST, .SIL_STATUS, .SIL_COUNTS, .CHR_STATUS, .CHR_ARM]) = true from by decide +kernel)
  | berWindowEnd x0 x1 x2 x3 x4 =>
    exact (execBerWindowEnd_keeps x0 x1 x2 x3 x4 s h).grow
      (show sub _ (maskOf [.ports, .net, .sec, .route, .agent, .twin, .fw, .sil, .ants, .cocoon, .chr, .out]
        [.PRT_STATUS, .PRT_QUAL_RESULT, .PRT_FEC_COUNT, .PRT_EVENTS, .TWN_STATUS, .TWN_SYNC, .TWN_EVENTS, .TWN_PORT_STATUS, .ANT_COUNTS, .INS_FAST, .SPR_STATUS, .SPR_EVENTS, .SIL_STATUS, .SIL_COUNTS, .CHR_STATUS, .CHR_ARM]) = true from by decide +kernel)
  | identSend x0 =>
    exact (execIdentSend_keeps x0 s h).grow
      (show sub _ (maskOf [.out]
        []) = true from by decide +kernel)
  | identReceive x0 x1 =>
    exact (execIdentReceive_keeps x0 x1 s h).grow
      (show sub _ (maskOf [.ports, .route, .agent, .twin, .fw, .sil, .chr, .out]
        [.PRT_STATUS, .PRT_PEER_ID, .PRT_PEER_SERIAL, .PRT_PEER_DEVICE, .PRT_QUAL_RESULT, .TWN_PORT_STATUS, .SIL_STATUS, .SIL_COUNTS, .CHR_STATUS, .CHR_ARM]) = true from by decide +kernel)
  | identTimeout x0 =>
    exact (execIdentTimeout_keeps x0 s h).grow
      (show sub _ (maskOf [.ports, .net, .sec, .twin, .ants]
        [.PRT_STATUS, .TWN_STATUS, .TWN_SYNC, .TWN_EVENTS, .TWN_PORT_STATUS, .ANT_COUNTS]) = true from by decide +kernel)
  | qualPhase1End x0 x1 x2 =>
    exact (execQualPhase1End_keeps x0 x1 x2 s h).grow
      (show sub _ (maskOf [.ports, .out]
        []) = true from by decide +kernel)
  | qualPhase2End x0 x1 x2 x3 =>
    exact (execQualPhase2End_keeps x0 x1 x2 x3 s h).grow
      (show sub _ (maskOf [.ports, .agent, .twin, .fw, .sil, .chr, .out, .free]
        [.PRT_STATUS, .PRT_QUAL_RESULT, .TWN_PORT_STATUS, .INS_FAST, .SIL_STATUS, .SIL_COUNTS, .CHR_STATUS, .CHR_ARM]) = true from by decide +kernel)
  | qualReportReceive x0 x1 =>
    exact (execQualReportReceive_keeps x0 x1 s h).grow
      (show sub _ (maskOf [.ports, .agent, .twin, .fw, .sil, .chr, .out]
        [.PRT_STATUS, .PRT_QUAL_RESULT, .TWN_PORT_STATUS, .INS_FAST, .SIL_STATUS, .SIL_COUNTS, .CHR_STATUS, .CHR_ARM]) = true from by decide +kernel)
  | peerSilent x0 =>
    exact (execPeerSilent_keeps x0 s h).grow
      (show sub _ (maskOf [.ports, .twin, .fw, .sil, .chr]
        [.PRT_STATUS, .PRT_QUAL_RESULT, .TWN_PORT_STATUS, .INS_FAST, .SIL_STATUS, .SIL_COUNTS, .CHR_STATUS, .CHR_ARM]) = true from by decide +kernel)
  | frozenSetReceive x0 =>
    exact (execFrozenSetReceive_keeps x0 s h).grow
      (show sub _ (maskOf [.ports, .net, .sec, .route, .agent, .sil, .chr, .out]
        [.PRT_STATUS, .SIL_STATUS, .SIL_COUNTS, .CHR_STATUS, .CHR_ARM]) = true from by decide +kernel)
  | frozenSetStop x0 =>
    exact (execFrozenSetStop_keeps x0 s h).grow
      (show sub _ (maskOf [.ports, .net, .sec, .twin, .ants]
        [.PRT_STATUS, .TWN_STATUS, .TWN_SYNC, .TWN_EVENTS, .TWN_PORT_STATUS, .ANT_COUNTS]) = true from by decide +kernel)
  | serviceFrameReceive x0 x1 =>
    exact (execServiceFrameReceive_keeps x0 x1 s h).grow
      (show sub _ (maskOf [.fw, .out]
        []) = true from by decide +kernel)
  | bulkDatagramReceive x0 x1 x2 =>
    exact (execBulkDatagramReceive_keeps x0 x1 x2 s h).grow
      (show sub _ (maskOf [.pool, .sec, .mem, .fw, .out]
        [.SEC_SEAL_EVENTS]) = true from by decide +kernel)
  | bulkMgmtDatagram x0 x1 x2 =>
    exact (execBulkMgmtDatagram_keeps x0 x1 x2 s h).grow
      (show sub _ (maskOf [.pool, .sec, .mem, .fw, .out]
        [.SEC_SEAL_EVENTS]) = true from by decide +kernel)
  | bulkAckTimer x0 x1 =>
    exact (execBulkAckTimer_keeps x0 x1 s h).grow
      (show sub _ (maskOf [.fw, .out]
        []) = true from by decide +kernel)
  | bulkResendTimeout x0 x1 =>
    exact (execBulkResendTimeout_keeps x0 x1 s h).grow
      (show sub _ (maskOf [.fw, .out]
        []) = true from by decide +kernel)
  | flitReceive x0 x1 x2 =>
    exact (execFlitReceive_keeps x0 x1 x2 s h).grow
      (show sub _ (maskOf [.ports, .net, .sec, .out]
        [.PRT_EVENTS, .XBR_WAITS]) = true from by decide +kernel)
  | packetForward x0 x1 =>
    exact (execPacketForward_keeps x0 x1 s h).grow
      (show sub _ (maskOf [.ports, .net, .sec, .out]
        [.PRT_EVENTS, .XBR_HDR_ERR, .SEC_SEAL_EVENTS]) = true from by decide +kernel)
  | packetDeliver x0 x1 x2 =>
    exact (execPacketDeliver_keeps x0 x1 x2 s h).grow
      (show sub _ (maskOf [.ports, .eps, .net, .sec, .out]
        [.XBR_HDR_ERR, .EDG_DROPS, .EDG_E2E, .QUE_DROPS]) = true from by decide +kernel)
  | creditWaitEscape x0 x1 =>
    exact (execCreditWaitEscape_keeps x0 x1 s h).grow
      (show sub _ (maskOf [.ports, .net, .sec, .out]
        [.XBR_WAITS]) = true from by decide +kernel)
  | creditWaitDrop x0 x1 =>
    exact (execCreditWaitDrop_keeps x0 x1 s h).grow
      (show sub _ (maskOf [.net, .out]
        [.XBR_WAITS]) = true from by decide +kernel)
  | creditAuditSend x0 =>
    exact (execCreditAuditSend_keeps x0 s h).grow
      (show sub _ (maskOf [.out]
        []) = true from by decide +kernel)
  | creditAuditReceive x0 x1 =>
    exact (execCreditAuditReceive_keeps x0 x1 s h).grow
      (show sub _ (maskOf [.ports, .net, .sec, .out]
        []) = true from by decide +kernel)
  | edgeIngress x0 x1 =>
    exact (execEdgeIngress_keeps x0 x1 s h).grow
      (show sub _ (maskOf [.ports, .eps, .net, .sec, .out]
        [.PRT_EVENTS, .XBR_WAITS, .XBR_HDR_ERR, .EDG_DROPS, .SEC_SEAL_EVENTS]) = true from by decide +kernel)
  | ackSend x0 x1 x2 x3 x4 =>
    exact (execAckSend_keeps x0 x1 x2 x3 x4 s h).grow
      (show sub _ (maskOf [.ports, .net, .sec, .out]
        [.XBR_HDR_ERR, .EDG_DROPS]) = true from by decide +kernel)
  | ackReceive x0 x1 =>
    exact (execAckReceive_keeps x0 x1 s h).grow
      (show sub _ (maskOf [.ports, .eps, .net, .que, .pool, .sec, .mem, .out]
        [.XBR_HDR_ERR, .EDG_DROPS]) = true from by decide +kernel)
  | resendTimeout x0 x1 x2 x3 x4 =>
    exact (execResendTimeout_keeps x0 x1 x2 x3 x4 s h).grow
      (show sub _ (maskOf [.ports, .net, .sec, .out]
        [.XBR_HDR_ERR, .EDG_DROPS, .EDG_E2E]) = true from by decide +kernel)
  | resendLimit x0 x1 x2 x3 x4 =>
    exact (execResendLimit_keeps x0 x1 x2 x3 x4 s h).grow
      (show sub _ (maskOf [.ports, .net, .que, .pool, .dma, .coll, .sec, .mem, .out]
        [.XBR_HDR_ERR, .EDG_DROPS, .ACD_EVENTS, .ATL_CH_STATUS]) = true from by decide +kernel)
  | linkLossReceive x0 x1 x2 x3 =>
    exact (execLinkLossReceive_keeps x0 x1 x2 x3 s h).grow
      (show sub _ (maskOf [.route, .agent, .twin, .sil, .ants, .chr, .out]
        [.FT_STATUS, .MGR_ROLE, .TWN_STATUS, .TWN_EVENTS, .ANT_COUNTS, .SIL_STATUS, .SIL_COUNTS, .CHR_STATUS, .CHR_ARM]) = true from by decide +kernel)
  | tableWriteReceive x0 x1 =>
    exact (execTableWriteReceive_keeps x0 x1 s h).grow
      (show sub _ (maskOf [.ports, .route, .agent, .twin, .sil, .ants, .chr, .out]
        [.FT_STATUS, .EDG_CTL, .MGR_ROLE, .TWN_STATUS, .TWN_AGENT, .TWN_EVENTS, .ANT_COUNTS, .SIL_STATUS, .SIL_COUNTS, .CHR_STATUS, .CHR_ARM]) = true from by decide +kernel)
  | tableAckReceive x0 x1 =>
    exact (execTableAckReceive_keeps x0 x1 s h).grow
      (show sub _ (maskOf [.agent, .mgr, .twin, .sil, .ants, .chr, .out, .free]
        [.FT_STATUS, .MGR_ROLE, .TWN_STATUS, .TWN_EVENTS, .ANT_COUNTS, .SIL_STATUS, .SIL_COUNTS, .CHR_STATUS, .CHR_ARM]) = true from by decide +kernel)
  | stopReceive x0 x1 x2 =>
    exact (execStopReceive_keeps x0 x1 x2 s h).grow
      (show sub _ (maskOf [.ports, .route, .agent, .twin, .sil, .ants, .chr, .out]
        [.FT_STATUS, .EDG_CTL, .EDG_SWAP_AT, .MGR_ROLE, .TWN_STATUS, .TWN_AGENT, .TWN_EVENTS, .ANT_COUNTS, .SIL_STATUS, .SIL_COUNTS, .CHR_STATUS, .CHR_ARM]) = true from by decide +kernel)
  | drainStopBoundary =>
    exact (execDrainStopBoundary_keeps s h).grow
      (show sub _ (maskOf []
        [.XBR_INFLIGHT]) = true from by decide +kernel)
  | drainCountZero =>
    exact (execDrainCountZero_keeps s h).grow
      (show sub _ (maskOf [.route, .agent, .out]
        [.XBR_INFLIGHT]) = true from by decide +kernel)
  | drainTimeout =>
    exact (execDrainTimeout_keeps s h).grow
      (show sub _ (maskOf [.net, .route, .agent, .out]
        [.XBR_WAITS, .XBR_INFLIGHT]) = true from by decide +kernel)
  | drainZeroReceive x0 =>
    exact (execDrainZeroReceive_keeps x0 s h).grow
      (show sub _ (maskOf [.agent, .mgr, .twin, .sil, .ants, .chr, .out]
        [.FT_STATUS, .MGR_ROLE, .TWN_STATUS, .TWN_EVENTS, .ANT_COUNTS, .SIL_STATUS, .SIL_COUNTS, .CHR_STATUS, .CHR_ARM]) = true from by decide +kernel)
  | swapBroadcast =>
    exact (execSwapBroadcast_keeps s h).grow
      (show sub _ (maskOf [.agent, .mgr, .out]
        []) = true from by decide +kernel)
  | swapReceive x0 x1 =>
    exact (execSwapReceive_keeps x0 x1 s h).grow
      (show sub _ (maskOf [.ports, .agent, .twin, .sil, .ants, .chr, .out]
        [.FT_STATUS, .EDG_CTL, .EDG_SWAP_AT, .MGR_ROLE, .TWN_STATUS, .TWN_AGENT, .TWN_EVENTS, .ANT_COUNTS, .SIL_STATUS, .SIL_COUNTS, .CHR_STATUS, .CHR_ARM]) = true from by decide +kernel)
  | swapApply =>
    exact (execSwapApply_keeps s h).grow
      (show sub _ (maskOf [.ports, .eps, .net, .hawk, .sec, .route, .mgr, .twin, .fw, .ants, .out]
        [.XBR_WAITS, .XBR_HDR_ERR, .XBR_INFLIGHT, .EDG_CTL, .EDG_SWAP_AT, .EDG_DROPS, .MGR_ROUTE, .MGR_FAILURES, .HWK_BQ_STATUS, .SEC_SEAL_EVENTS, .ANT_COUNTS]) = true from by decide +kernel)
  | swapMissed =>
    exact (execSwapMissed_keeps s h).grow
      (show sub _ (maskOf [.ports, .eps, .net, .sec, .route, .mgr, .sil, .chr, .out]
        [.XBR_WAITS, .XBR_HDR_ERR, .XBR_INFLIGHT, .EDG_CTL, .EDG_SWAP_AT, .EDG_DROPS, .SEC_SEAL_EVENTS, .SIL_STATUS, .SIL_COUNTS, .CHR_STATUS, .CHR_ARM]) = true from by decide +kernel)
  | setRole x0 x1 =>
    exact (execSetRole_keeps x0 x1 s h).grow
      (show sub _ (maskOf [.twin, .fw]
        [.PRT_STATUS, .MGR_ROLE, .TWN_PORT_STATUS]) = true from by decide +kernel)
  | mgmtRepeat x0 =>
    exact (execMgmtRepeat_keeps x0 s h).grow
      (show sub _ (maskOf [.agent, .out]
        []) = true from by decide +kernel)
  | nbrReportRepeat x0 =>
    exact (execNbrReportRepeat_keeps x0 s h).grow
      (show sub _ (maskOf [.ports, .out]
        []) = true from by decide +kernel)
  | nbrReportReceive x0 x1 x2 x3 =>
    exact (execNbrReportReceive_keeps x0 x1 x2 x3 s h).grow
      (show sub _ (maskOf [.agent, .mgr, .twin, .sil, .ants, .chr, .out]
        [.FT_STATUS, .MGR_ROLE, .MGR_NBR, .TWN_STATUS, .TWN_EVENTS, .ANT_COUNTS, .SIL_STATUS, .SIL_COUNTS, .CHR_STATUS, .CHR_ARM]) = true from by decide +kernel)
  | nbrVerdictReceive x0 x1 x2 =>
    exact (execNbrVerdictReceive_keeps x0 x1 x2 s h).grow
      (show sub _ (maskOf [.ports, .route, .agent, .twin, .fw, .sil, .ants, .chr, .out]
        [.FT_STATUS, .PRT_STATUS, .PRT_QUAL_RESULT, .MGR_ROLE, .TWN_STATUS, .TWN_AGENT, .TWN_EVENTS, .TWN_PORT_STATUS, .ANT_COUNTS, .INS_FAST, .SIL_STATUS, .SIL_COUNTS, .CHR_STATUS, .CHR_ARM]) = true from by decide +kernel)
  | mapLoad x0 x1 =>
    exact (execMapLoad_keeps x0 x1 s h).grow
      (show sub _ (maskOf [.map, .twin, .fw, .cocoon]
        [.MGR_MAP]) = true from by decide +kernel)
  | adoptNeighbour x0 x1 =>
    exact (execAdoptNeighbour_keeps x0 x1 s h).grow
      (show sub _ (maskOf [.agent, .map, .mgr, .twin, .fw, .sil, .ants, .cocoon, .chr, .out]
        [.MGR_MAP, .MGR_NBR, .ANT_COUNTS, .SIL_STATUS, .SIL_COUNTS, .CHR_STATUS, .CHR_ARM]) = true from by decide +kernel)
  | mapUpdateReceive x0 x1 x2 x3 =>
    exact (execMapUpdateReceive_keeps x0 x1 x2 x3 s h).grow
      (show sub _ (maskOf [.ports, .net, .sec, .route, .agent, .map, .twin, .sil, .ants, .cocoon, .chr, .out]
        [.FT_STATUS, .PRT_CTL, .PRT_STATUS, .PRT_PEER_ID, .PRT_PEER_SERIAL, .PRT_PEER_DEVICE, .PRT_QUAL_RESULT, .PRT_FEC_COUNT, .MGR_ROLE, .MGR_MAP, .TWN_STATUS, .TWN_SYNC, .TWN_AGENT, .TWN_EVENTS, .TWN_PORT_STATUS, .ANT_COUNTS, .RST_COUNTS, .SIL_STATUS, .SIL_COUNTS, .CHR_STATUS, .CHR_ARM]) = true from by decide +kernel)
  | agentStatusSend =>
    exact (execAgentStatusSend_keeps s h).grow
      (show sub _ (maskOf [.agent, .out]
        []) = true from by decide +kernel)
  | agentStatusReceive x0 x1 x2 x3 =>
    exact (execAgentStatusReceive_keeps x0 x1 x2 x3 s h).grow
      (show sub _ (maskOf [.hawk, .agent, .mgr, .twin, .sil, .ants, .chr, .out]
        [.FT_STATUS, .MGR_ROLE, .MGR_NBR, .MGR_FAILURES, .TWN_STATUS, .TWN_EVENTS, .HWK_BQ_STATUS, .ANT_COUNTS, .SIL_STATUS, .SIL_COUNTS, .CHR_STATUS, .CHR_ARM]) = true from by decide +kernel)
  | switchSilent x0 =>
    exact (execSwitchSilent_keeps x0 s h).grow
      (show sub _ (maskOf [.mgr, .sil, .chr]
        [.MGR_FAILURES, .SIL_STATUS, .SIL_COUNTS, .CHR_STATUS, .CHR_ARM]) = true from by decide +kernel)
  | faultReceive x0 x1 =>
    exact (execFaultReceive_keeps x0 x1 s h).grow
      (show sub _ (maskOf [.hawk, .agent, .mgr, .twin, .sil, .ants, .chr, .out]
        [.FT_STATUS, .MGR_ROLE, .MGR_NBR, .MGR_FAILURES, .TWN_STATUS, .TWN_EVENTS, .HWK_BQ_STATUS, .ANT_COUNTS, .SIL_STATUS, .SIL_COUNTS, .CHR_STATUS, .CHR_ARM]) = true from by decide +kernel)
  | routeRecomputeDone x0 x1 x2 =>
    exact (execRouteRecomputeDone_keeps x0 x1 x2 s h).grow
      (show sub _ (maskOf [.hawk, .agent, .mgr, .twin, .fw, .ants, .out]
        [.MGR_ROUTE, .MGR_FAILURES, .HWK_BQ_STATUS, .ANT_COUNTS]) = true from by decide +kernel)
  | sliceTableReceive x0 x1 =>
    exact (execSliceTableReceive_keeps x0 x1 s h).grow
      (show sub _ (maskOf [.ports, .ctxs, .sec, .agent, .twin, .sil, .ants, .chr, .out]
        [.FT_STATUS, .MGR_ROLE, .TWN_STATUS, .TWN_AGENT, .TWN_EVENTS, .SEC_STATUS, .SEC_SLICE_STATUS, .ANT_COUNTS, .SIL_STATUS, .SIL_COUNTS, .CHR_STATUS, .CHR_ARM]) = true from by decide +kernel)
  | sliceCreate x0 x1 x2 x3 =>
    exact (execSliceCreate_keeps x0 x1 x2 x3 s h).grow
      (show sub _ (maskOf [.agent, .mgr, .twin, .fw, .out]
        []) = true from by decide +kernel)
  | sliceMembers x0 x1 x2 x3 x4 =>
    exact (execSliceMembers_keeps x0 x1 x2 x3 x4 s h).grow
      (show sub _ (maskOf [.agent, .mgr, .twin, .fw, .out]
        []) = true from by decide +kernel)
  | sliceQuiesce x0 x1 x2 =>
    exact (execSliceQuiesce_keeps x0 x1 x2 s h).grow
      (show sub _ (maskOf [.agent, .mgr, .twin, .fw, .out]
        []) = true from by decide +kernel)
  | quiesceBoundary x0 =>
    exact (execQuiesceBoundary_keeps x0 s h).grow
      (show sub _ (maskOf [.que, .dma, .coll]
        [.ATL_CH_STATUS, .ATL_EVENTS]) = true from by decide +kernel)
  | sliceQuiesced x0 =>
    exact (execSliceQuiesced_keeps x0 s h).grow
      (show sub _ (maskOf [.mgr, .twin, .fw]
        []) = true from by decide +kernel)
  | quiesceTimeout x0 =>
    exact (execQuiesceTimeout_keeps x0 s h).grow
      (show sub _ (maskOf [.mgr, .twin, .fw]
        []) = true from by decide +kernel)
  | sliceResume x0 x1 x2 =>
    exact (execSliceResume_keeps x0 x1 x2 s h).grow
      (show sub _ (maskOf [.agent, .mgr, .twin, .fw, .out]
        []) = true from by decide +kernel)
  | sliceSeal x0 x1 x2 x3 =>
    exact (execSliceSeal_keeps x0 x1 x2 x3 s h).grow
      (show sub _ (maskOf [.agent, .mgr, .twin, .fw, .out, .free]
        []) = true from by decide +kernel)
  | sealBoundary x0 =>
    exact (execSealBoundary_keeps x0 s h).grow
      (show sub _ (maskOf [.sec, .free]
        [.QUE_CTX_STATUS, .SEC_STATUS, .SEC_SLICE_STATUS]) = true from by decide +kernel)
  | sliceDestroy x0 x1 =>
    exact (execSliceDestroy_keeps x0 x1 s h).grow
      (show sub _ (maskOf [.agent, .mgr, .twin, .fw, .out]
        []) = true from by decide +kernel)
  | switchIn x0 x1 =>
    exact (execSwitchIn_keeps x0 x1 s h).grow
      (show sub _ (maskOf [.mgr, .twin, .fw]
        []) = true from by decide +kernel)
  | switchOut x0 x1 x2 =>
    exact (execSwitchOut_keeps x0 x1 x2 s h).grow
      (show sub _ (maskOf [.mgr, .twin, .fw]
        []) = true from by decide +kernel)
  | planExport x0 x1 x2 x3 x4 x5 x6 x7 x8 =>
    exact (execPlanExport_keeps x0 x1 x2 x3 x4 x5 x6 x7 x8 s h).grow
      (show sub _ (maskOf [.mgr, .twin, .fw, .out]
        []) = true from by decide +kernel)
  | planPrepare x0 x1 =>
    exact (execPlanPrepare_keeps x0 x1 s h).grow
      (show sub _ (maskOf [.mgr, .twin, .fw]
        [.MGR_PLAN]) = true from by decide +kernel)
  | planApplied x0 x1 =>
    exact (execPlanApplied_keeps x0 x1 s h).grow
      (show sub _ (maskOf [.mgr, .twin, .fw]
        [.MGR_PLAN]) = true from by decide +kernel)
  | planCancel x0 x1 =>
    exact (execPlanCancel_keeps x0 x1 s h).grow
      (show sub _ (maskOf [.mgr, .twin, .fw]
        [.MGR_PLAN]) = true from by decide +kernel)
  | routeStatus x0 =>
    exact (execRouteStatus_keeps x0 s h).grow
      (show sub _ (maskOf [.twin, .fw]
        []) = true from by decide +kernel)
  | epDiscoverSend x0 =>
    exact (execEpDiscoverSend_keeps x0 s h).grow
      (show sub _ (maskOf [.eps, .out]
        []) = true from by decide +kernel)
  | epIdentityReceive x0 x1 x2 x3 =>
    exact (execEpIdentityReceive_keeps x0 x1 x2 x3 s h).grow
      (show sub _ (maskOf [.eps]
        []) = true from by decide +kernel)
  | epHeartbeatReceive x0 x1 =>
    exact (execEpHeartbeatReceive_keeps x0 x1 s h).grow
      (show sub _ (maskOf [.eps, .agent, .out]
        []) = true from by decide +kernel)
  | endpointSilent x0 =>
    exact (execEndpointSilent_keeps x0 s h).grow
      (show sub _ (maskOf [.eps, .agent, .out]
        []) = true from by decide +kernel)
  | epochAckReceive x0 x1 x2 =>
    exact (execEpochAckReceive_keeps x0 x1 x2 s h).grow
      (show sub _ (maskOf [.eps]
        []) = true from by decide +kernel)
  | heartbeatReceive x0 x1 x2 =>
    exact (execHeartbeatReceive_keeps x0 x1 x2 s h).grow
      (show sub _ (maskOf [.agent, .twin, .fw, .sil, .ants, .chr, .out]
        [.FT_STATUS, .MGR_ROLE, .TWN_STATUS, .TWN_HEARTBEAT, .TWN_EVENTS, .ANT_COUNTS, .SIL_STATUS, .SIL_COUNTS, .CHR_STATUS, .CHR_ARM]) = true from by decide +kernel)
  | fenceOnSilence =>
    exact (execFenceOnSilence_keeps s h).grow
      (show sub _ (maskOf [.twin, .sil, .ants, .chr]
        [.FT_STATUS, .MGR_ROLE, .TWN_STATUS, .TWN_EVENTS, .ANT_COUNTS, .SIL_STATUS, .SIL_COUNTS, .CHR_STATUS, .CHR_ARM]) = true from by decide +kernel)
  | managerListenEnd =>
    exact (execManagerListenEnd_keeps s h).grow
      (show sub _ (maskOf [.agent, .twin, .out]
        [.MGR_ROLE, .TWN_STATUS]) = true from by decide +kernel)
  | startProbeEnd =>
    exact (execStartProbeEnd_keeps s h).grow
      (show sub _ (maskOf [.time, .agent, .mgr, .twin, .fw, .sil, .chr, .out, .free]
        [.FT_COUNT, .FT_STATUS, .FT_WB_CTL, .FT_WB_BASE_FTU, .FT_WB_BASE_NUM, .FT_WB_NUM, .FT_COAST, .MGR_ROLE, .TWN_STATUS, .TWN_AGENT, .SIL_STATUS, .SIL_COUNTS, .CHR_STATUS, .CHR_ARM]) = true from by decide +kernel)
  | epochProbeReceive x0 =>
    exact (execEpochProbeReceive_keeps x0 s h).grow
      (show sub _ (maskOf [.agent, .twin, .sil, .ants, .chr, .out]
        [.FT_STATUS, .MGR_ROLE, .TWN_STATUS, .TWN_EVENTS, .ANT_COUNTS, .SIL_STATUS, .SIL_COUNTS, .CHR_STATUS, .CHR_ARM]) = true from by decide +kernel)
  | epochReplyReceive x0 x1 x2 x3 x4 x5 =>
    exact (execEpochReplyReceive_keeps x0 x1 x2 x3 x4 x5 s h).grow
      (show sub _ (maskOf [.hawk, .agent, .mgr, .twin, .fw, .sil, .ants, .chr, .out]
        [.FT_STATUS, .MGR_ROLE, .MGR_ROUTE, .MGR_NBR, .MGR_FAILURES, .TWN_STATUS, .TWN_EVENTS, .HWK_BQ_STATUS, .ANT_COUNTS, .SIL_STATUS, .SIL_COUNTS, .CHR_STATUS, .CHR_ARM]) = true from by decide +kernel)
  | stateDeltaReceive x0 x1 x2 x3 x4 x5 =>
    exact (execStateDeltaReceive_keeps x0 x1 x2 x3 x4 x5 s h).grow
      (show sub _ (maskOf [.time, .agent, .mgr, .twin, .fw, .sil, .ants, .chr, .out]
        [.FT_STATUS, .MGR_ROLE, .TWN_STATUS, .TWN_SYNC, .TWN_REVERT, .TWN_EVENTS, .ANT_COUNTS, .SIL_STATUS, .SIL_COUNTS, .CHR_STATUS, .CHR_ARM]) = true from by decide +kernel)
  | snapshotReceive x0 x1 x2 x3 x4 x5 =>
    exact (execSnapshotReceive_keeps x0 x1 x2 x3 x4 x5 s h).grow
      (show sub _ (maskOf [.time, .agent, .mgr, .twin, .fw, .sil, .ants, .chr, .out]
        [.FT_STATUS, .MGR_ROLE, .TWN_STATUS, .TWN_SYNC, .TWN_REVERT, .TWN_EVENTS, .ANT_COUNTS, .SIL_STATUS, .SIL_COUNTS, .CHR_STATUS, .CHR_ARM]) = true from by decide +kernel)
  | snapshotStart =>
    exact (execSnapshotStart_keeps s h).grow
      (show sub _ (maskOf [.twin, .free]
        [.TWN_SYNC]) = true from by decide +kernel)
  | snapReqReceive x0 =>
    exact (execSnapReqReceive_keeps x0 s h).grow
      (show sub _ (maskOf [.agent, .twin, .sil, .ants, .chr, .out, .free]
        [.FT_STATUS, .MGR_ROLE, .TWN_STATUS, .TWN_SYNC, .TWN_EVENTS, .ANT_COUNTS, .SIL_STATUS, .SIL_COUNTS, .CHR_STATUS, .CHR_ARM]) = true from by decide +kernel)
  | shadowUnsync =>
    exact (execShadowUnsync_keeps s h).grow
      (show sub _ (maskOf [.agent, .twin, .ants, .out]
        [.TWN_STATUS, .TWN_SYNC, .TWN_EVENTS, .ANT_COUNTS]) = true from by decide +kernel)
  | deltaAckReceive x0 x1 =>
    exact (execDeltaAckReceive_keeps x0 x1 s h).grow
      (show sub _ (maskOf [.agent, .twin, .fw, .sil, .ants, .chr, .out]
        [.FT_STATUS, .MGR_ROLE, .TWN_STATUS, .TWN_EVENTS, .ANT_COUNTS, .SIL_STATUS, .SIL_COUNTS, .CHR_STATUS, .CHR_ARM]) = true from by decide +kernel)
  | deltaAckTimeout =>
    exact (execDeltaAckTimeout_keeps s h).grow
      (show sub _ (maskOf [.twin, .fw, .ants]
        [.ANT_COUNTS]) = true from by decide +kernel)
  | takeover =>
    exact (execTakeover_keeps s h).grow
      (show sub _ (maskOf [.time, .agent, .mgr, .twin, .sil, .ants, .chr, .out]
        [.FT_STATUS, .FT_COAST, .MGR_ROLE, .TWN_STATUS, .TWN_AGENT, .TWN_EVENTS, .ANT_COUNTS, .SIL_STATUS, .SIL_COUNTS, .CHR_STATUS, .CHR_ARM]) = true from by decide +kernel)
  | takeoverReceive x0 x1 x2 x3 =>
    exact (execTakeoverReceive_keeps x0 x1 x2 x3 s h).grow
      (show sub _ (maskOf [.ports, .agent, .twin, .sil, .ants, .chr, .out]
        [.FT_STATUS, .MGR_ROLE, .TWN_STATUS, .TWN_AGENT, .TWN_EVENTS, .ANT_COUNTS, .SIL_STATUS, .SIL_COUNTS, .CHR_STATUS, .CHR_ARM]) = true from by decide +kernel)
  | fencedProbe =>
    exact (execFencedProbe_keeps s h).grow
      (show sub _ (maskOf [.agent, .twin, .out]
        []) = true from by decide +kernel)
  | reclaimDecide =>
    exact (execReclaimDecide_keeps s h).grow
      (show sub _ (maskOf [.time, .agent, .mgr, .twin, .sil, .ants, .chr, .out]
        [.FT_STATUS, .FT_COAST, .MGR_ROLE, .TWN_STATUS, .TWN_AGENT, .TWN_EVENTS, .ANT_COUNTS, .SIL_STATUS, .SIL_COUNTS, .CHR_STATUS, .CHR_ARM]) = true from by decide +kernel)
  | holdLeftZero =>
    exact (execHoldLeftZero_keeps s h).grow
      (show sub _ (maskOf [.agent, .twin, .out]
        []) = true from by decide +kernel)
  | takebackReceive x0 x1 x2 =>
    exact (execTakebackReceive_keeps x0 x1 x2 s h).grow
      (show sub _ (maskOf [.agent, .twin, .sil, .ants, .chr, .out]
        [.FT_STATUS, .MGR_ROLE, .TWN_STATUS, .TWN_EVENTS, .ANT_COUNTS, .SIL_STATUS, .SIL_COUNTS, .CHR_STATUS, .CHR_ARM]) = true from by decide +kernel)
  | takebackTimeout =>
    exact (execTakebackTimeout_keeps s h).grow
      (show sub _ (maskOf [.twin]
        [.TWN_REVERT]) = true from by decide +kernel)
  | takebackHandover =>
    exact (execTakebackHandover_keeps s h).grow
      (show sub _ (maskOf [.time, .agent, .twin, .out]
        [.FT_STATUS, .MGR_ROLE, .TWN_STATUS, .TWN_SYNC]) = true from by decide +kernel)
  | takebackComplete =>
    exact (execTakebackComplete_keeps s h).grow
      (show sub _ (maskOf [.time, .agent, .mgr, .twin, .sil, .ants, .chr, .out]
        [.FT_STATUS, .FT_COAST, .MGR_ROLE, .TWN_STATUS, .TWN_REVERT, .TWN_AGENT, .TWN_EVENTS, .ANT_COUNTS, .SIL_STATUS, .SIL_COUNTS, .CHR_STATUS, .CHR_ARM]) = true from by decide +kernel)
  | revertCtl x0 x1 =>
    exact (execRevertCtl_keeps x0 x1 s h).grow
      (show sub _ (maskOf [.twin, .fw]
        [.TWN_STATUS, .TWN_REVERT]) = true from by decide +kernel)
  | ctxCreate x0 x1 x2 x3 x4 x5 =>
    exact (execCtxCreate_keeps x0 x1 x2 x3 x4 x5 s h).grow
      (show sub _ (maskOf [.ctxs, .pool, .twin, .fw, .free]
        [.QUE_CTX_STATUS]) = true from by decide +kernel)
  | ctxBind x0 x1 x2 x3 x4 x5 =>
    exact (execCtxBind_keeps x0 x1 x2 x3 x4 x5 s h).grow
      (show sub _ (maskOf [.ctxs, .twin, .fw]
        []) = true from by decide +kernel)
  | ctxUnbind x0 x1 x2 =>
    exact (execCtxUnbind_keeps x0 x1 x2 s h).grow
      (show sub _ (maskOf [.ctxs, .twin, .fw]
        []) = true from by decide +kernel)
  | ctxReset x0 x1 =>
    exact (execCtxReset_keeps x0 x1 s h).grow
      (show sub _ (maskOf [.ctxs, .twin, .fw]
        [.QUE_CTX_STATUS]) = true from by decide +kernel)
  | ctxDestroy x0 x1 =>
    exact (execCtxDestroy_keeps x0 x1 s h).grow
      (show sub _ (maskOf [.ctxs, .twin, .fw]
        [.QUE_CTX_STATUS]) = true from by decide +kernel)
  | contextResetBoundary x0 =>
    exact (execContextResetBoundary_keeps x0 s h).grow
      (show sub _ (maskOf [.eps, .ctxs, .net, .que, .pool, .dma, .coll, .hawk, .sec, .mem, .twin, .fw, .sil, .ants, .power, .chr, .out]
        [.FT_STATUS, .MGR_ROLE, .TWN_STATUS, .TWN_EVENTS, .QUE_CFG, .QUE_RING_BASE, .QUE_CQ_BASE, .QUE_INDEX, .QUE_CQ_INDEX, .QUE_CTX_STATUS, .QUE_DROPS, .ACD_SLOTS, .HWK_CORE_STATUS, .HWK_CORE_COUNTS, .HWK_WING_STATUS, .HWK_REPORTS, .HWK_BQ_STATUS, .HWK_BQ_START, .HBM_POOL, .ATL_CH_STATUS, .ANT_COUNTS, .PWR_STATUS, .SIL_STATUS, .SIL_COUNTS, .CHR_STATUS, .CHR_ARM]) = true from by decide +kernel)
  | contextResetRelease x0 =>
    exact (execContextResetRelease_keeps x0 s h).grow
      (show sub _ (maskOf [.time, .ports, .eps, .ctxs, .net, .que, .pool, .dma, .coll, .hawk, .sec, .mem, .route, .agent, .map, .mgr, .twin, .fw, .sil, .ants, .ins, .power, .spares, .chr, .out]
        RegName.list) = true from by decide +kernel)
  | queue x0 x1 x2 x3 x4 x5 x6 x7 =>
    exact (execQueue_keeps x0 x1 x2 x3 x4 x5 x6 x7 s h).grow
      (show sub _ (maskOf [.que, .mem, .twin, .fw]
        [.QUE_CFG, .QUE_RING_BASE, .QUE_CQ_BASE, .QUE_INDEX, .QUE_CQ_INDEX]) = true from by decide +kernel)
  | channel x0 x1 x2 x3 x4 =>
    exact (execChannel_keeps x0 x1 x2 x3 x4 s h).grow
      (show sub _ (maskOf [.twin, .fw]
        [.ATL_CH_STATUS]) = true from by decide +kernel)
  | pageGrant x0 x1 x2 x3 x4 x5 =>
    exact (execPageGrant_keeps x0 x1 x2 x3 x4 x5 s h).grow
      (show sub _ (maskOf [.ctxs, .pool, .twin, .fw, .free]
        [.HBM_POOL]) = true from by decide +kernel)
  | grantZerofillDone x0 =>
    exact (execGrantZerofillDone_keeps x0 s h).grow
      (show sub _ (maskOf [.ctxs, .pool, .mem, .twin, .fw]
        []) = true from by decide +kernel)
  | pageUngrant x0 x1 x2 x3 =>
    exact (execPageUngrant_keeps x0 x1 x2 x3 s h).grow
      (show sub _ (maskOf [.ctxs, .pool, .twin, .fw]
        [.HBM_POOL]) = true from by decide +kernel)
  | frameScrubDone x0 =>
    exact (execFrameScrubDone_keeps x0 s h).grow
      (show sub _ (maskOf [.pool, .mem]
        [.HBM_POOL]) = true from by decide +kernel)
  | skipGroup x0 x1 x2 x3 x4 x5 =>
    exact (execSkipGroup_keeps x0 x1 x2 x3 x4 x5 s h).grow
      (show sub _ (maskOf [.coll, .twin, .fw, .free]
        [.SKP_GROUP_STATUS]) = true from by decide +kernel)
  | dbSubmit x0 x1 x2 =>
    exact (execDbSubmit_keeps x0 x1 x2 s h).grow
      (show sub _ (maskOf [.que]
        [.QUE_INDEX, .QUE_DROPS]) = true from by decide +kernel)
  | dbCqHead x0 x1 x2 =>
    exact (execDbCqHead_keeps x0 x1 x2 s h).grow
      (show sub _ (maskOf []
        [.QUE_CQ_INDEX, .QUE_DROPS]) = true from by decide +kernel)
  | dbResume x0 x1 x2 =>
    exact (execDbResume_keeps x0 x1 x2 s h).grow
      (show sub _ (maskOf [.que]
        [.QUE_CFG, .QUE_INDEX, .QUE_DROPS]) = true from by decide +kernel)
  | commandStart x0 =>
    exact (execCommandStart_keeps x0 s h).grow
      (show sub _ (maskOf [.que, .mem]
        [.QUE_INDEX]) = true from by decide +kernel)
  | lapReread x0 =>
    exact (execLapReread_keeps x0 s h).grow
      (show sub _ (maskOf [.que, .mem]
        [.QUE_INDEX]) = true from by decide +kernel)
  | lapTimeout x0 =>
    exact (execLapTimeout_keeps x0 s h).grow
      (show sub _ (maskOf [.que, .mem]
        [.QUE_INDEX]) = true from by decide +kernel)
  | nop x0 x1 =>
    exact (execNop_keeps x0 x1 s h).grow
      (show sub _ (maskOf [.que]
        []) = true from by decide +kernel)
  | coll x0 x1 x2 =>
    exact (execColl_keeps x0 x1 x2 s h).grow
      (show sub _ (maskOf [.ports, .net, .que, .pool, .coll, .sec, .mem, .out]
        [.XBR_HDR_ERR, .EDG_DROPS, .ACD_SLOTS, .ACD_SLOWEST, .ACD_LATE_HIST, .SKP_GROUP_STATUS, .SKP_EVENTS]) = true from by decide +kernel)
  | skip x0 x1 x2 =>
    exact (execSkip_keeps x0 x1 x2 s h).grow
      (show sub _ (maskOf [.ports, .net, .que, .pool, .coll, .sec, .mem, .out]
        [.XBR_HDR_ERR, .EDG_DROPS, .SKP_GROUP_STATUS, .SKP_EVENTS]) = true from by decide +kernel)
  | poolRead x0 x1 =>
    exact (execPoolRead_keeps x0 x1 s h).grow
      (show sub _ (maskOf [.ports, .net, .que, .sec, .out]
        [.XBR_HDR_ERR, .EDG_DROPS]) = true from by decide +kernel)
  | poolWrite x0 x1 =>
    exact (execPoolWrite_keeps x0 x1 s h).grow
      (show sub _ (maskOf [.ports, .net, .que, .sec, .out]
        [.XBR_HDR_ERR, .EDG_DROPS]) = true from by decide +kernel)
  | dma x0 x1 x2 =>
    exact (execDma_keeps x0 x1 x2 s h).grow
      (show sub _ (maskOf [.ports, .net, .que, .dma, .sec, .out]
        [.XBR_HDR_ERR, .EDG_DROPS, .ATL_CH_STATUS, .ATL_EVENTS]) = true from by decide +kernel)
  | op x0 x1 x2 =>
    exact (execOp_keeps x0 x1 x2 s h).grow
      (show sub _ (maskOf [.que]
        []) = true from by decide +kernel)
  | wait x0 x1 =>
    exact (execWait_keeps x0 x1 s h).grow
      (show sub _ (maskOf [.que]
        []) = true from by decide +kernel)
  | signal x0 x1 =>
    exact (execSignal_keeps x0 x1 s h).grow
      (show sub _ (maskOf [.ctxs, .que]
        []) = true from by decide +kernel)
  | fence x0 x1 =>
    exact (execFence_keeps x0 x1 s h).grow
      (show sub _ (maskOf [.que]
        []) = true from by decide +kernel)
  | fenceComplete x0 x1 =>
    exact (execFenceComplete_keeps x0 x1 s h).grow
      (show sub _ (maskOf [.que, .dma]
        []) = true from by decide +kernel)
  | commandComplete x0 x1 =>
    exact (execCommandComplete_keeps x0 x1 s h).grow
      (show sub _ (maskOf [.ports, .ctxs, .net, .que, .pool, .hawk, .sec, .mem, .out]
        [.XBR_HDR_ERR, .EDG_DROPS, .QUE_CQ_INDEX, .QUE_DROPS, .HWK_CORE_STATUS, .HWK_CORE_COUNTS]) = true from by decide +kernel)
  | grantReceive x0 x1 x2 x3 x4 =>
    exact (execGrantReceive_keeps x0 x1 x2 x3 x4 s h).grow
      (show sub _ (maskOf [.ports, .net, .que, .coll, .sec, .out]
        [.XBR_HDR_ERR, .EDG_DROPS]) = true from by decide +kernel)
  | grantRequestReceive x0 x1 x2 x3 =>
    exact (execGrantRequestReceive_keeps x0 x1 x2 x3 s h).grow
      (show sub _ (maskOf [.ports, .net, .coll, .sec, .out]
        [.XBR_HDR_ERR, .EDG_DROPS, .ACD_SLOTS]) = true from by decide +kernel)
  | grantRefuseReceive x0 x1 =>
    exact (execGrantRefuseReceive_keeps x0 x1 s h).grow
      (show sub _ (maskOf [.ports, .net, .que, .coll, .sec, .out]
        [.XBR_HDR_ERR, .EDG_DROPS, .ACD_SLOTS]) = true from by decide +kernel)
  | grantRepeat x0 =>
    exact (execGrantRepeat_keeps x0 s h).grow
      (show sub _ (maskOf [.ports, .net, .sec, .out]
        [.XBR_HDR_ERR, .EDG_DROPS]) = true from by decide +kernel)
  | slotAssign x0 =>
    exact (execSlotAssign_keeps x0 s h).grow
      (show sub _ (maskOf [.ports, .net, .que, .coll, .sec, .mem, .out]
        [.XBR_HDR_ERR, .EDG_DROPS]) = true from by decide +kernel)
  | collUpReceive x0 x1 x2 =>
    exact (execCollUpReceive_keeps x0 x1 x2 s h).grow
      (show sub _ (maskOf [.ports, .net, .que, .pool, .coll, .sec, .mem, .out]
        [.XBR_HDR_ERR, .EDG_DROPS, .QUE_DROPS, .ACD_EVENTS, .ACD_CHECK, .ACD_SLOWEST, .ACD_LATE_HIST, .SKP_GROUP_STATUS, .SKP_EVENTS]) = true from by decide +kernel)
  | chunkReduceComplete x0 x1 x2 =>
    exact (execChunkReduceComplete_keeps x0 x1 x2 s h).grow
      (show sub _ (maskOf [.ports, .net, .que, .coll, .sec, .mem, .out]
        [.XBR_HDR_ERR, .EDG_DROPS, .ACD_CHECK]) = true from by decide +kernel)
  | collDownReceive x0 x1 =>
    exact (execCollDownReceive_keeps x0 x1 s h).grow
      (show sub _ (maskOf [.ports, .net, .que, .pool, .coll, .sec, .mem, .out]
        [.XBR_HDR_ERR, .EDG_DROPS, .EDG_E2E, .HBM_ECC, .HBM_ACCESS_ERR]) = true from by decide +kernel)
  | nodeSlotsObtained x0 =>
    exact (execNodeSlotsObtained_keeps x0 s h).grow
      (show sub _ (maskOf [.que, .coll]
        [.ACD_SLOTS, .ACD_EVENTS]) = true from by decide +kernel)
  | spill x0 =>
    exact (execSpill_keeps x0 s h).grow
      (show sub _ (maskOf [.que, .coll]
        [.ACD_SLOTS, .ACD_EVENTS]) = true from by decide +kernel)
  | spillGiveUp x0 =>
    exact (execSpillGiveUp_keeps x0 s h).grow
      (show sub _ (maskOf [.ports, .net, .que, .coll, .sec, .out]
        [.XBR_HDR_ERR, .EDG_DROPS, .ACD_SLOTS]) = true from by decide +kernel)
  | chunkSlip x0 x1 x2 =>
    exact (execChunkSlip_keeps x0 x1 x2 s h).grow
      (show sub _ (maskOf [.que, .coll]
        [.ACD_EVENTS]) = true from by decide +kernel)
  | chunkAbort x0 x1 x2 =>
    exact (execChunkAbort_keeps x0 x1 x2 s h).grow
      (show sub _ (maskOf [.ports, .net, .que, .pool, .coll, .sec, .mem, .out]
        [.XBR_HDR_ERR, .EDG_DROPS, .ACD_EVENTS, .SKP_GROUP_STATUS, .SKP_EVENTS]) = true from by decide +kernel)
  | resultTimeout x0 x1 =>
    exact (execResultTimeout_keeps x0 x1 s h).grow
      (show sub _ (maskOf [.ports, .net, .que, .pool, .coll, .sec, .mem, .out]
        [.XBR_HDR_ERR, .EDG_DROPS, .ACD_EVENTS]) = true from by decide +kernel)
  | skipperReceive x0 x1 =>
    exact (execSkipperReceive_keeps x0 x1 s h).grow
      (show sub _ (maskOf [.ports, .net, .que, .pool, .coll, .sec, .mem, .out]
        [.XBR_HDR_ERR, .EDG_DROPS, .SKP_GROUP_STATUS, .SKP_EVENTS]) = true from by decide +kernel)
  | skipperRepeat x0 x1 x2 =>
    exact (execSkipperRepeat_keeps x0 x1 x2 s h).grow
      (show sub _ (maskOf [.ports, .net, .sec, .out]
        [.XBR_HDR_ERR, .EDG_DROPS]) = true from by decide +kernel)
  | bqLoad x0 x1 x2 =>
    exact (execBqLoad_keeps x0 x1 x2 s h).grow
      (show sub _ (maskOf [.agent, .mgr, .twin, .fw, .out, .free]
        []) = true from by decide +kernel)
  | bqLoadCheck x0 x1 =>
    exact (execBqLoadCheck_keeps x0 x1 s h).grow
      (show sub _ (maskOf [.ports, .hawk, .sec, .agent, .mgr, .twin, .fw, .sil, .ants, .chr, .out, .free]
        [.FT_STATUS, .MGR_ROLE, .TWN_STATUS, .TWN_AGENT, .TWN_EVENTS, .HWK_LOAD_RESULT, .HWK_LOAD_AMOUNT, .SEC_SEAL_EVENTS, .ANT_COUNTS, .SIL_STATUS, .SIL_COUNTS, .CHR_STATUS, .CHR_ARM]) = true from by decide +kernel)
  | bqLoadTimeout x0 =>
    exact (execBqLoadTimeout_keeps x0 s h).grow
      (show sub _ (maskOf [.agent, .mgr, .twin, .fw, .out, .free]
        []) = true from by decide +kernel)
  | bqCommitReceive x0 x1 x2 x3 =>
    exact (execBqCommitReceive_keeps x0 x1 x2 x3 s h).grow
      (show sub _ (maskOf [.ports, .hawk, .agent, .twin, .sil, .ants, .chr, .out]
        [.FT_STATUS, .MGR_ROLE, .TWN_STATUS, .TWN_AGENT, .TWN_EVENTS, .ACD_SLOTS, .HWK_WING_STATUS, .HWK_BQ_STATUS, .HWK_BQ_START, .ANT_COUNTS, .SIL_STATUS, .SIL_COUNTS, .CHR_STATUS, .CHR_ARM]) = true from by decide +kernel)
  | bqStart x0 x1 =>
    exact (execBqStart_keeps x0 x1 s h).grow
      (show sub _ (maskOf [.hawk]
        [.ACD_SLOTS, .HWK_WING_STATUS, .HWK_BQ_STATUS, .HWK_BQ_START]) = true from by decide +kernel)
  | stepRun x0 x1 x2 =>
    exact (execStepRun_keeps x0 x1 x2 s h).grow
      (show sub _ (maskOf [.ports, .net, .que, .pool, .hawk, .sec, .mem, .out]
        [.XBR_HDR_ERR, .EDG_DROPS, .HWK_CORE_STATUS, .HWK_CORE_COUNTS, .HWK_BQ_STATUS]) = true from by decide +kernel)
  | stepComplete x0 x1 =>
    exact (execStepComplete_keeps x0 x1 s h).grow
      (show sub _ (maskOf [.ctxs, .que, .hawk, .mem]
        [.QUE_CQ_INDEX, .HWK_CORE_STATUS, .HWK_CORE_COUNTS, .HWK_REPORTS]) = true from by decide +kernel)
  | opStepStart x0 x1 x2 =>
    exact (execOpStepStart_keeps x0 x1 x2 s h).grow
      (show sub _ (maskOf [.ports, .net, .que, .pool, .hawk, .sec, .mem, .out]
        [.XBR_HDR_ERR, .EDG_DROPS, .HWK_CORE_STATUS, .HWK_CORE_COUNTS, .HWK_BQ_STATUS]) = true from by decide +kernel)
  | opNoFit x0 x1 =>
    exact (execOpNoFit_keeps x0 x1 s h).grow
      (show sub _ (maskOf [.que]
        []) = true from by decide +kernel)
  | bqUnload x0 x1 =>
    exact (execBqUnload_keeps x0 x1 s h).grow
      (show sub _ (maskOf [.agent, .mgr, .twin, .fw, .out, .free]
        []) = true from by decide +kernel)
  | bqUnloadBoundary x0 x1 =>
    exact (execBqUnloadBoundary_keeps x0 x1 s h).grow
      (show sub _ (maskOf [.que, .coll, .hawk]
        [.ACD_SLOTS, .HWK_WING_STATUS, .HWK_BQ_STATUS, .HWK_BQ_START]) = true from by decide +kernel)
  | bqUnloadRelease x0 =>
    exact (execBqUnloadRelease_keeps x0 s h).grow
      (show sub _ (maskOf [.hawk, .agent, .mgr, .twin, .fw, .out, .free]
        [.ACD_SLOTS, .HWK_WING_STATUS, .HWK_BQ_STATUS, .HWK_BQ_START]) = true from by decide +kernel)
  | bqStatus x0 x1 =>
    exact (execBqStatus_keeps x0 x1 s h).grow
      (show sub _ (maskOf [.twin, .fw]
        []) = true from by decide +kernel)
  | tileReload x0 x1 x2 x3 =>
    exact (execTileReload_keeps x0 x1 x2 x3 s h).grow
      (show sub _ (maskOf [.hawk]
        []) = true from by decide +kernel)
  | poolWriteRequest x0 x1 =>
    exact (execPoolWriteRequest_keeps x0 x1 s h).grow
      (show sub _ (maskOf [.ports, .net, .pool, .sec, .mem, .out]
        [.XBR_HDR_ERR, .EDG_DROPS, .EDG_E2E, .HBM_ECC, .HBM_ACCESS_ERR]) = true from by decide +kernel)
  | poolReadRequest x0 x1 =>
    exact (execPoolReadRequest_keeps x0 x1 s h).grow
      (show sub _ (maskOf [.ports, .net, .sec, .out]
        [.XBR_HDR_ERR, .EDG_DROPS, .HBM_ECC, .HBM_ACCESS_ERR]) = true from by decide +kernel)
  | readRespReceive x0 x1 =>
    exact (execReadRespReceive_keeps x0 x1 s h).grow
      (show sub _ (maskOf [.ports, .net, .que, .dma, .sec, .out, .free]
        [.XBR_HDR_ERR, .EDG_DROPS, .ATL_CH_STATUS]) = true from by decide +kernel)
  | windowRequest x0 x1 =>
    exact (execWindowRequest_keeps x0 x1 s h).grow
      (show sub _ (maskOf [.ports, .eps, .net, .sec, .out]
        [.XBR_HDR_ERR, .EDG_DROPS]) = true from by decide +kernel)
  | refusalMarkerSend x0 =>
    exact (execRefusalMarkerSend_keeps x0 s h).grow
      (show sub _ (maskOf [.ports, .eps, .net, .sec, .out]
        []) = true from by decide +kernel)
  | windowEntryFree x0 =>
    exact (execWindowEntryFree_keeps x0 s h).grow
      (show sub _ (maskOf [.ports, .eps, .net, .sec, .out]
        [.XBR_HDR_ERR, .EDG_DROPS]) = true from by decide +kernel)
  | eccCorrected x0 =>
    exact (execEccCorrected_keeps x0 s h).grow
      (show sub _ (maskOf [.pool]
        [.HBM_ECC, .HBM_RETIRE]) = true from by decide +kernel)
  | eccUncorrectable x0 x1 x2 =>
    exact (execEccUncorrectable_keeps x0 x1 x2 s h).grow
      (show sub _ (maskOf [.pool, .mem, .sil, .chr]
        [.HBM_ECC, .HBM_RETIRE, .SIL_STATUS, .SIL_COUNTS, .CHR_STATUS, .CHR_ARM]) = true from by decide +kernel)
  | retireCopyDone x0 =>
    exact (execRetireCopyDone_keeps x0 s h).grow
      (show sub _ (maskOf [.ctxs, .pool, .mem, .sil, .cocoon, .chr]
        [.HBM_STACK_STATUS, .HBM_RETIRE, .INS_FAST, .SPR_STATUS, .SPR_EVENTS, .SIL_STATUS, .SIL_COUNTS, .CHR_STATUS, .CHR_ARM]) = true from by decide +kernel)
  | retireThreshold x0 x1 =>
    exact (execRetireThreshold_keeps x0 x1 s h).grow
      (show sub _ (maskOf [.twin, .fw]
        [.HBM_RETIRE]) = true from by decide +kernel)
  | atlBufferGrant x0 x1 x2 =>
    exact (execAtlBufferGrant_keeps x0 x1 x2 s h).grow
      (show sub _ (maskOf [.ports, .net, .que, .dma, .sec, .out]
        [.XBR_HDR_ERR, .EDG_DROPS, .ATL_CH_STATUS, .ATL_EVENTS]) = true from by decide +kernel)
  | descriptorFinish x0 x1 x2 =>
    exact (execDescriptorFinish_keeps x0 x1 x2 s h).grow
      (show sub _ (maskOf [.ports, .ctxs, .net, .que, .dma, .sec, .mem, .out]
        [.XBR_HDR_ERR, .EDG_DROPS, .ATL_CH_STATUS, .ATL_EVENTS]) = true from by decide +kernel)
  | descriptorRefused x0 x1 x2 =>
    exact (execDescriptorRefused_keeps x0 x1 x2 s h).grow
      (show sub _ (maskOf [.ports, .net, .que, .dma, .sec, .out]
        [.XBR_HDR_ERR, .EDG_DROPS, .ATL_CH_STATUS, .ATL_EVENTS]) = true from by decide +kernel)
  | atlStop x0 x1 x2 =>
    exact (execAtlStop_keeps x0 x1 x2 s h).grow
      (show sub _ (maskOf [.que, .dma, .out]
        [.ATL_CH_SEL, .ATL_CH_STATUS, .ATL_EVENTS]) = true from by decide +kernel)
  | atsGo x0 x1 =>
    exact (execAtsGo_keeps x0 x1 s h).grow
      (show sub _ (maskOf [.dma, .out]
        [.ATS_CH_STATUS]) = true from by decide +kernel)
  | atsStop x0 x1 =>
    exact (execAtsStop_keeps x0 x1 s h).grow
      (show sub _ (maskOf [.dma, .mem, .out]
        [.ATS_CH_LOCK, .ATS_CH_STATUS, .ATS_CQ_INDEX]) = true from by decide +kernel)
  | atsFence x0 x1 =>
    exact (execAtsFence_keeps x0 x1 s h).grow
      (show sub _ (maskOf [.dma, .mem, .out]
        [.ATS_CQ_INDEX]) = true from by decide +kernel)
  | atsChannelServe =>
    exact (execAtsChannelServe_keeps s h).grow
      (show sub _ (maskOf [.pool, .dma, .mem, .ants, .out]
        [.ATS_CH_LOCK, .ATS_CH_STATUS, .ATS_CQ_INDEX, .DB_IN, .DB_OUT]) = true from by decide +kernel)
  | atsRingRoom x0 =>
    exact (execAtsRingRoom_keeps x0 s h).grow
      (show sub _ (maskOf [.pool, .dma, .mem, .ants, .out]
        [.ATS_CH_LOCK, .ATS_CH_STATUS, .ATS_CQ_INDEX, .DB_IN, .DB_OUT]) = true from by decide +kernel)
  | atsChLockRead x0 x1 =>
    exact (execAtsChLockRead_keeps x0 x1 s h).grow
      (show sub _ (maskOf [.out]
        [.ATS_CH_LOCK]) = true from by decide +kernel)
  | atsChLockRelease x0 x1 x2 =>
    exact (execAtsChLockRelease_keeps x0 x1 x2 s h).grow
      (show sub _ (maskOf [.out]
        [.ATS_CH_LOCK]) = true from by decide +kernel)
  | hostResponseReceive x0 x1 x2 =>
    exact (execHostResponseReceive_keeps x0 x1 x2 s h).grow
      (show sub _ (maskOf [.pool, .dma, .mem, .ants, .out]
        [.ATS_CH_LOCK, .ATS_CH_STATUS, .ATS_CQ_INDEX, .DB_IN, .DB_OUT, .ANT_COUNTS]) = true from by decide +kernel)
  | hostTimeout x0 =>
    exact (execHostTimeout_keeps x0 s h).grow
      (show sub _ (maskOf [.dma, .mem, .ants, .out]
        [.ATS_CH_LOCK, .ATS_CH_STATUS, .ATS_CQ_INDEX, .CTL_SEM, .CTL_EPOCHS, .MBX_DATA, .MBX_STATUS, .MBX_ACK, .MBX_LOCK, .DB_IN, .DB_OUT, .ANT_STATUS, .ANT_COUNTS, .SIL_CURSOR]) = true from by decide +kernel)
  | attest x0 x1 x2 =>
    exact (execAttest_keeps x0 x1 x2 s h).grow
      (show sub _ (maskOf [.sec, .twin, .fw, .cocoon, .free]
        [.SEC_STATUS, .SEC_XMSS_INDEX, .SEC_XMSS_RESERVED]) = true from by decide +kernel)
  | certChain x0 =>
    exact (execCertChain_keeps x0 s h).grow
      (show sub _ (maskOf [.twin, .fw]
        []) = true from by decide +kernel)
  | measureRead x0 x1 =>
    exact (execMeasureRead_keeps x0 x1 s h).grow
      (show sub _ (maskOf [.twin, .fw]
        []) = true from by decide +kernel)
  | keyDeliver x0 x1 x2 x3 x4 x5 =>
    exact (execKeyDeliver_keeps x0 x1 x2 x3 x4 x5 s h).grow
      (show sub _ (maskOf [.sec, .twin, .fw, .free]
        [.QUE_CTX_STATUS, .SEC_STATUS, .SEC_SLICE_STATUS]) = true from by decide +kernel)
  | kemKeyExpire x0 =>
    exact (execKemKeyExpire_keeps x0 s h).grow
      (show sub _ (maskOf [.sec]
        []) = true from by decide +kernel)
  | sealIntervalEnd x0 =>
    exact (execSealIntervalEnd_keeps x0 s h).grow
      (show sub _ (maskOf [.sec]
        []) = true from by decide +kernel)
  | sealSetSend x0 =>
    exact (execSealSetSend_keeps x0 s h).grow
      (show sub _ (maskOf [.sec, .out]
        []) = true from by decide +kernel)
  | sealSetReceive x0 x1 =>
    exact (execSealSetReceive_keeps x0 x1 s h).grow
      (show sub _ (maskOf [.ports, .net, .sec, .route, .agent, .twin, .sil, .ants, .ins, .chr, .out]
        [.PRT_STATUS, .PRT_EVENTS, .XBR_HDR_ERR, .EDG_DROPS, .EDG_E2E, .TWN_STATUS, .TWN_SYNC, .TWN_EVENTS, .TWN_PORT_STATUS, .QUE_DROPS, .SEC_SEAL_EVENTS, .ANT_COUNTS, .INS_FAST, .SIL_STATUS, .SIL_COUNTS, .CHR_STATUS, .CHR_ARM]) = true from by decide +kernel)
  | sealSetTimeout x0 =>
    exact (execSealSetTimeout_keeps x0 s h).grow
      (show sub _ (maskOf [.ports, .net, .sec, .route, .agent, .twin, .sil, .ants, .chr, .out]
        [.PRT_STATUS, .PRT_EVENTS, .TWN_STATUS, .TWN_SYNC, .TWN_EVENTS, .TWN_PORT_STATUS, .SEC_SEAL_EVENTS, .ANT_COUNTS, .INS_FAST, .SIL_STATUS, .SIL_COUNTS, .CHR_STATUS, .CHR_ARM]) = true from by decide +kernel)
  | antSignalDetect x0 =>
    exact (execAntSignalDetect_keeps x0 s h).grow
      (show sub _ (maskOf [.dma, .mem, .ants, .out]
        [.ATS_CH_LOCK, .ATS_CH_STATUS, .ATS_CQ_INDEX, .CTL_SEM, .CTL_EPOCHS, .MBX_DATA, .MBX_STATUS, .MBX_ACK, .MBX_LOCK, .DB_IN, .DB_OUT, .ANT_STATUS, .ANT_COUNTS, .SIL_CURSOR]) = true from by decide +kernel)
  | antFecAlign x0 =>
    exact (execAntFecAlign_keeps x0 s h).grow
      (show sub _ (maskOf [.dma, .mem, .ants, .out]
        [.ATS_CH_LOCK, .ATS_CH_STATUS, .ATS_CQ_INDEX, .CTL_SEM, .CTL_EPOCHS, .MBX_DATA, .MBX_STATUS, .MBX_ACK, .MBX_LOCK, .DB_IN, .DB_OUT, .ANT_STATUS, .ANT_COUNTS, .SIL_CURSOR]) = true from by decide +kernel)
  | antTrainTimeout x0 =>
    exact (execAntTrainTimeout_keeps x0 s h).grow
      (show sub _ (maskOf [.dma, .mem, .ants, .out]
        [.ATS_CH_LOCK, .ATS_CH_STATUS, .ATS_CQ_INDEX, .CTL_SEM, .CTL_EPOCHS, .MBX_DATA, .MBX_STATUS, .MBX_ACK, .MBX_LOCK, .DB_IN, .DB_OUT, .ANT_STATUS, .ANT_COUNTS, .SIL_CURSOR]) = true from by decide +kernel)
  | antLoss x0 x1 =>
    exact (execAntLoss_keeps x0 x1 s h).grow
      (show sub _ (maskOf [.dma, .mem, .ants, .out]
        [.ATS_CH_LOCK, .ATS_CH_STATUS, .ATS_CQ_INDEX, .CTL_SEM, .CTL_EPOCHS, .MBX_DATA, .MBX_STATUS, .MBX_ACK, .MBX_LOCK, .DB_IN, .DB_OUT, .ANT_STATUS, .ANT_COUNTS, .SIL_CURSOR]) = true from by decide +kernel)
  | antInitSend x0 =>
    exact (execAntInitSend_keeps x0 s h).grow
      (show sub _ (maskOf [.ants, .power, .out]
        [.ANT_STATUS]) = true from by decide +kernel)
  | antInitReceive x0 x1 x2 x3 x4 x5 =>
    exact (execAntInitReceive_keeps x0 x1 x2 x3 x4 x5 s h).grow
      (show sub _ (maskOf [.dma, .mem, .ants, .power, .out]
        [.ATS_CH_LOCK, .ATS_CH_STATUS, .ATS_CQ_INDEX, .CTL_SEM, .CTL_EPOCHS, .MBX_DATA, .MBX_STATUS, .MBX_ACK, .MBX_LOCK, .DB_IN, .DB_OUT, .ANT_STATUS, .ANT_COUNTS, .SIL_CURSOR]) = true from by decide +kernel)
  | antRead x0 x1 x2 x3 x4 =>
    exact (execAntRead_keeps x0 x1 x2 x3 x4 s h).grow
      (show sub _ (maskOf [.ants, .out, .free]
        [.HBM_ECC, .ATS_CH_LOCK, .CTL_SEM, .MBX_LOCK, .ANT_COUNTS, .SIL_CURSOR, .SIL_WINDOW]) = true from by decide +kernel)
  | antWrite x0 x1 x2 x3 x4 =>
    exact (execAntWrite_keeps x0 x1 x2 x3 x4 s h).grow
      (show sub _ (maskOf [.time, .ports, .eps, .ctxs, .net, .que, .pool, .dma, .coll, .hawk, .sec, .mem, .route, .agent, .map, .mgr, .twin, .fw, .sil, .ants, .ins, .power, .spares, .chr, .out, .free]
        RegName.list) = true from by decide +kernel)
  | antMbxSend x0 x1 x2 =>
    exact (execAntMbxSend_keeps x0 x1 x2 s h).grow
      (show sub _ (maskOf [.ants, .out]
        [.CTL_EPOCHS, .MBX_DATA, .MBX_STATUS, .MBX_ACK, .DB_IN, .DB_OUT, .ANT_COUNTS]) = true from by decide +kernel)
  | antLinkAck x0 x1 x2 =>
    exact (execAntLinkAck_keeps x0 x1 x2 s h).grow
      (show sub _ (maskOf [.ants, .out]
        [.ANT_COUNTS]) = true from by decide +kernel)
  | antLinkNak x0 x1 x2 =>
    exact (execAntLinkNak_keeps x0 x1 x2 s h).grow
      (show sub _ (maskOf [.dma, .mem, .ants, .out]
        [.ATS_CH_LOCK, .ATS_CH_STATUS, .ATS_CQ_INDEX, .CTL_SEM, .CTL_EPOCHS, .MBX_DATA, .MBX_STATUS, .MBX_ACK, .MBX_LOCK, .DB_IN, .DB_OUT, .ANT_STATUS, .ANT_COUNTS, .SIL_CURSOR]) = true from by decide +kernel)
  | antReplayTimeout x0 =>
    exact (execAntReplayTimeout_keeps x0 s h).grow
      (show sub _ (maskOf [.dma, .mem, .ants, .out]
        [.ATS_CH_LOCK, .ATS_CH_STATUS, .ATS_CQ_INDEX, .CTL_SEM, .CTL_EPOCHS, .MBX_DATA, .MBX_STATUS, .MBX_ACK, .MBX_LOCK, .DB_IN, .DB_OUT, .ANT_STATUS, .ANT_COUNTS, .SIL_CURSOR]) = true from by decide +kernel)
  | antLinkAckSend x0 =>
    exact (execAntLinkAckSend_keeps x0 s h).grow
      (show sub _ (maskOf [.ants, .out]
        []) = true from by decide +kernel)
  | antRetrain x0 x1 =>
    exact (execAntRetrain_keeps x0 x1 s h).grow
      (show sub _ (maskOf [.dma, .mem, .ants, .out]
        [.ATS_CH_LOCK, .ATS_CH_STATUS, .ATS_CQ_INDEX, .CTL_SEM, .CTL_EPOCHS, .MBX_DATA, .MBX_STATUS, .MBX_ACK, .MBX_LOCK, .DB_IN, .DB_OUT, .ANT_STATUS, .ANT_COUNTS, .SIL_CURSOR]) = true from by decide +kernel)
  | eventFrameSend x0 =>
    exact (execEventFrameSend_keeps x0 s h).grow
      (show sub _ (maskOf [.ants, .out]
        []) = true from by decide +kernel)
  | ownerRestart x0 =>
    exact (execOwnerRestart_keeps x0 s h).grow
      (show sub _ (maskOf [.dma, .twin, .fw, .ants]
        [.ATS_CH_LOCK, .CTL_SEM, .CTL_EPOCHS, .MBX_DATA, .MBX_STATUS, .MBX_ACK, .MBX_LOCK, .DB_IN, .DB_OUT, .SIL_CURSOR]) = true from by decide +kernel)
  | ctlSemRead x0 =>
    exact (execCtlSemRead_keeps x0 s h).grow
      (show sub _ (maskOf [.out]
        [.CTL_SEM]) = true from by decide +kernel)
  | ctlSemRelease x0 x1 =>
    exact (execCtlSemRelease_keeps x0 x1 s h).grow
      (show sub _ (maskOf [.out]
        [.CTL_SEM]) = true from by decide +kernel)
  | mbxLockRead x0 x1 =>
    exact (execMbxLockRead_keeps x0 x1 s h).grow
      (show sub _ (maskOf [.out]
        [.MBX_LOCK]) = true from by decide +kernel)
  | mbxLockRelease x0 x1 x2 =>
    exact (execMbxLockRelease_keeps x0 x1 x2 s h).grow
      (show sub _ (maskOf [.out]
        [.MBX_LOCK]) = true from by decide +kernel)
  | mbxPost x0 x1 x2 x3 =>
    exact (execMbxPost_keeps x0 x1 x2 x3 s h).grow
      (show sub _ (maskOf [.ants, .out]
        [.CTL_EPOCHS, .MBX_DATA, .MBX_STATUS, .MBX_ACK, .DB_IN, .DB_OUT]) = true from by decide +kernel)
  | mbxAcknowledge x0 x1 x2 =>
    exact (execMbxAcknowledge_keeps x0 x1 x2 s h).grow
      (show sub _ (maskOf [.ants, .out]
        [.MBX_STATUS, .MBX_ACK, .DB_IN, .DB_OUT]) = true from by decide +kernel)
  | doorbellFrameSend x0 =>
    exact (execDoorbellFrameSend_keeps x0 s h).grow
      (show sub _ (maskOf [.ants, .out]
        []) = true from by decide +kernel)
  | fwCommandAccept x0 x1 =>
    exact (execFwCommandAccept_keeps x0 x1 s h).grow
      (show sub _ (maskOf [.sec, .fw, .ants]
        [.SEC_SEAL_EVENTS, .MBX_STATUS, .MBX_ACK, .DB_IN, .DB_OUT]) = true from by decide +kernel)
  | resultPost x0 =>
    exact (execResultPost_keeps x0 s h).grow
      (show sub _ (maskOf [.mem, .fw, .ants, .out]
        [.CTL_EPOCHS, .MBX_DATA, .MBX_STATUS, .MBX_ACK, .DB_IN, .DB_OUT]) = true from by decide +kernel)
  | fwStage x0 x1 x2 =>
    exact (execFwStage_keeps x0 x1 x2 s h).grow
      (show sub _ (maskOf [.twin, .fw]
        []) = true from by decide +kernel)
  | fwBroadcast x0 x1 =>
    exact (execFwBroadcast_keeps x0 x1 s h).grow
      (show sub _ (maskOf [.agent, .twin, .fw, .out]
        []) = true from by decide +kernel)
  | fwBroadcastTimeout =>
    exact (execFwBroadcastTimeout_keeps s h).grow
      (show sub _ (maskOf [.twin, .fw, .free]
        []) = true from by decide +kernel)
  | fwOfferReceive x0 x1 x2 x3 x4 x5 =>
    exact (execFwOfferReceive_keeps x0 x1 x2 x3 x4 x5 s h).grow
      (show sub _ (maskOf [.ports, .agent, .twin, .fw, .sil, .ants, .chr, .out]
        [.FT_STATUS, .MGR_ROLE, .TWN_STATUS, .TWN_AGENT, .TWN_EVENTS, .ANT_COUNTS, .SIL_STATUS, .SIL_COUNTS, .CHR_STATUS, .CHR_ARM]) = true from by decide +kernel)
  | fwPieceReceive x0 x1 x2 x3 x4 =>
    exact (execFwPieceReceive_keeps x0 x1 x2 x3 x4 s h).grow
      (show sub _ (maskOf [.ports, .agent, .twin, .fw, .sil, .ants, .chr, .out]
        [.FT_STATUS, .MGR_ROLE, .TWN_STATUS, .TWN_AGENT, .TWN_EVENTS, .ANT_COUNTS, .SIL_STATUS, .SIL_COUNTS, .CHR_STATUS, .CHR_ARM]) = true from by decide +kernel)
  | fwNeedReceive x0 x1 x2 x3 =>
    exact (execFwNeedReceive_keeps x0 x1 x2 x3 s h).grow
      (show sub _ (maskOf [.agent, .twin, .fw, .sil, .ants, .chr, .out]
        [.FT_STATUS, .MGR_ROLE, .TWN_STATUS, .TWN_EVENTS, .ANT_COUNTS, .SIL_STATUS, .SIL_COUNTS, .CHR_STATUS, .CHR_ARM]) = true from by decide +kernel)
  | fwResultReceive x0 x1 x2 =>
    exact (execFwResultReceive_keeps x0 x1 x2 s h).grow
      (show sub _ (maskOf [.agent, .twin, .fw, .sil, .ants, .chr, .out, .free]
        [.FT_STATUS, .MGR_ROLE, .TWN_STATUS, .TWN_EVENTS, .ANT_COUNTS, .SIL_STATUS, .SIL_COUNTS, .CHR_STATUS, .CHR_ARM]) = true from by decide +kernel)
  | fwStatus x0 =>
    exact (execFwStatus_keeps x0 s h).grow
      (show sub _ (maskOf [.twin, .fw]
        []) = true from by decide +kernel)
  | fwRestart x0 =>
    exact (execFwRestart_keeps x0 s h).grow
      (show sub _ (maskOf [.dma, .twin, .fw, .ants]
        [.ATS_CH_LOCK, .CTL_SEM, .CTL_EPOCHS, .MBX_DATA, .MBX_STATUS, .MBX_ACK, .MBX_LOCK, .DB_IN, .DB_OUT, .SIL_CURSOR]) = true from by decide +kernel)
  | portQualify x0 x1 x2 =>
    exact (execPortQualify_keeps x0 x1 x2 s h).grow
      (show sub _ (maskOf [.ports, .net, .sec, .route, .agent, .twin, .fw, .sil, .ants, .chr, .out]
        [.PRT_CTL, .PRT_STATUS, .PRT_PEER_ID, .PRT_PEER_SERIAL, .PRT_PEER_DEVICE, .PRT_QUAL_RESULT, .PRT_FEC_COUNT, .TWN_STATUS, .TWN_SYNC, .TWN_EVENTS, .TWN_PORT_STATUS, .ANT_COUNTS, .RST_COUNTS, .SIL_STATUS, .SIL_COUNTS, .CHR_STATUS, .CHR_ARM]) = true from by decide +kernel)
  | portReset x0 x1 x2 =>
    exact (execPortReset_keeps x0 x1 x2 s h).grow
      (show sub _ (maskOf [.ports, .net, .sec, .route, .agent, .twin, .fw, .sil, .ants, .chr, .out]
        [.PRT_STATUS, .PRT_PEER_ID, .PRT_PEER_SERIAL, .PRT_PEER_DEVICE, .PRT_QUAL_RESULT, .PRT_FEC_COUNT, .TWN_STATUS, .TWN_SYNC, .TWN_EVENTS, .TWN_PORT_STATUS, .ANT_COUNTS, .RST_COUNTS, .SIL_STATUS, .SIL_COUNTS, .CHR_STATUS, .CHR_ARM]) = true from by decide +kernel)
  | portQuarantine x0 x1 =>
    exact (execPortQuarantine_keeps x0 x1 s h).grow
      (show sub _ (maskOf [.ports, .route, .agent, .twin, .fw, .sil, .chr, .out]
        [.PRT_STATUS, .TWN_PORT_STATUS, .SIL_STATUS, .SIL_COUNTS, .CHR_STATUS, .CHR_ARM]) = true from by decide +kernel)
  | serviceCfg x0 x1 x2 x3 x4 =>
    exact (execServiceCfg_keeps x0 x1 x2 x3 x4 s h).grow
      (show sub _ (maskOf [.twin, .fw]
        []) = true from by decide +kernel)
  | sessionOpen x0 x1 x2 x3 x4 x5 x6 x7 =>
    exact (execSessionOpen_keeps x0 x1 x2 x3 x4 x5 x6 x7 s h).grow
      (show sub _ (maskOf [.twin, .fw]
        []) = true from by decide +kernel)
  | sessionClose x0 x1 x2 =>
    exact (execSessionClose_keeps x0 x1 x2 s h).grow
      (show sub _ (maskOf [.twin, .fw]
        []) = true from by decide +kernel)
  | resetWarm x0 =>
    exact (execResetWarm_keeps x0 s h).grow
      (show sub _ (maskOf [.time, .ports, .eps, .ctxs, .net, .que, .pool, .dma, .coll, .hawk, .sec, .mem, .route, .agent, .map, .mgr, .twin, .fw, .sil, .ants, .ins, .power, .spares, .chr, .out]
        RegName.list) = true from by decide +kernel)
  | resetCompute x0 =>
    exact (execResetCompute_keeps x0 s h).grow
      (show sub _ (maskOf [.eps, .ctxs, .net, .que, .pool, .dma, .coll, .hawk, .sec, .mem, .twin, .fw, .sil, .ants, .power, .chr, .out]
        [.FT_STATUS, .MGR_ROLE, .TWN_STATUS, .TWN_EVENTS, .QUE_CFG, .QUE_RING_BASE, .QUE_CQ_BASE, .QUE_INDEX, .QUE_CQ_INDEX, .QUE_DOORBELL, .QUE_CTX_STATUS, .QUE_DROPS, .ACD_SLOTS, .ACD_SLOWEST, .ACD_LATE_HIST, .HWK_CORE_STATUS, .HWK_WING_STATUS, .HWK_BQ_STATUS, .HWK_BQ_START, .HBM_POOL, .ATL_CH_STATUS, .ATS_CH_CTL, .ANT_COUNTS, .RST_CAUSE, .RST_COUNTS, .PWR_STATUS, .SIL_STATUS, .SIL_COUNTS, .CHR_CTL, .CHR_STATUS, .CHR_ARM]) = true from by decide +kernel)
  | resetRole x0 =>
    exact (execResetRole_keeps x0 s h).grow
      (show sub _ (maskOf [.mgr, .twin, .fw]
        [.FT_STATUS, .MGR_ROLE, .MGR_ROUTE, .MGR_PLAN, .MGR_NBR, .MGR_FAILURES, .TWN_STATUS, .TWN_HEARTBEAT, .TWN_SYNC, .TWN_REVERT, .QUE_DOORBELL, .ATS_CH_CTL, .RST_CAUSE, .RST_COUNTS, .CHR_CTL]) = true from by decide +kernel)
  | computeResetBoundary =>
    exact (execComputeResetBoundary_keeps s h).grow
      (show sub _ (maskOf [.eps, .ctxs, .net, .que, .pool, .dma, .coll, .hawk, .sec, .mem, .twin, .fw, .sil, .ants, .power, .chr, .out]
        [.FT_STATUS, .MGR_ROLE, .TWN_STATUS, .TWN_EVENTS, .QUE_CFG, .QUE_RING_BASE, .QUE_CQ_BASE, .QUE_INDEX, .QUE_CQ_INDEX, .QUE_DOORBELL, .QUE_CTX_STATUS, .QUE_DROPS, .ACD_SLOTS, .ACD_SLOWEST, .ACD_LATE_HIST, .HWK_CORE_STATUS, .HWK_WING_STATUS, .HWK_BQ_STATUS, .HWK_BQ_START, .HBM_POOL, .ATL_CH_STATUS, .ATS_CH_CTL, .ANT_COUNTS, .RST_CAUSE, .RST_COUNTS, .PWR_STATUS, .SIL_STATUS, .SIL_COUNTS, .CHR_CTL, .CHR_STATUS, .CHR_ARM]) = true from by decide +kernel)
  | computeResetReady =>
    exact (execComputeResetReady_keeps s h).grow
      (show sub _ (maskOf [.coll, .power]
        [.ACD_SLOTS, .HWK_CORE_STATUS, .HWK_WING_STATUS, .SPR_FREE, .WST_STATUS]) = true from by decide +kernel)
  | managerWatchdog =>
    exact (execManagerWatchdog_keeps s h).grow
      (show sub _ (maskOf [.mgr, .twin]
        [.FT_STATUS, .MGR_ROLE, .MGR_ROUTE, .MGR_PLAN, .MGR_NBR, .MGR_FAILURES, .TWN_STATUS, .TWN_HEARTBEAT, .TWN_SYNC, .TWN_REVERT, .QUE_DOORBELL, .ATS_CH_CTL, .RST_CAUSE, .RST_COUNTS, .CHR_CTL]) = true from by decide +kernel)
  | powerActive x0 x1 =>
    exact (execPowerActive_keeps x0 x1 s h).grow
      (show sub _ (maskOf [.twin, .fw]
        [.PWR_STATUS, .AON_CMP_CTL]) = true from by decide +kernel)
  | powerDoze x0 x1 =>
    exact (execPowerDoze_keeps x0 x1 s h).grow
      (show sub _ (maskOf [.twin, .fw]
        [.PWR_STATUS, .AON_CMP_CTL]) = true from by decide +kernel)
  | powerSleep x0 x1 =>
    exact (execPowerSleep_keeps x0 x1 s h).grow
      (show sub _ (maskOf [.time, .ports, .eps, .ctxs, .net, .que, .pool, .dma, .coll, .hawk, .sec, .mem, .route, .agent, .map, .mgr, .twin, .fw, .sil, .ants, .ins, .power, .spares, .chr, .out]
        RegName.list) = true from by decide +kernel)
  | powerDeep x0 x1 =>
    exact (execPowerDeep_keeps x0 x1 s h).grow
      (show sub _ (maskOf [.time, .ports, .eps, .ctxs, .net, .que, .pool, .dma, .coll, .hawk, .sec, .mem, .route, .agent, .map, .mgr, .twin, .fw, .sil, .ants, .ins, .power, .spares, .chr, .out]
        RegName.list) = true from by decide +kernel)
  | forwardOnlyEnter x0 =>
    exact (execForwardOnlyEnter_keeps x0 s h).grow
      (show sub _ (maskOf [.twin, .fw, .sil, .ants, .power, .chr]
        [.FT_STATUS, .MGR_ROLE, .TWN_STATUS, .TWN_EVENTS, .ANT_COUNTS, .PWR_STATUS, .SIL_STATUS, .SIL_COUNTS, .CHR_STATUS, .CHR_ARM]) = true from by decide +kernel)
  | forwardOnlyLeave x0 =>
    exact (execForwardOnlyLeave_keeps x0 s h).grow
      (show sub _ (maskOf [.dma, .agent, .twin, .fw, .sil, .ants, .power, .chr, .out]
        [.ATS_CH_LOCK, .CTL_SEM, .CTL_EPOCHS, .MBX_DATA, .MBX_STATUS, .MBX_ACK, .MBX_LOCK, .DB_IN, .DB_OUT, .PWR_STATUS, .SIL_STATUS, .SIL_COUNTS, .SIL_CURSOR, .CHR_STATUS, .CHR_ARM]) = true from by decide +kernel)
  | fwdOnlyContextReset =>
    exact (execFwdOnlyContextReset_keeps s h).grow
      (show sub _ (maskOf [.eps, .ctxs, .net, .que, .pool, .dma, .coll, .hawk, .sec, .mem, .agent, .twin, .fw, .power, .out]
        [.QUE_CFG, .QUE_RING_BASE, .QUE_CQ_BASE, .QUE_INDEX, .QUE_CQ_INDEX, .QUE_DOORBELL, .QUE_CTX_STATUS, .QUE_DROPS, .ACD_SLOTS, .ACD_SLOWEST, .ACD_LATE_HIST, .HWK_CORE_STATUS, .HWK_WING_STATUS, .HWK_BQ_STATUS, .HWK_BQ_START, .HBM_POOL, .ATL_CH_STATUS, .ATS_CH_CTL, .CHR_CTL]) = true from by decide +kernel)
  | fwdOnlyHalt =>
    exact (execFwdOnlyHalt_keeps s h).grow
      (show sub _ (maskOf [.coll, .mgr, .power]
        [.MGR_ROUTE, .MGR_PLAN, .MGR_NBR, .ACD_SLOTS]) = true from by decide +kernel)
  | escalation x0 x1 x2 x3 x4 x5 x6 =>
    exact (execEscalation_keeps x0 x1 x2 x3 x4 x5 x6 s h).grow
      (show sub _ (maskOf [.twin, .fw]
        [.RST_ESC_LIMITS]) = true from by decide +kernel)
  | counters x0 x1 =>
    exact (execCounters_keeps x0 x1 s h).grow
      (show sub _ (maskOf [.twin, .fw]
        []) = true from by decide +kernel)
  | comparatorFire x0 =>
    exact (execComparatorFire_keeps x0 s h).grow
      (show sub _ (maskOf [.twin, .sil, .ants, .power, .chr]
        [.FT_STATUS, .MGR_ROLE, .TWN_STATUS, .TWN_EVENTS, .ANT_COUNTS, .PWR_STATUS, .AON_CMP_EVENTS, .SIL_STATUS, .SIL_COUNTS, .CHR_STATUS, .CHR_ARM]) = true from by decide +kernel)
  | comparatorClear x0 =>
    exact (execComparatorClear_keeps x0 s h).grow
      (show sub _ (maskOf []
        [.AON_CMP_EVENTS]) = true from by decide +kernel)
  | hardwareTrip =>
    exact (execHardwareTrip_keeps s h).grow
      (show sub _ (maskOf [.time, .ports, .eps, .ctxs, .net, .que, .pool, .dma, .coll, .hawk, .sec, .mem, .route, .agent, .map, .mgr, .twin, .fw, .sil, .ants, .ins, .power, .spares, .cocoon, .chr, .out]
        RegName.list) = true from by decide +kernel)
  | powerMeasure x0 x1 x2 =>
    exact (execPowerMeasure_keeps x0 x1 x2 s h).grow
      (show sub _ (maskOf [.power]
        [.PWR_MEASURE]) = true from by decide +kernel)
  | powerLimit =>
    exact (execPowerLimit_keeps s h).grow
      (show sub _ (maskOf [.twin, .sil, .ants, .power, .chr]
        [.FT_STATUS, .MGR_ROLE, .TWN_STATUS, .TWN_EVENTS, .ANT_COUNTS, .PWR_STATUS, .SIL_STATUS, .SIL_COUNTS, .CHR_STATUS, .CHR_ARM]) = true from by decide +kernel)
  | firmwareWatchdogLimit x0 =>
    exact (execFirmwareWatchdogLimit_keeps x0 s h).grow
      (show sub _ (maskOf [.twin, .sil, .ants, .power, .chr]
        [.FT_STATUS, .MGR_ROLE, .TWN_STATUS, .TWN_EVENTS, .ANT_COUNTS, .PWR_STATUS, .SIL_STATUS, .SIL_COUNTS, .CHR_STATUS, .CHR_ARM]) = true from by decide +kernel)
  | unitFailed x0 x1 x2 x3 x4 =>
    exact (execUnitFailed_keeps x0 x1 x2 x3 x4 s h).grow
      (show sub _ (maskOf [.ctxs, .que, .coll, .hawk, .mem, .sil, .spares, .chr]
        [.QUE_CQ_INDEX, .HWK_CORE_STATUS, .HWK_CORE_COUNTS, .HWK_REPORTS, .SIL_STATUS, .SIL_COUNTS, .CHR_STATUS, .CHR_ARM]) = true from by decide +kernel)
  | defectCommit =>
    exact (execDefectCommit_keeps s h).grow
      (show sub _ (maskOf [.spares, .cocoon]
        [.INS_FAST, .SPR_STATUS, .SPR_MAP, .SPR_EVENTS]) = true from by decide +kernel)
  | spareTakeover =>
    exact (execSpareTakeover_keeps s h).grow
      (show sub _ (maskOf [.ports, .net, .hawk, .sec, .route, .agent, .twin, .sil, .ants, .power, .spares, .chr, .out]
        [.FT_STATUS, .PRT_STATUS, .PRT_EVENTS, .MGR_ROLE, .TWN_STATUS, .TWN_SYNC, .TWN_EVENTS, .TWN_PORT_STATUS, .ACD_SLOTS, .HWK_CORE_STATUS, .HWK_WING_STATUS, .HWK_BQ_STATUS, .ANT_COUNTS, .INS_FAST, .PWR_STATUS, .SPR_MAP, .SPR_FREE, .SPR_EVENTS, .SIL_STATUS, .SIL_COUNTS, .CHR_STATUS, .CHR_ARM, .WST_STATUS]) = true from by decide +kernel)
  | essentialUnitFail x0 x1 =>
    exact (execEssentialUnitFail_keeps x0 x1 s h).grow
      (show sub _ (maskOf [.ports, .net, .sec, .route, .agent, .twin, .sil, .ants, .power, .chr, .out]
        [.FT_STATUS, .PRT_CTL, .PRT_STATUS, .MGR_ROLE, .TWN_STATUS, .TWN_SYNC, .TWN_EVENTS, .TWN_PORT_STATUS, .ANT_COUNTS, .PWR_STATUS, .SIL_STATUS, .SIL_COUNTS, .CHR_STATUS, .CHR_ARM]) = true from by decide +kernel)
  | defectRead x0 x1 =>
    exact (execDefectRead_keeps x0 x1 s h).grow
      (show sub _ (maskOf [.twin, .fw]
        []) = true from by decide +kernel)
  | spareStatus x0 =>
    exact (execSpareStatus_keeps x0 s h).grow
      (show sub _ (maskOf [.twin, .fw]
        []) = true from by decide +kernel)
  | wingStatus x0 =>
    exact (execWingStatus_keeps x0 s h).grow
      (show sub _ (maskOf [.twin, .fw]
        []) = true from by decide +kernel)
  | persistWrite =>
    exact (execPersistWrite_keeps s h).grow
      (show sub _ (maskOf [.sil, .cocoon]
        [.SIL_CFG, .SIL_COUNTS]) = true from by decide +kernel)
  | silCursorWrite x0 x1 =>
    exact (execSilCursorWrite_keeps x0 x1 s h).grow
      (show sub _ (maskOf [.out]
        [.SIL_CURSOR, .SIL_WINDOW]) = true from by decide +kernel)
  | silWindow7AutoRead x0 =>
    exact (execSilWindow7AutoRead_keeps x0 s h).grow
      (show sub _ (maskOf [.out]
        [.SIL_CURSOR, .SIL_WINDOW]) = true from by decide +kernel)
  | silClear x0 =>
    exact (execSilClear_keeps x0 s h).grow
      (show sub _ (maskOf [.twin, .fw, .sil, .chr]
        [.SIL_STATUS, .SIL_COUNTS, .CHR_STATUS, .CHR_ARM]) = true from by decide +kernel)
  | silConfig x0 x1 x2 =>
    exact (execSilConfig_keeps x0 x1 x2 s h).grow
      (show sub _ (maskOf [.pool, .twin, .fw, .sil, .free]
        [.HBM_POOL, .SIL_STATUS, .SIL_CFG, .SIL_COUNTS]) = true from by decide +kernel)
  | freezePin =>
    exact (execFreezePin_keeps s h).grow
      (show sub _ (maskOf [.chr]
        [.CHR_STATUS, .CHR_ARM]) = true from by decide +kernel)
  | chrFreeze x0 =>
    exact (execChrFreeze_keeps x0 s h).grow
      (show sub _ (maskOf [.chr]
        [.CHR_STATUS, .CHR_ARM]) = true from by decide +kernel)
  | chrArm x0 x1 x2 x3 x4 x5 x6 =>
    exact (execChrArm_keeps x0 x1 x2 x3 x4 x5 x6 s h).grow
      (show sub _ (maskOf [.twin, .fw, .chr]
        [.CHR_ARM]) = true from by decide +kernel)
  | freezeDelayEnd =>
    exact (execFreezeDelayEnd_keeps s h).grow
      (show sub _ (maskOf [.sil, .power, .chr, .out]
        [.SIL_STATUS, .SIL_COUNTS, .CHR_STATUS, .CHR_FREEZE_FTU, .CHR_ARM]) = true from by decide +kernel)
  | chrStart x0 =>
    exact (execChrStart_keeps x0 s h).grow
      (show sub _ (maskOf [.chr, .out, .free]
        [.CHR_STATUS]) = true from by decide +kernel)
  | chrNext x0 x1 =>
    exact (execChrNext_keeps x0 x1 s h).grow
      (show sub _ (maskOf [.out]
        [.CHR_HALF]) = true from by decide +kernel)
  | chrRelease x0 =>
    exact (execChrRelease_keeps x0 s h).grow
      (show sub _ (maskOf [.time, .ports, .eps, .ctxs, .net, .que, .pool, .dma, .coll, .hawk, .sec, .mem, .route, .agent, .map, .mgr, .twin, .fw, .sil, .ants, .ins, .power, .spares, .chr, .out]
        RegName.list) = true from by decide +kernel)
  | readoutHalfReady x0 x1 x2 =>
    exact (execReadoutHalfReady_keeps x0 x1 x2 s h).grow
      (show sub _ (maskOf [.mem, .chr]
        [.CHR_STATUS, .CHR_HALF]) = true from by decide +kernel)
  | readoutHang x0 =>
    exact (execReadoutHang_keeps x0 s h).grow
      (show sub _ (maskOf [.sil, .chr]
        [.SIL_STATUS, .SIL_COUNTS, .CHR_STATUS, .CHR_ARM]) = true from by decide +kernel)
  | acdSliceClear x0 x1 =>
    exact (execAcdSliceClear_keeps x0 x1 s h).grow
      (show sub _ (maskOf [.out]
        [.ACD_SLICE_SEL, .ACD_SLOWEST, .ACD_LATE_HIST]) = true from by decide +kernel)
  | registerWrite x0 x1 x2 =>
    exact (execRegisterWrite_keeps x0 x1 x2 s h).grow
      (show sub _ (maskOf [.time, .ports, .eps, .ctxs, .net, .que, .pool, .dma, .coll, .hawk, .sec, .mem, .route, .agent, .map, .mgr, .twin, .fw, .sil, .ants, .ins, .power, .spares, .chr, .out, .free]
        RegName.list) = true from by decide +kernel)
  | porAssert x0 =>
    exact (execPorAssert_keeps x0 s h).grow
      (show sub _ (maskOf [.time, .ports, .eps, .ctxs, .net, .que, .pool, .dma, .coll, .hawk, .sec, .mem, .route, .agent, .map, .mgr, .twin, .fw, .sil, .ants, .ins, .power, .spares, .cocoon, .pins, .chr, .out, .free]
        RegName.list) = true from by decide +kernel)
  | resetRelease x0 x1 =>
    exact (execResetRelease_keeps x0 x1 s h).grow
      (show sub _ (maskOf [.ins, .power, .pins]
        [.MGR_ROLE, .SEC_STATUS, .RST_CAUSE]) = true from by decide +kernel)
  | warmAssert =>
    exact (execWarmAssert_keeps s h).grow
      (show sub _ (maskOf [.time, .ports, .eps, .ctxs, .net, .que, .pool, .dma, .coll, .hawk, .sec, .mem, .route, .agent, .map, .mgr, .twin, .fw, .sil, .ants, .ins, .power, .spares, .chr, .out]
        RegName.list) = true from by decide +kernel)
  | warmRelease x0 x1 =>
    exact (execWarmRelease_keeps x0 x1 s h).grow
      (show sub _ (maskOf [.pool, .mem, .sil, .ins, .power, .pins]
        [.MGR_ROLE, .SEC_STATUS, .INS_STATUS, .RST_CAUSE, .RST_COUNTS, .PWR_STATUS, .SIL_STATUS, .SIL_CFG]) = true from by decide +kernel)
  | vinLoss =>
    exact (execVinLoss_keeps s h).grow
      (show sub _ (maskOf [.time, .ports, .eps, .ctxs, .net, .que, .pool, .dma, .coll, .hawk, .sec, .mem, .route, .agent, .map, .mgr, .twin, .fw, .sil, .ants, .ins, .power, .spares, .cocoon, .pins, .chr, .out, .free]
        RegName.list) = true from by decide +kernel)
  | sysclkLoss =>
    exact (execSysclkLoss_keeps s h).grow
      (show sub _ (maskOf [.time, .ports, .eps, .ctxs, .net, .que, .pool, .dma, .coll, .hawk, .sec, .mem, .route, .agent, .map, .mgr, .twin, .fw, .sil, .ants, .ins, .power, .spares, .cocoon, .pins, .chr, .out, .free]
        RegName.list) = true from by decide +kernel)
  | srefclkLoss x0 =>
    exact (execSrefclkLoss_keeps x0 s h).grow
      (show sub _ (maskOf [.ports, .net, .dma, .sec, .mem, .route, .agent, .twin, .sil, .ants, .power, .chr, .out]
        [.PRT_STATUS, .PRT_EVENTS, .TWN_STATUS, .TWN_SYNC, .TWN_EVENTS, .TWN_PORT_STATUS, .ATS_CH_LOCK, .ATS_CH_STATUS, .ATS_CQ_INDEX, .CTL_SEM, .CTL_EPOCHS, .MBX_DATA, .MBX_STATUS, .MBX_ACK, .MBX_LOCK, .DB_IN, .DB_OUT, .ANT_STATUS, .ANT_COUNTS, .INS_FAST, .SIL_STATUS, .SIL_COUNTS, .SIL_CURSOR, .CHR_STATUS, .CHR_ARM]) = true from by decide +kernel)
  | debugExtest x0 x1 =>
    exact (execDebugExtest_keeps x0 x1 s h).grow
      (show sub _ (maskOf [.time, .ports, .eps, .ctxs, .net, .que, .pool, .dma, .coll, .hawk, .sec, .mem, .route, .agent, .map, .mgr, .twin, .fw, .sil, .ants, .ins, .power, .spares, .cocoon, .pins, .chr, .out, .free]
        RegName.list) = true from by decide +kernel)
  | stage1Done x0 x1 x2 x3 =>
    exact (execStage1Done_keeps x0 x1 x2 x3 s h).grow
      (show sub _ (maskOf [.sil, .ins, .cocoon, .chr]
        [.HBM_RETIRE, .SEC_STATUS, .SEC_DEVICE_ID, .SEC_XMSS_INDEX, .SEC_XMSS_RESERVED, .INS_STATUS, .INS_LIFE, .INS_FAST, .SPR_STATUS, .SIL_STATUS, .SIL_CFG, .SIL_COUNTS, .CHR_STATUS, .CHR_ARM]) = true from by decide +kernel)
  | stage2Done x0 x1 =>
    exact (execStage2Done_keeps x0 x1 s h).grow
      (show sub _ (maskOf [.sec, .sil, .ins, .power, .spares, .chr]
        [.SEC_STATUS, .INS_STATUS, .SIL_STATUS, .SIL_COUNTS, .CHR_STATUS, .CHR_ARM]) = true from by decide +kernel)
  | insGoFirmware x0 x1 =>
    exact (execInsGoFirmware_keeps x0 x1 s h).grow
      (show sub _ (maskOf [.sil, .ins, .chr, .out]
        [.INS_CTL, .INS_STATUS, .SIL_STATUS, .SIL_COUNTS, .CHR_STATUS, .CHR_ARM]) = true from by decide +kernel)
  | stage3Done x0 x1 =>
    exact (execStage3Done_keeps x0 x1 s h).grow
      (show sub _ (maskOf [.sec, .fw, .sil, .ins, .chr]
        [.SEC_STATUS, .INS_STATUS, .INS_IMAGE, .SIL_STATUS, .SIL_COUNTS, .CHR_STATUS, .CHR_ARM, .WST_STATUS]) = true from by decide +kernel)
  | insGoStartTest x0 x1 =>
    exact (execInsGoStartTest_keeps x0 x1 s h).grow
      (show sub _ (maskOf [.ins, .out]
        [.INS_CTL, .INS_STATUS, .WST_STATUS]) = true from by decide +kernel)
  | stage4Done x0 =>
    exact (execStage4Done_keeps x0 s h).grow
      (show sub _ (maskOf [.sil, .ins, .spares, .cocoon, .chr]
        [.ACD_SLOTS, .HWK_CORE_STATUS, .HWK_WING_STATUS, .INS_STATUS, .INS_TEST, .INS_FAST, .SPR_STATUS, .SPR_MAP, .SPR_FREE, .SPR_EVENTS, .SIL_STATUS, .SIL_COUNTS, .CHR_STATUS, .CHR_ARM, .WST_STATUS, .WST_TEST]) = true from by decide +kernel)
  | insGoHbm x0 x1 =>
    exact (execInsGoHbm_keeps x0 x1 s h).grow
      (show sub _ (maskOf [.ins, .spares, .out]
        [.ACD_SLOTS, .HWK_CORE_STATUS, .HWK_WING_STATUS, .INS_CTL, .INS_STATUS, .SPR_MAP, .SPR_FREE, .WST_STATUS]) = true from by decide +kernel)
  | stage5Done x0 x1 x2 =>
    exact (execStage5Done_keeps x0 x1 x2 s h).grow
      (show sub _ (maskOf [.pool, .mem, .sil, .ins, .power, .cocoon, .chr]
        [.HBM_STACK_STATUS, .HBM_RETIRE, .INS_STATUS, .INS_TEST, .INS_FAST, .RST_CAUSE, .SPR_STATUS, .SPR_EVENTS, .SIL_STATUS, .SIL_CFG, .SIL_COUNTS, .CHR_STATUS, .CHR_ARM]) = true from by decide +kernel)
  | insGoPorts x0 x1 =>
    exact (execInsGoPorts_keeps x0 x1 s h).grow
      (show sub _ (maskOf [.ports, .sil, .ins, .chr, .out]
        [.PRT_CTL, .PRT_STATUS, .TWN_PORT_STATUS, .INS_CTL, .INS_STATUS, .INS_PORTS, .SIL_STATUS, .SIL_COUNTS, .CHR_STATUS, .CHR_ARM]) = true from by decide +kernel)
  | stage6End =>
    exact (execStage6End_keeps s h).grow
      (show sub _ (maskOf [.sil, .chr]
        [.INS_STATUS, .INS_PORTS, .SIL_STATUS, .SIL_COUNTS, .CHR_STATUS, .CHR_ARM]) = true from by decide +kernel)
  | insGoRole x0 x1 =>
    exact (execInsGoRole_keeps x0 x1 s h).grow
      (show sub _ (maskOf [.ins, .out]
        [.INS_CTL, .INS_STATUS]) = true from by decide +kernel)
  | insGoTime x0 x1 =>
    exact (execInsGoTime_keeps x0 x1 s h).grow
      (show sub _ (maskOf [.twin, .ins, .out]
        [.FT_STATUS, .TWN_STATUS, .INS_CTL]) = true from by decide +kernel)
  | stage7Done =>
    exact (execStage7Done_keeps s h).grow
      (show sub _ (maskOf [.sil, .ins, .chr]
        [.INS_STATUS, .SIL_STATUS, .SIL_COUNTS, .CHR_STATUS, .CHR_ARM]) = true from by decide +kernel)
  | imagoCheck x0 =>
    exact (execImagoCheck_keeps x0 s h).grow
      (show sub _ (maskOf [.pool, .agent, .sil, .ins, .chr, .out, .free]
        [.HBM_POOL, .INS_STATUS, .SIL_STATUS, .SIL_CFG, .SIL_COUNTS, .CHR_STATUS, .CHR_ARM]) = true from by decide +kernel)
  | instarStageTimeout =>
    exact (execInstarStageTimeout_keeps s h).grow
      (show sub _ (maskOf [.sil, .ins, .chr]
        [.INS_STATUS, .SIL_STATUS, .SIL_COUNTS, .CHR_STATUS, .CHR_ARM]) = true from by decide +kernel)
  | laneLock x0 x1 =>
    exact (execLaneLock_keeps x0 x1 s h).grow
      (show sub _ (maskOf [.ports, .agent, .twin, .fw, .out]
        [.PRT_STATUS, .TWN_PORT_STATUS]) = true from by decide +kernel)
  | sysclkReturn x0 =>
    exact (execSysclkReturn_keeps x0 s h).grow
      (show sub _ (maskOf [.ins, .power, .pins]
        [.MGR_ROLE, .SEC_STATUS, .RST_CAUSE]) = true from by decide +kernel)
  | srefclkReturn x0 =>
    exact (execSrefclkReturn_keeps x0 s h).grow
      (show sub _ (maskOf [.power]
        []) = true from by decide +kernel)

end Sys2Proof.Machine
end

