-- ==== Sys2Proof/Laws/Memory.lean ====
section
/-! SUPPORT. Sys2Proof/Laws/Memory.lean: what a write of bytes does to every byte of memory, and that it keeps the canonical form. -/

namespace Sys2Proof.Machine

/-- A write leaves the bytes outside it alone. -/
theorem get_writeBytes_outside (m : List Host.Cell) (a x : Nat) (bs : List Byte) (h : x < a ∨ a + bs.length ≤ x) :
    Store.get memDefault (writeBytes m a bs) x = Store.get memDefault m x := by
  induction bs generalizing m a with
  | nil => rfl
  | cons b t ih =>
    simp only [List.length_cons] at h
    rw [writeBytes, ih _ _ (by omega), Store.get_set_other _ _ _ _ _ (by omega)]

/-- A byte written reads as written. -/
theorem get_writeBytes_inside (m : List Host.Cell) (a i : Nat) (bs : List Byte) (h : Store.wf memDefault m = true)
    (hi : i < bs.length) : Store.get memDefault (writeBytes m a bs) (a + i) = bs[i] := by
  induction bs generalizing m a i with
  | nil => simp at hi
  | cons b t ih =>
    cases i with
    | zero =>
      rw [writeBytes, Nat.add_zero, get_writeBytes_outside _ _ _ _ (by omega)]
      simpa using Store.get_set_same _ _ _ _ h
    | succ j =>
      have hj : j < t.length := by simpa using hi
      have := ih (Store.set memDefault m a b) (a + 1) j (Store.wf_set _ _ _ _ h) hj
      rw [show a + 1 + j = a + (j + 1) from by omega] at this
      simpa [writeBytes] using this

/-- Memory after a write, byte by byte. -/
theorem byteAt_writeMem (s : State) (a x : Nat) (bs : List Byte) (h : Store.wf memDefault s.mem = true) :
    (s.writeMem a bs).byteAt x = if a ≤ x ∧ x < a + bs.length then bs.getD (x - a) 0 else s.byteAt x := by
  unfold State.writeMem State.byteAt
  split
  · next hx =>
    have := get_writeBytes_inside s.mem a (x - a) bs h (by omega)
    rw [show a + (x - a) = x from by omega] at this
    rw [this, List.getD_eq_getElem?_getD, List.getElem?_eq_getElem (by omega), Option.getD_some]
  · exact get_writeBytes_outside _ _ _ _ (by omega)

/-- Reading back what was written. -/
theorem readMem_writeMem (s : State) (a : Nat) (bs : List Byte) (h : Store.wf memDefault s.mem = true) :
    (s.writeMem a bs).readMem a bs.length = bs := by
  apply List.ext_getElem
  · simp [State.readMem]
  · intro i h1 h2
    simp only [State.readMem, List.getElem_map, List.getElem_range]
    exact get_writeBytes_inside s.mem a i bs h h2

/-- A write keeps the canonical form, and changes memory alone. -/
theorem wf_writeMem (s : State) (a : Nat) (bs : List Byte) (h : Store.wf memDefault s.mem = true) :
    Store.wf memDefault (s.writeMem a bs).mem = true := wf_writeBytes s.mem a bs h

theorem writeMem_regs (s : State) (a : Nat) (bs : List Byte) : (s.writeMem a bs).regs = s.regs := rfl

end Sys2Proof.Machine
end

