-- ==== Sys2Proof/Tests/Slice0.lean ====
section
/-! SUPPORT. Sys2Proof/Tests/Slice0.lean: tests of the model: ill-formed commands that WellFormed refuses, states that meet the
hypotheses of each statement of Obligations.lean, and results on small states. -/

set_option maxRecDepth 100000
set_option Elab.async false

namespace Sys2Proof.Tests

open Sys2Proof Sys2Proof.Machine

/-! ### Small states and operands -/

/-- The part out of reset, with every register as reset leaves it. -/
def run0 : State := { State.reset with power := { PowerSt.init with inReset := false, porHeld := false, rstLow := false } }
/-- An agent whose manager is chip 0. -/
def fol : State := run0.setFld F.TWN_AGENT_MANAGER_CHIP 0 0
/-- A manager's chip, and the active manager. -/
def mchip : State := (run0.setFld F.MGR_ROLE_ROLE 0 1).setFld F.MGR_ROLE_CONFIRMED 0 1
def mon : State := mchip.setFld F.MGR_ROLE_ACTIVE 0 1
/-- The shadow. -/
def shadow : State := mchip.setFld F.TWN_STATUS_STATE 0 MS_SHADOW
/-- Port `p` in a mode and a state. -/
def inMode (s : State) (p mode state : Nat) : State := (s.setFld F.PRT_CTL_MODE p mode).setFld F.PRT_STATUS_STATE p state
def fabUp : State := inMode run0 0 PM_FABRIC PS_UP
def edgeUp : State := inMode run0 0 PM_EDGE PS_UP
/-- Context 0 is OPEN in slice 0. -/
def open0 : State := run0.setFld F.QUE_CTX_STATUS_STATE 0 1
def imago (s : State) : State := s.setFld F.INS_STATUS_IMAGO 0 1
/-- Instar at work on a stage. -/
def stageAt (n : Nat) : State := (run0.setFld F.INS_STATUS_STAGE 0 n).setFld F.INS_STATUS_STATE 0 1
/-- Antenna port 0 in a state. -/
def antIn (n : Nat) : State := run0.setFld F.ANT_STATUS_STATE 0 n

def ref0 : FwRef := ⟨.owners, 0⟩
def hdr0 : MsgHdr := ⟨0, 0, 0, false⟩
def ident0 : Ident := ⟨false, false, 0, 0, 2, 1, 0, 0, 0, 0, 0, true⟩
def map0 : InstMap := ⟨0x5A4D4150, 1, false, 0, 0, 0, 0, [⟨0, 0, 1, 0, 0, 0, []⟩, ⟨0, 1, 2, 0, 0, 0, []⟩], [], [], true⟩
def key0 : StreamKey := ⟨0, 0, 0, 0, 0⟩
def copy0 : Copy := ⟨key0, Packet.blank, -9, 0, none⟩
def slice1 : SliceRec := ⟨1, false, [], .running, 0, none, none, false, none⟩
def drain0 : MgrDrain := ⟨[], [], [], [], 0, 0, 0, [], false⟩
def plan0 : Plan := ⟨0, 1, 0, 0, 0, 0, []⟩
def node0 : BqNode := ⟨0x10, 0, 0, 1, 0xFFFF, 0, 1, 0, 0, 0, 0, 0, []⟩
def step0 : BqStep := ⟨0, 0, 1, true, true, 0⟩
def bq0 : Bq := ⟨0, 0, 1, 0, 0, [node0], [step0], [], []⟩
def part0 : BqPart := ⟨0, 1, 0, 1, bq0, 0, 2, false, [], [], [], [], [], 0, [], none⟩
def stepRun0 : StepRun := ⟨1, 0, none, (20000, 0), 0, 0, 0, 5⟩
def load0 : MgrLoad := ⟨0, 1, [], none, [], none, [], ref0, 1, 0, none, none, false⟩
def runCmd (op : Nat) (slot : List Byte) : RunCmd where
  queue := 0
  index := 0
  ctx := 0
  epoch := 0
  opcode := op
  slot := slot
  startFtu := 0
  begun := false
  issued := 0
  landed := []
  fails := []
  extent := 0
  full := 0
  lastChunk := none
  missing := 0
  drops := 0
  aux := 0
  detail := 0
  slipped := false
  spilled := false
  progFtu := 0
  progWb := 0
  stop := false
  ended := none
  blocks := []
  chunkLen := 0
  own := (0, 0)
  pos := 0
  endAt := none
  ranges := []
def runs (s : State) (rs : List RunCmd) : State := { s with que := ⟨rs, []⟩ }
/-- A descriptor of an ALL_REDUCE of 64 elements. -/
def coll0 : CollNode where
  slice := 1
  num := 0
  height := 0
  wing := 0
  isRoot := true
  top := 0
  parent := none
  owner := 0
  epoch := 0
  sched := none
  desc := []
  count := 0
  digest := 0
  size := 1
  ins := []
  members := []
  bad := []
  phase := .dynamic
  slots := [0]
  next := (0, 0)
  feeds := []
  chunks := []
  outs := []
  asked := []
  cut := none
  stopAt := none
def chunk0 : CollChunk where
  dst := 0xFFFF
  num := 0
  acc := none
  first := none
  seen := []
  late := 0
  codesIn := []
  codesUp := false
  codes := none
  parts := []
  slipped := false
  spilled := false
  out := none
  grant := none
  codeGrant := none
  sent := false
  since := 0
  down := []
  result := none
  rets := []
  aborts := []
  served := []
  abort := none
  undelivered := false
def nodes (s : State) (l : List CollNode) : State := { s with coll := { s.coll with nodes := l } }
def skpGen0 : SkpGen := ⟨0, 0, 0, 0, [], false, 0, false, true, [], (0, 0), none⟩
def skpNode0 : SkpNode := ⟨0, 0, false, some (0, 0), [], [skpGen0]⟩
def group0 : SkpGroup := ⟨0, 1, [0], 0, [], [skpNode0], []⟩
def chain0 : ChainL := ⟨0, 0, 0, true, none, none, false, 0, false, [], 0, 0, false, none⟩
def desc0 : Desc := ⟨0, 0, 0, 0, 64, 1, 0, 0, 0, 0, 0, false, false, 0, 0, 0, 0, 0⟩
def frame0 : AntFrame := ⟨0x04, 0, 0, 0, 0, 0, 0, 0, [], true⟩
def entry0 : JournalEntry := ⟨ref0, 0, 0, true, 0, 0, [], 0, 1, 0, 0, 0, none⟩
def session0 : BulkSession := ⟨0, 0, false, 0, 0, [], 0, 0, some 0, false, 0, [], [], -9000000⟩
def dgram0 : BulkDgram := ⟨0, 0, 0, 0, 0, 0, 0, 0, []⟩
def svc0 : SvcCfg := ⟨0, 0, 0, 0, []⟩
def sil0 : SilRec := ⟨0, 0, 0, 0, 0, 0, 0, 0, false, false, false, 0, 0, 0, []⟩
def beat0 : Beat := ⟨0, false, false, false, 0, 0, 0, 0⟩
def recs0 : MgrRecords := ⟨MgrSt.init, none, [], false⟩
def sliceEntry0 : SliceEntry := ⟨0, [], none, none, none, false⟩

/-! ### The hypotheses of the statements can be met -/

def map1 : InstMap := { map0 with chips := [⟨0, 0, 1, 0, 0, 0, List.replicate 128 ⟨0, 0, 0xFFFF, 0xFFFF, 0⟩⟩] }
def mvSlot : List Byte := List.replicate 48 0 ++ leBytes 4 64 ++ List.replicate 12 0
def skSlot : List Byte := List.replicate 34 0 ++ [1, 0, 0x13] ++ List.replicate 27 0
def opSlot : List Byte := List.replicate 32 0 ++ leBytes 4 1 ++ List.replicate 28 0
def partOp : BqPart := { part0 with bq := { bq0 with steps := [{ step0 with auto := false }] } }
/-- The header of a bouquet image with one node, one step and one member. -/
def bqImage : List Byte :=
  leBytes 4 0x51554F42 ++ [1, 0, 0, 0] ++ leBytes 2 1 ++ leBytes 2 1 ++ leBytes 4 1 ++ leBytes 2 1 ++ leBytes 2 0 ++ leBytes 4 0
  ++ leBytes 4 0 ++ leBytes 4 384 ++ leBytes 8 0 ++ leBytes 4 64 ++ leBytes 4 192 ++ leBytes 4 256 ++ leBytes 4 256 ++ leBytes 4 320
  ++ List.replicate 324 0


theorem witness_wingbeatsAndLengthChangesComplete :
    (∃ (s : State), s.running = true ∧ s.time.based = true ∧ 0 ≤ (s.ftu - s.tickFtu (s.wb + 1)).toInt) ∧
    (∃ (s : State), s.manages ∧ s.anyBouquet = false) ∧
    (∃ (s : State) (h : MsgHdr), s.hears h) ∧
    (∃ (s : State) (h : MsgHdr), s.managerHears h) ∧
    (∃ (s : State) (c : MonChange), s.running = true ∧ s.time.change = some c ∧ s.isActive = true ∧ c.decision = none ∧ s.reached (c.m - 128#48) = true ∧ (∀ a ∈ s.agents, c.acks.any (fun b => b.val == a) = true)) ∧
    (∃ (s : State), s.running = true ∧ s.flag F.FT_WB_CTL_PENDING = true ∧ s.time.decision = none ∧ s.reached (s.changeAt - 16#48) = true) ∧
    (∃ (s : State), s.running = true ∧ s.flag F.FT_WB_CTL_PENDING = true ∧ s.reached s.changeAt = true ∧ s.time.decision = some true) ∧
    (∃ (s : State) (h : MsgHdr), s.hears h ∧ s.fld F.FT_STATUS_STATE ≠ TS_LOCKED) ∧
    (∃ (s : State) (wing : Wing) (x : StepRun) (p : BqPart) (st : BqStep) (n : BqNode), s.running = true ∧ s.hawk.runs = [x] ∧ s.coll.nodes = [] ∧ s.stepNode x = some (p, st, n) ∧ n.wing = wing.val ∧ x.wb ≠ s.wb ∧ x.op = none ∧ s.stepStatus x ≠ ST_FAULT_UNIT ∧ s.fresh.2.resetNow n.ctx = false) :=
  ⟨⟨{ run0 with time := { TimeSt.init with based := true } }.setReg .FT_COUNT 0 90000, by decide +kernel, by decide +kernel, by decide +kernel⟩,
    ⟨mon, by decide +kernel, by decide +kernel⟩,
    ⟨fol, hdr0, by decide +kernel⟩,
    ⟨mon, hdr0, by decide +kernel⟩,
    ⟨{ mon with time := { TimeSt.init with change := some ⟨-9000, 0, [], none, ref0⟩ } }, ⟨-9000, 0, [], none, ref0⟩, by decide +kernel, by decide +kernel, by decide +kernel, by decide +kernel, by decide +kernel, by decide +kernel⟩,
    ⟨run0.setFld F.FT_WB_CTL_PENDING 0 1, by decide +kernel, by decide +kernel, by decide +kernel, by decide +kernel⟩,
    ⟨{ run0.setFld F.FT_WB_CTL_PENDING 0 1 with time := { TimeSt.init with decision := some true } }, by decide +kernel, by decide +kernel, by decide +kernel, by decide +kernel⟩,
    ⟨fol, hdr0, by decide +kernel, by decide +kernel⟩,
    ⟨{ run0 with hawk := ⟨[part0], [stepRun0], 0⟩ }, 0, stepRun0, part0, step0, node0, by decide +kernel, by decide +kernel, by decide +kernel, by decide +kernel, by decide +kernel, by decide +kernel, by decide +kernel, by decide +kernel, by decide +kernel⟩⟩

theorem witness_fabricTimeCommandsComplete :
    (∃ (s : State) (l : Link), s.running = true ∧ s.trained l.val = true) ∧
    (∃ (s : State) (l : Link) (t : TimeSet), s.running = true ∧ t.checkOk = true ∧ s.trained l.val = true ∧ (s.port l.val).time.sent = [] ∧ s.steersTo l.val = false) ∧
    (∃ (s : State), s.running = true ∧ s.upstreamLost = true ∧ s.fld F.FT_STATUS_STATE = TS_ACQUIRE ∧ upstreamLink (s.fld F.FT_STATUS_ALTERNATE) = none) ∧
    (∃ (s : State), s.running = true ∧ s.canonical ∧ s.fld F.FT_STATUS_STATE ≠ TS_ROOT) ∧
    (∃ (s : State), s.running = true ∧ s.flag F.FT_PPS_CTL_OUT_EN = true ∧ s.ftu.toNat % 1600000000 = s.fld F.FT_PPS_CTL_PHASE) ∧
    (∃ (s : State) (b : Ftu), s.running = true ∧ s.time.ppsOut = some b ∧ 160000000 ≤ (s.ftu - b).toNat) :=
  ⟨⟨fabUp, 0, by decide +kernel, by decide +kernel⟩,
    ⟨fabUp, 0, ⟨0, 0, false, false, false, 0, true, 0, 0⟩, by decide +kernel, by decide +kernel, by decide +kernel, by decide +kernel, by decide +kernel⟩,
    ⟨(run0.setFld F.FT_STATUS_UPSTREAM 0 1).setFld F.FT_STATUS_STATE 0 TS_ACQUIRE, by decide +kernel, by decide +kernel, by decide +kernel, by decide +kernel⟩,
    ⟨run0, by decide +kernel, by decide +kernel, by decide +kernel⟩,
    ⟨run0.setFld F.FT_PPS_CTL_OUT_EN 0 1, by decide +kernel, by decide +kernel, by decide +kernel⟩,
    ⟨{ run0 with time := { TimeSt.init with ppsOut := some (-200000000) } }, -200000000, by decide +kernel, by decide +kernel, by decide +kernel⟩⟩

theorem witness_portCommandsComplete :
    (∃ (s : State) (port : Port) (mode : Fin 4), s.running = true ∧ (mode.val = PM_SERVICE → servicePort port.val = true) ∧ s.portBusy port.val = false) ∧
    (∃ (s : State) (port : Port) (time : Fin 1024), s.running = true ∧ 1 ≤ time.val ∧ time.val ≤ 600 ∧ s.portBusy port.val = false) ∧
    (∃ (s : State), s.running = true) ∧
    (∃ (s : State), s.running = true) ∧
    (∃ (s : State), s.running = true) :=
  ⟨⟨run0, 0, 0, by decide +kernel, by decide +kernel, by decide +kernel⟩,
    ⟨run0, 0, 1, by decide +kernel, by decide +kernel, by decide +kernel, by decide +kernel⟩,
    ⟨run0, by decide +kernel⟩,
    ⟨run0, by decide +kernel⟩,
    ⟨run0, by decide +kernel⟩⟩

theorem witness_laneAndLinkEventsComplete :
    (∃ (s : State) (l : Link), s.running = true ∧ PS_TRAINING < s.linkState l.val ∧ l.val ≠ twinLink) ∧
    (∃ (s : State) (l : Link) (lane : Fin 8), s.running = true ∧ s.linkState l.val = PS_UP ∧ l.val < 128 ∧ (s.pairsOk l.val).contains (lane.val / 2) = true ∧ s.linkMode l.val = PM_FABRIC ∧ s.linkWidth l.val = 8) ∧
    (∃ (s : State) (port : Port) (pairs : List (Fin 4)) (kept : List Nat), s.running = true ∧ kept = (List.range 4).filter (fun q => pairs.any fun x => x.val == q) ∧ kept.length = 3 ∧ PS_TRAINING ≤ s.linkState port.val ∧ s.linkWidth port.val = 6 ∧ s.pairsOk port.val = kept ∧ (s.port port.val).narrowing = true) ∧
    (∃ (s : State) (port : Port) (errs : List Nat) (bits : Nat), s.running = true ∧ s.linkState port.val = PS_UP ∧ (∀ k < 8, errs.getD k 0 * 10000 ≤ bits)) ∧
    (∃ (s : State) (l : Link), s.running = true ∧ l.val < 128 ∧ s.linkState l.val = PS_DOWN ∧ s.linkMode l.val = PM_FABRIC ∧ s.dead l.val = false) ∧
    (∃ (s : State) (port : Port), s.running = true ∧ s.linkState port.val = PS_UP) ∧
    (∃ (s : State) (port : Port), s.running = true ∧ s.linkState port.val = PS_FROZEN_PEER) :=
  ⟨⟨fabUp, 0, by decide +kernel, by decide +kernel, by decide +kernel⟩,
    ⟨(fabUp.setFld F.PRT_STATUS_PAIRS_OK 0 15).setLinkWidth 0 8, 0, 0, by decide +kernel, by decide +kernel, by decide +kernel, by decide +kernel, by decide +kernel, by decide +kernel⟩,
    ⟨((fabUp.setFld F.PRT_STATUS_PAIRS_OK 0 7).setLinkWidth 0 6).modPort 0 fun p => { p with narrowing := true }, 0, [0, 1, 2], [0, 1, 2], by decide +kernel, by decide +kernel, by decide +kernel, by decide +kernel, by decide +kernel, by decide +kernel, by decide +kernel⟩,
    ⟨fabUp, 0, [], 0, by decide +kernel, by decide +kernel, by decide +kernel⟩,
    ⟨inMode run0 0 PM_FABRIC PS_DOWN, 0, by decide +kernel, by decide +kernel, by decide +kernel, by decide +kernel, by decide +kernel⟩,
    ⟨fabUp, 0, by decide +kernel, by decide +kernel⟩,
    ⟨inMode run0 0 PM_FABRIC PS_FROZEN_PEER, 0, by decide +kernel, by decide +kernel⟩⟩

theorem witness_identityAndQualificationComplete :
    (∃ (s : State) (l : Link), s.running = true ∧ s.linkState l.val = PS_TRAINING ∧ s.linkMode l.val ≠ PM_SERVICE) ∧
    (∃ (s : State) (l : Link) (id : Ident), s.running = true ∧ id.checkOk = true ∧ s.linkState l.val = PS_TRAINING ∧ s.linkMode l.val ≠ PM_SERVICE ∧ l.val ≠ twinLink) ∧
    (∃ (s : State) (l : Link), s.running = true ∧ s.linkState l.val = PS_TRAINING) ∧
    (∃ (s : State) (l : Link), s.running = true ∧ s.linkState l.val = PS_QUALIFYING ∧ (s.port l.val).phase = 1) ∧
    (∃ (s : State) (l : Link), s.running = true ∧ s.linkState l.val = PS_QUALIFYING ∧ (s.port l.val).phase = 2) ∧
    (∃ (s : State) (l : Link), s.running = true ∧ s.linkState l.val = PS_QUALIFYING) ∧
    (∃ (s : State) (l : Link), s.running = true ∧ s.linkState l.val = PS_QUALIFYING ∧ (s.port l.val).peerPass = none) :=
  ⟨⟨inMode run0 0 PM_FABRIC PS_TRAINING, 0, by decide +kernel, by decide +kernel, by decide +kernel⟩,
    ⟨inMode run0 0 PM_FABRIC PS_TRAINING, 0, ident0, by decide +kernel, by decide +kernel, by decide +kernel, by decide +kernel, by decide +kernel⟩,
    ⟨inMode run0 0 PM_FABRIC PS_TRAINING, 0, by decide +kernel, by decide +kernel⟩,
    ⟨(inMode run0 0 PM_FABRIC PS_QUALIFYING).modPort 0 fun p => { p with phase := 1 }, 0, by decide +kernel, by decide +kernel, by decide +kernel⟩,
    ⟨(inMode run0 0 PM_FABRIC PS_QUALIFYING).modPort 0 fun p => { p with phase := 2 }, 0, by decide +kernel, by decide +kernel, by decide +kernel⟩,
    ⟨inMode run0 0 PM_FABRIC PS_QUALIFYING, 0, by decide +kernel, by decide +kernel⟩,
    ⟨inMode run0 0 PM_FABRIC PS_QUALIFYING, 0, by decide +kernel, by decide +kernel, by decide +kernel⟩⟩

theorem witness_flitsAndPacketsComplete :
    (∃ (s : State) (l : Link) (word : BitVec 32) (flit : List Byte), s.running = true ∧ s.linkState l.val = PS_UP ∧ (s.port l.val).narrowing = false ∧ slotCheck word flit = true ∧ word.toNat / 8 % 4 ≠ 0) ∧
    (∃ (s : State) (u : State) (l : Link) (p : Packet), s.running = true ∧ s.linkMode l.val = PM_FABRIC ∧ l.val < 128 ∧ u = s.freeBuffers l p.vc.val (p.payFlits.val + 2) ∧ statePasses (u.linkState l.val) p = true ∧ hdrCrcOf p = p.hdrCrc ∧ u.noKey p.slice.val = false) ∧
    (∃ (s : State) (u : Fin 256) (p : Packet), s.running = true ∧ p.dstChip.val = s.chip ∧ s.bindCheck (.unit u) p = .checkEpoch ∧ p.epoch.val = s.ctxEpoch p.ctx.val ∧ s.sealDeps p = []) ∧
    (∃ (s : State) (out : Link) (vc : Fin 8) (w : Waiting), s.running = true ∧ s.waitedOver out vc.val = some w ∧ w.headed = false ∧ 1 ≤ vc.val ∧ vc.val ≤ 6) ∧
    (∃ (s : State) (out : Link) (vc : Fin 8) (w : Waiting), s.running = true ∧ s.waitedOver out vc.val = some w ∧ w.headed = false ∧ (vc.val = 0 ∨ vc.val = 7)) ∧
    (∃ (s : State) (l : Link), s.running = true ∧ s.linkState l.val = PS_UP) ∧
    (∃ (s : State) (l : Link), s.running = true ∧ s.linkState l.val = PS_UP) ∧
    (∃ (s : State) (port : Port) (p : Packet), s.running = true ∧ s.fld F.PRT_CTL_MODE port.val = PM_EDGE ∧ statePasses (s.linkState port.val) p = true) :=
  ⟨⟨fabUp, 0, (crc16 (List.replicate 64 0 ++ leBytes 2 8)).setWidth 32 <<< 16 ||| 8, List.replicate 64 0, by decide +kernel, by decide +kernel, by decide +kernel, by decide +kernel, by decide +kernel⟩,
    ⟨fabUp, _, 0, { Packet.blank with hdrCrc := hdrCrcOf Packet.blank }, by decide +kernel, by decide +kernel, by decide +kernel, rfl, by decide +kernel, by decide +kernel, by decide +kernel⟩,
    ⟨open0, 0x85, { Packet.blank with kind := 0x01, dstChip := 0xFFFF, srcChip := 0xFFFF, srcUnit := 0x80 }, by decide +kernel, by decide +kernel, by decide +kernel, by decide +kernel, by decide +kernel⟩,
    ⟨{ run0 with net := { NetSt.init with waiting := [⟨0, { Packet.blank with vc := 1 }, 1, false, -90000⟩] } }, 0, 1, ⟨0, { Packet.blank with vc := 1 }, 1, false, -90000⟩, by decide +kernel, by decide +kernel, by decide +kernel, by decide +kernel, by decide +kernel⟩,
    ⟨{ run0 with net := { NetSt.init with waiting := [⟨0, Packet.blank, 1, false, -90000⟩] } }, 0, 0, ⟨0, Packet.blank, 1, false, -90000⟩, by decide +kernel, by decide +kernel, by decide +kernel, by decide +kernel⟩,
    ⟨fabUp, 0, by decide +kernel, by decide +kernel⟩,
    ⟨fabUp, 0, by decide +kernel, by decide +kernel⟩,
    ⟨edgeUp, 0, Packet.blank, by decide +kernel, by decide +kernel, by decide +kernel⟩⟩

theorem witness_acksAndResendsComplete :
    (∃ (s : State) (unit : Fin 256) (chip : Chip) (peer : Fin 256) (ctx : Ctx) (epoch : Fin 256), s.running = true ∧ (s.receivedOf ⟨unit.val, chip.val, peer.val, ctx.val, epoch.val⟩).owed = true) ∧
    (∃ (s : State) (unit : Fin 256) (p : Packet) (c : Copy), s.running = true ∧ s.net.copies = [c] ∧ c.key = receivedKey unit.val p ∧ ackCovers (BitVec.ofNat 32 p.arg.toNat) (ofLe (p.payload.take 64)) c.pkt.seq = true ∧ c.cmd = none ∧ c.pkt.kind.val ≠ 0x03 ∧ s.net.backlog = []) ∧
    (∃ (s : State) (unit : Fin 256) (chip : Chip) (peer : Fin 256) (ctx : Ctx) (seq : BitVec 32) (c : Copy), s.running = true ∧ s.copyOf unit.val chip.val peer.val ctx.val seq = some c ∧ s.copyDue c = true ∧ c.resends < 4) ∧
    (∃ (s : State) (unit : Fin 256) (chip : Chip) (peer : Fin 256) (ctx : Ctx) (seq : BitVec 32) (c : Copy) (g : Tag), s.running = true ∧ s.copyOf unit.val chip.val peer.val ctx.val seq = some c ∧ s.copyDue c = true ∧ c.resends = 4 ∧ c.cmd = some g ∧ g.queue < 16384) :=
  ⟨⟨{ run0 with net := { NetSt.init with received := [⟨key0, 0, 0, true⟩] } }, 0, 0, 0, 0, 0, by decide +kernel, by decide +kernel⟩,
    ⟨{ run0 with net := { NetSt.init with copies := [copy0] } }, 0, { Packet.blank with arg := 1 }, copy0, by decide +kernel, by decide +kernel, by decide +kernel, by decide +kernel, by decide +kernel, by decide +kernel, by decide +kernel⟩,
    ⟨{ run0 with net := { NetSt.init with copies := [copy0] } }, 0, 0, 0, 0, 0, copy0, by decide +kernel, by decide +kernel, by decide +kernel, by decide +kernel⟩,
    ⟨{ run0 with net := { NetSt.init with copies := [{ copy0 with resends := 4, cmd := some ⟨0, 0, 0, 0, none⟩ }] } }, 0, 0, 0, 0, 0, { copy0 with resends := 4, cmd := some ⟨0, 0, 0, 0, none⟩ }, ⟨0, 0, 0, 0, none⟩, by decide +kernel, by decide +kernel, by decide +kernel, by decide +kernel, by decide +kernel, by decide +kernel⟩⟩

theorem witness_routeChangesCompleteAtTheAgent :
    (∃ (s : State) (h : MsgHdr), s.hearsAgent h) ∧
    (∃ (s : State) (h : MsgHdr) (bank : Bank), s.hears h ∧ firstRefused bank s.chip = none ∧ ((s.noteSeen h).writeInactive bank).chip = s.chip) ∧
    (∃ (s : State) (h : MsgHdr), s.hears h) ∧
    (∃ (s : State), s.running = true ∧ s.draining = true ∧ s.fld F.EDG_CTL_DRAIN = 2) ∧
    (∃ (s : State), s.running = true ∧ s.draining = true ∧ s.fld F.EDG_CTL_DRAIN = 2 ∧ s.inflightAll = 0) ∧
    (∃ (s : State) (sl : List Nat) (b : Wb), s.running = true ∧ s.route.stop = some (sl, b) ∧ s.reached (b + 64#48) = true ∧ s.fld F.EDG_CTL_DRAIN = 2 ∧ s.route.zeroed = false) ∧
    (∃ (s : State) (h : MsgHdr), s.hears h) ∧
    (∃ (s : State), s.running = true ∧ s.fld F.EDG_CTL_DRAIN = 3 ∧ s.reached (BitVec.ofNat 48 (s.fld F.EDG_SWAP_AT_WINGBEAT)) = true) ∧
    (∃ (s : State) (sl : List Nat) (b : Wb), s.running = true ∧ s.route.stop = some (sl, b) ∧ s.fld F.EDG_CTL_DRAIN = 2 ∧ s.reached (b + 256#48) = true ∧ (s.endDrain.releaseHeld.sillage 0x03 0x02 2 []).mgr.drain = none) :=
  ⟨⟨run0, hdr0, by decide +kernel⟩,
    ⟨fol, hdr0, Bank.empty, by decide +kernel, by decide +kernel, by decide +kernel⟩,
    ⟨fol, hdr0, by decide +kernel⟩,
    ⟨{ run0.setFld F.EDG_CTL_DRAIN 0 2 with route := { RouteSt.init with stop := some ([], 0) } }, by decide +kernel, by decide +kernel, by decide +kernel⟩,
    ⟨{ run0.setFld F.EDG_CTL_DRAIN 0 2 with route := { RouteSt.init with stop := some ([], 0) } }, by decide +kernel, by decide +kernel, by decide +kernel, by decide +kernel⟩,
    ⟨{ run0.setFld F.EDG_CTL_DRAIN 0 2 with route := { RouteSt.init with stop := some ([], -9000) } }, [], -9000, by decide +kernel, by decide +kernel, by decide +kernel, by decide +kernel, by decide +kernel⟩,
    ⟨fol, hdr0, by decide +kernel⟩,
    ⟨run0.setFld F.EDG_CTL_DRAIN 0 3, by decide +kernel, by decide +kernel, by decide +kernel⟩,
    ⟨{ run0.setFld F.EDG_CTL_DRAIN 0 2 with route := { RouteSt.init with stop := some ([], -9000) } }, [], -9000, by decide +kernel, by decide +kernel, by decide +kernel, by decide +kernel, by decide +kernel⟩⟩

theorem witness_routeChangesCompleteAtTheMonarch :
    (∃ (s : State) (h : MsgHdr) (d : MgrDrain), s.managerHears h ∧ s.mgr.drain = some d ∧ d.phase = 0) ∧
    (∃ (s : State) (h : MsgHdr) (d : MgrDrain), s.managerHears h ∧ s.mgr.drain = some d) ∧
    (∃ (s : State) (d : MgrDrain), s.running = true ∧ s.isActive = true ∧ s.mgr.drain = some d ∧ d.phase = 1 ∧ s.agents.all (fun a => d.zeros.contains a) = true) ∧
    (∃ (s : State) (banks : List (Chip × Bank)) (refs : List FwRef), s.running = true ∧ s.isActive = true ∧ s.mgr.recompute = some refs ∧ s.mgr.drain = none ∧ banks.all (fun q => s.bankPromises q.1.val q.2) = true ∧ (banks.map fun q => (q.1.val, q.2)).filter (fun q => s.lastBank q.1 != q.2) = []) ∧
    (∃ (s : State) (h : MsgHdr) (m : InstMap), s.managerHears h ∧ s.map = some m) ∧
    (∃ (s : State) (h : MsgHdr), s.managerHears h) ∧
    (∃ (s : State) (chip : Chip) (q : StatusRec), s.running = true ∧ s.isActive = true ∧ s.mgr.statuses.find? (fun q => q.chip == chip.val) = some q ∧ s.reached (q.heard + 384#48) = true) ∧
    (∃ (s : State), s.running = true ∧ s.time.based = true ∧ s.wb.toNat % 128 = 0) ∧
    (∃ (s : State), s.manages) :=
  ⟨⟨{ mon with mgr := { MgrSt.init with drain := some drain0 } }, hdr0, drain0, by decide +kernel, by decide +kernel, by decide +kernel⟩,
    ⟨{ mon with mgr := { MgrSt.init with drain := some drain0 } }, hdr0, drain0, by decide +kernel, by decide +kernel⟩,
    ⟨{ mon with mgr := { MgrSt.init with drain := some { drain0 with phase := 1 } } }, { drain0 with phase := 1 }, by decide +kernel, by decide +kernel, by decide +kernel, by decide +kernel, by decide +kernel⟩,
    ⟨{ mon with mgr := { MgrSt.init with recompute := some [] } }, [], [], by decide +kernel, by decide +kernel, by decide +kernel, by decide +kernel, by decide +kernel, by decide +kernel⟩,
    ⟨{ mon with map := some map0 }, hdr0, map0, by decide +kernel, by decide +kernel⟩,
    ⟨mon, hdr0, by decide +kernel⟩,
    ⟨{ mon with mgr := { MgrSt.init with statuses := [⟨0, -9000, 0, 0, []⟩] } }, 0, ⟨0, -9000, 0, 0, []⟩, by decide +kernel, by decide +kernel, by decide +kernel, by decide +kernel⟩,
    ⟨{ run0 with time := { TimeSt.init with based := true } }, by decide +kernel, by decide +kernel, by decide +kernel⟩,
    ⟨mon, by decide +kernel⟩⟩

theorem witness_mapAndNeighboursComplete :
    (∃ (s : State) (m : InstMap), s.running = true ∧ mapFormOk m = true) ∧
    (∃ (s : State), s.running = true ∧ s.canonical ∧ s.ins.roleOpen = true ∧ strapRole (s.fld F.MGR_ROLE_STRAP) = strapRole 0 ∧ ((s.map.bind fun m => mapChip m s.chip).map fun c => c.role.val) = some (strapRole 0)) ∧
    (∃ (s : State) (q : Nat) (dst : Nat) (m : Mgmt) (sent : Wb), s.running = true ∧ s.agent.awaiting.find? (fun a => a.1 == q) = some (q, dst, m, sent) ∧ s.reached (sent + 4#48) = true) ∧
    (∃ (s : State) (port : Port) (b : Wb) (q : Nat) (st : Nat) (id : Ident), s.running = true ∧ (s.port port.val).report = some (b, q, st) ∧ (s.port port.val).peer = some id ∧ s.reached (b + 1024#48) = true) ∧
    (∃ (s : State) (h : MsgHdr), s.managerHears h) ∧
    (∃ (s : State) (h : MsgHdr) (port : Port), s.hears h ∧ s.linkState port.val = PS_UP) ∧
    (∃ (s : State) (m : InstMap) (o : InstMap), s.manages ∧ mapFormOk m = true ∧ s.map = some o ∧ sameButPorts o m = true) ∧
    (∃ (s : State) (h : MsgHdr) (m : InstMap) (t : State), s.hears h ∧ mapFormOk m = true ∧ s.agent.pieces.2 = [] ∧ t = { s.noteSeen h with agent := { (s.noteSeen h).agent with pieces := (m.mapSeq.toNat, [0]) } }) :=
  ⟨⟨run0, map1, by decide +kernel, by decide +kernel⟩,
    ⟨{ (run0.setFld F.MGR_MAP_VALID 0 1).setFld F.MGR_MAP_CHIP 0 5 with ins := { InsSt.init with roleOpen := true }, map := some { map0 with chips := [⟨0, 5, 0, 0, 0, 0, []⟩] } }, by decide +kernel, by decide +kernel, by decide +kernel, by decide +kernel, by decide +kernel⟩,
    ⟨{ run0 with agent := { AgentSt.init with awaiting := [(0, 0, .snapReq, -9000)] } }, 0, 0, .snapReq, -9000, by decide +kernel, by decide +kernel, by decide +kernel⟩,
    ⟨run0.modPort 0 fun p => { p with report := some (-9000, 0, 0), peer := some ident0 }, 0, -9000, 0, 0, ident0, by decide +kernel, by decide +kernel, by decide +kernel, by decide +kernel⟩,
    ⟨mon, hdr0, by decide +kernel⟩,
    ⟨inMode fol 0 PM_FABRIC PS_UP, hdr0, 0, by decide +kernel, by decide +kernel⟩,
    ⟨{ mon with map := some map1 }, map1, map1, by decide +kernel, by decide +kernel, by decide +kernel, by decide +kernel⟩,
    ⟨fol, hdr0, map1, _, by decide +kernel, by decide +kernel, by decide +kernel, rfl⟩⟩

theorem witness_slicesAndPlansComplete :
    (∃ (s : State) (slice : Fin 65536) (members : List Member), s.manages ∧ 1 ≤ slice.val ∧ slice.val ≤ 1023 ∧ s.sliceRec slice.val = none ∧ s.membersOk 0 members = true ∧ s.compatOk false members = true) ∧
    (∃ (s : State) (slice : Fin 65536) (members : List Member) (x : SliceRec), s.manages ∧ s.sliceRec slice.val = some x ∧ x.isSealed = false ∧ s.membersOk 0 members = true ∧ x.compat = false ∧ x.phase = .quiesced ∧ s.sliceBouquet slice.val = false ∧ s.compatOk false members = true) ∧
    (∃ (s : State) (slice : Fin 1024) (ahead : Fin 1024) (x : SliceRec), s.manages ∧ s.sliceRec slice.val = some x ∧ 2 ≤ ahead.val ∧ x.phase = .running) ∧
    (∃ (s : State) (slice : Slice) (x : SliceRec) (r : FwRef), s.running = true ∧ s.isActive = true ∧ s.sliceRec slice.val = some x ∧ x.phase = .quiescing ∧ s.reached x.quiesceAt = true ∧ s.sliceBusy slice.val = false ∧ x.ref = some r) ∧
    (∃ (s : State) (slice : Slice) (x : SliceRec) (r : FwRef), s.running = true ∧ s.isActive = true ∧ s.sliceRec slice.val = some x ∧ x.phase = .quiescing ∧ s.reached (x.quiesceAt + 64#48) = true ∧ x.ref = some r) ∧
    (∃ (s : State) (slice : Fin 1024) (ahead : Fin 1024) (x : SliceRec), s.manages ∧ s.sliceRec slice.val = some x ∧ 2 ≤ ahead.val ∧ x.phase = .quiesced) ∧
    (∃ (s : State) (slice : Slice) (x : SliceRec), s.manages ∧ s.sliceRec slice.val = some x ∧ s.sliceBouquet slice.val = false) ∧
    (∃ (s : State) (h : MsgHdr) (e : SliceEntry), s.hears h ∧ (s.noteSeen h).forwardOnly = false ∧ e.gone = true) ∧
    (∃ (s : State) (chip : Chip) (m : InstMap), s.manages ∧ s.map = some m ∧ s.mgr.service.contains chip.val = false ∧ (mapChip m chip.val).isSome = true ∧ s.allMatched m chip.val = true) ∧
    (∃ (s : State) (chip : Chip), s.manages ∧ s.chipBouquet chip.val = false ∧ s.mgr.service.contains chip.val = true) ∧
    (∃ (s : State) (p : Plan) (room : Nat), s.manages ∧ p.shape = 1 ∧ p.mapSeq.toNat = s.fld F.MGR_MAP_MAP_SEQ ∧ (planBytes p).length ≤ room) ∧
    (∃ (s : State), s.manages ∧ s.mgr.prepared = none) ∧
    (∃ (s : State) (p : Plan), s.manages ∧ s.mgr.prepared = some p) ∧
    (∃ (s : State) (p : Plan), s.manages ∧ s.mgr.prepared = some p) :=
  ⟨⟨{ mon with map := some map0 }, 1, [], by decide +kernel, by decide +kernel, by decide +kernel, by decide +kernel, by decide +kernel, by decide +kernel⟩,
    ⟨{ mon with map := some map0, mgr := { MgrSt.init with slices := [{ slice1 with phase := .quiesced }] } }, 1, [], { slice1 with phase := .quiesced }, by decide +kernel, by decide +kernel, by decide +kernel, by decide +kernel, by decide +kernel, by decide +kernel, by decide +kernel, by decide +kernel⟩,
    ⟨{ mon with mgr := { MgrSt.init with slices := [slice1] } }, 1, 2, slice1, by decide +kernel, by decide +kernel, by decide +kernel, by decide +kernel⟩,
    ⟨{ mon with mgr := { MgrSt.init with slices := [{ slice1 with phase := .quiescing, ref := some ref0 }] } }, 1, { slice1 with phase := .quiescing, ref := some ref0 }, ref0, by decide +kernel, by decide +kernel, by decide +kernel, by decide +kernel, by decide +kernel, by decide +kernel, by decide +kernel⟩,
    ⟨{ mon with mgr := { MgrSt.init with slices := [{ slice1 with phase := .quiescing, ref := some ref0, quiesceAt := -9000 }] } }, 1, { slice1 with phase := .quiescing, ref := some ref0, quiesceAt := -9000 }, ref0, by decide +kernel, by decide +kernel, by decide +kernel, by decide +kernel, by decide +kernel, by decide +kernel⟩,
    ⟨{ mon with mgr := { MgrSt.init with slices := [{ slice1 with phase := .quiesced }] } }, 1, 2, { slice1 with phase := .quiesced }, by decide +kernel, by decide +kernel, by decide +kernel, by decide +kernel⟩,
    ⟨{ mon with mgr := { MgrSt.init with slices := [slice1] } }, 1, slice1, by decide +kernel, by decide +kernel, by decide +kernel⟩,
    ⟨fol, hdr0, { sliceEntry0 with gone := true }, by decide +kernel, by decide +kernel, by decide +kernel⟩,
    ⟨{ mon with map := some map0 }, 0, map0, by decide +kernel, by decide +kernel, by decide +kernel, by decide +kernel, by decide +kernel⟩,
    ⟨{ mon with mgr := { MgrSt.init with service := [0] } }, 0, by decide +kernel, by decide +kernel, by decide +kernel⟩,
    ⟨mon, plan0, 64, by decide +kernel, by decide +kernel, by decide +kernel, by decide +kernel⟩,
    ⟨mon, by decide +kernel, by decide +kernel⟩,
    ⟨{ mon with mgr := { MgrSt.init with prepared := some plan0 } }, plan0, by decide +kernel, by decide +kernel⟩,
    ⟨{ mon with mgr := { MgrSt.init with prepared := some plan0 } }, plan0, by decide +kernel, by decide +kernel⟩⟩

theorem witness_endpointMessagesComplete :
    (∃ (s : State) (port : Port), s.running = true ∧ s.fld F.PRT_CTL_MODE port.val = PM_EDGE ∧ s.linkState port.val = PS_UP) ∧
    (∃ (s : State) (port : Port) (window : Nat), s.running = true ∧ s.fld F.PRT_CTL_MODE port.val = PM_EDGE ∧ s.linkState port.val = PS_UP ∧ window ≤ 2 ^ 40) ∧
    (∃ (s : State) (port : Port), s.running = true ∧ s.fld F.PRT_CTL_MODE port.val = PM_EDGE ∧ s.linkState port.val = PS_UP ∧ (s.ep port.val).lastBeat = none ∧ (s.ep port.val).silent = false ∧ beatValid s.wb s.wb = true) ∧
    (∃ (s : State) (port : Port) (b : Wb), s.running = true ∧ s.fld F.PRT_CTL_MODE port.val = PM_EDGE ∧ s.linkState port.val = PS_UP ∧ (s.ep port.val).lastBeat = some b ∧ s.reached (b + 4#48) = true) ∧
    (∃ (s : State), s.running = true) :=
  ⟨⟨edgeUp, 0, by decide +kernel, by decide +kernel, by decide +kernel⟩,
    ⟨edgeUp, 0, 0, by decide +kernel, by decide +kernel, by decide +kernel, by decide +kernel⟩,
    ⟨edgeUp, 0, by decide +kernel, by decide +kernel, by decide +kernel, by decide +kernel, by decide +kernel, by decide +kernel⟩,
    ⟨{ edgeUp with eps := [(0, { EpSt.init with lastBeat := some (-9000) })] }, 0, -9000, by decide +kernel, by decide +kernel, by decide +kernel, by decide +kernel, by decide +kernel⟩,
    ⟨run0, by decide +kernel⟩⟩

theorem witness_twinStartAndFencingComplete :
    (∃ (s : State) (h : MsgHdr) (twin : Bool) (b : Beat), s.running = true ∧ s.isManagerChip = true ∧ s.peerChip = some h.src.val ∧ h.epoch ≤ s.fld F.TWN_STATUS_EPOCH ∧ (s.noteBeat h.epoch twin b).mgrState ≠ MS_ACTIVE) ∧
    (∃ (s : State), s.running = true ∧ s.isActive = true ∧ s.hasStandby = true ∧ s.fld F.TWN_HEARTBEAT_SILENT_TWIN = 2 ∧ s.fld F.TWN_HEARTBEAT_SILENT_FABRIC = 2 ∧ s.fld F.TWN_STATUS_PEER_STATE = MS_SHADOW ∧ s.flag F.TWN_STATUS_PEER_SYNCED = true) ∧
    (∃ (s : State) (b : Ftu), s.running = true ∧ s.twin.startAt = some b ∧ s.mgrState = MS_STARTING ∧ s.twin.probeFtu = none ∧ ms1 ≤ (s.ftu - b).toNat ∧ s.twin.heardActive = false ∧ s.fld F.MGR_ROLE_ROLE = 2) ∧
    (∃ (s : State) (b : Ftu), s.running = true ∧ s.twin.startAt = some b ∧ s.mgrState = MS_STARTING ∧ s.twin.probeFtu = none ∧ ms1 ≤ (s.ftu - b).toNat ∧ s.twin.heardActive = false ∧ s.fld F.MGR_ROLE_ROLE = 1) ∧
    (∃ (s : State) (b : Ftu) (u : State), s.running = true ∧ s.twin.probeFtu = some b ∧ s.mgrState = MS_STARTING ∧ ms1 ≤ (s.ftu - b).toNat ∧ s.twin.replies = [] ∧ u = (s.enterActive (s.fld F.TWN_STATUS_EPOCH + 1)).interruptMgr ∧ u.inStage7 = false) ∧
    (∃ (s : State) (h : MsgHdr), s.hearsAgent h) ∧
    (∃ (s : State) (h : MsgHdr), s.hearsAgent h ∧ s.isManagerChip = true ∧ s.isActive = false) ∧
    (∃ (s : State) (f : Wb), s.running = true ∧ s.twin.fencedAt = some f ∧ s.twin.probeAt = none ∧ s.reached (f + 2#48) = true ∧ s.mgrState = MS_FENCED ∧ s.forwardOnly = false) ∧
    (∃ (s : State) (p : Wb), s.running = true ∧ s.twin.probeAt = some p ∧ s.reached (p + 2#48) = true ∧ s.mgrState = MS_FENCED ∧ s.forwardOnly = false ∧ s.twin.heardEpoch ≤ s.fld F.TWN_STATUS_EPOCH ∧ s.mgr.service.length < 2 * s.twin.replies.length ∧ s.twin.heardActive = false) :=
  ⟨⟨{ mon with map := some map0 }, { hdr0 with src := 0 }, false, beat0, by decide +kernel, by decide +kernel, by decide +kernel, by decide +kernel, by decide +kernel⟩,
    ⟨{ (((mon.setFld F.TWN_HEARTBEAT_SILENT_TWIN 0 2).setFld F.TWN_HEARTBEAT_SILENT_FABRIC 0 2).setFld F.TWN_STATUS_PEER_STATE 0 MS_SHADOW).setFld F.TWN_STATUS_PEER_SYNCED 0 1 with map := some map0 }, by decide +kernel, by decide +kernel, by decide +kernel, by decide +kernel, by decide +kernel, by decide +kernel, by decide +kernel⟩,
    ⟨{ (mchip.setFld F.TWN_STATUS_STATE 0 MS_STARTING).setFld F.MGR_ROLE_ROLE 0 2 with twin := { TwinSt.init with startAt := some (-90000000) } }, -90000000, by decide +kernel, by decide +kernel, by decide +kernel, by decide +kernel, by decide +kernel, by decide +kernel, by decide +kernel⟩,
    ⟨{ mchip.setFld F.TWN_STATUS_STATE 0 MS_STARTING with twin := { TwinSt.init with startAt := some (-90000000) } }, -90000000, by decide +kernel, by decide +kernel, by decide +kernel, by decide +kernel, by decide +kernel, by decide +kernel, by decide +kernel⟩,
    ⟨{ mchip.setFld F.TWN_STATUS_STATE 0 MS_STARTING with twin := { TwinSt.init with probeFtu := some (-90000000) } }, -90000000, _, by decide +kernel, by decide +kernel, by decide +kernel, by decide +kernel, by decide +kernel, rfl, by decide +kernel⟩,
    ⟨run0, hdr0, by decide +kernel⟩,
    ⟨mchip, hdr0, by decide +kernel, by decide +kernel, by decide +kernel⟩,
    ⟨{ mchip.setFld F.TWN_STATUS_STATE 0 MS_FENCED with twin := { TwinSt.init with fencedAt := some (-9000) } }, -9000, by decide +kernel, by decide +kernel, by decide +kernel, by decide +kernel, by decide +kernel, by decide +kernel⟩,
    ⟨{ mchip.setFld F.TWN_STATUS_STATE 0 MS_FENCED with twin := { TwinSt.init with probeAt := some (-9000), replies := [(0, 0)] } }, -9000, by decide +kernel, by decide +kernel, by decide +kernel, by decide +kernel, by decide +kernel, by decide +kernel, by decide +kernel, by decide +kernel⟩⟩

theorem witness_stateCopyAndTakeoverComplete :
    (∃ (s : State) (u : State) (h : MsgHdr) (forWb : Wb), s.running = true ∧ h.epoch ≤ s.fld F.TWN_STATUS_EPOCH ∧ s.mgrState = MS_SHADOW ∧ (s.modTwin fun t => { t with fmtBad := false }).deltaPiece forWb 0 1 = (u, true)) ∧
    (∃ (s : State) (h : MsgHdr), s.running = true ∧ h.epoch ≤ s.fld F.TWN_STATUS_EPOCH ∧ s.mgrState = MS_SHADOW ∧ s.twin.snap = none) ∧
    (∃ (s : State), s.running = true ∧ s.isActive = true ∧ s.hasStandby = true ∧ s.wb.toNat % 4096 = 0) ∧
    (∃ (s : State) (h : MsgHdr), s.managerHears h ∧ s.hasStandby = true) ∧
    (∃ (s : State), s.running = true ∧ s.mgrState = MS_SHADOW ∧ s.twin.gap = true) ∧
    (∃ (s : State) (h : MsgHdr), s.managerHears h) ∧
    (∃ (s : State), s.running = true ∧ s.isActive = true ∧ s.hasStandby = true ∧ s.reached (s.twin.ackAt + 3#48) = true) ∧
    (∃ (s : State), s.running = true ∧ s.mgrState = MS_SHADOW ∧ 2 ≤ s.twin.activeSilent ∧ s.twin.syncedAt = true) ∧
    (∃ (s : State) (h : MsgHdr), s.hears h ∧ s.mgrState = MS_SHADOW) :=
  ⟨⟨shadow, (shadow.deltaPiece 0 0 1).1, hdr0, 0, by decide +kernel, by decide +kernel, by decide +kernel, by decide +kernel⟩,
    ⟨shadow, hdr0, by decide +kernel, by decide +kernel, by decide +kernel, by decide +kernel⟩,
    ⟨{ mon with map := some map0 }, by decide +kernel, by decide +kernel, by decide +kernel, by decide +kernel⟩,
    ⟨{ mon with map := some map0 }, hdr0, by decide +kernel, by decide +kernel⟩,
    ⟨{ shadow with twin := { TwinSt.init with gap := true } }, by decide +kernel, by decide +kernel, by decide +kernel⟩,
    ⟨mon, hdr0, by decide +kernel⟩,
    ⟨{ mon with map := some map0, twin := { TwinSt.init with ackAt := -9000 } }, by decide +kernel, by decide +kernel, by decide +kernel, by decide +kernel⟩,
    ⟨{ shadow with twin := { TwinSt.init with activeSilent := 2, syncedAt := true } }, by decide +kernel, by decide +kernel, by decide +kernel, by decide +kernel⟩,
    ⟨shadow.setFld F.TWN_AGENT_MANAGER_CHIP 0 0, hdr0, by decide +kernel, by decide +kernel⟩⟩

theorem witness_takebackCommandsComplete :
    (∃ (s : State) (c : Nat), s.running = true ∧ s.peerChip = some c ∧ s.mgrState = MS_SHADOW ∧ s.fld F.MGR_ROLE_ROLE = 1 ∧ s.fld F.TWN_REVERT_HOLD_LEFT = 0 ∧ s.twin.takeback = none) ∧
    (∃ (s : State) (h : MsgHdr) (t : Wb), s.running = true ∧ h.epoch ≤ s.fld F.TWN_STATUS_EPOCH ∧ s.isManagerChip = true ∧ s.peerChip = some h.src.val ∧ s.mgrState = MS_ACTIVE ∧ s.reached t = false) ∧
    (∃ (s : State) (t : Wb), s.running = true ∧ s.twin.takeback = some (t, false) ∧ s.mgrState = MS_SHADOW ∧ s.reached t = true) ∧
    (∃ (s : State) (t : Wb) (c : Nat), s.running = true ∧ s.twin.takeback = some (t, true) ∧ s.peerChip = some c ∧ s.mgrState = MS_ACTIVE ∧ s.reached t = true) ∧
    (∃ (s : State) (t : Wb), s.running = true ∧ s.twin.takeback = some (t, true) ∧ s.mgrState = MS_SHADOW ∧ s.fld F.MGR_ROLE_ROLE = 1 ∧ s.reached (t + 1#48) = true ∧ wbGe (BitVec.ofNat 48 (s.fld F.TWN_SYNC_DELTA_WB)) (t - 1#48) = true) ∧
    (∃ (s : State), s.manages) :=
  ⟨⟨{ shadow.setFld F.TWN_REVERT_HOLD_LEFT 0 0 with map := some map0 }, 0, by decide +kernel, by decide +kernel, by decide +kernel, by decide +kernel, by decide +kernel, by decide +kernel⟩,
    ⟨{ mon.setFld F.TWN_STATUS_STATE 0 MS_ACTIVE with map := some map0 }, hdr0, 100, by decide +kernel, by decide +kernel, by decide +kernel, by decide +kernel, by decide +kernel, by decide +kernel⟩,
    ⟨{ shadow with twin := { TwinSt.init with takeback := some (0, false) } }, 0, by decide +kernel, by decide +kernel, by decide +kernel, by decide +kernel⟩,
    ⟨{ mon.setFld F.TWN_STATUS_STATE 0 MS_ACTIVE with map := some map0, twin := { TwinSt.init with takeback := some (0, true) } }, 0, 0, by decide +kernel, by decide +kernel, by decide +kernel, by decide +kernel, by decide +kernel⟩,
    ⟨{ shadow with twin := { TwinSt.init with takeback := some (-1, true) } }, -1, by decide +kernel, by decide +kernel, by decide +kernel, by decide +kernel, by decide +kernel, by decide +kernel⟩,
    ⟨mon, by decide +kernel⟩⟩

theorem witness_contextsQueuesAndPagesComplete :
    (∃ (s : State) (slice : Fin 65536) (ctx : Fin 65536) (events : Nat), s.running = true ∧ s.flag F.INS_STATUS_IMAGO = true ∧ slice.val ≤ 1023 ∧ ctx.val ≤ 4095 ∧ (s.sliceEntry slice.val).isSome = true ∧ s.isSealed slice.val = false ∧ s.counterSum + events ≤ 65536 ∧ s.ctxState ctx.val = 0) ∧
    (∃ (s : State) (ctx : Ctx) (port : Port) (rank : Rank), s.running = true ∧ s.ctxState ctx.val ≠ 0 ∧ ((s.ctx ctx.val).ranks[rank.val]?).bind rankEntry = some (s.chip, port.val) ∧ s.isSealed (s.ctxSlice ctx.val) = false ∧ (s.ep port.val).ident.isSome = true ∧ s.notInService = false) ∧
    (∃ (s : State) (ctx : Ctx) (port : Port), s.running = true ∧ (s.binding ctx.val port.val).isSome = true ∧ s.isSealed (s.ctxSlice ctx.val) = false) ∧
    (∃ (s : State) (ctx : Ctx), s.running = true ∧ s.ctxState ctx.val = 1 ∧ (s.ctx ctx.val).destroys = false) ∧
    (∃ (s : State) (ctx : Ctx), s.running = true ∧ s.ctxState ctx.val = 1 ∧ s.ctxBouquet ctx.val = false) ∧
    (∃ (s : State) (ctx : Ctx) (b : Wb), s.running = true ∧ (s.ctx ctx.val).resetAt = some b ∧ s.reached b = true ∧ (s.ctx ctx.val).destroys = false) ∧
    (∃ (s : State) (ctx : Ctx) (b : Wb), s.running = true ∧ (s.ctx ctx.val).releaseAt = some b ∧ s.reached b = true) ∧
    (∃ (s : State) (queue : Fin 65536) (ctx : Fin 65536) (k : Fin 256) (j : Fin 256) (ring : Word) (cq : Word), s.running = true ∧ queue.val ≤ 16383 ∧ ctx.val ≤ 4095 ∧ s.fld F.QUE_CFG_STATE queue.val = 0 ∧ 4 ≤ k.val ∧ k.val ≤ 16 ∧ 4 ≤ j.val ∧ j.val ≤ 16 ∧ s.ctxState ctx.val = 1 ∧ s.areaOk ctx.val ring.toNat (k.val + 7) = true ∧ s.areaOk ctx.val cq.toNat (j.val + 5) = true) ∧
    (∃ (s : State) (wing : Wing) (chan : Fin 256) (ctx : Ctx), s.running = true ∧ s.fld F.ATL_CH_STATUS_STATE (chanIx wing.val chan.val) = 0 ∧ s.ctxState ctx.val ≠ 0) ∧
    (∃ (s : State) (ctx : Fin 65536) (perm : Fin 256), s.running = true ∧ s.flag F.INS_STATUS_IMAGO = true ∧ ctx.val ≤ 4095 ∧ perm.val ≤ 15 ∧ s.ctxState ctx.val = 1 ∧ (s.ctx ctx.val).pages = [] ∧ (s.ctx ctx.val).grants = [] ∧ s.isSealed (s.ctxSlice ctx.val) = false ∧ (∀ w < 4, pagesOnWing 0 1 w ≤ s.freeFrames w)) ∧
    (∃ (s : State) (ctx : Ctx) (g : Grant) (rest : List Grant), s.running = true ∧ (s.ctx ctx.val).grants = g :: rest) ∧
    (∃ (s : State) (ctx : Fin 65536) (p : Page), s.running = true ∧ ctx.val ≤ 4095 ∧ p.page < 2 ^ 26 ∧ (s.ctx ctx.val).pages = [p]) ∧
    (∃ (s : State) (wing : Wing) (f : Nat), s.running = true ∧ s.pool.scrub.find? (fun f => wingOfFrame f == wing.val && s.flag F.INS_STATUS_IMAGO && !s.power.refresh) = some f ∧ f < 884736) ∧
    (∃ (s : State) (slice : Slice) (c : Nat) (r : RunCmd), s.running = true ∧ s.sliceHeld slice.val = true ∧ s.contexts.filter (fun c => s.ctxSlice c == slice.val) = [c] ∧ s.que.runs = [r] ∧ r.ctx = c ∧ r.queue < 16384 ∧ s.dma.chains = [] ∧ s.coll.nodes = []) :=
  ⟨⟨{ imago run0 with agent := { AgentSt.init with slices := [sliceEntry0] } }, 0, 0, 0, by decide +kernel, by decide +kernel, by decide +kernel, by decide +kernel, by decide +kernel, by decide +kernel, by decide +kernel, by decide +kernel⟩,
    ⟨{ open0.setCtx 0 { CtxSt.init with ranks := [0x8000FFFF] } with eps := [(0, { EpSt.init with ident := some (0, 0, 0) })] }, 0, 0, 0, by decide +kernel, by decide +kernel, by decide +kernel, by decide +kernel, by decide +kernel, by decide +kernel⟩,
    ⟨open0.setCtx 0 { CtxSt.init with bindings := [⟨0, 0, false, false⟩] }, 0, 0, by decide +kernel, by decide +kernel, by decide +kernel⟩,
    ⟨open0, 0, by decide +kernel, by decide +kernel, by decide +kernel⟩,
    ⟨open0, 0, by decide +kernel, by decide +kernel, by decide +kernel⟩,
    ⟨open0.setCtx 0 { CtxSt.init with resetAt := some 0 }, 0, 0, by decide +kernel, by decide +kernel, by decide +kernel, by decide +kernel⟩,
    ⟨open0.setCtx 0 { CtxSt.init with releaseAt := some 0 }, 0, 0, by decide +kernel, by decide +kernel, by decide +kernel⟩,
    ⟨imago (open0.setCtx 0 { CtxSt.init with pages := [⟨0, 0, 3⟩] }), 0, 0, 4, 4, 0, 0, by decide +kernel, by decide +kernel, by decide +kernel, by decide +kernel, by decide +kernel, by decide +kernel, by decide +kernel, by decide +kernel, by decide +kernel, by decide +kernel, by decide +kernel⟩,
    ⟨open0, 0, 0, 0, by decide +kernel, by decide +kernel, by decide +kernel⟩,
    ⟨imago open0, 0, 0, by decide +kernel, by decide +kernel, by decide +kernel, by decide +kernel, by decide +kernel, by decide +kernel, by decide +kernel, by decide +kernel, by decide +kernel⟩,
    ⟨open0.setCtx 0 { CtxSt.init with grants := [⟨[], ref0⟩] }, 0, ⟨[], ref0⟩, [], by decide +kernel, by decide +kernel⟩,
    ⟨open0.setCtx 0 { CtxSt.init with pages := [⟨0, 0, 0⟩] }, 0, ⟨0, 0, 0⟩, by decide +kernel, by decide +kernel, by decide +kernel, by decide +kernel⟩,
    ⟨{ imago run0 with pool := { PoolSt.init with scrub := [0] } }, 0, 0, by decide +kernel, by decide +kernel, by decide +kernel⟩,
    ⟨{ open0.setFld F.QUE_CTX_STATUS_SLICE 0 1 with agent := { AgentSt.init with slices := [⟨1, [], some 0, none, none, false⟩] }, que := ⟨[runCmd 0 []], []⟩ }, 1, 0, runCmd 0 [], by decide +kernel, by decide +kernel, by decide +kernel, by decide +kernel, by decide +kernel, by decide +kernel, by decide +kernel, by decide +kernel⟩⟩

theorem witness_queueCommandsComplete :
    (∃ (s : State) (src : DbSource) (queue : Queue) (index : BitVec 32), s.running = true ∧ s.dbBound src queue.val = true ∧ 0 < serialDiff index.toNat (s.tail queue.val) ∧ serialDiff index.toNat (s.head queue.val) ≤ 2 ^ s.ringLog queue.val) ∧
    (∃ (s : State) (src : DbSource) (queue : Queue) (index : BitVec 32), s.running = true ∧ s.dbBound src queue.val = true ∧ 0 ≤ serialDiff index.toNat (s.cqHead queue.val) ∧ 0 ≤ serialDiff (s.cqTail queue.val) index.toNat) ∧
    (∃ (s : State) (src : DbSource) (queue : Queue) (index : BitVec 32), s.running = true ∧ s.dbBound src queue.val = true ∧ s.fld F.QUE_CFG_STATE queue.val = 2 ∧ s.ctxState (s.queueCtx queue.val) = 1 ∧ 0 ≤ serialDiff index.toNat (s.head queue.val) ∧ 0 ≤ serialDiff (s.tail queue.val) index.toNat) ∧
    (∃ (s : State) (queue : Queue) (slot : List Byte), s.running = true ∧ slot = s.headSlot queue.val ∧ s.mayStart queue.val = true ∧ s.headFault queue.val = none ∧ slotLap slot = s.headLap queue.val ∧ s.slotRefusal (s.queueCtx queue.val) queue.val slot = none ∧ (List.range (slotWaits slot)).all (fun i => s.waitMet (s.queueCtx queue.val) (slotWait slot i)) = true) ∧
    (∃ (s : State) (queue : Queue) (l : Cover), s.running = true ∧ s.que.laps.find? (fun l => l.queue == queue.val && decide (0 < serialDiff l.tail (s.head queue.val))) = some l ∧ s.mayStart queue.val = true ∧ l.left = 0 ∧ s.headFault queue.val = none ∧ slotLap (s.headSlot queue.val) ≠ s.headLap queue.val) ∧
    (∃ (s : State) (queue : Queue) (index : BitVec 32) (r : RunCmd), s.running = true ∧ s.fresh? queue.val index.toNat 0x00 = some r) ∧
    (∃ (s : State) (queue : Queue) (index : BitVec 32) (r : RunCmd), s.running = true ∧ s.fresh? queue.val index.toNat 0x30 = some r) ∧
    (∃ (s : State) (queue : Queue) (index : BitVec 32) (r : RunCmd), s.running = true ∧ s.fresh? queue.val index.toNat 0x31 = some r) ∧
    (∃ (s : State) (queue : Queue) (index : BitVec 32) (r : RunCmd), s.running = true ∧ s.fresh? queue.val index.toNat 0x32 = some r) ∧
    (∃ (s : State) (queue : Queue) (index : BitVec 32) (r : RunCmd), s.running = true ∧ s.run queue.val index.toNat = some r ∧ r.opcode = 0x32 ∧ r.begun = true ∧ r.ended = none ∧ slotByte r.slot 32 = 0 ∧ (s.runsOf queue.val).any (fun x => decide (serialDiff x.index index.toNat < 0)) = false ∧ s.queueOpen queue.val index.toNat = false) ∧
    (∃ (s : State) (queue : Queue) (index : BitVec 32) (r : RunCmd), s.running = true ∧ s.run queue.val index.toNat = some r ∧ r.opcode = 0x10 ∧ moveOk r = true) ∧
    (∃ (s : State) (queue : Queue) (index : BitVec 32) (r : RunCmd), s.running = true ∧ s.run queue.val index.toNat = some r ∧ r.opcode = 0x11 ∧ moveOk r = true) :=
  ⟨⟨(open0.setFld F.QUE_CFG_STATE 0 1).setFld F.QUE_CFG_RING_LOG 0 4, .controlNode, 0, 1, by decide +kernel, by decide +kernel, by decide +kernel, by decide +kernel⟩,
    ⟨open0.setFld F.QUE_CFG_STATE 0 1, .controlNode, 0, 0, by decide +kernel, by decide +kernel, by decide +kernel, by decide +kernel⟩,
    ⟨open0.setFld F.QUE_CFG_STATE 0 2, .controlNode, 0, 0, by decide +kernel, by decide +kernel, by decide +kernel, by decide +kernel, by decide +kernel, by decide +kernel⟩,
    ⟨((((open0.setFld F.QUE_CFG_STATE 0 1).setFld F.QUE_CFG_RING_LOG 0 4).setFld F.QUE_CFG_CQ_LOG 0 4).setFld F.QUE_INDEX_TAIL 0 1).setCtx 0 { CtxSt.init with home := true }, 0, _, by decide +kernel, rfl, by decide +kernel, by decide +kernel, by decide +kernel, by decide +kernel, by decide +kernel⟩,
    ⟨{ (((((open0.setFld F.QUE_CFG_STATE 0 1).setFld F.QUE_CFG_RING_LOG 0 4).setFld F.QUE_CFG_CQ_LOG 0 4).setFld F.QUE_INDEX_TAIL 0 17).setFld F.QUE_INDEX_HEAD 0 16) with que := ⟨[], [⟨0, 17, 0⟩]⟩ }, 0, ⟨0, 17, 0⟩, by decide +kernel, by decide +kernel, by decide +kernel, by decide +kernel, by decide +kernel, by decide +kernel⟩,
    ⟨runs open0 [runCmd 0 []], 0, 0, runCmd 0 [], by decide +kernel, by decide +kernel⟩,
    ⟨runs open0 [runCmd 0x30 []], 0, 0, runCmd 0x30 [], by decide +kernel, by decide +kernel⟩,
    ⟨runs open0 [runCmd 0x31 []], 0, 0, runCmd 0x31 [], by decide +kernel, by decide +kernel⟩,
    ⟨runs open0 [runCmd 0x32 []], 0, 0, runCmd 0x32 [], by decide +kernel, by decide +kernel⟩,
    ⟨runs open0 [{ runCmd 0x32 [] with begun := true }], 0, 0, { runCmd 0x32 [] with begun := true }, by decide +kernel, by decide +kernel, by decide +kernel, by decide +kernel, by decide +kernel, by decide +kernel, by decide +kernel, by decide +kernel⟩,
    ⟨runs open0 [runCmd 0x10 mvSlot], 0, 0, runCmd 0x10 mvSlot, by decide +kernel, by decide +kernel, by decide +kernel, by decide +kernel⟩,
    ⟨runs open0 [runCmd 0x11 mvSlot], 0, 0, runCmd 0x11 mvSlot, by decide +kernel, by decide +kernel, by decide +kernel, by decide +kernel⟩⟩

theorem witness_collectivesComplete :
    (∃ (s : State) (u : State) (node : NodeId) (n0 : CollNode) (n : CollNode) (k : Nat), s.running = true ∧ s.nodeOf node = some n0 ∧ isExchangeNode n0 = false ∧ u = (n0.chunks.foldl (fun (t : State) c => t.serveTree n0 c.num) s).releaseItems n0 ∧ n = u.nodeNow n0 ∧ n = u.nodeNow n ∧ nodeActive n = true ∧ n.cut = none ∧ n.asked = [] ∧ isExchangeNode n = false ∧ (ownSlots n).find? (fun k => !slotBusy n k) = some k ∧ n.next.1 < itemLimit u n) ∧
    (∃ (s : State) (queue : Queue) (index : BitVec 32) (remote : List RemoteRead) (r : RunCmd) (d : List Byte) (rank : Nat), s.running = true ∧ s.sweepNodes.fresh? queue.val index.toNat 0x01 = some r ∧ s.sweepNodes.readAt r.ctx (slotNum r.slot 32 8) 64 remote = some (.ok d) ∧ s.sweepNodes.rankOf r.ctx = some rank) ∧
    (∃ (s : State) (unit : Fin 256) (p : Packet), s.running = true ∧ p.kind.val = 0x12 ∧ p.chunk.toNat % 16 = 0 ∧ 0x89 ≤ unit.val ∧ hChip p.arg.toNat ≠ s.chip) ∧
    (∃ (s : State) (u : State) (unit : Fin 256) (p : Packet) (n : CollNode), s.running = true ∧ p.kind.val = 0x12 ∧ p.chunk.toNat % 16 = 0 ∧ unit.val < 0x89 ∧ p.chunk.getLsbD 7 = false ∧ s.coll.nodes.find? (fun n => (n.slice == p.slice.val && 0x81 + n.wing == unit.val && n.num % 65536 == hTag p.arg.toNat) && n.parent == some (hChip p.arg.toNat, hWing p.arg.toNat)) = some n ∧ u = s.chunkUpd n 0xFFFF (p.chunk.toNat / 256) (fun c => { c with grant := some p.arg.toNat })) ∧
    (∃ (s : State) (u : State) (unit : Fin 256) (p : Packet) (n : CollNode) (i : CollIn) (f : CollFeed), s.running = true ∧ u = s.sweepNodes ∧ p.kind.val = 0x12 ∧ p.chunk.toNat % 16 = 1 ∧ u.collMembers p.slice.val ≠ [] ∧ u.coll.nodes.find? (fun n => n.slice == p.slice.val && n.num == p.arg.toNat % 2 ^ 32 && 0x81 + n.wing == unit.val && n.ins.any fun i => i.node == some (p.srcChip.val, p.srcUnit.val - 0x81)) = some n ∧ n.phase ≠ .gaveUp ∧ isExchangeNode n = false ∧ n.ins.find? (fun i => i.node == some (p.srcChip.val, p.srcUnit.val - 0x81)) = some i ∧ n.feeds.find? (fun f => f.input == i.rank && f.chunk == p.chunk.toNat / 256 && f.pkts == []) = some f) ∧
    (∃ (s : State) (unit : Fin 256) (p : Packet) (n : CollNode), s.running = true ∧ p.kind.val = 0x12 ∧ p.chunk.toNat % 16 = 2 ∧ s.coll.nodes.find? (fun n => n.slice == p.slice.val && n.num == p.arg.toNat % 2 ^ 32 && 0x81 + n.wing == unit.val && n.parent == some (p.srcChip.val, p.srcUnit.val - 0x81)) = some n) ∧
    (∃ (s : State) (node : NodeId) (n : CollNode), s.running = true ∧ s.nodeOf node = some n ∧ nodeActive n = true ∧ n.cut = none ∧ n.feeds = [] ∧ dFixed n.desc = false ∧ n.outs = []) ∧
    (∃ (s : State) (unit : Fin 256) (p : Packet) (n : CollNode) (f : CollFeed) (i : CollIn), s.running = true ∧ p.kind.val = 0x10 ∧ s.staleSlot unit.val p = false ∧ s.coll.nodes.find? (fun n => 0x81 + n.wing == unit.val && n.slots.contains (hSlot p.arg.toNat) && (n.phase == .spilled) == hSpilled p.arg.toNat) = some n ∧ hChip p.arg.toNat = s.chip ∧ hTag p.arg.toNat = n.num % 65536 ∧ p.slice.val = n.slice ∧ n.cut = none ∧ p.chunk.getLsbD 7 = false ∧ n.feeds.find? (fun f => f.slot == hSlot p.arg.toNat && f.chunk == p.chunk.toNat / 256 && f.codes == false) = some f ∧ f.codes = false ∧ granteeOf s n p f.input = some i) ∧
    (∃ (s : State) (node : NodeId) (chunk : BitVec 32) (n : CollNode) (c : CollChunk), s.running = true ∧ s.nodeOf node = some n ∧ nodeChunk n 0xFFFF chunk.toNat = some c ∧ isExchangeNode n = false ∧ (n.ins.all fun i => c.parts.any fun q => q.input == i.rank) = true ∧ n.bad = [] ∧ c.out = none ∧ c.abort = none ∧ c.undelivered = false ∧ dFixed n.desc = false ∧ n.isRoot = true ∧ (produce n c (reduceParts n c)).2 = 0) ∧
    (∃ (s : State) (unit : Fin 256) (p : Packet), s.running = true ∧ p.kind.val = 0x11 ∧ 0x89 ≤ unit.val) ∧
    (∃ (s : State) (node : NodeId) (n : CollNode), s.running = true ∧ s.sweepNodes.nodeOf node = some n ∧ isWaiting n = true) ∧
    (∃ (s : State) (u : State) (node : NodeId) (n : CollNode) (k : Nat), s.running = true ∧ s.sweepNodes.nodeOf node = some n ∧ n.phase = .waiting k ∧ 4 ≤ k ∧ u = s.sweepNodes.takeSlots n ∧ isWaiting (u.nodeNow n) = true) ∧
    (∃ (s : State) (node : NodeId) (n : CollNode) (k : Nat), s.running = true ∧ s.nodeOf node = some n ∧ n.phase = .spillWaiting k ∧ dSlip n.desc ≤ k) ∧
    (∃ (s : State) (slice : Slice) (num : BitVec 32) (height : Fin 3) (dst : Rank) (chunk : BitVec 32) (n : CollNode) (c : CollChunk), s.running = true ∧ s.collNode slice.val num.toNat height.val = some n ∧ nodeChunk n dst.val chunk.toNat = some c ∧ 1 ≤ c.late ∧ c.slipped = false ∧ c.abort = none ∧ n.cut = none ∧ c.result = none ∧ c.out = none ∧ lacksInput s n c = true) ∧
    (∃ (s : State) (slice : Slice) (num : BitVec 32) (height : Fin 3) (dst : Rank) (chunk : BitVec 32) (n : CollNode) (c : CollChunk), s.running = true ∧ s.collNode slice.val num.toNat height.val = some n ∧ nodeChunk n dst.val chunk.toNat = some c ∧ dSlip n.desc + n.height + 1 ≤ c.late ∧ c.abort = none ∧ n.cut = none ∧ c.result = none ∧ c.out = none ∧ lacksInput s n c = true) ∧
    (∃ (s : State) (node : NodeId) (chunk : BitVec 32) (n : CollNode) (c : CollChunk), s.running = true ∧ s.nodeOf node = some n ∧ nodeChunk n 0xFFFF chunk.toNat = some c ∧ c.sent = true ∧ c.result = none ∧ n.isRoot = false ∧ dSlip n.desc + 2 * n.top + 10 ≤ c.since ∧ c.abort = none) ∧
    (∃ (s : State) (unit : Fin 256) (p : Packet), s.running = true ∧ p.kind.val = 0x10 ∧ s.staleSlot unit.val p = true) :=
  ⟨⟨nodes run0 [{ coll0 with desc := [], count := 64 }], _, .coll 1 0 0, { coll0 with desc := [], count := 64 }, { coll0 with desc := [], count := 64 }, 0, by decide +kernel, by decide +kernel, by decide +kernel, rfl, by decide +kernel, by decide +kernel, by decide +kernel, by decide +kernel, by decide +kernel, by decide +kernel, by decide +kernel, by decide +kernel⟩,
    ⟨runs (open0.setCtx 0 { CtxSt.init with bindings := [⟨0, 0, false, false⟩] }) [runCmd 0x01 []], 0, 0, [⟨0, 0, []⟩], runCmd 0x01 [], [], 0, by decide +kernel, by decide +kernel, by rfl, by decide +kernel⟩,
    ⟨run0, 0x89, { Packet.blank with kind := 0x12 }, by decide +kernel, by decide +kernel, by decide +kernel, by decide +kernel, by decide +kernel⟩,
    ⟨nodes run0 [{ coll0 with parent := some (0, 0) }], _, 0x81, { Packet.blank with kind := 0x12, slice := 1 }, { coll0 with parent := some (0, 0) }, by decide +kernel, by decide +kernel, by decide +kernel, by decide +kernel, by decide +kernel, by decide +kernel, rfl⟩,
    ⟨{ nodes run0 [{ coll0 with height := 1, sched := some (1, 0), ins := [⟨0, some (0, 0), []⟩], feeds := [⟨0, 0, 0xFFFF, 0, false, []⟩] }] with agent := { AgentSt.init with slices := [⟨1, [0x80000000], none, none, none, false⟩] } }, _, 0x81, { Packet.blank with kind := 0x12, slice := 1, chunk := 1, srcUnit := 0x81 }, { coll0 with height := 1, sched := some (1, 0), ins := [⟨0, some (0, 0), []⟩], feeds := [⟨0, 0, 0xFFFF, 0, false, []⟩] }, ⟨0, some (0, 0), []⟩, ⟨0, 0, 0xFFFF, 0, false, []⟩, by decide +kernel, rfl, by decide +kernel, by decide +kernel, by decide +kernel, by decide +kernel, by decide +kernel, by decide +kernel, by decide +kernel, by decide +kernel⟩,
    ⟨nodes run0 [{ coll0 with parent := some (0, 0) }], 0x81, { Packet.blank with kind := 0x12, slice := 1, chunk := 2, srcUnit := 0x81 }, { coll0 with parent := some (0, 0) }, by decide +kernel, by decide +kernel, by decide +kernel, by decide +kernel⟩,
    ⟨nodes run0 [coll0], .coll 1 0 0, coll0, by decide +kernel, by decide +kernel, by decide +kernel, by decide +kernel, by decide +kernel, by decide +kernel, by decide +kernel⟩,
    ⟨nodes run0 [{ coll0 with ins := [⟨0, some (0, 0), []⟩], feeds := [⟨0, 0, 0xFFFF, 0, false, []⟩] }], 0x81, { Packet.blank with kind := 0x10, slice := 1, srcUnit := 0x81, arg := 0xFFFF000000000000 }, { coll0 with ins := [⟨0, some (0, 0), []⟩], feeds := [⟨0, 0, 0xFFFF, 0, false, []⟩] }, ⟨0, 0, 0xFFFF, 0, false, []⟩, ⟨0, some (0, 0), []⟩, by decide +kernel, by decide +kernel, by decide +kernel, by decide +kernel, by decide +kernel, by decide +kernel, by decide +kernel, by decide +kernel, by decide +kernel, by decide +kernel, by decide +kernel, by decide +kernel⟩,
    ⟨nodes run0 [{ coll0 with chunks := [chunk0] }], .coll 1 0 0, 0, { coll0 with chunks := [chunk0] }, chunk0, by decide +kernel, by decide +kernel, by decide +kernel, by decide +kernel, by decide +kernel, by decide +kernel, by decide +kernel, by decide +kernel, by decide +kernel, by decide +kernel, by decide +kernel, by decide +kernel⟩,
    ⟨run0, 0x89, { Packet.blank with kind := 0x11 }, by decide +kernel, by decide +kernel, by decide +kernel⟩,
    ⟨nodes open0 [{ coll0 with height := 1, sched := some (1, 0), phase := .waiting 0, slots := [], size := 4000, members := [⟨0, 0, 0, 0, 0, 0, 0, 0, none, false, [], none⟩] }], .coll 1 0 1, { coll0 with height := 1, sched := some (1, 0), phase := .waiting 0, slots := [], size := 4000, members := [⟨0, 0, 0, 0, 0, 0, 0, 0, none, false, [], none⟩] }, by decide +kernel, by decide +kernel, by decide +kernel⟩,
    ⟨nodes open0 [{ coll0 with height := 1, sched := some (1, 0), phase := .waiting 4, slots := [], size := 4000, members := [⟨0, 0, 0, 0, 0, 0, 0, 0, none, false, [], none⟩] }], _, .coll 1 0 1, { coll0 with height := 1, sched := some (1, 0), phase := .waiting 4, slots := [], size := 4000, members := [⟨0, 0, 0, 0, 0, 0, 0, 0, none, false, [], none⟩] }, 4, by decide +kernel, by decide +kernel, by decide +kernel, by decide +kernel, rfl, by decide +kernel⟩,
    ⟨nodes run0 [{ coll0 with phase := .spillWaiting 16 }], .coll 1 0 0, { coll0 with phase := .spillWaiting 16 }, 16, by decide +kernel, by decide +kernel, by decide +kernel, by decide +kernel⟩,
    ⟨nodes run0 [{ coll0 with bad := [0], chunks := [{ chunk0 with late := 1 }] }], 1, 0, 0, 0xFFFF, 0, { coll0 with bad := [0], chunks := [{ chunk0 with late := 1 }] }, { chunk0 with late := 1 }, by decide +kernel, by decide +kernel, by decide +kernel, by decide +kernel, by decide +kernel, by decide +kernel, by decide +kernel, by decide +kernel, by decide +kernel, by decide +kernel⟩,
    ⟨nodes run0 [{ coll0 with bad := [0], chunks := [{ chunk0 with late := 17 }] }], 1, 0, 0, 0xFFFF, 0, { coll0 with bad := [0], chunks := [{ chunk0 with late := 17 }] }, { chunk0 with late := 17 }, by decide +kernel, by decide +kernel, by decide +kernel, by decide +kernel, by decide +kernel, by decide +kernel, by decide +kernel, by decide +kernel, by decide +kernel⟩,
    ⟨nodes run0 [{ coll0 with isRoot := false, chunks := [{ chunk0 with sent := true, since := 26 }] }], .coll 1 0 0, 0, { coll0 with isRoot := false, chunks := [{ chunk0 with sent := true, since := 26 }] }, { chunk0 with sent := true, since := 26 }, by decide +kernel, by decide +kernel, by decide +kernel, by decide +kernel, by decide +kernel, by decide +kernel, by decide +kernel, by decide +kernel⟩,
    ⟨{ run0 with coll := { run0.coll with hold := [⟨0, false, [0], 5⟩] } }, 0x81, { Packet.blank with kind := 0x10, arg := 0xFFFF000000000000 }, by decide +kernel, by decide +kernel, by decide +kernel⟩⟩

theorem witness_skipperGroupsComplete :
    (∃ (s : State) (group : Fin 65536) (slice : Fin 65536), s.manages ∧ s.collMembers slice.val ≠ [] ∧ group.val ≤ 4095 ∧ s.skpGroup group.val = none ∧ s.coll.groups.length < 4096) ∧
    (∃ (s : State) (queue : Queue) (index : BitVec 32) (remote : List RemoteRead) (r : RunCmd) (rank : Nat) (x : SkpGroup) (bs : List Byte), s.running = true ∧ s.fresh? queue.val index.toNat 0x02 = some r ∧ skipOk r.slot = true ∧ s.rankOf r.ctx = some rank ∧ s.skpGroup (slotNum r.slot 32 2) = some x ∧ x.ranks.contains rank = true ∧ slotByte r.slot 34 ≠ 0 ∧ s.readAt r.ctx (slotNum r.slot 40 8) (slotByte r.slot 35 * 8) remote = some (.ok bs)) ∧
    (∃ (s : State) (unit : Fin 256) (p : Packet) (g : SkpGroup) (n : SkpNode), s.running = true ∧ p.kind.val = 0x20 ∧ s.skpGroup (p.arg.toNat % 4096) = some g ∧ p.arg.toNat.testBit 19 = true ∧ p.arg.toNat.testBit 20 = false ∧ g.nodes.find? (fun n => 0x81 + n.wing == unit.val && n.parent == some (p.srcChip.val, p.srcUnit.val - 0x81)) = some n) ∧
    (∃ (s : State) (group : Fin 4096) (height : Fin 3) (gen : BitVec 32) (g : SkpGroup) (n : SkpNode) (x : SkpGen) (parent : Nat × Nat), s.running = true ∧ s.skpGroup group.val = some g ∧ skpNode g height.val = some n ∧ skpGen n gen.toNat = some x ∧ n.parent = some parent ∧ x.up = true ∧ x.result = none) :=
  ⟨⟨{ mon with agent := { AgentSt.init with slices := [⟨1, [0x80000000], none, none, none, false⟩] } }, 0, 1, by decide +kernel, by decide +kernel, by decide +kernel, by decide +kernel, by decide +kernel⟩,
    ⟨{ runs (open0.setCtx 0 { CtxSt.init with bindings := [⟨0, 0, false, false⟩] }) [runCmd 0x02 skSlot] with coll := ⟨[], [group0], []⟩ }, 0, 0, [⟨0, 0, []⟩], runCmd 0x02 skSlot, 0, group0, [], by decide +kernel, by decide +kernel, by decide +kernel, by decide +kernel, by decide +kernel, by decide +kernel, by decide +kernel, by rfl⟩,
    ⟨{ run0 with coll := ⟨[], [group0], []⟩ }, 0x81, { Packet.blank with kind := 0x20, arg := 0x80000, srcUnit := 0x81 }, group0, skpNode0, by decide +kernel, by decide +kernel, by decide +kernel, by decide +kernel, by decide +kernel, by decide +kernel⟩,
    ⟨{ run0 with coll := ⟨[], [group0], []⟩ }, 0, 0, 0, group0, skpNode0, skpGen0, (0, 0), by decide +kernel, by decide +kernel, by decide +kernel, by decide +kernel, by decide +kernel, by decide +kernel, by decide +kernel⟩⟩

theorem witness_bouquetLoadsComplete :
    (∃ (s : State) (slice : Fin 65536) (image : List Byte), s.manages ∧ 0 < slice.val ∧ slice.val ≤ 1023 ∧ headerOk image = true) ∧
    (∃ (s : State) (h : MsgHdr) (load : Nat), s.hears h ∧ ((s.noteSeen h).hawk.parts.any fun b => b.load == load) = false) ∧
    (∃ (s : State) (load : Nat) (l : MgrLoad) (t : Ftu), s.running = true ∧ s.mgr.loads.find? (fun l => l.id == load && l.handle == 0) = some l ∧ l.sentAt = some t ∧ s.isActive = true ∧ 1600000000 ≤ (s.ftu - t).toNat) ∧
    (∃ (s : State) (h : MsgHdr) (load : Nat) (b : BqPart), s.hears h ∧ (s.noteSeen h).hawk.parts.find? (fun b => b.load == load && b.handle == 0) = some b) ∧
    (∃ (s : State) (handle : BitVec 32) (b : BqPart), s.running = true ∧ s.partOf handle.toNat = some b ∧ b.state = 1 ∧ s.reached b.start = true) ∧
    (∃ (s : State) (handle : BitVec 32) (l : MgrLoad), s.manages ∧ s.mgr.loads.find? (fun l => l.handle == handle.toNat && l.handle != 0) = some l ∧ l.unloadAt = none ∧ l.want = none) ∧
    (∃ (s : State) (handle : BitVec 32) (l : MgrLoad), s.manages ∧ handle ≠ 0 ∧ s.mgr.loads.find? (fun l => l.handle == handle.toNat) = some l) ∧
    (∃ (s : State) (u : State) (handle : BitVec 32) (at' : Wb) (b : BqPart), s.running = true ∧ s.hawk.parts.find? (fun b => b.handle == handle.toNat && b.handle != 0) = some b ∧ b.unloadAt = none ∧ s.reached at' = true ∧ u = (s.modPart (fun x => x.load == b.load) fun x => { x with state := if x.state = 0 then 0 else 4, unloadAt := some at' }).stopOps handle.toNat) ∧
    (∃ (s : State) (handle : BitVec 32) (b : BqPart) (at' : Wb), s.running = true ∧ s.hawk.parts = [b] ∧ b.handle = handle.toNat ∧ handle ≠ 0 ∧ b.unloadAt = some at' ∧ s.reached (at' + 2#48) = true ∧ s.mgr.loads = []) :=
  ⟨⟨mon, 1, bqImage, by decide +kernel, by decide +kernel, by decide +kernel, by decide +kernel⟩,
    ⟨fol, hdr0, 0, by decide +kernel, by decide +kernel⟩,
    ⟨{ mon with mgr := { MgrSt.init with loads := [{ load0 with handle := 0, sentAt := some (-9000000000) }] } }, 0, { load0 with handle := 0, sentAt := some (-9000000000) }, -9000000000, by decide +kernel, by decide +kernel, by decide +kernel, by decide +kernel, by decide +kernel⟩,
    ⟨{ fol with hawk := ⟨[{ part0 with handle := 0 }], [], 0⟩ }, hdr0, 0, { part0 with handle := 0 }, by decide +kernel, by decide +kernel⟩,
    ⟨{ run0 with hawk := ⟨[{ part0 with state := 1 }], [], 0⟩ }, 1, { part0 with state := 1 }, by decide +kernel, by decide +kernel, by decide +kernel, by decide +kernel⟩,
    ⟨{ mon with mgr := { MgrSt.init with loads := [load0] } }, 1, load0, by decide +kernel, by decide +kernel, by decide +kernel, by decide +kernel⟩,
    ⟨{ mon with mgr := { MgrSt.init with loads := [load0] } }, 1, load0, by decide +kernel, by decide +kernel, by decide +kernel⟩,
    ⟨{ run0 with hawk := ⟨[part0], [], 0⟩ }, _, 1, 0, part0, by decide +kernel, by decide +kernel, by decide +kernel, by decide +kernel, rfl⟩,
    ⟨{ run0 with hawk := ⟨[{ part0 with unloadAt := some (-9) }], [], 0⟩ }, 1, { part0 with unloadAt := some (-9) }, -9, by decide +kernel, by decide +kernel, by decide +kernel, by decide +kernel, by decide +kernel, by decide +kernel, by decide +kernel⟩⟩

theorem witness_stepsAndOpsComplete :
    (∃ (s : State) (handle : BitVec 32) (step : Nat) (b : BqPart) (st : BqStep) (n : BqNode), s.running = true ∧ s.partOf handle.toNat = some b ∧ b.bq.steps[step]? = some st ∧ b.bq.nodes[st.node]? = some n ∧ n.chip = s.chip ∧ n.typ ≠ 0x01 ∧ st.auto = true ∧ s.stepDue b st = true ∧ s.ctxSteps b n.ctx = true ∧ b.ran.contains (step, s.wb) = false) ∧
    (∃ (s : State) (handle : BitVec 32) (step : Nat) (x : StepRun), s.running = true ∧ s.hawk.runs.find? (fun x => x.handle == handle.toNat && x.step == step && x.op.isNone) = some x ∧ s.quiet x.tag.1 x.tag.2 = true) ∧
    (∃ (s : State) (queue : Queue) (index : BitVec 32) (r : RunCmd) (b : BqPart) (st : BqStep) (n : BqNode), s.running = true ∧ s.fresh? queue.val index.toNat 0x20 = some r ∧ s.opStep r.slot = some (b, st, n) ∧ b.state = 2 ∧ st.opAllowed = true ∧ n.typ ≠ 0x01 ∧ n.chip = s.chip ∧ r.ctx = n.ctx ∧ slotNum r.slot 40 8 = 0) ∧
    (∃ (s : State) (queue : Queue) (index : BitVec 32) (r : RunCmd) (b : BqPart) (st : BqStep) (n : BqNode), s.running = true ∧ s.opWaits queue.val index.toNat = some r ∧ s.opStep r.slot = some (b, st, n) ∧ 1 ≤ (s.wb - BitVec.ofNat 48 r.pos).toNat ∧ (s.wb - BitVec.ofNat 48 r.pos).toNat ≤ 64 ∧ b.state = 2 ∧ s.power.pace = 0 ∧ (nodeCores n).all (fun c => s.coreFree n.wing c) = true ∧ r.slot.length ≤ 64) ∧
    (∃ (s : State) (queue : Queue) (index : BitVec 32) (r : RunCmd), s.running = true ∧ s.opWaits queue.val index.toNat = some r ∧ 64 ≤ (s.wb - BitVec.ofNat 48 r.pos).toNat) ∧
    (∃ (s : State) (handle : BitVec 32) (node : Nat) (core : Nat) (b : BqPart) (n : BqNode), s.running = true ∧ s.partOf handle.toNat = some b ∧ b.bq.nodes[node]? = some n ∧ b.stale.contains (node, core) = true ∧ s.coreAbsent n.wing core = false ∧ s.coreFree n.wing core = true ∧ s.power.pace = 0 ∧ n.typ ≠ 0x15) ∧
    (∃ (s : State) (u : State) (queue : Queue) (index : BitVec 32) (r : RunCmd) (st : Nat), s.running = true ∧ u = s.settleOp queue.val index.toNat ∧ u.run queue.val index.toNat = some r ∧ u.finalStatus r = some st ∧ u.heldBy r = false) :=
  ⟨⟨{ run0 with hawk := ⟨[part0], [], 0⟩ }, 1, 0, part0, step0, node0, by decide +kernel, by decide +kernel, by decide +kernel, by decide +kernel, by decide +kernel, by decide +kernel, by decide +kernel, by decide +kernel, by decide +kernel, by decide +kernel⟩,
    ⟨{ run0 with hawk := ⟨[part0], [stepRun0], 0⟩ }, 1, 0, stepRun0, by decide +kernel, by decide +kernel, by decide +kernel⟩,
    ⟨{ runs open0 [runCmd 0x20 opSlot] with hawk := ⟨[partOp], [], 0⟩ }, 0, 0, runCmd 0x20 opSlot, partOp, { step0 with auto := false }, node0, by decide +kernel, by decide +kernel, by decide +kernel, by decide +kernel, by decide +kernel, by decide +kernel, by decide +kernel, by decide +kernel, by decide +kernel⟩,
    ⟨{ (runs open0 [{ runCmd 0x20 opSlot with begun := true }]).setFld F.FT_WB_NUM_NUM 0 1 with hawk := ⟨[partOp], [], 0⟩ }, 0, 0, { runCmd 0x20 opSlot with begun := true }, partOp, { step0 with auto := false }, node0, by decide +kernel, by decide +kernel, by decide +kernel, by decide +kernel, by decide +kernel, by decide +kernel, by decide +kernel, by decide +kernel, by decide +kernel⟩,
    ⟨(runs open0 [{ runCmd 0x20 opSlot with begun := true }]).setFld F.FT_WB_NUM_NUM 0 64, 0, 0, { runCmd 0x20 opSlot with begun := true }, by decide +kernel, by decide +kernel, by decide +kernel⟩,
    ⟨{ run0 with hawk := ⟨[{ partOp with stale := [(0, 0)] }], [], 0⟩ }, 1, 0, 0, { partOp with stale := [(0, 0)] }, node0, by decide +kernel, by decide +kernel, by decide +kernel, by decide +kernel, by decide +kernel, by decide +kernel, by decide +kernel, by decide +kernel⟩,
    ⟨runs open0 [{ runCmd 0x20 opSlot with begun := true, ended := some 0 }], _, 0, 0, { runCmd 0x20 opSlot with begun := true, ended := some 0 }, 0, by decide +kernel, rfl, by decide +kernel, by decide +kernel, by decide +kernel⟩⟩

theorem witness_warmComputeAndRoleResetsComplete :
    (∃ (s : State), s.running = true ∧ s.time.based = true ∧ s.power.computeAt = none) ∧
    (∃ (s : State) (b : Wb), s.running = true ∧ s.power.computeAt = some b ∧ s.reached b = true) ∧
    (∃ (s : State) (b : Wb), s.running = true ∧ s.power.computeReady = some b ∧ s.reached b = true) ∧
    (∃ (s : State), s.running = true) ∧
    (∃ (s : State), s.running = true ∧ s.isManagerChip = true) ∧
    (∃ (s : State), s.running = true ∧ s.isManagerChip = true) ∧
    (∃ (s : State) (ctxResets : Fin 65536) (ctxWindow : Fin 65536) (chipResets : Fin 65536) (chipWindow : Fin 65536) (computeResets : Fin 65536) (computeWindow : Fin 65536), s.running = true ∧ s.canonical ∧ 2 ≤ ctxResets.val ∧ ctxResets.val ≤ 64 ∧ 1 ≤ ctxWindow.val ∧ ctxWindow.val ≤ 600 ∧ 4 ≤ chipResets.val ∧ chipResets.val ≤ 256 ∧ 10 ≤ chipWindow.val ∧ chipWindow.val ≤ 3600 ∧ 2 ≤ computeResets.val ∧ computeResets.val ≤ 16 ∧ 60 ≤ computeWindow.val) :=
  ⟨⟨{ run0 with time := { TimeSt.init with based := true } }, by decide +kernel, by decide +kernel, by decide +kernel⟩,
    ⟨{ run0 with power := { run0.power with computeAt := some 0 } }, 0, by decide +kernel, by decide +kernel, by decide +kernel⟩,
    ⟨{ run0 with power := { run0.power with computeReady := some 0 } }, 0, by decide +kernel, by decide +kernel, by decide +kernel⟩,
    ⟨run0, by decide +kernel⟩,
    ⟨mchip, by decide +kernel, by decide +kernel⟩,
    ⟨mchip, by decide +kernel, by decide +kernel⟩,
    ⟨run0, 2, 1, 4, 10, 2, 60, by decide +kernel, by decide +kernel, by decide +kernel, by decide +kernel, by decide +kernel, by decide +kernel, by decide +kernel, by decide +kernel, by decide +kernel, by decide +kernel, by decide +kernel, by decide +kernel, by decide +kernel⟩⟩

theorem witness_poolCommandsComplete :
    (∃ (s : State) (p : Packet), s.running = true ∧ p.kind.val = 0x01) ∧
    (∃ (s : State) (u : State) (p : Packet) (data : List Byte) (secs : List Nat), s.running = true ∧ p.kind.val = 0x02 ∧ s.judgeRead p = (ST_OK, data, secs, none) ∧ u = (s.countFaults secs).markBad p none) ∧
    (∃ (s : State) (unit : Fin 256) (p : Packet) (r : PendingRead), s.running = true ∧ s.readFor unit.val p = some r) ∧
    (∃ (s : State) (p : Packet), s.running = true ∧ (p.kind.val = 0x01 ∨ p.kind.val = 0x02) ∧ isWindow p.arg.toNat = true) ∧
    (∃ (s : State) (port : Port) (p : Packet), s.running = true ∧ (s.ep port.val).waiting.find? (fun p => s.winRoom port.val p) = some p) ∧
    (∃ (s : State) (port : Port) (x : WinRefused), s.running = true ∧ (s.ep port.val).refused.find? (fun x => x.acked && !x.sent && s.winRoom port.val { x.pkt with kind := 0x01 }) = some x) ∧
    (∃ (s : State) (frame : Nat), s.running = true ∧ frameExists frame = true ∧ s.fld F.HBM_RETIRE_THRESHOLD (wingOfFrame frame) = 1024 ∧ Store.get (fun _ => 0) s.pool.corrected frame = 0) ∧
    (∃ (s : State) (frame : Nat) (sector : Fin 4096), s.running = true ∧ frameExists frame = true ∧ s.pool.poison.contains (frame * 4096 + sector.val) = false) ∧
    (∃ (s : State) (wing : Wing) (f : Nat), s.running = true ∧ s.pool.retire.find? (fun f => wingOfFrame f == wing.val) = some f ∧ 512 ≤ Store.get (fun _ => 0) s.pool.reserve (stackOf f)) ∧
    (∃ (s : State) (n : Fin 2048), s.running = true ∧ s.canonical ∧ 8 ≤ n.val ∧ n.val ≤ 1024) :=
  ⟨⟨run0, { Packet.blank with kind := 0x01 }, by decide +kernel, by decide +kernel⟩,
    ⟨(open0.setFld F.QUE_CTX_STATUS_EPOCH 0 0).setCtx 0 { CtxSt.init with pages := [⟨0, 0, 15⟩] }, _, { Packet.blank with kind := 0x02, srcChip := 0xFFFF, chunk := 1, arg := 0 }, List.replicate 64 0, [0], by decide +kernel, by decide +kernel, by decide +kernel, rfl⟩,
    ⟨{ run0 with net := { NetSt.init with reads := [⟨0, 0, 0, 0, 0, 0, 0, none, none⟩] } }, 0, { Packet.blank with srcUnit := 0x89 }, ⟨0, 0, 0, 0, 0, 0, 0, none, none⟩, by decide +kernel, by decide +kernel⟩,
    ⟨run0, { Packet.blank with kind := 0x01, arg := 0x800000000000 }, by decide +kernel, by decide +kernel, by decide +kernel⟩,
    ⟨{ run0 with eps := [(0, { EpSt.init with waiting := [Packet.blank] })] }, 0, Packet.blank, by decide +kernel, by decide +kernel⟩,
    ⟨{ run0 with eps := [(0, { EpSt.init with refused := [⟨Packet.blank, 0, true, false⟩] })] }, 0, ⟨Packet.blank, 0, true, false⟩, by decide +kernel, by decide +kernel⟩,
    ⟨run0.setFld F.HBM_RETIRE_THRESHOLD 0 1024, 0, by decide +kernel, by decide +kernel, by decide +kernel, by decide +kernel⟩,
    ⟨run0, 0, 0, by decide +kernel, by decide +kernel, by decide +kernel⟩,
    ⟨{ run0 with pool := { PoolSt.init with retire := [0], reserve := [(0, 512)] } }, 0, 0, by decide +kernel, by decide +kernel, by decide +kernel⟩,
    ⟨run0, 8, by decide +kernel, by decide +kernel, by decide +kernel, by decide +kernel⟩⟩

theorem witness_atomizerCommandsComplete :
    (∃ (s : State) (queue : Queue) (index : BitVec 32) (r : RunCmd), s.running = true ∧ s.fresh? queue.val index.toNat 0x12 = some r) ∧
    (∃ (s : State) (wing : Wing) (chan : Fin 256), s.running = true ∧ s.bufferedOn wing.val < 64 ∧ s.dma.ready.find? (fun c => c / 256 == wing.val) = some (chanIx wing.val chan.val)) ∧
    (∃ (s : State) (u : State) (wing : Wing) (chan : Fin 256) (x : ChainL) (d : Desc) (r : RunCmd) (st : Nat), s.running = true ∧ u = s.driveL (chanIx wing.val chan.val) ∧ u.liveChain (chanIx wing.val chan.val) = some x ∧ x.desc = some d ∧ u.run x.queue x.index = some r ∧ d.rows ≤ x.row ∧ u.writesWait (chanIx wing.val chan.val) = false ∧ r.fails.find? (fun f => f.1 == x.finished) = some (x.finished, st)) ∧
    (∃ (s : State) (u : State) (wing : Wing) (chan : Fin 256) (x : ChainL) (d : Desc) (r : RunCmd), s.running = true ∧ u = s.driveL (chanIx wing.val chan.val) ∧ u.liveChain (chanIx wing.val chan.val) = some x ∧ x.desc = some d ∧ u.run x.queue x.index = some r ∧ d.rows ≤ x.row ∧ u.writesWait (chanIx wing.val chan.val) = false ∧ r.fails = [] ∧ d.eventEn = false ∧ d.next = 0) ∧
    (∃ (s : State) (wing : Wing) (chan : Fin 256) (x : ChainL) (st : Nat), s.running = true ∧ s.liveChain (chanIx wing.val chan.val) = some x ∧ x.refused = some st) ∧
    (∃ (s : State) (owner : Owner), s.accessRuns owner.val) ∧
    (∃ (s : State) (owner : Owner) (chan : Fin 16), s.accessRuns owner.val ∧ owner.val ≠ 0 ∧ s.chSOwner chan.val = owner.val ∧ s.chSState chan.val = AS_IDLE) ∧
    (∃ (s : State) (owner : Owner) (chan : Fin 16), s.accessRuns owner.val ∧ owner.val ≠ 0 ∧ s.chSOwner chan.val = owner.val ∧ s.chSState chan.val ≠ AS_IDLE ∧ (s.chS chan.val).started = false) ∧
    (∃ (s : State) (u : State) (owner : Owner) (chan : Fin 16), s.accessRuns owner.val ∧ owner.val ≠ 0 ∧ s.chSOwner chan.val = owner.val ∧ u = s.modChS chan.val (fun c => { c with fences := c.fences ++ [c.serial] })) ∧
    (∃ (s : State), s.running = true ∧ s.forwardOnly = false) ∧
    (∃ (s : State) (chan : Fin 16) (n : Nat), s.running = true ∧ s.chSState chan.val = AS_WAIT_RING ∧ s.ringRoom chan.val = true ∧ s.dma.serving = some n) ∧
    (∃ (s : State) (owner : Owner) (chan : Fin 16), s.accessRuns owner.val ∧ s.fld F.ATS_CH_LOCK_OWNER chan.val = 0) ∧
    (∃ (s : State) (owner : Owner) (chan : Fin 16) (value : Word), s.accessRuns owner.val ∧ chan.val < 12 ∧ s.fld F.ATS_CH_LOCK_OWNER chan.val = getBits value F.ATS_CH_LOCK_OWNER.lo F.ATS_CH_LOCK_OWNER.width) ∧
    (∃ (s : State) (port : Antenna) (f : AntFrame), s.running = true ∧ s.antTakes port.val f) :=
  ⟨⟨runs open0 [runCmd 0x12 []], 0, 0, runCmd 0x12 [], by decide +kernel, by decide +kernel⟩,
    ⟨{ run0 with dma := { DmaSt.init with ready := [0] } }, 0, 0, by decide +kernel, by decide +kernel, by decide +kernel⟩,
    ⟨{ runs run0 [{ runCmd 0x12 [] with fails := [(0, 3)] }] with dma := { DmaSt.init with chains := [{ chain0 with desc := some desc0, row := 1, asked := true }] } }, _, 0, 0, { chain0 with desc := some desc0, row := 1, asked := true }, desc0, { runCmd 0x12 [] with fails := [(0, 3)] }, 3, by decide +kernel, rfl, by decide +kernel, by decide +kernel, by decide +kernel, by decide +kernel, by decide +kernel, by decide +kernel⟩,
    ⟨{ runs run0 [runCmd 0x12 []] with dma := { DmaSt.init with chains := [{ chain0 with desc := some desc0, row := 1, asked := true }] } }, _, 0, 0, { chain0 with desc := some desc0, row := 1, asked := true }, desc0, runCmd 0x12 [], by decide +kernel, rfl, by decide +kernel, by decide +kernel, by decide +kernel, by decide +kernel, by decide +kernel, by decide +kernel, by decide +kernel, by decide +kernel⟩,
    ⟨{ run0 with dma := { DmaSt.init with chains := [{ chain0 with refused := some 3 }] } }, 0, 0, { chain0 with refused := some 3 }, 3, by decide +kernel, by decide +kernel, by decide +kernel⟩,
    ⟨run0, 0, by decide +kernel⟩,
    ⟨run0.setFld F.ATS_CH_LOCK_OWNER 0 1, 1, 0, by decide +kernel, by decide +kernel, by decide +kernel, by decide +kernel⟩,
    ⟨(run0.setFld F.ATS_CH_LOCK_OWNER 0 1).setFld F.ATS_CH_STATUS_STATE 0 AS_RUNNING, 1, 0, by decide +kernel, by decide +kernel, by decide +kernel, by decide +kernel, by decide +kernel⟩,
    ⟨run0.setFld F.ATS_CH_LOCK_OWNER 0 1, _, 1, 0, by decide +kernel, by decide +kernel, by decide +kernel, rfl⟩,
    ⟨run0, by decide +kernel, by decide +kernel⟩,
    ⟨{ (run0.setFld F.ATS_CH_STATUS_STATE 0 AS_WAIT_RING).setFld F.ATS_CQ_BASE_LOG 0 4 with dma := { DmaSt.init with serving := some 1 } }, 0, 1, by decide +kernel, by decide +kernel, by decide +kernel, by decide +kernel⟩,
    ⟨run0, 0, 0, by decide +kernel, by decide +kernel⟩,
    ⟨run0, 0, 0, 0, by decide +kernel, by decide +kernel, by decide +kernel⟩,
    ⟨antIn AN_UP, 0, frame0, by decide +kernel, by decide +kernel⟩⟩

theorem witness_securityCommandsComplete :
    (∃ (s : State) (first : Fin 65536), s.running = true ∧ first.val ≤ s.sec.log.length) ∧
    (∃ (s : State) (nonce : List Byte), s.running = true ∧ nonce.length = 32 ∧ s.flag F.SEC_STATUS_XMSS_EXHAUSTED = false ∧ s.fld F.SEC_XMSS_INDEX_NEXT_INDEX < 2 ^ 40) ∧
    (∃ (s : State), s.running = true) ∧
    (∃ (s : State), s.running = true) ∧
    (∃ (s : State) (slice : Slice) (ct : List Byte) (iv : List Byte) (wrapped : List Byte) (policy : List Byte) (k : KemKey), s.running = true ∧ s.canonical ∧ ct.length = 1568 ∧ iv.length = 12 ∧ wrapped.length = 48 ∧ policyMembers policy = some (s.slicePlaces slice.val) ∧ (s.sliceEntry slice.val).bind (·.sealAt) = none ∧ s.isSealed slice.val = false ∧ s.openOrQuiesced slice.val = true ∧ s.fld F.SEC_SLICE_STATUS_STATE slice.val = 0 ∧ s.sec.kems.find? (fun k => k.slice == slice.val) = some k) ∧
    (∃ (s : State) (slice : Slice) (reports : List SealReport) (x : SliceRec), s.manages ∧ s.sliceRec slice.val = some x ∧ x.isSealed = false ∧ x.sealAt = none ∧ x.compat = false ∧ x.phase = .running ∧ s.allKeyed reports = true ∧ (∀ q ∈ reports, q.linksOk = true)) ∧
    (∃ (s : State) (slice : Slice) (z : Wb), s.running = true ∧ (s.sliceEntry slice.val).bind (·.sealAt) = some z ∧ s.reached z = true ∧ s.fld F.SEC_SLICE_STATUS_STATE slice.val = 1) ∧
    (∃ (s : State) (l : Link), s.running = true ∧ s.linkState l.val = PS_UP ∧ s.interval ≠ 0 ∧ s.sec.outs = []) ∧
    (∃ (s : State) (l : Link) (o : SealOut), s.running = true ∧ s.sec.outs.find? (fun o => o.link == l.val && o.ended) = some o ∧ o.deps = []) ∧
    (∃ (s : State) (l : Link) (t : SealSet) (r : SealIn), s.running = true ∧ t.checkOk = true ∧ s.linkState l.val = PS_UP ∧ s.sec.ins.find? (fun r => r.link == l.val && r.num == s.setInterval t.interval) = some r ∧ t.fail = false ∧ t.empty = false ∧ t.tag = s.sealTag l.val (s.setInterval t.interval) true r.pkts) ∧
    (∃ (s : State) (l : Link) (r : SealIn), s.running = true ∧ s.sec.ins.find? (fun r => r.link == l.val && decide ((r.num + 1) * 1024 + 2048 ≤ s.ftu.toNat)) = some r) :=
  ⟨⟨run0, 0, by decide +kernel, by decide +kernel⟩,
    ⟨run0, List.replicate 32 0, by decide +kernel, by decide +kernel, by decide +kernel, by decide +kernel⟩,
    ⟨run0, by decide +kernel⟩,
    ⟨run0, by decide +kernel⟩,
    ⟨{ run0 with agent := { AgentSt.init with slices := [sliceEntry0] }, sec := { SecSt.init with kems := [⟨0, 0, 0, 0⟩] } }, 0, List.replicate 1568 0, List.replicate 12 0, List.replicate 48 0, [0], ⟨0, 0, 0, 0⟩, by decide +kernel, by decide +kernel, by decide +kernel, by decide +kernel, by decide +kernel, by decide +kernel, by decide +kernel, by decide +kernel, by decide +kernel, by decide +kernel, by decide +kernel⟩,
    ⟨{ mon with mgr := { MgrSt.init with service := [0], slices := [slice1] } }, 1, [⟨0, some 0, true⟩], slice1, by decide +kernel, by decide +kernel, by decide +kernel, by decide +kernel, by decide +kernel, by decide +kernel, by decide +kernel, by decide +kernel⟩,
    ⟨{ run0.setFld F.SEC_SLICE_STATUS_STATE 0 1 with agent := { AgentSt.init with slices := [{ sliceEntry0 with sealAt := some 0 }] } }, 0, 0, by decide +kernel, by decide +kernel, by decide +kernel, by decide +kernel⟩,
    ⟨fabUp.setReg .FT_COUNT 0 4096, 0, by decide +kernel, by decide +kernel, by decide +kernel, by decide +kernel⟩,
    ⟨{ run0 with sec := { SecSt.init with outs := [⟨0, 0, [], [], true, false⟩] } }, 0, ⟨0, 0, [], [], true, false⟩, by decide +kernel, by decide +kernel, by decide +kernel⟩,
    ⟨{ fabUp with sec := { SecSt.init with ins := [⟨0, 0, []⟩] } }, 0, ⟨false, false, true, 0, 0⟩, ⟨0, 0, []⟩, by decide +kernel, by decide +kernel, by decide +kernel, by decide +kernel, by decide +kernel, by decide +kernel, by decide +kernel⟩,
    ⟨{ fabUp.setReg .FT_COUNT 0 4096 with sec := { SecSt.init with ins := [⟨0, 0, []⟩] } }, 0, ⟨0, 0, []⟩, by decide +kernel, by decide +kernel⟩⟩

theorem witness_antennaCommandsComplete :
    (∃ (s : State) (port : Antenna), s.antLive ∧ s.antState port.val = AN_DOWN ∧ s.power.refsLost.contains 0 = false) ∧
    (∃ (s : State) (port : Antenna), s.antLive ∧ s.antState port.val = AN_TRAINING) ∧
    (∃ (s : State) (port : Antenna), s.antLive ∧ (s.antState port.val = AN_TRAINING ∨ s.antState port.val = AN_INIT) ∧ usFtu 100000 ≤ s.since (s.ant port.val).since) ∧
    (∃ (s : State) (port : Antenna) (lanes : Fin 16), s.antLive ∧ lanes.val ≠ 15 ∧ s.antState port.val ≠ AN_DOWN) ∧
    (∃ (s : State) (owner : Owner), s.accessRuns owner.val) ∧
    (∃ (s : State) (port : Antenna), s.antLive ∧ s.antState port.val = AN_INIT) ∧
    (∃ (s : State) (port : Antenna) (maxOut : Fin 256), s.antLive ∧ s.antState port.val = AN_INIT ∧ 16 ≤ maxOut.val) ∧
    (∃ (s : State) (port : Antenna), s.antLive ∧ s.antState port.val = AN_UP) ∧
    (∃ (s : State) (port : Antenna), s.antLive ∧ s.antState port.val = AN_UP) ∧
    (∃ (s : State) (port : Antenna), s.antLive ∧ s.antState port.val = AN_UP ∧ (s.ant port.val).unacked ≠ [] ∧ usFtu 20 ≤ s.since (s.ant port.val).progress) ∧
    (∃ (s : State) (port : Antenna), s.antLive ∧ s.antState port.val = AN_UP ∧ (s.ant port.val).owed = true) ∧
    (∃ (s : State) (port : Antenna), s.running = true ∧ s.antState port.val = AN_UP ∧ (s.ant port.val).hosts.any (fun h => decide (usFtu 1000 ≤ s.since h.sentAt)) = true) ∧
    (∃ (s : State) (port : Antenna) (e : EvtRec), s.running = true ∧ s.antState port.val = AN_UP ∧ s.flag F.ANT_CTL_EVT_EN port.val = true ∧ (s.ant port.val).unacked = [] ∧ (s.ant port.val).waiting = [] ∧ (s.ant port.val).events = [e]) ∧
    (∃ (s : State) (port : Antenna), s.running = true ∧ (s.ant port.val).bell = true ∧ s.antState port.val = AN_UP) ∧
    (∃ (s : State) (u : State) (port : Antenna) (f : AntFrame), s.antLive ∧ s.antTakes port.val f ∧ u = s.antTaken port.val f ∧ u.antOutstanding port.val < 64 ∧ requestFormOk f = true ∧ f.data = []) ∧
    (∃ (s : State) (u : State) (port : Antenna) (f : AntFrame), s.antLive ∧ s.antTakes port.val f ∧ u = s.antTaken port.val f ∧ u.antOutstanding port.val < 64 ∧ requestFormOk f = true ∧ f.data.length = f.len) ∧
    (∃ (s : State) (u : State) (port : Antenna) (f : AntFrame), s.antLive ∧ s.antTakes port.val f ∧ u = s.antTaken port.val f ∧ u.antOutstanding port.val < 64 ∧ requestFormOk f = true ∧ f.addr.toNat < 64 ∧ f.len = 8 ∧ f.data.length = 8 ∧ u.power.frozen = false) :=
  ⟨⟨run0, 0, by decide +kernel, by decide +kernel, by decide +kernel⟩,
    ⟨antIn AN_TRAINING, 0, by decide +kernel, by decide +kernel⟩,
    ⟨{ antIn AN_TRAINING with ants := [(0, { AntSt.init with since := -9000000000 })] }, 0, by decide +kernel, by decide +kernel, by decide +kernel⟩,
    ⟨antIn AN_UP, 0, 0, by decide +kernel, by decide +kernel, by decide +kernel⟩,
    ⟨run0, 0, by decide +kernel⟩,
    ⟨antIn AN_INIT, 0, by decide +kernel, by decide +kernel⟩,
    ⟨antIn AN_INIT, 0, 16, by decide +kernel, by decide +kernel, by decide +kernel⟩,
    ⟨antIn AN_UP, 0, by decide +kernel, by decide +kernel⟩,
    ⟨antIn AN_UP, 0, by decide +kernel, by decide +kernel⟩,
    ⟨{ antIn AN_UP with ants := [(0, { AntSt.init with unacked := [⟨frame0, 0, []⟩], progress := -9000000 })] }, 0, by decide +kernel, by decide +kernel, by decide +kernel, by decide +kernel⟩,
    ⟨{ antIn AN_UP with ants := [(0, { AntSt.init with owed := true })] }, 0, by decide +kernel, by decide +kernel, by decide +kernel⟩,
    ⟨{ antIn AN_UP with ants := [(0, { AntSt.init with hosts := [⟨0, 0, 0, 0, 0, -9000000⟩] })] }, 0, by decide +kernel, by decide +kernel, by decide +kernel⟩,
    ⟨{ (antIn AN_UP).setFld F.ANT_CTL_EVT_EN 0 1 with ants := [(0, { AntSt.init with events := [⟨0, 0, 0, 0, []⟩] })] }, 0, ⟨0, 0, 0, 0, []⟩, by decide +kernel, by decide +kernel, by decide +kernel, by decide +kernel, by decide +kernel, by decide +kernel⟩,
    ⟨{ antIn AN_UP with ants := [(0, { AntSt.init with bell := true })] }, 0, by decide +kernel, by decide +kernel, by decide +kernel⟩,
    ⟨antIn AN_UP, _, 0, frame0, by decide +kernel, by decide +kernel, rfl, by decide +kernel, by decide +kernel, by decide +kernel⟩,
    ⟨antIn AN_UP, _, 0, frame0, by decide +kernel, by decide +kernel, rfl, by decide +kernel, by decide +kernel, by decide +kernel⟩,
    ⟨antIn AN_UP, _, 0, { frame0 with len := 8, data := [0, 0, 0, 0, 0, 0, 0, 0] }, by decide +kernel, by decide +kernel, rfl, by decide +kernel, by decide +kernel, by decide +kernel, by decide +kernel, by decide +kernel, by decide +kernel⟩⟩

theorem witness_mailboxAndFirmwareCommandsComplete :
    (∃ (s : State) (owner : Owner), s.accessRuns owner.val) ∧
    (∃ (s : State) (owner : Owner) (value : Word), s.accessRuns owner.val ∧ s.fld F.CTL_SEM_OWNER = getBits value F.CTL_SEM_OWNER.lo F.CTL_SEM_OWNER.width) ∧
    (∃ (s : State) (owner : Owner), s.accessRuns owner.val) ∧
    (∃ (s : State) (owner : Owner) (n : Mailbox) (value : Word), s.accessRuns owner.val ∧ s.fld F.MBX_LOCK_OWNER n.val = getBits value F.MBX_LOCK_OWNER.lo F.MBX_LOCK_OWNER.width) ∧
    (∃ (s : State) (owner : Owner), s.accessRuns owner.val) ∧
    (∃ (s : State) (owner : Owner), s.accessRuns owner.val) ∧
    (∃ (s : State), s.running = true) ∧
    (∃ (s : State) (mbx : Fin 32) (fetched : List Byte) (b : List Byte), s.running = true ∧ s.flag F.MBX_STATUS_FULL mbx.val = true ∧ s.fld F.MBX_STATUS_SENDER mbx.val = 1 ∧ s.postBlock 1 (s.reg .MBX_DATA mbx.val) fetched = some b) ∧
    (∃ (s : State) (cls : Fin 256) (image : FwImage), s.running = true ∧ cls.val ≤ 2 ∧ s.bcastOf cls.val = false ∧ image.verdict = 0 ∧ image.cls.val = cls.val) ∧
    (∃ (s : State) (cls : Fin 4) (build : Nat) (digest : BitVec 256), s.manages ∧ s.fw.staged.find? (fun x => x.1 == cls.val) = some (cls.val, build, digest) ∧ s.fw.bcast = none) ∧
    (∃ (s : State) (b : Bcast), s.running = true ∧ s.fw.bcast = some b ∧ usFtu 1000000 ≤ s.since b.progress) ∧
    (∃ (s : State) (h : MsgHdr), s.hears h) ∧
    (∃ (s : State) (h : MsgHdr), s.hears h) ∧
    (∃ (s : State) (h : MsgHdr) (build : BitVec 32) (count : Nat) (b : Bcast), s.managerHears h ∧ (s.noteSeen h).fw.bcast = some b ∧ b.build = build.toNat ∧ count = 0) ∧
    (∃ (s : State) (h : MsgHdr) (build : BitVec 32) (result : Fin 256) (b : Bcast), s.managerHears h ∧ (s.noteSeen h).fw.bcast = some b ∧ b.build = build.toNat ∧ (s.noteSeen h).mgr.service.all (fun c => ((b.results.filter fun x => x.1 != h.src.val) ++ [(h.src.val, result.val, build.toNat)]).any fun x => x.1 == c) = false) ∧
    (∃ (s : State), s.running = true) ∧
    (∃ (s : State), s.running = true ∧ s.isActive = false) ∧
    (∃ (s : State) (group : Fin 256) (l : List Nat), s.running = true ∧ s.counterGroup group.val = some l) :=
  ⟨⟨run0, 0, by decide +kernel⟩,
    ⟨run0, 0, 0, by decide +kernel, by decide +kernel⟩,
    ⟨run0, 0, by decide +kernel⟩,
    ⟨run0, 0, 0, 0, by decide +kernel, by decide +kernel⟩,
    ⟨run0, 0, by decide +kernel⟩,
    ⟨run0, 0, by decide +kernel⟩,
    ⟨run0, by decide +kernel⟩,
    ⟨(run0.setFld F.MBX_STATUS_FULL 0 1).setFld F.MBX_STATUS_SENDER 0 1, 0, [], [], by decide +kernel, by decide +kernel, by decide +kernel, by decide +kernel⟩,
    ⟨run0, 0, ⟨0, 0, [], 0⟩, by decide +kernel, by decide +kernel, by decide +kernel, by decide +kernel, by decide +kernel⟩,
    ⟨{ mon with fw := { FwSt.init with staged := [(0, 0, 0)] } }, 0, 0, 0, by decide +kernel, by decide +kernel, by decide +kernel⟩,
    ⟨{ run0 with fw := { FwSt.init with bcast := some ⟨ref0, 0, 0, [], -9000000000, 0⟩ } }, ⟨ref0, 0, 0, [], -9000000000, 0⟩, by decide +kernel, by decide +kernel, by decide +kernel⟩,
    ⟨fol, hdr0, by decide +kernel⟩,
    ⟨fol, hdr0, by decide +kernel⟩,
    ⟨{ mon with fw := { FwSt.init with bcast := some ⟨ref0, 0, 0, [], 0, 0⟩ } }, hdr0, 0, 0, ⟨ref0, 0, 0, [], 0, 0⟩, by decide +kernel, by decide +kernel, by decide +kernel, by decide +kernel⟩,
    ⟨{ mon with fw := { FwSt.init with bcast := some ⟨ref0, 0, 0, [], 0, 0⟩ }, mgr := { MgrSt.init with service := [5] } }, hdr0, 0, 0, ⟨ref0, 0, 0, [], 0, 0⟩, by decide +kernel, by decide +kernel, by decide +kernel, by decide +kernel⟩,
    ⟨run0, by decide +kernel⟩,
    ⟨run0, by decide +kernel, by decide +kernel⟩,
    ⟨run0, 0, [0, 0, 0, 0], by decide +kernel, by decide +kernel⟩⟩

theorem witness_serviceAndSillageComplete :
    (∃ (s : State) (port : Port), s.running = true ∧ s.servicePort port.val = true) ∧
    (∃ (s : State) (port : Port) (session : BitVec 32) (x : BulkSession), s.running = true ∧ s.session port.val session.toNat = some x ∧ x.ackAt.isSome = true) ∧
    (∃ (s : State) (port : Port) (session : BitVec 32) (x : BulkSession) (d : BulkDgram) (rest : List BulkDgram), s.running = true ∧ s.session port.val session.toNat = some x ∧ x.unacked = d :: rest ∧ usFtu 100 ≤ s.since x.lastAck) ∧
    (∃ (s : State) (port : Port) (f : EthFrame) (c : SvcCfg), s.running = true ∧ s.svc port.val = some c ∧ s.servicePort port.val = true ∧ f.kind = .echo ∧ svcAccepts c f = true ∧ f.dst = c.ipv6) ∧
    (∃ (s : State) (port : Fin 256) (prio : Fin 256) (vlan : Fin 65536), s.running = true ∧ port.val < 128 ∧ prio.val ≤ 7 ∧ vlan.val ≤ 4095 ∧ s.fld F.PRT_CTL_MODE port.val = PM_SERVICE ∧ s.svc port.val = none) ∧
    (∃ (s : State) (port : Fin 256) (flags : Fin 256) (ctx : Fin 65536) (session : BitVec 32), s.running = true ∧ port.val < 128 ∧ s.fld F.PRT_CTL_MODE port.val = PM_SERVICE ∧ flags.val ≤ 1 ∧ ctx.val < 4096 ∧ s.ctxState ctx.val ≠ 0 ∧ s.session port.val session.toNat = none ∧ s.isSealed (s.ctxSlice ctx.val) = false ∧ (s.fw.sessions.filter fun x => x.port == port.val).length < 256) ∧
    (∃ (s : State) (port : Fin 256) (session : BitVec 32), s.running = true ∧ (s.session port.val session.toNat).isSome = true) ∧
    (∃ (s : State) (r : FwRef) (e : JournalEntry), s.running = true ∧ s.entryOf r = some e ∧ s.fw.ready.contains r = true ∧ s.firstReady e = true ∧ r.space = .owners ∧ e.mbx < 32 ∧ s.flag F.MBX_STATUS_FULL (e.mbx + 32) = false) ∧
    (∃ (s : State) (x : SilRec) (rest : List SilRec), s.running = true ∧ s.sil.toPersist = x :: rest) ∧
    (∃ (s : State) (owner : Owner), s.accessRuns owner.val) ∧
    (∃ (s : State) (owner : Owner), s.accessRuns owner.val) ∧
    (∃ (s : State) (r : FwRef) (e : JournalEntry), s.running = true ∧ s.entryOf r = some e ∧ e.owner ≠ 4 ∧ e.owner ≠ 0 ∧ s.fld F.CTL_SEM_OWNER = e.owner) ∧
    (∃ (s : State) (t : State) (frames : Fin 65536) (minSeverity : Fin 256), s.running = true ∧ frames.val ≤ 512 ∧ minSeverity.val ≤ 2 ∧ s.resizeRegion frames.val = some t) :=
  ⟨⟨inMode run0 0 PM_SERVICE PS_UP, 0, by decide +kernel, by decide +kernel⟩,
    ⟨{ run0 with fw := { FwSt.init with sessions := [session0] } }, 0, 0, session0, by decide +kernel, by decide +kernel, by decide +kernel⟩,
    ⟨{ run0 with fw := { FwSt.init with sessions := [{ session0 with unacked := [dgram0] }] } }, 0, 0, { session0 with unacked := [dgram0] }, dgram0, [], by decide +kernel, by decide +kernel, by decide +kernel, by decide +kernel⟩,
    ⟨{ inMode run0 0 PM_SERVICE PS_UP with fw := { FwSt.init with services := [svc0] } }, 0, ⟨.echo, 64, true, none, 0⟩, svc0, by decide +kernel, by decide +kernel, by decide +kernel, by decide +kernel, by decide +kernel, by decide +kernel⟩,
    ⟨inMode run0 0 PM_SERVICE PS_UP, 0, 0, 0, by decide +kernel, by decide +kernel, by decide +kernel, by decide +kernel, by decide +kernel, by decide +kernel⟩,
    ⟨inMode open0 0 PM_SERVICE PS_UP, 0, 0, 0, 0, by decide +kernel, by decide +kernel, by decide +kernel, by decide +kernel, by decide +kernel, by decide +kernel, by decide +kernel, by decide +kernel, by decide +kernel⟩,
    ⟨{ run0 with fw := { FwSt.init with sessions := [session0] } }, 0, 0, by decide +kernel, by decide +kernel⟩,
    ⟨{ run0 with fw := { FwSt.init with journal := [entry0], ready := [ref0] } }, ref0, entry0, by decide +kernel, by decide +kernel, by decide +kernel, by decide +kernel, by decide +kernel, by decide +kernel, by decide +kernel⟩,
    ⟨{ run0 with sil := { SilSt.init with toPersist := [sil0] } }, sil0, [], by decide +kernel, by decide +kernel⟩,
    ⟨run0, 0, by decide +kernel⟩,
    ⟨run0, 0, by decide +kernel⟩,
    ⟨{ run0.setFld F.CTL_SEM_OWNER 0 1 with fw := { FwSt.init with journal := [entry0] } }, ref0, entry0, by decide +kernel, by decide +kernel, by decide +kernel, by decide +kernel, by decide +kernel⟩,
    ⟨run0, run0.setFld F.SIL_CFG_FRAMES 0 0, 0, 0, by decide +kernel, by decide +kernel, by decide +kernel, by decide +kernel⟩⟩

theorem witness_sparesComplete :
    (∃ (s : State) (kind : Fin 16) (wing : Wing) (logical : Fin 2048), s.running = true ∧ s.canFail kind.val wing.val logical.val = true ∧ kind.val ≠ 1 ∧ kind.val ≠ 3) ∧
    (∃ (s : State), s.running = true ∧ s.time.based = false) ∧
    (∃ (s : State) (u : State) (k : Nat) (w : Nat) (cause : Nat) (unit : Nat) (rest : List (Nat × Nat × Nat × Nat)), s.running = true ∧ s.spares.uncommitted = (k, w, cause, unit) :: rest ∧ u = ({ s with spares := { s.spares with uncommitted := rest } }).appendDefect k w cause unit) ∧
    (∃ (s : State), s.running = true) ∧
    (∃ (s : State), s.running = true ∧ s.flag F.INS_STATUS_IMAGO = true) ∧
    (∃ (s : State) (first : BitVec 32), s.running = true ∧ first.toNat ≤ s.cocoon.defects.length) ∧
    (∃ (s : State), s.running = true) :=
  ⟨⟨run0, 2, 0, 0, by decide +kernel, by decide +kernel, by decide +kernel, by decide +kernel⟩,
    ⟨run0, by decide +kernel, by decide +kernel⟩,
    ⟨{ run0 with spares := ⟨[], [(0, 0, 0, 0)], SpareUse.init⟩ }, _, 0, 0, 0, 0, [], by decide +kernel, by decide +kernel, rfl⟩,
    ⟨run0, by decide +kernel⟩,
    ⟨imago run0, by decide +kernel, by decide +kernel⟩,
    ⟨run0, 0, by decide +kernel, by decide +kernel⟩,
    ⟨run0, by decide +kernel⟩⟩

theorem witness_powerCommandsComplete :
    (∃ (s : State), s.running = true) ∧
    (∃ (s : State) (u : State) (mask : Fin 256), s.running = true ∧ (s.contexts.any fun c => s.ctxState c == 1) = false ∧ s.isActive = false ∧ u = s.wakeMask mask.val) ∧
    (∃ (s : State) (u : State) (n : Fin 8), s.aonLive = true ∧ s.flag F.AON_CMP_CTL_ENABLE n.val = true ∧ (s.fld F.AON_CMP_EVENTS_ACTIVE).testBit n.val = false ∧ s.cmpTrue n.val = true ∧ u = s.setFld F.AON_CMP_EVENTS_ACTIVE 0 (s.fld F.AON_CMP_EVENTS_ACTIVE ||| 2 ^ n.val)) ∧
    (∃ (s : State) (n : Fin 8), s.aonLive = true ∧ 4 ≤ n.val ∧ (s.fld F.AON_CMP_EVENTS_ACTIVE).testBit n.val = true) ∧
    (∃ (s : State), s.aonLive = true) ∧
    (∃ (s : State), s.running = true ∧ s.flag F.INS_STATUS_IMAGO = true) ∧
    (∃ (s : State) (n : Wb), s.running = true ∧ s.power.foAt = some n ∧ s.power.foReset = false ∧ s.reached (n + 1#48) = true ∧ s.boundPorts = []) ∧
    (∃ (s : State) (u : State) (n : Wb), s.running = true ∧ s.power.foAt = some n ∧ s.power.foReset = true ∧ s.reached (n + 3#48) = true ∧ u = ({ s with power := { s.power with foAt := none, halted := true, refresh := true } }).freeHeld ∧ u.isManagerChip = false) ∧
    (∃ (s : State), s.running = true ∧ s.forwardOnly = true ∧ (∀ b < 7, (s.fld F.PWR_STATUS_FO_CAUSES).testBit b = true → s.causeGone b = true)) ∧
    (∃ (s : State) (vin : Fin 65536), s.running = true ∧ vin.val ≤ 60000) ∧
    (∃ (s : State) (t : Ftu), s.running = true ∧ s.power.overSince = some t ∧ usFtu 10000 ≤ s.since t) ∧
    (∃ (s : State), s.running = true) :=
  ⟨⟨run0, by decide +kernel⟩,
    ⟨run0, _, 0, by decide +kernel, by decide +kernel, by decide +kernel, rfl⟩,
    ⟨run0.setFld F.AON_CMP_CTL_ENABLE 0 1, _, 0, by decide +kernel, by decide +kernel, by decide +kernel, by decide +kernel, rfl⟩,
    ⟨run0.setFld F.AON_CMP_EVENTS_ACTIVE 0 16, 4, by decide +kernel, by decide +kernel, by decide +kernel⟩,
    ⟨run0, by decide +kernel⟩,
    ⟨imago run0, by decide +kernel, by decide +kernel⟩,
    ⟨{ run0 with power := { run0.power with foAt := some (-9) } }, -9, by decide +kernel, by decide +kernel, by decide +kernel, by decide +kernel, by decide +kernel⟩,
    ⟨{ run0 with power := { run0.power with foAt := some (-9), foReset := true } }, _, -9, by decide +kernel, by decide +kernel, by decide +kernel, by decide +kernel, rfl, by decide +kernel⟩,
    ⟨run0.setFld F.PWR_STATUS_FWD_ONLY 0 1, by decide +kernel, by decide +kernel, by decide +kernel⟩,
    ⟨run0, 0, by decide +kernel, by decide +kernel⟩,
    ⟨{ run0 with power := { run0.power with overSince := some (-900000000) } }, -900000000, by decide +kernel, by decide +kernel, by decide +kernel⟩,
    ⟨run0, by decide +kernel⟩⟩

theorem witness_resetAndClockEventsComplete :
    (∃ (s : State), s.power.aonOn = false) ∧
    (∃ (s : State), s.power.aonOn = true ∧ s.power.porHeld = false) ∧
    (∃ (s : State), s.power.rstLow = true) ∧
    (∃ (s : State), s.power.aonOn = true ∧ s.power.porHeld = false) ∧
    (∃ (s : State), s.power.aonOn = true ∧ s.power.porHeld = false ∧ s.power.inReset = true) ∧
    (∃ (s : State), s.power.aonOn = true) ∧
    (∃ (s : State), s.power.aonOn = true) ∧
    (∃ (s : State), s.power.aonOn = true) ∧
    (∃ (s : State) (u : State) (k : Fin 8), k ≠ 0 ∧ u = { s with power := { s.power with refsLost := k :: s.power.refsLost.filter fun j => j != k } } ∧ u.running = true) :=
  ⟨⟨{ run0 with power := { run0.power with aonOn := false } }, by decide +kernel⟩,
    ⟨run0, by decide +kernel, by decide +kernel⟩,
    ⟨State.reset, by decide +kernel⟩,
    ⟨run0, by decide +kernel, by decide +kernel⟩,
    ⟨{ run0 with power := { run0.power with inReset := true } }, by decide +kernel, by decide +kernel, by decide +kernel⟩,
    ⟨run0, by decide +kernel⟩,
    ⟨run0, by decide +kernel⟩,
    ⟨run0, by decide +kernel⟩,
    ⟨run0, _, 1, by decide +kernel, rfl, by decide +kernel⟩⟩

theorem witness_instarStagesComplete :
    (∃ (s : State), s.running = true ∧ s.stageRuns 1 = true) ∧
    (∃ (s : State) (rows : Nat), s.running = true ∧ s.stageRuns 2 = true ∧ s.ins.warm = false ∧ rows ≤ 256) ∧
    (∃ (s : State) (owner : Owner) (value : Word), s.accessRuns owner.val ∧ getBits value 0 1 = 1) ∧
    (∃ (s : State) (b : Nat) (digest : BitVec 256), s.running = true ∧ s.stageRuns 3 = true ∧ s.ins.image = some (b, digest)) ∧
    (∃ (s : State) (u : State) (t : StartTest), s.running = true ∧ s.stageRuns 4 = true ∧ s.startTest t (!s.ins.warm) = (u, none)) ∧
    (∃ (s : State), s.running = true ∧ s.stageRuns 5 = true ∧ s.flag F.RST_CAUSE_POOL_HELD = true) ∧
    (∃ (s : State), s.running = true ∧ s.stageRuns 6 = true ∧ s.limit6 ≤ s.since s.ins.stageAt) ∧
    (∃ (s : State), s.running = true ∧ s.stageRuns 7 = true ∧ s.ins.timeOpen = true ∧ s.hasTime = true ∧ s.time.based = true) ∧
    (∃ (s : State), s.running = true ∧ s.stageRuns 8 = true ∧ s.imagoFail true = none) ∧
    (∃ (s : State) (ms : Nat), s.running = true ∧ stageLimit s.insStage = some ms ∧ s.insState = IS_RUNNING ∧ usFtu (ms * 1000) ≤ s.since s.ins.stageAt ∧ s.insStage ≠ 7) :=
  ⟨⟨stageAt 1, by decide +kernel, by decide +kernel⟩,
    ⟨stageAt 2, 0, by decide +kernel, by decide +kernel, by decide +kernel, by decide +kernel⟩,
    ⟨run0, 0, 1, by decide +kernel, by decide +kernel⟩,
    ⟨{ stageAt 3 with ins := { InsSt.init with image := some (0, 0) } }, 0, 0, by decide +kernel, by decide +kernel, by decide +kernel⟩,
    ⟨{ stageAt 4 with ins := { InsSt.init with warm := true } }, _, ⟨[0, 0, 0, 0], 0, [], [], [0, 0, 0, 0]⟩, by decide +kernel, by decide +kernel, Prod.ext rfl (by decide +kernel)⟩,
    ⟨(stageAt 5).setFld F.RST_CAUSE_POOL_HELD 0 1, by decide +kernel, by decide +kernel, by decide +kernel⟩,
    ⟨{ stageAt 6 with ins := { InsSt.init with stageAt := -90000000000 } }, by decide +kernel, by decide +kernel, by decide +kernel⟩,
    ⟨{ (stageAt 7).setFld F.FT_STATUS_STATE 0 TS_LOCKED with ins := { InsSt.init with timeOpen := true }, time := { TimeSt.init with based := true } }, by decide +kernel, by decide +kernel, by decide +kernel, by decide +kernel, by decide +kernel⟩,
    ⟨((((((stageAt 8).setFld F.SEC_STATUS_PUF_OK 0 1).setFld F.SEC_STATUS_COCOON_OK 0 1).setFld F.SEC_STATUS_FW_VERIFIED 0 1).setFld F.SEC_STATUS_XMSS_READY 0 1).setFld F.MGR_MAP_VALID 0 1).setFld F.FT_STATUS_STATE 0 TS_LOCKED, by decide +kernel, by decide +kernel, by decide +kernel⟩,
    ⟨{ stageAt 1 with ins := { InsSt.init with stageAt := -90000000000 } }, 2000, by decide +kernel, by decide +kernel, by decide +kernel, by decide +kernel, by decide +kernel⟩⟩

theorem witness_chrysalisCommandsComplete :
    (∃ (s : State), s.freezable = true) ∧
    (∃ (s : State), s.running = true) ∧
    (∃ (s : State) (flags : Fin 256) (delay : BitVec 32), s.running = true ∧ flags.val ≤ 3 ∧ delay.toNat ≤ 16000000) ∧
    (∃ (s : State) (t : Ftu), s.freezable = true ∧ s.chr.trigAt = some t ∧ s.chr.delay ≤ s.since t) ∧
    (∃ (s : State) (owner : Owner), s.reaches owner.val = true ∧ s.asleep = false ∧ s.fld F.CHR_STATUS_STATE = CS_FROZEN) ∧
    (∃ (s : State) (half : Fin 2), s.power.frozen = true ∧ s.fld F.CHR_STATUS_STATE = CS_READOUT ∧ s.fld (halfLen half.val) = 0 ∧ s.chr.whole = false) ∧
    (∃ (s : State) (sec : DumpSec), s.power.frozen = true ∧ s.fld F.CHR_STATUS_STATE = CS_READOUT ∧ s.chr.whole = false ∧ sec.kind = 2) ∧
    (∃ (s : State) (owner : Owner), s.reaches owner.val = true ∧ s.asleep = false) ∧
    (∃ (s : State) (owner : Owner), s.reaches owner.val = true ∧ s.asleep = false ∧ s.power.frozen = true) :=
  ⟨⟨run0, by decide +kernel⟩,
    ⟨run0, by decide +kernel⟩,
    ⟨run0, 0, 0, by decide +kernel, by decide +kernel, by decide +kernel⟩,
    ⟨{ run0 with chr := { ChrSt.init with trigAt := some 0 } }, 0, by decide +kernel, by decide +kernel, by decide +kernel⟩,
    ⟨run0.setFld F.CHR_STATUS_STATE 0 1, 0, by decide +kernel, by decide +kernel, by decide +kernel⟩,
    ⟨{ run0.setFld F.CHR_STATUS_STATE 0 2 with power := { run0.power with frozen := true } }, 0, by decide +kernel, by decide +kernel, by decide +kernel, by decide +kernel⟩,
    ⟨{ run0.setFld F.CHR_STATUS_STATE 0 2 with power := { run0.power with frozen := true } }, ⟨2, 0, 0, 0, 0, 0, []⟩, by decide +kernel, by decide +kernel, by decide +kernel, by decide +kernel⟩,
    ⟨run0, 0, by decide +kernel, by decide +kernel⟩,
    ⟨{ run0 with power := { run0.power with frozen := true } }, 0, by decide +kernel, by decide +kernel, by decide +kernel⟩⟩

theorem witness_registerWritesComplete :
    (∃ (s : State) (owner : Owner), s.reaches owner.val = true) ∧
    (∃ (s : State) (owner : Owner), s.accessRuns owner.val) :=
  ⟨⟨run0, 0, by decide +kernel⟩,
    ⟨run0, 0, by decide +kernel⟩⟩

theorem witness_idleStepCountsOneUnitOfTime :
    (∃ (s : State), s.pending = [] ∧ s.power.aonOn = true ∧ s.power.porHeld = false ∧ s.canonical) ∧
    (∃ (s : State), s.pending = [] ∧ (s.power.aonOn = false ∨ s.power.porHeld = true)) :=
  ⟨⟨run0, by decide +kernel, by decide +kernel, by decide +kernel, by decide +kernel⟩,
    ⟨{ run0 with power := { run0.power with aonOn := false } }, by decide +kernel, by decide +kernel⟩⟩

/-! ### The statements whose hypotheses are not of that shape -/

theorem witness_vinAboveRangeStopsThePart :
    ∃ (s : State) (vin : Fin 65536), s.running = true ∧ 60000 < vin.val ∧ exec (.powerMeasure 0 vin 0) s = .fault .vinAboveRange :=
  ⟨run0, 60001, by decide +kernel, by decide, by rfl⟩

theorem witness_everyOtherCommandGoesOn :
    ∃ (c : Instr) (s : State), c = .powerMeasure 0 60000 0 ∧ s.running = true ∧
      (∀ watts vin temp : Fin 65536, c = .powerMeasure watts vin temp → s.running = true → vin.val ≤ 60000) :=
  ⟨.powerMeasure 0 60000 0, run0, rfl, by decide +kernel, by
    intro w v t h _
    injection h with _ hv _
    subst hv
    decide⟩

theorem witness_escalationSetsAllLimitsOrNone :
    (∃ (s : State) (a b c d e f : Fin 65536), s.running = true ∧ s.canonical ∧ (2 ≤ a.val ∧ a.val ≤ 64) ∧ (1 ≤ b.val ∧ b.val ≤ 600)
      ∧ (4 ≤ c.val ∧ c.val ≤ 256) ∧ (10 ≤ d.val ∧ d.val ≤ 3600) ∧ (2 ≤ e.val ∧ e.val ≤ 16) ∧ (60 ≤ f.val ∧ f.val ≤ 86400)) ∧
    (∃ (s : State) (a b c d e f : Fin 65536), s.running = true ∧
      ¬ ((2 ≤ a.val ∧ a.val ≤ 64) ∧ (1 ≤ b.val ∧ b.val ≤ 600) ∧ (4 ≤ c.val ∧ c.val ≤ 256) ∧ (10 ≤ d.val ∧ d.val ≤ 3600)
        ∧ (2 ≤ e.val ∧ e.val ≤ 16) ∧ (60 ≤ f.val ∧ f.val ≤ 86400))) :=
  ⟨⟨run0, 64, 600, 4, 10, 16, 86400, by decide +kernel⟩, ⟨run0, 64, 600, 4, 10, 16, 59, by decide +kernel⟩⟩

/-- The holder of CTL_SEM, with a command in the journal. -/
def semHeld : State := { run0.setFld F.CTL_SEM_OWNER 0 1 with fw := { FwSt.init with journal := [entry0] } }

theorem witness_silClearDiscardsEveryRecord :
    (∃ (s : State) (r : FwRef) (e : JournalEntry), s.running = true ∧ s.canonical ∧ s.entryOf r = some e ∧ e.owner ≠ 0 ∧ e.owner ≠ 4
      ∧ s.fld F.CTL_SEM_OWNER = e.owner) ∧
    (∃ (s t : State) (r : FwRef) (e : JournalEntry) (x : SilRec) (owner : Owner) (v : Word), s.running = true ∧ s.canonical
      ∧ s.entryOf r = some e ∧ e.owner ≠ 0 ∧ e.owner ≠ 4 ∧ s.fld F.CTL_SEM_OWNER = e.owner ∧ s.fld F.SIL_CFG_MIN_SEVERITY = 0
      ∧ s.sil.rate.2 < 16 ∧ exec (.silClear r) s = .next t ∧ t.sil.ring = [x] ∧ t.reaches owner.val = true ∧ getBits v 32 1 = 0
      ∧ getBits v 0 32 < x.seq) :=
  ⟨⟨semHeld, ref0, entry0, by decide +kernel⟩,
   ⟨semHeld.setFld F.SIL_STATUS_NEXT_SEQ 0 7, _, ref0, entry0, _, 0, 0, by decide +kernel, by decide +kernel, by decide +kernel,
    by decide, by decide, by decide +kernel, by decide +kernel, by decide +kernel, rfl, rfl, by decide +kernel, by decide, by decide +kernel⟩⟩

/-- Queue 0 of context 0, RUNNING with a ring of 16 slots. -/
def que0 : State := (open0.setFld F.QUE_CFG_STATE 0 1).setFld F.QUE_CFG_RING_LOG 0 4
def dbPkt (arg : Word) : Packet :=
  { Packet.blank with kind := 0x04, arg := arg, e2eCrc := e2eCrcOf { Packet.blank with kind := 0x04, arg := arg } }

theorem witness_doorbellChecksAndDuplicates :
    (∃ (s : State) (q : Queue), s.running = true ∧ s.fld F.QUE_CFG_STATE q.val = 0) ∧
    (∃ (s : State) (q : Queue) (chip : Chip) (port : Port) (ctx : Ctx), s.running = true ∧ s.fld F.QUE_CFG_STATE q.val ≠ 0
      ∧ (chip.val ≠ s.chip ∨ ctx.val ≠ s.fld F.QUE_CFG_CONTEXT q.val ∨ s.binding ctx.val port.val = none)) ∧
    (∃ (s : State) (q : Queue) (i : BitVec 32), s.running = true ∧ s.dbBound .controlNode q.val = true
      ∧ 2 ^ s.ringLog q.val < (i - BitVec.ofNat 32 (s.head q.val)).toInt
      ∧ (BitVec.ofNat 32 (s.cqTail q.val) - i).toInt < 0 ∧ s.fld F.QUE_CFG_STATE q.val ≠ 2) ∧
    (∃ (s : State) (q : Queue), s.running = true ∧ s.canonical ∧ s.dbBound .controlNode q.val = true
      ∧ (BitVec.ofNat 32 (s.tail q.val) - BitVec.ofNat 32 (s.head q.val)).toInt ≤ 2 ^ s.ringLog q.val
      ∧ 0 ≤ (BitVec.ofNat 32 (s.cqTail q.val) - BitVec.ofNat 32 (s.cqHead q.val)).toInt) ∧
    (∃ (s : State) (q : Nat) (v : Word), getBits v 46 2 = 3 ∧ s.dbBound .controlNode q = true) ∧
    (∃ (s : State) (q : Nat) (v : Word), getBits v 46 2 = 3 ∧ s.dbBound .controlNode q = false) ∧
    (∃ (s : State) (u : Nat) (p : Packet), p.truncated = false ∧ e2eCrcOf p = p.e2eCrc ∧ p.kind = 0x04 ∧ getBits p.arg 46 2 = 3
      ∧ p.ackSoon = false ∧ arrivalOf (s.receivedOf (receivedKey u p)) p.seq = .fresh
      ∧ s.dbBound (.endpoint p.srcChip (Fin.ofNat 128 p.srcUnit.val) p.ctx p.epoch) (getBits p.arg 32 14) = false) ∧
    (∃ (s : State) (u : Nat) (p : Packet), p.truncated = false ∧ e2eCrcOf p = p.e2eCrc ∧ p.kind = 0x04 ∧ getBits p.arg 46 2 = 3
      ∧ p.ackSoon = false ∧ arrivalOf (s.receivedOf (receivedKey u p)) p.seq = .fresh
      ∧ s.dbBound (.endpoint p.srcChip (Fin.ofNat 128 p.srcUnit.val) p.ctx p.epoch) (getBits p.arg 32 14) = true) :=
  ⟨⟨run0, 0, by decide +kernel⟩, ⟨que0, 0, 0, 0, 0, by decide +kernel⟩, ⟨que0, 0, 17, by decide +kernel⟩, ⟨que0, 0, by decide +kernel⟩,
   ⟨que0, 0, 0xC00000000000, by decide +kernel⟩, ⟨que0, 1, 0xC00000000000, by decide +kernel⟩,
   ⟨que0, 0, dbPkt 0xC00100000000, by decide +kernel⟩,
   ⟨((que0.setFld F.MGR_MAP_VALID 0 1).setFld F.MGR_MAP_CHIP 0 0).setCtx 0 { CtxSt.init with bindings := [⟨0, 0, false, false⟩] }, 0,
    dbPkt 0xC00000000000, by decide +kernel⟩⟩

theorem witness_managerMessagesActOnce :
    (∃ (c : Instr) (h : MsgHdr) (s : State), c.managerMsg = some h ∧ s.running = true ∧ s.flag F.MGR_ROLE_ACTIVE = false
      ∧ h.epoch = s.fld F.TWN_AGENT_HIGHEST_EPOCH ∧ h.src.val = s.fld F.TWN_AGENT_MANAGER_CHIP ∧ s.isRepeat h = true
      ∧ c.managerAsks = true) ∧
    (∃ (c : Instr) (h : MsgHdr) (s : State), c.managerMsg = some h ∧ s.running = true ∧ s.flag F.MGR_ROLE_ACTIVE = false
      ∧ h.epoch = s.fld F.TWN_AGENT_HIGHEST_EPOCH ∧ h.src.val = s.fld F.TWN_AGENT_MANAGER_CHIP ∧ s.isRepeat h = true
      ∧ c.managerAsks = false) ∧
    (∃ (c : Instr) (h : MsgHdr) (s : State), c.managerMsg = some h ∧ s.running = true ∧ s.flag F.MGR_ROLE_ACTIVE = false
      ∧ h.epoch < s.fld F.TWN_AGENT_HIGHEST_EPOCH) ∧
    (∃ (c : Instr) (h : MsgHdr) (s : State), c.managerMsg = some h ∧ s.running = true ∧ s.flag F.MGR_ROLE_ACTIVE = false
      ∧ h.epoch = s.fld F.TWN_AGENT_HIGHEST_EPOCH ∧ h.src.val ≠ s.fld F.TWN_AGENT_MANAGER_CHIP) :=
  ⟨⟨.tableWriteReceive hdr0 Bank.empty, hdr0, fol.noteSeen hdr0, by decide +kernel⟩,
   ⟨.swapReceive hdr0 0, hdr0, fol.noteSeen hdr0, by decide +kernel⟩,
   ⟨.swapReceive hdr0 0, hdr0, fol.setFld F.TWN_AGENT_HIGHEST_EPOCH 0 1, by decide +kernel⟩,
   ⟨.swapReceive { hdr0 with src := 1 } 0, { hdr0 with src := 1 }, fol, by decide +kernel⟩⟩

theorem witness_higherEpochFencesTheManager :
    ∃ (s : State) (h : MsgHdr), s.running = true ∧ s.canonical ∧ s.flag F.MGR_ROLE_ACTIVE = true ∧ s.fld F.TWN_STATUS_EPOCH < h.epoch :=
  ⟨mon, { hdr0 with epoch := 1 }, by decide +kernel⟩

theorem witness_managerCommandsNeedTheActiveManager :
    (∃ (c : Instr) (r : FwRef) (s : State), c.managerCommand = some r ∧ s.running = true ∧ s.isManagerChip = false) ∧
    (∃ (c : Instr) (r : FwRef) (s : State), c.managerCommand = some r ∧ s.running = true ∧ s.isManagerChip = true
      ∧ s.isActive = false) :=
  ⟨⟨.routeStatus ref0, ref0, run0, by decide +kernel⟩, ⟨.routeStatus ref0, ref0, mchip, by decide +kernel⟩⟩

theorem witness_stoppedPartKeepsItsState : ∃ (c : Instr) (s : State), c.needsClocks = true ∧ s.running = false :=
  ⟨.wingbeatTick, State.reset, by decide +kernel⟩

theorem witness_integerReductionsDoNotDependOnOrder :
    (∃ op code bound a b : Nat, isInt code = true ∧ op ∈ [RO_SUM, RO_MIN, RO_MAX, RO_AND, RO_OR, RO_XOR]
      ∧ bound = 2 ^ (if op = RO_SUM then 64 else elemBits code) ∧ a < bound ∧ b < bound ∧ a + 1 = bound ∧ b = 1) ∧
    (∃ (x y z : Nat) (l m : List Nat), (∀ v ∈ x :: l, v < 2 ^ 64) ∧ (x :: l).Perm (y :: m) ∧ l = [z] ∧ x ≠ y) ∧
    (∃ outF : Nat, isInt outF = true ∧ outF = 0x14) :=
  ⟨⟨RO_SUM, 0x13, 2 ^ 64, 2 ^ 64 - 1, 1, by decide⟩, ⟨0, 5, 5, [5], [0], by decide, List.Perm.swap _ _ _, rfl, by decide⟩,
   ⟨0x14, by decide⟩⟩

theorem witness_floatMinMaxFollowOneOrder :
    (∃ a b c : Nat, a < 2 ^ 32 ∧ b < 2 ^ 32 ∧ c < 2 ^ 32 ∧ f32Nan a = true ∧ f32Nan b = false) ∧
    (∃ a b : Nat, a < 2 ^ 32 ∧ b < 2 ^ 32 ∧ f32Nan a = false ∧ f32Nan b = false ∧ f32Key a < f32Key b) ∧
    (∃ a b : Nat, a < 2 ^ 32 ∧ b < 2 ^ 32 ∧ f32Key a = f32Key b) ∧
    (∃ a : Nat, a < 2 ^ 32 ∧ f32Nan a = false ∧ a < 0x7F800000) ∧ (∃ a : Nat, a < 2 ^ 32 ∧ f32Nan a = false ∧ 0x80000000 ≤ a) :=
  ⟨⟨0xFFFFFFFF, 0, 0, by decide⟩, ⟨0x80000000, 0, by decide⟩, ⟨0, 0, by decide⟩, ⟨0x7F7FFFFF, by decide⟩, ⟨0x80000000, by decide⟩⟩

theorem witness_argReductionsPreferTheSmallerIndex :
    (∃ code a b c : Nat, code = 0x20 ∧ a < 2 ^ 64 ∧ b < 2 ^ 64 ∧ c < 2 ^ 64
      ∧ (∀ x ∈ [a, b, c], code = 0x20 → f32Nan (x % 2 ^ 32) = true → x % 2 ^ 32 = canonNan)
      ∧ f32Nan (a % 2 ^ 32) = true ∧ f32Nan (b % 2 ^ 32) = false) ∧
    (∃ code a b c : Nat, code = 0x20 ∧ a < 2 ^ 64 ∧ b < 2 ^ 64 ∧ c < 2 ^ 64
      ∧ (∀ x ∈ [a, b, c], code = 0x20 → f32Nan (x % 2 ^ 32) = true → x % 2 ^ 32 = canonNan)
      ∧ f32Nan (a % 2 ^ 32) = false ∧ f32Nan (b % 2 ^ 32) = false ∧ f32Key (a % 2 ^ 32) < f32Key (b % 2 ^ 32)) ∧
    (∃ a b : Nat, a < 2 ^ 64 ∧ b < 2 ^ 64 ∧ toSigned 32 (a % 2 ^ 32) < toSigned 32 (b % 2 ^ 32)) ∧
    (∃ a b : Nat, a < 2 ^ 64 ∧ b < 2 ^ 64 ∧ a % 2 ^ 32 = b % 2 ^ 32 ∧ a ≠ b) :=
  ⟨⟨0x20, canonNan, 0, 0, by decide⟩, ⟨0x20, 0, 1, 2, by decide⟩, ⟨0x80000000, 0x7FFFFFFF, by decide⟩,
   ⟨2 ^ 32, 0, by decide⟩⟩

theorem witness_fp32DecodingIsExact : (∃ w : Nat, w < 2 ^ 32 ∧ f32Nan w = true) ∧ ∃ w : Nat, w < 2 ^ 32 ∧ f32Nan w = false :=
  ⟨⟨2 ^ 32 - 1, by decide⟩, ⟨1, by decide⟩⟩

theorem witness_elementPackingRoundTrips :
    ∃ (code : Nat) (xs : List Nat), fmtKnown code = true ∧ (xs.length * elemBits code) % 8 = 0 ∧ (∀ x ∈ xs, x < 2 ^ elemBits code)
      ∧ xs.length = 4 :=
  ⟨0x0A, [0, 1, 62, 63], by decide⟩

theorem witness_fixedContributionsAreWithinHalfAQuantum :
    (∃ (w code : Nat) (neg : Bool) (m : Nat) (e : Int), w < 2 ^ 32 ∧ 1 ≤ code ∧ code ≤ 254 ∧ uncoveredBy code w = false
      ∧ ofF32 w = .num neg m e ∧ m ≠ 0) ∧
    (∃ (code : Nat) (xs : List Nat), ∃ x ∈ xs, uncoveredBy code x = true) :=
  ⟨⟨0x3F800000, 127, _, _, _, by decide, by decide, by decide, by decide +kernel, rfl, by decide⟩,
   ⟨1, [0x7F800000], 0x7F800000, by decide⟩⟩

theorem witness_fixedAccordSumsDoNotDependOnOrder :
    ∃ (n : Nat) (ok : List Nat → Prop) (x y : List Nat) (l m : List (List Nat)),
      (∀ b : List Nat, ok b ↔ b.length = n ∧ ∀ v ∈ b, v < 2 ^ 64 ∧ (v = marker ∨ (toSigned 64 v).natAbs ≤ 2 ^ 46))
      ∧ (∀ b ∈ x :: l ++ y :: m, ok b) ∧ (x :: l).Perm (y :: m) ∧ l.length + m.length + 2 ≤ 65536 ∧ x ≠ y :=
  ⟨1, fun b => b.length = 1 ∧ ∀ v ∈ b, v < 2 ^ 64 ∧ (v = marker ∨ (toSigned 64 v).natAbs ≤ 2 ^ 46), [marker], [2 ^ 46], [[2 ^ 46]],
   [[marker]], fun _ => Iff.rfl, by decide, List.Perm.swap _ _ _, by decide, by decide⟩

theorem witness_residueIsLinear :
    (∃ q : List Nat, marker ∉ q ∧ q ≠ []) ∧
    (∃ a b : List Nat, a.length = b.length ∧ a ≠ [] ∧ ∀ v ∈ a ++ b, v < 2 ^ 64 ∧ (toSigned 64 v).natAbs ≤ 2 ^ 61) :=
  ⟨⟨[1, 2 ^ 64 - 1], by decide⟩, ⟨[2 ^ 61], [2 ^ 64 - 2 ^ 61], by decide⟩⟩

theorem witness_everyCommandKeepsTheRest :
    ∃ (c : Instr) (s t : State) (p : Part) (r : RegName), exec c s = .next t ∧ p ∉ c.parts ∧ r ∉ c.regs ∧ t ≠ s :=
  ⟨.wbLength ref0 0, run0, _, .mem, .FT_COUNT, rfl, by decide +kernel, by decide +kernel, by decide +kernel⟩

theorem witness_everyStepKeepsCanonicalForm : ∃ s t : State, s.canonical ∧ step s = .next t ∧ t ≠ s :=
  ⟨run0, _, by decide +kernel, rfl, by decide +kernel⟩

/-- A frozen part, and one that may be reset. -/
def froze : State := { run0 with power := { run0.power with frozen := true } }

theorem witness_aFreezeEndsOnlyByResetOrTrip :
    (∃ (c : Instr) (s t : State), s.canonical ∧ s.power.frozen = true ∧ exec c s = .next t ∧ t.power.frozen = false) ∧
    (∃ (owner : Owner) (s : State), s.power.frozen = true ∧ s.reaches owner.val = true ∧ s.asleep = false) ∧
    (∃ s : State, s.power.frozen = true ∧ s.power.aonOn = true ∧ s.power.porHeld = false) ∧
    (∃ s t : State, s.power.frozen = true ∧ exec .hardwareTrip s = .next t ∧ t ≠ s) ∧
    (∃ (c : Instr) (s t : State), s.power.frozen = false ∧ exec c s = .next t ∧ t.power.frozen = true) :=
  ⟨⟨.chrRelease 1, froze, _, by decide +kernel, rfl, rfl, by decide +kernel⟩, ⟨1, froze, by decide +kernel⟩,
   ⟨froze, by decide +kernel⟩, ⟨froze, _, rfl, rfl, by decide +kernel⟩,
   ⟨.freezeDelayEnd, { run0 with chr := { ChrSt.init with trigAt := some 0 } }, _, rfl, rfl, by decide +kernel⟩⟩

/-- Context 0 on chip 0xFFFF with page 0 in frame 0, and a WRITE of one granule to it. -/
def paged : State := open0.setCtx 0 { CtxSt.init with pages := [⟨0, 0, 15⟩] }
def writePkt : Packet :=
  { Packet.blank with kind := 0x01, payFlits := 1, payload := List.replicate 64 9, srcChip := 0xFFFF, srcUnit := 0x80 }

theorem witness_poolWritesLandInTheirBytesOnly :
    (∃ (wing : Wing) (p : Packet) (s t : State) (b i : Nat) (x : Byte), exec (.poolWriteRequest wing p) s = .next t ∧ s.canonical
      ∧ s.running = true ∧ p.kind.val = 0x01 ∧ s.isRefused (0x89 + wing.val) p = false
      ∧ arrivalOf (s.receivedOf (receivedKey (0x89 + wing.val) p)) p.seq = .fresh ∧ s.judgeWrite p = .ok b
      ∧ i < p.payFlits.val * 64 ∧ p.payload[i]? = some x) ∧
    (∃ (wing : Wing) (p : Packet) (s t : State) (st : Nat), exec (.poolWriteRequest wing p) s = .next t ∧ s.judgeWrite p = .error st) ∧
    (∃ (wing : Wing) (p : Packet) (s t : State), exec (.poolWriteRequest wing p) s = .next t
      ∧ arrivalOf (s.receivedOf (receivedKey (0x89 + wing.val) p)) p.seq ≠ .fresh ∧ t ≠ s) :=
  ⟨⟨0, writePkt, paged, _, 0, 63, 9, rfl, by decide +kernel, by decide +kernel, by decide, by decide +kernel, by decide +kernel, by rfl,
    by decide, by decide⟩,
   ⟨0, writePkt, open0, _, _, rfl, by rfl⟩, ⟨0, { writePkt with seq := 512 }, paged, _, rfl, by decide +kernel, by decide +kernel⟩⟩

theorem witness_contextWritesStayInMappedPages :
    ∃ (s : State) (c off : Nat) (bs : List Byte) (a : Nat), (∀ i : Nat, i < bs.length → s.phys c (off + i) ≠ some a) ∧ s.canonical
      ∧ (∀ i j : Nat, i < bs.length → j < bs.length → s.phys c (off + i) = s.phys c (off + j) → i = j)
      ∧ (∀ i : Nat, i < bs.length → (s.phys c (off + i)).isSome = true) ∧ bs ≠ [] :=
  ⟨paged, 0, 2097151, [7], 0, by decide +kernel, by decide +kernel, by
    intro i j hi hj _
    simp only [List.length_singleton] at hi hj
    omega, by decide +kernel, by decide⟩

/-! ### Ill-formed commands are refused -/

/-- Each part of the checks of a message header and of a packet refuses what breaks it. -/
theorem test_wf_parts :
    (MsgHdr.wf ⟨0, 2 ^ 32, 0, false⟩ || MsgHdr.wf ⟨0, 0, 2 ^ 32, false⟩
      || Packet.wf { Packet.blank with path := List.replicate 13 0 } || Packet.wf { Packet.blank with payload := [0] }
      || Packet.wf { Packet.blank with payFlits := 1, payload := List.replicate 63 0 }
      || Packet.wf { Packet.blank with truncated := true, payload := [0] }
      || AntFrame.wf { frame0 with len := 2 ^ 32 } || BulkDgram.wf { dgram0 with len := 2 ^ 32 }
      || EthFrame.wf ⟨.echo, 63, true, none, 0⟩ || DumpSec.wf ⟨256, 0, 0, 0, 0, 0, []⟩ || DumpSec.wf ⟨0, 256, 0, 0, 0, 0, []⟩
      || DumpSec.wf ⟨0, 0, 256, 0, 0, 0, []⟩ || DumpSec.wf ⟨0, 0, 0, 65536, 0, 0, []⟩ || DumpSec.wf ⟨0, 0, 0, 0, 1024, 0, []⟩
      || RemoteRead.wf ⟨0, 256, []⟩ || StartTest.wf ⟨[], 0, [], [], [0, 0, 0, 0]⟩ || StartTest.wf ⟨[0, 0, 0, 0], 0, [], [], []⟩
      || pieceOk 1 1 || pieceOk 0 (2 ^ 32)) = false := by decide +kernel

theorem test_wf_lengths :
    (AntFrame.wf { frame0 with data := List.replicate 4161 0 } || BulkDgram.wf { dgram0 with data := List.replicate 8193 0 }) = false := by
  decide +kernel

/-- A header of an epoch that does not fit. -/
def badHdr : MsgHdr := ⟨0, 2 ^ 32, 0, false⟩
/-- A packet with a payload that its header does not announce. -/
def badPkt : Packet := { Packet.blank with payload := [0] }
def badRead : RemoteRead := ⟨0, 256, []⟩

theorem test_wf_refuses_headers :
    ([.wbChangeReceive badHdr (.ack 0), .wbBaseReceive badHdr ⟨0, 0, 0, 0, 0, 0⟩, .linkLossReceive badHdr 0 0 0,
      .tableWriteReceive badHdr Bank.empty, .tableAckReceive badHdr none, .stopReceive badHdr [] 0, .drainZeroReceive badHdr,
      .swapReceive badHdr 0, .nbrReportReceive badHdr 0 0 ident0, .nbrVerdictReceive badHdr 0 false, .mapUpdateReceive badHdr 0 1 map0,
      .mapUpdateReceive hdr0 1 1 map0, .agentStatusReceive badHdr 0 0 (List.replicate 128 (0, 0)), .agentStatusReceive hdr0 0 0 [],
      .faultReceive badHdr (.alive 0), .sliceTableReceive badHdr sliceEntry0, .heartbeatReceive badHdr false beat0,
      .epochProbeReceive badHdr, .epochReplyReceive badHdr 0 0 0 0 (List.replicate 128 (0, 0)), .epochReplyReceive hdr0 0 0 0 0 [],
      .stateDeltaReceive badHdr 0 0 1 true recs0, .stateDeltaReceive hdr0 0 1 1 true recs0, .snapshotReceive badHdr 0 0 1 true recs0,
      .snapshotReceive hdr0 0 1 1 true recs0, .snapReqReceive badHdr, .deltaAckReceive badHdr 0, .takeoverReceive badHdr 0 0 0,
      .takeoverReceive hdr0 (2 ^ 32) 0 0, .takebackReceive badHdr 0 false, .bqLoadCheck badHdr (.answer 0 none),
      .bqCommitReceive badHdr 0 none [], .bqCommitReceive hdr0 0 none [badRead], .fwOfferReceive badHdr 0 0 0 0 0,
      .fwOfferReceive hdr0 0 0 25165825 6243 0, .fwOfferReceive hdr0 0 0 4033 1 0, .fwPieceReceive badHdr 0 0 (List.replicate 4032 0) 0,
      .fwPieceReceive hdr0 6242 0 (List.replicate 4032 0) 0, .fwPieceReceive hdr0 0 0 [] 0, .fwNeedReceive badHdr 0 0 0,
      .fwNeedReceive hdr0 0 6242 1, .fwResultReceive badHdr 0 0] : List Instr).all (fun i => !i.wf) = true := by decide +kernel

theorem test_wf_refuses_packets :
    ([.packetForward 0 badPkt, .packetDeliver 0 (.unit 0) badPkt, .edgeIngress 0 badPkt, .ackReceive 0 badPkt,
      .grantReceive 0 badPkt 0 0 0, .grantReceive 0 Packet.blank (2 ^ 64) 0 0, .grantReceive 0 Packet.blank 0 (2 ^ 32) 0,
      .grantRequestReceive 0 badPkt [] 0, .grantRequestReceive 0 Packet.blank [] (2 ^ 32), .grantRefuseReceive 0 badPkt,
      .collUpReceive 0 badPkt [], .collDownReceive 0 badPkt, .skipperReceive 0 badPkt, .poolWriteRequest 0 badPkt,
      .poolReadRequest 0 badPkt, .readRespReceive 0 badPkt, .windowRequest 0 badPkt] : List Instr).all (fun i => !i.wf) = true := by
  decide +kernel

theorem test_wf_refuses_the_rest :
    ([.laneMapReceive 0 [0] false, .berWindowEnd 0 [] 0 0 0, .qualPhase1End 0 [] 0, .serviceFrameReceive 0 ⟨.echo, 63, true, none, 0⟩,
      .bulkDatagramReceive 0 { dgram0 with len := 2 ^ 32 } true, .bulkMgmtDatagram 0 { dgram0 with len := 2 ^ 32 } true,
      .flitReceive 0 0 [], .creditAuditReceive 0 [], .creditAuditReceive 0 [65536, 0, 0, 0, 0, 0, 0, 0],
      .ctxCreate ref0 0 0 65537 0 false, .coll 0 0 [badRead], .skip 0 0 [badRead], .dma 0 0 [badRead], .op 0 0 [badRead],
      .bqStart 0 [badRead], .stepRun 0 0 [badRead], .opStepStart 0 0 [badRead], .tileReload 0 0 0 [badRead],
      .atlBufferGrant 0 0 [badRead], .descriptorFinish 0 0 [badRead], .descriptorRefused 0 0 [badRead], .eccCorrected 897024,
      .eccUncorrectable 897024 0 (List.replicate 512 0), .eccUncorrectable 0 0 [], .hostResponseReceive 0 true { frame0 with len := 2 ^ 32 },
      .readoutHalfReady 0 [⟨256, 0, 0, 0, 0, 0, []⟩] false, .readoutHang ⟨256, 0, 0, 0, 0, 0, []⟩,
      .stage4Done ⟨[], 0, [], [], []⟩, .laneLock 0 [0, 0]] : List Instr).all (fun i => !i.wf) = true := by decide +kernel

/-! ### Results the spec works out -/

/-- Chapter 8, worked example: three members reduce one block in FP32; the final code is 151. -/
def fixIn : List (List Nat) :=
  [[0x40D00000, 0x4B800000], [0xBEC00000, 0x3F800000], [0x29400000, 0xCB800000]].map fun m => m.map fun w => toFixed w 151

theorem test_fixed_conversion :
    fixIn = [[13631488, 35184372088832], [2 ^ 64 - 786432, 2097152], [0, 2 ^ 64 - 35184372088832]] := by decide +kernel

theorem test_fixed_sum_and_output :
    fixIn.foldl fixAdd [0, 0] = [12845056, 2097152]
    ∧ convertStream 0x00 0 false (fun _ => 0) (unfixStream [151] [12845056, 2097152]).1
        = leBytes 4 0x40C40000 ++ leBytes 4 0x3F800000 := by decide +kernel

theorem test_residues :
    fixIn.map residueOf = [70368757809152, 3407872, 2305772640469516287] ∧ residueOf [12845056, 2097152] = 17039360 := by decide +kernel

/-- The same example in ordered mode: 2^24 + 1 rounds to the even 2^24 (R167). -/
theorem test_ordered_sum : combine RO_SUM 0x00 0x4B800000 0x3F800000 = 0x4B800000 := by decide +kernel

/-- Chapter 13, worked example: the kinds of transform. -/
theorem test_interleave :
    ((xformRow { desc0 with xform := 0x01, xsize := 1, xchan := 4 } ((List.range 64).map (BitVec.ofNat 8))).take 18)
      = ((List.range 16).map fun k => BitVec.ofNat 8 (4 * k)) ++ [0x01, 0x05] := by decide +kernel

theorem test_bitplanes :
    let out := xformRow { desc0 with xform := 0x03, xsize := 4 } ([0x21, 0x43, 0x65, 0x87] ++ List.replicate 60 0)
    (out.getD 0 0, out.getD 16 0, out.getD 32 0, out.getD 48 0) = ((0x55 : Byte), (0x66 : Byte), (0x78 : Byte), (0x80 : Byte))
    ∧ xformRow { desc0 with xform := 0x04, xsize := 4 } out = [0x21, 0x43, 0x65, 0x87] ++ List.replicate 60 0 := by decide +kernel

theorem test_swaps :
    xformRow { desc0 with xform := 0x10, xsize := 8 } [1, 2, 3, 4, 5, 6, 7, 8] = [8, 7, 6, 5, 4, 3, 2, 1]
    ∧ xformRow { desc0 with xform := 0x11, xsize := 8 } [1, 2, 3, 4, 5, 6, 7, 8] = [7, 8, 5, 6, 3, 4, 1, 2]
    ∧ xformRow { desc0 with xform := 0x11, xsize := 4 } [1, 2, 3, 4, 5, 6, 7, 8] = [3, 4, 1, 2, 7, 8, 5, 6] := by decide +kernel

/-- Table 22.8: addresses of registers. -/
theorem test_addresses :
    windowOf 0x000180060008 = .wing 2 0x60008 ∧ wingReg 2 0x60008 = some (.PRT_STATUS, 70)
    ∧ windowOf 0x000140A00158 = .wing 1 0xA00158 ∧ wingReg 1 0xA00158 = some (.QUE_INDEX, 0x1005)
    ∧ wingReg 3 0x665000 = some (.HWK_CORE_STATUS, 3 * 104 + 101) ∧ thoraxReg 0x200470 = some (.MBX_ACK, 35)
    ∧ thoraxReg 0x800048 = some (.AON_CMP_VALUE, 4) ∧ thoraxReg 0xB00328 = some (.ATS_CQ_INDEX, 12)
    ∧ windowOf 0x020D8F800000 = .pool (552060 * 2097152) ∧ wingOfFrame 552060 = 2 := by decide +kernel

/-- Chapter 12, worked example: one embedding row. -/
theorem test_embedding_row :
    addrChip (0x0107000020000000 + 12345678 * 512) = 0x0107 ∧ isWindow (0x0107000020000000 + 12345678 * 512) = false
    ∧ pageOf (addrOffset (0x0107000020000000 + 12345678 * 512)) = 3270 ∧ addrUnit (0x0107000020000000 + 12345678 * 512) = 0x8B
    ∧ pageByte (addrOffset (0x0107000020000000 + 12345678 * 512)) = 171008 := by decide +kernel

/-- Chapter 4, worked example: the path of a DATA packet to port 12 of chip 0x0107. -/
theorem test_path :
    (composePath [⟨40, 0x00E5⟩, ⟨75, 0x0107⟩] 0x0C).map (·.val) = [0x28, 0x4B, 0xFF, 0x0C] := by decide +kernel

/-- R316: EVT_LINK for port 75 of chip 0x00E5. -/
theorem test_event_record :
    let b := eventBytes ⟨0x01, 0x42, 7, 0, [(0x00E5, 2), (75, 1)]⟩
    b.length = 32 ∧ b.take 1 = [0x01] ∧ (b.drop 16).take 3 = [0xE5, 0x00, 0x4B] := by decide +kernel

/-- Chapter 10, worked example: rows kept and their offsets at destinations 1 and 3. -/
theorem test_capacity :
    capacityRule 4 [3, 3, 1, 3] = [(3, 0), (1, 3), (0, 6), (0, 7)] ∧ (capacityRule 4 [1, 0, 2, 0]).map (·.1) = [1, 0, 2, 0] := by
  decide +kernel

/-- Chapter 3, worked example: a direction that passes, and one whose worst lane lies above 1 in 100,000. -/
theorem test_qualification :
    qualVerdict 3190000 1062500000000 [0, 0, 208000, 1100, 5, 0, 0, 0, 0, 0, 0, 0, 0, 0, 0, 0] 0 1562500000 = 0
    ∧ qualVerdict 10625001 1062500000000 [0, 0, 208000, 1100, 5, 0, 0, 0, 0, 0, 0, 0, 0, 0, 0, 0] 0 1562500000 = 1 := by decide +kernel

/-- Chapter 18, worked example: the eighth reset of context 0x3A1, at 9.9 s and at 10.7 s after the seven before it. -/
def resetsAt (now : Nat) : State :=
  ((open0.setFld F.QUE_CTX_STATUS_STATE 0x3A1 2).setReg .FT_COUNT 0 (BitVec.ofNat 64 now)).setCtx 0x3A1 { CtxSt.init with
    resets := [800000000, 3040000000, 4800000000, 7040000000, 9280000000, 11360000000, 13760000000] }

theorem test_context_barred :
    (((resetsAt 15840000000).countReset 0x3A1).ctx 0x3A1).bars = true
    ∧ (((resetsAt 17120000000).countReset 0x3A1).ctx 0x3A1).bars = false := by decide +kernel

/-- R26, R27: eight microseconds are 12,800 units, and the boundary of wingbeat 1 lies one wingbeat after the base. -/
theorem test_wingbeat : run0.lenFtu = 12800 ∧ run0.tickFtu 1 = 12800 := by decide +kernel

/-- R71, R68: the codes over the nine digits, as published for CRC-32C and for CRC-16 of these parameters. -/
theorem test_crc :
    crc32c [0x31, 0x32, 0x33, 0x34, 0x35, 0x36, 0x37, 0x38, 0x39] = 0xE3069283
    ∧ crc16 [0x31, 0x32, 0x33, 0x34, 0x35, 0x36, 0x37, 0x38, 0x39] = 0x29B1
    ∧ crc64 [0x31, 0x32, 0x33, 0x34, 0x35, 0x36, 0x37, 0x38, 0x39] = 0x6C40DF5F0B497347 := by decide +kernel

/-- R175: Philox4x32-10 of a zero counter and key, as published with the generator. -/
theorem test_philox : philox [0, 0, 0, 0] 0 0 = [0x6627E8D5, 0xE169C58D, 0xBC57AC4C, 0x9B00DBD8] := by decide +kernel

/-- R250, R256: a WRITE that a local endpoint's context may make lands at its frame. -/
theorem test_pool_write :
    (match exec (.poolWriteRequest 0 writePkt) paged with
      | .next t => (t.byteAt 0, t.byteAt 63, t.byteAt 64)
      | _ => (0, 0, 0)) = ((9 : Byte), (9 : Byte), (0 : Byte)) := by decide +kernel

/-- R144, R146: a SUBMIT moves TAIL, and a repeat of it changes nothing. -/
theorem test_submit :
    (match exec (.dbSubmit .controlNode 0 5) que0 with
      | .next t => t.tail 0
      | _ => 0) = 5
    ∧ (match exec (.dbSubmit .controlNode 0 17) que0 with
      | .next t => t.fld F.QUE_DROPS_DB_BAD_INDEX 0
      | _ => 0) = 1 := by decide +kernel

/-- One step takes the front command; with none waiting a unit of fabric time passes. -/
theorem test_step :
    (match step { run0 with pending := [.powerMeasure 100 54000 300] } with
      | .next t => (t.pending.length, t.ftu.toNat)
      | _ => (9, 9)) = (0, 0)
    ∧ (match step run0 with
      | .next t => t.ftu.toNat
      | _ => 9) = 1 := by decide +kernel


end Sys2Proof.Tests
end

section
/-! The frame of every command, read off the mask of what the command keeps. -/

namespace Sys2Proof.Machine

theorem Part.bit_inj {p q : Part} (h : p.bit = q.bit) : p = q := by
  have hc : p.ctorIdx = q.ctorIdx := Nat.add_left_cancel h
  rw [← Part.ofNat_ctorIdx p, hc, Part.ofNat_ctorIdx]

/-- The bits of registers lie below those of the parts. -/
theorem RegName.code_ne_bit (r : RegName) (p : Part) : r.code ≠ p.bit := by
  have hr := r.code_lt
  have hp : 300 ≤ p.bit := Nat.le_add_right 300 _
  omega

/-- A part that the list does not name has its bit clear. -/
theorem maskOf_part_clear {ps : List Part} {p : Part} (h : p ∉ ps) (rs : List RegName) :
    (maskOf ps rs).testBit p.bit = false := by
  rw [maskOf_bit, decide_eq_false_iff_not, List.mem_append, List.mem_map, List.mem_map]
  rintro (⟨q, hq, e⟩ | ⟨r, _, e⟩)
  · exact h (Part.bit_inj e ▸ hq)
  · exact r.code_ne_bit p e

/-- A register that the list does not name has its bit clear. -/
theorem maskOf_reg_clear {rs : List RegName} {r : RegName} (h : r ∉ rs) (ps : List Part) :
    (maskOf ps rs).testBit r.code = false := by
  rw [maskOf_bit, decide_eq_false_iff_not, List.mem_append, List.mem_map, List.mem_map]
  rintro (⟨p, _, e⟩ | ⟨q, hq, e⟩)
  · exact r.code_ne_bit p e.symm
  · exact h (RegName.code_inj e ▸ hq)

/-- A part whose bit is clear holds the same. -/
theorem Keeps.same {m : Nat} {s t : State} (h : Keeps m s t) (p : Part) (hp : m.testBit p.bit = false) : p.same s t := by
  cases p with
  | time => exact h.time hp
  | ports => exact h.ports hp
  | eps => exact h.eps hp
  | ctxs => exact h.ctxs hp
  | net => exact h.net hp
  | que => exact h.que hp
  | pool => exact h.pool hp
  | dma => exact h.dma hp
  | coll => exact h.coll hp
  | hawk => exact h.hawk hp
  | sec => exact h.sec hp
  | mem => exact h.mem hp
  | route => exact h.route hp
  | agent => exact h.agent hp
  | map => exact h.map hp
  | mgr => exact h.mgr hp
  | twin => exact h.twin hp
  | fw => exact h.fw hp
  | sil => exact h.sil hp
  | ants => exact h.ants hp
  | ins => exact h.ins hp
  | power => exact h.power hp
  | spares => exact h.spares hp
  | cocoon => exact h.cocoon hp
  | pins => exact h.pins hp
  | chr => exact h.chr hp
  | out => exact h.out hp
  | free => exact h.free hp

/-- Settles O55: the mask of the command's two lists bounds what it changes (`exec_keeps`), and what a list does not name has its bit
clear there. -/
theorem everyCommandKeepsTheRest : Obligations.everyCommandKeepsTheRest := by
  intro c s t h
  have hk : Keeps (maskOf c.parts c.regs) s t := exec_keeps h
  exact ⟨fun p hp => hk.same p (maskOf_part_clear hp c.regs), fun r hr i => hk.regs r i (maskOf_reg_clear hr c.parts), hk.pending⟩

end Sys2Proof.Machine
end

section
/-! The commands of register writes, and of locks, mailboxes and the firmware, from the states that their statements name. -/

namespace Sys2Proof.Machine

/-- The lock holds the number written, and the release frees it. -/
theorem State.release_held {s : State} {f : Fld} {i : Nat} {value : Word} (h : s.fld f i = getBits value f.lo f.width) :
    s.release f i value = (s.setFld f i 0, ST_OK, 0) := by
  rw [State.release, if_pos h]

/-- Settles O34: an access that reaches the part is answered from `State.busWrite`, and the CLEAR of a slice from `State.clearSlice`. -/
theorem registerWritesComplete : Obligations.registerWritesComplete := by
  refine ⟨?registerWrite, ?acdSliceClear⟩
  case registerWrite =>
    intro s owner addr value h
    show execRegisterWrite owner addr value s = _
    rw [execRegisterWrite, if_neg (by simp only [h, Bool.true_eq_false, not_false_eq_true])]
  case acdSliceClear =>
    intro s owner slice h
    show execAcdSliceClear owner slice s = _
    exact accessBy_runs h _ _

/-- Settles O27: each command's gate opens by the laws of `accessBy`, `act` and the messages, and the branch that its hypotheses name
is the effect written. -/
theorem mailboxAndFirmwareCommandsComplete : Obligations.mailboxAndFirmwareCommandsComplete := by
  refine ⟨?ctlSemRead, ?ctlSemRelease, ?mbxLockRead, ?mbxLockRelease, ?mbxPost, ?mbxAcknowledge, ?ownerRestart, ?fwCommandAccept,
    ?fwStage, ?fwBroadcast, ?fwBroadcastTimeout, ?fwOfferReceive, ?fwPieceReceive, ?fwNeedReceive, ?fwResultReceive, ?fwStatus,
    ?fwRestart, ?counters⟩
  case ctlSemRead =>
    intro s owner h
    show execCtlSemRead owner s = _
    exact accessBy_runs h _ _
  case ctlSemRelease =>
    intro s owner value h held
    show execCtlSemRelease owner value s = _
    rw [execCtlSemRelease, accessBy_runs h, State.release_held held]
  case mbxLockRead =>
    intro s owner n h
    show execMbxLockRead owner n s = _
    exact accessBy_runs h _ _
  case mbxLockRelease =>
    intro s owner n value h held
    show execMbxLockRelease owner n value s = _
    rw [execMbxLockRelease, accessBy_runs h, State.release_held held]
  case mbxPost =>
    intro s owner n word dest h
    show execMbxPost owner n word dest s = _
    exact accessBy_runs h _ _
  case mbxAcknowledge =>
    intro s owner n code h
    show execMbxAcknowledge owner n code s = _
    exact accessBy_runs h _ _
  case ownerRestart =>
    intro s hr
    show execOwnerRestart 4 s = _
    exact act_running hr _
  case fwCommandAccept =>
    intro s mbx fetched b hr full sender block
    show execFwCommandAccept mbx fetched s = _
    rw [execFwCommandAccept, act_running hr]
    simp only [full, sender, block, Bool.true_eq_false, if_false, Nat.reduceEqDiff, false_and]
  case fwStage =>
    intro s r cls image hr hcls idle verdict sameClass
    show execFwStage r cls image s = _
    rw [execFwStage, act_running hr]
    simp only [Nat.not_lt.mpr hcls, idle, verdict, sameClass, Bool.false_eq_true, ne_eq, not_true_eq_false, or_self, if_false]
  case fwBroadcast =>
    intro s r cls build digest h staged idle
    show execFwBroadcast r cls s = _
    rw [execFwBroadcast, act_running h.1, mgrCommand_manages h]
    simp only [staged, idle, Option.isSome_none, Bool.false_eq_true, if_false]
  case fwBroadcastTimeout =>
    intro s b hr bcast late
    show execFwBroadcastTimeout s = _
    rw [execFwBroadcastTimeout, act_running hr]
    simp only [bcast, late, if_true]
  case fwOfferReceive =>
    intro s h cls build bytes pieces digest H
    show execFwOfferReceive h cls build bytes pieces digest s = _
    rw [execFwOfferReceive, act_running H.1, fromManager_hears H, id]
  case fwPieceReceive =>
    intro s h piece build data verdict H
    show execFwPieceReceive h piece build data verdict s = _
    rw [execFwPieceReceive, act_running H.1, fromManager_hears H, id]
  case fwNeedReceive =>
    intro s h build first count b H bcast same zero
    have hr : s.running = true := H.1.1
    show execFwNeedReceive h build first count s = _
    rw [execFwNeedReceive, act_running hr, atManager_hears H]
    simp only [id, bcast, same, zero, ne_eq, not_true_eq_false, if_false, Nat.zero_min, List.range_zero, List.foldl_nil]
  case fwResultReceive =>
    intro s h build result b H bcast same waits
    have hr : s.running = true := H.1.1
    show execFwResultReceive h build result s = _
    rw [execFwResultReceive, act_running hr, atManager_hears H]
    simp only [id, bcast, same, waits, ne_eq, not_true_eq_false, Bool.false_eq_true, if_false]
  case fwStatus =>
    intro s r hr
    have ran : exec (.fwStatus r) s = execFwStatus r s := rfl
    rw [ran, execFwStatus, act_running hr]
    exact ⟨_, rfl, rfl⟩
  case fwRestart =>
    intro s r hr passive
    show execFwRestart r s = _
    rw [execFwRestart, act_running hr]
    simp only [passive, Bool.false_eq_true, if_false]
  case counters =>
    intro s r group l hr known
    show execCounters r group s = _
    rw [execCounters, act_running hr]
    simp only [known]

end Sys2Proof.Machine
end

section
/-! The commands of Atomizer-L and Atomizer-S, from the states that their statement names. -/

namespace Sys2Proof.Machine

/-- A free lock goes to the owner who reads it. -/
theorem State.claim_free {s : State} {f : Fld} {i : Nat} (h : s.fld f i = 0) (owner : Nat) :
    s.claim f i owner = (s.setFld f i owner, ST_OK, 0) := by
  simp only [State.claim, h, if_true, BitVec.ofNat_eq_ofNat]

/-- A value other than the unlisted one reads back after its write, whatever the store. -/
theorem Store.get_set_of_ne_default {α : Type} [DecidableEq α] (d : Nat → α) (st : Store α) (k : Nat) (v : α) (h : v ≠ d k) :
    Store.get d (Store.set d st k v) k = v := by
  induction st with
  | nil => simp only [Store.set, Store.get, h, if_true, if_false]
  | cons p t ih =>
    obtain ⟨j, w⟩ := p
    rcases Nat.lt_trichotomy k j with hlt | rfl | hgt
    · simp only [Store.set, Store.get, hlt, h, if_true, if_false]
    · simp only [Store.set, Store.get, h, Nat.lt_irrefl, if_true, if_false]
    · simp only [Store.set, Store.get, ih, Nat.lt_asymm hgt, Nat.ne_of_lt hgt, Nat.ne_of_gt hgt, if_false]

/-- The owner of an Atomizer-S channel reaches its effect. -/
theorem State.ownS_owner {s : State} {owner n : Nat} (h0 : owner ≠ 0) (h : s.chSOwner n = owner) (f : State → State × Nat × Word) :
    s.ownS owner n f = f s :=
  if_neg fun refused => refused.elim h0 fun other => other h

/-- GO on an idle channel of the owner answers ST_OK, shows the channel waiting for the engine with no descriptor done, and takes the
address of its first descriptor from ATS_CH_DESC (R277). -/
theorem State.goS_idle {s : State} {owner n : Nat} (h0 : owner ≠ 0) (own : s.chSOwner n = owner) (idle : s.chSState n = AS_IDLE) :
    (s.goS owner n).2 = (ST_OK, 0)
    ∧ (s.goS owner n).1.regs
        = ((s.setFld F.ATS_CH_STATUS_DESC_DONE n 0).setFld F.ATS_CH_STATUS_STATE n AS_WAIT_ENGINE).regs
    ∧ ((s.goS owner n).1.chS n).at' = some (s.fld F.ATS_CH_DESC_ADDRESS n) ∧ (s.goS owner n).1.out = s.out := by
  rw [State.goS, State.ownS_owner h0 own, if_neg (fun busy => busy idle)]
  refine ⟨rfl, rfl, ?_, rfl⟩
  have listed : ∀ c : ChainS, c.at' = some (s.fld F.ATS_CH_DESC_ADDRESS n) → c ≠ ChainS.init :=
    fun c hc e => nomatch hc.symm.trans (congrArg ChainS.at' e)
  exact congrArg ChainS.at' (Store.get_set_of_ne_default _ _ _ _ (listed _ rfl))

/-- Settles O24: the gates open as for the other families, and a channel's owner reaches the effect of GO, STOP and FENCE. -/
theorem atomizerCommandsComplete : Obligations.atomizerCommandsComplete := by
  refine ⟨?dma, ?atlBufferGrant, ?finishFailed, ?finishLast, ?descriptorRefused, ?atlStop, ?atsGo, ?atsStop, ?atsFence,
    ?atsChannelServe, ?atsRingRoom, ?atsChLockRead, ?atsChLockRelease, ?hostResponseReceive⟩
  case dma =>
    intro s queue index remote r hr fresh
    have ran : exec (.dma queue index remote) s = execDma queue index remote s := rfl
    rw [ran, execDma, act_running hr]
    simp only [fresh]
    exact ⟨_, _, rfl, rfl, rfl, rfl, rfl, rfl, rfl, rfl⟩
  case atlBufferGrant =>
    intro s wing chan remote hr room first
    show execAtlBufferGrant wing chan remote s = _
    rw [execAtlBufferGrant, act_running hr]
    exact congrArg Host.Outcome.next (if_pos ⟨room, first⟩)
  case finishFailed =>
    rintro s _ wing chan remote x d r st hr rfl chain desc run done landed failed
    show execDescriptorFinish wing chan remote s = _
    rw [execDescriptorFinish, act_running hr]
    simp only [chain, desc, run, Nat.not_lt.mpr done, landed, failed, Bool.false_eq_true, or_self, if_false]
  case finishLast =>
    rintro s _ wing chan remote x d r hr rfl chain desc run done landed clean quiet last
    show execDescriptorFinish wing chan remote s = _
    rw [execDescriptorFinish, act_running hr]
    simp only [chain, desc, run, Nat.not_lt.mpr done, landed, clean, quiet, last, List.find?_nil, Bool.false_eq_true, or_self,
      if_false, if_true]
  case descriptorRefused =>
    intro s wing chan remote x st hr chain refused
    show execDescriptorRefused wing chan remote s = _
    rw [execDescriptorRefused, act_running hr]
    simp only [chain, refused]
  case atlStop =>
    intro s owner wing chan h
    show execAtlStop owner wing chan s = _
    exact accessBy_runs h _ _
  case atsGo =>
    intro s owner chan h h0 own idle
    obtain ⟨answer, regs, next, out⟩ := State.goS_idle h0 own idle
    refine ⟨(s.goS owner.val chan.val).1, ?_, regs, next, out⟩
    show execAtsGo owner chan s = _
    rw [execAtsGo, accessBy_runs h, answer]
  case atsStop =>
    intro s owner chan h h0 own busy unstarted
    show execAtsStop owner chan s = _
    rw [execAtsStop, accessBy_runs h, State.stopS, State.ownS_owner h0 own]
    simp only [busy, unstarted, Bool.false_eq_true, and_false, if_false]
  case atsFence =>
    rintro s _ owner chan h h0 own rfl
    show execAtsFence owner chan s = _
    rw [execAtsFence, accessBy_runs h]
    simp only [State.fenceS, State.ownS_owner h0 own]
  case atsChannelServe =>
    intro s hr awake
    show execAtsChannelServe s = _
    rw [execAtsChannelServe, act_running hr]
    simp only [awake, Bool.false_eq_true, if_false]
  case atsRingRoom =>
    intro s chan n hr waits room busy
    show execAtsRingRoom chan s = _
    rw [execAtsRingRoom, act_running hr]
    simp only [waits, room, and_self, if_true, State.setFld_dma, busy, reduceCtorEq, if_false]
  case atsChLockRead =>
    intro s owner chan h free
    show execAtsChLockRead owner chan s = _
    rw [execAtsChLockRead, accessBy_runs h, State.claim_free free]
  case atsChLockRelease =>
    intro s owner chan value h low held
    show execAtsChLockRelease owner chan value s = _
    rw [execAtsChLockRelease, accessBy_runs h, if_neg (Nat.not_le.mpr low), State.release_held held]
  case hostResponseReceive =>
    intro s port f hr h
    show execHostResponseReceive port true f s = _
    rw [execHostResponseReceive, act_running hr, antReceive_takes h]

end Sys2Proof.Machine
end

section
/-! The wingbeat and fabric time: what base pairs, coasting and the passing of time change, and the part in POR. -/

namespace Sys2Proof.Machine

/-! ### Base pairs, records and coasting -/

/-- A Sillage record leaves the time of the part alone. -/
@[simp] theorem State.sillage_time (s : State) (source code severity : Nat) (params : List Nat) :
    (s.sillage source code severity params).time = s.time :=
  (State.sillage_keeps s source code severity params).time rfl

/-- The link that a chip steers to is read from registers, which a change of a port's record leaves alone. -/
@[simp] theorem State.modPort_steersTo (s : State) (l : Nat) (f : PortSt → PortSt) (k : Nat) :
    (s.modPort l f).steersTo k = s.steersTo k := rfl

/-- A field of a register other than FT_COUNT is written without moving the counter. -/
theorem State.ftu_setFld {s : State} {f : Fld} (h : f.reg ≠ .FT_COUNT) (i v : Nat) : (s.setFld f i v).ftu = s.ftu :=
  reg_setFld_other s f .FT_COUNT i 0 v (.inl h.symm)

/-- A step of the bouquet that neither failed nor is reset runs past its wingbeat: it ends with ST_OVERRUN, the wing counts it, and
the bouquet stops in the context (R34, R35). -/
theorem State.overrun_step {s : State} {x : StepRun} {n : BqNode} (op : x.op = none) (sound : s.stepStatus x ≠ ST_FAULT_UNIT)
    (kept : s.fresh.2.resetNow n.ctx = false) (wing : Nat) :
    s.overrun wing x n
      = ((s.fresh.2.endStep x ST_OVERRUN (s.fresh.1 % (x.extent + 1))).bump (overrunFld wing)).stopIn x.handle n.ctx := by
  simp only [State.overrun, op, sound, kept, Bool.false_eq_true, if_false]

/-! ### One unit of fabric time (R36, log entry 5) -/

/-- An operating hour writes HOURS of Cocoon, and of the registers INS_LIFE alone. -/
theorem State.countHour_frame (s : State) :
    s.countHour = { s with regs := s.countHour.regs, cocoon := { s.cocoon with hours := s.countHour.cocoon.hours } }
    ∧ ∀ (r : RegName) (i : Nat), r ≠ .INS_LIFE → s.countHour.reg r i = s.reg r i := by
  unfold State.countHour
  dsimp only
  split
  · exact ⟨rfl, fun r i h => reg_setFld_other _ F.INS_LIFE_HOURS r 0 i _ (.inl h)⟩
  · exact ⟨rfl, fun _ _ _ => rfl⟩

/-- Where the always-on domain runs and no POR is held, the counter advances, and an operating hour may end with it. -/
theorem State.passTime_live {s : State} (on : s.power.aonOn = true) (free : s.power.porHeld = false) (wf : s.canonical) :
    s.passTime = if (s.ftu + 1).toNat % hourFtu = 0 then (s.setReg .FT_COUNT 0 (s.ftu + 1)).countHour
      else s.setReg .FT_COUNT 0 (s.ftu + 1) := by
  have counted : (s.setReg .FT_COUNT 0 (s.ftu + 1)).ftu = s.ftu + 1 := reg_setReg_same _ _ _ _ wf.1
  simp only [State.passTime, on, free, counted, Bool.true_eq_false, Bool.false_eq_true, or_self, if_false]

/-- Elsewhere nothing moves. -/
theorem State.passTime_held {s : State} (h : s.power.aonOn = false ∨ s.power.porHeld = true) : s.passTime = s := if_pos h

/-- With no command waiting a step lets one unit of time pass. -/
theorem step_idle {s : State} (h : s.pending = []) : step s = .next s.passTime := by rw [step, h]

/-- Settles O36: the counter's write and `State.countHour` are all that `State.passTime` does. -/
theorem idleStepCountsOneUnitOfTime : Obligations.idleStepCountsOneUnitOfTime := by
  refine ⟨?live, ?held⟩
  case live =>
    intro s idle on free wf
    have counted : (s.setReg .FT_COUNT 0 (s.ftu + 1)).reg .FT_COUNT 0 = s.ftu + 1 := reg_setReg_same _ _ _ _ wf.1
    have others (r : RegName) (i : Nat) (h : r ≠ .FT_COUNT) : (s.setReg .FT_COUNT 0 (s.ftu + 1)).reg r i = s.reg r i :=
      reg_setReg_other _ _ _ _ _ _ (.inl h)
    refine ⟨_, step_idle idle, ?_⟩
    rw [State.passTime_live on free wf]
    split
    next hour =>
      obtain ⟨frame, regs⟩ := (s.setReg .FT_COUNT 0 (s.ftu + 1)).countHour_frame
      exact ⟨(regs .FT_COUNT 0 (by decide)).trans counted, frame,
        fun r i hc hl => (regs r i hl).trans (others r i hc), fun no => absurd hour no⟩
    next => exact ⟨counted, rfl, fun r i hc _ => others r i hc, fun _ => rfl⟩
  case held =>
    intro s idle h
    rw [step_idle idle, State.passTime_held h]

/-! ### The part in POR (R351) -/

/-- The key of a register reads as the register's POR value where nothing is listed. -/
theorem regDefault_regKey (r : RegName) (i : Nat) : regDefault (regKey r i) = r.por i := by
  have hr := r.code_lt
  have name : regKey r i % 256 = r.code := by unfold regKey; omega
  have index : regKey r i / 256 = i := by unfold regKey; omega
  rw [regDefault, name, index, RegName.ofNat_code]

/-- At reset every register holds its POR value. -/
theorem State.reset_reg (r : RegName) (i : Nat) : State.reset.reg r i = r.por i := regDefault_regKey r i

/-- At reset every field holds its bits of the POR value. -/
theorem State.reset_fld (f : Fld) (i : Nat) : State.reset.fld f i = getBits (f.reg.por i) f.lo f.width := by
  rw [State.fld, State.reset_reg]

/-- At reset a field of a register with POR value 0 reads 0. -/
theorem State.reset_fld_zero {f : Fld} {i : Nat} (h : f.reg.por i = 0) : State.reset.fld f i = 0 := by
  rw [State.reset_fld, h, getBits, BitVec.ofNat_eq_ofNat, BitVec.zero_ushiftRight, BitVec.toNat_ofNat, Nat.zero_mod]

/-- Settles O37: reset lists no register, so each reads its POR value, and every field follows from that. -/
theorem resetIsThePartInPor : Obligations.resetIsThePartInPor := by
  refine ⟨rfl, rfl, rfl, rfl, rfl, State.reset_reg, ?len, ?ctxResets, ?ctxWindow, ?chipResets, ?chipWindow, ?computeResets,
    ?computeWindow, ?queues, by decide⟩
  case len =>
    rw [State.lenFtu, State.reset_fld]
    rfl
  case queues =>
    exact fun q => ⟨State.reset_fld_zero rfl, State.reset_fld_zero rfl⟩
  all_goals
    rw [State.reset_fld]
    rfl

end Sys2Proof.Machine
end

section
/-! The commands of wingbeats and length changes, and of the TIME exchange and the PPS signals, from the states that their statements
name. -/

namespace Sys2Proof.Machine

/-- Settles O1: the gates of events and messages open, and the branch of the change, the decision or the tick is the effect written;
an overrun of one step is `State.overrun_step`. -/
theorem wingbeatsAndLengthChangesComplete : Obligations.wingbeatsAndLengthChangesComplete := by
  refine ⟨?wingbeatTick, ?wbLength, ?change, ?ack, ?decide, ?query, ?apply, ?base, ?overrun⟩
  case wingbeatTick =>
    intro s hr based due
    show execWingbeatTick s = _
    rw [execWingbeatTick, act_running hr]
    simp only [based, due, and_self, if_true]
  case wbLength =>
    intro s r len h unloaded
    have ran : exec (.wbLength r len) s = execWbLength r len s := rfl
    rw [ran, execWbLength, act_running h.1, mgrCommand_manages h]
    simp only [unloaded, Bool.false_eq_true, if_false]
    exact ⟨s.fresh.1, _, rfl, rfl, rfl⟩
  case change =>
    intro s h m len H
    show execWbChangeReceive h (.change m len) s = _
    rw [execWbChangeReceive, act_running H.1]
    simp only [fromManager_hears H, State.agentChangeAnswer]
  case ack =>
    intro s h m H
    have hr : s.running = true := H.1.1
    show execWbChangeReceive h (.ack m) s = _
    rw [execWbChangeReceive, act_running hr]
    simp only [atManager_hears H, id]
  case decide =>
    intro s c hr change active undecided due all
    have every : (s.agents.all fun a => c.acks.any fun b => b.val == a) = true := List.all_eq_true.mpr all
    show execWbChangeDecide s = _
    rw [execWbChangeDecide, act_running hr]
    simp only [change, active, undecided, due, every, and_self, if_true]
  case query =>
    intro s hr pending undecided due
    show execWbChangeQuery s = _
    rw [execWbChangeQuery, act_running hr]
    simp only [pending, undecided, due, and_self, if_true]
  case apply =>
    intro s hr pending due committed
    show execWbChangeApply s = _
    rw [execWbChangeApply, act_running hr]
    simp only [pending, due, committed, and_self, if_true]
  case base =>
    intro s h b H _
    have ran : exec (.wbBaseReceive h b) s = execWbBaseReceive h b s := rfl
    rw [ran, execWbBaseReceive, act_running H.1, fromManager_hears H, id]
    refine ⟨_, rfl, ?_⟩
    dsimp only
    split
    · rw [State.sillage_time]
      exact ⟨rfl, rfl⟩
    · exact ⟨rfl, rfl⟩
  case overrun =>
    intro s wing x p st n hr runs nodes found here earlier op sound kept
    refine ⟨s.fresh.1, ?_⟩
    show execBudgetOverrun wing s = _
    rw [execBudgetOverrun, act_running hr]
    simp only [runs, nodes, List.foldl_cons, List.foldl_nil, found, here, earlier, ne_eq, not_false_eq_true, and_self, if_true,
      State.overrun_step op sound kept]

/-- Settles O2: the gates of the link and of time open, and the branch of the upstream's state or of PPS is the effect written. -/
theorem fabricTimeCommandsComplete : Obligations.fabricTimeCommandsComplete := by
  refine ⟨?timeSetSend, ?timeSetReceive, ?lossOfUpstream, ?ppsInEdge, ?ppsOutStart, ?ppsOutEnd⟩
  case timeSetSend =>
    intro s l hr trained
    show execTimeSetSend l s = _
    simp only [execTimeSetSend, trained, hr, Bool.true_eq_false, if_false, if_true]
  case timeSetReceive =>
    intro s l t hr check trained unsent other
    refine ⟨_, ?_, rfl⟩
    show execTimeSetReceive l t s = _
    rw [execTimeSetReceive, act_running hr]
    simp only [check, trained, unsent, other, State.modPort_steersTo, List.find?_nil, Option.map_none, Bool.false_eq_true, false_and,
      and_self, if_true, if_false]
  case lossOfUpstream =>
    intro s hr lost acquire alone
    have ran : exec .lossOfUpstream s = execLossOfUpstream s := rfl
    have free : TS_ACQUIRE ≠ TS_FREE := by decide
    have root : TS_ACQUIRE ≠ TS_ROOT := by decide
    have counted : ((s.setFld F.FT_STATUS_UPSTREAM 0 (s.fld F.FT_STATUS_ALTERNATE)).setFld F.FT_STATUS_ALTERNATE 0 0xFF).ftu = s.ftu := by
      rw [State.ftu_setFld (by decide), State.ftu_setFld (by decide)]
    rw [ran, execLossOfUpstream, act_running hr]
    simp only [lost, acquire, alone, free, root, ne_eq, not_false_eq_true, and_self, if_true]
    exact ⟨_, rfl, counted, rfl⟩
  case ppsInEdge =>
    intro s hr wf notRoot
    have ran : exec .ppsInEdge s = execPpsInEdge s := rfl
    have same : (s.setReg .FT_PPS_CAPTURE 0 s.ftu).fld F.FT_STATUS_STATE = s.fld F.FT_STATUS_STATE :=
      congrArg (getBits · _ _) (reg_setReg_other _ _ _ _ _ _ (.inl (by decide)))
    refine ⟨s.setReg .FT_PPS_CAPTURE 0 s.ftu, ?_, reg_setReg_same _ _ _ _ wf.1⟩
    rw [ran, execPpsInEdge, act_running hr]
    simp only [same, notRoot, false_and, if_false]
  case ppsOutStart =>
    intro s hr enabled phase
    refine ⟨{ s with time := { s.time with ppsOut := some s.ftu } }, ?_, rfl⟩
    show execPpsOutStart s = _
    rw [execPpsOutStart, act_running hr]
    simp only [enabled, ppsPeriod, phase, and_self, if_true]
  case ppsOutEnd =>
    intro s b hr high late
    refine ⟨{ s with time := { s.time with ppsOut := none } }, ?_, rfl⟩
    show execPpsOutEnd s = _
    rw [execPpsOutEnd, act_running hr]
    simp only [high, late, if_true]

end Sys2Proof.Machine
end

section
/-! The firmware commands on ports, the loss of a link whose peer was frozen, and the identity exchange and qualification. -/

namespace Sys2Proof.Machine

/-- Settles O3: no clause of a refusal holds, and each command is its PORT reset or its quarantine with the result. -/
theorem portCommandsComplete : Obligations.portCommandsComplete := by
  refine ⟨?portMode, ?portQualify, ?portReset, ?twinReset, ?portQuarantine⟩
  case portMode =>
    intro s r port mode hr service free
    have allowed : ¬(mode.val = PM_SERVICE ∧ servicePort port.val = false) := fun ⟨hm, no⟩ =>
      Bool.false_ne_true (no.symm.trans (service hm))
    show execPortMode r port mode s = _
    rw [execPortMode, act_running hr]
    simp only [allowed, free, Bool.false_eq_true, if_false]
  case portQualify =>
    intro s r port time hr low high free
    show execPortQualify r port time s = _
    rw [execPortQualify, act_running hr]
    simp only [Nat.not_lt.mpr low, Nat.not_lt.mpr high, free, Bool.false_eq_true, or_self, if_false]
  case portReset =>
    intro s r port hr
    show execPortReset r port false s = _
    exact act_running hr _
  case twinReset =>
    intro s r port hr
    show execPortReset r port true s = _
    exact act_running hr _
  case portQuarantine =>
    intro s r port hr
    show execPortQuarantine r port s = _
    exact act_running hr _

/-! ### Loss of link from FROZEN_PEER (R49, R61) -/

/-- LOSS_OF_LINK on a running part. -/
theorem exec_lossOfLink {s : State} (h : s.running = true) (l : Link) : exec (.lossOfLink l) s = .next (s.lossOfLink l.val) := by
  have ran : exec (.lossOfLink l) s = execLossOfLink l s := rfl
  rw [ran, execLossOfLink, act_running h]

/-- A link's record reads back after its change. -/
theorem State.port_modPort_same {s : State} (wf : Store.wf (fun _ => PortSt.init) s.ports = true) (l : Nat) (f : PortSt → PortSt) :
    (s.modPort l f).port l = f (s.port l) :=
  Store.get_set_same _ _ _ _ wf

/-- A link other than the Twin port that goes out of service keeps the peer of its last qualification. -/
theorem State.dropLink_lastQual {s : State} (wf : s.canonical) {l : Nat} (fabric : l ≠ twinLink) (tgt : Nat) :
    ((s.dropLink l tgt).port l).lastQual = (s.port l).lastQual := by
  obtain ⟨-, wfPorts, -⟩ := wf
  have ports : (s.sealClear l).ports = s.ports := (s.sealClear_keeps l).ports rfl
  simp only [State.dropLink, State.setLinkState, State.setLinkWidth, fabric, false_and, if_false, State.port, State.modPort_ports,
    State.setFld_ports, ports, Store.get_set_same _ _ _ _ wfPorts]

/-- The count, the announcement and the Sillage record of a lost link leave the links' records alone. -/
theorem State.lossReported_port (s : State) (l k : Nat) :
    ((((s.bump F.PRT_EVENTS_LOSSES l).announceLoss l).sillage 0x02 0x01 1 []).unclean).port k = s.port k := by
  have record := (State.unclean_keeps (((s.bump F.PRT_EVENTS_LOSSES l).announceLoss l).sillage 0x02 0x01 1 [])).ports rfl
  have sillage := (((s.bump F.PRT_EVENTS_LOSSES l).announceLoss l).sillage_keeps 0x02 0x01 1 []).ports rfl
  have announced := ((s.bump F.PRT_EVENTS_LOSSES l).announceLoss_keeps l).ports rfl
  exact congrArg (Store.get _ · k) (record.trans (sillage.trans announced))

/-- A link whose peer was frozen forgets its last qualification with the loss, so that it requalifies (R61). -/
theorem State.lossOfLink_frozen_forgets {s : State} (wf : s.canonical) {l : Nat} (fabric : l ≠ twinLink)
    (frozen : s.linkState l = PS_FROZEN_PEER) : ((s.lossOfLink l).port l).lastQual = none := by
  have late : ¬PS_FROZEN_PEER < PS_TRAINING := by decide
  have trained : PS_FROZEN_PEER ≠ PS_TRAINING := by decide
  obtain ⟨-, wfPorts, -⟩ := (s.dropLink_keeps l PS_DOWN).wf wf
  simp only [State.lossOfLink, frozen, late, trained, fabric, if_false]
  rw [State.lossReported_port, State.port_modPort_same wfPorts]
  rfl

/-- A drop, RETRAIN and the report of the loss alone leave the last qualification as it was. -/
theorem State.retrainReported_lastQual {s : State} (wf : s.canonical) {l : Nat} (fabric : l ≠ twinLink) :
    ((((((s.dropLink l PS_DOWN).modPort l fun p => { p with retrain := true }).bump F.PRT_EVENTS_LOSSES l).announceLoss l).sillage
      0x02 0x01 1 []).unclean.port l).lastQual = (s.port l).lastQual := by
  obtain ⟨-, wfPorts, -⟩ := (s.dropLink_keeps l PS_DOWN).wf wf
  rw [State.lossReported_port, State.port_modPort_same wfPorts]
  exact State.dropLink_lastQual wf fabric PS_DOWN

/-- The part runs, and port 0, which qualified with a peer at eight lanes, is in FROZEN_PEER. -/
def frozenQualified : State :=
  (({ State.reset with power := { PowerSt.init with inReset := false, porHeld := false, rstLow := false } }).setFld
    F.PRT_STATUS_STATE 0 PS_FROZEN_PEER).modPort 0 fun p => { p with lastQual := some ⟨0, 0, 0, 0, 8⟩ }

/-- Refutes O4: its clause of LOSS_OF_LINK keeps the last qualification in every trained state, but from FROZEN_PEER the loss forgets
it, since such a port requalifies (R61). Port 0 of `frozenQualified` tells the two apart. -/
theorem not_laneAndLinkEventsComplete : ¬ Obligations.laneAndLinkEventsComplete := by
  intro ⟨lossOfLink, _⟩
  have wf : frozenQualified.canonical := by decide
  have running : frozenQualified.running = true := by decide
  have frozen : frozenQualified.linkState (0 : Link).val = PS_FROZEN_PEER := by decide
  have trained : PS_TRAINING < frozenQualified.linkState (0 : Link).val := by rw [frozen]; decide
  have fabric : (0 : Link).val ≠ twinLink := by decide
  have qualified : (frozenQualified.port (0 : Link).val).lastQual = some ⟨0, 0, 0, 0, 8⟩ := by decide
  have forgotten := State.lossOfLink_frozen_forgets wf fabric frozen
  rw [Host.Outcome.next.inj ((exec_lossOfLink running 0).symm.trans (lossOfLink frozenQualified 0 running trained fabric)),
    State.retrainReported_lastQual wf fabric, qualified] at forgotten
  exact nomatch forgotten

/-! ### The identity exchange and qualification (R53, R54, R58, R59) -/

/-- Settles O5: the link is in the state that each branch asks for, and what the branch does is the effect written. -/
theorem identityAndQualificationComplete : Obligations.identityAndQualificationComplete := by
  refine ⟨?identSend, ?identReceive, ?identTimeout, ?phase1, ?phase2, ?report, ?silent⟩
  case identSend =>
    intro s l hr training fabric
    have ran : exec (.identSend l) s = execIdentSend l s := rfl
    rw [ran, execIdentSend, act_running hr, if_pos ⟨training, fabric⟩]
    exact ⟨_, rfl, rfl, rfl, rfl, rfl, rfl⟩
  case identReceive =>
    intro s l id hr check training fabric port
    show execIdentReceive l id s = _
    rw [execIdentReceive, act_running hr]
    simp only [check, training, fabric, port, ne_eq, not_false_eq_true, and_self, if_true, if_false]
  case identTimeout =>
    intro s l hr training
    show execIdentTimeout l s = _
    rw [execIdentTimeout, act_running hr, if_pos training]
  case phase1 =>
    intro s l errs bits hr qualifying phase
    show execQualPhase1End l errs bits s = _
    rw [execQualPhase1End, act_running hr, if_pos ⟨qualifying, phase⟩]
  case phase2 =>
    intro s l counts unc total hr qualifying phase
    have ran : exec (.qualPhase2End l counts unc total) s = execQualPhase2End l counts unc total s := rfl
    rw [ran, execQualPhase2End, act_running hr, if_pos ⟨qualifying, phase⟩]
    refine ⟨_, rfl, ?_⟩
    rw [State.emit_out]
    exact List.mem_append_right _ (List.mem_singleton_self _)
  case report =>
    intro s l pass hr qualifying
    show execQualReportReceive l pass s = _
    rw [execQualReportReceive, act_running hr, if_pos qualifying]
  case silent =>
    intro s l hr qualifying waiting
    show execPeerSilent l s = _
    rw [execPeerSilent, act_running hr, if_pos ⟨qualifying, waiting⟩]

end Sys2Proof.Machine
end

section
/-! The service ports, sessions, results and the Sillage, from the states that their statement names. -/

namespace Sys2Proof.Machine

/-- Settles O28: the port, session, journal entry or cursor that each command looks for is there, and its branch is the effect
written. -/
theorem serviceAndSillageComplete : Obligations.serviceAndSillageComplete := by
  refine ⟨?datagram, ?bulkAck, ?bulkResend, ?echo, ?serviceCfg, ?sessionOpen, ?sessionClose, ?resultPost, ?persist, ?cursor, ?window7,
    ?silClear, ?silConfig⟩
  case datagram =>
    intro s port d tagOk hr up
    constructor
    · intro other
      show execBulkDatagramReceive port d tagOk s = _
      rw [execBulkDatagramReceive, act_running hr, if_pos ⟨up, other⟩]
    · intro mgmt
      show execBulkMgmtDatagram port d tagOk s = _
      rw [execBulkMgmtDatagram, act_running hr, if_pos ⟨up, mgmt⟩]
  case bulkAck =>
    intro s port session x hr found due
    show execBulkAckTimer port session s = _
    rw [execBulkAckTimer, act_running hr]
    simp only [found, due, true_or, if_true]
  case bulkResend =>
    intro s port session x d rest hr found unacked late
    show execBulkResendTimeout port session s = _
    rw [execBulkResendTimeout, act_running hr]
    simp only [found, unacked, late, if_true]
  case echo =>
    intro s port f c hr svc up kind accepted own
    show execServiceFrameReceive port f s = _
    rw [execServiceFrameReceive, act_running hr]
    simp only [svc, up, kind, accepted, own, Bool.true_eq_false, and_self, if_false, if_true]
  case serviceCfg =>
    intro s r port prio vlan ipv6 hr hport hprio hvlan mode fresh
    show execServiceCfg r port prio vlan ipv6 s = _
    rw [execServiceCfg, act_running hr]
    simp only [Nat.not_le.mpr hport, Nat.not_lt.mpr hprio, Nat.not_lt.mpr hvlan, mode, fresh, ne_eq, not_true_eq_false, or_self,
      if_false]
  case sessionOpen =>
    intro s r port flags ctx session peer key tenant hr hport mode hflags hctx opened fresh unsealed room
    have ran : exec (.sessionOpen r port flags ctx session peer key tenant) s
        = execSessionOpen r port flags ctx session peer key tenant s := rfl
    rw [ran, execSessionOpen, act_running hr]
    simp only [Nat.not_le.mpr hport, mode, Nat.not_lt.mpr hflags, Nat.not_le.mpr hctx, opened, fresh, unsealed, Nat.not_le.mpr room,
      ne_eq, not_true_eq_false, Option.isSome_none, Bool.false_eq_true, false_and, or_self, if_false]
    exact ⟨_, rfl, rfl, rfl, rfl, rfl, rfl, rfl, rfl, rfl⟩
  case sessionClose =>
    intro s r port session hr known
    have present : ¬(s.session port.val session.toNat).isNone = true := by
      rw [Option.isNone_iff_eq_none]
      exact Option.isSome_iff_ne_none.mp known
    show execSessionClose r port session s = _
    rw [execSessionClose, act_running hr, if_neg present]
  case resultPost =>
    intro s r e hr entry ready first owners mbx room
    show execResultPost r s = _
    rw [execResultPost, act_running hr]
    simp only [entry, ready, first, owners, Nat.not_le.mpr mbx, room, Bool.true_eq_false, Bool.false_eq_true, or_self, if_false]
  case persist =>
    intro s x rest hr waiting
    show execPersistWrite s = _
    rw [execPersistWrite, act_running hr]
    simp only [waiting]
  case cursor =>
    intro s owner value h
    show execSilCursorWrite owner value s = _
    exact accessBy_runs h _ _
  case window7 =>
    intro s owner h
    show execSilWindow7AutoRead owner s = _
    exact accessBy_runs h _ _
  case silClear =>
    intro s r e hr entry not4 not0 holder
    show execSilClear r s = _
    rw [execSilClear, act_running hr]
    simp only [entry, not4, not0, holder, ne_eq, not_true_eq_false, or_self, if_false]
  case silConfig =>
    intro s t r frames minSeverity hr hframes hseverity resized
    show execSilConfig r frames minSeverity s = _
    rw [execSilConfig, act_running hr]
    simp only [Nat.not_lt.mpr hframes, Nat.not_lt.mpr hseverity, resized, or_self, if_false]

end Sys2Proof.Machine
end

section
/-! A WRITE at a Nectar controller: the bytes it names, and no other. -/

namespace Sys2Proof.Machine

/-- A WRITE that is fresh and not refused lands its granules at the address that the page of the target context gives (R256). -/
theorem State.sinkWrite_applied {s : State} {wing : Nat} {p : Packet} {b : Nat} (settled : s.isRefused (0x89 + wing) p = false)
    (fresh : arrivalOf (s.receivedOf (receivedKey (0x89 + wing) p)) p.seq = .fresh) (ok : s.judgeWrite p = .ok b) :
    (s.sinkWrite wing p).mem = writeBytes s.mem b (p.payload.take (p.payFlits.val * 64)) := by
  simp only [State.sinkWrite, settled, fresh, ok, Bool.false_eq_true, if_false]
  exact (State.received_keeps _ _ _).mem rfl

/-- Counting the faults of a WRITE and refusing it change no byte (R258). -/
theorem State.refuseWrite_countFaults_mem (s : State) (secs : List Nat) (wing : Nat) (p : Packet) (status : Nat) :
    ((s.countFaults secs).refuseWrite wing p status).mem = s.mem :=
  ((State.refuseWrite_keeps _ wing p status).mem rfl).trans ((s.countFaults_keeps secs).mem rfl)

/-- What a WRITE does to memory: nothing, unless it is fresh and not refused, and then its granules land. -/
theorem State.sinkWrite_mem (s : State) (wing : Nat) (p : Packet) :
    (s.sinkWrite wing p).mem = s.mem
    ∨ s.isRefused (0x89 + wing) p = false ∧ arrivalOf (s.receivedOf (receivedKey (0x89 + wing) p)) p.seq = .fresh
      ∧ ∃ b, s.judgeWrite p = .ok b ∧ (s.sinkWrite wing p).mem = writeBytes s.mem b (p.payload.take (p.payFlits.val * 64)) := by
  cases settled : s.isRefused (0x89 + wing) p with
  | true => exact .inl (congrArg State.mem (if_pos settled))
  | false =>
    cases arrival : arrivalOf (s.receivedOf (receivedKey (0x89 + wing) p)) p.seq with
    | duplicate =>
      left
      simp only [State.sinkWrite, settled, arrival, Bool.false_eq_true, if_false, State.bump_mem]
      rfl
    | beyond =>
      left
      simp only [State.sinkWrite, settled, arrival, Bool.false_eq_true, if_false, State.bump_mem]
    | fresh =>
      cases verdict : s.judgeWrite p with
      | ok b => exact .inr ⟨rfl, rfl, b, rfl, State.sinkWrite_applied settled arrival verdict⟩
      | error st =>
        left
        simp only [State.sinkWrite, settled, arrival, verdict, Bool.false_eq_true, if_false]
        exact State.refuseWrite_countFaults_mem ..

/-- What POOL_WRITE_REQUEST does to memory: nothing, unless its packet is a fresh WRITE that is not refused. -/
theorem exec_poolWriteRequest_mem {wing : Wing} {p : Packet} {s t : State} (h : exec (.poolWriteRequest wing p) s = .next t) :
    t.mem = s.mem
    ∨ p.kind.val = 0x01 ∧ s.isRefused (0x89 + wing.val) p = false
      ∧ arrivalOf (s.receivedOf (receivedKey (0x89 + wing.val) p)) p.seq = .fresh
      ∧ ∃ b, s.judgeWrite p = .ok b ∧ t.mem = writeBytes s.mem b (p.payload.take (p.payFlits.val * 64)) := by
  have ran : execPoolWriteRequest wing p s = .next t := h
  rcases act_next ran with ⟨rfl, -⟩ | ⟨rfl, -⟩
  · by_cases kind : p.kind.val = 0x01
    · simp only [kind, if_true, true_and]
      exact s.sinkWrite_mem wing.val p
    · exact .inl (congrArg State.mem (if_neg kind))
  · exact .inl rfl

/-- Settles O58: a WRITE changes memory only where `State.judgeWrite` sends its granules, and there each byte reads as sent. -/
theorem poolWritesLandInTheirBytesOnly : Obligations.poolWritesLandInTheirBytesOnly := by
  intro wing p s t h
  refine ⟨?frame, ?applied, ?refused, ?notApplied⟩
  case frame =>
    intro a outside
    rcases exec_poolWriteRequest_mem h with same | ⟨-, -, -, b, ok, landed⟩
    · rw [State.byteAt, State.byteAt, same]
    · have short := List.length_take_le (p.payFlits.val * 64) p.payload
      have apart := outside b ok
      rw [State.byteAt, landed, get_writeBytes_outside _ _ _ _ (by omega), State.byteAt]
  case applied =>
    intro b wf running kind settled fresh ok i x inside byte
    have ran : exec (.poolWriteRequest wing p) s = .next (s.sinkWrite wing.val p) := by
      show execPoolWriteRequest wing p s = _
      rw [execPoolWriteRequest, act_running running, if_pos kind]
    have taken : (p.payload.take (p.payFlits.val * 64))[i]? = some (x : Byte) := (List.getElem?_take_of_lt inside).trans byte
    obtain ⟨short, sent⟩ := List.getElem?_eq_some_iff.mp taken
    obtain ⟨-, -, -, -, -, wfMem⟩ := wf
    rw [← Host.Outcome.next.inj (ran.symm.trans h), State.byteAt, State.sinkWrite_applied settled fresh ok,
      get_writeBytes_inside _ _ _ _ wfMem short, sent]
  case refused =>
    intro st refusal
    rcases exec_poolWriteRequest_mem h with same | ⟨-, -, -, b, ok, -⟩
    · exact same
    · exact nomatch refusal.symm.trans ok
  case notApplied =>
    intro excluded
    rcases exec_poolWriteRequest_mem h with same | ⟨kind, settled, fresh, -⟩
    · exact same
    · rcases excluded with refused | other | repeated
      · exact absurd (refused.symm.trans settled) (by decide)
      · exact absurd kind other
      · exact absurd fresh repeated

end Sys2Proof.Machine
end

section
/-! The commands of flits, packets, credits and resends, from the states that their statements name. -/

namespace Sys2Proof.Machine

/-- An UP port takes flit slots (Table 3.6). -/
theorem not_flitRefused_of_up {state : Nat} (up : state = PS_UP) : ¬(state < PS_QUARANTINE ∨ PS_UP < state) := by
  rw [up]
  decide

/-- Settles O6: the link, the header or the waiting packet is as each branch asks, and what the branch does is the effect written. -/
theorem flitsAndPacketsComplete : Obligations.flitsAndPacketsComplete := by
  refine ⟨?flitReceive, ?packetForward, ?packetDeliver, ?escape, ?drop, ?auditSend, ?auditReceive, ?edgeIngress⟩
  case flitReceive =>
    intro s l word flit hr up wide check kind
    have taken := not_flitRefused_of_up up
    show execFlitReceive l word flit s = _
    rw [execFlitReceive, act_running hr]
    simp only [← or_assoc, taken, wide, check, kind, Bool.false_eq_true, Bool.true_eq_false, or_self, if_false]
  case packetForward =>
    rintro s _ l p hr fabric link rfl passes header key
    have notTwin : l.val ≠ twinLink := Nat.ne_of_lt link
    show execPacketForward l p s = _
    rw [execPacketForward, act_running hr]
    simp only [fabric, passes, notTwin, header, key, ne_eq, not_true_eq_false, Bool.false_eq_true, Bool.true_eq_false, if_false]
  case packetDeliver =>
    intro s src u p hr here bound epoch verified
    show execPacketDeliver src (.unit u) p s = _
    rw [execPacketDeliver, act_running hr]
    simp only [here, bound, epoch, verified, ne_eq, not_true_eq_false, true_or, and_false, if_false, if_true]
  case escape =>
    intro s out vc w hr late header low high
    have ran : exec (.creditWaitEscape out vc) s = execCreditWaitEscape out vc s := rfl
    rw [ran, execCreditWaitEscape, act_running hr]
    simp only [late, header, low, high, and_self, if_true]
    exact ⟨_, rfl, rfl, rfl, rfl⟩
  case drop =>
    intro s out vc w hr late header ends
    have ran : exec (.creditWaitDrop out vc) s = execCreditWaitDrop out vc s := rfl
    rw [ran, execCreditWaitDrop, act_running hr]
    simp only [late, header, ends, Bool.false_eq_true, if_false, if_true]
    exact ⟨_, rfl, rfl, rfl, rfl⟩
  case auditSend =>
    intro s l hr up
    show execCreditAuditSend l s = _
    rw [execCreditAuditSend, act_running hr, if_pos up]
  case auditReceive =>
    intro s l free hr up
    show execCreditAuditReceive l free s = _
    rw [execCreditAuditReceive, act_running hr, if_pos up]
  case edgeIngress =>
    intro s port p hr edge passes
    have link : (⟨port.val, Nat.lt_trans port.isLt (by decide)⟩ : Link) = Fin.ofNat 129 port.val :=
      Fin.ext (Nat.mod_eq_of_lt (Nat.lt_trans port.isLt (by decide))).symm
    show execEdgeIngress port p s = _
    rw [execEdgeIngress, act_running hr]
    simp only [edge, passes, link, ne_eq, not_true_eq_false, if_false, if_true]

/-- Settles O7: the stream owes its ACK, the ACK covers the one copy, or the copy is due with its count of resends. -/
theorem acksAndResendsComplete : Obligations.acksAndResendsComplete := by
  refine ⟨?ackSend, ?ackReceive, ?resend, ?limit⟩
  case ackSend =>
    intro s unit chip peer ctx epoch hr owed
    show execAckSend unit chip peer ctx epoch s = _
    rw [execAckSend, act_running hr]
    simp only [owed, if_true]
  case ackReceive =>
    intro s unit p c hr one same covered alone kind quiet
    have ran : exec (.ackReceive unit p) s = execAckReceive unit p s := rfl
    rw [ran, execAckReceive, act_running hr]
    refine ⟨_, rfl, ?_⟩
    simp only [one, same, covered, alone, kind, quiet, State.pump, List.filter, List.foldl, beq_self_eq_true, Bool.and_self,
      Bool.not_true, if_false]
  case resend =>
    intro s unit chip peer ctx seq c hr found due again
    have ran : exec (.resendTimeout unit chip peer ctx seq) s = execResendTimeout unit chip peer ctx seq s := rfl
    rw [ran, execResendTimeout, act_running hr]
    simp only [found, due, again, and_self, if_true]
    exact ⟨_, rfl, rfl, rfl⟩
  case limit =>
    intro s unit chip peer ctx seq c g hr found due last owner queue
    have ran : exec (.resendLimit unit chip peer ctx seq) s = execResendLimit unit chip peer ctx seq s := rfl
    rw [ran, execResendLimit, act_running hr]
    simp only [found, due, last, owner, Nat.not_le.mpr queue, and_self, false_and, if_false, if_true]
    exact ⟨_, rfl, rfl, rfl⟩

end Sys2Proof.Machine
end

section
/-! Banks, the drain and the swap at the agent, from the states that their statement names. -/

namespace Sys2Proof.Machine

/-- Counting in a register of each wing leaves the packets alone. -/
theorem State.foldl_bump_net (s : State) (f : Fld) (n : Nat → Nat) (ws : List Nat) :
    (ws.foldl (fun t w => t.bump f w (n w)) s).net = s.net := by
  induction ws generalizing s with
  | nil => rfl
  | cons w ws ih => exact ih (s.bump f w (n w))

/-- Settles O8: each message is the agent's own and new, the drain or the swap stands where each branch asks, and what the branch does
is the effect written. -/
theorem routeChangesCompleteAtTheAgent : Obligations.routeChangesCompleteAtTheAgent := by
  refine ⟨?linkLoss, ?tableWrite, ?stop, ?stopBoundary, ?countZero, ?timeout, ?swapReceive, ?swapApply, ?swapMissed⟩
  case linkLoss =>
    intro s h chip port H
    show execLinkLossReceive h chip port 0 s = _
    rw [execLinkLossReceive, act_running H.1, fromAgent_hears H, id]
    exact congrArg Host.Outcome.next (if_pos rfl)
  case tableWrite =>
    intro s h bank H accepted sameChip
    show execTableWriteReceive h bank s = _
    rw [execTableWriteReceive, act_running H.1, fromManager_hears H]
    simp only [State.noteSeen_chip, accepted, sameChip]
  case stop =>
    intro s h slices b H
    have ran : exec (.stopReceive h slices b) s = execStopReceive h slices b s := rfl
    rw [ran, execStopReceive, act_running H.1, fromManager_hears H, id]
    exact ⟨_, rfl, rfl, rfl, s.noteSeen_regs h⟩
  case stopBoundary =>
    intro s hr reached stopped
    show execDrainStopBoundary s = _
    rw [execDrainStopBoundary, act_running hr, if_pos ⟨reached, stopped⟩]
  case countZero =>
    intro s hr reached stopped empty
    show execDrainCountZero s = _
    rw [execDrainCountZero, act_running hr, if_pos ⟨reached, stopped, empty⟩]
  case timeout =>
    intro s sl b hr drain late stopped unreported
    have ran : exec .drainTimeout s = execDrainTimeout s := rfl
    rw [ran, execDrainTimeout, act_running hr]
    simp only [drain, late, stopped, unreported, and_self, if_true]
    exact ⟨_, rfl, congrArg (fun n : NetSt => n.waiting.filter fun x => !sl.contains x.pkt.slice.val) (s.foldl_bump_net _ _ _)⟩
  case swapReceive =>
    intro s h k H
    show execSwapReceive h k s = _
    rw [execSwapReceive, act_running H.1, fromManager_hears H, id]
  case swapApply =>
    intro s hr armed reached
    show execSwapApply s = _
    rw [execSwapApply, act_running hr, if_pos ⟨armed, reached⟩]
  case swapMissed =>
    intro s sl b hr drain stopped late noChange
    show execSwapMissed s = _
    rw [execSwapMissed, act_running hr]
    simp only [drain, stopped, late, noChange, and_self, if_true]

end Sys2Proof.Machine
end

section
/-! A message of the manager that is repeated, of an old epoch or of another chip, at an agent. -/

namespace Sys2Proof.Machine

/-- From `s` to `t` the agent has sent at most new messages: nothing changed but what stands in `out` and the number of the next. -/
def State.onlySends (s t : State) : Prop := t = { s with out := t.out, agent := { s.agent with nextSeq := t.agent.nextSeq } }

theorem State.onlySends_refl (s : State) : s.onlySends s := rfl

theorem State.sendMgmt_onlySends (s : State) (dst : Nat) (m : Mgmt) : s.onlySends (s.sendMgmt dst m) := rfl

/-- The agent's answer to a WB_CHANGE sends at most its acknowledgement (R28). -/
theorem State.agentChangeAnswer_onlySends (s : State) (c : WbChange) : s.onlySends (s.agentChangeAnswer c) := by
  cases c with
  | change m len => exact s.sendMgmt_onlySends ..
  | ack m => exact s.onlySends_refl
  | commit m => exact s.onlySends_refl
  | cancel m => exact s.onlySends_refl
  | query m => exact s.onlySends_refl

/-- A chip that is not the active manager has nothing to fence (R131). -/
theorem State.fenceOn_passive {s : State} (passive : s.flag F.MGR_ROLE_ACTIVE = false) (epoch : Nat) : s.fenceOn epoch = s := by
  simp only [State.fenceOn, passive, Bool.false_eq_true, false_and, if_false]

/-- A repeat of a message of the agent's own manager is answered again, or dropped where it is a broadcast (R100). -/
theorem State.fromManager_repeat {s : State} {h : MsgHdr} (passive : s.flag F.MGR_ROLE_ACTIVE = false)
    (epoch : h.epoch = s.fld F.TWN_AGENT_HIGHEST_EPOCH) (chip : h.src.val = s.fld F.TWN_AGENT_MANAGER_CHIP)
    (seen : s.isRepeat h = true) (f answer : State → State) :
    s.fromManager h f answer = if h.bcast = true then s else answer s := by
  have accepted : s.mgrAccepts h = true := by
    simp only [State.mgrAccepts, epoch, chip, decide_true, Bool.and_self, Bool.or_true]
  have kept : s.raiseEpoch h = s := if_neg (epoch ▸ Nat.lt_irrefl _)
  simp only [State.fromManager, State.fenceOn_passive passive, accepted, kept, seen, if_true]

/-- A message of an old epoch, or of another chip in the same epoch, is dropped and counted (R130). -/
theorem State.fromManager_stale {s : State} {h : MsgHdr} (passive : s.flag F.MGR_ROLE_ACTIVE = false)
    (stale : h.epoch < s.fld F.TWN_AGENT_HIGHEST_EPOCH
      ∨ (h.epoch = s.fld F.TWN_AGENT_HIGHEST_EPOCH ∧ h.src.val ≠ s.fld F.TWN_AGENT_MANAGER_CHIP)) (f answer : State → State) :
    s.fromManager h f answer = s.bump F.TWN_EVENTS_STALE_DROPS := by
  have refused : s.mgrAccepts h = false := by
    simp only [State.mgrAccepts, Bool.or_eq_false_iff, Bool.and_eq_false_iff, decide_eq_false_iff_not]
    omega
  simp only [State.fromManager, State.fenceOn_passive passive, refused, Bool.false_eq_true, if_false]

/-- Every command that only a manager sends reaches the agent by R130 and R100; its answer sends at most a message, and a command that
asks for none has none. -/
theorem exec_managerMsg {c : Instr} {h : MsgHdr} (hc : c.managerMsg = some h) :
    ∃ f answer : State → State, (∀ s, exec c s = act s fun (t : State) => t.fromManager h f answer)
      ∧ (∀ s : State, s.onlySends (answer s)) ∧ (c.managerAsks = false → answer = id) := by
  unfold Instr.managerMsg at hc
  split at hc
  case h_2 | h_15 =>
    obtain rfl := Option.some.inj hc
    exact ⟨_, _, fun _ => rfl, fun s => State.sendMgmt_onlySends s _ _, fun asks => nomatch asks⟩
  case h_12 | h_13 | h_14 =>
    obtain rfl := Option.some.inj hc
    exact ⟨_, _, fun _ => rfl, fun s => State.agentChangeAnswer_onlySends s _, fun asks => nomatch asks⟩
  case h_16 => exact nomatch hc
  all_goals
    obtain rfl := Option.some.inj hc
    exact ⟨_, id, fun _ => rfl, State.onlySends_refl, fun _ => rfl⟩

/-- Settles O43: every command named goes through `State.fromManager`, and there a repeat is at most answered again and a stale message
is counted. -/
theorem managerMessagesActOnce : Obligations.managerMessagesActOnce := by
  refine ⟨?seen, ?stale⟩
  case seen =>
    intro c h s hc running passive epoch chip seen
    obtain ⟨f, answer, ran, sends, silent⟩ := exec_managerMsg hc
    refine ⟨if h.bcast = true then s else answer s, ?_, ?_, ?_⟩
    · rw [ran, act_running running, State.fromManager_repeat passive epoch chip seen]
    · by_cases bcast : h.bcast = true
      · rw [if_pos bcast]
      · rw [if_neg bcast]
        exact sends s
    · intro noAnswer
      by_cases bcast : h.bcast = true
      · exact if_pos bcast
      · rw [if_neg bcast, silent (noAnswer.resolve_left bcast), id]
  case stale =>
    intro c h s hc running passive stale
    obtain ⟨f, answer, ran, -⟩ := exec_managerMsg hc
    rw [ran, act_running running, State.fromManager_stale passive stale]

end Sys2Proof.Machine
end

section
/-! The map, the role and the neighbours, from the states that their statement names. -/

namespace Sys2Proof.Machine

/-- A flag that is written 1 reads set. -/
theorem State.flag_setFld_one {s : State} {f : Fld} {i : Nat} (wf : Store.wf regDefault s.regs = true) (hf : f.lo + f.width ≤ 64)
    (bit : f.width = 1) : (s.setFld f i 1).flag f i = true := by
  have reads : (s.setFld f i 1).fld f i = 1 := by rw [fld_setFld_same s f i 1 wf hf, bit, Nat.one_mod_two_pow_eq_one.mpr Nat.one_pos]
  rw [State.flag, reads]
  rfl

/-- Settles O10: each gate opens, the map is of its form or the state is the one that the branch asks for, and what the branch does is
the effect written. -/
theorem mapAndNeighboursComplete : Obligations.mapAndNeighboursComplete := by
  refine ⟨?mapLoad, ?setRole, ?mgmtRepeat, ?nbrReportRepeat, ?nbrReport, ?nbrVerdict, ?adoptNeighbour, ?mapUpdate⟩
  case mapLoad =>
    intro s r m hr form
    show execMapLoad r m s = _
    rw [execMapLoad, act_running hr]
    cases s.mapAccepted m <;> simp only [form, Bool.true_eq_false, Bool.false_eq_true, if_false, if_true]
  case setRole =>
    intro s r hr wf roleOpen strap mapRole
    obtain ⟨wfRegs, -⟩ := wf
    have wfRole := wf_setFld F.MGR_ROLE_ROLE 0 0 wfRegs
    have noManager : strapRole 0 = 0 := rfl
    have ran : exec (.setRole r 0) s = execSetRole r 0 s := rfl
    rw [ran, execSetRole, act_running hr]
    simp only [roleOpen, strap, mapRole, Fin.val_zero, noManager, Bool.true_eq_false, not_true_eq_false, and_self, false_and, ne_eq,
      if_false, if_true]
    refine ⟨_, rfl, rfl, ?confirmed, ?shown⟩
    case confirmed => exact State.flag_setFld_one wfRole (by decide) rfl
    case shown =>
      refine (fld_setFld_apart _ _ _ _ _ _ wfRole (by decide) (by decide)).trans ?_
      exact fld_setFld_same _ _ _ _ wfRegs (by decide)
  case mgmtRepeat =>
    intro s q dst m sent hr found late
    have ran : exec (.mgmtRepeat q) s = execMgmtRepeat q s := rfl
    rw [ran, execMgmtRepeat, act_running hr]
    simp only [found, late, if_true]
    exact ⟨_, rfl, rfl, rfl⟩
  case nbrReportRepeat =>
    intro s port b q st id hr report peer late
    show execNbrReportRepeat port s = _
    rw [execNbrReportRepeat, act_running hr]
    simp only [State.repeatReport, report, peer, late, if_true]
  case nbrReport =>
    intro s h port id H
    have known : ¬((7 : Fin 16).val = PS_STRANGER ∧ id.endpoint = false ∧ (s.noteSeen h).knownStranger h.src.val port.val = false) :=
      fun stranger => absurd stranger.1 (by decide)
    show execNbrReportReceive h port 7 id s = _
    rw [execNbrReportReceive, act_running H.1.1, atManager_hears H]
    exact congrArg (fun t : State => Host.Outcome.next (t.sendVerdict h.src.val port.val)) (if_neg known)
  case nbrVerdict =>
    intro s h port H up
    have stillUp : ((s.noteSeen h).modPort port.val fun p => { p with nbr := some false, report := none }).linkState port.val = PS_UP := up
    show execNbrVerdictReceive h port false s = _
    rw [execNbrVerdictReceive, act_running H.1, fromManager_hears H]
    simp only [stillUp, id, Bool.false_eq_true, true_or, or_true, if_false, if_true]
  case adoptNeighbour =>
    intro s r m o h form held same
    show execAdoptNeighbour r m s = _
    rw [execAdoptNeighbour, act_running h.1, mgrCommand_manages h]
    cases s.mapAccepted m <;>
      simp only [form, held, same, Bool.true_eq_false, Bool.false_eq_true, true_or, or_self, if_false, if_true]
  case mapUpdate =>
    intro s h m H form noPiece t ht
    have before : (if (s.noteSeen h).agent.pieces.1 = m.mapSeq.toNat then (s.noteSeen h).agent.pieces.2 else []) = [] := by
      split
      · exact noPiece
      · rfl
    have complete : (List.range 1).all (fun i => [0].contains i) = true := by decide
    show execMapUpdateReceive h 0 1 m s = _
    rw [execMapUpdateReceive, act_running H.1, fromManager_hears H, id]
    simp only [before, List.contains_nil, List.nil_append, Bool.false_eq_true, if_false, ← ht, complete, form, true_and]

end Sys2Proof.Machine
end

section
/-! Slices, switches and plans at the Monarch, from the states that their statement names. -/

namespace Sys2Proof.Machine

/-- Settles O11: the slice, the switch or the plan is as each branch asks, so no clause of a refusal holds, and what the branch does is
the effect written. -/
theorem slicesAndPlansComplete : Obligations.slicesAndPlansComplete := by
  refine ⟨?create, ?members, ?quiesce, ?quiesced, ?timeout, ?resume, ?destroy, ?forget, ?switchIn, ?switchOut, ?planExport, ?prepare,
    ?applied, ?cancel⟩
  case create =>
    intro s r slice members h low high fresh sound compat
    show execSliceCreate r slice 0 members s = _
    rw [execSliceCreate, act_running h.1, mgrCommand_manages h]
    simp only [Nat.ne_of_gt low, Nat.not_lt.mpr high, fresh, sound, compat, Fin.val_zero, Nat.reduceBEq, Option.isSome_none,
      Bool.true_eq_false, Bool.false_eq_true, or_self, if_false]
  case members =>
    intro s r slice members x h found unsealed sound native quiesced noBouquet compat
    have changeable : s.membersFixed x true = false := by rw [State.membersFixed, quiesced]
    show execSliceMembers r slice 0 members true s = _
    rw [execSliceMembers, act_running h.1, mgrCommand_manages h]
    simp only [found, unsealed, sound, native, changeable, noBouquet, compat, Fin.val_zero, Nat.reduceBEq, ne_eq, not_true_eq_false,
      Bool.true_eq_false, Bool.false_eq_true, or_self, if_false]
  case quiesce =>
    intro s r slice ahead x h found far running
    have ran : exec (.sliceQuiesce r slice ahead) s = execSliceQuiesce r slice ahead s := rfl
    rw [ran, execSliceQuiesce, act_running h.1, mgrCommand_manages h]
    simp only [found, Nat.not_lt.mpr far, running, reduceCtorEq, or_self, if_false]
    exact ⟨_, rfl, rfl, rfl, rfl, rfl⟩
  case quiesced =>
    intro s slice x r hr active found quiescing reached idle ref
    show execSliceQuiesced slice s = _
    rw [execSliceQuiesced, act_running hr]
    simp only [found, active, quiescing, reached, idle, ref, and_self, if_true]
  case timeout =>
    intro s slice x r hr active found quiescing late ref
    show execQuiesceTimeout slice s = _
    rw [execQuiesceTimeout, act_running hr]
    simp only [found, active, quiescing, late, ref, and_self, if_true]
  case resume =>
    intro s r slice ahead x h found far quiesced
    have ran : exec (.sliceResume r slice ahead) s = execSliceResume r slice ahead s := rfl
    rw [ran, execSliceResume, act_running h.1, mgrCommand_manages h]
    simp only [found, Nat.not_lt.mpr far, quiesced, ne_eq, not_true_eq_false, if_false]
    exact ⟨_, rfl, rfl, rfl⟩
  case destroy =>
    intro s r slice x h found noBouquet
    have ran : exec (.sliceDestroy r slice) s = execSliceDestroy r slice s := rfl
    rw [ran, execSliceDestroy, act_running h.1, mgrCommand_manages h]
    simp only [found, noBouquet, Bool.false_eq_true, if_false]
    exact ⟨_, rfl, rfl, rfl⟩
  case forget =>
    intro s h e H inService gone
    show execSliceTableReceive h e s = _
    rw [execSliceTableReceive, act_running H.1, fromManager_hears H]
    simp only [id, inService, gone, Bool.false_eq_true, if_false, if_true]
  case switchIn =>
    intro s r chip m h held out named matched
    have known : (mapChip m chip.val).isNone = false := by rw [Option.isNone_eq_false_iff, named]
    have ran : exec (.switchIn r chip) s = execSwitchIn r chip s := rfl
    rw [ran, execSwitchIn, act_running h.1, mgrCommand_manages h]
    simp only [held, out, known, matched, Bool.true_eq_false, Bool.false_eq_true, or_self, if_false]
    exact ⟨_, rfl, rfl⟩
  case switchOut =>
    intro s r chip h noBouquet inService
    have ran : exec (.switchOut r chip false) s = execSwitchOut r chip false s := rfl
    rw [ran, execSwitchOut, act_running h.1, mgrCommand_manages h]
    simp only [noBouquet, inService, Bool.true_eq_false, Bool.false_eq_true, or_self, if_false]
    exact ⟨_, rfl, rfl⟩
  case planExport =>
    intro s r owner p dest room h grid current fits
    have ran : exec (.planExport r owner 1 p.x p.y p.z dest room (some p)) s
        = execPlanExport r owner 1 p.x p.y p.z dest room (some p) s := rfl
    rw [ran, execPlanExport, act_running h.1, mgrCommand_manages h]
    simp only [grid, current, Nat.not_lt.mpr fits, Fin.val_one, Nat.reduceLT, beq_self_eq_true, Bool.true_or, Bool.true_eq_false, false_and,
      ne_eq, not_true_eq_false, or_self, if_false]
    exact ⟨_, rfl, rfl⟩
  case prepare =>
    intro s r id h none
    show execPlanPrepare r id s = _
    rw [execPlanPrepare, act_running h.1, mgrCommand_manages h]
    simp only [none, Option.isSome_none, Bool.false_eq_true, if_false]
  case applied =>
    intro s r p h prepared
    have ran : exec (.planApplied r p.id) s = execPlanApplied r p.id s := rfl
    rw [ran, execPlanApplied, act_running h.1, mgrCommand_manages h]
    simp only [prepared, if_true]
    exact ⟨_, rfl, rfl, rfl⟩
  case cancel =>
    intro s r p h prepared
    have ran : exec (.planCancel r p.id) s = execPlanCancel r p.id s := rfl
    rw [ran, execPlanCancel, act_running h.1, mgrCommand_manages h]
    simp only [prepared, if_true]
    exact ⟨_, rfl, rfl⟩

end Sys2Proof.Machine
end

section
/-! Endpoints and the agent, from the states that their statement names. -/

namespace Sys2Proof.Machine

/-- Settles O12: the port is an UP edge port, the heartbeat is the first or is late, and what the branch does is the effect written. -/
theorem endpointMessagesComplete : Obligations.endpointMessagesComplete := by
  refine ⟨?discover, ?identity, ?heartbeat, ?silent, ?epochAck⟩
  case discover =>
    intro s port hr edge up
    have link : (⟨port.val, Nat.lt_trans port.isLt (by decide)⟩ : Link) = Fin.ofNat 129 port.val :=
      Fin.ext (Nat.mod_eq_of_lt (Nat.lt_trans port.isLt (by decide))).symm
    have ran : exec (.epDiscoverSend port) s = execEpDiscoverSend port s := rfl
    rw [ran, execEpDiscoverSend, act_running hr]
    simp only [edge, up, link, and_self, if_true]
    exact ⟨_, _, rfl, rfl, rfl, rfl⟩
  case identity =>
    intro s port device window features hr edge up inRange
    show execEpIdentityReceive port device window features s = _
    rw [execEpIdentityReceive, act_running hr, if_pos ⟨edge, up, inRange⟩]
  case heartbeat =>
    intro s port hr edge up first alive valid
    have fresh : (none == some s.wb) = false := rfl
    show execEpHeartbeatReceive port s.wb s = _
    rw [execEpHeartbeatReceive, act_running hr]
    simp only [edge, up, first, alive, valid, fresh, reduceCtorEq, ne_eq, not_true_eq_false, Bool.true_eq_false, Bool.false_eq_true,
      false_and, or_self, if_false]
  case silent =>
    intro s port b hr edge up beat late
    show execEndpointSilent port s = _
    rw [execEndpointSilent, act_running hr]
    simp only [edge, up, beat, late, and_self, if_true]
  case epochAck =>
    intro s port ctx epoch hr
    show execEpochAckReceive port ctx epoch s = _
    rw [execEpochAckReceive, act_running hr]

end Sys2Proof.Machine
end

section
/-! Contexts, queues, channels and pages, from the states that their statement names. -/

namespace Sys2Proof.Machine

/-- A number of a context is none of 0xFFFF, by which CTX_CREATE asks for any free one (R140). -/
theorem ctxNumber_ne_any {n : Nat} (h : n ≤ 4095) : n ≠ 0xFFFF := by omega

/-- A context named is the one that CTX_CREATE takes (R140). -/
theorem State.pickCtx_named {s : State} {n : Nat} (h : n ≤ 4095) : s.pickCtx n = (n, s) := if_neg (ctxNumber_ne_any h)

/-- With no chain on Atomizer-L there is none to stop (R280). -/
theorem State.stopChains_none {s : State} (h : s.dma.chains = []) (c : Nat) : s.stopChains c = s := by
  simp only [State.stopChains, h, List.filter_nil, List.foldl_nil]

/-- Settles O16: the context, queue, channel or page is as each branch asks, so no clause of a refusal holds, and what the branch does
is the effect written. -/
theorem contextsQueuesAndPagesComplete : Obligations.contextsQueuesAndPagesComplete := by
  refine ⟨?create, ?bind, ?unbind, ?reset, ?destroy, ?boundary, ?release, ?queue, ?channel, ?grant, ?zerofill, ?ungrant, ?scrub,
    ?quiesce⟩
  case create =>
    intro s r slice ctx events hr imago hslice hctx entry unsealed room free
    have known : (s.sliceEntry slice.val).isNone = false := by rw [Option.isNone_eq_false_iff, entry]
    have few : ¬65536 < events := by omega
    show execCtxCreate r slice ctx events 0 false s = _
    rw [execCtxCreate, act_running hr]
    simp only [Nat.not_lt.mpr hslice, Nat.not_lt.mpr hctx, ctxNumber_ne_any hctx, State.pickCtx_named hctx, known, few, imago, unsealed,
      Nat.not_lt.mpr room, free, Fin.val_zero, Nat.reduceBEq, Nat.not_lt_zero, ne_eq, not_true_eq_false, Bool.true_eq_false,
      Bool.false_eq_true, false_and, and_false, or_self, if_false]
  case bind =>
    intro s r ctx port rank wr ww hr live member unsealed ident inService
    have identified : (s.ep port.val).ident.isNone = false := by rw [Option.isNone_eq_false_iff, ident]
    show execCtxBind r ctx port rank wr ww s = _
    rw [execCtxBind, act_running hr]
    simp only [live, member, unsealed, identified, inService, ne_eq, not_true_eq_false, Bool.false_eq_true, or_self, if_false]
  case unbind =>
    intro s r ctx port hr bound unsealed
    have known : (s.binding ctx.val port.val).isNone = false := by rw [Option.isNone_eq_false_iff, bound]
    show execCtxUnbind r ctx port s = _
    rw [execCtxUnbind, act_running hr]
    simp only [known, unsealed, Bool.false_eq_true, if_false]
  case reset =>
    intro s r ctx hr active kept
    show execCtxReset r ctx s = _
    rw [execCtxReset, act_running hr]
    simp only [active, kept, Nat.reduceEqDiff, Bool.false_eq_true, or_self, if_false]
  case destroy =>
    intro s r ctx hr active noBouquet
    show execCtxDestroy r ctx s = _
    rw [execCtxDestroy, act_running hr]
    simp only [active, noBouquet, Nat.reduceEqDiff, Bool.false_eq_true, or_self, if_false]
  case boundary =>
    intro s ctx b hr asked reached kept
    show execContextResetBoundary ctx s = _
    rw [execContextResetBoundary, act_running hr]
    simp only [asked, reached, kept, Bool.false_eq_true, if_false, if_true]
  case release =>
    intro s ctx b hr due reached
    show execContextResetRelease ctx s = _
    rw [execContextResetRelease, act_running hr]
    simp only [due, reached, if_true]
  case queue =>
    intro s r queue ctx k j ring cq hr hqueue hctx unused klow khigh jlow jhigh active ringOk cqOk
    have ran : exec (.queue r queue ctx 0 k j ring cq) s = execQueue r queue ctx 0 k j ring cq s := rfl
    rw [ran, execQueue, act_running hr]
    simp only [Nat.not_lt.mpr hqueue, Nat.not_lt.mpr hctx, unused, Nat.not_lt.mpr klow, Nat.not_lt.mpr khigh, Nat.not_lt.mpr jlow,
      Nat.not_lt.mpr jhigh, active, ringOk, cqOk, Fin.val_zero, Nat.not_lt_zero, Nat.zero_ne_one, Nat.one_ne_zero, ne_eq,
      not_true_eq_false, Bool.true_eq_false, or_self, if_false]
    exact ⟨_, rfl, rfl⟩
  case channel =>
    intro s r wing chan ctx hr idle live
    show execChannel r wing chan ctx false s = _
    rw [execChannel, act_running hr]
    simp only [idle, live, ne_eq, not_true_eq_false, false_and, Nat.reduceLeDiff, Bool.false_eq_true, or_self, if_false]
  case grant =>
    intro s r ctx perm hr imago hctx hperm active noPages noGrants unsealed room
    have enough : ∀ w ∈ List.range 4, ¬s.freeFrames w < pagesOnWing 0 1 w := fun w hw =>
      Nat.not_lt.mpr (room w (List.mem_range.mp hw))
    have noneShort : (List.range 4).any (fun w => decide (s.freeFrames w < pagesOnWing 0 1 w)) = false := by
      rw [List.any_eq_false]
      exact fun w hw => by rw [decide_eq_true_eq]; exact enough w hw
    have noneHard : (List.range 4).any (fun w =>
        decide (s.freeFrames w + s.fld F.HBM_POOL_SCRUB_QUEUED w < pagesOnWing 0 1 w)) = false := by
      rw [List.any_eq_false]
      exact fun w hw => by rw [decide_eq_true_eq]; exact fun h => enough w hw (Nat.lt_of_le_of_lt (Nat.le_add_right _ _) h)
    show execPageGrant r ctx perm 1 0 false s = _
    rw [execPageGrant, act_running hr]
    have one : (1 : BitVec 32).toNat = 1 := rfl
    have zero : (0 : Word).toNat = 0 := rfl
    simp only [one, zero, imago, Nat.not_lt.mpr hctx, Nat.not_lt.mpr hperm, active, noPages, noGrants, unsealed, noneShort, noneHard,
      List.any_nil, Nat.one_ne_zero, Nat.reduceEqDiff, Nat.reduceAdd, Nat.reducePow, Nat.reduceLT, Bool.true_eq_false,
      Bool.false_eq_true, false_and, or_self, if_false]
  case zerofill =>
    intro s ctx g rest hr oldest
    show execGrantZerofillDone ctx s = _
    rw [execGrantZerofillDone, act_running hr]
    simp only [oldest]
  case ungrant =>
    intro s r ctx p hr hctx hpage only
    have first : (BitVec.ofNat 64 p.page).toNat = p.page := by
      rw [BitVec.toNat_ofNat]
      omega
    have one : (1 : BitVec 32).toNat = 1 := rfl
    have nonzero : (1 : BitVec 32) ≠ 0 := by decide
    have named : (decide (p.page ≤ p.page) && decide (p.page < p.page + 1)) = true := by simp
    show execPageUngrant r ctx 1 (BitVec.ofNat 64 p.page) s = _
    rw [execPageUngrant, act_running hr]
    simp only [first, one, nonzero, only, named, Nat.not_lt.mpr hctx, Nat.not_lt.mpr hpage, List.filter_cons_of_pos, List.filter_nil,
      List.length_singleton, List.foldl_cons, List.foldl_nil, ne_eq, not_true_eq_false, or_self, if_false]
  case scrub =>
    intro s wing f hr oldest small
    have ran : exec (.frameScrubDone wing) s = execFrameScrubDone wing s := rfl
    rw [ran, execFrameScrubDone, act_running hr]
    simp only [oldest, small, if_true]
    exact ⟨_, rfl, rfl, rfl, rfl⟩
  case quiesce =>
    rintro s slice c r hr held mine runs rfl tenant noChains noNodes
    have noneStops : ∀ q : QueSt, ({ s with que := q } : State).stopChains r.ctx = { s with que := q } :=
      fun q => State.stopChains_none (s := { s with que := q }) noChains r.ctx
    show execQuiesceBoundary slice s = _
    rw [execQuiesceBoundary, act_running hr]
    simp only [held, mine, runs, tenant, noNodes, noneStops, List.map_cons, List.map_nil,
      List.contains_cons, beq_self_eq_true, Bool.true_or, and_self, List.foldl_cons, List.foldl_nil, List.filter_nil, if_true]

end Sys2Proof.Machine
end

section
/-! The state copy, the takeover and the takeback of the two managers, from the states that their statements name. -/

namespace Sys2Proof.Machine

/-- A message of no higher epoch than the chip's own fences nothing (R131). -/
theorem State.fenceOn_current {s : State} {epoch : Nat} (current : epoch ≤ s.fld F.TWN_STATUS_EPOCH) : s.fenceOn epoch = s :=
  if_neg fun fenced => Nat.not_lt.mpr current fenced.2

/-- Settles O14: the role of the chip and the epoch open each gate, the delta or the snapshot is whole, and what the branch does is the
effect written. The times of SNAPSHOT_START and the epoch that a shadow takes from TAKEOVER are log entries 38 and 35. -/
theorem stateCopyAndTakeoverComplete : Obligations.stateCopyAndTakeoverComplete := by
  refine ⟨?delta, ?snapshot, ?start, ?request, ?unsync, ?ack, ?ackTimeout, ?takeover, ?announced⟩
  case delta =>
    intro s u h forWb recs hr current shadow whole
    show execStateDeltaReceive h forWb 0 1 true recs s = _
    rw [execStateDeltaReceive, act_running hr]
    simp only [State.fenceOn_current current, shadow, whole, ne_eq, not_true_eq_false, Bool.true_eq_false, if_false, if_true]
  case snapshot =>
    intro s h forWb recs hr current shadow first
    have complete : (List.range 1).all (fun i => [0].contains i) = true := by decide
    show execSnapshotReceive h forWb 0 1 true recs s = _
    rw [execSnapshotReceive, act_running hr]
    simp only [State.fenceOn_current current, shadow, first, complete, ne_eq, not_true_eq_false, Bool.true_eq_false, if_false, if_true]
  case start =>
    intro s hr active standby due
    show execSnapshotStart s = _
    rw [execSnapshotStart, act_running hr, if_pos ⟨active, standby, due⟩]
  case request =>
    intro s h H standby
    show execSnapReqReceive h s = _
    rw [execSnapReqReceive, act_running H.1.1, atManager_hears H, id]
    exact congrArg Host.Outcome.next (if_pos standby)
  case unsync =>
    intro s hr shadow gap
    show execShadowUnsync s = _
    rw [execShadowUnsync, act_running hr]
    simp only [shadow, gap, true_or, and_self, if_true, Bool.not_true]
  case ack =>
    intro s h forWb H
    show execDeltaAckReceive h forWb s = _
    rw [execDeltaAckReceive, act_running H.1.1, atManager_hears H, id, State.noteSeen_wb]
  case ackTimeout =>
    intro s hr active standby late
    show execDeltaAckTimeout s = _
    rw [execDeltaAckTimeout, act_running hr, if_pos ⟨active, standby, late⟩]
  case takeover =>
    intro s hr shadow silent synced
    show execTakeover s = _
    rw [execTakeover, act_running hr, if_pos ⟨shadow, .inl silent⟩, if_pos synced]
  case announced =>
    intro s h epoch chip fromWb H shadow
    show execTakeoverReceive h epoch chip fromWb s = _
    rw [execTakeoverReceive, act_running H.1, fromManager_hears H, id, State.noteSeen_mgrState, if_pos shadow]

/-- Settles O15: the takeback stands as each branch asks (none, named, or answered), and what the branch does is the effect written; that
the old root coasts from the handover is log entry 12. -/
theorem takebackCommandsComplete : Obligations.takebackCommandsComplete := by
  refine ⟨?holdLeft, ?receive, ?timeout, ?handover, ?complete, ?revert⟩
  case holdLeft =>
    intro s c hr peer shadow monarch zero noTakeback
    show execHoldLeftZero s = _
    rw [execHoldLeftZero, act_running hr]
    simp only [peer, shadow, monarch, zero, noTakeback, and_self, if_true]
  case receive =>
    intro s h t hr current managerChip peer active early
    show execTakebackReceive h t false s = _
    rw [execTakebackReceive, act_running hr]
    simp only [State.fenceOn_current current, managerChip, peer, active, early, ne_eq, not_true_eq_false, Bool.true_eq_false,
      Bool.false_eq_true, and_self, or_self, if_false, if_true]
  case timeout =>
    intro s t hr unanswered shadow reached
    show execTakebackTimeout s = _
    rw [execTakebackTimeout, act_running hr]
    simp only [unanswered, shadow, reached, and_self, if_true, holdOff]
  case handover =>
    intro s t c hr answered peer active reached
    have ran : exec .takebackHandover s = execTakebackHandover s := rfl
    rw [ran, execTakebackHandover, act_running hr]
    simp only [answered, peer, active, reached, and_self, if_true]
    exact ⟨_, rfl, rfl⟩
  case complete =>
    intro s t hr answered shadow monarch reached applied
    show execTakebackComplete s = _
    rw [execTakebackComplete, act_running hr]
    simp only [answered, shadow, monarch, reached, applied, and_self, if_true, holdOff]
  case revert =>
    intro s r h
    have ran : exec (.revertCtl r true) s = execRevertCtl r true s := rfl
    rw [ran, execRevertCtl, act_running h.1, mgrCommand_manages h]
    simp only [Bool.not_true, Bool.and_false, Bool.false_eq_true, false_and, if_false]
    exact ⟨_, _, rfl, rfl⟩

end Sys2Proof.Machine
end

section
/-! Doorbells: the checks of R146 in their order, and what a doorbell of the value already held changes. -/

namespace Sys2Proof.Machine

/-! ### A field written with its own value -/

/-- A field's value fits its width. -/
theorem State.fld_lt (s : State) (f : Fld) (i : Nat) : s.fld f i < 2 ^ f.width := Nat.mod_lt _ (Nat.two_pow_pos _)

/-- A word with a field replaced by that field's own bits is the word. -/
theorem putBits_getBits (w : Word) (lo len : Nat) : putBits w lo len (getBits w lo len) = w := by
  refine BitVec.eq_of_getLsbD_eq fun i hi => ?_
  rw [getLsbD_putBits _ _ _ _ _ hi]
  split
  case isTrue inside =>
    obtain ⟨low, high⟩ := inside
    have within : i - lo < len := by omega
    rw [testBit_getBits, Nat.add_sub_cancel' low, decide_eq_true within, Bool.true_and]
  case isFalse => rfl

/-- A canonical store written with what a key reads as stays as it is. -/
theorem Store.set_get {α : Type} [DecidableEq α] {d : Nat → α} {st : Store α} (wf : Store.wf d st = true) (k : Nat) :
    Store.set d st k (Store.get d st k) = st := by
  refine Store.eq_of_get d _ _ (Store.wf_set d st k _ wf) wf fun j => ?_
  by_cases hj : j = k
  · rw [hj, Store.get_set_same d st k _ wf]
  · exact Store.get_set_other d st k j _ hj

/-- A field of a canonical state written with its own value leaves the state as it is. -/
theorem State.setFld_fld {s : State} (wf : s.canonical) (f : Fld) (i : Nat) : s.setFld f i (s.fld f i) = s := by
  obtain ⟨wfRegs, -⟩ := wf
  rw [State.setFld, State.fld, putBits_getBits, State.setReg, State.reg, Store.set_get wfRegs]

/-! ### Differences of indexes (R144) -/

/-- An index that a doorbell carries is compared as the 32-bit word it is. -/
theorem serialDiff_word_left (i : BitVec 32) (b : Nat) : serialDiff i.toNat b = (i - BitVec.ofNat 32 b).toInt := by
  rw [serialDiff, BitVec.ofNat_toNat, BitVec.setWidth_eq]

theorem serialDiff_word_right (a : Nat) (i : BitVec 32) : serialDiff a i.toNat = (BitVec.ofNat 32 a - i).toInt := by
  rw [serialDiff, BitVec.ofNat_toNat, BitVec.setWidth_eq]

theorem serialDiff_self (a : Nat) : serialDiff a a = 0 := by rw [serialDiff, BitVec.sub_self, BitVec.toInt_zero]

/-- An index register holds a 32-bit word, which a doorbell can carry whole. -/
theorem State.index_word (s : State) {f : Fld} (width : f.width = 32) (i : Nat) : (BitVec.ofNat 32 (s.fld f i)).toNat = s.fld f i :=
  Nat.mod_eq_of_lt (width ▸ s.fld_lt f i)

/-! ### The two checks -/

section
variable {s : State} {src : DbSource} {q : Nat}

/-- Check 1 fails: the doorbell is dropped and counted in DB_NOT_BOUND. -/
theorem State.doorbell_notBound (unbound : s.dbBound src q = false) (ok : Bool) (f : State → State) :
    s.doorbell src q ok f = s.bump F.QUE_DROPS_DB_NOT_BOUND (q / 4096) := if_pos unbound

/-- Check 1 passes and check 2 fails: the doorbell is dropped and counted in DB_BAD_INDEX. -/
theorem State.doorbell_badIndex (bound : s.dbBound src q = true) {ok : Bool} (bad : ok = false) (f : State → State) :
    s.doorbell src q ok f = s.bump F.QUE_DROPS_DB_BAD_INDEX (q / 4096) := by
  simp only [State.doorbell, bound, bad, Bool.true_eq_false, if_false, if_true]

/-- Both checks pass: the doorbell has its effect. -/
theorem State.doorbell_accepted (bound : s.dbBound src q = true) {ok : Bool} (good : ok = true) (f : State → State) :
    s.doorbell src q ok f = f s := by
  simp only [State.doorbell, bound, good, Bool.true_eq_false, if_false]

/-- A SUBMIT of the TAIL already held passes both checks and is no new cover (R146). -/
theorem State.dbSubmit_held (bound : s.dbBound src q = true) (room : serialDiff (s.tail q) (s.head q) ≤ 2 ^ s.ringLog q) :
    s.dbSubmit src q (s.tail q) = s := by
  have notBack : 0 ≤ serialDiff (s.tail q) (s.tail q) := Int.le_of_eq (serialDiff_self _).symm
  rw [State.dbSubmit, State.doorbell_accepted bound (Bool.and_eq_true_iff.mpr ⟨decide_eq_true notBack, decide_eq_true room⟩),
    if_pos rfl]

/-- A CQ_HEAD of the value already held passes both checks and writes that value again (R146). -/
theorem State.dbCqHead_held (wf : s.canonical) (bound : s.dbBound src q = true) (room : 0 ≤ serialDiff (s.cqTail q) (s.cqHead q)) :
    s.dbCqHead src q (s.cqHead q) = s := by
  have notBack : 0 ≤ serialDiff (s.cqHead q) (s.cqHead q) := Int.le_of_eq (serialDiff_self _).symm
  rw [State.dbCqHead, State.doorbell_accepted bound (Bool.and_eq_true_iff.mpr ⟨decide_eq_true notBack, decide_eq_true room⟩)]
  exact State.setFld_fld wf _ _

end

section
variable {s : State} (hr : s.running = true) (src : DbSource) (q : Queue) (i : BitVec 32)
include hr

theorem exec_dbSubmit : exec (.dbSubmit src q i) s = .next (s.dbSubmit src q.val i.toNat) := by
  show execDbSubmit src q i s = _
  exact act_running hr _

theorem exec_dbCqHead : exec (.dbCqHead src q i) s = .next (s.dbCqHead src q.val i.toNat) := by
  show execDbCqHead src q i s = _
  exact act_running hr _

theorem exec_dbResume : exec (.dbResume src q i) s = .next (s.dbResume src q.val i.toNat) := by
  show execDbResume src q i s = _
  exact act_running hr _

end

/-! ### What check 1 refuses (R146) -/

section
variable {s : State} {q : Nat}

/-- A doorbell of a queue that does not exist. -/
theorem State.dbBound_absent (absent : s.fld F.QUE_CFG_STATE q = 0) (src : DbSource) : s.dbBound src q = false := by
  simp only [State.dbBound, absent, bne_self_eq_false, Bool.false_and]

/-- A doorbell of the control node for a queue of a sealed slice. -/
theorem State.dbBound_sealed (isSealed : s.isSealed (s.ctxSlice (s.fld F.QUE_CFG_CONTEXT q)) = true) :
    s.dbBound .controlNode q = false := by
  simp only [State.dbBound, State.queueCtx, isSealed, Bool.not_true, Bool.and_false]

/-- A doorbell of an endpoint of another chip, for another context than the queue's, of an unbound context or of an old epoch. -/
theorem State.dbBound_stranger {chip : Chip} {port : Port} {ctx : Ctx} {epoch : Fin 256}
    (stranger : chip.val ≠ s.chip ∨ ctx.val ≠ s.fld F.QUE_CFG_CONTEXT q ∨ s.binding ctx.val port.val = none
      ∨ epoch.val ≠ s.ctxEpoch ctx.val) : s.dbBound (.endpoint chip port ctx epoch) q = false := by
  rcases stranger with otherChip | otherCtx | unbound | otherEpoch
  · simp only [State.dbBound, beq_eq_false_iff_ne.mpr otherChip, Bool.false_and, Bool.and_false]
  · simp only [State.dbBound, State.queueCtx, beq_eq_false_iff_ne.mpr otherCtx, Bool.false_and, Bool.and_false]
  · simp only [State.dbBound, unbound, Option.isSome_none, Bool.false_and, Bool.and_false]
  · simp only [State.dbBound, beq_eq_false_iff_ne.mpr otherEpoch, Bool.and_false]

end

/-- What a unit has received plays no part in check 1. -/
@[simp] theorem State.setReceived_dbBound (s : State) (r : Received) (src : DbSource) (q : Nat) :
    (s.setReceived r).dbBound src q = s.dbBound src q := rfl

/-- A DOORBELL packet of the reserved OP that a unit takes as new is dropped with its count. -/
theorem State.consume_reservedDoorbell {s : State} {u : Nat} {p : Packet} (wing : Nat) (whole : p.truncated = false)
    (check : e2eCrcOf p = p.e2eCrc) (kind : p.kind = 0x04) (op : getBits p.arg 46 2 = 3) (later : p.ackSoon = false)
    (fresh : arrivalOf (s.receivedOf (receivedKey u p)) p.seq = .fresh) :
    s.consume wing u p = (s.setReceived (noteReceived (s.receivedOf (receivedKey u p)) p.seq)).reservedDoorbell p := by
  have code : p.kind.val = 0x04 := congrArg Fin.val kind
  have counted : tracked 0x04 = true := rfl
  simp only [State.consume, whole, check, code, counted, fresh, op, later, ne_eq, not_true_eq_false, Bool.false_eq_true, Nat.reduceEqDiff,
    and_false, or_self, and_self, if_false, if_true]

/-- Settles O42: the source and the queue decide check 1, the index or the operation check 2, and a doorbell of the value already held
passes both and changes nothing. -/
theorem doorbellChecksAndDuplicates : Obligations.doorbellChecksAndDuplicates := by
  refine ⟨?notBound, ?badIndex, ?sameTail, ?sameCqHead, ?reservedWrite, ?reservedPacket⟩
  case notBound =>
    intro s src q i hr refused
    have unbound : s.dbBound src q.val = false := by
      rcases refused with absent | clause
      · exact State.dbBound_absent absent src
      · cases src with
        | controlNode => exact State.dbBound_sealed clause
        | endpoint => exact State.dbBound_stranger clause
    rw [exec_dbSubmit hr, exec_dbCqHead hr, exec_dbResume hr]
    exact ⟨congrArg _ (State.doorbell_notBound unbound _ _), congrArg _ (State.doorbell_notBound unbound _ _),
      congrArg _ (State.doorbell_notBound unbound _ _)⟩
  case badIndex =>
    intro s src q i hr bound
    rw [exec_dbSubmit hr, exec_dbCqHead hr, exec_dbResume hr]
    refine ⟨fun bad => congrArg _ (State.doorbell_badIndex bound ?_ _), fun bad => congrArg _ (State.doorbell_badIndex bound ?_ _),
      fun bad => congrArg _ (State.doorbell_badIndex bound ?_ _)⟩
    · simpa only [serialDiff_word_left, Bool.and_eq_false_iff, decide_eq_false_iff_not, Int.not_le] using bad
    · simpa only [serialDiff_word_left, serialDiff_word_right, Bool.and_eq_false_iff, decide_eq_false_iff_not, Int.not_le] using bad
    · simpa only [serialDiff_word_left, serialDiff_word_right, Bool.and_eq_false_iff, decide_eq_false_iff_not, beq_eq_false_iff_ne,
        Int.not_le, or_assoc, State.queueCtx] using bad
  case sameTail =>
    intro s src q hr bound room
    have held : (BitVec.ofNat 32 (s.tail q.val)).toNat = s.tail q.val := s.index_word rfl q.val
    rw [exec_dbSubmit hr, held, State.dbSubmit_held bound room]
  case sameCqHead =>
    intro s src q hr wf bound room
    have held : (BitVec.ofNat 32 (s.cqHead q.val)).toNat = s.cqHead q.val := s.index_word rfl q.val
    rw [exec_dbCqHead hr, held, State.dbCqHead_held wf bound room]
  case reservedWrite =>
    intro s owner q v op
    have written : s.writeReg owner .QUE_DOORBELL q v = (s.doorbell .controlNode q false id, ST_OK, 0) := by
      simp only [State.writeReg, State.writeDoorbell, op]
    rw [written]
    exact ⟨fun bound => congrArg (·, ST_OK, 0) (State.doorbell_badIndex bound rfl id),
      fun unbound => congrArg (·, ST_OK, 0) (State.doorbell_notBound unbound false id)⟩
  case reservedPacket =>
    intro s wing u p whole check kind op later fresh
    rw [State.consume_reservedDoorbell wing whole check kind op later fresh]
    exact ⟨fun bound => State.doorbell_badIndex ((State.setReceived_dbBound ..).trans bound) rfl id,
      fun unbound => State.doorbell_notBound ((State.setReceived_dbBound ..).trans unbound) false id⟩

end Sys2Proof.Machine
end

section
/-! Doorbells, slots and queue commands, from the states that their statement names. -/

namespace Sys2Proof.Machine

/-- Indexes at a positive distance differ. -/
theorem ne_of_serialDiff_pos {a b : Nat} (ahead : 0 < serialDiff a b) : a ≠ b := by
  rintro rfl
  exact absurd ahead (by rw [serialDiff_self]; decide)

/-- A slot that carries its LAP, that no check refuses and whose waits are met starts (R147). -/
theorem State.tryStart_ready {s : State} {q : Nat} (may : s.mayStart q = true) (sound : s.headFault q = none)
    (lap : slotLap (s.headSlot q) = s.headLap q) (allowed : s.slotRefusal (s.queueCtx q) q (s.headSlot q) = none)
    (met : (List.range (slotWaits (s.headSlot q))).all (fun i => s.waitMet (s.queueCtx q) (slotWait (s.headSlot q) i)) = true) :
    s.tryStart q = s.startCmd q (s.headSlot q) (slotOpcode (s.headSlot q)) none := by
  simp only [State.tryStart, may, sound, lap, allowed, met, ne_eq, not_true_eq_false, Bool.true_eq_false, if_false, if_true]

/-- A move whose operands are in order goes on (R256). -/
theorem State.move_ok {s : State} {q i op : Nat} {r : RunCmd} (found : s.run q i = some r) (kind : r.opcode = op)
    (ok : moveOk r = true) : s.move q i op = s.moveOn r := by
  simp only [State.move, found, kind, ok, ne_eq, not_true_eq_false, Bool.true_eq_false, and_false, if_false]

/-- Settles O17: a doorbell passes both checks, a slot starts or its wait for the LAP is over, and a command that has started does its
work. The slot that LAP_TIMEOUT ends shows as OPCODE 0 (log entry 45). -/
theorem queueCommandsComplete : Obligations.queueCommandsComplete := by
  refine ⟨?submit, ?cqHead, ?resume, ?start, ?lapTimeout, ?nop, ?wait, ?signal, ?fence, ?fenceComplete, ?poolRead, ?poolWrite⟩
  case submit =>
    intro s src queue index hr bound ahead room
    rw [exec_dbSubmit hr, State.dbSubmit,
      State.doorbell_accepted bound (Bool.and_eq_true_iff.mpr ⟨decide_eq_true (Int.le_of_lt ahead), decide_eq_true room⟩),
      if_neg (ne_of_serialDiff_pos ahead)]
    exact ⟨_, rfl, rfl, rfl⟩
  case cqHead =>
    intro s src queue index hr bound notBack notPast
    rw [exec_dbCqHead hr, State.dbCqHead,
      State.doorbell_accepted bound (Bool.and_eq_true_iff.mpr ⟨decide_eq_true notBack, decide_eq_true notPast⟩)]
  case resume =>
    intro s src queue index hr bound stopped active notBack notPast
    have good : (s.fld F.QUE_CFG_STATE queue.val == 2 && s.ctxState (s.queueCtx queue.val) == 1
        && decide (0 ≤ serialDiff index.toNat (s.head queue.val))
        && decide (0 ≤ serialDiff (s.tail queue.val) index.toNat)) = true := by
      rw [stopped, active, decide_eq_true notBack, decide_eq_true notPast]
      rfl
    rw [exec_dbResume hr, State.dbResume, State.doorbell_accepted bound good]
  case start =>
    rintro s queue _ hr rfl may sound lap allowed met
    have started := State.tryStart_ready may sound lap allowed met
    constructor
    · show execCommandStart queue s = _
      rw [execCommandStart, act_running hr, started]
    · show execLapReread queue s = _
      rw [execLapReread, act_running hr, started]
  case lapTimeout =>
    intro s queue l hr cover may waited sound lap
    have readable : (s.headFault queue.val).isNone = true := by rw [sound]; rfl
    show execLapTimeout queue s = _
    rw [execLapTimeout, act_running hr]
    simp only [cover]
    exact congrArg _ (if_pos ⟨may, waited, readable, lap⟩)
  case nop =>
    intro s queue index r hr fresh
    show execNop queue index s = _
    rw [execNop, act_running hr]
    simp only [fresh]
  case wait =>
    intro s queue index r hr fresh
    show execWait queue index s = _
    rw [execWait, act_running hr]
    simp only [fresh]
  case signal =>
    intro s queue index r hr fresh
    show execSignal queue index s = _
    rw [execSignal, act_running hr]
    simp only [fresh]
  case fence =>
    intro s queue index r hr fresh
    have ran : exec (.fence queue index) s = execFence queue index s := rfl
    rw [ran, execFence, act_running hr]
    simp only [fresh]
    exact ⟨_, rfl⟩
  case fenceComplete =>
    intro s queue index r hr found kind begun running commandFence first landed
    show execFenceComplete queue index s = _
    rw [execFenceComplete, act_running hr]
    simp only [found, kind, begun, running, commandFence, first, landed, ne_eq, not_true_eq_false, Option.isSome_none, Bool.true_eq_false,
      Bool.false_eq_true, or_self, if_false, if_true]
  case poolRead =>
    intro s queue index r hr found kind ok
    show execPoolRead queue index s = _
    rw [execPoolRead, act_running hr, State.move_ok found kind ok]
  case poolWrite =>
    intro s queue index r hr found kind ok
    show execPoolWrite queue index s = _
    rw [execPoolWrite, act_running hr, State.move_ok found kind ok]

end Sys2Proof.Machine
end

section
/-! The steps of a bouquet and OP commands, from the states that their statement names. -/

namespace Sys2Proof.Machine

/-- Settles O21: the step, the OP command or the core that each command looks for is there, and its branch is the effect written. -/
theorem stepsAndOpsComplete : Obligations.stepsAndOpsComplete := by
  refine ⟨?stepRun, ?stepComplete, ?op, ?opStepStart, ?opNoFit, ?tileReload, ?commandComplete⟩
  case stepRun =>
    intro s handle step remote b st n hr part hstep node here hawk auto due runs unrun
    show execStepRun handle step remote s = _
    rw [execStepRun, act_running hr]
    simp only [part, hstep, node, here, hawk, auto, due, runs, unrun, Bool.not_false, and_self, if_false, if_true]
  case stepComplete =>
    intro s handle step x hr found landed
    show execStepComplete handle step s = _
    rw [execStepComplete, act_running hr]
    simp only [found, landed, if_true]
  case op =>
    intro s queue index remote r b st n hr fresh step ready allowed hawk here owner noArg
    show execOp queue index remote s = _
    rw [execOp, act_running hr]
    simp only [fresh, step, ready, allowed, hawk, here, owner, noArg, ne_eq, not_true_eq_false, Bool.true_eq_false, or_self, if_false,
      if_true]
  case opStepStart =>
    intro s queue index remote r b st n hr waits step low high ready full free short
    show execOpStepStart queue index remote s = _
    rw [execOpStepStart, act_running hr]
    simp only [waits, step, low, high, ready, full, free, short, and_self, if_true]
  case opNoFit =>
    intro s queue index r hr waits late
    show execOpNoFit queue index s = _
    rw [execOpNoFit, act_running hr]
    simp only [waits, late, if_true]
  case tileReload =>
    intro s handle node core remote b n hr part found stale present free full other
    show execTileReload handle node core remote s = _
    rw [execTileReload, act_running hr]
    simp only [part, found, stale, present, free, full, other, ne_eq, not_true_eq_false, not_false_eq_true, Bool.true_eq_false,
      Bool.false_eq_true, or_self, if_false, if_true]
  case commandComplete =>
    rintro s _ queue index r st hr rfl found final unheld
    show execCommandComplete queue index s = _
    rw [execCommandComplete, act_running hr]
    simp only [found, final, unheld, Bool.false_eq_true, if_false]

end Sys2Proof.Machine
end

section
/-! Folds of an operation that is commutative and associative on bounded values only. -/

namespace Sys2Proof.Machine

/-- An operation on values of a weight: what `j` and `k` inputs make together is of weight `j + k`, and as long as the weights stay
within `cap` the operation is commutative and associative. -/
structure CombinesWithin {α : Type} (cap : Nat) (f : α → α → α) (P : Nat → α → Prop) : Prop where
  closed : ∀ {j k a b}, P j a → P k b → j + k ≤ cap → P (j + k) (f a b)
  comm : ∀ {j k a b}, P j a → P k b → j + k ≤ cap → f a b = f b a
  assoc : ∀ {i j k a b c}, P i a → P j b → P k c → i + j + k ≤ cap → f (f a b) c = f a (f b c)

namespace CombinesWithin

variable {α : Type} {cap : Nat} {f : α → α → α} {P : Nat → α → Prop} (C : CombinesWithin cap f P)
include C

/-- A fold over inputs of weight 1 has the weight of all of them. -/
theorem foldl_closed {l : List α} : ∀ {k : Nat} {z : α}, P k z → (∀ b ∈ l, P 1 b) → k + l.length ≤ cap →
    P (k + l.length) (l.foldl f z) := by
  induction l with
  | nil => exact fun hz _ _ => hz
  | cons b t ih =>
    intro k z hz hl hcap
    obtain ⟨hb, ht⟩ := List.forall_mem_cons.mp hl
    rw [List.length_cons] at hcap ⊢
    have next := ih (C.closed hz hb (by omega)) ht (by omega)
    rwa [Nat.add_assoc, Nat.add_comm 1] at next

/-- The second of two folds may be taken into the first. -/
theorem foldl_foldl {m : List α} : ∀ {j k : Nat} {z y : α}, P j z → P k y → (∀ b ∈ m, P 1 b) → j + k + m.length ≤ cap →
    f z (m.foldl f y) = m.foldl f (f z y) := by
  induction m with
  | nil => exact fun _ _ _ _ => rfl
  | cons b t ih =>
    intro j k z y hz hy hm hcap
    obtain ⟨hb, ht⟩ := List.forall_mem_cons.mp hm
    rw [List.length_cons] at hcap
    rw [List.foldl_cons, List.foldl_cons, ih hz (C.closed hy hb (by omega)) ht (by omega), C.assoc hz hy hb (by omega)]

/-- From one start, the order of the further inputs does not matter. -/
theorem foldl_perm {l m : List α} (p : l.Perm m) : ∀ {k : Nat} {z : α}, P k z → (∀ b ∈ l, P 1 b) → k + l.length ≤ cap →
    l.foldl f z = m.foldl f z := by
  induction p with
  | nil => exact fun _ _ _ => rfl
  | cons b _ ih =>
    intro k z hz hl hcap
    obtain ⟨hb, ht⟩ := List.forall_mem_cons.mp hl
    rw [List.length_cons] at hcap
    exact ih (C.closed hz hb (by omega)) ht (by omega)
  | swap a b t =>
    intro k z hz hl hcap
    obtain ⟨hb, hat⟩ := List.forall_mem_cons.mp hl
    have ha := hat a (List.mem_cons_self ..)
    have within : k + 1 + 1 ≤ cap := by simp only [List.length_cons] at hcap; omega
    have swapped : f (f z b) a = f (f z a) b := by
      rw [C.assoc hz hb ha within, C.comm hb ha (by omega), C.assoc hz ha hb within]
    rw [List.foldl_cons, List.foldl_cons, List.foldl_cons, List.foldl_cons, swapped]
  | trans p _ ih₁ ih₂ =>
    intro k z hz hl hcap
    rw [ih₁ hz hl hcap, ih₂ hz (fun b hb => hl b (p.mem_iff.mpr hb)) (p.length_eq ▸ hcap)]

/-- The first input may be any of them. -/
theorem foldl_perm_cons {x y : α} {l m : List α} (p : (x :: l).Perm (y :: m)) (all : ∀ b ∈ x :: l, P 1 b)
    (hcap : (x :: l).length ≤ cap) : l.foldl f x = m.foldl f y := by
  classical
  obtain ⟨hx, hl⟩ := List.forall_mem_cons.mp all
  rw [List.length_cons] at hcap
  by_cases same : x = y
  · subst same
    exact C.foldl_perm (List.perm_cons x |>.mp p) hx hl (by omega)
  · have mem : y ∈ l := (List.mem_cons.mp (p.mem_iff.mpr (List.mem_cons_self ..))).resolve_left (Ne.symm same)
    have front : l.Perm (y :: l.erase y) := List.perm_cons_erase mem
    have rest : (x :: l.erase y).Perm m := (List.perm_cons y).mp ((List.Perm.swap x y _).trans ((front.cons x).symm.trans p))
    have hy : P 1 y := hl y mem
    have hrest : ∀ b ∈ x :: l.erase y, P 1 b :=
      List.forall_mem_cons.mpr ⟨hx, fun b hb => hl b (List.mem_of_mem_erase hb)⟩
    have len : l.length = (l.erase y).length + 1 := front.length_eq
    calc l.foldl f x = (l.erase y).foldl f (f x y) := C.foldl_perm front hx hl (by omega)
      _ = (l.erase y).foldl f (f y x) := by rw [C.comm hx hy (by omega)]
      _ = m.foldl f y := C.foldl_perm rest hy hrest (by simp only [List.length_cons]; omega)

end CombinesWithin

end Sys2Proof.Machine
end

section
/-! Two's complement numbers, and the sum of two of them (R168, R177, R180). -/

namespace Sys2Proof.Machine

/-- A power of two among the naturals and among the integers. -/
theorem natCast_two_pow (n : Nat) : ((2 ^ n : Nat) : Int) = 2 ^ n := Int.natCast_pow 2 n

/-- The sum of two 64-bit patterns is the pattern of the sum, as far as that has one. -/
theorem toSigned_add {x y : Nat} (low : -2 ^ 63 ≤ toSigned 64 x + toSigned 64 y) (high : toSigned 64 x + toSigned 64 y < 2 ^ 63) :
    toSigned 64 ((x + y) % 2 ^ 64) = toSigned 64 x + toSigned 64 y := by
  simp only [toSigned, Nat.add_one_sub_one, Nat.reducePow, Int.reducePow, Int.reduceNeg, Nat.mod_mod] at *
  split at low <;> split at low <;> split <;> omega

/-- The marker is the least of the 64-bit numbers, so a number of less magnitude is none (R179). -/
theorem ne_marker_of_natAbs_lt {v : Nat} (small : (toSigned 64 v).natAbs < 2 ^ 63) : v ≠ marker := by
  rintro rfl
  exact absurd small (by decide)

end Sys2Proof.Machine
end

section
/-! Fixed-accord sums, block by block (R177, R179). -/

namespace Sys2Proof.Machine

/-! ### One block -/

/-- The sum of two blocks of 32 integers: a marked block stays marked (R177, R179). -/
def addBlock (p q : List Nat) : List Nat :=
  if p.contains marker ∨ q.contains marker then p.map fun _ => marker else (p.zip q).map fun x => (x.1 + x.2) % 2 ^ 64

theorem addBlock_marked {p q : List Nat} (h : marker ∈ p ∨ marker ∈ q) : addBlock p q = List.replicate p.length marker := by
  simp only [addBlock, List.contains_iff_mem, if_pos h, List.map_const']

theorem addBlock_sum {p q : List Nat} (h : ¬(marker ∈ p ∨ marker ∈ q)) :
    addBlock p q = List.zipWith (fun x y => (x + y) % 2 ^ 64) p q := by
  simp only [addBlock, List.contains_iff_mem, if_neg h, List.zip, List.map_zipWith]

theorem length_addBlock {p q : List Nat} (len : p.length = q.length) : (addBlock p q).length = p.length := by
  by_cases h : marker ∈ p ∨ marker ∈ q
  · rw [addBlock_marked h, List.length_replicate]
  · rw [addBlock_sum h, List.length_zipWith, len, Nat.min_self]

theorem addBlock_comm {p q : List Nat} (len : p.length = q.length) : addBlock p q = addBlock q p := by
  by_cases h : marker ∈ p ∨ marker ∈ q
  · rw [addBlock_marked h, addBlock_marked h.symm, len]
  · rw [addBlock_sum h, addBlock_sum (mt Or.symm h), List.zipWith_comm]
    simp only [Nat.add_comm]

/-! ### What up to `k` contributions make -/

/-- A list of partial values of at most `k` contributions of at most 2^46 in magnitude, or marked. -/
def FixedWithin (k : Nat) (a : List Nat) : Prop := ∀ v ∈ a, v < 2 ^ 64 ∧ (v = marker ∨ (toSigned 64 v).natAbs ≤ k * 2 ^ 46)

theorem FixedWithin.subset {k : Nat} {a b : List Nat} (h : FixedWithin k b) (sub : a ⊆ b) : FixedWithin k a :=
  fun v hv => h v (sub hv)

/-- Within 65,536 contributions the sum of two partial values is the exact sum. -/
theorem FixedWithin.toSigned_add {j k : Nat} {a b : List Nat} {x y : Nat} (ha : FixedWithin j a) (hb : FixedWithin k b)
    (few : j + k ≤ 65536) (hx : x ∈ a) (hy : y ∈ b) (na : marker ∉ a) (nb : marker ∉ b) :
    (toSigned 64 ((x + y) % 2 ^ 64)).natAbs ≤ (j + k) * 2 ^ 46 := by
  have bx := (ha x hx).2.resolve_left fun h => na (h ▸ hx)
  have by' := (hb y hy).2.resolve_left fun h => nb (h ▸ hy)
  have room : (j + k) * 2 ^ 46 < 2 ^ 63 := by omega
  rw [Nat.add_mul] at room ⊢
  rw [Machine.toSigned_add (by omega) (by omega)]
  exact Nat.le_trans (Int.natAbs_add_le ..) (Nat.add_le_add bx by')

theorem FixedWithin.addBlock {j k : Nat} {p q : List Nat} (hp : FixedWithin j p) (hq : FixedWithin k q) (few : j + k ≤ 65536) :
    FixedWithin (j + k) (addBlock p q) := by
  intro v hv
  by_cases h : marker ∈ p ∨ marker ∈ q
  · rw [addBlock_marked h] at hv
    rw [List.eq_of_mem_replicate hv]
    exact ⟨by decide, .inl rfl⟩
  · rw [addBlock_sum h, ← List.map_uncurry_zip_eq_zipWith] at hv
    obtain ⟨⟨x, y⟩, hxy, rfl⟩ := List.mem_map.mp hv
    obtain ⟨hx, hy⟩ := List.of_mem_zip hxy
    obtain ⟨np, nq⟩ := not_or.mp h
    exact ⟨Nat.mod_lt _ (by decide), .inr (hp.toSigned_add hq few hx hy np nq)⟩

/-- A sum of unmarked blocks is unmarked: no exact sum of at most 65,536 contributions is −2^63. -/
theorem marker_mem_addBlock {j k : Nat} {p q : List Nat} (hp : FixedWithin j p) (hq : FixedWithin k q) (few : j + k ≤ 65536)
    (len : p.length = q.length) : marker ∈ addBlock p q ↔ marker ∈ p ∨ marker ∈ q := by
  by_cases h : marker ∈ p ∨ marker ∈ q
  · have some : p.length ≠ 0 := by
      rcases h with h | h
      · exact Nat.ne_of_gt (List.length_pos_of_mem h)
      · exact len ▸ Nat.ne_of_gt (List.length_pos_of_mem h)
    rw [addBlock_marked h, List.mem_replicate]
    exact ⟨fun _ => h, fun _ => ⟨some, rfl⟩⟩
  · refine ⟨fun hv => ?_, fun hv => absurd hv h⟩
    rw [addBlock_sum h, ← List.map_uncurry_zip_eq_zipWith] at hv
    obtain ⟨⟨x, y⟩, hxy, eq⟩ := List.mem_map.mp hv
    obtain ⟨hx, hy⟩ := List.of_mem_zip hxy
    obtain ⟨np, nq⟩ := not_or.mp h
    have small := hp.toSigned_add hq few hx hy np nq
    exact absurd eq (ne_marker_of_natAbs_lt (Nat.lt_of_le_of_lt small (by omega)))

theorem addBlock_assoc {i j k : Nat} {p q r : List Nat} (hp : FixedWithin i p) (hq : FixedWithin j q) (hr : FixedWithin k r)
    (few : i + j + k ≤ 65536) (len : p.length = q.length) (len' : q.length = r.length) :
    addBlock (addBlock p q) r = addBlock p (addBlock q r) := by
  have left := marker_mem_addBlock hp hq (by omega) len
  have right := marker_mem_addBlock hq hr (by omega) len'
  by_cases h : (marker ∈ p ∨ marker ∈ q) ∨ marker ∈ r
  · rw [addBlock_marked (p := addBlock p q) (h.imp_left left.mpr), addBlock_marked (q := addBlock q r)
      ((or_assoc.mp h).imp_right right.mpr), length_addBlock len]
  · rw [addBlock_sum (p := addBlock p q) (mt (Or.imp_left left.mp) h), addBlock_sum (q := addBlock q r)
      (mt (fun g => or_assoc.mpr (Or.imp_right right.mp g)) h), addBlock_sum fun g => h (.inl g),
      addBlock_sum fun g => h (g.elim (fun g => .inl (.inr g)) .inr)]
    refine List.ext_getElem? fun n => ?_
    simp only [List.getElem?_zipWith]
    cases p[n]? <;> cases q[n]? <;> cases r[n]? <;>
      simp only [Nat.mod_add_mod, Nat.add_mod_mod, Nat.add_assoc]

/-! ### Whole lists -/

/-- Cutting with more fuel than elements gives no further blocks. -/
theorem blocksOf_fuel {n : Nat} : ∀ {f g : Nat} {xs : List Nat}, xs.length ≤ f → f ≤ g →
    blocksOf (n + 1) f xs = blocksOf (n + 1) g xs
  | 0, 0, _, _, _ => rfl
  | 0, _ + 1, [], _, _ => rfl
  | _ + 1, _ + 1, [], _, _ => rfl
  | f + 1, g + 1, x :: t, fuel, le => by
    have rest : ((x :: t).drop (n + 1)).length ≤ f := by
      rw [List.drop_succ_cons, List.length_drop]
      exact Nat.le_trans (Nat.sub_le ..) (Nat.le_of_succ_le_succ fuel)
    rw [blocksOf, blocksOf, blocksOf_fuel rest (Nat.le_of_succ_le_succ le)]

/-- A list that is not empty is cut in its first block and the blocks of the rest. -/
theorem blocksOf_ne_nil {n : Nat} {xs : List Nat} (nonempty : xs ≠ []) : blocksOf (n + 1) xs.length xs =
    xs.take (n + 1) :: blocksOf (n + 1) (xs.drop (n + 1)).length (xs.drop (n + 1)) := by
  cases xs with
  | nil => exact absurd rfl nonempty
  | cons x t =>
    have rest : ((x :: t).drop (n + 1)).length ≤ t.length := by
      rw [List.drop_succ_cons, List.length_drop]
      exact Nat.sub_le ..
    exact congrArg _ (blocksOf_fuel (Nat.le_refl _) rest).symm

/-- A fixed-accord sum adds the first blocks, and then the rest. -/
theorem fixAdd_step {a b : List Nat} (len : a.length = b.length) :
    fixAdd a b = addBlock (a.take 32) (b.take 32) ++ fixAdd (a.drop 32) (b.drop 32) := by
  by_cases h : a = []
  · subst h
    rw [List.length_eq_zero_iff.mp len.symm]
    rfl
  · have h' : b ≠ [] := fun e => h (List.length_eq_zero_iff.mp (by rw [len, e]; rfl))
    rw [fixAdd, blocksOf_ne_nil h, blocksOf_ne_nil h', List.zip_cons_cons, List.flatMap_cons]
    rfl

/-- Induction over the blocks of a list. -/
theorem blockInduction {motive : List Nat → Prop} (nil : motive []) (block : ∀ a, motive (a.drop 32) → motive a) (a : List Nat) :
    motive a := by
  by_cases h : a = []
  · exact h ▸ nil
  · exact block a (blockInduction nil block (a.drop 32))
termination_by a.length
decreasing_by
  have := List.length_pos_iff.mpr h
  rw [List.length_drop]
  omega

section
variable {a b : List Nat} (len : a.length = b.length)
include len

theorem length_drop_eq : (a.drop 32).length = (b.drop 32).length := by rw [List.length_drop, List.length_drop, len]

theorem length_take_eq : (a.take 32).length = (b.take 32).length := by rw [List.length_take, List.length_take, len]

/-- The first block of a sum is whole where a further one follows. -/
theorem length_addBlock_take : (addBlock (a.take 32) (b.take 32)).length = 32 ∨
    (addBlock (a.take 32) (b.take 32)).length ≤ 32 ∧ fixAdd (a.drop 32) (b.drop 32) = [] := by
  rw [length_addBlock (length_take_eq len), List.length_take]
  by_cases long : 32 ≤ a.length
  · exact .inl (Nat.min_eq_left long)
  · refine .inr ⟨Nat.min_le_left .., ?_⟩
    rw [List.drop_eq_nil_of_le (Nat.le_of_not_le long), List.drop_eq_nil_of_le (len ▸ Nat.le_of_not_le long)]
    rfl

theorem fixAdd_take : (fixAdd a b).take 32 = addBlock (a.take 32) (b.take 32) := by
  rw [fixAdd_step len]
  rcases length_addBlock_take len with whole | ⟨short, last⟩
  · exact List.take_left' whole
  · rw [last, List.append_nil, List.take_of_length_le short]

theorem fixAdd_drop : (fixAdd a b).drop 32 = fixAdd (a.drop 32) (b.drop 32) := by
  rw [fixAdd_step len]
  rcases length_addBlock_take len with whole | ⟨short, last⟩
  · exact List.drop_left' whole
  · rw [last, List.append_nil, List.drop_eq_nil_of_le short]

end

theorem length_fixAdd {a b : List Nat} (len : a.length = b.length) : (fixAdd a b).length = a.length := by
  induction a using blockInduction generalizing b with
  | nil => rfl
  | block a ih =>
    rw [fixAdd_step len, List.length_append, ih (length_drop_eq len), length_addBlock (length_take_eq len), ← List.length_append,
      List.take_append_drop]

theorem fixAdd_comm {a b : List Nat} (len : a.length = b.length) : fixAdd a b = fixAdd b a := by
  induction a using blockInduction generalizing b with
  | nil => rw [List.length_eq_zero_iff.mp len.symm]
  | block a ih => rw [fixAdd_step len, fixAdd_step len.symm, ih (length_drop_eq len), addBlock_comm (length_take_eq len)]

theorem FixedWithin.fixAdd {j k : Nat} {a b : List Nat} (ha : FixedWithin j a) (hb : FixedWithin k b) (few : j + k ≤ 65536)
    (len : a.length = b.length) : FixedWithin (j + k) (fixAdd a b) := by
  induction a using blockInduction generalizing b with
  | nil => exact fun _ hv => absurd hv List.not_mem_nil
  | block a ih =>
    intro v hv
    rw [fixAdd_step len] at hv
    rcases List.mem_append.mp hv with first | rest
    · exact (ha.subset (List.take_subset ..)).addBlock (hb.subset (List.take_subset ..)) few v first
    · exact ih (ha.subset (List.drop_subset ..)) (hb.subset (List.drop_subset ..)) (length_drop_eq len) v rest

theorem fixAdd_assoc {i j k : Nat} {a b c : List Nat} (ha : FixedWithin i a) (hb : FixedWithin j b) (hc : FixedWithin k c)
    (few : i + j + k ≤ 65536) (len : a.length = b.length) (len' : b.length = c.length) :
    fixAdd (fixAdd a b) c = fixAdd a (fixAdd b c) := by
  induction a using blockInduction generalizing b c with
  | nil =>
    rw [List.length_eq_zero_iff.mp (len.trans len').symm, List.length_eq_zero_iff.mp len.symm]
    rfl
  | block a ih =>
    rw [fixAdd_step ((length_fixAdd len).trans (len.trans len')), fixAdd_step (len.trans (length_fixAdd len').symm),
      fixAdd_take len, fixAdd_take len', fixAdd_drop len, fixAdd_drop len',
      ih (ha.subset (List.drop_subset ..)) (hb.subset (List.drop_subset ..)) (hc.subset (List.drop_subset ..)) (length_drop_eq len)
        (length_drop_eq len'),
      addBlock_assoc (ha.subset (List.take_subset ..)) (hb.subset (List.take_subset ..)) (hc.subset (List.take_subset ..)) few
        (length_take_eq len) (length_take_eq len')]

/-- Chunks of one length, each of up to `k` contributions, combine in any order up to 65,536 contributions (R177). -/
theorem fixAdd_combinesWithin (n : Nat) : CombinesWithin 65536 fixAdd fun k b => b.length = n ∧ FixedWithin k b where
  closed := fun ⟨la, ha⟩ ⟨lb, hb⟩ few => ⟨(length_fixAdd (la.trans lb.symm)).trans la, ha.fixAdd hb few (la.trans lb.symm)⟩
  comm := fun ⟨la, _⟩ ⟨lb, _⟩ _ => fixAdd_comm (la.trans lb.symm)
  assoc := fun ⟨la, ha⟩ ⟨lb, hb⟩ ⟨lc, hc⟩ few => fixAdd_assoc ha hb hc few (la.trans lb.symm) (lb.trans lc.symm)

/-- Settles O53: within 65,536 contributions a partial sum is exact or marked, so the sums commute and associate, and the folds over
the inputs of one node and over those of two nodes agree. -/
theorem fixedAccordSumsDoNotDependOnOrder : Obligations.fixedAccordSumsDoNotDependOnOrder := by
  intro n ok hok
  have combines := fixAdd_combinesWithin n
  have within : ∀ {b}, ok b → b.length = n ∧ FixedWithin 1 b := fun {b} hb => by
    simpa only [FixedWithin, Nat.one_mul] using (hok b).mp hb
  constructor
  · intro x y l m all few perm
    exact combines.foldl_perm_cons perm (fun b hb => within (all b hb)) few
  · intro x y l m all few
    obtain ⟨hx, hrest⟩ := List.forall_mem_cons.mp all
    obtain ⟨hl, hym⟩ := List.forall_mem_append.mp hrest
    obtain ⟨hy, hm⟩ := List.forall_mem_cons.mp hym
    have left := combines.foldl_closed (within hx) (fun b hb => within (hl b hb)) (by omega)
    rw [List.foldl_append, List.foldl_cons]
    exact combines.foldl_foldl left (within hy) (fun b hb => within (hm b hb)) (by omega)

end Sys2Proof.Machine
end

section
/-! Operations that a key orders: an operation that takes the greater, or the less, of two keys that tell values apart is
commutative and associative as that is. -/

namespace Sys2Proof.Machine

/-- A choice between two values is one of them. -/
theorem ite_choice {α : Type} (p : Prop) [Decidable p] (a b : α) : (if p then b else a) = a ∨ (if p then b else a) = b := by
  split
  · exact .inr rfl
  · exact .inl rfl

section
variable {κ : Type} {P : Nat → Prop} {key : Nat → κ} {f : Nat → Nat → Nat} {g : κ → κ → κ}
  (inj : ∀ {a b}, P a → P b → key a = key b → a = b) (choice : ∀ {a b}, P a → P b → f a b = a ∨ f a b = b)
  (image : ∀ {a b}, P a → P b → key (f a b) = g (key a) (key b))

include choice in
theorem closed_of_choice {a b : Nat} (ha : P a) (hb : P b) : P (f a b) := by
  rcases choice ha hb with eq | eq
  · rwa [eq]
  · rwa [eq]

include inj choice image

theorem comm_of_key [Std.Commutative g] {a b : Nat} (ha : P a) (hb : P b) : f a b = f b a :=
  inj (closed_of_choice choice ha hb) (closed_of_choice choice hb ha)
    (by rw [image ha hb, image hb ha, Std.Commutative.comm (op := g)])

theorem assoc_of_key [Std.Associative g] {a b c : Nat} (ha : P a) (hb : P b) (hc : P c) : f (f a b) c = f a (f b c) := by
  have left := closed_of_choice choice ha hb
  have right := closed_of_choice choice hb hc
  refine inj (closed_of_choice choice left hc) (closed_of_choice choice ha right) ?_
  rw [image left hc, image ha hb, image ha right, image hb hc, Std.Associative.assoc (op := g)]

/-- Such an operation combines any number of values. -/
theorem combinesWithin_of_key [Std.Commutative g] [Std.Associative g] (cap : Nat) : CombinesWithin cap f fun _ v => P v where
  closed := fun ha hb _ => closed_of_choice choice ha hb
  comm := fun ha hb _ => comm_of_key inj choice image ha hb
  assoc := fun ha hb hc _ => assoc_of_key inj choice image ha hb hc

end

end Sys2Proof.Machine
end

section
/-! Integer reductions (R168). -/

namespace Sys2Proof.Machine

/-- An integer format is one of the five of Table 8.2. -/
theorem eq_of_isInt {code : Nat} (h : isInt code = true) : code = 0x10 ∨ code = 0x11 ∨ code = 0x12 ∨ code = 0x13 ∨ code = 0x14 := by
  simp only [isInt, Bool.and_eq_true, decide_eq_true_eq] at h
  omega

theorem isFloat_of_isInt {code : Nat} (h : isInt code = true) : isFloat code = false := by
  rcases eq_of_isInt h with rfl | rfl | rfl | rfl | rfl <;> rfl

/-- A code of two's complement below its width's bound tells its number. -/
theorem toSigned_inj {w a b : Nat} (ha : a < 2 ^ w) (hb : b < 2 ^ w) (same : toSigned w a = toSigned w b) : a = b := by
  simp only [toSigned, Nat.mod_eq_of_lt ha, Nat.mod_eq_of_lt hb, ← natCast_two_pow] at same
  split at same <;> split at same <;> omega

theorem intVal_inj {code a b : Nat} (ha : a < 2 ^ elemBits code) (hb : b < 2 ^ elemBits code)
    (same : intVal code a = intVal code b) : a = b := by
  by_cases unsigned : code = 0x14
  · simp only [intVal, if_pos unsigned] at same
    exact Int.ofNat.inj same
  · simp only [intVal, if_neg unsigned] at same
    exact toSigned_inj ha hb same

section
variable {code : Nat} (int : isInt code = true) (a b : Nat)
include int

theorem combine_sum : combine RO_SUM code a b = (a + b) % 2 ^ 64 := by
  show (if isFloat code then _ else _) = _
  rw [isFloat_of_isInt int]
  rfl

theorem combine_min : combine RO_MIN code a b = if intVal code b < intVal code a then b else a := by
  show (if isFloat code then _ else _) = _
  rw [isFloat_of_isInt int]
  rfl

theorem combine_max : combine RO_MAX code a b = if intVal code a < intVal code b then b else a := by
  show (if isFloat code then _ else _) = _
  rw [isFloat_of_isInt int]
  rfl

theorem intVal_combine_min : intVal code (combine RO_MIN code a b) = min (intVal code a) (intVal code b) := by
  rw [combine_min int]
  split <;> omega

theorem intVal_combine_max : intVal code (combine RO_MAX code a b) = max (intVal code a) (intVal code b) := by
  rw [combine_max int]
  split <;> omega

end

theorem combine_and (code a b : Nat) : combine RO_AND code a b = a &&& b := rfl

theorem combine_or (code a b : Nat) : combine RO_OR code a b = a ||| b := rfl

theorem combine_xor (code a b : Nat) : combine RO_XOR code a b = a ^^^ b := rfl

/-- An operation on bounded values that is commutative and associative there combines any number of them. -/
theorem combinesWithin_of_bounded {bound : Nat} {f : Nat → Nat → Nat} (cap : Nat)
    (closed : ∀ {a b}, a < bound → b < bound → f a b < bound) (comm : ∀ {a b}, a < bound → b < bound → f a b = f b a)
    (assoc : ∀ {a b c}, a < bound → b < bound → c < bound → f (f a b) c = f a (f b c)) :
    CombinesWithin cap f fun _ v => v < bound where
  closed := fun ha hb _ => closed ha hb
  comm := fun ha hb _ => comm ha hb
  assoc := fun ha hb hc _ => assoc ha hb hc

/-- The range of the partial values of an integer reduction (R168). -/
def partialBound (op code : Nat) : Nat := 2 ^ (if op = RO_SUM then 64 else elemBits code)

/-- Every integer reduction is commutative and associative on its partial values (R168). -/
theorem combine_combinesWithin {op code : Nat} (int : isInt code = true)
    (reduction : op ∈ [RO_SUM, RO_MIN, RO_MAX, RO_AND, RO_OR, RO_XOR]) (cap : Nat) :
    CombinesWithin cap (combine op code) fun _ v => v < partialBound op code := by
  simp only [List.mem_cons, List.not_mem_nil, or_false] at reduction
  rcases reduction with rfl | rfl | rfl | rfl | rfl | rfl
  · refine combinesWithin_of_bounded cap (fun _ _ => ?_) (fun _ _ => ?_) (fun _ _ _ => ?_)
    · rw [combine_sum int]
      exact Nat.mod_lt _ (Nat.two_pow_pos 64)
    · rw [combine_sum int, combine_sum int, Nat.add_comm]
    · simp only [combine_sum int, Nat.mod_add_mod, Nat.add_mod_mod, Nat.add_assoc]
  · refine combinesWithin_of_key intVal_inj (fun _ _ => ?_) (fun _ _ => intVal_combine_min int ..) cap
    rw [combine_min int]
    exact ite_choice ..
  · refine combinesWithin_of_key intVal_inj (fun _ _ => ?_) (fun _ _ => intVal_combine_max int ..) cap
    rw [combine_max int]
    exact ite_choice ..
  · exact combinesWithin_of_bounded cap (fun _ hb => Nat.and_lt_two_pow _ hb) (fun _ _ => Nat.and_comm ..)
      (fun _ _ _ => Nat.and_assoc ..)
  · exact combinesWithin_of_bounded cap (fun ha hb => Nat.or_lt_two_pow ha hb) (fun _ _ => Nat.or_comm ..)
      (fun _ _ _ => Nat.or_assoc ..)
  · exact combinesWithin_of_bounded cap (fun ha hb => Nat.xor_lt_two_pow ha hb) (fun _ _ => Nat.xor_comm ..)
      (fun _ _ _ => Nat.xor_assoc ..)

/-! ### The output (R168) -/

theorem elemBits_pos {code : Nat} (int : isInt code = true) : 0 < elemBits code := by
  rcases eq_of_isInt int with rfl | rfl | rfl | rfl | rfl <;> decide

/-- The two's complement code of a number that `w` bits hold is below 2^w and stands for the number. -/
theorem toSigned_emod {w : Nat} {v : Int} (pos : 0 < w) (low : -2 ^ (w - 1) ≤ v) (high : v < 2 ^ (w - 1)) :
    (v % 2 ^ w).toNat < 2 ^ w ∧ toSigned w (v % 2 ^ w).toNat = v := by
  obtain ⟨n, rfl⟩ : ∃ n, w = n + 1 := ⟨w - 1, (Nat.succ_pred_eq_of_pos pos).symm⟩
  have whole : (2 ^ (n + 1) : Int) = ((2 ^ n : Nat) : Int) * 2 := by rw [Int.pow_succ, natCast_two_pow]
  rw [Nat.add_one_sub_one, ← natCast_two_pow] at low high
  rw [toSigned, Nat.add_one_sub_one, whole, Nat.pow_succ]
  generalize (2 ^ n : Nat) = h at low high ⊢
  by_cases neg : v < 0
  · have code : v % (h * 2) = v + h * 2 := by
      rw [← Int.add_emod_right, Int.emod_eq_of_lt (by omega) (by omega)]
    have small : (v % (h * 2)).toNat < h * 2 := by omega
    refine ⟨small, ?_⟩
    rw [Nat.mod_eq_of_lt small, if_neg (by omega)]
    omega
  · have code : v % (h * 2) = v := Int.emod_eq_of_lt (by omega) (by omega)
    have small : (v % (h * 2)).toNat < h * 2 := by omega
    refine ⟨small, ?_⟩
    rw [Nat.mod_eq_of_lt small, if_pos (by omega)]
    omega

/-- Saturation gives the nearest number of the output format (R168). -/
theorem saturate_nearest {outF : Nat} (v : Int) (int : isInt outF = true) : saturate outF v < 2 ^ elemBits outF ∧
    intVal outF (saturate outF v) = if outF = 0x14 then min (max v 0) (2 ^ 64 - 1)
      else min (max v (-(2 ^ (elemBits outF - 1)))) (2 ^ (elemBits outF - 1) - 1) := by
  by_cases unsigned : outF = 0x14
  · subst unsigned
    simp only [saturate, intVal, elemBits, if_true]
    omega
  · simp only [saturate, intVal, if_neg unsigned]
    have half : (0 : Int) < 2 ^ (elemBits outF - 1) := Int.pow_pos (by decide)
    exact toSigned_emod (elemBits_pos int) (by omega) (by omega)

/-- Settles O47: the partial values of each operation form a commutative semigroup, and saturation gives the nearest number. -/
theorem integerReductionsDoNotDependOnOrder : Obligations.integerReductionsDoNotDependOnOrder := by
  rintro op code int reduction _ rfl
  have combines := combine_combinesWithin int reduction
  refine ⟨fun a b ha hb => ?_, fun x y l m all perm => ?_, fun outF v outInt => saturate_nearest v outInt⟩
  · have closed := (combines 0).closed (j := 0) (k := 0) ha hb (Nat.le_refl 0)
    have comm := (combines 0).comm (j := 0) (k := 0) ha hb (Nat.le_refl 0)
    refine ⟨closed, ?_, ?_, ?_, ?_, ?_, ?_, comm, fun c hc => (combines 0).assoc (i := 0) (j := 0) (k := 0) ha hb hc (Nat.le_refl 0)⟩
    · exact fun h => h ▸ combine_sum int a b
    · exact fun h => h ▸ intVal_combine_min int a b
    · exact fun h => h ▸ intVal_combine_max int a b
    · exact fun h => h ▸ combine_and code a b
    · exact fun h => h ▸ combine_or code a b
    · exact fun h => h ▸ combine_xor code a b
  · exact (combines _).foldl_perm_cons perm all (Nat.le_refl _)

end Sys2Proof.Machine
end

section
/-! MIN and MAX of FP32 values, and of pairs (R169, R170). -/

namespace Sys2Proof.Machine

/-- FP32 values at the same place of the order are the same (R169). -/
theorem f32Key_inj {a b : Nat} (ha : a < 2 ^ 32) (hb : b < 2 ^ 32) (same : f32Key a = f32Key b) : a = b := by
  simp only [f32Key] at same
  split at same <;> split at same <;> omega

section
variable (up : Bool) {a b c : Nat}

theorem minmaxF32_nan (h : f32Nan a = true ∨ f32Nan b = true) : minmaxF32 up a b = canonNan := if_pos h

section
variable (ha : f32Nan a = false) (hb : f32Nan b = false)
include ha hb

theorem minmaxF32_number : minmaxF32 up a b = if decide (f32Key a < f32Key b) == up then b else a := by
  rw [minmaxF32, if_neg (by simp only [ha, hb, Bool.false_eq_true, or_self, not_false_eq_true])]

theorem minmaxF32_choice : minmaxF32 up a b = a ∨ minmaxF32 up a b = b := by
  rw [minmaxF32_number up ha hb]
  exact ite_choice ..

/-- Between numbers, MIN takes the lower place of the order and MAX the higher (R169). -/
theorem f32Key_minmaxF32 : f32Key (minmaxF32 up a b) =
    if up then max (f32Key a) (f32Key b) else min (f32Key a) (f32Key b) := by
  rw [minmaxF32_number up ha hb, apply_ite f32Key]
  generalize f32Key a = x, f32Key b = y
  cases up
  · simp only [beq_false, Bool.not_eq_true', decide_eq_false_iff_not, Int.not_lt, Bool.false_eq_true, if_false]
    split <;> omega
  · simp only [beq_true, decide_eq_true_eq, if_true]
    split <;> omega

end

/-- A 32-bit pattern that is a number. -/
def IsF32Number (a : Nat) : Prop := a < 2 ^ 32 ∧ f32Nan a = false

/-- MIN and MAX combine any number of FP32 numbers in any order (R169). -/
theorem minmaxF32_combinesWithin (cap : Nat) : CombinesWithin cap (minmaxF32 up) fun _ => IsF32Number := by
  have inj : ∀ {a b}, IsF32Number a → IsF32Number b → f32Key a = f32Key b → a = b := fun ha hb => f32Key_inj ha.1 hb.1
  have choice : ∀ {a b}, IsF32Number a → IsF32Number b → minmaxF32 up a b = a ∨ minmaxF32 up a b = b :=
    fun ha hb => minmaxF32_choice up ha.2 hb.2
  have image := fun {a b} (ha : IsF32Number a) (hb : IsF32Number b) => f32Key_minmaxF32 up ha.2 hb.2
  cases up
  · simp only [Bool.false_eq_true, if_false] at image
    exact combinesWithin_of_key inj choice image cap
  · simp only [if_true] at image
    exact combinesWithin_of_key inj choice image cap

theorem f32Nan_canonNan : f32Nan canonNan = true := by decide

/-- The result is a NaN exactly where an input is. -/
theorem f32Nan_minmaxF32 : f32Nan (minmaxF32 up a b) = (f32Nan a || f32Nan b) := by
  by_cases nan : f32Nan a = true ∨ f32Nan b = true
  · rw [minmaxF32_nan up nan, f32Nan_canonNan, Bool.or_eq_true_iff.mpr nan]
  · obtain ⟨ha, hb⟩ := not_or.mp nan
    rw [Bool.not_eq_true] at ha hb
    rcases minmaxF32_choice up ha hb with eq | eq <;> rw [eq, ha, hb] <;> rfl

theorem minmaxF32_comm (ha : a < 2 ^ 32) (hb : b < 2 ^ 32) : minmaxF32 up a b = minmaxF32 up b a := by
  by_cases nan : f32Nan a = true ∨ f32Nan b = true
  · rw [minmaxF32_nan up nan, minmaxF32_nan up nan.symm]
  · obtain ⟨na, nb⟩ := not_or.mp nan
    rw [Bool.not_eq_true] at na nb
    exact (minmaxF32_combinesWithin up 0).comm (j := 0) (k := 0) ⟨ha, na⟩ ⟨hb, nb⟩ (Nat.le_refl 0)

theorem minmaxF32_assoc (ha : a < 2 ^ 32) (hb : b < 2 ^ 32) (hc : c < 2 ^ 32) :
    minmaxF32 up (minmaxF32 up a b) c = minmaxF32 up a (minmaxF32 up b c) := by
  by_cases nan : (f32Nan a || f32Nan b || f32Nan c) = true
  · rw [minmaxF32_nan up (a := minmaxF32 up a b) (by rwa [f32Nan_minmaxF32, ← Bool.or_eq_true_iff]),
      minmaxF32_nan up (b := minmaxF32 up b c) (by rwa [f32Nan_minmaxF32, ← Bool.or_eq_true_iff, ← Bool.or_assoc])]
  · simp only [Bool.not_eq_true, Bool.or_eq_false_iff] at nan
    obtain ⟨⟨na, nb⟩, nc⟩ := nan
    exact (minmaxF32_combinesWithin up 0).assoc (i := 0) (j := 0) (k := 0) ⟨ha, na⟩ ⟨hb, nb⟩ ⟨hc, nc⟩ (Nat.le_refl 0)

end

/-- The infinities and the zeros stand in the order as R169 says. -/
theorem f32Key_bounds {a : Nat} (ha : a < 2 ^ 32) (number : f32Nan a = false) :
    f32Key 0xFF800000 ≤ f32Key a ∧ f32Key a ≤ f32Key 0x7F800000 ∧ (a < 0x7F800000 → f32Key 0 ≤ f32Key a)
      ∧ (0x80000000 ≤ a → f32Key a ≤ f32Key 0x80000000) := by
  have lowest : f32Key 0xFF800000 = -0x7F800001 := by decide
  have highest : f32Key 0x7F800000 = 0x7F800000 := by decide
  have zero : f32Key 0 = 0 := by decide
  have negZero : f32Key 0x80000000 = -1 := by decide
  rw [f32Nan, decide_eq_false_iff_not] at number
  rw [lowest, highest, zero, negZero, f32Key]
  split <;> omega

/-- Settles O48: between numbers the result has the lesser or the greater place of the order, which tells the patterns apart; a NaN on
any side decides the result. -/
theorem floatMinMaxFollowOneOrder : Obligations.floatMinMaxFollowOneOrder := by
  refine ⟨fun up a b c ha hb hc => ?_, fun a b => f32Key_inj, fun a => f32Key_bounds, by decide⟩
  exact ⟨minmaxF32_nan up, fun na nb => ⟨minmaxF32_choice up na nb, f32Key_minmaxF32 up na nb⟩, minmaxF32_comm up ha hb,
    minmaxF32_assoc up ha hb hc⟩

/-! ### Pairs -/

/-- The worth of the value of a pair: a NaN above every number, and numbers in the order of the operation (R170). -/
def argValue (code : Nat) (up : Bool) (v : Nat) : Int :=
  if code = 0x20 ∧ f32Nan v = true then 2 ^ 33
  else (if up then 1 else -1) * (if code = 0x20 then f32Key v else toSigned 32 v)

/-- The worth of a pair: of its value, and among equal values more for the smaller index (R170). -/
def argKey (code : Nat) (up : Bool) (a : Nat) : Int := argValue code up (a % 2 ^ 32) * 2 ^ 32 - (a / 2 ^ 32 : Nat)

theorem argValue_nan {code : Nat} (up : Bool) {v : Nat} (float : code = 0x20) (nan : f32Nan v = true) :
    argValue code up v = 2 ^ 33 := if_pos ⟨float, nan⟩

theorem argValue_f32 (up : Bool) {v : Nat} (number : f32Nan v = false) :
    argValue 0x20 up v = (if up then 1 else -1) * f32Key v := by
  simp only [argValue, number, Bool.false_eq_true, and_false, if_false, if_true]

theorem argValue_int {code : Nat} (up : Bool) {v : Nat} (int : code ≠ 0x20) :
    argValue code up v = (if up then 1 else -1) * toSigned 32 v := by
  simp only [argValue, int, false_and, if_false]

theorem toSigned_bounds (v : Nat) : -2 ^ 31 ≤ toSigned 32 v ∧ toSigned 32 v < 2 ^ 31 := by
  rw [toSigned]
  split <;> omega

theorem f32Key_abs_lt {v : Nat} (h : v < 2 ^ 32) : -2 ^ 33 < f32Key v ∧ f32Key v < 2 ^ 33 := by
  rw [f32Key]
  split <;> omega

/-- A NaN is worth more than every number (R170). -/
theorem argValue_number_lt (up : Bool) {v : Nat} (h : v < 2 ^ 32) (number : f32Nan v = false) : argValue 0x20 up v < 2 ^ 33 := by
  obtain ⟨low, high⟩ := f32Key_abs_lt h
  rw [argValue_f32 up number]
  cases up
  · simp only [Bool.false_eq_true, if_false]
    omega
  · simp only [if_true]
    omega

/-- The choice between values that are numbers of a signed order, in the direction of the operation. -/
theorem choose_by_order {α : Type} (up : Bool) (x y : Int) (lower a b : α) :
    (if x = y then lower else if decide (x < y) == up then b else a) =
      if (if up then 1 else -1) * x = (if up then 1 else -1) * y then lower
      else if (if up then 1 else -1) * x < (if up then 1 else -1) * y then b else a := by
  cases up
  · simp only [beq_false, Bool.not_eq_true', decide_eq_false_iff_not, Bool.false_eq_true, if_false, Int.neg_mul, Int.one_mul,
      Int.neg_inj, Int.neg_lt_neg_iff]
    split
    · rfl
    · exact ite_congr (propext (by omega)) (fun _ => rfl) fun _ => rfl
  · simp only [beq_true, decide_eq_true_eq, if_true, Int.one_mul]

/-- The pair of the higher worth is taken; of equal worth, that with the smaller index (R170). -/
theorem argBest_by_value (code : Nat) (up : Bool) (a b : Nat) : argBest code up a b =
    if argValue code up (a % 2 ^ 32) = argValue code up (b % 2 ^ 32) then (if a / 2 ^ 32 ≤ b / 2 ^ 32 then a else b)
    else if argValue code up (a % 2 ^ 32) < argValue code up (b % 2 ^ 32) then b else a := by
  have ha : a % 2 ^ 32 < 2 ^ 32 := Nat.mod_lt _ (by decide)
  have hb : b % 2 ^ 32 < 2 ^ 32 := Nat.mod_lt _ (by decide)
  rw [argBest]
  generalize a % 2 ^ 32 = v at *
  generalize b % 2 ^ 32 = w at *
  generalize (if a / 2 ^ 32 ≤ b / 2 ^ 32 then a else b) = lower
  by_cases float : code = 0x20
  · subst float
    simp only [true_and, if_true]
    cases nv : f32Nan v <;> cases nw : f32Nan w
    · simp only [Bool.false_eq_true, or_self, if_false, argValue_f32 up nv, argValue_f32 up nw]
      exact choose_by_order up ..
    · have lt := argValue_number_lt up ha nv
      simp only [Bool.false_eq_true, false_or, false_and, if_false, if_true, argValue_nan up rfl nw, Int.ne_of_lt lt, lt]
    · have lt := argValue_number_lt up hb nw
      simp only [Bool.false_eq_true, or_false, and_false, if_false, if_true, argValue_nan up rfl nv, Int.ne_of_gt lt,
        Int.not_lt.mpr (Int.le_of_lt lt)]
    · simp only [or_self, and_self, if_true, argValue_nan up rfl nv, argValue_nan up rfl nw]
  · simp only [float, false_and, if_false, argValue_int up float]
    exact choose_by_order up ..

/-- A pair of 64 bits whose value, where it is a NaN, is the canonical one (R170). -/
def IsArgPair (code a : Nat) : Prop := a < 2 ^ 64 ∧ (code = 0x20 → f32Nan (a % 2 ^ 32) = true → a % 2 ^ 32 = canonNan)

section
variable {code : Nat} (up : Bool) {a b : Nat}

theorem argKey_lt_iff (ha : a < 2 ^ 64) (hb : b < 2 ^ 64) : argKey code up a < argKey code up b ↔
    argValue code up (a % 2 ^ 32) < argValue code up (b % 2 ^ 32) ∨
      argValue code up (a % 2 ^ 32) = argValue code up (b % 2 ^ 32) ∧ b / 2 ^ 32 < a / 2 ^ 32 := by
  rw [argKey, argKey]
  omega

theorem argBest_by_key (ha : a < 2 ^ 64) (hb : b < 2 ^ 64) :
    argBest code up a b = if argKey code up a < argKey code up b then b else a := by
  rw [argBest_by_value]
  by_cases same : argValue code up (a % 2 ^ 32) = argValue code up (b % 2 ^ 32)
  · simp only [same, argKey_lt_iff up ha hb, Int.lt_irrefl, false_or, true_and, if_true]
    rw [← ite_not]
    exact ite_congr (propext Nat.not_le) (fun _ => rfl) fun _ => rfl
  · simp only [same, argKey_lt_iff up ha hb, false_and, or_false, if_false]

theorem argBest_choice (ha : a < 2 ^ 64) (hb : b < 2 ^ 64) : argBest code up a b = a ∨ argBest code up a b = b := by
  rw [argBest_by_key up ha hb]
  exact ite_choice ..

theorem argKey_argBest (ha : a < 2 ^ 64) (hb : b < 2 ^ 64) :
    argKey code up (argBest code up a b) = max (argKey code up a) (argKey code up b) := by
  rw [argBest_by_key up ha hb, apply_ite (argKey code up)]
  split <;> omega

theorem argValue_inj {v w : Nat} (hv : v < 2 ^ 32) (hw : w < 2 ^ 32) (cv : code = 0x20 → f32Nan v = true → v = canonNan)
    (cw : code = 0x20 → f32Nan w = true → w = canonNan) (same : argValue code up v = argValue code up w) : v = w := by
  have unit : (if up then 1 else -1 : Int) ≠ 0 := by cases up <;> decide
  by_cases float : code = 0x20
  · subst float
    cases nv : f32Nan v <;> cases nw : f32Nan w
    · rw [argValue_f32 up nv, argValue_f32 up nw] at same
      exact f32Key_inj hv hw (Int.eq_of_mul_eq_mul_left unit same)
    · exact absurd (same.trans (argValue_nan up rfl nw)) (Int.ne_of_lt (argValue_number_lt up hv nv))
    · exact absurd (same.symm.trans (argValue_nan up rfl nv)) (Int.ne_of_lt (argValue_number_lt up hw nw))
    · rw [cv rfl nv, cw rfl nw]
  · rw [argValue_int up float, argValue_int up float] at same
    exact toSigned_inj hv hw (Int.eq_of_mul_eq_mul_left unit same)

/-- Pairs of the same worth are the same. -/
theorem argKey_inj (ha : IsArgPair code a) (hb : IsArgPair code b) (same : argKey code up a = argKey code up b) : a = b := by
  obtain ⟨la, ca⟩ := ha
  obtain ⟨lb, cb⟩ := hb
  have values : argValue code up (a % 2 ^ 32) = argValue code up (b % 2 ^ 32) ∧ a / 2 ^ 32 = b / 2 ^ 32 := by
    rw [argKey, argKey] at same
    omega
  have patterns := argValue_inj up (Nat.mod_lt _ (by decide)) (Nat.mod_lt _ (by decide)) ca cb values.1
  rw [← Nat.div_add_mod a (2 ^ 32), ← Nat.div_add_mod b (2 ^ 32), patterns, values.2]

/-- ARGMIN and ARGMAX combine any number of pairs in any order (R170). -/
theorem argBest_combinesWithin (cap : Nat) : CombinesWithin cap (argBest code up) fun _ => IsArgPair code :=
  combinesWithin_of_key (argKey_inj up) (fun ha hb => argBest_choice up ha.1 hb.1) (fun ha hb => argKey_argBest up ha.1 hb.1) cap

end

/-- Settles O49: the pair of the higher worth is taken, and the worth tells pairs apart. -/
theorem argReductionsPreferTheSmallerIndex : Obligations.argReductionsPreferTheSmallerIndex := by
  intro code up a b c _ ha hb hc canonical
  have pair : ∀ x ∈ [a, b, c], x < 2 ^ 64 → IsArgPair code x := fun x hx lt => ⟨lt, canonical x hx⟩
  have pa := pair a (by simp) ha
  have pb := pair b (by simp) hb
  have pc := pair c (by simp) hc
  refine ⟨argBest_choice up ha hb, fun same => ?_, fun float na nb => ?_, fun float na nb lt => ?_, fun int lt => ?_,
    (argBest_combinesWithin up 0).comm (j := 0) (k := 0) pa pb (Nat.le_refl 0),
    (argBest_combinesWithin up 0).assoc (i := 0) (j := 0) (k := 0) pa pb pc (Nat.le_refl 0)⟩
  · rw [argBest_by_value, same, if_pos rfl, apply_ite (· / 2 ^ 32)]
    split <;> omega
  · subst float
    have lt := argValue_number_lt up (Nat.mod_lt b (by decide)) nb
    rw [argBest_by_value, argValue_nan up rfl na, if_neg (Int.ne_of_gt lt), if_neg (Int.not_lt.mpr (Int.le_of_lt lt))]
  · subst float
    rw [argBest_by_value, argValue_f32 up na, argValue_f32 up nb, ← choose_by_order, if_neg (Int.ne_of_lt lt), decide_eq_true lt]
    cases up <;> rfl
  · subst int
    rw [argBest_by_value, argValue_int up (by decide), argValue_int up (by decide), ← choose_by_order, if_neg (Int.ne_of_lt lt),
      decide_eq_true lt]
    cases up <;> rfl

end Sys2Proof.Machine
end

section
/-! The decoding of FP32 values, and rounding back (R167, R173). -/

namespace Sys2Proof.Machine

/-! ### What a pattern stands for -/

/-- The sign bit of an FP32 value. -/
def f32Neg (w : Nat) : Bool := w / 2 ^ 31 % 2 == 1

/-- The exponent field of an FP32 value. -/
def f32Exp (w : Nat) : Nat := w / 2 ^ 23 % 2 ^ 8

/-- The mantissa field of an FP32 value. -/
def f32Man (w : Nat) : Nat := w % 2 ^ 23

/-- An FP32 value by its fields (R167). -/
theorem ofF32_fields (w : Nat) : ofF32 w =
    if f32Exp w = 255 then (if f32Man w = 0 then .inf (f32Neg w) else .nan)
    else if f32Exp w = 0 then .num (f32Neg w) (f32Man w) (-149)
    else .num (f32Neg w) (2 ^ 23 + f32Man w) (f32Exp w - 150) := by
  have bias : ∀ e : Int, e - ((127 : Nat) : Int) - ((23 : Nat) : Int) = e - 150 := fun e => by omega
  have least : 1 - ((127 : Nat) : Int) - ((23 : Nat) : Int) = -149 := rfl
  simp only [ofF32, decodeF, fp32, f32Neg, f32Exp, f32Man, true_and, Nat.reduceAdd, Nat.reducePow, Nat.reduceSub, Nat.zero_ne_one,
    false_and, if_false, least, bias]
  rfl

theorem f32Man_lt (w : Nat) : f32Man w < 2 ^ 23 := Nat.mod_lt _ (by decide)

theorem f32Exp_lt (w : Nat) : f32Exp w < 2 ^ 8 := Nat.mod_lt _ (by decide)

/-- A pattern of 32 bits is its three fields. -/
theorem f32_fields {w : Nat} (h : w < 2 ^ 32) : (if f32Neg w then 2 ^ 31 else 0) + f32Exp w * 2 ^ 23 + f32Man w = w := by
  simp only [f32Neg, f32Exp, f32Man, beq_iff_eq]
  split <;> omega

theorem f32Nan_fields (w : Nat) : f32Nan w = (decide (f32Exp w = 255) && decide (f32Man w ≠ 0)) := by
  rw [Bool.eq_iff_iff, f32Nan, f32Exp, f32Man, Bool.and_eq_true, decide_eq_true_eq, decide_eq_true_eq, decide_eq_true_eq]
  omega

/-- m × 2^e as FP32 holds it: 24 bits at most, and fewer only at the least exponent. -/
structure IsF32Magnitude (m : Nat) (e : Int) : Prop where
  small : m < 2 ^ 24
  low : -149 ≤ e
  high : e ≤ 104
  normal : 2 ^ 23 ≤ m ∨ e = -149

/-- What an FP32 number decodes to has that form. -/
theorem isF32Magnitude_of_ofF32 {w m : Nat} {neg : Bool} {e : Int} (h : ofF32 w = .num neg m e) : IsF32Magnitude m e := by
  have man := f32Man_lt w
  have exp := f32Exp_lt w
  rw [ofF32_fields] at h
  split at h
  · split at h <;> cases h
  · split at h
    · cases h
      exact ⟨by omega, by omega, by omega, .inr rfl⟩
    · cases h
      exact ⟨by omega, by omega, by omega, .inl (by omega)⟩

/-! ### Rounding what the format holds -/

theorem quanta_self (m : Nat) (e : Int) : quanta m e e = (m, 0, 1) := by
  simp only [quanta, Int.le_refl, if_true, Int.sub_self, Int.toNat_zero, Nat.pow_zero, Nat.mul_one]

theorem largest_fp32 : largest fp32 = (2 ^ 24 - 1, 104) := by decide

theorem aboveLargest_fp32 {k : Nat} {q : Int} (small : k < 2 ^ 24) (high : q ≤ 104) : aboveLargest fp32 k q = false := by
  simp only [aboveLargest, largest_fp32]
  split
  case isTrue top =>
    rw [Int.le_antisymm high top]
    exact decide_eq_false (by simp only [Int.sub_self, Int.toNat_zero, Nat.pow_zero]; omega)
  case isFalse =>
    have room : 2 ^ 24 - 1 ≤ (2 ^ 24 - 1) * 2 ^ (104 - q).toNat := Nat.le_mul_of_pos_right _ (Nat.two_pow_pos _)
    exact decide_eq_false (by omega)

theorem magCode_fp32 (k : Nat) (q : Int) (small : k < 2 ^ 24) :
    magCode fp32 k q = if k < 2 ^ 23 then k else (q + 150).toNat * 2 ^ 23 + (k - 2 ^ 23) := by
  have bias : q + ((23 : Nat) : Int) + ((127 : Nat) : Int) = q + 150 := by omega
  have notTop : k ≠ 2 ^ 24 := Nat.ne_of_lt small
  simp only [magCode, fp32, notTop, Nat.reduceAdd, if_false, bias]

namespace IsF32Magnitude

variable {m : Nat} {e : Int} (h : IsF32Magnitude m e)
include h

theorem quantumOf_eq (pos : m ≠ 0) : quantumOf fp32 m e = e := by
  obtain ⟨small, low, high, normal⟩ := h
  have below : m.log2 < 24 := (Nat.log2_lt pos).mpr small
  show max ((m.log2 : Int) + e - 23) (-149) = e
  rcases normal with whole | least
  · have above : 23 ≤ m.log2 := (Nat.le_log2 pos).mpr whole
    omega
  · omega

theorem roundMag_eq (pos : m ≠ 0) : roundMag fp32 0 0 m e = some (magCode fp32 m e) := by
  have inRange := aboveLargest_fp32 h.small h.high
  simp only [roundMag, h.quantumOf_eq pos, quanta_self, inRange, Nat.not_lt_zero, Nat.mul_zero, Nat.zero_ne_one, decide_false,
    Bool.false_and, Bool.or_self, Bool.false_eq_true, if_false]

/-- A number that FP32 holds rounds to its own pattern. -/
theorem toF32_eq (neg : Bool) : toF32 (.num neg m e) = signed fp32 neg (magCode fp32 m e) := by
  by_cases zero : m = 0
  · rw [zero, magCode_fp32 0 e (by decide)]
    rfl
  · simp only [toF32, convertF, zero, if_false, h.roundMag_eq zero]

end IsF32Magnitude

theorem signed_fp32 (neg : Bool) (c : Nat) : signed fp32 neg c = (if neg then 2 ^ 31 else 0) + c := rfl

theorem toF32_nan : toF32 .nan = canonNan := by decide

theorem toF32_inf (neg : Bool) : toF32 (.inf neg) = signed fp32 neg (255 * 2 ^ 23) := rfl

/-- Settles O50: a number's fields are its magnitude and quantum, which rounding keeps; infinities keep their sign. -/
theorem fp32DecodingIsExact : Obligations.fp32DecodingIsExact := by
  intro w hw
  have whole := f32_fields hw
  have man := f32Man_lt w
  rw [f32Nan_fields]
  by_cases top : f32Exp w = 255
  · by_cases zero : f32Man w = 0
    · rw [ofF32_fields, if_pos top, if_pos zero, toF32_inf, signed_fp32]
      simp only [zero, ne_eq, not_true_eq_false, decide_false, Bool.and_false, Bool.false_eq_true, if_false]
      omega
    · rw [ofF32_fields, if_pos top, if_neg zero, toF32_nan]
      simp only [top, zero, ne_eq, not_false_eq_true, decide_true, Bool.and_self, if_true]
  · simp only [top, decide_false, Bool.false_and, Bool.false_eq_true, if_false]
    by_cases least : f32Exp w = 0
    · have eq : ofF32 w = .num (f32Neg w) (f32Man w) (-149) := by rw [ofF32_fields, if_neg top, if_pos least]
      rw [eq, (isF32Magnitude_of_ofF32 eq).toF32_eq, magCode_fp32 _ _ (by omega), if_pos man, signed_fp32]
      omega
    · have eq : ofF32 w = .num (f32Neg w) (2 ^ 23 + f32Man w) (f32Exp w - 150) := by rw [ofF32_fields, if_neg top, if_neg least]
      rw [eq, (isF32Magnitude_of_ofF32 eq).toF32_eq, magCode_fp32 _ _ (by omega), if_neg (by omega), signed_fp32]
      omega

end Sys2Proof.Machine
end

section
/-! A member's contribution in fixed-accord mode (R177, R179). -/

namespace Sys2Proof.Machine

/-- `k` quanta and the fraction `n / d` of one, rounded half to even (R177). -/
def halfEven (k n d : Nat) : Nat := if d < 2 * n ∨ (2 * n = d ∧ k % 2 = 1) then k + 1 else k

theorem halfEven_exact (k : Nat) : halfEven k 0 1 = k := if_neg (by omega)

theorem halfEven_le (k n d : Nat) : halfEven k n d ≤ k + 1 := by
  rw [halfEven]
  split <;> omega

/-- Half to even is within half of a quantum. -/
theorem halfEven_near {k n d : Nat} (rest : n < d) : 2 * ((k * d + n : Nat) - (halfEven k n d * d : Nat) : Int).natAbs ≤ d := by
  rw [halfEven]
  split
  · rw [Nat.add_mul]
    omega
  · omega

/-- The magnitude of a contribution: m × 2^e in quanta of 2^(code − 127 − 45), half to even (R177). -/
def fixedMag (m : Nat) (e : Int) (code : Nat) : Nat :=
  let (k, n, d) := quanta m e ((code : Int) - 127 - 45)
  halfEven k n d

theorem toFixed_eq {w code m : Nat} {neg : Bool} {e : Int} (h : ofF32 w = .num neg m e) :
    toFixed w code = if neg then (2 ^ 64 - fixedMag m e code) % 2 ^ 64 else fixedMag m e code := by
  simp only [toFixed, h]
  rfl

section
variable {m code : Nat} {e : Int} (low : -149 ≤ e)
include low

/-- Where the quantum is not above the number's own unit, the contribution is exact; otherwise it is the division, rounded. -/
theorem fixedMag_cases :
    (∃ s, (e + 194).toNat = code + 22 + s ∧ fixedMag m e code = m * 2 ^ s) ∨
    (∃ s, code + 22 = (e + 194).toNat + s ∧ fixedMag m e code = halfEven (m / 2 ^ s) (m % 2 ^ s) (2 ^ s)) := by
  by_cases fine : (code : Int) - 127 - 45 ≤ e
  · refine .inl ⟨(e - ((code : Int) - 127 - 45)).toNat, by omega, ?_⟩
    simp only [fixedMag, quanta, fine, if_true, halfEven_exact]
  · refine .inr ⟨((code : Int) - 127 - 45 - e).toNat, by omega, ?_⟩
    simp only [fixedMag, quanta, fine, if_false]

/-- A contribution lies within half a quantum of the number; both in units of 2^−194 (R177). -/
theorem fixedMag_near : 2 * ((m * 2 ^ (e + 194).toNat : Nat) - (fixedMag m e code * 2 ^ (code + 22) : Nat) : Int).natAbs
    ≤ 2 ^ (code + 22) := by
  rcases fixedMag_cases (m := m) (code := code) low with ⟨s, shift, eq⟩ | ⟨s, shift, eq⟩
  · rw [eq, shift, Nat.mul_assoc, ← Nat.pow_add, Nat.add_comm s, Int.sub_self]
    exact Nat.zero_le _
  · have near := halfEven_near (k := m / 2 ^ s) (Nat.mod_lt m (Nat.two_pow_pos s))
    rw [Nat.mul_comm (m / 2 ^ s), Nat.div_add_mod] at near
    rw [eq, shift]
    generalize halfEven (m / 2 ^ s) (m % 2 ^ s) (2 ^ s) = k at near
    generalize (e + 194).toNat = a
    have factor : ((m * 2 ^ a : Nat) - (k * 2 ^ (a + s) : Nat) : Int) = ((2 ^ a : Nat) : Int) * ((m : Nat) - (k * 2 ^ s : Nat)) := by
      rw [Nat.pow_add, Nat.mul_left_comm, Nat.mul_comm m, Int.natCast_mul, Int.natCast_mul, Int.mul_sub]
    calc 2 * ((m * 2 ^ a : Nat) - (k * 2 ^ (a + s) : Nat) : Int).natAbs
        = 2 ^ a * (2 * ((m : Nat) - (k * 2 ^ s : Nat) : Int).natAbs) := by
          rw [factor, Int.natAbs_mul, Int.natAbs_natCast, Nat.mul_left_comm]
      _ ≤ 2 ^ a * 2 ^ s := Nat.mul_le_mul_left _ near
      _ = 2 ^ (a + s) := (Nat.pow_add ..).symm

/-- A number below 2^46 quanta, in units of 2^−194. -/
theorem lt_of_covered (covered : m ≠ 0 → floorLog2 m e ≤ (code : Int) - 127) :
    m * 2 ^ (e + 194).toNat < 2 ^ 46 * 2 ^ (code + 22) := by
  by_cases zero : m = 0
  · rw [zero, Nat.zero_mul]
    exact Nat.mul_pos (Nat.two_pow_pos 46) (Nat.two_pow_pos _)
  · have top := covered zero
    rw [floorLog2] at top
    calc m * 2 ^ (e + 194).toNat < 2 ^ (m.log2 + 1) * 2 ^ (e + 194).toNat :=
          Nat.mul_lt_mul_of_pos_right Nat.lt_log2_self (Nat.two_pow_pos _)
      _ = 2 ^ (m.log2 + 1 + (e + 194).toNat) := (Nat.pow_add ..).symm
      _ ≤ 2 ^ (46 + (code + 22)) := Nat.pow_le_pow_right (by decide) (by omega)
      _ = 2 ^ 46 * 2 ^ (code + 22) := Nat.pow_add ..

/-- A number that the code covers is at most 2^46 quanta (R177). -/
theorem fixedMag_le (covered : m ≠ 0 → floorLog2 m e ≤ (code : Int) - 127) : fixedMag m e code ≤ 2 ^ 46 := by
  have bound := lt_of_covered low covered
  rcases fixedMag_cases (m := m) (code := code) low with ⟨s, shift, eq⟩ | ⟨s, shift, eq⟩
  · rw [shift, Nat.add_comm, Nat.pow_add, ← Nat.mul_assoc] at bound
    exact eq ▸ Nat.le_of_lt (Nat.lt_of_mul_lt_mul_right bound)
  · rw [shift, Nat.add_comm, Nat.pow_add, ← Nat.mul_assoc] at bound
    have quotient : m / 2 ^ s < 2 ^ 46 := Nat.div_lt_of_lt_mul (Nat.mul_comm .. ▸ Nat.lt_of_mul_lt_mul_right bound)
    exact eq ▸ Nat.le_trans (halfEven_le ..) quotient

end

/-- A pattern and its negation stand for the magnitude with either sign. -/
theorem toSigned_of_le {k : Nat} (neg : Bool) (small : k ≤ 2 ^ 46) :
    toSigned 64 (if neg then (2 ^ 64 - k) % 2 ^ 64 else k) = (if neg then -1 else 1) * (k : Int)
      ∧ (if neg then (2 ^ 64 - k) % 2 ^ 64 else k) < 2 ^ 64 := by
  cases neg
  · simp only [toSigned, Bool.false_eq_true, if_false]
    split <;> omega
  · simp only [toSigned, if_true]
    split <;> omega

/-- A number that the code covers (R179). -/
theorem covered_of_uncoveredBy {w code m : Nat} {neg : Bool} {e : Int} (h : ofF32 w = .num neg m e) (low : 1 ≤ code)
    (high : code ≤ 254) (covered : uncoveredBy code w = false) : m ≠ 0 → floorLog2 m e ≤ (code : Int) - 127 := by
  intro zero
  have notTop : (code != 255) = true := bne_iff_ne.mpr (by omega)
  have notZero : (code == 0) = false := beq_eq_false_iff_ne.mpr (by omega)
  simp only [uncoveredBy, h, notTop, notZero, bne_iff_ne.mpr zero, Bool.true_and, Bool.false_or, decide_eq_false_iff_not,
    Int.not_lt] at covered
  exact covered

/-- A block with an element that its code does not cover is the marker throughout (R179). -/
theorem fixBlock_marked {code : Nat} {xs : List Nat} (h : ∃ x ∈ xs, uncoveredBy code x = true) :
    fixBlock code xs = (List.replicate xs.length marker, true) := by
  rw [fixBlock, if_pos (List.any_eq_true.mpr h), List.map_const']

/-- Settles O52: the magnitude is the number in quanta, rounded half to even, and the sign goes over it. -/
theorem fixedContributionsAreWithinHalfAQuantum : Obligations.fixedContributionsAreWithinHalfAQuantum := by
  refine ⟨fun w code neg m e _ low high covered number => ?_, fun code xs => fixBlock_marked⟩
  have least := (isF32Magnitude_of_ofF32 number).low
  have small := fixedMag_le least (covered_of_uncoveredBy number low high covered)
  have near := fixedMag_near (m := m) (code := code) least
  obtain ⟨value, range⟩ := toSigned_of_le neg small
  rw [toFixed_eq number, value]
  refine ⟨?_, range, ?_⟩
  · cases neg <;> simpa using small
  · have shift : (e + 194).toNat = (e + 149).toNat + 45 := by omega
    have signs : ((if neg then -1 else 1) * (m * 2 ^ (e + 149).toNat : Int)) * 2 ^ 45
        - (if neg then -1 else 1) * (fixedMag m e code : Int) * 2 ^ (code + 22)
        = (if neg then -1 else 1) * ((m * 2 ^ (e + 194).toNat : Nat) - (fixedMag m e code * 2 ^ (code + 22) : Nat) : Int) := by
      rw [shift, Nat.pow_add, ← Nat.mul_assoc, Int.natCast_mul, Int.natCast_mul, Int.natCast_mul, natCast_two_pow, natCast_two_pow,
        natCast_two_pow, Int.mul_sub, Int.mul_assoc, Int.mul_assoc (if neg then -1 else 1 : Int)]
    have unit : (if neg then -1 else 1 : Int).natAbs = 1 := by cases neg <;> rfl
    rw [signs, Int.natAbs_mul, unit, Nat.one_mul]
    exact near

end Sys2Proof.Machine
end

section
/-! Element codes in a stream (R6, R166). -/

namespace Sys2Proof.Machine

/-! ### Bytes of a number (R6) -/

@[simp] theorem length_leBytes (n v : Nat) : (leBytes n v).length = n := by
  induction n generalizing v with
  | zero => rfl
  | succ n ih => rw [leBytes, List.length_cons, ih]

/-- The bytes of a number that fits hold the number. -/
theorem ofLe_leBytes {n v : Nat} (fits : v < 2 ^ (8 * n)) : ofLe (leBytes n v) = v := by
  induction n generalizing v with
  | zero => rw [Nat.lt_one_iff.mp fits]; rfl
  | succ n ih =>
    have rest : v / 256 < 2 ^ (8 * n) := by
      rw [Nat.mul_succ, Nat.pow_add, Nat.mul_comm] at fits
      exact Nat.div_lt_of_lt_mul fits
    rw [leBytes, ofLe, ih rest, BitVec.toNat_ofNat]
    omega

/-! ### Formats of whole bytes -/

/-- Equally long pieces make a list of that many times their length. -/
theorem length_flatMap_pieces {α β : Type} {f : α → List β} {b : Nat} (len : ∀ x, (f x).length = b) (xs : List α) :
    (xs.flatMap f).length = xs.length * b := by
  induction xs with
  | nil => rw [List.flatMap_nil, List.length_nil, List.length_nil, Nat.zero_mul]
  | cons x t ih => rw [List.flatMap_cons, List.length_append, len x, ih, List.length_cons, Nat.succ_mul, Nat.add_comm]

/-- Piece `k` of equally long pieces put one after the other. -/
theorem take_drop_flatMap {α β : Type} {f : α → List β} {b : Nat} (len : ∀ x, (f x).length = b) {xs : List α} {k : Nat}
    (hk : k < xs.length) : ((xs.flatMap f).drop (k * b)).take b = f xs[k] := by
  induction xs generalizing k with
  | nil => exact absurd hk (Nat.not_lt_zero k)
  | cons x t ih =>
    cases k with
    | zero => rw [Nat.zero_mul, List.drop_zero, List.flatMap_cons, List.take_left' (len x)]; rfl
    | succ k =>
      rw [List.flatMap_cons, Nat.succ_mul, Nat.add_comm, ← List.drop_drop, List.drop_left' (len x)]
      exact ih (Nat.lt_of_succ_lt_succ hk)

/-! ### Formats of 4 and 6 bits -/

/-- Element codes of `w` bits one above the other: element k in bits w·k upward (R166). -/
def packBits (w : Nat) (xs : List Nat) : Nat := xs.foldr (fun x a => x % 2 ^ w + 2 ^ w * a) 0

theorem packBits_cons (w x : Nat) (xs : List Nat) : packBits w (x :: xs) = x % 2 ^ w + 2 ^ w * packBits w xs := rfl

theorem packBits_lt (w : Nat) (xs : List Nat) : packBits w xs < 2 ^ (xs.length * w) := by
  induction xs with
  | nil => exact Nat.two_pow_pos _
  | cons x t ih =>
    rw [packBits_cons, List.length_cons, Nat.succ_mul, Nat.add_comm (t.length * w), Nat.pow_add]
    calc x % 2 ^ w + 2 ^ w * packBits w t < 2 ^ w + 2 ^ w * packBits w t :=
          Nat.add_lt_add_right (Nat.mod_lt _ (Nat.two_pow_pos w)) _
      _ = 2 ^ w * (packBits w t + 1) := by rw [Nat.mul_succ, Nat.add_comm]
      _ ≤ 2 ^ w * 2 ^ (t.length * w) := Nat.mul_le_mul_left _ ih

theorem packBits_get {w : Nat} {xs : List Nat} {k : Nat} (hk : k < xs.length) :
    packBits w xs / 2 ^ (w * k) % 2 ^ w = xs[k] % 2 ^ w := by
  induction xs generalizing k with
  | nil => exact absurd hk (Nat.not_lt_zero k)
  | cons x t ih =>
    have low : x % 2 ^ w < 2 ^ w := Nat.mod_lt _ (Nat.two_pow_pos w)
    rw [packBits_cons]
    cases k with
    | zero => rw [Nat.mul_zero, Nat.pow_zero, Nat.div_one, Nat.add_mul_mod_self_left, Nat.mod_mod]; rfl
    | succ k =>
      rw [Nat.mul_succ, Nat.add_comm (w * k), Nat.pow_add, ← Nat.div_div_eq_div_mul, Nat.add_mul_div_left _ _ (Nat.two_pow_pos w),
        Nat.div_eq_of_lt low, Nat.zero_add]
      exact ih (Nat.lt_of_succ_lt_succ hk)

/-! ### Every format -/

theorem packElems_bytes {code : Nat} {xs : List Nat} (whole : elemBits code % 8 = 0) :
    packElems code xs = xs.flatMap (leBytes (elemBits code / 8)) := if_pos whole

theorem packElems_bits {code : Nat} {xs : List Nat} (part : elemBits code % 8 ≠ 0) :
    packElems code xs = leBytes (xs.length * elemBits code / 8) (packBits (elemBits code) xs) := if_neg part

theorem length_packElems (code : Nat) (xs : List Nat) : (packElems code xs).length = xs.length * elemBits code / 8 := by
  by_cases whole : elemBits code % 8 = 0
  · rw [packElems_bytes whole, length_flatMap_pieces (length_leBytes _),
      Nat.mul_div_assoc _ (Nat.dvd_of_mod_eq_zero whole)]
  · rw [packElems_bits whole, length_leBytes]

/-- What was packed is unpacked, wherever the elements fill whole bytes (R166). -/
theorem elems_packElems {code : Nat} {xs : List Nat} (bytes : xs.length * elemBits code % 8 = 0)
    (fit : ∀ x ∈ xs, x < 2 ^ elemBits code) : elems code xs.length (packElems code xs) = xs := by
  by_cases whole : elemBits code % 8 = 0
  · have bits : 8 * (elemBits code / 8) = elemBits code := Nat.mul_div_cancel' (Nat.dvd_of_mod_eq_zero whole)
    rw [packElems_bytes whole]
    refine List.ext_getElem (by rw [elems, if_pos whole, List.length_map, List.length_range]) fun k _ hk => ?_
    simp only [elems, whole, if_true, List.getElem_map, List.getElem_range]
    rw [take_drop_flatMap (length_leBytes _) hk, ofLe_leBytes (bits.symm ▸ fit _ (List.getElem_mem hk))]
  · have bits : 8 * (xs.length * elemBits code / 8) = xs.length * elemBits code :=
      Nat.mul_div_cancel' (Nat.dvd_of_mod_eq_zero bytes)
    have range : packBits (elemBits code) xs < 2 ^ (8 * (xs.length * elemBits code / 8)) := bits.symm ▸ packBits_lt _ xs
    rw [packElems_bits whole]
    refine List.ext_getElem (by rw [elems, if_neg whole, List.length_map, List.length_range]) fun k _ hk => ?_
    simp only [elems, whole, if_false, List.getElem_map, List.getElem_range]
    rw [List.take_of_length_le (Nat.le_of_eq (length_leBytes ..)), ofLe_leBytes range, packBits_get hk,
      Nat.mod_eq_of_lt (fit _ (List.getElem_mem hk))]

/-- Settles O51: a format of whole bytes gives equal pieces, one of 4 or 6 bits a number of that many bits per element. -/
theorem elementPackingRoundTrips : Obligations.elementPackingRoundTrips :=
  fun code xs _ bytes fit => ⟨elems_packElems bytes fit, length_packElems code xs⟩

end Sys2Proof.Machine
end

section
/-! Residues (R180). -/

namespace Sys2Proof.Machine

/-- What an integer counts towards the residue: a value in [0, p) at the weight of its place; a marker counts nothing (R179, R180). -/
def residueTerm (v i : Nat) : Nat := if v = marker then 0 else (toSigned 64 v % (resP : Int)).toNat * 2 ^ (i % 61)

theorem residueTerm_of_ne {v : Nat} (h : v ≠ marker) (i : Nat) :
    residueTerm v i = (toSigned 64 v % (resP : Int)).toNat * 2 ^ (i % 61) := if_neg h

theorem resP_pos : 0 < resP := by decide

/-- A running sum modulo p is the sum modulo p; terms of 0 may be left out. -/
theorem foldl_residue (l : List (Nat × Nat)) : ∀ {r : Nat}, r < resP →
    l.foldl (fun r q => if q.1 = marker then r else (r + (toSigned 64 q.1 % (resP : Int)).toNat * 2 ^ (q.2 % 61)) % resP) r
      = (r + (l.map fun q => residueTerm q.1 q.2).sum) % resP := by
  induction l with
  | nil => exact fun h => (Nat.mod_eq_of_lt h).symm
  | cons q t ih =>
    intro r h
    rw [List.foldl_cons, List.map_cons, List.sum_cons]
    by_cases marked : q.1 = marker
    · rw [if_pos marked, ih h, residueTerm, if_pos marked, Nat.zero_add]
    · rw [if_neg marked, ih (Nat.mod_lt _ resP_pos), residueTerm_of_ne marked, Nat.mod_add_mod, Nat.add_assoc]

/-- An element of a list, by its place. -/
theorem getD_eq_of_lt {xs : List Nat} {i : Nat} (h : i < xs.length) : xs.getD i 0 = xs[i] := by
  rw [List.getD_eq_getElem?_getD, List.getElem?_eq_getElem h, Option.getD_some]

theorem residueOf_eq_sum (xs : List Nat) :
    residueOf xs = ((List.range xs.length).map fun i => residueTerm (xs.getD i 0) i).sum % resP := by
  have places : xs.zip (List.range xs.length) = (List.range xs.length).map fun i => (xs.getD i 0, i) := by
    have len : (xs.zip (List.range xs.length)).length = xs.length := by rw [List.length_zip, List.length_range, Nat.min_self]
    refine List.ext_getElem (by rw [len, List.length_map, List.length_range]) fun k h _ => ?_
    rw [List.getElem_zip, List.getElem_map, List.getElem_range, getD_eq_of_lt (len ▸ h)]
  rw [residueOf, foldl_residue _ resP_pos, Nat.zero_add, places, List.map_map]
  rfl

/-- Modulo p a term is the integer times the weight of its place. -/
theorem residueTerm_emod {v : Nat} (h : v ≠ marker) (i : Nat) :
    ((residueTerm v i : Nat) : Int) % (resP : Int) = toSigned 64 v * 2 ^ (i % 61) % (resP : Int) := by
  have nonneg : (0 : Int) ≤ toSigned 64 v % (resP : Int) := Int.emod_nonneg _ (by decide)
  rw [residueTerm_of_ne h, Int.natCast_mul, Int.toNat_of_nonneg nonneg, natCast_two_pow, Int.mul_emod, Int.emod_emod, ← Int.mul_emod]

/-- The term of a sum is the sum of the terms, modulo p. -/
theorem residueTerm_add {x y : Nat} (i : Nat) (hx : (toSigned 64 x).natAbs ≤ 2 ^ 61) (hy : (toSigned 64 y).natAbs ≤ 2 ^ 61) :
    residueTerm ((x + y) % 2 ^ 64) i % resP = (residueTerm x i + residueTerm y i) % resP := by
  have sum := toSigned_add (x := x) (y := y) (by omega) (by omega)
  have small : (toSigned 64 ((x + y) % 2 ^ 64)).natAbs < 2 ^ 63 := by omega
  refine Int.ofNat.inj (?_ : ((residueTerm ((x + y) % 2 ^ 64) i % resP : Nat) : Int) = ((_ % resP : Nat) : Int))
  rw [Int.natCast_emod, Int.natCast_emod, Int.natCast_add, Int.add_emod, residueTerm_emod (ne_marker_of_natAbs_lt small),
    residueTerm_emod (ne_marker_of_natAbs_lt (by omega)), residueTerm_emod (ne_marker_of_natAbs_lt (by omega)), sum, Int.add_mul,
    ← Int.add_emod]

/-- Sums whose terms agree modulo `p` agree modulo `p`. -/
theorem sum_map_mod {p : Nat} {f g h : Nat → Nat} {l : List Nat} (terms : ∀ i ∈ l, f i % p = (g i + h i) % p) :
    (l.map f).sum % p = ((l.map g).sum + (l.map h).sum) % p := by
  induction l with
  | nil => rfl
  | cons i t ih =>
    obtain ⟨first, rest⟩ := List.forall_mem_cons.mp terms
    rw [List.map_cons, List.map_cons, List.map_cons, List.sum_cons, List.sum_cons, List.sum_cons, Nat.add_mod, first, ih rest,
      ← Nat.add_mod, Nat.add_add_add_comm]

/-- The residue of the sum of two chunks is the sum of their residues (R180). -/
theorem residueOf_zipWith {a b : List Nat} (len : a.length = b.length) (small : ∀ v ∈ a ++ b, (toSigned 64 v).natAbs ≤ 2 ^ 61) :
    residueOf (List.zipWith (fun x y => (x + y) % 2 ^ 64) a b) = (residueOf a + residueOf b) % resP := by
  obtain ⟨smallA, smallB⟩ := List.forall_mem_append.mp small
  have total : (List.zipWith (fun x y => (x + y) % 2 ^ 64) a b).length = a.length := by
    rw [List.length_zipWith, ← len, Nat.min_self]
  rw [residueOf_eq_sum, residueOf_eq_sum, residueOf_eq_sum, ← Nat.add_mod, total, ← len]
  refine sum_map_mod fun i hi => ?_
  have ha : i < a.length := List.mem_range.mp hi
  have hb : i < b.length := len ▸ ha
  rw [getD_eq_of_lt (total.symm ▸ ha), getD_eq_of_lt ha, getD_eq_of_lt hb, List.getElem_zipWith,
    residueTerm_add i (smallA _ (List.getElem_mem ha)) (smallB _ (List.getElem_mem hb))]

/-- Settles O54: an unmarked chunk has every term, and modulo p the terms of a sum are the sums of the terms. -/
theorem residueIsLinear : Obligations.residueIsLinear := by
  refine ⟨fun q unmarked => ?_, fun a b len small => residueOf_zipWith len fun v hv => (small v hv).2⟩
  rw [residueOf_eq_sum]
  refine congrArg (fun l : List Nat => l.sum % resP) (List.map_congr_left fun i hi => ?_)
  have inside : i < q.length := List.mem_range.mp hi
  exact residueTerm_of_ne (fun h => unmarked (h ▸ getD_eq_of_lt inside ▸ List.getElem_mem inside)) i

end Sys2Proof.Machine
end

section
/-! Collectives, from the states that their statement names. -/

namespace Sys2Proof.Machine

/-- Settles O18: the node, chunk, slot or command that each packet or event looks for is there, no clause of a refusal holds, and what
the branch does is the effect written. -/
theorem collectivesComplete : Obligations.collectivesComplete := by
  refine ⟨?slotAssign, ?coll, ?grantAway, ?grant, ?request, ?refuse, ?again, ?up, ?reduced, ?down, ?obtained, ?spill, ?giveUp, ?slip,
    ?abort, ?lost, ?stale⟩
  case slotAssign =>
    intro s u node n0 n k hr found tree served now same active uncut noAsks treeNow free more
    show execSlotAssign node s = _
    rw [execSlotAssign, act_running hr]
    simp only [found, tree, Bool.false_eq_true, if_false, ← served, ← now, active, uncut, noAsks, Option.isSome_none, or_self,
      Bool.true_eq_false, free]
    cases (peerSlots n).find? fun k => !slotBusy n k <;>
      simp only [← same, more, treeNow, Bool.false_eq_true, if_false, if_true]
  case coll =>
    intro s queue index remote r d rank hr fresh read member
    show execColl queue index remote s = _
    rw [execColl, act_running hr]
    simp only [fresh, read, member]
  case grantAway =>
    intro s unit p addr len fmt hr kind grant nectar away
    show execGrantReceive unit p addr len fmt s = _
    rw [execGrantReceive, act_running hr]
    simp only [kind, grant, nectar, away, ne_eq, not_true_eq_false, not_false_eq_true, or_self, if_false, if_true]
  case grant =>
    intro s u unit p addr len fmt n hr kind grant accord data child noted
    show execGrantReceive unit p addr len fmt s = _
    rw [execGrantReceive, act_running hr]
    simp only [kind, grant, Nat.not_le.mpr accord, data, child, noted, ne_eq, not_true_eq_false, Bool.false_eq_true, or_self, if_false]
  case request =>
    rintro s _ unit p desc count n i f hr rfl kind request members child gaveUp tree input feed
    show execGrantRequestReceive unit p desc count s = _
    rw [execGrantRequestReceive, act_running hr]
    simp only [kind, request, members, child, gaveUp, tree, input, feed, ne_eq, not_true_eq_false, Bool.false_eq_true, or_self,
      if_false]
  case refuse =>
    intro s unit p n hr kind refuse child
    show execGrantRefuseReceive unit p s = _
    rw [execGrantRefuseReceive, act_running hr]
    simp only [kind, refuse, child, ne_eq, not_true_eq_false, or_self, if_false]
  case again =>
    intro s node n hr found active uncut noFeeds inOrder noOuts
    show execGrantRepeat node s = _
    rw [execGrantRepeat, act_running hr]
    simp only [found, active, uncut, noFeeds, inOrder, noOuts, Option.isSome_none, Bool.true_eq_false, Bool.false_eq_true, false_and,
      or_self, List.filter_nil, List.foldl_nil, if_false]
  case up =>
    intro s unit p tags n f i hr kind fresh mine here tag slice uncut data feed ofData grantee
    show execCollUpReceive unit p tags s = _
    rw [execCollUpReceive, act_running hr]
    simp only [kind, fresh, mine, here, tag, slice, uncut, data, feed, ofData, grantee, Option.isSome_none, ne_eq, not_true_eq_false,
      Bool.false_eq_true, false_and, or_self, if_false]
  case reduced =>
    intro s node chunk n c hr found held tree whole noBad noOut noAbort delivered inOrder root noViolation
    have noSpare : (ReduceCheck.passed == ReduceCheck.spare) = false := rfl
    show execChunkReduceComplete node chunk .passed s = _
    rw [execChunkReduceComplete, act_running hr]
    simp only [found, held, tree, whole, noBad, noOut, noAbort, delivered, inOrder, root, noViolation, noSpare, Option.isSome_none,
      ne_eq, not_true_eq_false, Bool.false_eq_true, Bool.true_eq_false, Bool.not_false, Bool.true_or, Bool.false_and, false_and,
      true_and, or_self, if_false, if_true, reduceCtorEq]
  case down =>
    intro s unit p hr kind nectar
    show execCollDownReceive unit p s = _
    rw [execCollDownReceive, act_running hr]
    simp only [kind, nectar, ne_eq, not_true_eq_false, if_false, if_true]
  case obtained =>
    intro s node n hr found waits
    show execNodeSlotsObtained node s = _
    rw [execNodeSlotsObtained, act_running hr]
    simp only [found, waits, if_true]
  case spill =>
    rintro s _ node n k hr found waits four rfl still
    show execSpill node s = _
    rw [execSpill, act_running hr]
    simp only [found, waits, Nat.not_lt.mpr four, still, if_false, if_true]
  case giveUp =>
    intro s node n k hr found waits slip
    show execSpillGiveUp node s = _
    rw [execSpillGiveUp, act_running hr]
    simp only [found, waits, slip, if_true]
  case slip =>
    intro s slice num height dst chunk n c hr found held late onTime noAbort uncut noResult noOut lacks
    show execChunkSlip (.coll slice num height) dst chunk s = _
    rw [execChunkSlip, act_running hr]
    simp only [State.nodeOf, found, held, late, onTime, noAbort, uncut, noResult, noOut, lacks, Option.isNone_none, and_self, if_true]
  case abort =>
    intro s slice num height dst chunk n c hr found held late noAbort uncut noResult noOut lacks
    show execChunkAbort (.coll slice num height) dst chunk s = _
    rw [execChunkAbort, act_running hr]
    simp only [State.nodeOf, found, held, late, noAbort, uncut, noResult, noOut, lacks, Option.isNone_none, and_self, if_true]
  case lost =>
    intro s node chunk n c hr found held sent noResult notRoot late noAbort
    have notLost : (!((none : Option Nat) == some 0)) = true := rfl
    show execResultTimeout node chunk s = _
    rw [execResultTimeout, act_running hr]
    simp only [found, held, sent, noResult, notRoot, late, noAbort, notLost, State.abortLost, Option.isNone_none, Option.isSome_none,
      Bool.false_eq_true, and_self, if_false, if_true]
  case stale =>
    intro s unit p tags hr kind stale
    show execCollUpReceive unit p tags s = _
    rw [execCollUpReceive, act_running hr]
    simp only [kind, stale, ne_eq, not_true_eq_false, if_false, if_true]

end Sys2Proof.Machine
end

section
/-! Skipper groups, from the states that their statement names. -/

namespace Sys2Proof.Machine

/-- Settles O19: the number is free and the slice has members, or the group, node and generation that each command looks for are there,
and what the branch does is the effect written. SKIP_GROUP makes the group on this chip only, and Skipper messages go to the unit codes
of the Accord (log entry 57). -/
theorem skipperGroupsComplete : Obligations.skipperGroupsComplete := by
  refine ⟨?create, ?skip, ?result, ?again⟩
  case create =>
    intro s r group slice slip h members inRange numberFree room
    have named : group.val ≠ 0xFFFF := by omega
    have ran : exec (.skipGroup r group slice slip 0 []) s = execSkipGroup r group slice slip 0 [] s := rfl
    rw [ran, execSkipGroup, act_running h.1, mgrCommand_manages h]
    simp only [members, named, numberFree, Nat.not_lt.mpr inRange, Nat.not_le.mpr room, Fin.val_zero, Nat.not_lt_zero, Nat.zero_ne_one,
      Option.isSome_none, Bool.false_eq_true, List.map_nil, List.any_nil, List.eraseDups_nil, ne_eq, not_true_eq_false, and_false,
      or_self, if_false, if_true]
    exact ⟨_, rfl, rfl, rfl, rfl, rfl⟩
  case skip =>
    intro s queue index remote r rank x bs hr fresh ok bound found member reduces read
    show execSkip queue index remote s = _
    rw [execSkip, act_running hr]
    simp only [fresh, ok, bound, found, member, reduces, read, Option.map_some, ne_eq, not_true_eq_false, Bool.true_eq_false, if_false]
  case result =>
    intro s unit p g n hr kind found downward whole node
    show execSkipperReceive unit p s = _
    rw [execSkipperReceive, act_running hr]
    simp only [kind, found, downward, whole, node, ne_eq, not_true_eq_false, Bool.false_eq_true, if_false, if_true]
  case again =>
    intro s group height gen g n x parent hr found node opened above up noResult
    show execSkipperRepeat group height gen s = _
    rw [execSkipperRepeat, act_running hr]
    simp only [found, node, opened, above, up, noResult, Option.bind_some, Option.map_some, Option.isNone_none, and_self, if_true]

end Sys2Proof.Machine
end

section
/-! Loads and unloads of bouquets, from the states that their statement names. -/

namespace Sys2Proof.Machine

/-- Settles O20: the image, load, part or boundary that each command looks for is there, no clause of a refusal holds, and what the
branch does is the effect written. -/
theorem bouquetLoadsComplete : Obligations.bouquetLoadsComplete := by
  refine ⟨?load, ?check, ?timeout, ?commit, ?start, ?unload, ?status, ?boundary, ?release⟩
  case load =>
    intro s r slice image h low high header
    have ran : exec (.bqLoad r slice image) s = execBqLoad r slice image s := rfl
    rw [ran, execBqLoad, act_running h.1, mgrCommand_manages h]
    simp only [Nat.ne_of_gt low, Nat.not_lt.mpr high, header, Bool.true_eq_false, or_self, if_false]
    exact ⟨_, rfl, rfl, rfl, rfl, rfl, rfl, rfl, rfl⟩
  case check =>
    intro s h load slice bytes H unheld
    show execBqLoadCheck h (.image load slice bytes) s = _
    rw [execBqLoadCheck, act_running H.1]
    simp only [fromManager_hears H, unheld, Bool.false_eq_true, if_false]
  case timeout =>
    intro s load l t hr found sent active late
    show execBqLoadTimeout load s = _
    rw [execBqLoadTimeout, act_running hr]
    simp only [found, sent, active, late, and_self, if_true]
  case commit =>
    intro s h load handle start remote b H found
    show execBqCommitReceive h load (some (handle, start)) remote s = _
    rw [execBqCommitReceive, act_running H.1, fromManager_hears H, id]
    simp only [found]
  case start =>
    intro s handle remote b hr part committed reached
    show execBqStart handle remote s = _
    rw [execBqStart, act_running hr]
    simp only [part, committed, reached, and_self, if_true]
  case unload =>
    intro s r handle l h found held noWant
    show execBqUnload r handle s = _
    rw [execBqUnload, act_running h.1, mgrCommand_manages h]
    simp only [found, held, noWant, Option.isSome_none, Bool.false_eq_true, if_false]
  case status =>
    intro s r handle l h named found
    show execBqStatus r handle s = _
    rw [execBqStatus, act_running h.1, mgrCommand_manages h, if_neg named]
    simp only [found]
  case boundary =>
    rintro s _ handle at' b hr found held reached rfl
    show execBqUnloadBoundary handle at' s = _
    rw [execBqUnloadBoundary, act_running hr]
    simp only [found, held, reached, Option.isSome_none, Bool.not_true, Bool.false_eq_true, or_self, if_false]
  case release =>
    intro s handle b at' hr parts named nonzero unload reached noLoads
    have isHandle : (handle.toNat != 0) = true := bne_iff_ne.mpr fun h => nonzero (BitVec.eq_of_toNat_eq h)
    have noneLeft : [b].filter (fun x => x.handle != handle.toNat) = [] := by
      rw [List.filter_cons_of_neg (by rw [named, bne_self_eq_false]; exact Bool.false_ne_true), List.filter_nil]
    show execBqUnloadRelease handle s = _
    rw [execBqUnloadRelease, act_running hr]
    simp only [parts, noLoads, noneLeft, named, isHandle, unload, reached, BEq.rfl, List.any_cons, List.any_nil, List.find?_nil,
      Bool.and_self, Bool.true_or, if_true]

end Sys2Proof.Machine
end

section
/-! What the part writes for a context: where its bytes land, and that they read back. -/

namespace Sys2Proof.Machine

/-- The page tables lie outside the memory, so a write for a context moves no page of any context (R251). -/
theorem State.phys_ctxWrite (s : State) (c off c' x : Nat) (bs : List Byte) : (s.ctxWrite c off bs).phys c' x = s.phys c' x := by
  have tables : (s.ctxWrite c off bs).ctxs = s.ctxs := (s.ctxWrite_keeps c off bs).ctxs rfl
  simp only [State.phys, State.page, State.ctx, tables]

/-- A byte of a mapped page goes to its address, and the rest follow. -/
theorem State.ctxWrite_cons_mapped {s : State} {c off a : Nat} (h : s.phys c off = some a) (b : Byte) (bs : List Byte) :
    s.ctxWrite c off (b :: bs) = (s.writeMem a [b]).ctxWrite c (off + 1) bs := by
  simp only [State.ctxWrite, h]

/-- A byte of an unmapped page is dropped. -/
theorem State.ctxWrite_cons_unmapped {s : State} {c off : Nat} (h : s.phys c off = none) (b : Byte) (bs : List Byte) :
    s.ctxWrite c off (b :: bs) = s.ctxWrite c (off + 1) bs := by
  simp only [State.ctxWrite, h]

/-- A byte of a mapped page reads from its address. -/
theorem State.ctxByte_mapped {s : State} {c off a : Nat} (h : s.phys c off = some a) : s.ctxByte c off = s.byteAt a := by
  simp only [State.ctxByte, h]

/-- An address that no byte of the range maps to reads as before. -/
theorem State.byteAt_ctxWrite_outside {c a : Nat} {bs : List Byte} {s : State} {off : Nat}
    (h : ∀ i < bs.length, s.phys c (off + i) ≠ some a) : (s.ctxWrite c off bs).byteAt a = s.byteAt a := by
  induction bs generalizing s off with
  | nil => rfl
  | cons b bs ih =>
    have later : ∀ i < bs.length, s.phys c (off + 1 + i) ≠ some a := fun i hi =>
      Nat.succ_add_eq_add_succ off i ▸ h (i + 1) (Nat.succ_lt_succ hi)
    cases at' : s.phys c off with
    | none => rw [State.ctxWrite_cons_unmapped at', ih later]
    | some x =>
      have apart : a ≠ x := fun e => h 0 (Nat.succ_pos _) (e ▸ at')
      rw [State.ctxWrite_cons_mapped at', ih (s := s.writeMem x [b]) later, State.byteAt, State.writeMem_mem,
        get_writeBytes_outside _ _ _ _ (by rw [List.length_singleton]; omega), State.byteAt]

/-- The last byte of the range that maps to an address is what the address then reads as. -/
theorem State.byteAt_ctxWrite_inside {c a : Nat} {bs : List Byte} {s : State} {off i : Nat} (wf : Store.wf memDefault s.mem = true)
    (hi : i < bs.length) (at' : s.phys c (off + i) = some a) (last : ∀ j < bs.length, i < j → s.phys c (off + j) ≠ some a) :
    (s.ctxWrite c off bs).byteAt a = bs[i] := by
  induction bs generalizing s off i with
  | nil => exact absurd hi (Nat.not_lt_zero i)
  | cons b bs ih =>
    have next : ∀ j, off + 1 + j = off + (j + 1) := Nat.succ_add_eq_add_succ off
    cases i with
    | zero =>
      have front : s.phys c off = some a := at'
      have later : ∀ j < bs.length, s.phys c (off + 1 + j) ≠ some a := fun j hj =>
        next j ▸ last (j + 1) (Nat.succ_lt_succ hj) (Nat.succ_pos j)
      rw [State.ctxWrite_cons_mapped front, State.byteAt_ctxWrite_outside (s := s.writeMem a [b]) later, State.byteAt,
        State.writeMem_mem]
      exact get_writeBytes_inside s.mem a 0 [b] wf Nat.one_pos
    | succ i =>
      have hi' : i < bs.length := Nat.lt_of_succ_lt_succ hi
      have last' : ∀ j < bs.length, i < j → s.phys c (off + 1 + j) ≠ some a := fun j hj lt =>
        next j ▸ last (j + 1) (Nat.succ_lt_succ hj) (Nat.succ_lt_succ lt)
      rw [← next] at at'
      cases front : s.phys c off with
      | none => rw [State.ctxWrite_cons_unmapped front, ih wf hi' at' last', List.getElem_cons_succ]
      | some x =>
        rw [State.ctxWrite_cons_mapped front, ih (s := s.writeMem x [b]) (wf_writeMem s x [b] wf) hi' at' last',
          List.getElem_cons_succ]

/-- Settles O59: a byte goes to the address of its page alone, no page moves, and an address that one byte has reads as that byte. -/
theorem contextWritesStayInMappedPages : Obligations.contextWritesStayInMappedPages := by
  intro s c off bs
  refine ⟨fun a outside => State.byteAt_ctxWrite_outside outside, fun i => s.phys_ctxWrite c off c (off + i) bs, ?readsBack⟩
  intro canonical own mapped
  obtain ⟨-, -, -, -, -, wf⟩ := canonical
  refine List.ext_getElem (by rw [State.ctxRead, List.length_map, List.length_range]) fun i _ hi => ?_
  obtain ⟨a, at'⟩ := Option.isSome_iff_exists.mp (mapped i hi)
  have last : ∀ j < bs.length, i < j → s.phys c (off + j) ≠ some a := fun j hj lt same =>
    Nat.ne_of_lt lt (own i j hi hj (at'.trans same.symm))
  have now : (s.ctxWrite c off bs).phys c (off + i) = some a := (s.phys_ctxWrite c off c (off + i) bs).trans at'
  simp only [State.ctxRead, List.getElem_map, List.getElem_range]
  rw [State.ctxByte_mapped now, State.byteAt_ctxWrite_inside wf hi at' last]

end Sys2Proof.Machine
end

section
/-! The commands of the pool, its window and its frames, from the states that their statement names. -/

namespace Sys2Proof.Machine

/-- A field written at each index of a list reads the value there, and at an index that already held it. -/
theorem State.fld_foldl_setFld {f : Fld} {v i : Nat} (hf : f.lo + f.width ≤ 64) {is : List Nat} {s : State}
    (wf : Store.wf regDefault s.regs = true) (h : i ∈ is ∨ s.fld f i = v % 2 ^ f.width) :
    (is.foldl (fun t w => t.setFld f w v) s).fld f i = v % 2 ^ f.width := by
  induction is generalizing s with
  | nil => exact h.resolve_left List.not_mem_nil
  | cons k is ih =>
    refine ih (wf_setFld f k v wf) ?_
    by_cases same : i = k
    · exact .inr (same ▸ fld_setFld_same s f i v wf hf)
    · rw [fld_setFld_other s f f k i v (.inr same)]
      exact h.imp_left fun mem => (List.mem_cons.mp mem).resolve_left same

/-- Writing a field at each index of a list leaves memory and what was sent alone. -/
theorem State.foldl_setFld_mem_out (f : Fld) (v : Nat) (is : List Nat) (s : State) :
    (is.foldl (fun t w => t.setFld f w v) s).mem = s.mem ∧ (is.foldl (fun t w => t.setFld f w v) s).out = s.out := by
  induction is generalizing s with
  | nil => exact ⟨rfl, rfl⟩
  | cons k is ih => exact ih (s.setFld f k v)

/-- Settles O23: the request, entry or frame that each command looks for is there, no clause of a refusal holds, and what the branch
does is the effect written. -/
theorem poolCommandsComplete : Obligations.poolCommandsComplete := by
  refine ⟨?write, ?read, ?response, ?window, ?entryFree, ?marker, ?corrected, ?uncorrectable, ?copyDone, ?threshold⟩
  case write =>
    intro s wing p hr kind
    show execPoolWriteRequest wing p s = _
    rw [execPoolWriteRequest, act_running hr, if_pos kind]
  case read =>
    rintro s _ wing p data secs hr kind verdict rfl
    have served : ¬(ST_OK = ST_REFUSED_AUTH ∨ ST_OK = ST_REFUSED_FORMAT) := by decide
    show execPoolReadRequest wing p s = _
    rw [execPoolReadRequest, act_running hr, if_neg (fun other => other kind)]
    simp only [verdict, served, if_false]
  case response =>
    intro s unit p r hr found
    show execReadRespReceive unit p s = _
    rw [execReadRespReceive, act_running hr]
    simp only [found]
  case window =>
    intro s port p hr kind inWindow
    show execWindowRequest port p s = _
    rw [execWindowRequest, act_running hr, if_pos ⟨kind, inWindow⟩]
  case entryFree =>
    intro s port p hr found
    show execWindowEntryFree port s = _
    rw [execWindowEntryFree, act_running hr]
    simp only [found]
  case marker =>
    intro s port x hr found
    have ran : exec (.refusalMarkerSend port) s = execRefusalMarkerSend port s := rfl
    rw [ran, execRefusalMarkerSend, act_running hr]
    simp only [found]
    exact ⟨_, rfl, rfl, rfl, rfl, rfl⟩
  case corrected =>
    intro s frame hr present threshold first
    have otherReg : F.HBM_RETIRE_THRESHOLD.reg ≠ F.HBM_ECC_CORRECTED.reg := by decide
    have below : ¬(s.bump F.HBM_ECC_CORRECTED (stackOf frame)).fld F.HBM_RETIRE_THRESHOLD (wingOfFrame frame) ≤ 1 := by
      rw [State.bump, fld_setFld_other _ _ _ _ _ _ (.inl otherReg), threshold]
      decide
    show execEccCorrected frame s = _
    rw [execEccCorrected, act_running hr]
    simp only [present, first, Bool.true_eq_false, if_false, State.bump_pool, Nat.zero_add]
    exact congrArg Host.Outcome.next (if_neg below)
  case uncorrectable =>
    intro s frame sector data hr present clean
    have ran : exec (.eccUncorrectable frame sector data) s = execEccUncorrectable frame sector data s := rfl
    rw [ran, execEccUncorrectable, act_running hr]
    simp only [present, clean, Bool.true_eq_false, Bool.false_eq_true, if_false, State.writeMem_pool, State.bump_pool]
    exact ⟨_, rfl, rfl, rfl, rfl⟩
  case copyDone =>
    intro s wing f hr due exhausted
    show execRetireCopyDone wing s = _
    rw [execRetireCopyDone, act_running hr]
    simp only [due, exhausted, if_true]
  case threshold =>
    intro s r n hr wf low high
    obtain ⟨wfRegs, -⟩ := wf
    have fits : n.val % 2 ^ F.HBM_RETIRE_THRESHOLD.width = n.val := Nat.mod_eq_of_lt n.isLt
    have ran : exec (.retireThreshold r n) s = execRetireThreshold r n s := rfl
    rw [ran, execRetireThreshold, act_running hr, if_neg (by omega)]
    refine ⟨_, rfl, fun w hw => ?_, State.foldl_setFld_mem_out ..⟩
    exact (State.fld_foldl_setFld (by decide) wfRegs (.inl (List.mem_range.mpr hw))).trans fits

end Sys2Proof.Machine
end

section
/-! Which commands act through the running part, which have a next state, and what one step keeps. -/

namespace Sys2Proof.Machine

/-- A command that needs the clocks acts through the running part alone (log entry 6). -/
theorem exec_needsClocks {c : Instr} {s : State} (h : c.needsClocks = true) (hr : s.running = false) : exec c s = .next s := by
  cases c
  case timeSetSend | atlStop | atsGo | atsStop | atsFence | atsChLockRead | atsChLockRelease | antSignalDetect | antFecAlign
      | antTrainTimeout | antLoss | antInitSend | antInitReceive | antRead | antWrite | antMbxSend | antLinkAck | antLinkNak
      | antReplayTimeout | antLinkAckSend | antRetrain | ctlSemRead | ctlSemRelease | mbxLockRead | mbxLockRelease | mbxPost
      | mbxAcknowledge | comparatorFire | comparatorClear | hardwareTrip | powerMeasure | silCursorWrite | silWindow7AutoRead
      | freezePin | freezeDelayEnd | chrStart | chrNext | chrRelease | readoutHalfReady | readoutHang | acdSliceClear | registerWrite
      | porAssert | resetRelease | warmAssert | warmRelease | vinLoss | sysclkLoss | srefclkLoss | debugExtest | insGoFirmware
      | insGoStartTest | insGoHbm | insGoPorts | insGoRole | insGoTime | sysclkReturn | srefclkReturn => cases h
  all_goals
    unfold exec
    exact act_stopped hr _

/-- Settles O46: the commands named act through the running part (`exec_needsClocks`), which does nothing while its clocks stand. -/
theorem stoppedPartKeepsItsState : Obligations.stoppedPartKeepsItsState :=
  fun _ _ => exec_needsClocks

/-- Above 60 V on VIN the running part stops; up to there, and while it does not run, POWER_MEASURE has a next state (R397). -/
theorem execPowerMeasure_goes {s : State} {vin : Fin 65536} (h : s.running = true → vin.val ≤ 60000) (watts temp : Fin 65536) :
    ∃ t, execPowerMeasure watts vin temp s = .next t := by
  rw [execPowerMeasure, if_neg fun above => Nat.not_lt.mpr (h above.1) above.2]
  exact act_goes s _

/-- Settles O38: the first branch of POWER_MEASURE. -/
theorem vinAboveRangeStopsThePart : Obligations.vinAboveRangeStopsThePart :=
  fun _ _ _ _ hr above => if_pos ⟨hr, above⟩

/-- Settles O39: each command ends behind one of the gates (`act`, `actAnt`, `accessBy`, `chrAccess`) or answers a next state outright,
and POWER_MEASURE does so up to 60 V. -/
theorem everyOtherCommandGoesOn : Obligations.everyOtherCommandGoesOn := by
  intro c s supply
  cases c
  case powerMeasure watts vin temp => exact execPowerMeasure_goes (supply watts vin temp rfl) watts temp
  case registerWrite owner addr value =>
    show ∃ t, execRegisterWrite owner addr value s = .next t
    unfold execRegisterWrite
    split
    · exact ⟨_, rfl⟩
    · exact ⟨_, rfl⟩
  case chrStart | chrNext | chrRelease =>
    unfold exec
    exact chrAccess_goes ..
  case atlStop | atsGo | atsStop | atsFence | atsChLockRead | antRetrain | ctlSemRead | ctlSemRelease | mbxLockRead
      | mbxLockRelease | mbxPost | mbxAcknowledge | silCursorWrite | silWindow7AutoRead | acdSliceClear | insGoFirmware | insGoStartTest
      | insGoHbm | insGoPorts | insGoRole | insGoTime | atsChLockRelease =>
    unfold exec
    exact accessBy_goes ..
  all_goals exact ⟨_, rfl⟩

/-- A command of scope MGR runs behind the gate of the manager's commands (R330). -/
theorem exec_managerCommand {c : Instr} {r : FwRef} (h : c.managerCommand = some r) (s : State) :
    ∃ f : State → State, exec c s = act s fun u => u.mgrCommand r f := by
  unfold Instr.managerCommand at h
  split at h
  case h_22 => cases h
  all_goals
    cases h
    exact ⟨_, rfl⟩

theorem mgrCommand_noManager {s : State} (h : s.isManagerChip = false) (r : FwRef) (f : State → State) :
    s.mgrCommand r f = s.finishFw r 0x11 0 := by
  simp only [State.mgrCommand, h, Bool.not_false, if_true]

theorem mgrCommand_notActive {s : State} (hm : s.isManagerChip = true) (ha : s.isActive = false) (r : FwRef) (f : State → State) :
    s.mgrCommand r f = s.finishFw r ACK_STATE 0 := by
  simp only [State.mgrCommand, hm, ha, Bool.not_true, Bool.not_false, Bool.false_eq_true, if_false, if_true]
  rfl

/-- Settles O45: behind the gate of the manager's commands (`exec_managerCommand`) a chip without the role, or not ACTIVE, only ends the
command. -/
theorem managerCommandsNeedTheActiveManager : Obligations.managerCommandsNeedTheActiveManager := by
  intro c r s scope hr
  obtain ⟨f, gated⟩ := exec_managerCommand scope s
  rw [gated, act_running hr]
  exact ⟨fun hm => congrArg _ (mgrCommand_noManager hm r f), fun hm ha => congrArg _ (mgrCommand_notActive hm ha r f)⟩

/-- Settles O35: the definition of a step on a queue that is not empty. -/
theorem stepRunsTheFrontCommand : Obligations.stepRunsTheFrontCommand := fun _ _ _ => rfl

end Sys2Proof.Machine
end

section
/-! The canonical form along a step, and how a freeze ends (R389). -/

namespace Sys2Proof.Machine

/-- Settles O56: a command keeps the canonical form (`exec_keeps`), and so does one unit of fabric time. -/
theorem everyStepKeepsCanonicalForm : Obligations.everyStepKeepsCanonicalForm := by
  intro s t canonical stepped
  unfold step at stepped
  split at stepped
  case h_1 c rest _ => exact (exec_keeps stepped).wf canonical
  case h_2 =>
    cases stepped
    exact s.passTime_keeps.wf canonical

/-! ### What a reset or a trip leaves -/

/-- A field of a register outside the mask holds the same. -/
theorem Keeps.fld {m : Nat} {s t : State} (k : Keeps m s t) (f : Fld) (i : Nat) (h : m.testBit f.reg.code = false) :
    t.fld f i = s.fld f i := by
  rw [State.fld, k.regs f.reg i h, State.fld]

/-- What R389 leaves of a frozen part: it is in reset, or by a trip in DEEP, and the dump and Thorax SRAM are lost. -/
def State.FreezeLost (t : State) : Prop :=
  (t.power.inReset = true ∨ (t.power.tripped = true ∧ t.fld F.PWR_STATUS_STATE = 3)) ∧ t.chr = ChrSt.init
    ∧ ∀ a : Nat, sramBase ≤ a → t.byteAt a = 0

/-- A freeze, or its absence, stands as it was, or has ended by R389. -/
def State.FreezeStep (s t : State) : Prop :=
  t.power.frozen = s.power.frozen ∨ (t.power.frozen = false ∧ t.FreezeLost)

/-- Operations that leave power, Chrysalis, memory and PWR_STATUS alone may follow. -/
theorem State.FreezeStep.keeps {m : Nat} {s t u : State} (h : s.FreezeStep t) (k : Keeps m t u) (hp : m.testBit 321 = false)
    (hc : m.testBit 325 = false) (hm : m.testBit 311 = false) (hr : m.testBit (RegName.code .PWR_STATUS) = false) :
    s.FreezeStep u := by
  have power : u.power = t.power := k.power hp
  refine h.imp (fun same => power ▸ same) fun ⟨thawed, reset, chr, sram⟩ => ⟨power ▸ thawed, ?_, (k.chr hc).trans chr, fun a ha => ?_⟩
  · have state : u.fld F.PWR_STATUS_STATE = t.fld F.PWR_STATUS_STATE := k.fld F.PWR_STATUS_STATE 0 hr
    rw [power, state]
    exact reset
  · rw [State.byteAt, k.mem hm]
    exact sram a ha

/-- What a wipe leaves of the memory. -/
theorem State.wipe_mem (s : State) (set : Survives) :
    (s.wipe set).mem = Store.dropIf (fun a => decide (sramBase ≤ a) || set == .deep) s.mem := rfl

/-- A wipe clears Thorax SRAM. -/
theorem State.wipe_sram (s : State) (set : Survives) {a : Nat} (h : sramBase ≤ a) :
    Store.get memDefault (s.wipe set).mem a = 0 := by
  rw [State.wipe_mem, Store.get_dropIf, decide_eq_true h, Bool.true_or, if_pos rfl, memDefault]

/-- A WARM reset holds the part in reset, with the freeze gone. -/
theorem State.warmNow_freezeLost (s : State) (source : Nat) : (s.warmNow source).power.frozen = false ∧ (s.warmNow source).FreezeLost :=
  ⟨rfl, .inl rfl, rfl, fun _ ha => by simp only [State.byteAt, State.warmNow, State.wipe_sram _ _ ha]⟩

/-- A POR holds the part in reset, and leaves no byte of memory. -/
theorem State.porNow_freezeLost (s : State) {p : PowerSt} (hr : p.inReset = true) : (s.porNow p).FreezeLost :=
  ⟨.inl hr, rfl, fun _ _ => rfl⟩

/-- Entry to DEEP shows in PWR_STATUS. -/
theorem State.enterLow_deep {s : State} (wf : s.canonical) : (s.enterLow 3).fld F.PWR_STATUS_STATE = 3 := by
  have wiped : Store.wf regDefault ((if s.flag F.INS_CTL_FAST_PATH then s.setFld F.INS_FAST_MARKER 0 1 else s).wipe .deep).regs = true := by
    refine ((State.wipe_keeps _ _).wf ?_).1
    split
    · exact (State.setFld_keeps (m := 2 ^ 135 - 1) s _ _ _ (RegName.code_bit _)).wf wf
    · exact wf
  exact fld_setFld_same _ F.PWR_STATUS_STATE 0 3 wiped (by decide)

/-- A trip takes the part into DEEP. -/
theorem State.trip_freezeLost {s : State} (wf : s.canonical) : s.trip.power.frozen = false ∧ s.trip.FreezeLost := by
  refine ⟨rfl, .inr ⟨rfl, State.enterLow_deep ?_⟩, rfl, fun _ ha => ?sram⟩
  case sram => simp only [State.byteAt, State.trip, State.enterLow, State.setFld_mem, State.wipe_sram _ _ ha]
  have recorded := (s.sillage_keeps 0x0E 0x02 2 []).wf wf
  split
  · exact (State.persistNext_keeps _ _).wf recorded
  · exact recorded

/-! ### Writes by address (R388, R389) -/

/-- Of all registers only a write of CHR_CTL reaches the power of the part. -/
theorem State.writeReg_power {s : State} {owner i : Nat} {r : RegName} {v : Word} (h : r ≠ .CHR_CTL) :
    (s.writeReg owner r i v).1.power = s.power := by
  have fields (t : State) (k : Nat) : Keeps (2 ^ 135 - 1) t (t.writeFields r k v) := State.writeFields_keeps t r k v r.code_bit
  have freed (f : Fld) (k : Nat) : (s.release f k v).1.power = s.power :=
    (State.release_keeps (m := 2 ^ 135 - 1) s f k v (RegName.code_bit _)).power rfl
  unfold State.writeReg
  split
  case h_1 | h_2 => exact freed _ _
  case h_3 =>
    split
    · rfl
    · exact freed _ _
  case h_4 => exact (State.mbxWrite_keeps ..).power rfl
  case h_5 => exact (State.mbxAnswer_keeps ..).power rfl
  case h_6 => exact (State.writeDbIn_keeps ..).power rfl
  case h_7 =>
    split
    · rfl
    · rfl
  case h_8 | h_9 =>
    unfold State.writeBell
    split
    · rfl
    · exact ((State.dbDue_keeps ..).power rfl).trans ((fields s i).power rfl)
  case h_10 => exact (State.writeCursor_keeps ..).power rfl
  case h_11 => exact absurd rfl h
  case h_12 => exact (State.writeInsCtl_keeps ..).power rfl
  case h_13 => exact (State.writeAntCtl_keeps ..).power rfl
  case h_14 => exact (State.writeAtsCtl_keeps ..).power rfl
  case h_15 | h_16 | h_17 => exact (State.ownS_keeps _ _ _ _ (fields s i)).power rfl
  case h_18 => exact (State.writeDoorbell_keeps ..).power rfl
  case h_19 => exact (State.writeSliceSel_keeps ..).power rfl
  case h_20 => exact (State.writeChSel_keeps ..).power rfl
  case h_21 => exact (State.writeCmpValue_keeps ..).power rfl
  case h_22 => exact (State.writeCmpCtl_keeps ..).power rfl
  case h_23 =>
    split
    · rfl
    · exact (fields s _).power rfl

/-- RELEASE ends a freeze by a WARM reset (R389). -/
theorem State.chrRelease_freezeStep (s : State) : s.FreezeStep s.chrRelease.1 := by
  unfold State.chrRelease State.chrWrite
  split
  · exact .inl rfl
  dsimp only
  split
  · exact .inr (s.warmNow_freezeLost 3)
  · exact .inl rfl

/-- A write of CHR_CTL leaves the power alone, but for RELEASE. -/
theorem State.writeChrCtl_freezeStep (s : State) (v : Word) : s.FreezeStep (s.writeChrCtl v).1 := by
  unfold State.writeChrCtl
  split
  case isTrue => exact s.chrRelease_freezeStep
  case isFalse =>
    have started : (if getBits v 0 1 = 1 then s.chrStart else (s, ST_OK)).1.power = s.power := by
      split
      · exact s.chrStart_keeps.power rfl
      · rfl
    refine .inl (congrArg PowerSt.frozen ?_)
    dsimp only
    split
    · exact ((State.chrNext_keeps ..).power rfl).trans started
    · exact started

/-- So it is for a write of any register (R388). -/
theorem State.writeReg_freezeStep (s : State) (owner : Nat) (r : RegName) (i : Nat) (v : Word) :
    s.FreezeStep (s.writeReg owner r i v).1 := by
  by_cases chr : r = .CHR_CTL
  · subst chr
    exact s.writeChrCtl_freezeStep v
  · exact .inl (congrArg PowerSt.frozen (State.writeReg_power chr))

theorem State.writeThorax_freezeStep (s : State) (owner : Nat) (r : RegName) (i : Nat) (v : Word) :
    s.FreezeStep (s.writeThorax owner r i v).1 := by
  unfold State.writeThorax
  split
  · exact s.writeChrCtl_freezeStep v
  split
  · split
    · exact s.writeReg_freezeStep ..
    · exact .inl rfl
  split
  · exact .inl rfl
  · exact s.writeReg_freezeStep ..

theorem State.writeWing_freezeStep (s : State) (owner : Nat) (r : RegName) (i : Nat) (v : Word) :
    s.FreezeStep (s.writeWing owner r i v).1 := by
  unfold State.writeWing
  split
  · exact .inl rfl
  · exact s.writeReg_freezeStep ..

/-- A write by address reaches the power through a register alone. -/
theorem State.busWrite_freezeStep (s : State) (owner a : Nat) (bs : List Byte) : s.FreezeStep (s.busWrite owner a bs).1 := by
  unfold State.busWrite
  dsimp only
  split
  case h_1 =>
    split
    · split
      · exact s.writeThorax_freezeStep ..
      · exact .inl rfl
    · exact .inl rfl
  case h_2 =>
    split
    · exact .inl rfl
    split
    · split
      · exact s.writeWing_freezeStep ..
      · exact .inl rfl
    · exact .inl rfl
  case h_3 | h_4 => (repeat' split) <;> exact .inl rfl
  case h_5 off _ =>
    have stored : (s.poolWrite off bs).power = s.power := (s.poolWrite_keeps off bs).power rfl
    (repeat' split) <;> exact .inl (by simp only [stored])
  case h_6 => exact .inl rfl

/-! ### Frames and accesses that write -/

/-- A tracked frame leaves the power alone, but for its effect. -/
theorem State.antReceive_freezeStep (s : State) (a : Nat) (good : Bool) (f : AntFrame) {eff : State → State}
    (he : ∀ u : State, u.FreezeStep (eff u)) : s.FreezeStep (s.antReceive a good f eff) := by
  have acked : (s.antAcked a f.ack).power.frozen = s.power.frozen := congrArg PowerSt.frozen ((s.antAcked_keeps a f.ack).power rfl)
  unfold State.antReceive
  split
  · exact .inl rfl
  split
  · exact .inl (congrArg PowerSt.frozen ((State.antNak_keeps ..).power rfl))
  dsimp only
  split
  · exact (he _).imp_left fun same => same.trans acked
  split
  · exact .inl ((congrArg PowerSt.frozen ((State.antNak_keeps ..).power rfl)).trans acked)
  · exact .inl acked

/-- A request's reply follows its effect. -/
theorem State.antRequest_freezeStep (s : State) (a : Nat) (good : Bool) (f : AntFrame) {eff : State → State × Nat × List Byte}
    (he : ∀ u : State, u.FreezeStep (eff u).1) : s.FreezeStep (s.antRequest a good f eff) := by
  refine s.antReceive_freezeStep a good f fun u => ?_
  have replied {t : State} (st : Nat) (data : List Byte) (h : u.FreezeStep t) : u.FreezeStep (t.antReply a f st data) :=
    h.keeps (State.antReply_keeps ..) rfl rfl rfl rfl
  dsimp only
  split
  · exact replied _ _ (.inl rfl)
  split
  · exact replied _ _ (.inl rfl)
  · exact replied _ _ (he u)

/-- An access adds its answer to what was sent. -/
theorem State.FreezeStep.emit {s t : State} (h : s.FreezeStep t) (m : OutMsg) : s.FreezeStep (t.emit m) :=
  h.keeps (State.emit_keeps t m) rfl rfl rfl rfl

/-- An event of the Antenna ports has its effect or none. -/
theorem actAnt_freezeStep {s t : State} {f : State → State} (h : actAnt s f = .next t) (hf : s.FreezeStep (f s)) : s.FreezeStep t := by
  obtain rfl := Host.Outcome.next.inj h
  split
  · exact hf
  · exact .inl rfl

/-! ### Operations on the power that leave a freeze as it is -/

theorem State.antCheckUp_frozen (s : State) (a : Nat) : (s.antCheckUp a).power.frozen = s.power.frozen := by
  unfold State.antCheckUp State.antEnterUp
  dsimp only
  split
  · split
    · rfl
    · rw [(State.sendBell_keeps ..).power rfl]
      rfl
  · rfl

theorem State.foCause_frozen (s : State) (cause : Nat) : (s.foCause cause).power.frozen = s.power.frozen := by
  have recorded (t : State) (k : Nat) (v : Nat) : (t.sillage k v 2 []).power = t.power := (State.sillage_keeps ..).power rfl
  unfold State.foCause
  split
  · rw [recorded]
  dsimp only
  split
  · rfl
  split
  · simp only [(State.fence_keeps _).power rfl, recorded, State.setFld_power]
  · simp only [recorded, State.setFld_power]

theorem State.cmpActions_frozen (s : State) (n : Nat) : (s.cmpActions n).power.frozen = s.power.frozen := by
  have woken (c : Prop) [Decidable c] (k : Nat) :
      (if c then { s with power := { s.power with wakeCmps := k } } else s).power.frozen = s.power.frozen := by
    split
    · rfl
    · rfl
  have acted (t : State) (c : Prop) [Decidable c] :
      ((if c then t.chrTrigger 2 else t).sillage 0x0E 0x01 1 []).power = t.power := by
    rw [(State.sillage_keeps ..).power rfl]
    split
    · exact (t.chrTrigger_keeps 2).power rfl
    · rfl
  have caused (t : State) (c : Prop) [Decidable c] :
      (if c then t else if n = 4 then t.foCause FO_THERMAL else if n = 5 then t.foCause FO_SUPPLY else t).power.frozen
        = t.power.frozen := by
    split
    · rfl
    split
    · exact t.foCause_frozen _
    split
    · exact t.foCause_frozen _
    · rfl
  unfold State.cmpActions
  dsimp only
  rw [apply_ite State.power, apply_ite PowerSt.frozen, caused, acted, ite_self, woken]

theorem State.releasePor_frozen (s : State) (x : Straps) : (s.releasePor x).power.frozen = s.power.frozen := by
  unfold State.releasePor
  dsimp only
  split
  · rfl
  · rfl

theorem State.comeWarm_frozen (s : State) (kind source : Nat) (busOk : Bool) (x : Straps) :
    (s.comeWarm kind source busOk x).power.frozen = s.power.frozen := by
  simp only [State.comeWarm, State.startInstar, State.sample, State.setFld_power, apply_ite State.power,
    (State.poolLost_keeps _).power rfl, ite_self, State.setCauseOf, State.setReg_power]

theorem State.showPower_frozen (s : State) (watts vin temp : Nat) : (s.showPower watts vin temp).power.frozen = s.power.frozen := by
  unfold State.showPower
  dsimp only
  split
  · split
    · rfl
    · rfl
  · rfl

/-- A loss of SYSCLK or EXTEST holds the part in POR, or goes on with the POR held (R399, R403). -/
theorem State.holdPor_freezeStep (s : State) {p : PowerSt} (source : Nat) (h : p.frozen = s.power.frozen) :
    s.FreezeStep (s.holdPor p source) := by
  unfold State.holdPor
  split
  · exact .inl h
  · exact .inr ⟨rfl, s.porNow_freezeLost rfl⟩

/-- A command whose parts do not name the power keeps it. -/
theorem exec_keeps_power {c : Instr} {s t : State} (h : exec c s = .next t) (hp : c.parts.elem .power = false) : t.power = s.power :=
  (exec_keeps h).same .power (maskOf_part_clear (fun mem => Bool.noConfusion ((List.elem_eq_true_of_mem mem).symm.trans hp)) c.regs)

/-- A command that acts while the clocks stand leaves the freeze as it was or ends it by R389, but for the one that begins it. -/
theorem exec_freezeStep {c : Instr} {s t : State} (clocks : c.needsClocks = false) (begins : c ≠ .freezeDelayEnd)
    (untripped : c ≠ .hardwareTrip)
    (h : exec c s = .next t) : s.FreezeStep t := by
  cases c
  case contextResetBoundary | contextResetRelease | resetWarm | resetCompute | computeResetBoundary | computeResetReady | powerSleep
      | powerDeep | forwardOnlyEnter | forwardOnlyLeave | fwdOnlyContextReset | fwdOnlyHalt | powerLimit | firmwareWatchdogLimit
      | spareTakeover | essentialUnitFail | stage2Done | stage5Done => cases clocks
  case antInitSend port =>
    change execAntInitSend port s = _ at h
    refine actAnt_freezeStep h (.inl ?_)
    dsimp only
    split
    · rw [State.antCheckUp_frozen, State.modAnt_power, (State.antEmit_keeps ..).power rfl]
    · rfl
  case antInitReceive port good ack role version maxOut =>
    have left (t : State) (c : Prop) [Decidable c] : (if c then t.antGo port.val AN_INIT else t).power = t.power := by
      split
      · exact (State.antGo_keeps ..).power rfl
      · rfl
    change execAntInitReceive port good ack role version maxOut s = _ at h
    refine actAnt_freezeStep h (.inl ?_)
    dsimp only
    split
    · rfl
    split
    · rfl
    split
    · rfl
    · rw [State.antCheckUp_frozen, State.modAnt_power, left]
  case antWrite port good silent took f =>
    change execAntWrite port good silent took f s = _ at h
    refine actAnt_freezeStep h (State.antRequest_freezeStep _ _ _ _ fun u => ?_)
    dsimp only
    split
    · exact .inl rfl
    have written := u.busWrite_freezeStep (port.val + 1) f.addr.toNat f.data
    split
    · split
      · exact written
      · exact .inl rfl
    · exact written
  case comparatorFire n =>
    obtain rfl := Host.Outcome.next.inj h
    dsimp only
    split
    · exact .inl (State.cmpActions_frozen _ _)
    · exact .inl rfl
  case hardwareTrip => exact absurd rfl untripped
  case powerMeasure watts vin temp =>
    change execPowerMeasure watts vin temp s = _ at h
    unfold execPowerMeasure at h
    split at h
    · cases h
    obtain ⟨rfl, -⟩ | ⟨rfl, -⟩ := act_next h
    · exact .inl (State.showPower_frozen _ _ _ _)
    · exact .inl rfl
  case freezeDelayEnd => exact absurd rfl begins
  case chrRelease owner =>
    change chrAccess owner.val s State.chrRelease = _ at h
    unfold chrAccess at h
    split at h
    · obtain rfl := Host.Outcome.next.inj h
      exact .inl rfl
    · obtain rfl := Host.Outcome.next.inj h
      exact s.chrRelease_freezeStep.emit _
  case registerWrite owner addr value =>
    change execRegisterWrite owner addr value s = _ at h
    unfold execRegisterWrite at h
    split at h
    · obtain rfl := Host.Outcome.next.inj h
      exact .inl rfl
    · obtain rfl := Host.Outcome.next.inj h
      exact (s.busWrite_freezeStep ..).emit _
  case porAssert up =>
    obtain rfl := Host.Outcome.next.inj h
    dsimp only
    split
    · split
      · exact .inl rfl
      · exact .inr ⟨rfl, s.porNow_freezeLost rfl⟩
    split
    · exact .inl rfl
    split
    · exact .inl rfl
    · exact .inr ⟨rfl, s.porNow_freezeLost rfl⟩
  case resetRelease ok x =>
    obtain rfl := Host.Outcome.next.inj h
    dsimp only
    split
    · exact .inl rfl
    · exact .inl (State.releasePor_frozen _ x)
  case warmAssert =>
    obtain rfl := Host.Outcome.next.inj h
    split
    · exact .inl rfl
    · exact .inr (s.warmNow_freezeLost 2)
  case warmRelease busOk x =>
    obtain rfl := Host.Outcome.next.inj h
    dsimp only
    split
    · exact .inl rfl
    split
    · exact .inl (State.comeWarm_frozen ..)
    split
    · exact .inl (State.comeWarm_frozen ..)
    · exact .inl rfl
  case vinLoss =>
    obtain rfl := Host.Outcome.next.inj h
    split
    · exact .inr ⟨rfl, s.porNow_freezeLost rfl⟩
    · exact .inl rfl
  case sysclkLoss =>
    obtain rfl := Host.Outcome.next.inj h
    split
    · exact s.holdPor_freezeStep 0 rfl
    · exact .inl rfl
  case srefclkLoss k =>
    have lost (t : State) (c : Prop) [Decidable c] : (if c then (refLinks k.val).foldl State.lossOfLink t else t).power = t.power := by
      split
      · exact (Keeps.foldl _ (.refl t) State.lossOfLink_keeps).power rfl
      · rfl
    have gone (t : State) (c : Prop) [Decidable c] : (if c then (t.antGo 0 AN_DOWN).antGo 1 AN_DOWN else t).power = t.power := by
      split
      · rw [(State.antGo_keeps ..).power rfl, (State.antGo_keeps ..).power rfl]
      · rfl
    obtain rfl := Host.Outcome.next.inj h
    dsimp only
    exact .inl (by rw [gone, lost])
  case debugExtest hold x =>
    obtain rfl := Host.Outcome.next.inj h
    split
    · exact .inl rfl
    split
    · exact s.holdPor_freezeStep 1 rfl
    · exact .inl (State.releasePor_frozen _ x)
  case sysclkReturn x =>
    obtain rfl := Host.Outcome.next.inj h
    exact .inl (State.releasePor_frozen _ x)
  case srefclkReturn k =>
    obtain rfl := Host.Outcome.next.inj h
    exact .inl rfl
  all_goals exact .inl (congrArg PowerSt.frozen (exec_keeps_power h rfl))

/-! ### No command but the end of the freeze delay begins a freeze (R387) -/

/-- Entry to a low-power state is no freeze. -/
theorem State.tryLow_thawed {s : State} (h : s.power.frozen = false) : s.tryLow.power.frozen = false := by
  unfold State.tryLow
  split
  · split
    · exact h
    · rfl
  · exact h

theorem State.goLow_thawed {s : State} (h : s.power.frozen = false) (r : FwRef) (mask code : Nat) :
    (s.goLow r mask code).power.frozen = false := by
  unfold State.goLow
  split
  · rw [(State.finishFw_keeps ..).power rfl, h]
  · exact State.tryLow_thawed (by rw [(State.wakeMask_keeps ..).power rfl, h])

theorem State.unitLost_frozen (s : State) (kind wing logical : Nat) :
    (s.unitLost kind wing logical).power.frozen = s.power.frozen := by
  have sent (m : Mgmt) : (s.sendMgmt 0xFFFE m).power = s.power := (State.sendMgmt_keeps ..).power rfl
  unfold State.unitLost
  dsimp only
  split
  case h_1 => rw [(State.coreLost_keeps ..).power rfl, sent]
  case h_2 => rw [(State.slotLost_keeps ..).power rfl, sent]
  case h_3 =>
    have linkLost (t : State) (c : Prop) [Decidable c] (l : Nat) : (if c then t.lossOfLink l else t).power = t.power := by
      split
      · exact (State.lossOfLink_keeps ..).power rfl
      · rfl
    rw [apply_ite State.power, apply_ite PowerSt.frozen, State.sparesCause, State.foCause_frozen, ite_self, linkLost, sent]
  case h_4 => rw [sent]

theorem State.takeover_frozen (s : State) (u : UnitFail) : (s.takeover u).power.frozen = s.power.frozen := by
  have mapped : (s.mapTakeover u).power = s.power := (s.mapTakeover_keeps u).power rfl
  have counted (t : State) (f : Fld) : (t.bump f).power = t.power :=
    (State.bump_keeps (m := 2 ^ 135 - 1) t f 0 1 (RegName.code_bit _)).power rfl
  unfold State.takeover
  dsimp only
  generalize (if u.kind = 3 then (s.mapTakeover u).spares.use'.rowsAbsent.contains (u.wing, u.logical)
    else (s.mapTakeover u).unitAbsent u.kind u.wing u.logical) = lost
  cases lost with
  | true => rw [if_pos rfl, State.unitLost_frozen, apply_ite State.power, counted, ite_self, mapped]
  | false => rw [if_neg Bool.noConfusion, apply_ite State.power, counted, ite_self, mapped]

theorem State.foldl_takeover_frozen (l : List UnitFail) (s : State) :
    (l.foldl State.takeover s).power.frozen = s.power.frozen := by
  induction l generalizing s with
  | nil => rfl
  | cons u l ih => exact (ih _).trans (s.takeover_frozen u)

theorem State.stageFailed_power (s : State) (code unit : Nat) : (s.stageFailed code unit).power = s.power :=
  (State.stageFailed_keeps ..).power rfl

theorem State.showReserve_power (s : State) (k : Nat) : (s.showReserve k).power = s.power := (s.showReserve_keeps k).power rfl

/-- The pool becomes ready with the refresh off, and no more of the power changed. -/
theorem State.poolReady_frozen (s : State) : s.poolReady.power.frozen = s.power.frozen := by
  have shown (l : List Nat) (t : State) : (l.foldl (fun (t : State) k => ((t.setFld F.HBM_STACK_STATUS_STATE k 2).setFld
      F.HBM_STACK_STATUS_PIN_RATE k (pinRate Config.variant.val)).showReserve k) t).power = t.power := by
    induction l generalizing t with
    | nil => rfl
    | cons k l ih => rw [List.foldl_cons, ih, State.showReserve_power, State.setFld_power, State.setFld_power]
  unfold State.poolReady
  dsimp only
  rw [shown]

theorem execStage5Done_frozen {s t : State} {busOk : Bool} {stack : Option (Fin 24)} {frames : List (Fin 884736)}
    (h : execStage5Done busOk stack frames s = .next t) : t.power.frozen = s.power.frozen := by
  have lost (c : Prop) [Decidable c] : (if c then s else (s.setFld F.RST_CAUSE_POOL_HELD 0 0).poolLost).power = s.power := by
    split
    · rfl
    · rw [(State.poolLost_keeps _).power rfl, State.setFld_power]
  have retired {u v : State} {l : List Nat} {o : Option Nat} (h : u.retireAll5 l = (v, o)) : v.power = u.power :=
    (Keeps.fst (u.retireAll5_keeps l) h).power rfl
  obtain ⟨rfl, -⟩ | ⟨rfl, -⟩ := act_next h
  · dsimp only
    split
    · rfl
    split
    · rw [State.stageFailed_power, State.setFld_power, lost]
    split
    next end5 => rw [State.stageFailed_power, State.setFld_power, retired end5, lost]
    next end5 => rw [(State.stageDone_keeps _).power rfl, State.poolReady_frozen, retired end5, lost]
  · rfl

/-- A command that may change INS_FAST begins no freeze. -/
theorem exec_thawed {c : Instr} {s t : State} (fast : c.regs.elem .INS_FAST = true) (thawed : s.power.frozen = false)
    (h : exec c s = .next t) : t.power.frozen = false := by
  by_cases clocks : c.needsClocks = false
  case pos =>
    by_cases trip : c = .hardwareTrip
    · subst trip
      obtain rfl := Host.Outcome.next.inj h
      split
      · rfl
      · exact thawed
    · obtain same | ⟨off, -⟩ := exec_freezeStep clocks (fun begins => by subst begins; cases fast) trip h
      · exact same.trans thawed
      · exact off
  case neg =>
    by_cases power : c.parts.elem .power = false
    · rw [exec_keeps_power h power, thawed]
    have both : (c.regs.elem .INS_FAST && c.parts.elem .power && c.needsClocks) = true := by
      rw [fast, Bool.eq_true_of_not_eq_false power, Bool.eq_true_of_not_eq_false clocks]
      rfl
    cases c
    case contextResetRelease ctx =>
      change execContextResetRelease ctx s = _ at h
      obtain ⟨rfl, -⟩ | ⟨rfl, -⟩ := act_next h
      · split
        · split
          · exact State.tryLow_thawed (by rw [(State.releaseCtx_keeps ..).power rfl, thawed])
          · exact thawed
        · exact thawed
      · exact thawed
    case resetWarm r =>
      change execResetWarm r s = _ at h
      obtain ⟨rfl, -⟩ | ⟨rfl, -⟩ := act_next h
      · rfl
      · exact thawed
    case powerSleep r mask =>
      change execPowerSleep r mask s = _ at h
      obtain ⟨rfl, -⟩ | ⟨rfl, -⟩ := act_next h
      · exact State.goLow_thawed thawed ..
      · exact thawed
    case powerDeep r mask =>
      change execPowerDeep r mask s = _ at h
      obtain ⟨rfl, -⟩ | ⟨rfl, -⟩ := act_next h
      · exact State.goLow_thawed thawed ..
      · exact thawed
    case spareTakeover =>
      change execSpareTakeover s = _ at h
      obtain ⟨ran, -⟩ | ⟨idle, -⟩ := act_next h
      · rw [ran, (State.showSpares_keeps _).power rfl, State.foldl_takeover_frozen, thawed]
      · rw [idle, thawed]
    case stage5Done busOk stack frames =>
      change execStage5Done busOk stack frames s = _ at h
      exact (execStage5Done_frozen h).trans thawed
    all_goals cases both

/-- Settles O57: while the clocks stand only `exec_freezeStep` and the trip can act on a freeze, and of the commands that reach INS_FAST
none begins one (`exec_thawed`). -/
theorem aFreezeEndsOnlyByResetOrTrip : Obligations.aFreezeEndsOnlyByResetOrTrip := by
  unfold Obligations.aFreezeEndsOnlyByResetOrTrip
  refine ⟨?ends, ?release, ?warm, ?por, ?trip, ?clean⟩
  case ends =>
    intro c s t canonical frozen stepped thawed
    have stands {u : State} (h : u = s) (off : u.power.frozen = false) : False := by
      rw [h, frozen] at off
      cases off
    suffices t.FreezeLost from this
    have stopped : s.running = false := by simp [State.running, frozen]
    cases clocks : c.needsClocks
    case true =>
      rw [exec_needsClocks clocks stopped] at stepped
      exact (stands (Host.Outcome.next.inj stepped).symm thawed).elim
    by_cases begins : c = .freezeDelayEnd
    · subst begins
      obtain rfl := Host.Outcome.next.inj stepped
      refine (stands ?_ thawed).elim
      have unfreezable : s.freezable = false := by simp [State.freezable, frozen]
      split
      · rw [if_neg (by simp [unfreezable])]
      · rfl
    by_cases trip : c = .hardwareTrip
    · subst trip
      obtain rfl := Host.Outcome.next.inj stepped
      split at thawed
      next live => exact (if_pos live).symm ▸ (State.trip_freezeLost canonical).2
      · exact (stands rfl thawed).elim
    obtain same | ⟨-, lost⟩ := exec_freezeStep clocks begins trip stepped
    · rw [same, frozen] at thawed
      cases thawed
    · exact lost
  case release =>
    intro owner s frozen reached awake
    refine ⟨((s.warmNow 3).emit (.access owner.val ST_OK 0)), ?_, rfl, rfl, rfl⟩
    show chrAccess owner.val s State.chrRelease = _
    have released : s.chrRelease = (s.warmNow 3, ST_OK) := by simp [State.chrRelease, State.chrWrite, awake, frozen]
    simp [chrAccess, reached, released]
  case warm =>
    intro s _ powered unheld
    refine ⟨s.warmNow 2, ?_, rfl, rfl, rfl⟩
    show execWarmAssert s = _
    simp [execWarmAssert, powered, unheld]
  case por =>
    intro s _ powered unheld
    refine ⟨s.porNow { porPower s.power 1 with lowSeen := true, rstLow := true }, ?_, rfl, rfl, rfl⟩
    show execPorAssert false s = _
    simp [execPorAssert, powered, unheld]
  case trip =>
    intro s t _ stepped moved
    obtain rfl := Host.Outcome.next.inj stepped
    split at moved
    next live => exact (if_pos live).symm ▸ ⟨rfl, rfl⟩
    · exact absurd rfl moved
  case clean =>
    intro c s t thawed stepped frozen
    by_cases fast : c.regs.elem .INS_FAST = true
    · rw [exec_thawed fast thawed stepped] at frozen
      cases frozen
    · exact (exec_keeps stepped).fld F.INS_FAST_CLEAN 0 (maskOf_reg_clear (fun named => fast (List.elem_eq_true_of_mem named)) c.parts)

end Sys2Proof.Machine
end

section
/-! Resets, clocks and EXTEST; freeze and read-out (R349 to R353, R387 to R399). -/

namespace Sys2Proof.Machine

/-- Settles O31: each event of supply, clocks and reset takes the branch its hypotheses name. -/
theorem resetAndClockEventsComplete : Obligations.resetAndClockEventsComplete := by
  refine ⟨?powerUp, ?por, ?release, ?warm, ?warmRelease, ?vin, ?sysclkLoss, ?sysclkReturn, ?extest, ?refLoss, ?refReturn⟩
  case powerUp =>
    intro s off
    show execPorAssert true s = _
    simp only [execPorAssert, off, if_true, Bool.false_eq_true, if_false]
  case por =>
    intro s on unheld
    show execPorAssert false s = _
    simp only [execPorAssert, on, unheld, Bool.false_eq_true, Bool.true_eq_false, if_false]
  case release =>
    intro s x low
    show execResetRelease true x s = _
    simp only [execResetRelease, low, Bool.true_eq_false, if_false, Bool.true_or, Bool.and_true]
  case warm =>
    intro s on unheld
    show execWarmAssert s = _
    simp only [execWarmAssert, on, unheld, Bool.false_eq_true, Bool.true_eq_false, or_self, if_false]
  case warmRelease =>
    intro s busOk x on unheld held
    show execWarmRelease busOk x s = _
    simp only [execWarmRelease, on, unheld, held, Bool.false_eq_true, Bool.true_eq_false, or_self, if_false, if_true]
  case vin =>
    intro s on
    show execVinLoss s = _
    rw [execVinLoss, if_pos on]
  case sysclkLoss =>
    intro s on
    show execSysclkLoss s = _
    rw [execSysclkLoss, if_pos on]
  case sysclkReturn => exact fun _ _ => rfl
  case extest =>
    intro s x on
    have ran (hold : Bool) : exec (.debugExtest hold x) s = execDebugExtest hold x s := rfl
    have powered : ¬s.power.aonOn = false := by simp [on]
    exact ⟨by rw [ran, execDebugExtest, if_neg powered, if_pos rfl],
      by rw [ran, execDebugExtest, if_neg powered, if_neg Bool.false_ne_true]⟩
  case refLoss =>
    rintro s _ k other rfl runs
    have noAntenna : (k == 0) = false := beq_eq_false_iff_ne.mpr other
    show execSrefclkLoss k s = _
    simp only [execSrefclkLoss, runs, noAntenna, Bool.and_false, Bool.false_eq_true, if_false, if_true]
  case refReturn => exact fun _ _ => rfl

/-- An access to CHR_CTL that reaches the part has its effect and is answered. -/
theorem chrAccess_reaches {s : State} {owner : Nat} (h : s.reaches owner = true) (f : State → State × Nat) :
    chrAccess owner s f = .next ((f s).1.emit (.access owner (f s).2 0)) := by
  rw [chrAccess, if_neg (fun unreached => Bool.noConfusion (unreached.symm.trans h))]

/-- Outside SLEEP and DEEP a write of CHR_CTL has its effect. -/
theorem State.chrWrite_awake {s : State} (h : s.asleep = false) (f : State → State × Nat) : s.chrWrite f = f s :=
  if_neg (fun asleep => Bool.noConfusion (h.symm.trans asleep))

/-- Settles O33: a trigger, the engine and each form of CHR_CTL do what R387 to R393 say of them. -/
theorem chrysalisCommandsComplete : Obligations.chrysalisCommandsComplete := by
  refine ⟨?pin, ?command, ?arm, ?delay, ?start, ?half, ?hang, ?next, ?release⟩
  case pin =>
    intro s can
    show execFreezePin s = _
    rw [execFreezePin, if_pos can]
  case command =>
    intro s r hr
    show execChrFreeze r s = _
    rw [execChrFreeze, act_running hr]
  case arm =>
    intro s r flags cmpMask source code severity delay hr hf hd
    have ran : exec (.chrArm r flags cmpMask source code severity delay) s = execChrArm r flags cmpMask source code severity delay s := rfl
    rw [ran, execChrArm, act_running hr, if_neg (by omega)]
    exact ⟨_, rfl, rfl, rfl⟩
  case delay =>
    intro s t can trig due
    show execFreezeDelayEnd s = _
    simp only [execFreezeDelayEnd, trig]
    rw [if_pos ⟨can, due⟩]
  case start =>
    intro s owner reached awake frozen
    show execChrStart owner s = _
    rw [execChrStart, chrAccess_reaches reached, State.chrStart, State.chrWrite_awake awake, if_pos frozen]
  case half =>
    intro s half sec frozen reading free more
    show execReadoutHalfReady half [sec] false s = _
    simp only [execReadoutHalfReady, frozen, reading, free, more, and_self, if_true, Bool.false_eq_true, if_false, false_and,
      List.foldl_cons, List.foldl_nil]
  case hang =>
    intro s sec frozen reading more kind
    show execReadoutHang sec s = _
    rw [execReadoutHang, if_pos ⟨frozen, reading, more, kind⟩]
  case next =>
    intro s owner half reached awake
    show execChrNext owner half s = _
    rw [execChrNext, chrAccess_reaches reached, State.chrNext, State.chrWrite_awake awake]
  case release =>
    intro s owner reached awake frozen
    show execChrRelease owner s = _
    rw [execChrRelease, chrAccess_reaches reached, State.chrRelease, State.chrWrite_awake awake, if_pos frozen]

end Sys2Proof.Machine
end

section
/-! Escalation limits, compute resets and role resets (R353 to R355, R360). -/

namespace Sys2Proof.Machine

/-! ### Several fields of one register -/

/-- Two fields that share no bit of a word. -/
def Fld.apart (f g : Fld) : Bool := decide (f.lo + f.width ≤ g.lo) || decide (g.lo + g.width ≤ f.lo)

/-- Fields written one after the other. -/
def State.putFields (s : State) (l : List (Fld × Nat)) : State := l.foldl (fun t x => t.setFld x.1 0 x.2) s

/-- A field apart from each one written reads as before. -/
theorem State.putFields_fld_apart (g : Fld) (fits : g.lo + g.width ≤ 64) (l : List (Fld × Nat)) (s : State)
    (wf : Store.wf regDefault s.regs = true) (h : ∀ f ∈ l.map (·.1), f.apart g = true) : (s.putFields l).fld g = s.fld g := by
  induction l generalizing s with
  | nil => rfl
  | cons x l ih =>
    have apart : x.1.lo + x.1.width ≤ g.lo ∨ g.lo + g.width ≤ x.1.lo := by
      simpa [Fld.apart] using h x.1 List.mem_cons_self
    calc ((s.setFld x.1 0 x.2).putFields l).fld g = (s.setFld x.1 0 x.2).fld g :=
          ih _ (wf_setFld _ _ _ wf) fun f hf => h f (List.mem_cons_of_mem _ hf)
      _ = s.fld g := fld_setFld_apart s x.1 g 0 0 x.2 wf fits apart

/-- Of fields that share no bit each reads the value written to it. -/
theorem State.putFields_fld_mem {g : Fld} {v : Nat} (fits : g.lo + g.width ≤ 64) (small : v < 2 ^ g.width) (l : List (Fld × Nat))
    (s : State) (wf : Store.wf regDefault s.regs = true) (h : (l.map (·.1)).Pairwise fun f g => g.apart f = true ∧ f.apart g = true)
    (mem : (g, v) ∈ l) : (s.putFields l).fld g = v := by
  induction l generalizing s with
  | nil => cases mem
  | cons x l ih =>
    rw [List.map_cons, List.pairwise_cons] at h
    obtain ⟨first, others⟩ := h
    obtain rfl | mem := List.mem_cons.mp mem
    · calc ((s.setFld g 0 v).putFields l).fld g = (s.setFld g 0 v).fld g :=
            State.putFields_fld_apart g fits l _ (wf_setFld _ _ _ wf) fun f hf => (first f hf).1
        _ = v := (fld_setFld_same s g 0 v wf fits).trans (Nat.mod_eq_of_lt small)
    · exact ih _ (wf_setFld _ _ _ wf) others mem

/-- The other registers read as before. -/
theorem State.putFields_reg (q : RegName) (j : Nat) (l : List (Fld × Nat)) (s : State) (h : ∀ f ∈ l.map (·.1), q ≠ f.reg) :
    (s.putFields l).reg q j = s.reg q j := by
  induction l generalizing s with
  | nil => rfl
  | cons x l ih =>
    exact (ih _ fun f hf => h f (List.mem_cons_of_mem _ hf)).trans (reg_setFld_other s x.1 q 0 j x.2 (.inl (h x.1 List.mem_cons_self)))

/-- Nothing but the registers changes. -/
theorem State.putFields_eq (l : List (Fld × Nat)) (s : State) : s.putFields l = { s with regs := (s.putFields l).regs } := by
  induction l generalizing s with
  | nil => rfl
  | cons x l ih => exact ih (s.setFld x.1 0 x.2)

/-- The result of a command changes firmware's records alone. -/
theorem State.finishFw_eq (s : State) (r : FwRef) (code value : Nat) (block : List Byte) :
    s.finishFw r code value block
      = { s with fw := (s.finishFw r code value block).fw, twin := (s.finishFw r code value block).twin } := rfl

theorem State.finishFw_last (s : State) (r : FwRef) (code value : Nat) (block : List Byte) :
    (s.finishFw r code value block).fw.last = some ⟨r, code, value, block⟩ := rfl

/-! ### ESCALATION (R360) -/

/-- The six limits in the order in which they are written. -/
def escValues (a b c d e f : Nat) : List (Fld × Nat) :=
  [(F.RST_ESC_LIMITS_CTX_RESETS, a), (F.RST_ESC_LIMITS_CTX_WINDOW, b), (F.RST_ESC_LIMITS_CHIP_RESETS, c),
    (F.RST_ESC_LIMITS_CHIP_WINDOW, d), (F.RST_ESC_LIMITS_COMPUTE_RESETS, e), (F.RST_ESC_LIMITS_COMPUTE_WINDOW, f)]

/-- Values within their bounds are written. -/
theorem exec_escalation_sets {s : State} (r : FwRef) {a b c d e f : Fin 65536} (hr : s.running = true)
    (ha : 2 ≤ a.val ∧ a.val ≤ 64) (hb : 1 ≤ b.val ∧ b.val ≤ 600) (hc : 4 ≤ c.val ∧ c.val ≤ 256) (hd : 10 ≤ d.val ∧ d.val ≤ 3600)
    (he : 2 ≤ e.val ∧ e.val ≤ 16) (hf : 60 ≤ f.val) :
    exec (.escalation r a b c d e f) s
      = .next ((s.putFields (escValues a.val b.val c.val d.val e.val f.val)).finishFw r ACK_OK 0) := by
  have ran : exec (.escalation r a b c d e f) s = execEscalation r a b c d e f s := rfl
  rw [ran, execEscalation, act_running hr, if_pos (by simp [ha, hb, hc, hd, he, hf])]
  rfl

/-- A value outside its bounds refuses them all. -/
theorem exec_escalation_refuses {s : State} (r : FwRef) {a b c d e f : Fin 65536} (hr : s.running = true)
    (h : ¬((2 ≤ a.val ∧ a.val ≤ 64) ∧ (1 ≤ b.val ∧ b.val ≤ 600) ∧ (4 ≤ c.val ∧ c.val ≤ 256) ∧ (10 ≤ d.val ∧ d.val ≤ 3600)
      ∧ (2 ≤ e.val ∧ e.val ≤ 16) ∧ 60 ≤ f.val)) :
    exec (.escalation r a b c d e f) s = .next (s.finishFw r ACK_BAD_ARGUMENT 0) := by
  have ran : exec (.escalation r a b c d e f) s = execEscalation r a b c d e f s := rfl
  rw [ran, execEscalation, act_running hr, if_neg (fun within => h ?_)]
  simpa [and_assoc] using within

/-- Each limit then reads its value: the six fields share no bit, and each is wide enough for its bound of Table 18.4. -/
theorem State.putFields_escValues {s : State} (wf : Store.wf regDefault s.regs = true) {a b c d e f : Nat} (ha : a ≤ 64) (hb : b ≤ 600)
    (hc : c ≤ 256) (hd : d ≤ 3600) (he : e ≤ 16) (hf : f < 65536) {g : Fld} {v : Nat} (mem : (g, v) ∈ escValues a b c d e f) :
    (s.putFields (escValues a b c d e f)).fld g = v := by
  have apart : ((escValues a b c d e f).map (·.1)).Pairwise fun f g => g.apart f = true ∧ f.apart g = true := by
    show List.Pairwise _ ((escValues 0 0 0 0 0 0).map (·.1))
    decide
  have fits : g.lo + g.width ≤ 64 ∧ v < 2 ^ g.width := by
    simp only [escValues, List.mem_cons, Prod.mk.injEq, List.not_mem_nil, or_false] at mem
    rcases mem with ⟨rfl, rfl⟩ | ⟨rfl, rfl⟩ | ⟨rfl, rfl⟩ | ⟨rfl, rfl⟩ | ⟨rfl, rfl⟩ | ⟨rfl, rfl⟩
    · exact ⟨by decide, Nat.lt_of_le_of_lt ha (by decide)⟩
    · exact ⟨by decide, Nat.lt_of_le_of_lt hb (by decide)⟩
    · exact ⟨by decide, Nat.lt_of_le_of_lt hc (by decide)⟩
    · exact ⟨by decide, Nat.lt_of_le_of_lt hd (by decide)⟩
    · exact ⟨by decide, Nat.lt_of_le_of_lt he (by decide)⟩
    · exact ⟨by decide, Nat.lt_of_lt_of_le hf (by decide)⟩
  exact State.putFields_fld_mem fits.1 fits.2 _ s wf apart mem

/-- Settles O40: within the bounds all six fields are written, else none; the defaults follow from the POR value. -/
theorem escalationSetsAllLimitsOrNone : Obligations.escalationSetsAllLimitsOrNone := by
  refine ⟨?sets, ?refuses, ?defaults⟩
  case sets =>
    intro s r a b c d e f hr wf ha hb hc hd he hf
    obtain ⟨wfRegs, -⟩ := wf
    refine ⟨_, exec_escalation_sets r hr ha hb hc hd he hf.1, State.finishFw_last .., ?_, ?_, ?_, ?_, ?_, ?_, ?others, ?same⟩
    case same =>
      rw [State.finishFw_eq, State.putFields_eq]
    case others =>
      intro x i other
      rw [State.finishFw_reg]
      refine State.putFields_reg x i _ s fun f mem => ?_
      simp only [escValues, List.map_cons, List.map_nil, List.mem_cons, List.not_mem_nil, or_false] at mem
      obtain rfl | rfl | rfl | rfl | rfl | rfl := mem <;> exact other
    all_goals
      rw [State.finishFw_fld]
      exact State.putFields_escValues wfRegs ha.2 hb.2 hc.2 hd.2 he.2 f.isLt (by simp [escValues])
  case refuses =>
    intro s r a b c d e f hr h
    refine ⟨_, exec_escalation_refuses r hr fun ⟨ha, hb, hc, hd, he, hf⟩ => h ⟨ha, hb, hc, hd, he, hf, ?_⟩, State.finishFw_last .., State.finishFw_eq ..⟩
    omega
  case defaults =>
    obtain ⟨-, -, -, -, -, -, -, limits⟩ := resetIsThePartInPor
    obtain ⟨ctxResets, ctxWindow, chipResets, chipWindow, computeResets, computeWindow, -⟩ := limits
    exact ⟨ctxResets, ctxWindow, chipResets, chipWindow, computeResets, computeWindow⟩

/-- Settles O22: a compute reset waits for its boundary and then takes it; a WARM and a role reset take effect at once. -/
theorem warmComputeAndRoleResetsComplete : Obligations.warmComputeAndRoleResetsComplete := by
  refine ⟨?compute, ?boundary, ?ready, ?warm, ?role, ?watchdog, ?escalation⟩
  case compute =>
    intro s r hr based none
    have ran : exec (.resetCompute r) s = execResetCompute r s := rfl
    rw [ran, execResetCompute, act_running hr]
    simp only [based, none, Option.getD_none, if_true]
  case boundary =>
    intro s b hr waits due
    show execComputeResetBoundary s = _
    rw [execComputeResetBoundary, act_running hr]
    simp only [waits, due, if_true]
  case ready =>
    intro s b hr waits due
    show execComputeResetReady s = _
    rw [execComputeResetReady, act_running hr]
    simp only [waits, due, if_true]
  case warm =>
    intro s r hr
    show execResetWarm r s = _
    rw [execResetWarm, act_running hr]
  case role =>
    intro s r hr chip
    show execResetRole r s = _
    rw [execResetRole, act_running hr, if_pos chip]
  case watchdog =>
    intro s hr chip
    show execManagerWatchdog s = _
    rw [execManagerWatchdog, act_running hr, if_pos chip]
  case escalation =>
    intro s r a b c d e f hr wf ha ha' hb hb' hc hc' hd hd' he he' hf
    obtain ⟨wfRegs, -⟩ := wf
    refine ⟨s.putFields (escValues a.val b.val c.val d.val e.val f.val),
      exec_escalation_sets r hr ⟨ha, ha'⟩ ⟨hb, hb'⟩ ⟨hc, hc'⟩ ⟨hd, hd'⟩ ⟨he, he'⟩ hf, ?_, ?_, ?_, ?_, ?_, ?_, rfl, rfl⟩
    all_goals
      exact State.putFields_escValues wfRegs ha' hb' hc' hd' he' f.isLt (by simp [escValues])

end Sys2Proof.Machine
end

section
/-! The stages of start-up (R340, R342 to R348). -/

namespace Sys2Proof.Machine

/-- A GO write that R340 admits stores the RW fields and starts the stage. -/
theorem accessBy_goWrite {s : State} {owner : Owner} {value : Word} (runs : s.accessRuns owner.val) (go : getBits value 0 1 = 1) {n : Nat}
    (stage : getBits value 1 3 = n) {ok : State → Bool} (admitted : ok s = true)
    (f : State → State) :
    accessBy owner.val s (fun s => s.goWrite value n (ok s) f)
      = .next ((f (s.storeInsCtl value)).emit (.access owner.val ST_OK 0)) := by
  have started : s.goWrite value n (ok s) f = (f (s.storeInsCtl value), ST_OK, 0) := by
    rw [State.goWrite, if_neg (by omega), if_pos ⟨stage, admitted⟩]
  rw [accessBy_runs runs, started]

/-- A running stage is not idle. -/
theorem State.stageRuns_ne {s : State} {n : Nat} (h : s.stageRuns n = true) : ¬s.stageRuns n = false :=
  fun idle => Bool.noConfusion (h.symm.trans idle)

/-- Settles O32: each stage's end takes the branch its hypotheses name, and each GO the stage it names (`accessBy_goWrite`). -/
theorem instarStagesComplete : Obligations.instarStagesComplete := by
  refine ⟨?stage1, ?stage2, ?go, ?stage3, ?stage4, ?stage5, ?stage6, ?stage7, ?imago, ?timeout⟩
  case stage1 =>
    intro s deviceId hr runs
    have ran : exec (.stage1Done true true deviceId []) s = execStage1Done true true deviceId [] s := rfl
    rw [ran, execStage1Done, act_running hr, if_neg (State.stageRuns_ne runs), if_neg Bool.noConfusion]
    dsimp only
    rw [if_neg Bool.noConfusion, if_neg (by simp)]
    refine ⟨_, rfl, ?_, ?_⟩
    · rw [(State.loadCocoon_keeps ..).out rfl, State.setFld_out, apply_ite State.out, ite_self]
      rfl
    · rw [(State.loadCocoon_keeps ..).mem rfl, State.setFld_mem, apply_ite State.mem, ite_self]
      rfl
  case stage2 =>
    intro s rows hr runs cold fits
    have ran : exec (.stage2Done true rows) s = execStage2Done true rows s := rfl
    rw [ran, execStage2Done, act_running hr, if_neg (State.stageRuns_ne runs), if_neg Bool.noConfusion, cold]
    dsimp only
    rw [if_neg Bool.false_ne_true, if_neg (by omega)]
    refine ⟨_, rfl, ?_, rfl, ?_⟩
    · simp only [(State.measureBoot_keeps ..).spares rfl, State.setFld_spares]
    · simp only [(State.measureBoot_keeps ..).mem rfl, State.setFld_mem]
  case go =>
    intro s owner value access go
    refine ⟨fun stage ok => ?_, fun stage ok => ?_, fun stage ok => ?_, fun stage ok => ?_, fun stage role ok => ?_,
      fun stage time runs closed => ?_⟩
    · have ran : exec (.insGoFirmware owner value) s = execInsGoFirmware owner value s := rfl
      rw [ran, execInsGoFirmware]
      exact accessBy_goWrite access go stage (ok := fun s => s.goOk 3) ok State.goFirmware
    · have ran : exec (.insGoStartTest owner value) s = execInsGoStartTest owner value s := rfl
      rw [ran, execInsGoStartTest]
      exact accessBy_goWrite access go stage (ok := fun s => s.goOk 4) ok State.goStartTest
    · have ran : exec (.insGoHbm owner value) s = execInsGoHbm owner value s := rfl
      rw [ran, execInsGoHbm]
      exact accessBy_goWrite access go stage (ok := fun s => s.goOk 5) ok State.goHbm
    · have ran : exec (.insGoPorts owner value) s = execInsGoPorts owner value s := rfl
      rw [ran, execInsGoPorts]
      exact accessBy_goWrite access go stage (ok := fun s => s.goOk 6) ok State.goPorts
    · have ran : exec (.insGoRole owner value) s = execInsGoRole owner value s := rfl
      rw [ran, execInsGoRole]
      exact accessBy_goWrite access go stage (ok := fun s => s.goOk 7 && getBits value 7 1 == 0) (by simp [ok, role]) State.goRole
    · have ran : exec (.insGoTime owner value) s = execInsGoTime owner value s := rfl
      rw [ran, execInsGoTime]
      exact accessBy_goWrite access go stage (ok := fun s => s.stageRuns 7 && !s.ins.timeOpen && getBits value 7 1 == 1)
        (by simp [runs, closed, time]) State.goTime
  case stage3 =>
    intro s build b digest hr runs image
    have ran : exec (.stage3Done 0 build) s = execStage3Done 0 build s := rfl
    rw [ran, execStage3Done, act_running hr, if_neg (State.stageRuns_ne runs)]
    simp only [image]
    rfl
  case stage4 =>
    intro s u t hr runs tested
    have ran : exec (.stage4Done t) s = execStage4Done t s := rfl
    rw [ran, execStage4Done, act_running hr, if_neg (State.stageRuns_ne runs), tested]
    exact ⟨_, rfl, rfl⟩
  case stage5 =>
    intro s hr runs held
    have ran : exec (.stage5Done true none []) s = execStage5Done true none [] s := rfl
    rw [ran, execStage5Done, act_running hr, if_neg (State.stageRuns_ne runs), held]
    rfl
  case stage6 =>
    intro s hr runs due
    show execStage6End s = _
    rw [execStage6End, act_running hr, if_pos ⟨runs, .inr due⟩]
  case stage7 =>
    intro s hr runs isOpen time based
    show execStage7Done s = _
    rw [execStage7Done, act_running hr, if_pos ⟨runs, isOpen, time, based⟩]
  case imago =>
    intro s hr runs passes
    have ran : exec (.imagoCheck true) s = execImagoCheck true s := rfl
    rw [ran, execImagoCheck, act_running hr, if_neg (State.stageRuns_ne runs), passes]
  case timeout =>
    intro s ms hr limit runs due other
    show execInstarStageTimeout s = _
    rw [execInstarStageTimeout, act_running hr, limit]
    dsimp only
    rw [if_pos ⟨runs, due⟩, if_neg other]

end Sys2Proof.Machine
end

section
/-! Failed units and spares, power states, comparators and forward-only operation (R361 to R379, R414). -/

namespace Sys2Proof.Machine

/-- Settles O29: each command takes the branch its hypotheses name; the reports have the sizes of Table 16.12. -/
theorem sparesComplete : Obligations.sparesComplete := by
  refine ⟨?failed, ?takeover, ?commit, ?stack, ?quarter, ?read, ?status⟩
  case failed =>
    intro s kind wing logical cause row hr can notCore notRow
    have ran : exec (.unitFailed kind wing logical cause row) s = execUnitFailed kind wing logical cause row s := rfl
    rw [ran, execUnitFailed, act_running hr, if_neg (fun cannot => Bool.noConfusion (can.symm.trans cannot))]
    simp only [notCore, notRow, if_false]
    exact ⟨_, rfl, rfl, rfl⟩
  case takeover =>
    intro s hr unbased
    show execSpareTakeover s = _
    rw [execSpareTakeover, act_running hr]
    simp only [unbased, Bool.not_false, Bool.true_or, Bool.not_true, List.filter_true, List.filter_false]
  case commit =>
    rintro s _ k w cause unit rest hr pending rfl
    show execDefectCommit s = _
    rw [execDefectCommit, act_running hr]
    simp only [pending]
  case stack =>
    intro s wing hr
    show execEssentialUnitFail 7 wing s = _
    rw [execEssentialUnitFail, act_running hr, if_neg (by decide), if_pos (by decide)]
  case quarter =>
    intro s wing hr imago
    show execEssentialUnitFail 0x0A wing s = _
    rw [execEssentialUnitFail, act_running hr, if_pos (by decide), if_pos imago]
  case read =>
    intro s r first hr within
    have ran : exec (.defectRead r first) s = execDefectRead r first s := rfl
    rw [ran, execDefectRead, act_running hr, if_neg (Nat.not_lt.mpr within)]
  case status =>
    intro s r hr
    have spareRan : exec (.spareStatus r) s = execSpareStatus r s := rfl
    have wingRan : exec (.wingStatus r) s = execWingStatus r s := rfl
    rw [spareRan, wingRan, execSpareStatus, execWingStatus, act_running hr, act_running hr]
    refine ⟨⟨_, rfl, ?_⟩, ⟨_, rfl, ?_⟩⟩
    · have wings : ((List.range 4).flatMap fun w => leBytes 1 (s.freeUnits 1 w).length ++ leBytes 1 (s.freeUnits 2 w).length
          ++ leBytes 1 (s.freeUnits 5 w).length ++ leBytes 1 (s.freeUnits 6 w).length ++ leBytes 2 (s.rowsFree w)
          ++ leBytes 2 (s.lsMin w)).length = 32 := by
        rw [length_flatMap_pieces (b := 8) (fun w => by simp only [List.length_append, length_leBytes]), List.length_range]
      have reserves : ((List.range 24).flatMap fun k => leBytes 2 (512 - Store.get (fun _ => 0) s.pool.reserve k)).length = 48 := by
        rw [length_flatMap_pieces (fun _ => length_leBytes 2 _), List.length_range]
      simp only [List.length_append, wings, reserves, List.length_replicate, length_leBytes]
    · simp only [List.length_append, List.length_replicate, length_leBytes]

/-- Settles O30: each power command, comparator event and forward-only step takes the branch its hypotheses name. -/
theorem powerCommandsComplete : Obligations.powerCommandsComplete := by
  refine ⟨?active, ?low, ?fire, ?clear, ?trip, ?enter, ?contexts, ?halt, ?leave, ?measure, ?limit, ?watchdog⟩
  case active =>
    intro s r mask hr
    have activeRan : exec (.powerActive r mask) s = execPowerActive r mask s := rfl
    have dozeRan : exec (.powerDoze r mask) s = execPowerDoze r mask s := rfl
    rw [activeRan, dozeRan, execPowerActive, execPowerDoze, act_running hr, act_running hr]
    exact ⟨rfl, rfl⟩
  case low =>
    rintro s _ r mask hr noContext noManager rfl
    have sleepRan : exec (.powerSleep r mask) s = execPowerSleep r mask s := rfl
    have deepRan : exec (.powerDeep r mask) s = execPowerDeep r mask s := rfl
    have goes (code : Nat) : s.goLow r mask.val code
        = ({ s.wakeMask mask.val with power := { (s.wakeMask mask.val).power with sleepWant := some (code, r) } }).tryLow :=
      if_neg (by simp [noContext, noManager])
    rw [sleepRan, deepRan, execPowerSleep, execPowerDeep, act_running hr, act_running hr, goes, goes]
    exact ⟨rfl, rfl⟩
  case fire =>
    rintro s _ n live enabled idle true' rfl
    show execComparatorFire n s = _
    rw [execComparatorFire]
    dsimp only
    rw [if_pos ⟨live, enabled, idle, true'⟩]
  case clear =>
    intro s n live upper on
    show execComparatorClear n s = _
    rw [execComparatorClear]
    dsimp only
    rw [if_pos ⟨live, upper, on⟩]
  case trip =>
    intro s live
    show execHardwareTrip s = _
    rw [execHardwareTrip, if_pos live]
  case enter =>
    intro s r hr imago
    show execForwardOnlyEnter r s = _
    rw [execForwardOnlyEnter, act_running hr, if_pos imago]
  case contexts =>
    intro s n hr entered first due unbound
    have ran : exec .fwdOnlyContextReset s = execFwdOnlyContextReset s := rfl
    rw [ran, execFwdOnlyContextReset, act_running hr]
    simp only [entered, first, due, unbound, and_self, if_true, List.foldl_nil]
    exact ⟨_, rfl, rfl⟩
  case halt =>
    rintro s _ n hr entered reset due rfl agent
    show execFwdOnlyHalt s = _
    rw [execFwdOnlyHalt, act_running hr]
    simp only [entered]
    rw [if_pos ⟨reset, due⟩, if_neg (fun manager => Bool.noConfusion (agent.symm.trans manager))]
  case leave =>
    intro s r hr forwardOnly gone
    have all : ((List.range 7).all fun b => !(s.fld F.PWR_STATUS_FO_CAUSES).testBit b || s.causeGone b) = true := by
      rw [List.all_eq_true]
      intro b hb
      cases set : (s.fld F.PWR_STATUS_FO_CAUSES).testBit b
      · rfl
      · exact gone b (List.mem_range.mp hb) set
    have ran : exec (.forwardOnlyLeave r) s = execForwardOnlyLeave r s := rfl
    rw [ran, execForwardOnlyLeave, act_running hr, if_neg (fun off => Bool.noConfusion (forwardOnly.symm.trans off)), if_pos all]
  case measure =>
    intro s watts vin temp hr within
    have ran : exec (.powerMeasure watts vin temp) s = execPowerMeasure watts vin temp s := rfl
    rw [ran, execPowerMeasure, if_neg (fun ⟨_, above⟩ => Nat.not_lt.mpr within above), act_running hr]
    exact ⟨_, rfl, rfl, rfl, rfl, rfl⟩
  case limit =>
    intro s t hr above due
    show execPowerLimit s = _
    rw [execPowerLimit, act_running hr]
    simp only [above, due, if_true]
  case watchdog =>
    intro s hr
    show execFirmwareWatchdogLimit true s = _
    rw [execFirmwareWatchdogLimit, act_running hr]
    simp only [true_or, if_true]

end Sys2Proof.Machine
end

section
/-! The Antenna ports and their frames (R308 to R325). -/

namespace Sys2Proof.Machine

/-- A request that the port takes, in form and within the 64 outstanding, is answered with its effect's status and data (R313). -/
theorem State.antRequest_takes {s u : State} {a : Nat} {f : AntFrame} (takes : s.antTakes a f) (hu : u = s.antTaken a f)
    (room : u.antOutstanding a < 64) (form : requestFormOk f = true) (eff : State → State × Nat × List Byte) :
    s.antRequest a true f eff = (eff u).1.antReply a f (eff u).2.1 (eff u).2.2 := by
  rw [State.antRequest, antReceive_takes takes, ← hu, if_neg (Nat.not_le.mpr room),
    if_neg (fun bad => Bool.noConfusion (form.symm.trans bad))]

/-- Settles O26: each event finds its port in the state named, and each request is taken (`antRequest_takes`). -/
theorem antennaCommandsComplete : Obligations.antennaCommandsComplete := by
  refine ⟨?signal, ?align, ?trainTimeout, ?loss, ?retrain, ?initSend, ?initReceive, ?ack, ?nak, ?replay, ?ackSend, ?hostTimeout,
    ?event, ?bell, ?read, ?write, ?mbx⟩
  case signal =>
    intro s port live down reference
    show execAntSignalDetect port s = _
    rw [execAntSignalDetect, actAnt_live live, if_pos ⟨down, reference⟩]
  case align =>
    intro s port live training
    show execAntFecAlign port s = _
    rw [execAntFecAlign, actAnt_live live, if_pos training]
  case trainTimeout =>
    intro s port live state late
    show execAntTrainTimeout port s = _
    rw [execAntTrainTimeout, actAnt_live live, if_pos ⟨state, late⟩]
  case loss =>
    intro s port lanes live lost up
    show execAntLoss port lanes s = _
    rw [execAntLoss, actAnt_live live, if_neg (not_or.mpr ⟨lost, up⟩)]
  case retrain =>
    intro s owner port access
    show execAntRetrain owner port s = _
    exact accessBy_runs access _ _
  case initSend =>
    intro s port live init
    have ran : exec (.antInitSend port) s = execAntInitSend port s := rfl
    rw [ran, execAntInitSend, actAnt_live live, if_pos init]
  case initReceive =>
    intro s port ack maxOut live init outs
    have ran : exec (.antInitReceive port true ack 1 1 maxOut) s = execAntInitReceive port true ack 1 1 maxOut s := rfl
    have valid : ((1 : Fin 256) == 1 && (1 : Fin 256) == 1 && decide (16 ≤ maxOut.val)) = true := by
      simp [outs]
    rw [ran, execAntInitReceive, actAnt_live live, valid]
    dsimp only
    rw [init]
    rfl
  case ack =>
    intro s port ack live up
    show execAntLinkAck port true ack s = _
    rw [execAntLinkAck, actAnt_live live, if_neg (not_not.mpr up), if_neg Bool.noConfusion]
  case nak =>
    intro s port ack live up
    show execAntLinkNak port true ack s = _
    rw [execAntLinkNak, actAnt_live live, if_neg (not_not.mpr up), if_neg Bool.noConfusion]
  case replay =>
    intro s port live up unacked late
    show execAntReplayTimeout port s = _
    rw [execAntReplayTimeout, actAnt_live live]
    exact congrArg Host.Outcome.next (if_pos ⟨up, unacked, late⟩)
  case ackSend =>
    intro s port live up owed
    show execAntLinkAckSend port s = _
    rw [execAntLinkAckSend, actAnt_live live, if_pos ⟨up, owed⟩]
  case hostTimeout =>
    intro s port hr up late
    show execHostTimeout port s = _
    rw [execHostTimeout, act_running hr, if_pos ⟨up, late⟩]
  case event =>
    intro s port e hr up enabled unacked waiting events
    show execEventFrameSend port s = _
    rw [execEventFrameSend, act_running hr]
    simp only [unacked, waiting, events, up, enabled, List.append_nil, List.flatMap_nil, List.contains_nil, Bool.not_false,
      List.filter_true, ne_eq, not_true_eq_false, Bool.true_eq_false, List.take_succ_cons, List.take_nil, List.cons_ne_self,
      or_self, if_false, List.flatMap_cons, List.map_cons, List.map_nil]
  case bell =>
    intro s port hr pending up
    show execDoorbellFrameSend port s = _
    rw [execDoorbellFrameSend, act_running hr, if_pos ⟨pending, up⟩]
  case read =>
    intro s u port bad f live takes hu room form empty
    have ran : exec (.antRead port true false bad f) s = execAntRead port true false bad f s := rfl
    rw [ran, execAntRead, actAnt_live live, State.antRequest_takes takes hu room form, if_neg (not_not.mpr empty),
      if_neg Bool.false_ne_true]
  case write =>
    intro s u port took f live takes hu room form whole
    have ran : exec (.antWrite port true false took f) s = execAntWrite port true false took f s := rfl
    rw [ran, execAntWrite, actAnt_live live, State.antRequest_takes takes hu room form, if_neg (not_not.mpr whole)]
    rfl
  case mbx =>
    intro s u port f live takes hu room form low len whole thawed
    have ran : exec (.antMbxSend port true f) s = execAntMbxSend port true f s := rfl
    rw [ran, execAntMbxSend, actAnt_live live, State.antRequest_takes takes hu room form, if_neg (by omega), thawed]
    rfl

end Sys2Proof.Machine
end

section
/-! Measurement, reports, keys and seals (R291 to R303). -/

namespace Sys2Proof.Machine

/-- A report begins with its body (R292). -/
theorem exec_attest_report {s : State} (r : FwRef) (slice : Slice) {nonce : List Byte} (hr : s.running = true)
    (len : nonce.length = 32) (left : s.flag F.SEC_STATUS_XMSS_EXHAUSTED = false)
    (index : s.fld F.SEC_XMSS_INDEX_NEXT_INDEX < 2 ^ 40) :
    ∃ (t : State) (sig : List Byte), exec (.attest r slice nonce) s = .next (t.finishFw r ACK_OK
      (s.fresh.2.reportBody slice.val nonce s.fresh.1 ++ sig).length (s.fresh.2.reportBody slice.val nonce s.fresh.1 ++ sig)) := by
  have ran : exec (.attest r slice nonce) s = execAttest r slice nonce s := rfl
  have usable : ¬(s.flag F.SEC_STATUS_XMSS_EXHAUSTED = true ∨ 2 ^ 40 ≤ s.fld F.SEC_XMSS_INDEX_NEXT_INDEX) :=
    not_or.mpr ⟨Bool.eq_false_iff.mp left, Nat.not_le.mpr index⟩
  rw [ran, execAttest, act_running hr, if_neg (not_not.mpr len), if_neg usable]
  dsimp only
  simp only [List.append_assoc]
  exact ⟨_, _, rfl⟩

/-- Settles O25: each command takes the branch its hypotheses name; a key delivery that unwraps writes KEYED and keeps the slice's key,
and the KEM key is destroyed either way. -/
theorem securityCommandsComplete : Obligations.securityCommandsComplete := by
  refine ⟨?measure, ?attest, ?chain, ?expire, ?deliver, ?sliceSeal, ?boundary, ?intervalEnd, ?setSend, ?setReceive, ?setTimeout⟩
  case measure =>
    intro s r first hr within
    have ran : exec (.measureRead r first) s = execMeasureRead r first s := rfl
    rw [ran, execMeasureRead, act_running hr, if_neg (Nat.not_lt.mpr within)]
  case attest =>
    intro s r slice nonce hr len left index
    obtain ⟨t, sig, ran⟩ := exec_attest_report r slice hr len left index
    exact ⟨t, _, ran, List.take_left' rfl⟩
  case chain =>
    intro s r hr
    have ran : exec (.certChain r) s = execCertChain r s := rfl
    rw [ran, execCertChain, act_running hr]
  case expire =>
    intro s slice hr
    have ran : exec (.kemKeyExpire slice) s = execKemKeyExpire slice s := rfl
    rw [ran, execKemKeyExpire, act_running hr]
  case deliver =>
    intro s r slice ct iv wrapped policy k hr wf hct hiv hwr members unsealed' unsealed isOpen state found
    obtain ⟨wfRegs, -⟩ := wf
    have ran : exec (.keyDeliver r slice ct iv wrapped policy) s = execKeyDeliver r slice ct iv wrapped policy s := rfl
    rw [ran, execKeyDeliver, act_running hr]
    dsimp only
    rw [if_neg (by omega)]
    simp only [members, unsealed', unsealed, isOpen, state, found]
    rw [if_neg (by simp)]
    refine ⟨_, rfl, fun fails => ?_, fun srk opens => ?_⟩
    · rw [fails]
    · simp only [opens, ne_eq, not_true_eq_false, Bool.false_eq_true, if_false]
      refine ⟨?_, ?_, _, List.mem_append_right _ (List.mem_singleton_self _), rfl, rfl, rfl⟩
      · rw [State.finishFw_fld]
        exact fld_setFld_same _ _ _ _ (wf_setFld _ _ _ (wf_setFld _ _ _ wfRegs)) (by decide)
      · intro kept
        obtain ⟨-, other⟩ := List.mem_filter.mp kept
        simp at other
  case sliceSeal =>
    intro s r slice reports x manages found unsealed unset normal running keyed links
    have links' : (reports.any fun q => !q.linksOk) = false := by
      rw [List.any_eq_false]
      intro q hq
      simp [links q hq]
    have ran : exec (.sliceSeal r slice true reports) s = execSliceSeal r slice true reports s := rfl
    refine ⟨s.fresh.1, _, rfl, ?_⟩
    rw [ran, execSliceSeal, act_running manages.1, mgrCommand_manages manages]
    simp only [found, unsealed, unset, normal, running, keyed, links']
    rfl
  case boundary =>
    intro s slice z hr sealAt reached keyed
    show execSealBoundary slice s = _
    rw [execSealBoundary, act_running hr]
    simp only [sealAt, reached, keyed, and_self, if_true]
  case intervalEnd =>
    intro s l hr up begun none
    have ran : exec (.sealIntervalEnd l) s = execSealIntervalEnd l s := rfl
    rw [ran, execSealIntervalEnd, act_running hr, if_neg (not_or.mpr ⟨not_not.mpr up, begun⟩)]
    simp [State.modSec, none]
  case setSend =>
    intro s l o hr found free
    have ran : exec (.sealSetSend l) s = execSealSetSend l s := rfl
    rw [ran, execSealSetSend, act_running hr]
    simp only [found, free, List.any_nil, Bool.false_eq_true, if_false]
    rfl
  case setReceive =>
    intro s l t r hr check up found passes full tag
    have ran : exec (.sealSetReceive l t) s = execSealSetReceive l t s := rfl
    rw [ran, execSealSetReceive, act_running hr]
    simp only [check, up, found, passes, full, tag, Bool.true_eq_false, Bool.false_eq_true, ne_eq, not_true_eq_false, or_self, if_false]
  case setTimeout =>
    intro s l r hr found
    show execSealSetTimeout l s = _
    rw [execSealSetTimeout, act_running hr]
    simp only [found]

end Sys2Proof.Machine
end

section
/-! The clear of the live log (R380 to R385). -/

namespace Sys2Proof.Machine

/-! ### One record into a log with room -/

/-- A ring with room takes a record at its end, and nothing moves to the overflow region. -/
theorem State.silPush_room {s : State} (room : s.sil.ring.length < 65536) (r : SilRec) :
    s.silPush r = { s with sil := { s.sil with ring := s.sil.ring ++ [r] } } := if_pos room

/-- A record of less than the highest severity, as the log takes it: in the ring where the accept rate and the severity filter let it
in, else nowhere; the overflow region stands. -/
theorem State.silStore_log {s : State} (room : s.sil.ring.length < 65536) (source code : Nat) {severity : Nat} (low : severity < 2)
    (slice : Nat) (ctx : Option Nat) (isSealed : Bool) (params : List Nat) :
    (s.silStore source code severity slice ctx isSealed params).sil.overflow = s.sil.overflow
    ∧ ((s.silStore source code severity slice ctx isSealed params).sil.ring = s.sil.ring
        ∧ (s.sil.rate.2 < 16 → severity < s.fld F.SIL_CFG_MIN_SEVERITY)
      ∨ ∃ x : SilRec, (s.silStore source code severity slice ctx isSealed params).sil.ring = s.sil.ring ++ [x]
        ∧ x.source = source ∧ x.code = code ∧ x.seq = s.fld F.SIL_STATUS_NEXT_SEQ ∧ x.params = params) := by
  have few : (if s.sil.rate.1 = s.ftu.toNat / 1600 then s.sil.rate.2 else 0) ≤ s.sil.rate.2 := by
    split
    · exact Nat.le_refl _
    · exact Nat.zero_le _
  unfold State.silStore
  dsimp only
  generalize (if s.sil.rate.1 = s.ftu.toNat / 1600 then s.sil.rate.2 else 0) = taken at few ⊢
  split
  case isTrue dropped => exact ⟨rfl, .inl ⟨rfl, fun calm => absurd (Nat.le_trans dropped.2 few) (Nat.not_le.mpr calm)⟩⟩
  split
  case isTrue filtered => exact ⟨rfl, .inl ⟨rfl, fun _ => filtered⟩⟩
  case isFalse =>
    rw [if_neg (Nat.ne_of_lt low), State.silPush_room (by exact room)]
    exact ⟨rfl, .inr ⟨_, rfl, rfl, rfl, rfl, rfl⟩⟩

/-- The oldest SEQ shown leaves the next one alone. -/
theorem State.silOldest_nextSeq {s : State} (wf : Store.wf regDefault s.regs = true) :
    s.silOldest.fld F.SIL_STATUS_NEXT_SEQ = s.fld F.SIL_STATUS_NEXT_SEQ :=
  fld_setFld_apart _ _ _ _ _ _ wf (by decide) (by decide)

/-- SEQ goes on with every record, taken or not. -/
theorem State.silStore_nextSeq {s : State} (wf : Store.wf regDefault s.regs = true) (room : s.sil.ring.length < 65536)
    (source code : Nat) {severity : Nat} (low : severity < 2) (slice : Nat) (ctx : Option Nat) (isSealed : Bool) (params : List Nat) :
    (s.silStore source code severity slice ctx isSealed params).fld F.SIL_STATUS_NEXT_SEQ
      = (s.fld F.SIL_STATUS_NEXT_SEQ + 1) % 2 ^ 32 := by
  have numbered : (s.setFld F.SIL_STATUS_NEXT_SEQ 0 (s.fld F.SIL_STATUS_NEXT_SEQ + 1)).fld F.SIL_STATUS_NEXT_SEQ
      = (s.fld F.SIL_STATUS_NEXT_SEQ + 1) % 2 ^ 32 := fld_setFld_same _ _ _ _ wf (by decide)
  unfold State.silStore
  dsimp only
  generalize (if s.sil.rate.1 = s.ftu.toNat / 1600 then s.sil.rate.2 else 0) = taken
  split
  · rw [State.bump, fld_setFld_other _ _ _ _ _ _ (.inl (by decide)), numbered]
  split
  · exact numbered
  · rw [if_neg (Nat.ne_of_lt low), State.silPush_room (by exact room)]
    have stored {u : State} (h : u.regs = (s.setFld F.SIL_STATUS_NEXT_SEQ 0 (s.fld F.SIL_STATUS_NEXT_SEQ + 1)).regs) :
        u.silOldest.fld F.SIL_STATUS_NEXT_SEQ = (s.fld F.SIL_STATUS_NEXT_SEQ + 1) % 2 ^ 32 := by
      rw [State.silOldest_nextSeq (h ▸ wf_setFld _ _ _ wf), ← numbered, State.fld, State.reg, h]
      rfl
    exact stored rfl

/-- With room in the ring no OVERFLOW_BEGIN follows. -/
theorem State.sillage_room {s : State} (room : s.sil.ring.length < 65536) (source code severity : Nat) (params : List Nat) :
    s.sillage source code severity params
      = (s.silStore source code severity 0 none false params).chrMatch source code severity := by
  have stays : (!s.sil.begun && decide (65536 ≤ s.sil.ring.length) && decide (0 < s.overflowRoom)) = false := by
    rw [decide_eq_false (Nat.not_le.mpr room), Bool.and_false, Bool.false_and]
  unfold State.sillage State.silRec
  dsimp only
  rw [if_neg (Bool.eq_false_iff.mp stays)]

/-! ### The clear -/

/-- The live log emptied. -/
def State.silEmptied (s : State) : State := ({ s with sil := { s.sil with ring := [], overflow := [], begun := false } }).silOldest

/-- The holder of CTL_SEM clears the log and records it. -/
theorem exec_silClear {s : State} {r : FwRef} {e : JournalEntry} (hr : s.running = true) (entry : s.entryOf r = some e)
    (noNode : e.owner ≠ 0) (noPort : e.owner ≠ 4) (holder : s.fld F.CTL_SEM_OWNER = e.owner) :
    exec (.silClear r) s = .next ((s.silEmptied.sillage 0x10 0x02 0 [s.sil.ring.length + s.sil.overflow.length]).finishFw r ACK_OK
      (s.sil.ring.length + s.sil.overflow.length)) := by
  have ran : exec (.silClear r) s = execSilClear r s := rfl
  rw [ran, execSilClear, act_running hr]
  simp only [entry, noNode, noPort, holder, ne_eq, not_true_eq_false, or_self, if_false]
  rfl

/-- What the CLEARED record leaves of the log. -/
theorem State.cleared_log {s : State} (wf : Store.wf regDefault s.regs = true) (n : Nat) :
    (s.silEmptied.sillage 0x10 0x02 0 [n]).sil.overflow = []
    ∧ ((s.silEmptied.sillage 0x10 0x02 0 [n]).sil.ring = [] ∧ (s.sil.rate.2 < 16 → 0 < s.fld F.SIL_CFG_MIN_SEVERITY)
      ∨ ∃ x : SilRec, (s.silEmptied.sillage 0x10 0x02 0 [n]).sil.ring = [x] ∧ x.source = 0x10 ∧ x.code = 0x02
        ∧ x.seq = s.fld F.SIL_STATUS_NEXT_SEQ ∧ x.params = [n]) := by
  have room : s.silEmptied.sil.ring.length < 65536 := Nat.zero_lt_succ _
  have seq : s.silEmptied.fld F.SIL_STATUS_NEXT_SEQ = s.fld F.SIL_STATUS_NEXT_SEQ := State.silOldest_nextSeq wf
  have filter : s.silEmptied.fld F.SIL_CFG_MIN_SEVERITY = s.fld F.SIL_CFG_MIN_SEVERITY :=
    fld_setFld_other _ _ _ _ _ _ (.inl (by decide))
  obtain ⟨overflow, ring⟩ := State.silStore_log room 0x10 0x02 (by decide : 0 < 2) 0 none false [n]
  rw [State.sillage_room room, (State.chrMatch_keeps ..).sil rfl]
  rw [filter, seq] at ring
  exact ⟨overflow, ring⟩

theorem State.cleared_nextSeq {s : State} (wf : Store.wf regDefault s.regs = true) (n : Nat) :
    (s.silEmptied.sillage 0x10 0x02 0 [n]).fld F.SIL_STATUS_NEXT_SEQ = (s.fld F.SIL_STATUS_NEXT_SEQ + 1) % 2 ^ 32 := by
  have room : s.silEmptied.sil.ring.length < 65536 := Nat.zero_lt_succ _
  have wfEmptied : Store.wf regDefault s.silEmptied.regs = true := wf_setFld _ _ _ wf
  rw [State.sillage_room room, (State.chrMatch_keeps ..).fld _ _ rfl, State.silStore_nextSeq wfEmptied room _ _ (by decide)]
  exact congrArg (fun q => (q + 1) % 2 ^ 32) (State.silOldest_nextSeq wf)

/-! ### A cursor on a record that is gone (R384) -/

/-- A field of a register that a command does not name holds the same. -/
theorem exec_keeps_fld {c : Instr} {s t : State} (h : exec c s = .next t) (f : Fld) (i : Nat) (hr : c.regs.elem f.reg = false) :
    t.fld f i = s.fld f i :=
  (exec_keeps h).fld f i (maskOf_reg_clear (fun named => Bool.noConfusion ((List.elem_eq_true_of_mem named).symm.trans hr)) c.parts)

/-- Whether the part runs rests on its power and its power state. -/
theorem exec_keeps_running {c : Instr} {s t : State} (h : exec c s = .next t) (hp : c.parts.elem .power = false)
    (hr : c.regs.elem .PWR_STATUS = false) : t.running = s.running := by
  rw [State.running, exec_keeps_power h hp, exec_keeps_fld h F.PWR_STATUS_STATE 0 hr, State.running]

/-- The word of a cursor that shows a later record than the one asked for. -/
theorem getBits_gone (auto' : Bool) {p : Nat} (h : p < 2 ^ 32) :
    getBits (BitVec.ofNat 64 (0 * 2 ^ 32 + bit auto' * 2 ^ 33 + p + bit true * 2 ^ 34)) 34 1 = 1 := by
  have flag : bit auto' ≤ 1 := by cases auto' <;> decide
  have one : bit true = 1 := rfl
  rw [getBits, one, BitVec.toNat_ushiftRight, BitVec.toNat_ofNat, Nat.shiftRight_eq_div_pow]
  omega

/-- With one record in the live log, a cursor written to an earlier position shows GONE. -/
theorem State.writeCursor_gone {t : State} {x : SilRec} (wf : Store.wf regDefault t.regs = true) (overflow : t.sil.overflow = [])
    (ring : t.sil.ring = [x]) (small : x.seq < 2 ^ 32) (owner : Nat) {v : Word} (live : getBits v 32 1 = 0)
    (before : getBits v 0 32 < x.seq) : (t.writeCursor owner v).flag F.SIL_CURSOR_GONE owner = true := by
  have selected : t.silSelect 0 (getBits v 0 32) = some (x, x.seq, true) := by
    simp [State.silSelect, overflow, ring, Nat.le_of_lt before, Nat.ne_of_gt before]
  rw [State.writeCursor, live, State.latch, selected]
  dsimp only
  rw [State.flag, (State.showWindow_keeps ..).fld _ _ rfl]
  show (getBits ((t.setReg .SIL_CURSOR owner _).reg .SIL_CURSOR owner) 34 1 == 1) = true
  rw [reg_setReg_same _ _ _ _ wf]
  exact beq_iff_eq.mpr (getBits_gone _ small)

/-- A write of SIL_CURSOR while the part runs. -/
theorem exec_silCursorWrite {s : State} {owner : Owner} (h : s.accessRuns owner.val) (v : Word) :
    exec (.silCursorWrite owner v) s = .next ((s.writeCursor owner.val v).emit (.access owner.val ST_OK 0)) := by
  have ran : exec (.silCursorWrite owner v) s = execSilCursorWrite owner v s := rfl
  rw [ran, execSilCursorWrite, accessBy_runs h]

/-- Settles O41: the log is emptied before the CLEARED record goes through the rate and the filter (`State.cleared_log`), and a cursor
then finds that record alone. -/
theorem silClearDiscardsEveryRecord : Obligations.silClearDiscardsEveryRecord := by
  refine ⟨?clears, ?records⟩
  case clears =>
    intro s r e hr wf entry noNode noPort holder
    obtain ⟨wfRegs, -⟩ := wf
    obtain ⟨overflow, ring⟩ := State.cleared_log wfRegs (s.sil.ring.length + s.sil.overflow.length)
    refine ⟨_, exec_silClear hr entry noNode noPort holder, overflow, ?only, ?atMost, ?seq, ?persistent, State.finishFw_last ..⟩
    case only =>
      intro x mem
      rw [State.finishFw_sil] at mem
      obtain ⟨empty, -⟩ | ⟨y, one, source, code, -⟩ := ring
      · rw [empty] at mem
        cases mem
      · rw [one, List.mem_singleton] at mem
        exact mem ▸ ⟨source, code⟩
    case atMost =>
      rw [State.finishFw_sil]
      obtain ⟨empty, -⟩ | ⟨y, one, -⟩ := ring
      · rw [empty]
        decide
      · rw [one]
        rfl
    case seq => rw [State.finishFw_fld, State.cleared_nextSeq wfRegs]
    case persistent =>
      rw [State.finishFw_cocoon, (State.sillage_keeps ..).cocoon rfl]
      rfl
  case records =>
    intro s r e hr wf entry noNode noPort holder filter rate
    obtain ⟨overflow, ⟨-, refused⟩ | ⟨x, ring, -, -, seq, params⟩⟩ :=
      State.cleared_log wf.1 (s.sil.ring.length + s.sil.overflow.length)
    · have high := refused rate
      omega
    have ran := exec_silClear hr entry noNode noPort holder
    refine ⟨_, x, ran, ring, params, seq, fun owner v reached live before => ?_⟩
    have runs := (exec_keeps_running ran rfl rfl).trans hr
    refine ⟨_, exec_silCursorWrite ⟨reached, runs⟩ v, ?_⟩
    rw [State.emit_flag]
    exact State.writeCursor_gone ((exec_keeps ran).wf wf).1 overflow ring (seq ▸ s.fld_lt F.SIL_STATUS_NEXT_SEQ 0) owner.val live before

end Sys2Proof.Machine
end
